-- ==== Sys2Proof/Word.lean ====
section
/-! DEFINITION. The word types of the register space and of the codes. -/

namespace Sys2Proof

/-- A register word (R426). -/
abbrev Word := BitVec 32

/-- One byte of a tensor plane, an image or a flit. -/
abbrev Byte := BitVec 8

end Sys2Proof
end

