-- ==== Sys2Proof/Syntax.lean ====
section
/-! DEFINITION. The commands of spec/opcode_table.json with their operands: one constructor per row. -/

namespace Sys2Proof

/-- What a Shesor command datagram's header carries (R366): session, sequence number, priority, context; and with it the
source address, the arrival-to-dispatch time in ns, how many priority 0 commands were undispatched (R372), and whether it
arrived together with a command of another source (R276). -/
structure Hdr where
  session : Nat := 0
  seq : Nat := 1
  prio : Nat := 0
  ctx : Nat := 0
  src : Nat := 0
  lat : Nat := 0
  p0 : Nat := 0
  tie : Bool := false
  deriving DecidableEq, Repr

/-- A buffer reference (R363). -/
structure BufRef where
  qp : Nat := 0
  rkey : Nat := 0
  addr : Nat := 0
  len : Nat := 0
  deriving DecidableEq, Repr

/-- The payload of NET_CONFIG (R368): IPv4, IPv6, prefix length, allow-list. -/
structure NetCfg where
  ipv4 : Nat := 0
  ipv6 : Nat := 0
  pfx : Nat := 0
  allow : List Nat := []
  deriving DecidableEq, Repr

/-- The payload of QP_CONNECT (R368). -/
structure QpCfg where
  pmtu : Nat := 0
  retry : Nat := 0
  rnr : Nat := 0
  rqpn : Nat := 0
  gid : Nat := 0
  sqPsn : Nat := 0
  rqPsn : Nat := 0
  deriving DecidableEq, Repr

/-- The payload of RESTORE (R368): source twin or image, which options it sets, and the buffers. -/
structure RestoreArgs where
  twin : Bool := false
  setJournal : Option Bool := none
  image : BufRef := {}
  plan : Option BufRef := none
  table : Option BufRef := none
  deriving DecidableEq, Repr

/-- The payload of a command, as a datagram or a ring entry carries it (R368). -/
inductive HostCmd where
  | open_
  | close
  | regRead (addr count : Nat)
  | regWrite (addr : Nat) (ws : List Word)
  | netConfig (c : NetCfg)
  | qpConnect (qp : Nat) (c : QpCfg)
  | qpDestroy (qp : Nat)
  | ringConfig (ring prio qp : Nat) (enable : Bool)
  | create (journal : Bool) (seed : Option (BitVec 64))
  | loadPlan (plan table : BufRef)
  | setSeed (seed : BitVec 64)
  | activate (table : Option BufRef)
  | deactivate
  | switch (outs : List Nat) (incoming : Nat) (table : Option BufRef)
  | resume
  | export_ (b : BufRef)
  | restore (r : RestoreArgs)
  | exportKj7 (b : BufRef)
  | destroy
  | admit_ (off len : Nat)
  | eval (evalno : Nat) (take : Bool) (off len : Nat)
  | setWindow (b : BufRef)
  | selfTest (unit : Nat) (force : Bool)
  | pair (twin links : Nat) (table : BufRef)
  | probeLoad (b : BufRef)
  | fwUpdate (b : BufRef)
  | attest (nonce : List Byte)
  | cert
  | unpair
  | telemConfig (stream mode : Nat) (b : BufRef)
  | reserved (opcode : Nat)
  deriving DecidableEq, Repr

/-- One entry of a command ring: sequence number and context of its header, payload length, the command (R369). -/
structure RingEntry where
  seq : Nat := 0
  ctx : Nat := 0
  len : Nat := 0
  cmd : HostCmd := .cert
  deriving DecidableEq, Repr

/-- A work order's header as the Scribe rewrote it (R264, R265): context, member slot, layer, phase, the tread it runs at,
half of a split step, replica position, plan pegs (0xFFFF none), rounding attribute, template index, instance ordinal within the
template (R296). -/
structure WoHdr where
  ctx : Nat := 0
  hall : Nat := 0
  aisle : Nat := 0
  slot : Nat := 0
  layer : Nat := 0xFFFF
  phase : Nat := 4
  tread : Nat := 0
  half : Nat := 0
  pos : Nat := 0
  waitPeg : Nat := 0xFFFF
  donePeg : Nat := 0xFFFF
  rnd : Nat := 0
  template : Nat := 0
  inst : Nat := 0
  deriving DecidableEq, Repr

/-- Body of a matrix tile (R266). -/
structure MtArgs where
  w : Nat
  wFmt : Nat
  a : Nat
  aFmt : Nat
  y : Nat
  yFmt : Nat
  bay : Nat := 0
  run : Nat := 0
  plumb : Bool := false
  int32 : Bool := false
  fp32Out : Bool := false
  m0 : Nat := 0
  n0 : Nat := 0
  k0 : Nat := 0
  m : Nat := 1
  n : Nat := 1
  k : Nat := 1
  deriving DecidableEq, Repr

/-- Body of an element-wise work order (R266). -/
structure EwArgs where
  outFmt : Nat
  in0 : Nat
  in1 : Nat := 0xFFFFFF
  in2 : Nat := 0xFFFFFF
  out : Nat
  aux : Nat := 0xFFFFFF
  p0 : Nat := 0
  p1 : Nat := 0
  rowLen : Nat := 1
  start : Nat := 0
  count : Nat := 1
  deriving DecidableEq, Repr

/-- Body of a reduction (R266). -/
structure RdArgs where
  outFmt : Nat
  in0 : Nat
  in1 : Nat := 0xFFFFFF
  out : Nat
  axis : Nat := 0
  start : Nat := 0
  count : Nat := 1
  deriving DecidableEq, Repr

/-- Body of a movement (R266): TID 0xFF_FFFF names the transfer window. -/
structure MvArgs where
  src : Nat
  dst : Nat
  srcOff : Nat := 0
  dstOff : Nat := 0
  len : Nat := 0
  deriving DecidableEq, Repr

/-- The MX option of a movement (R266): element code and block size code. -/
structure MxArgs where
  elem : Nat
  block : Nat := 2
  deriving DecidableEq, Repr

/-- Body of a peg operation (R266): plan peg, device (0xFFFF local), arrive count or target. -/
structure PegArgs where
  peg : Nat
  device : Nat := 0xFFFF
  value : Nat := 0
  deriving DecidableEq, Repr

/-- The tests of a hall's wake (R177, R397): its update engine's, and the galleries whose joiner failed. -/
structure WakeTests where
  engineOk : Bool := true
  bad : List Nat := []
  deriving DecidableEq, Repr

/-- A bay of an aisle: physical gallery, and 0 F, 1 X, 2 W (R6, R9). -/
structure BayOf where
  gallery : Nat
  bay : Nat
  deriving DecidableEq, Repr

/-- How the self-test of a hall-edge engine ended; `failKat`: on its known-answer test (R177, R310). -/
inductive EngineResult where
  | pass
  | fail
  | failKat
  deriving DecidableEq, Repr

/-- Body of an evaluation pass (R266). -/
structure EvArgs where
  evalno : Nat := 0
  take : Bool := false
  input : Nat := 0xFFFFFF
  report : Nat := 0xFFFFFF
  lfirst : Nat := 0
  llast : Nat := 0
  deriving DecidableEq, Repr

/-- Body of a simulation kernel (R266). -/
structure SkArgs where
  prec : Nat
  s : Nat := 0
  a : Nat
  b : Nat
  c : Nat
  m0 : Nat := 0
  n0 : Nat := 0
  m : Nat := 1
  n : Nat := 1
  k : Nat := 1
  deriving DecidableEq, Repr

/-- A PROTO 1 peg operation as it travels (R383): sender, reference for its acknowledgement, context, plan peg, OP, VALUE,
owner tag; with an arrive on SKIP or REPEAT its cause code and step (R209, R450). -/
structure PegMsg where
  src : Nat
  ref : Nat
  ctx : Nat
  peg : Nat
  op : Nat
  value : Nat
  tag : Nat
  cause : Nat := 0
  step : Nat := 0
  deriving DecidableEq, Repr

/-- An exchange packet as it travels (R191): the header's fields, the present blocks of the body with their mantissas and
residues, and the exponent of an AGREE packet. -/
structure ExPkt where
  tag : Nat := 0
  kind : Nat := 0
  step : Nat := 0
  seq : Nat := 0
  attempt : Nat := 0
  breach : Bool := false
  poison : Bool := false
  wide : Bool := false
  bump : Nat := 0
  gmax : Nat := 0
  src : Nat := 0
  chunk : Nat := 0
  first : Nat := 0
  nblk : Nat := 0
  hops : Nat := 0
  present : List Nat := []
  blocks : List (List Int) := []
  residues : List Nat := []
  agree : Int := 0
  deriving DecidableEq, Repr

/-- A mirror record (R162): context, step, parameter tensor, slice, the prepared gradient, new parameters and moments. -/
structure MirrorRec where
  ctx : Nat
  step : Nat
  tid : Nat
  slice : Nat
  grad : List Nat := []
  params : List Nat := []
  moments : List (List Nat) := []
  deriving DecidableEq, Repr

/-- A step summary (R215, R450): PEND and TRIP per gauge, raise requests, optimizer counters that advance, parties. -/
structure StepSummary where
  ctx : Nat
  step : Nat
  pend : List (Nat × Nat) := []
  trips : List Nat := []
  tallies : List (Nat × List Nat) := []
  raises : List Nat := []
  counters : List Nat := []
  parties : List Nat := []
  deriving DecidableEq, Repr

/-- What an uncorrectable line of HBM holds (R336). -/
inductive LineHolds where
  | params (ctx tid slice : Nat)
  | journal (ctx tid slice : Nat)
  | forward (ctx tid : Nat)
  | inactive (ctx : Nat)
  | residual (ctx tid first : Nat)
  | gauge (ctx gauge : Nat)
  | control (ctx : Nat)
  | stack (ctx : Nat)
  | record (ctx : Nat)
  | simulation (ctx tid off : Nat)
  | free
  deriving DecidableEq, Repr

/-- The commands, one constructor per row of the table. -/
inductive Instr where
  /-- OPEN (R367): Host command that creates a command session and returns its number. -/
  | open_ (h : Hdr)
  /-- CLOSE (R367): Host command that ends a command session. -/
  | close (h : Hdr)
  /-- REG_READ (R426): Host command that reads 1 to 256 register words in increasing address order and returns them. -/
  | regRead (h : Hdr) (addr : Nat) (count : Nat)
  /-- REG_WRITE (R428): Host or Riendin write of register words that have no row of their own; RW fields act at once, RWS fields go to the shadow bank, W1C bits clear. -/
  | regWrite (riendin : Bool) (h : Hdr) (addr : Nat) (ws : List Word)
  /-- NET_CONFIG (R361): Host command that writes the IPv4 and IPv6 addresses and the allow-list to flash. -/
  | netConfig (h : Hdr) (c : NetCfg)
  /-- QP_CONNECT (R363): Host command that creates and connects a RoCEv2 queue pair. -/
  | qpConnect (h : Hdr) (qp : Nat) (c : QpCfg)
  /-- QP_DESTROY (R363): Host command that removes a queue pair, refused with QP_BUSY while the QP is still named. -/
  | qpDestroy (h : Hdr) (qp : Nat)
  /-- RING_CONFIG (R369): Host command that binds a command ring to a QP and a priority and returns the ring's RKEY. -/
  | ringConfig (h : Hdr) (ring : Nat) (prio : Nat) (qp : Nat) (enable : Bool)
  /-- CREATE (R275): Context command that takes a FREE context number to RESIDENT, with a fixed journal flag and an optional seed. -/
  | create (h : Hdr) (journal : Bool) (seed : Option (BitVec 64))
  /-- LOAD_PLAN (R271): Context command that checks a plan image and binds it at once or at the next step boundary, forming frames, pegs and regions for an ACTIVE context. -/
  | loadPlan (h : Hdr) (plan : BufRef) (table : BufRef)
  /-- SET_SEED (R179): Context command that supplies or replaces the seed at the next step boundary. -/
  | setSeed (h : Hdr) (seed : BitVec 64)
  /-- ACTIVATE (R279): Context command that takes a RESIDENT context to ACTIVE, forming frames, binding pegs and reserving regions. -/
  | activate (h : Hdr) (table : Option BufRef)
  /-- DEACTIVATE (R275): Context command that returns an ACTIVE context to RESIDENT at its boundary and releases its frames, pegs, tags, slot and regions. -/
  | deactivate (h : Hdr)
  /-- SWITCH (R284): Context command, checked whole, that deactivates up to eight outgoing contexts and activates one incoming context. -/
  | switch (h : Hdr) (outs : List Nat) (incoming : Nat) (table : Option BufRef)
  /-- RESUME (R275): Context command that clears SUSPENDED and admits any pending repeat on its held batch. -/
  | resume (h : Hdr)
  /-- EXPORT (R289): Context command that writes a context image by RDMA WRITE: sections, then the directory, then the header last. -/
  | export_ (h : Hdr) (b : BufRef)
  /-- RESTORE (R291): Context command that checks a context image or the twin's shadow and replaces the context's state, with a new home placement. -/
  | restore (h : Hdr) (r : RestoreArgs)
  /-- EXPORT_KJ7 (R293): Context command that writes a KJ7 version 3 snapshot of parameters and moments. -/
  | exportKj7 (h : Hdr) (b : BufRef)
  /-- DESTROY (R275): Context command that takes a RESIDENT context to FREE and releases every byte of it. -/
  | destroy (h : Hdr)
  /-- ADMIT (R207): Command that, at the context's step boundary, checks the context and batch, fixes the step number and dispatches the attempt's first work order. -/
  | admit_ (h : Hdr) (off : Nat) (len : Nat)
  /-- EVAL (R222): Command that starts an evaluation pass at the step boundary against the live forward copies. -/
  | eval (h : Hdr) (evalno : Nat) (take : Bool) (off : Nat) (len : Nat)
  /-- SET_WINDOW (R363): Command that sets the context's transfer window at its next step boundary. -/
  | setWindow (h : Hdr) (b : BufRef)
  /-- SELF_TEST (R309): Management command that requests a self-test of a hall, aisle or gallery, optionally forcing an immediate quarantine. -/
  | selfTest (h : Hdr) (unit : Nat) (force : Bool)
  /-- PAIR (R324): Management command that pairs the device with a twin over the named bundle links and starts seeding. -/
  | pair (h : Hdr) (twin : Nat) (links : Nat) (table : BufRef)
  /-- PROBE_LOAD (R311): Management command that fetches a probe pack, verifies its signature and version, and stores it in flash. -/
  | probeLoad (h : Hdr) (b : BufRef)
  /-- FW_UPDATE (R420): Command that fetches a Riendin image, checks it and writes it to the inactive flash slot as PENDING. -/
  | fwUpdate (h : Hdr) (b : BufRef)
  /-- ATTEST (R422): Command that returns a 320-byte report signed with the device identity key over the sent nonce. -/
  | attest (h : Hdr) (nonce : List Byte)
  /-- CERT (R419): Command that returns the device certificate followed by the CA certificate. -/
  | cert (h : Hdr)
  /-- UNPAIR (R331): Management command that ends a pairing once every mirrored context has passed a boundary, or at once for PEER_LOST or SERVING. -/
  | unpair (h : Hdr)
  /-- TELEM_CONFIG (R373): Command that sets a telemetry stream to off, datagrams or a host ring. -/
  | telemConfig (h : Hdr) (stream : Nat) (mode : Nat) (b : BufRef)
  /-- DOORBELL (R369): RDMA WRITE of a producer index to the doorbell page, which makes the device read and execute the new ring entries in index order. -/
  | doorbell (qp : Nat) (ring : Nat) (producer : Nat) (lat : Nat) (ce : Bool)
  /-- RDMA_WRITE (R363): Incoming RoCEv2 request that places command-ring entries; any READ, SEND or WRITE elsewhere receives an invalid-request NAK. -/
  | rdmaWrite (qp : Nat) (ring : Nat) (index : Nat) (entry : Option RingEntry) (ce : Bool)
  /-- TRANSFER_DONE (R363): Completion of an RDMA READ or WRITE to host memory that a command or movement work order was waiting on. -/
  | transferDone (id : Nat) (data : List Byte) (ok : Bool)
  /-- QP_ERROR (R365): A QP exhausts its retries and enters the error state, ending every transfer pending on it. -/
  | qpError (qp : Nat)
  /-- CNP (R364): Receipt of a congestion notification packet, which halves the QP's rate down to 1 Gbit/s at least. -/
  | cnp (qp : Nat)
  /-- HP_CC_PERIOD (R364): A congestion recovery period passes without a notification, and the QP's rate rises by STEP. -/
  | hpCcPeriod (qp : Nat)
  /-- PFC (R364): Receipt of an IEEE 802.1Qbb priority flow control frame, which pauses or resumes a priority. -/
  | pfc (prio : Nat) (pause : Bool)
  /-- ARP (R360): ARP request answered by the host port. -/
  | arp (src : Nat) (target : Nat)
  /-- NEIGHBOUR_DISCOVERY (R360): IPv6 neighbour discovery message answered by the host port. -/
  | neighbourDiscovery (src : Nat) (target : Nat)
  /-- ICMP_ECHO (R360): ICMP or ICMPv6 echo request answered by the host port. -/
  | icmpEcho (src : Nat) (target : Nat) (v6 : Bool) (data : List Byte)
  /-- SESS_IDLE (R367): A session with no datagram for SESS_IDLE seconds ends. -/
  | sessIdle (session : Nat)
  /-- TELEMETRY_RECORD (R373): The device delivers a telemetry record as a datagram or into a host ring, reading the consumer count before overwriting a chunk. -/
  | telemetryRecord (stream : Nat) (ctx : Nat) (consumer : Nat)
  /-- BLK_SWING_GO (R433): Write of GO to BLK_SWING, which moves the page's staged RWS writes to WAITING, alone or joining a swing group. -/
  | blkSwingGo (page : Nat) (group : Nat)
  /-- BLK_SWING_CANCEL (R439): Write of CANCEL to BLK_SWING, which copies the applied values into the shadow, ends the pending swing and leaves any group. -/
  | blkSwingCancel (page : Nat)
  /-- SWING_APPLY (R434): A page with a pending swing reaches its quiet point, and its drain condition holds if it has one; every staged field is applied in one hub cycle. -/
  | swingApply (page : Nat)
  /-- SWING_FIRE (R436): Write of FIRE to SW_FIRE, which sets the swing peg's target to the group's member count. -/
  | swingFire
  /-- SWING_ABORT (R436): Write of ABORT to SW_FIRE, which aborts the selected group, releases held contexts and leaves the values staged. -/
  | swingAbort
  /-- SWING_PEG_ARRIVE (R436): A group member reaches its quiet point and arrives on its swing peg; when the peg reaches its target, every member applies together. -/
  | swingPegArrive (page : Nat)
  /-- HOLD_MAX (R436): A context held for a swing group for HOLD_MAX ms aborts the group. -/
  | holdMax (group : Nat) (ms : Nat)
  /-- GE_WORD_LO (R107): Write to GE_WORD_LO, which sets the low half of the gauge-word holding register. -/
  | geWordLo (x : Word)
  /-- GE_WORD_HI (R107): Write to GE_WORD_HI, which stages a whole gauge word for the selected context and gauge in the 4,096-word store. -/
  | geWordHi (x : Word)
  /-- GE_HIST_FETCH (R106): A read of GE_HIST fetches the selected gauge's history slots from HBM, valid when BLK_STAT shows READY within 2 µs. -/
  | geHistFetch (slot : Nat)
  /-- GE_HIST_READY (R106): The history fetch completes and the window is marked ready. -/
  | geHistReady
  /-- LATCH_HIGH_WORD (R72): A read of the low word of a 64-bit counter latches its high word. -/
  | latchHighWord (addr : Nat)
  /-- RN_GO (R180): Write of 1 to RN_GO, which starts one Philox block on the reference generator. -/
  | rnGo (x : Word)
  /-- RN_DONE (R180): The reference block completes within 1 µs and is placed in RN_OUT0-3 with DONE set. -/
  | rnDone
  /-- SE_TEST (R309): Write of a physical identifier to SE_TEST, which requests a self-test, quarantining at once when FORCE is set. -/
  | seTest (x : Word)
  /-- WARM (R404): Write of 1 to PW_CTRL.WARM, which acts as a warm-reset falling edge followed by a release 10 µs later. -/
  | warm
  /-- EC_RING (R386): Write to EC_RING, which raises the writer's doorbell source at the target processor. -/
  | ecRing (writer : Nat) (target : Nat)
  /-- EC_SCFG (R388): Write to EC_SCFG, which reroutes, enables or clears a shared source; a reserved TARGET sets ROUTE_INV. -/
  | ecScfg (x : Word)
  /-- PG_GREACH (R389): Write to PG_GREACH, which clears REACHED bits and re-arms the group line if any enabled bit remains. -/
  | pgGreach (hall : Nat) (x : Word)
  /-- EVT_SET (R430): Write to EVT_SET, which sets the matching event pending bits. -/
  | evtSet (page : Nat) (x : Word)
  /-- PORESET_N_ASSERT (R403): PORESET_N goes low and every domain is held in reset, except the fuses and the monotonic count. -/
  | poresetNAssert
  /-- PORESET_N_RELEASE (R415): PORESET_N is released, the control group is enabled and the SC cold-boots, or enters service mode when SVC_EN_N is low. -/
  | poresetNRelease (svcEnN : Bool)
  /-- FLASH_ERASE (R445): Service-port request that erases flash in service mode. -/
  | flashErase (addr : Nat) (len : Nat)
  /-- FLASH_WRITE (R445): Service-port request that writes flash in service mode. -/
  | flashWrite (addr : Nat) (data : List Byte)
  /-- WARMRESET_N_FALL (R404): WARMRESET_N falls; stacks enter self-refresh, then the hubs, halls and aisles are reset. -/
  | warmresetNFall
  /-- WARMRESET_N_RISE (R416): WARMRESET_N rises; the SC warm-boots and Riendin recovers resident contexts, abandoning any attempt in progress. -/
  | warmresetNRise
  /-- READY (R413): Riendin reaches READY; the slot becomes ACTIVE, rollback fuses are blown and key slots revoked as the image says. -/
  | ready
  /-- ROM_WATCHDOG (R413): Riendin fails to reach READY within 1 s; the hubs are reset and the next slot is booted with FALLBACK set. -/
  | romWatchdog
  /-- FW_WRITE_DONE (R420): The background flash write of an update completes and the slot's state word becomes PENDING. -/
  | fwWriteDone
  /-- WAKE_N (R400): A rising edge on WAKE_N ends DORMANT: the hubs power up, Riendin is verified in resume form and the hub state is reloaded. -/
  | wakeN (imageOk : Bool)
  /-- PW_WAKE (R400): The DORMANT wake timer expires and starts the same wake as WAKE_N. -/
  | pwWake (imageOk : Bool)
  /-- DORMANT_ENTRY (R399): With DORMANT_REQ set and all conditions met, hub state is saved to HBM, event state is retained and the hubs power off. -/
  | dormantEntry
  /-- REF_LOST (R402): REFCLK loss is detected within 2 µs; the device sends a DOWN beat and declares itself lost. -/
  | refLost
  /-- SUPPLY_LOST (R393): MAIN or BACKUP is lost by undervoltage or overvoltage, and the other input takes the full load within 2 µs. -/
  | supplyLost (input : Nat) (mv : Nat)
  /-- SUPPLY_RETURN (R393): A lost 48 V input has stayed inside its window for 10 ms and is taken back into use. -/
  | supplyReturn (input : Nat) (mv : Nat)
  /-- STBY_LOST (R394): STBY is lost while 48 V is present; STBY_LOST is set and source 254 raised. -/
  | stbyLost (mv : Nat)
  /-- POWER_LOST (R394): Both 48 V inputs are lost; every domain but the always-on domain loses power, and the device is lost. -/
  | powerLost
  /-- POWER_RETURN (R394): A 48 V input returns with PORESET_N high, and the device runs a cold boot. -/
  | powerReturn (input : Nat) (mv : Nat)
  /-- THERMAL_TRIP (R447): Two consecutive samples at or above the trip level drive THERMTRIP_N and FAULT_N low, send a DOWN beat and stop the clocks. -/
  | thermalTrip (unit : Nat) (sensor : Nat) (temp : Int)
  /-- DUTY_UPDATE (R407): Each 1 ms, every hall's issue duty is recomputed from its sensors and the power cap. -/
  | dutyUpdate (temps : List (Nat × Nat × Int)) (watts : Nat)
  /-- SENSOR_STALE (R406): A temperature sensor that has not updated for 10 ms is ignored and sets MN_ERR.SENSOR. -/
  | sensorStale (unit : Nat) (sensor : Nat)
  /-- RAIL_FAULT (R406): A rail outside its fault window for more than 1 µs is a fault of every block on that rail. -/
  | railFault (unit : Nat) (rail : Nat) (mv : Nat) (gallery : Option Nat)
  /-- MONITOR_RECORD (R406): Every 100 ms a monitor reading is sent on telemetry stream 4 for each hall and hub. -/
  | monitorRecord (unit : Nat)
  /-- ECS_READ (R332): Every 10 s Riendin reads the stacks' error-check-and-scrub counts into telemetry. -/
  | ecsRead (counts : List Nat)
  /-- GATE_IDLE (R396): A gallery idle for GATE_IDLE microseconds has its power gate closed. -/
  | gateIdle (hall : Nat) (aisle : Nat) (gallery : Nat)
  /-- GATE_OPEN (R395): A gallery power gate finishes opening within 2 µs, and waiting work or accesses proceed. -/
  | gateOpen (hall : Nat) (aisle : Nat) (gallery : Nat) (katOk : Bool)
  /-- HALL_IDLE (R396): A hall idle for HALL_IDLE ms with AUTO_SLEEP set enters deep sleep, its stack first entering self-refresh. -/
  | hallIdle (hall : Nat)
  /-- HALL_WAKE_DONE (R397): A hall wake completes within 60 µs and the requests waiting on it proceed. -/
  | hallWakeDone (hall : Nat) (ns : Nat) (tests : WakeTests)
  /-- FRAME_QUEUE_ACCEPT (R7): A frame queue delivers a work order to every addressed member in member order once every member queue has room. -/
  | frameQueueAccept (ctx : Nat) (frame : Nat)
  /-- MATRIX_TILE (R65): Matrix-tile work order: runs, promotion and accumulation on an F- or B-array, then drain through the landing unit. -/
  | matrixTile (w : WoHdr) (a : MtArgs)
  /-- ADD (R269): Element-wise addition. -/
  | add (w : WoHdr) (a : EwArgs)
  /-- SUB (R269): Element-wise subtraction. -/
  | sub (w : WoHdr) (a : EwArgs)
  /-- MUL (R269): Element-wise multiplication. -/
  | mul (w : WoHdr) (a : EwArgs)
  /-- DIV (R269): Element-wise division. -/
  | div (w : WoHdr) (a : EwArgs)
  /-- FMA (R269): Element-wise IN0 × IN1 + IN2 with one rounding. -/
  | fma (w : WoHdr) (a : EwArgs)
  /-- MIN (R269): Element-wise minimum. -/
  | min (w : WoHdr) (a : EwArgs)
  /-- MAX (R269): Element-wise maximum. -/
  | max (w : WoHdr) (a : EwArgs)
  /-- NEG (R269): Element-wise negation. -/
  | neg (w : WoHdr) (a : EwArgs)
  /-- ABS (R269): Element-wise absolute value. -/
  | abs (w : WoHdr) (a : EwArgs)
  /-- SQRT (R269): Element-wise square root. -/
  | sqrt (w : WoHdr) (a : EwArgs)
  /-- RSQRT (R269): Element-wise reciprocal square root within 1 ulp. -/
  | rsqrt (w : WoHdr) (a : EwArgs)
  /-- RECIP (R269): Element-wise reciprocal within 1 ulp. -/
  | recip (w : WoHdr) (a : EwArgs)
  /-- CLAMP (R269): Element-wise clamp to [P0, P1]. -/
  | clamp (w : WoHdr) (a : EwArgs)
  /-- RELU (R269): Element-wise ReLU, keeping a BF16 auxiliary record. -/
  | relu (w : WoHdr) (a : EwArgs)
  /-- LEAKY (R269): Element-wise leaky ReLU with slope P0. -/
  | leaky (w : WoHdr) (a : EwArgs)
  /-- GELU_TANH (R269): Element-wise GELU by the tanh form. -/
  | geluTanh (w : WoHdr) (a : EwArgs)
  /-- GELU_ERF (R269): Element-wise GELU by the erf form. -/
  | geluErf (w : WoHdr) (a : EwArgs)
  /-- SILU (R269): Element-wise SiLU. -/
  | silu (w : WoHdr) (a : EwArgs)
  /-- SIGMOID (R269): Element-wise sigmoid within 2 ulp. -/
  | sigmoid (w : WoHdr) (a : EwArgs)
  /-- TANH (R269): Element-wise tanh within 2 ulp. -/
  | tanh (w : WoHdr) (a : EwArgs)
  /-- SOFTPLUS (R269): Element-wise softplus. -/
  | softplus (w : WoHdr) (a : EwArgs)
  /-- EXP (R269): Element-wise exponential within 1 ulp. -/
  | exp (w : WoHdr) (a : EwArgs)
  /-- LOG (R269): Element-wise logarithm within 1 ulp. -/
  | log (w : WoHdr) (a : EwArgs)
  /-- GLU_SILU (R269): Element-wise IN0 × silu(IN1). -/
  | gluSilu (w : WoHdr) (a : EwArgs)
  /-- GLU_GELU (R269): Element-wise gated GELU. -/
  | gluGelu (w : WoHdr) (a : EwArgs)
  /-- RELU_DERIVATIVE (R269): dX = dY × relu'(x), with x read from the auxiliary record. -/
  | reluDerivative (w : WoHdr) (a : EwArgs)
  /-- LEAKY_DERIVATIVE (R269): Derivative of LEAKY. -/
  | leakyDerivative (w : WoHdr) (a : EwArgs)
  /-- GELU_TANH_DERIVATIVE (R269): Derivative of GELU_TANH. -/
  | geluTanhDerivative (w : WoHdr) (a : EwArgs)
  /-- GELU_ERF_DERIVATIVE (R269): Derivative of GELU_ERF. -/
  | geluErfDerivative (w : WoHdr) (a : EwArgs)
  /-- SILU_DERIVATIVE (R269): Derivative of SILU. -/
  | siluDerivative (w : WoHdr) (a : EwArgs)
  /-- SIGMOID_DERIVATIVE (R269): Derivative of SIGMOID. -/
  | sigmoidDerivative (w : WoHdr) (a : EwArgs)
  /-- TANH_DERIVATIVE (R269): Derivative of TANH. -/
  | tanhDerivative (w : WoHdr) (a : EwArgs)
  /-- SOFTPLUS_DERIVATIVE (R269): Derivative of SOFTPLUS. -/
  | softplusDerivative (w : WoHdr) (a : EwArgs)
  /-- EXP_DERIVATIVE (R269): Derivative of EXP. -/
  | expDerivative (w : WoHdr) (a : EwArgs)
  /-- LOG_DERIVATIVE (R269): Derivative of LOG. -/
  | logDerivative (w : WoHdr) (a : EwArgs)
  /-- GLU_SILU_DERIVATIVE (R269): Derivative of GLU_SILU, writing the second gradient to IN2. -/
  | gluSiluDerivative (w : WoHdr) (a : EwArgs)
  /-- GLU_GELU_DERIVATIVE (R269): Derivative of GLU_GELU, writing the second gradient to IN2. -/
  | gluGeluDerivative (w : WoHdr) (a : EwArgs)
  /-- LAYERNORM (R269): Row-wise layer normalisation, keeping μ and ρ per row. -/
  | layernorm (w : WoHdr) (a : EwArgs)
  /-- RMSNORM (R269): Row-wise RMS normalisation, keeping ρ per row. -/
  | rmsnorm (w : WoHdr) (a : EwArgs)
  /-- LAYERNORM_B (R269): Backward of LAYERNORM, also writing x̂ × dY. -/
  | layernormB (w : WoHdr) (a : EwArgs)
  /-- RMSNORM_B (R269): Backward of RMSNORM, also writing x̂ × dY. -/
  | rmsnormB (w : WoHdr) (a : EwArgs)
  /-- SOFTMAX (R270): Row-wise softmax. -/
  | softmax (w : WoHdr) (a : EwArgs)
  /-- LOGSOFTMAX (R270): Row-wise log-softmax. -/
  | logsoftmax (w : WoHdr) (a : EwArgs)
  /-- SOFTMAX_B (R270): Backward of softmax from the BF16 auxiliary record. -/
  | softmaxB (w : WoHdr) (a : EwArgs)
  /-- XENT (R270): Per-token cross-entropy loss from logits and INT32 labels. -/
  | xent (w : WoHdr) (a : EwArgs)
  /-- XENT_B (R270): Cross-entropy gradient, scaled exactly by 2^L. -/
  | xentB (w : WoHdr) (a : EwArgs)
  /-- MSE (R270): Element-wise squared error. -/
  | mse (w : WoHdr) (a : EwArgs)
  /-- MSE_B (R270): Squared-error gradient, scaled by P0 and 2^L. -/
  | mseB (w : WoHdr) (a : EwArgs)
  /-- DROPOUT (R270): Dropout with probability P0, drawing Philox bits keyed by OUT. -/
  | dropout (w : WoHdr) (a : EwArgs)
  /-- DROPOUT_B (R270): Backward of dropout, regenerating the same mask. -/
  | dropoutB (w : WoHdr) (a : EwArgs)
  /-- GATHER (R270): Copies table rows selected by INT32 indices. -/
  | gather (w : WoHdr) (a : EwArgs)
  /-- SCATTER_ADD (R270): Sums dY rows into table rows as an ordered reduction. -/
  | scatterAdd (w : WoHdr) (a : EwArgs)
  /-- SAMPLE (R270): Samples an index per row from softmax(x ÷ P0) under purpose 0x03. -/
  | sample (w : WoHdr) (a : EwArgs)
  /-- INIT_UNIFORM (R270): Initialises a tensor with uniform values from Philox draws. -/
  | initUniform (w : WoHdr) (a : EwArgs)
  /-- INIT_NORMAL (R270): Initialises a tensor with normal values by the Box–Muller transform. -/
  | initNormal (w : WoHdr) (a : EwArgs)
  /-- CONVERT (R269): Exact widening, then conversion into OUT_FMT. -/
  | convert (w : WoHdr) (a : EwArgs)
  /-- VADD (R269): IEEE addition in FP64 or FP32 under RND, with flags. -/
  | vadd (w : WoHdr) (a : EwArgs)
  /-- VSUB (R269): IEEE subtraction. -/
  | vsub (w : WoHdr) (a : EwArgs)
  /-- VMUL (R269): IEEE multiplication. -/
  | vmul (w : WoHdr) (a : EwArgs)
  /-- VDIV (R269): IEEE division. -/
  | vdiv (w : WoHdr) (a : EwArgs)
  /-- VFMA (R269): IEEE fusedMultiplyAdd. -/
  | vfma (w : WoHdr) (a : EwArgs)
  /-- VSQRT (R269): IEEE squareRoot. -/
  | vsqrt (w : WoHdr) (a : EwArgs)
  /-- VMIN (R269): IEEE minimum. -/
  | vmin (w : WoHdr) (a : EwArgs)
  /-- VMAX (R269): IEEE maximum. -/
  | vmax (w : WoHdr) (a : EwArgs)
  /-- VCONV (R269): IEEE convertFormat or convertToInteger. -/
  | vconv (w : WoHdr) (a : EwArgs)
  /-- SUM (R244): Reduction work order that sums a vector in canonical order. -/
  | sum (w : WoHdr) (a : RdArgs)
  /-- SUMSQ (R244): Reduction work order that sums squares. -/
  | sumsq (w : WoHdr) (a : RdArgs)
  /-- REDUCTION_MAX (R268): Reduction work order that takes the maximum. -/
  | reductionMax (w : WoHdr) (a : RdArgs)
  /-- REDUCTION_MIN (R268): Reduction work order that takes the minimum. -/
  | reductionMin (w : WoHdr) (a : RdArgs)
  /-- MAXABS (R268): Reduction work order that takes the largest magnitude. -/
  | maxabs (w : WoHdr) (a : RdArgs)
  /-- DOT (R244): Reduction work order that forms a dot product of IN0 and IN1. -/
  | dot (w : WoHdr) (a : RdArgs)
  /-- MOVEMENT (R266): Movement work order that copies bytes between SRAM, HBM and the transfer window. -/
  | movement (w : WoHdr) (a : MvArgs)
  /-- MX_IMPORT (R45): Movement with the MX import option, mapping MX data onto native formats. -/
  | mxImport (w : WoHdr) (a : MvArgs) (x : MxArgs)
  /-- MX_EXPORT (R47): Movement with the MX export option, folding the tensor exponent into block scales or refusing with MX_RANGE. -/
  | mxExport (w : WoHdr) (a : MvArgs) (x : MxArgs)
  /-- ARRIVE (R379): Peg arrive that adds VALUE to COUNT and, on reaching TARGET, sets REACHED and releases waits. -/
  | arrive (w : WoHdr) (p : PegArgs)
  /-- WAIT (R379): Peg wait that holds the work order and those behind it until COUNT ≥ TARGET. -/
  | wait (w : WoHdr) (p : PegArgs)
  /-- SET (R379): Peg set that writes TARGET. -/
  | set (w : WoHdr) (p : PegArgs)
  /-- RESET (R379): Peg reset that clears COUNT and REACHED. -/
  | reset_ (w : WoHdr) (p : PegArgs)
  /-- QUERY (R379): Peg query that returns COUNT and TARGET in a completion record. -/
  | query (w : WoHdr) (p : PegArgs)
  /-- REMOTE_PEG_OP (R383): A PROTO 1 peg operation arrives from another device, is checked against owner, fence and binding, applied and acknowledged. -/
  | remotePegOp (m : PegMsg)
  /-- PEG_ACK (R383): A TC0 acknowledgement of a remote peg operation arrives and completes the sender's work order. -/
  | pegAck (ref : Nat) (status : Nat) (count : Nat) (target : Nat)
  /-- WAIT_RELEASE (R383): A release flit for a remote wait arrives at the waiter. -/
  | waitRelease (ref : Nat) (status : Nat)
  /-- EVALUATION_PASS (R222): Evaluation-pass work order that runs layers LFIRST to LLAST on the live copies. -/
  | evaluationPass (w : WoHdr) (a : EvArgs)
  /-- EVAL_PASS_END (R223): An evaluation pass ends and writes its report as OK or FAILED. -/
  | evalPassEnd (ctx : Nat)
  /-- SLICE_MODE_PRODUCT (R248): Simulation kernel SUB 0: split, digit-pair products on the arrays, exact combination and one rounding. -/
  | sliceModeProduct (w : WoHdr) (a : SkArgs)
  /-- JOINER_PRODUCT (R244): Simulation kernel SUB 1: matrix product by joiner dot products. -/
  | joinerProduct (w : WoHdr) (a : SkArgs)
  /-- WORK_ORDER_COMPLETE (R267): A work order completes; it reports tallies and maxima, arrives on its DONEPEG and writes a completion record where required. -/
  | workOrderComplete (ctx : Nat)
  /-- LAYER_END (R230): The last work order of a forward layer has reported, and its tallies decide whether to continue, repeat one tread up, skip or FLIGHT_ABORT. -/
  | layerEnd (ctx : Nat) (layer : Nat) (half : Nat) (pos : Nat)
  /-- SURVEY (R91): Survey pass 1 completes on every frame; the exponent is set from its maximum and pass 2 runs. -/
  | survey (ctx : Nat) (layer : Nat) (half : Nat) (pos : Nat)
  /-- LOSS (R219): The loss is reduced across the loss frame and checked for NaN, which skips the step. -/
  | loss (ctx : Nat) (half : Nat) (pos : Nat) (tid : Nat)
  /-- BACKWARD_LAYER_END (R235): A layer's last backward work order has reported and its tallies may skip the step. -/
  | backwardLayerEnd (ctx : Nat) (layer : Nat) (half : Nat) (pos : Nat)
  /-- RECOMPUTE_RERUN (R137): Backward reaches a recompute block's last layer, and the block's forward is rerun into the scratch, with CRC recheck. -/
  | recomputeRerun (ctx : Nat) (layer : Nat) (half : Nat) (pos : Nat)
  /-- STACK_POP (R133): The stack engine pops a frame ahead of bay W's need, up to PREFETCH frames. -/
  | stackPop (ctx : Nat) (hall : Nat)
  /-- SLICE_COMPLETE (R120): A weight-gradient slice's tree additions complete and it leaves bay W for its exchange hub or update engine. -/
  | sliceComplete (ctx : Nat) (layer : Nat) (ord : Nat) (pos : Nat)
  /-- BUCKET_OPEN (R184): All of a bucket's slices and residuals are present; contributions are selected and quantised and hop 0 is sent. -/
  | bucketOpen (ctx : Nat) (group : Nat) (ordinal : Nat) (pos : Nat)
  /-- REDUCE_PACKET (R194): A REDUCE exchange packet arrives; it is sequence- and residue-checked, added to own blocks and forwarded. -/
  | reducePacket (p : ExPkt)
  /-- GATHER_PACKET (R194): A GATHER exchange packet arrives, is checked and forwarded unchanged. -/
  | gatherPacket (p : ExPkt)
  /-- AGREE_PACKET (R94): An AGREE packet of the agreement round arrives and is combined by signed maximum. -/
  | agreePacket (p : ExPkt)
  /-- TREE_UP (R195): A TREE_UP packet of the two-level topology arrives and is reduced upward. -/
  | treeUp (p : ExPkt)
  /-- TREE_DOWN (R195): A TREE_DOWN packet arrives and is sent down the tree. -/
  | treeDown (p : ExPkt)
  /-- BUCKET_COMPLETE (R198): A bucket completes; the outcome table decides whether it is delivered final, retried, repeated or skipped. -/
  | bucketComplete (ctx : Nat) (group : Nat) (ordinal : Nat) (pos : Nat)
  /-- BUCKET_DEADLINE (R203): A bucket's timer runs out; LATE is set and the attempt ends REPEATED. -/
  | bucketDeadline (ctx : Nat) (group : Nat) (ordinal : Nat) (pos : Nat)
  /-- SLICE_ACCEPT (R145): A final slice is accepted into a free update-engine buffer; state is read, scanned for NaN and the update computed. -/
  | sliceAccept (ctx : Nat) (tid : Nat) (ord : Nat)
  /-- JOURNAL_ACK (R147): The memory controller acknowledges a slice's journal entry; the engine writes parameters, moments, forward copy and maxima, then sends the mirror record. -/
  | journalAck (ctx : Nat) (tid : Nat) (ord : Nat)
  /-- JWRITE (R161): A journal write fails; the slice stays unwritten and the attempt ends REPEATED with cause JWRITE. -/
  | jwrite (ctx : Nat) (tid : Nat) (ord : Nat)
  /-- MIRROR_QUEUE_READY (R162): Hub B's full mirror queue gains room and stalled engines resume. -/
  | mirrorQueueReady (cycles : Nat)
  /-- VERIFY (R215): VERIFY gathers tallies, residues, digests and duplicate results, and the party arrives on COMMIT, SKIP or REPEAT. -/
  | verify (ctx : Nat)
  /-- ADMISSION_NOTICE (R450): A member's admission notice arrives; once all are held, commit targets are set and the parties list passed to the twin. -/
  | admissionNotice (src : Nat) (ctx : Nat) (step : Nat) (attempt : Nat) (twin : Option Nat) (active : Bool)
  /-- COMMIT_TIMEOUT (R217): COMMIT_TIMEOUT expires after a party's arrive, and the party fences, closes and queries instances to decide the outcome. -/
  | commitTimeout (ctx : Nat)
  /-- CLOSE_PHASE (R86): Once the outcome is decided, CLOSE updates gauges, applies raises and loss-scale changes, computes scalar blocks and reaches the step boundary. -/
  | closePhase (ctx : Nat)
  /-- REPEAT_ADMIT (R207): A REPEATED attempt is admitted again on the held batch without a command. -/
  | repeatAdmit (ctx : Nat) (ns : Nat)
  /-- SETTLE_ROUND (R238): A settle-round message of loss-scale bit and weight-gauge bitmap arrives and is combined by OR. -/
  | settleRound (src : Nat) (ctx : Nat) (step : Nat) (lower : Bool) (raises : List Nat)
  /-- SETTLE_TIMEOUT (R238): A settle round does not complete within COMMIT_TIMEOUT; SETTLE is set and the context suspended. -/
  | settleTimeout (ctx : Nat)
  /-- JOURNAL_ROLLBACK (R212): A background update-engine restore of one journal slot over its slice completes. -/
  | journalRollback (ctx : Nat) (tid : Nat) (ord : Nat) (lineOk : Bool)
  /-- DIGEST_ROOT (R300): On a digest step, the root of the weight digest tree is formed and sent to every member. -/
  | digestRoot (ctx : Nat)
  /-- ROOT_VOTE (R302): A member's root arrives; with all P roots the vote agrees a point, expels outliers or declares a split. -/
  | rootVote (src : Nat) (ctx : Nat) (step : Nat) (interval : Nat) (root : List Byte)
  /-- DUPLICATE_EXECUTION (R297): A sampled tile's duplicate completes on another aisle and its tile digest is compared. -/
  | duplicateExecution (ctx : Nat) (index : Nat) (digest : Nat)
  /-- THIRD_EXECUTION (R299): A third execution after a mismatch completes and the loser is quarantined or all three marked suspect. -/
  | thirdExecution (ctx : Nat) (index : Nat) (digest : Nat)
  /-- ROTATE_PERIOD (R307): The rotation period elapses and each aisle's rotation falls due at its next step boundary. -/
  | rotatePeriod
  /-- GALLERY_TEST (R308): A gallery test completes; a pass makes it eligible or refills an empty slot, three failures retire it. -/
  | galleryTest (hall : Nat) (aisle : Nat) (gallery : Nat) (pass_ : Bool) (test : Nat)
  /-- PROBE_RESULT (R312): A probe pack finishes on a spare and a result record is delivered. -/
  | probeResult (hall : Nat) (aisle : Nat) (gallery : Nat) (pack : Nat) (result : Nat) (firstFail : Nat)
  /-- SLOT_PAR (R73): A weight-slot parity error aborts a tile and is handled as a gallery fault. -/
  | slotPar (hall : Nat) (aisle : Nat) (at_ : BayOf) (ns : Nat)
  /-- SRAM_UE (R333): An uncorrectable SRAM word is a fault of its gallery or hub block. -/
  | sramUe (gallery : Option Nat) (hub : Nat) (ns : Nat)
  /-- LEASE_EXPIRY (R319): A local owner's lease expires without renewal, which is a fault of the owner. -/
  | leaseExpiry (tag : Nat) (ns : Nat)
  /-- MOVER_FAULT (R316): A mover fault retires the mover, its queue is re-queued on the others and the attempt ends REPEATED. -/
  | moverFault (hall : Nat) (mover : Nat) (ns : Nat)
  /-- HUB_BLOCK_FAULT (R317): A fault in a hall-edge engine, port, bridge or hub block makes the device send DOWN beats and stop link output. -/
  | hubBlockFault (unit : Nat)
  /-- HBM_UE (R336): An uncorrectable HBM line is read; the attempt ends REPEATED, the line is restored by content and the row retired. -/
  | hbmUe (hall : Nat) (addr : Nat) (holds : LineHolds) (ns : Nat)
  /-- SCRUB_PERIOD (R334): A stack's scrub pass falls due, waking a sleeping hall if needed. -/
  | scrubPeriod (hall : Nat) (corrected : List (Nat × Nat))
  /-- RETRAIN (R314): An HBM retraining window falls due and opens when every context with state in the stack is at a boundary or in CLOSE. -/
  | retrain (hall : Nat) (pc : Nat)
  /-- RETRAIN_FORCE (R314): No quiet moment comes within 1 s, and the retraining window is forced. -/
  | retrainForce (hall : Nat) (pc : Nat)
  /-- HEARTBEAT_PERIOD (R329): Every 5 µs member and twin send a heartbeat flit on every bundle link or the fallback route. -/
  | heartbeatPeriod
  /-- HEARTBEAT (R329): A heartbeat control flit arrives; a DOWN beat declares the sender lost at once. -/
  | heartbeat (src : Nat) (seq : Nat) (down : Bool)
  /-- HEARTBEAT_MISS (R329): Three periods pass with no beat; the peer is declared lost and a LOST notice sent. -/
  | heartbeatMiss (ns : Nat)
  /-- LOST (R329): A LOST notice arrives; the receiver fences the lost device and reroutes. -/
  | lost (src : Nat) (device : Nat) (ns : Nat)
  /-- MIRROR_RECORD (R328): A mirror record arrives at the twin, which saves old values to the pre-step copy and applies it to the shadow. -/
  | mirrorRecord (m : MirrorRec)
  /-- STEP_SUMMARY (R215): A member's step summary arrives at its twin and is acknowledged. -/
  | stepSummary (m : StepSummary)
  /-- SEEDING_DONE (R327): Every slice has been seeded or mirrored and protection becomes PENDING. -/
  | seedingDone
  /-- LINK_UP (R357): Link training ends and the link reaches UP, joining its trunk or flagging PEER_CHANGED. -/
  | linkUp (link : Nat) (peer : Nat) (peerLink : Nat) (lanes : Nat)
  /-- LINK_RETRAIN (R357): Once per second a FAILED link retrains in the background. -/
  | linkRetrain (link : Nat)
  /-- FLIT (R342): A flit arrives; CRC and sequence are checked, ACK and credits processed, and it is delivered in ESEQ order or forwarded. -/
  | flit (link : Nat) (bytes : List Byte)
  /-- NAK (R343): A NAK control flit arrives and the sender replays from the named SEQ out of its retry buffer. -/
  | nak (link : Nat) (seq : Nat)
  /-- IDLE_FLIT (R343): A port with nothing to send emits an idle flit at least every 64 ns. -/
  | idleFlit (link : Nat)
  /-- RETRY_EXH (R343): The same SEQ is replayed RETRY_MAX times, and retry is exhausted, a whole-link fault. -/
  | retryExh (link : Nat) (ns : Nat)
  /-- LANE_FAULT (R337): A lane fault swaps in the spare lane, or leaves the link DEGRADED on 3 lanes. -/
  | laneFault (link : Nat) (lane : Nat) (ns : Nat)
  /-- LANE_SWAP (R313): Spare-lane calibration completes and the spare replaces a data lane at a flit boundary. -/
  | laneSwap (link : Nat) (lane : Nat)
  /-- LINK_FAULT (R337): A whole link fails; flows re-hash or take the alternate route and the retry buffer is replayed. -/
  | linkFault (link : Nat) (ns : Nat)
  /-- REORDER_TIMEOUT (R352): A reorder gap stays unfilled for REORDER_TIMEOUT, and the held flits are discarded with GAP set. -/
  | reorderTimeout (src : Nat) (tc : Nat)
  /-- MIRROR_ACKNOWLEDGEMENT (R215): The twin's acknowledgement of a mirror record or of the step summary arrives at the member, which may then arrive on COMMIT. -/
  | mirrorAcknowledgement (ctx : Nat) (summary : Bool)
  /-- CLOSE_UPDATE_DONE (R108): The gauge engine finishes one gauge's CLOSE update, releasing a delayed read by the next step and letting a staged gauge-word write for that gauge apply. -/
  | closeUpdateDone (ctx : Nat) (gauge : Nat)
  /-- RETRAINING_DONE (R314): An HBM retraining window ends after at most 2 µs, returning the pseudo-channel to use and releasing the accesses that waited. -/
  | retrainingDone (hall : Nat)
  /-- HALL_EDGE_ENGINE_TEST (R310): A self-test of a mover, update engine or stack engine completes; a failure retires the mover or makes the device declare itself lost, and a pass clears the mark of suspicion. -/
  | hallEdgeEngineTest (hall : Nat) (engine : Nat) (result : EngineResult)
  /-- DISCARDED_FRAME (R360): A received frame or datagram that the port does not accept (too long, fragmented, 802.3x pause, TCP, bad command header, or from outside the allow-list) is discarded and counted in HP_DROP. -/
  | discardedFrame (reason : Nat)
  /-- LOCAL_TIMER (R386): A processor's local timer expires and raises private source 5 at the event controller. -/
  | localTimer (proc : Nat)
  /-- WATCHDOG_WARNING (R386): A processor's watchdog warning fires and raises private source 6. -/
  | watchdogWarning (proc : Nat)
  /-- CACHE_ERROR (R386): A processor's cache reports a corrected or uncorrectable error, raising private source 7 or 8. -/
  | cacheError (proc : Nat) (corrected : Bool)
  deriving DecidableEq, Repr

end Sys2Proof
end

