-- ==== Sys2Proof/Machine/Bits.lean ====
section
/-! DEFINITION. Bit fields, little-endian bytes, CRC-32C, CRC-64/ECMA-182, SHA-256. -/

namespace Sys2Proof.Machine

/-- Bits [hi:lo] of a number. -/
def bits (x hi lo : Nat) : Nat := (x >>> lo) % 2 ^ (hi + 1 - lo)

/-- Bit i of a number. -/
def bit (x i : Nat) : Bool := bits x i i == 1

/-- A number with bits [hi:lo] replaced. -/
def setBits (x hi lo v : Nat) : Nat :=
  let w := 2 ^ (hi + 1 - lo)
  x - bits x hi lo * 2 ^ lo + (v % w) * 2 ^ lo

/-- 1 for true. -/
def bnat (b : Bool) : Nat := if b then 1 else 0

/-- The number that little-endian bytes spell. -/
def leNat : List Byte → Nat
  | [] => 0
  | b :: t => b.toNat + 256 * leNat t

/-- The low n bytes of a number, little-endian. -/
def natLe (x : Nat) : Nat → List Byte
  | 0 => []
  | n + 1 => BitVec.ofNat 8 x :: natLe (x / 256) n

/-- The number that big-endian bytes spell. -/
def beNat (l : List Byte) : Nat := leNat l.reverse

/-- The low n bytes of a number, big-endian. -/
def natBe (x n : Nat) : List Byte := (natLe x n).reverse

/-- A field of w bits of a Nat read as two's complement. -/
def signedOf (w x : Nat) : Int := if x % 2 ^ w < 2 ^ (w - 1) then (x % 2 ^ w : Nat) else (x % 2 ^ w : Nat) - (2 ^ w : Nat)

/-- The w-bit two's-complement code of an integer. -/
def codeOf (w : Nat) (x : Int) : Nat := (x % (2 ^ w : Nat)).toNat

/-- One reflected CRC-32C shift of a byte already xored in. -/
def crc32cShift : Nat → Nat → Nat
  | 0, c => c
  | n + 1, c => crc32cShift n (if c % 2 = 1 then (c >>> 1) ^^^ 0x82F63B78 else c >>> 1)

/-- CRC-32C over bytes, from a running register. -/
def crc32cRun : Nat → List Byte → Nat
  | c, [] => c
  | c, b :: t => crc32cRun (crc32cShift 8 (c ^^^ b.toNat)) t

/-- CRC-32C (Castagnoli) of bytes. -/
def crc32c (l : List Byte) : Nat := crc32cRun 0xFFFFFFFF l ^^^ 0xFFFFFFFF

/-- One unreflected CRC-64 bit step, `n` times. -/
def crc64Shift : Nat → Nat → Nat
  | 0, c => c
  | n + 1, c =>
    crc64Shift n (if c ≥ 2 ^ 63 then ((c <<< 1) % 2 ^ 64) ^^^ 0x42F0E1EBA9EA3693 else c <<< 1)

/-- CRC-64/ECMA-182 with the parameters of R204, continued from a register. -/
def crc64Run : Nat → List Byte → Nat
  | c, [] => c
  | c, b :: t => crc64Run (crc64Shift 8 (c ^^^ (b.toNat <<< 56))) t

/-- CRC-64/ECMA-182: polynomial 0x42F0E1EBA9EA3693, initial value 0, no reflection, no final XOR (R204). -/
def crc64 (l : List Byte) : Nat := crc64Run 0 l

/-! SHA-256. The working values are two columns of four words, newest first; the constants stand packed in one number each. -/

/-- Word i, from the most significant, of a packed number of n words. -/
def shaWord (x n i : Nat) : Nat := bits x (32 * (n - i) - 1) (32 * (n - 1 - i))

/-- The constants of rounds 16k to 16k + 15, packed. -/
def shaConsts : Nat → Nat
  | 0 => 0x428a2f9871374491b5c0fbcfe9b5dba53956c25b59f111f1923f82a4ab1c5ed5d807aa9812835b01243185be550c7dc372be5d7480deb1fe9bdc06a7c19bf174
  | 1 => 0xe49b69c1efbe47860fc19dc6240ca1cc2de92c6f4a7484aa5cb0a9dc76f988da983e5152a831c66db00327c8bf597fc7c6e00bf3d5a7914706ca635114292967
  | 2 => 0x27b70a852e1b21384d2c6dfc53380d13650a7354766a0abb81c2c92e92722c85a2bfe8a1a81a664bc24b8b70c76c51a3d192e819d6990624f40e3585106aa070
  | _ => 0x19a4c1161e376c082748774c34b0bcb5391c0cb34ed8aa4a5b9cca4f682e6ff3748f82ee78a5636f84c878148cc7020890befffaa4506cebbef9a3f7c67178f2

/-- The hash value before the first block, packed. -/
def shaStart : Nat := 0x6a09e667bb67ae853c6ef372a54ff53a510e527f9b05688c1f83d9ab5be0cd19

/-- A 32-bit word rotated right by each of the amounts, the results xored. -/
def shaTurns (x : Nat) (amounts : List Nat) : Nat :=
  amounts.foldl (fun r k => r ^^^ (bits x 31 k + bits x (k - 1) 0 * 2 ^ (32 - k))) 0

/-- The word of the message schedule that follows the sixteen at the head of a list, newest first. -/
def shaNext (w : List Nat) : Nat :=
  let early := w.getD 14 0
  let late := w.getD 1 0
  (shaTurns late [17, 19] ^^^ late / 2 ^ 10) + (shaTurns early [7, 18] ^^^ early / 2 ^ 3) + w.getD 6 0 + w.getD 15 0

/-- Lengthen the schedule by n words. -/
def shaSchedule : Nat → List Nat → List Nat
  | 0, w => w
  | n + 1, w => shaSchedule n (shaNext w % 2 ^ 32 :: w)

/-- A round puts one new word on each column. -/
def shaRound (cols : List Nat × List Nat) (addend : Nat) : List Nat × List Nat :=
  let a (i : Nat) := cols.1.getD i 0
  let e (i : Nat) := cols.2.getD i 0
  let mixed := addend + e 3 + shaTurns (e 0) [6, 11, 25] + (e 2 ^^^ (e 0 &&& (e 1 ^^^ e 2)))
  let most := (a 0 &&& a 1) ||| (a 2 &&& (a 0 ||| a 1))
  ((mixed + shaTurns (a 0) [2, 13, 22] + most) % 2 ^ 32 :: cols.1.take 3, (mixed + a 3) % 2 ^ 32 :: cols.2.take 3)

/-- Sixty-four rounds, one addend each: the schedule's word plus the round's constant. -/
def shaRounds (w : List Nat) (cols : List Nat × List Nat) : List Nat × List Nat :=
  (w.zipIdx.map (fun p => p.1 + shaWord (shaConsts (p.2 / 16)) 16 (p.2 % 16))).foldl shaRound cols

/-- One 64-byte block taken into the hash value. -/
def shaBlock (h : List Nat) (blk : List Byte) : List Nat :=
  let first := (List.range 16).reverse.map (shaWord (beNat blk) 16)
  let cols := shaRounds (shaSchedule 48 first).reverse (h.take 4, h.drop 4)
  List.zipWith (fun x y => (x + y) % 2 ^ 32) h (cols.1 ++ cols.2)

/-- The first n blocks of a message taken in. -/
def shaBlocks : Nat → List Nat → List Byte → List Nat
  | 0, h, _ => h
  | n + 1, h, l => shaBlocks n (shaBlock h (l.take 64)) (l.drop 64)

/-- SHA-256 of bytes: the message, a set bit, zeros and the length in bits as eight bytes, in blocks of 64. -/
def sha256 (l : List Byte) : List Byte :=
  let count := (l.length + 72) / 64
  let tail := natBe (2 ^ (8 * (64 * count - l.length) - 1) + 8 * l.length) (64 * count - l.length)
  (shaBlocks count ((List.range 8).map (shaWord shaStart 8)) (l ++ tail)).flatMap (fun x => natBe x 4)

/-- The bytes of an ASCII text, for check values. -/
def ascii (t : String) : List Byte := t.toList.map (fun c => BitVec.ofNat 8 c.toNat)

end Sys2Proof.Machine
end

