-- ==== Sys2Proof/Config.lean ====
section
/-! DEFINITION. What one part fixes and what the spec leaves open: opaque constants, no body, nothing evaluates them. -/

namespace Sys2Proof.Config

/-- The physical address in its hall's stack of a journal slot, by context and slice key (R160; log entry 160). -/
opaque journalAddr : (ctx key : Nat) → Nat

/-- Whether hub B's mirror queue is full after a record joined it: a free value (R162; log entry 159). -/
opaque mirrorFull : Nat → Bool

/-- Whether a member's SENT differs from its successor's RECEIVED, which comes from another device: a free value (R306; log entry 166). -/
opaque digestDiffers : Nat → Bool

/-- A free value: the model applies it to the counter that State holds (log entry 6). -/
opaque freeWord : Nat → BitVec 32

/-- Design revision MAJOR.MINOR of a page kind (R430, reset 'Per block'; log entry 12). -/
opaque blockRev : Nat → BitVec 16

/-- The MAC address held in flash (R361; log entry 12). -/
opaque macAddress : BitVec 48

/-- The serial number in the fuses (R410; log entry 12). -/
opaque serialNumber : BitVec 64

/-- Firmware key slot k: the SHA-256 that was fused (R410; log entry 12). -/
opaque keySlot : Nat → List (BitVec 8)

/-- The identity-key fuses pass their CRC on this part (R418; log entry 12). -/
opaque identityOk : Bool

/-- The device certificate and the CA certificate as stored in flash (R419; log entry 12). -/
opaque certificates : List (BitVec 8) × List (BitVec 8)

/-- ECDSA P-256 verification of a signature over a SHA-256 digest under a public key (R410; log entry 8). -/
opaque ecdsaVerify : (pub digest sig : List (BitVec 8)) → Bool

/-- The ECDSA P-256 signature the SC makes over a digest (R422; log entry 8). The counter makes each one fresh. -/
opaque ecdsaSign : (digest : List (BitVec 8)) → Nat → List (BitVec 8)

/-- The Riendin image in flash when the part leaves manufacture (log entry 16). -/
opaque factoryImage : List (BitVec 8)

/-- The row of a stack that a byte address lies in (R335; log entry 17). -/
opaque rowOf : Nat → Nat

/-- The bank of a row (R335; log entry 17). -/
opaque bankOf : Nat → Nat

/-- Spare rows of a bank (R335; log entry 17). -/
opaque spareRows : Nat

/-- Bytes of the pages of a row (R335; log entry 17). -/
opaque rowBytes : Nat

/-- The IEEE flags that the microcode of an operation raises on its operands (R242, R268; log entry 147), as bits. -/
opaque microFlags : (op : Nat) → (args : List Nat) → Nat

/-- The choice a microcoded function makes among the results its bound allows (R268, log entry 7):
operation code and operand bits to a number. -/
opaque microcode : (op : Nat) → (args : List Nat) → Nat

end Sys2Proof.Config
end

