-- ==== Sys2Proof/Machine/Real.lean ====
section
/-! DEFINITION. Exact values of codes and the one rounding every conversion and operation makes (R39, R43, R50). -/

namespace Sys2Proof.Machine

/-- What a code stands for: a NaN with its fraction bits, an infinity, or the exact value (-1)^neg * m * 2^e. -/
inductive Fp where
  | nan (neg : Bool) (frac : Nat)
  | inf (neg : Bool)
  | fin (neg : Bool) (m : Nat) (e : Int)
  deriving DecidableEq, Repr

/-- The rounding attributes of R241. -/
inductive Rnd where
  | rne | rna | rup | rdn | rtz
  deriving DecidableEq, Repr

/-- RND codes 0 to 4; 5 to 7 are reserved (R241). -/
def Rnd.ofCode : Nat → Option Rnd
  | 0 => some .rne
  | 1 => some .rna
  | 2 => some .rup
  | 3 => some .rdn
  | 4 => some .rtz
  | _ => none

/-- A binary format: p significand bits, smallest normal exponent, exponent-field bits, largest finite value. -/
structure FFmt where
  p : Nat
  emin : Int
  ebits : Nat
  maxM : Nat
  maxE : Int
  deriving DecidableEq, Repr

namespace FFmt

/-- binary64 (R31). -/
def fp64 : FFmt := ⟨53, -1022, 11, 2 ^ 53 - 1, 971⟩
/-- binary32 (R31). -/
def fp32 : FFmt := ⟨24, -126, 8, 2 ^ 24 - 1, 104⟩
/-- binary16 (R31). -/
def fp16 : FFmt := ⟨11, -14, 5, 2 ^ 11 - 1, 5⟩
/-- BF16 (R31). -/
def bf16 : FFmt := ⟨8, -126, 8, 2 ^ 8 - 1, 120⟩
/-- AF8, E4M3: largest finite 448 (R30). -/
def af8 : FFmt := ⟨4, -6, 4, 14, 5⟩
/-- G8, E5M2: largest finite 57,344 (R30). -/
def g8 : FFmt := ⟨3, -14, 5, 7, 13⟩
/-- F4, E2M1: largest finite 6 (R29). -/
def f4 : FFmt := ⟨2, 0, 2, 3, 1⟩

/-- Code width. -/
def width (f : FFmt) : Nat := f.p + f.ebits
/-- Exponent bias. -/
def bias (f : FFmt) : Int := 1 - f.emin
/-- The sign bit of a code. -/
def signBit (f : FFmt) (neg : Bool) : Nat := if neg then 2 ^ (f.width - 1) else 0
/-- The code of an infinity, in the formats that have one. -/
def infCode (f : FFmt) (neg : Bool) : Nat := f.signBit neg + (2 ^ f.ebits - 1) * 2 ^ (f.p - 1)
/-- The quiet bit of a NaN's fraction. -/
def quiet (f : FFmt) : Nat := 2 ^ (f.p - 2)
/-- The canonical NaN of R32: positive, only the quiet bit set. -/
def canonNan (f : FFmt) : Nat := f.infCode false + f.quiet

end FFmt

/-- floor(log2(num / den)) for positive num and den. -/
def ilog2Q (num den : Nat) : Int :=
  let a : Int := (Nat.log2 num : Int) - (Nat.log2 den : Int)
  let ge : Bool := if 0 ≤ a then decide (den * 2 ^ a.toNat ≤ num) else decide (den ≤ num * 2 ^ (-a).toNat)
  if ge then a else a - 1

/-- num / den * 2^k as a quotient of naturals. -/
def scaleQ (num den : Nat) (k : Int) : Nat × Nat :=
  if 0 ≤ k then (num * 2 ^ k.toNat, den) else (num, den * 2 ^ (-k).toNat)

/-- num / den rounded to an integer under an attribute, with whether anything was lost. -/
def roundInt (r : Rnd) (neg : Bool) (num den : Nat) : Nat × Bool :=
  let q := num / den
  let rem := num % den
  if rem = 0 then (q, false)
  else
    let up := match r with
      | .rne => decide (2 * rem > den) || (decide (2 * rem = den) && decide (q % 2 = 1))
      | .rna => decide (2 * rem ≥ den)
      | .rup => !neg
      | .rdn => neg
      | .rtz => false
    (if up then q + 1 else q, true)

/-- A rounded magnitude n * 2^q, whether it is inexact, and whether it is tiny after rounding (R49). -/
structure Rounded where
  n : Nat
  q : Int
  inexact : Bool
  tiny : Bool
  deriving DecidableEq, Repr

/-- Round num / den * 2^sh once into a format, subnormals included, overflow not yet handled. -/
def roundQ (f : FFmt) (r : Rnd) (neg : Bool) (num den : Nat) (sh : Int) : Rounded :=
  if num = 0 then ⟨0, f.emin - (f.p - 1 : Nat), false, false⟩
  else
    let k := ilog2Q num den + sh
    let q := max k f.emin - (f.p - 1 : Nat)
    let ab := scaleQ num den (sh - q)
    let nx := roundInt r neg ab.1 ab.2
    let q' := k - (f.p - 1 : Nat)
    let ab' := scaleQ num den (sh - q')
    let n' := (roundInt r neg ab'.1 ab'.2).1
    let tiny := decide (k < f.emin) && !(decide (k + 1 = f.emin) && decide (n' = 2 ^ f.p))
    ⟨nx.1, q, nx.2, tiny⟩

/-- a * 2^ea > b * 2^eb. -/
def magGt (a : Nat) (ea : Int) (b : Nat) (eb : Int) : Bool :=
  if eb ≤ ea then decide (a * 2 ^ (ea - eb).toNat > b) else decide (a > b * 2 ^ (eb - ea).toNat)

/-- The rounded magnitude lies above the largest finite value. -/
def overflows (f : FFmt) (x : Rounded) : Bool := magGt x.n x.q f.maxM f.maxE

/-- The code of a rounded finite magnitude within the format's range. -/
def encodeFin (f : FFmt) (neg : Bool) (n : Nat) (q : Int) : Nat :=
  let n' := if n = 2 ^ f.p then 2 ^ (f.p - 1) else n
  let q' := if n = 2 ^ f.p then q + 1 else q
  if n' < 2 ^ (f.p - 1) then f.signBit neg + n'
  else f.signBit neg + (q' + (f.p - 1 : Nat) + f.bias).toNat * 2 ^ (f.p - 1) + (n' - 2 ^ (f.p - 1))

/-- The code of the largest finite value. -/
def maxFinCode (f : FFmt) (neg : Bool) : Nat :=
  let k := Nat.log2 f.maxM
  encodeFin f neg (f.maxM * 2 ^ (f.p - 1 - k)) (f.maxE - (f.p - 1 - k : Nat))

/-- The value of an IEEE-shaped code: all-ones exponent is infinity or NaN (R31). -/
def decodeIeee (f : FFmt) (c : Nat) : Fp :=
  let frac := c % 2 ^ (f.p - 1)
  let ex := (c / 2 ^ (f.p - 1)) % 2 ^ f.ebits
  let neg := decide (c / 2 ^ (f.width - 1) % 2 = 1)
  if ex = 2 ^ f.ebits - 1 then (if frac = 0 then .inf neg else .nan neg frac)
  else if ex = 0 then .fin neg frac (f.emin - (f.p - 1 : Nat))
  else .fin neg (2 ^ (f.p - 1) + frac) ((ex : Int) - f.bias - (f.p - 1 : Nat))

/-- The value of an F4 or AF8 code, whose top binade is ordinary (R29, R30). -/
def decodeNarrow (f : FFmt) (c : Nat) : Fp :=
  let frac := c % 2 ^ (f.p - 1)
  let ex := (c / 2 ^ (f.p - 1)) % 2 ^ f.ebits
  let neg := decide (c / 2 ^ (f.width - 1) % 2 = 1)
  if ex = 0 then .fin neg frac (f.emin - (f.p - 1 : Nat))
  else .fin neg (2 ^ (f.p - 1) + frac) ((ex : Int) - f.bias - (f.p - 1 : Nat))

namespace Fp

/-- Zero with a sign. -/
def zero (neg : Bool) : Fp := .fin neg 0 0

/-- NaN or infinity. -/
def nonFinite : Fp → Bool
  | .fin _ _ _ => false
  | _ => true

/-- NaN. -/
def isNan : Fp → Bool
  | .nan _ _ => true
  | _ => false

/-- The value zero. -/
def isZero : Fp → Bool
  | .fin _ m _ => m == 0
  | _ => false

/-- The sign. -/
def sign : Fp → Bool
  | .nan n _ => n
  | .inf n => n
  | .fin n _ _ => n

/-- With the sign replaced. -/
def withSign (b : Bool) : Fp → Fp
  | .nan _ f => .nan b f
  | .inf _ => .inf b
  | .fin _ m e => .fin b m e

/-- Multiplied exactly by 2^k (R43). -/
def scale (k : Int) : Fp → Fp
  | .fin n m e => .fin n m (e + k)
  | x => x

/-- The exact value of a finite number as an integer times 2^e, signed. -/
def toInt : Fp → Int × Int
  | .fin n m e => (if n then -(m : Int) else m, e)
  | _ => (0, 0)

/-- Reading outside data: an infinity counts as a NaN (R33). -/
def infAsNan : Fp → Fp
  | .inf n => .nan n 0
  | x => x

end Fp

/-- Sum of two scaled integers, exactly. -/
def addScaled (a b : Int × Int) : Int × Int :=
  let e := min a.2 b.2
  (a.1 * 2 ^ (a.2 - e).toNat + b.1 * 2 ^ (b.2 - e).toNat, e)

/-- Comparison of two scaled integers: the sign of a - b. -/
def cmpScaled (a b : Int × Int) : Int := (addScaled a (-b.1, b.2)).1

/-- The integer square root, bit by bit. -/
def isqrtGo (n : Nat) : Nat → Nat → Nat
  | 0, r => r
  | i + 1, r => isqrtGo n i (if (r + 2 ^ i) * (r + 2 ^ i) ≤ n then r + 2 ^ i else r)

/-- floor(sqrt n). -/
def isqrt (n : Nat) : Nat := isqrtGo n (Nat.log2 n / 2 + 1) 0

end Sys2Proof.Machine
end

