-- ==== Sys2Proof/Machine/Flags.lean ====
section
/-! DEFINITION. Every flag and tally: the five IEEE flags with the joiner operations that raise them (R48, R49, R242, R243),
and the eight tallies with POP (R96). -/

namespace Sys2Proof.Machine

/-- The IEEE flags of R242: bit 0 NV, 1 DZ, 2 OF, 3 UF, 4 NX. -/
structure IFlags where
  nv : Bool := false
  dz : Bool := false
  of : Bool := false
  uf : Bool := false
  nx : Bool := false
  deriving DecidableEq, Repr

namespace IFlags

/-- No flag. -/
def none : IFlags := {}
/-- The OR of two flag sets (R242). -/
def or (a b : IFlags) : IFlags := ⟨a.nv || b.nv, a.dz || b.dz, a.of || b.of, a.uf || b.uf, a.nx || b.nx⟩
/-- The flags as bits. -/
def toNat (a : IFlags) : Nat :=
  (if a.nv then 1 else 0) + (if a.dz then 2 else 0) + (if a.of then 4 else 0) + (if a.uf then 8 else 0) +
    (if a.nx then 16 else 0)
/-- The flags of their bits. -/
def ofNat (x : Nat) : IFlags :=
  ⟨x % 2 == 1, x / 2 % 2 == 1, x / 4 % 2 == 1, x / 8 % 2 == 1, x / 16 % 2 == 1⟩

end IFlags

/-- A result code with the flags it raised. -/
abbrev Res := Nat × IFlags

/-- The IEEE result of an exact magnitude num / den * 2^sh: overflow to infinity or the largest finite value by the
attribute, gradual underflow, tininess after rounding (R40, R48, R49). -/
def ieeeOf (f : FFmt) (r : Rnd) (neg : Bool) (num den : Nat) (sh : Int) : Res :=
  if num = 0 then (f.signBit neg, {})
  else
    let x := roundQ f r neg num den sh
    if overflows f x then
      let toInf := match r with
        | .rne => true
        | .rna => true
        | .rup => !neg
        | .rdn => neg
        | .rtz => false
      (if toInf then f.infCode neg else maxFinCode f neg, { of := true, nx := true })
    else (encodeFin f neg x.n x.q, { uf := x.tiny && x.inexact, nx := x.inexact })

/-- The IEEE result of an exact signed scaled integer; an exact zero takes the given sign. -/
def ieeeOfInt (f : FFmt) (r : Rnd) (zneg : Bool) (v : Int × Int) : Res :=
  if v.1 = 0 then (f.signBit zneg, {}) else ieeeOf f r (decide (v.1 < 0)) v.1.natAbs 1 v.2

/-- The sign of an exact zero sum of two non-zero or oppositely signed zero operands: minus only toward negative. -/
def zeroSumSign (r : Rnd) (na nb : Bool) : Bool := if na = nb then na else r == Rnd.rdn

/-- A NaN operand quieted into the format (R243). -/
def quietCode (f : FFmt) (neg : Bool) (frac : Nat) : Nat :=
  f.infCode neg + (if frac / f.quiet % 2 = 1 then frac else frac + f.quiet)

/-- A NaN is signalling: its quiet bit is clear. -/
def isSig (f : FFmt) : Fp → Bool
  | .nan _ fr => fr / f.quiet % 2 == 0
  | _ => false

/-- The first NaN among operands, quieted; NV when any operand is signalling (R243). -/
def propagate (f : FFmt) (xs : List Fp) : Option Res :=
  let nv := xs.any (isSig f)
  match xs.find? Fp.isNan with
  | some (.nan n fr) => some (quietCode f n fr, { nv := nv })
  | _ => none

/-- The result of an invalid operation: the canonical NaN and NV (R32, R243). -/
def invalid (f : FFmt) : Res := (f.canonNan, { nv := true })

/-- IEEE addition on values. -/
def ieeeAddV (f : FFmt) (r : Rnd) (a b : Fp) : Res :=
  match propagate f [a, b] with
  | some x => x
  | none =>
    match a, b with
    | .inf x, .inf y => if x = y then (f.infCode x, {}) else invalid f
    | .inf x, _ => (f.infCode x, {})
    | _, .inf y => (f.infCode y, {})
    | _, _ => ieeeOfInt f r (zeroSumSign r a.sign b.sign) (addScaled a.toInt b.toInt)

/-- IEEE addition (VADD). -/
def ieeeAdd (f : FFmt) (r : Rnd) (a b : Nat) : Res := ieeeAddV f r (decodeIeee f a) (decodeIeee f b)

/-- The other sign; a NaN keeps its own. -/
def negV : Fp → Fp
  | .nan n fr => .nan n fr
  | x => x.withSign (!x.sign)

/-- IEEE subtraction (VSUB). -/
def ieeeSub (f : FFmt) (r : Rnd) (a b : Nat) : Res := ieeeAddV f r (decodeIeee f a) (negV (decodeIeee f b))

/-- IEEE multiplication (VMUL). -/
def ieeeMul (f : FFmt) (r : Rnd) (a b : Nat) : Res :=
  let x := decodeIeee f a
  let y := decodeIeee f b
  match propagate f [x, y] with
  | some z => z
  | none =>
    match x, y with
    | .fin s m e, .fin t n d => ieeeOf f r (s != t) (m * n) 1 (e + d)
    | _, _ => if x.isZero || y.isZero then invalid f else (f.infCode (x.sign != y.sign), {})

/-- IEEE division (VDIV). -/
def ieeeDiv (f : FFmt) (r : Rnd) (a b : Nat) : Res :=
  let x := decodeIeee f a
  let y := decodeIeee f b
  let s := x.sign != y.sign
  match propagate f [x, y] with
  | some z => z
  | none =>
    match x, y with
    | .inf _, .inf _ => invalid f
    | .inf _, _ => (f.infCode s, {})
    | _, .inf _ => (f.signBit s, {})
    | .fin _ m e, .fin _ n d =>
      if n = 0 then (if m = 0 then invalid f else (f.infCode s, { dz := true }))
      else ieeeOf f r s m n (e - d)
    | _, _ => invalid f

/-- IEEE fusedMultiplyAdd with the NaN order of R243: the factors, then the addend; 0 times infinity raises NV. -/
def ieeeFma (f : FFmt) (r : Rnd) (a b c : Nat) : Res :=
  let x := decodeIeee f a
  let y := decodeIeee f b
  let z := decodeIeee f c
  let bad := match x, y with
    | .inf _, .fin _ m _ => m == 0
    | .fin _ m _, .inf _ => m == 0
    | _, _ => false
  match propagate f [x, y, z] with
  | some p => (p.1, { p.2 with nv := p.2.nv || bad })
  | none =>
    if bad then invalid f
    else
      let s := x.sign != y.sign
      match x, y, z with
      | .fin _ m e, .fin _ n d, .fin _ _ _ =>
        ieeeOfInt f r (zeroSumSign r s z.sign)
          (addScaled (if s then -((m * n : Nat) : Int) else ((m * n : Nat) : Int), e + d) z.toInt)
      | .fin _ _ _, .fin _ _ _, _ => (f.infCode z.sign, {})
      | _, _, .inf t => if t = s then (f.infCode s, {}) else invalid f
      | _, _, _ => (f.infCode s, {})

/-- The square root of m * 2^e rounded once: enough bits of the integer root, the rest as one sticky bit. -/
def sqrtRes (f : FFmt) (r : Rnd) (m : Nat) (e : Int) : Res :=
  let odd := decide (e % 2 = 1)
  let m1 := if odd then 2 * m else m
  let e1 := if odd then e - 1 else e
  let k := f.p + 4
  let m2 := m1 * 2 ^ (2 * k)
  let q := isqrt m2
  let h := e1 / 2 - (k : Int)
  if q * q = m2 then ieeeOf f r false q 1 h else ieeeOf f r false (2 * q + 1) 1 (h - 1)

/-- IEEE squareRoot (VSQRT). -/
def ieeeSqrt (f : FFmt) (r : Rnd) (a : Nat) : Res :=
  let x := decodeIeee f a
  match propagate f [x] with
  | some z => z
  | none =>
    match x with
    | .fin s m e => if m = 0 then (f.signBit s, {}) else if s then invalid f else sqrtRes f r m e
    | .inf s => if s then invalid f else (f.infCode false, {})
    | .nan _ _ => invalid f

/-- a is below b, with -0 below +0; no NaN. -/
def totalLt (a b : Fp) : Bool :=
  match a, b with
  | .inf s, .inf t => s && !t
  | .inf s, _ => s
  | _, .inf t => !t
  | .fin s m _, .fin t n _ =>
    if m = 0 && n = 0 then s && !t else decide (cmpScaled a.toInt b.toInt < 0)
  | _, _ => false

/-- IEEE minimum (VMIN). -/
def ieeeMin (f : FFmt) (a b : Nat) : Res :=
  match propagate f [decodeIeee f a, decodeIeee f b] with
  | some z => z
  | none => (if totalLt (decodeIeee f b) (decodeIeee f a) then b else a, {})

/-- IEEE maximum (VMAX). -/
def ieeeMax (f : FFmt) (a b : Nat) : Res :=
  match propagate f [decodeIeee f a, decodeIeee f b] with
  | some z => z
  | none => (if totalLt (decodeIeee f a) (decodeIeee f b) then b else a, {})

/-- A NaN's fraction moved between widths: narrowing keeps the top bits, widening appends zeros (R243). -/
def moveFrac (src dst : FFmt) (fr : Nat) : Nat :=
  if dst.p ≤ src.p then fr / 2 ^ (src.p - dst.p) else fr * 2 ^ (dst.p - src.p)

/-- IEEE convertFormat (VCONV between FP64, FP32 and FP16). -/
def ieeeConv (src dst : FFmt) (r : Rnd) (a : Nat) : Res :=
  match decodeIeee src a with
  | .nan n fr =>
    let q := if fr / src.quiet % 2 = 1 then fr else fr + src.quiet
    (dst.infCode n + moveFrac src dst q, { nv := decide (fr / src.quiet % 2 = 0) })
  | .inf n => (dst.infCode n, {})
  | .fin n m e => ieeeOf dst r n m 1 e

/-- IEEE convertToInteger into INT32: out of range raises NV and gives the nearer extreme, NaN gives 0 (R269). -/
def ieeeToInt32 (src : FFmt) (r : Rnd) (a : Nat) : Res :=
  match decodeIeee src a with
  | .nan _ _ => (0, { nv := true })
  | .inf n => (if n then 0x80000000 else 0x7FFFFFFF, { nv := true })
  | .fin n m e =>
    let ab := scaleQ m 1 e
    let x := roundInt r n ab.1 ab.2
    if n then
      if x.1 ≤ 2 ^ 31 then ((2 ^ 32 - x.1) % 2 ^ 32, { nx := x.2 }) else (0x80000000, { nv := true })
    else if x.1 < 2 ^ 31 then (x.1, { nx := x.2 }) else (0x7FFFFFFF, { nv := true })

/-- The tallies of R96 and POP, each a 32-bit counter that saturates. -/
structure Tally where
  ovf : Nat := 0
  unf : Nat := 0
  sat : Nat := 0
  vanish : Nat := 0
  nan : Nat := 0
  slip : Nat := 0
  badcode : Nat := 0
  breach : Nat := 0
  pop : Nat := 0
  deriving DecidableEq, Repr

/-- A 32-bit counter saturates at 0xFFFF_FFFF. -/
def sat32 (x : Nat) : Nat := min x 0xFFFFFFFF

namespace Tally

/-- No event. -/
def zero : Tally := {}

/-- Sums do not depend on order (R96). -/
def add (a b : Tally) : Tally :=
  { ovf := sat32 (a.ovf + b.ovf), unf := sat32 (a.unf + b.unf), sat := sat32 (a.sat + b.sat),
    vanish := sat32 (a.vanish + b.vanish), nan := sat32 (a.nan + b.nan), slip := sat32 (a.slip + b.slip),
    badcode := sat32 (a.badcode + b.badcode), breach := sat32 (a.breach + b.breach), pop := sat32 (a.pop + b.pop) }

/-- The counts in the order of the step record (R374). -/
def toList (a : Tally) : List Nat := [a.ovf, a.unf, a.sat, a.vanish, a.nan, a.slip, a.badcode, a.breach, a.pop]

end Tally

/-- A relative threshold is exceeded when count * 2^20 > threshold * POP; 0xFFFF is never exceeded for UNF (R96). -/
def exceededRel (count thr pop : Nat) : Bool := decide (count * 2 ^ 20 > thr * pop)

/-- An absolute threshold is exceeded when the count is greater (R96). -/
def exceededAbs (count thr : Nat) : Bool := decide (count > thr)

end Sys2Proof.Machine
end

