-- ==== Sys2Proof/Machine/SMap.lean ====
section
/-! DEFINITION. Finite maps from Nat as plain data in one canonical form: keys strictly rising, no entry equal to the default. -/

namespace Sys2Proof.Machine

/-- A finite map: (key, value) pairs, keys strictly rising. -/
abbrev SMap (α : Type) := List (Nat × α)

namespace SMap

variable {α : Type}

/-- The value listed at a key. -/
def find (k : Nat) : SMap α → Option α
  | [] => none
  | (j, v) :: t => if j = k then some v else find k t

/-- The value at a key, or the default. -/
def get (d : α) (k : Nat) (m : SMap α) : α := (find k m).getD d

/-- List a value at a key, replacing what is listed there. -/
def insert (k : Nat) (v : α) : SMap α → SMap α
  | [] => [(k, v)]
  | (j, w) :: t =>
    if k < j then (k, v) :: (j, w) :: t
    else if k = j then (k, v) :: t
    else (j, w) :: insert k v t

/-- Take a key out. -/
def erase (k : Nat) : SMap α → SMap α
  | [] => []
  | (j, w) :: t => if j = k then erase k t else (j, w) :: erase k t

/-- Write a value at a key; writing the default takes the entry out, so equal maps are equal data. -/
def put [DecidableEq α] (d : α) (k : Nat) (v : α) (m : SMap α) : SMap α :=
  if v = d then erase k m else insert k v m

/-- Every key is above a bound and the keys rise strictly. -/
def sortedFrom (lo : Nat) : SMap α → Bool
  | [] => true
  | (j, _) :: t => decide (lo ≤ j) && sortedFrom (j + 1) t

/-- Keys strictly rising. -/
def sorted (m : SMap α) : Bool := sortedFrom 0 m

/-- No entry equals the default. -/
def lean [DecidableEq α] (d : α) (m : SMap α) : Bool := m.all (fun p => decide (p.2 ≠ d))

/-- The canonical form. -/
def wf [DecidableEq α] (d : α) (m : SMap α) : Bool := sorted m && lean d m

end SMap

/-- Addressed bytes. -/
abbrev Mem := List Host.Cell

namespace Mem

/-- What an unlisted byte reads as (DESIGN CHOICE, unsafe, log entry 5). -/
def blank : BitVec 8 := 0

/-- The byte at an offset. -/
def readByte (m : Mem) (a : Nat) : BitVec 8 := SMap.get blank a m

/-- Write one byte. -/
def writeByte (m : Mem) (a : Nat) (b : BitVec 8) : Mem := SMap.put blank a b m

/-- `n` bytes from an offset. -/
def readBytes (m : Mem) (a : Nat) : Nat → List (BitVec 8)
  | 0 => []
  | n + 1 => readByte m a :: readBytes m (a + 1) n

/-- Write bytes from an offset upwards. -/
def writeBytes (m : Mem) (a : Nat) : List (BitVec 8) → Mem
  | [] => m
  | b :: t => writeBytes (writeByte m a b) (a + 1) t

/-- The canonical form of addressed bytes. -/
def wf (m : Mem) : Bool := SMap.wf blank m

end Mem

end Sys2Proof.Machine
end

