-- ==== Sys2Proof/Machine/Operands.lean ====
section
/-! DEFINITION. Every operand form: format descriptors (R21, R22), code values and packing (R23-R31), scales (R34-R38),
conversion into a format and widening out of it (R39-R44). -/

namespace Sys2Proof.Machine

/-- The fourteen formats of R21. -/
inductive Fmt where
  | wt | w2 | w4 | f4 | w8 | a8 | af8 | g8 | int8 | bf16 | fp16 | fp32 | int32 | fp64
  deriving DecidableEq, Repr

/-- FMT codes 0x00 to 0x0D; the rest is reserved (R21). -/
def Fmt.ofCode : Nat → Option Fmt
  | 0 => some .wt
  | 1 => some .w2
  | 2 => some .w4
  | 3 => some .f4
  | 4 => some .w8
  | 5 => some .a8
  | 6 => some .af8
  | 7 => some .g8
  | 8 => some .int8
  | 9 => some .bf16
  | 10 => some .fp16
  | 11 => some .fp32
  | 12 => some .int32
  | 13 => some .fp64
  | _ => none

/-- The FMT code of a format (R21). -/
def Fmt.code : Fmt → Nat
  | .wt => 0
  | .w2 => 1
  | .w4 => 2
  | .f4 => 3
  | .w8 => 4
  | .a8 => 5
  | .af8 => 6
  | .g8 => 7
  | .int8 => 8
  | .bf16 => 9
  | .fp16 => 10
  | .fp32 => 11
  | .int32 => 12
  | .fp64 => 13

/-- A format descriptor taken apart: format, grain, signedness (R21). -/
structure Desc where
  fmt : Fmt
  grain : Nat
  sgn : Bool
  deriving DecidableEq, Repr

namespace Desc

/-- The combinations of R22. -/
def ok (d : Desc) : Bool :=
  match d.fmt with
  | .wt => d.grain == 1 && !d.sgn
  | .f4 => d.grain == 1 && !d.sgn
  | .w2 => d.grain == 1
  | .w4 => d.grain == 1
  | .w8 => d.grain == 1
  | .a8 => d.grain == 0 || d.grain == 2
  | .af8 => (d.grain == 0 || d.grain == 2) && !d.sgn
  | .g8 => (d.grain == 0 || d.grain == 2) && !d.sgn
  | .bf16 => (d.grain == 0 || d.grain == 2 || d.grain == 3) && !d.sgn
  | .int8 => d.grain == 3
  | .fp16 => d.grain == 3 && !d.sgn
  | .fp32 => d.grain == 3 && !d.sgn
  | .int32 => d.grain == 3 && !d.sgn
  | .fp64 => d.grain == 3 && !d.sgn

/-- A descriptor byte read by R21 and accepted by R22. -/
def ofByte (b : Nat) : Option Desc :=
  match Fmt.ofCode (bits b 4 0) with
  | some f =>
    let d : Desc := ⟨f, bits b 6 5, bit b 7⟩
    if d.ok then some d else none
  | none => none

/-- The descriptor byte of R21. -/
def toByte (d : Desc) : Nat := d.fmt.code + d.grain * 32 + bnat d.sgn * 128

end Desc

/-- Bits of a code; WT packs five to a byte and has none of its own. -/
def Fmt.width : Fmt → Nat
  | .wt => 8
  | .w2 => 2
  | .w4 => 4
  | .f4 => 4
  | .w8 => 8
  | .a8 => 8
  | .af8 => 8
  | .g8 => 8
  | .int8 => 8
  | .bf16 => 16
  | .fp16 => 16
  | .fp32 => 32
  | .int32 => 32
  | .fp64 => 64

/-- Elements that share one byte (R23, R27); 1 for formats of a byte or more. -/
def Fmt.perByte : Fmt → Nat
  | .wt => 5
  | .w2 => 4
  | .w4 => 2
  | .f4 => 2
  | _ => 1

/-- Bytes of one element of a format of a byte or more. -/
def Fmt.bytes (f : Fmt) : Nat := (f.width + 7) / 8

/-- The binary format behind a floating code. -/
def Fmt.ffmt : Fmt → Option FFmt
  | .f4 => some .f4
  | .af8 => some .af8
  | .g8 => some .g8
  | .bf16 => some .bf16
  | .fp16 => some .fp16
  | .fp32 => some .fp32
  | .fp64 => some .fp64
  | _ => none

/-- An integer format. -/
def Fmt.isInt : Fmt → Bool
  | .w2 => true
  | .w4 => true
  | .w8 => true
  | .a8 => true
  | .int8 => true
  | .int32 => true
  | _ => false

/-- Bytes of one packed row of n elements (R23, R27). -/
def Fmt.rowBytes (f : Fmt) (n : Nat) : Nat :=
  if f.perByte = 1 then n * f.bytes else (n + f.perByte - 1) / f.perByte

/-- Smallest and largest value of an integer format (R24). -/
def intRange (f : Fmt) (sgn : Bool) : Int × Int :=
  if sgn || f == .int32 then (-(2 ^ (f.width - 1) : Nat), (2 ^ (f.width - 1) : Nat) - 1)
  else (0, (2 ^ f.width : Nat) - 1)

/-- The value of a trit code (R27). -/
def tritVal : Nat → Int
  | 1 => 1
  | 2 => -1
  | _ => 0

/-- An integer as an exact value. -/
def Fp.ofInt (x : Int) : Fp := .fin (decide (x < 0)) x.natAbs 0

/-- An integer times 2^e as an exact value. -/
def Fp.ofScaled (x : Int × Int) : Fp := .fin (decide (x.1 < 0)) x.1.natAbs x.2

/-- The value of a code, before scales (R24, R27-R31). -/
def codeVal (f : Fmt) (sgn : Bool) (c : Nat) : Fp :=
  match f with
  | .wt => .ofInt (tritVal c)
  | .f4 => decodeNarrow .f4 c
  | .af8 => if c % 128 = 127 then .nan (decide (c / 128 % 2 = 1)) 7 else decodeNarrow .af8 c
  | .g8 => decodeIeee .g8 c
  | .bf16 => decodeIeee .bf16 c
  | .fp16 => decodeIeee .fp16 c
  | .fp32 => decodeIeee .fp32 c
  | .fp64 => decodeIeee .fp64 c
  | .int32 => .ofInt (signedOf 32 c)
  | .w2 => .ofInt (if sgn then signedOf 2 c else (c % 4 : Nat))
  | .w4 => .ofInt (if sgn then signedOf 4 c else (c % 16 : Nat))
  | .w8 => .ofInt (if sgn then signedOf 8 c else (c % 256 : Nat))
  | .a8 => .ofInt (if sgn then signedOf 8 c else (c % 256 : Nat))
  | .int8 => .ofInt (if sgn then signedOf 8 c else (c % 256 : Nat))

/-- The high and low halves of a W8 code (R25). -/
def w8Halves (sgn : Bool) (c : Nat) : Int × Nat :=
  ((if sgn then signedOf 4 (bits c 7 4) else (bits c 7 4 : Nat)), bits c 3 0)

/-! Tensors. -/

/-- What the machine holds of one tensor: descriptor byte, row length along the reduction dimension, rows, the block axis as
stride and length of logical indices (length 0: the row itself), the elements that hold an infinity from outside (R33), scales
(R34-R37), codes and, for a forward weight with an outlier side path, its side rows (R53), for a gradient its block
tags with the slot (plus 1) that wrote each (R98, R100-R102). -/
structure Tensor where
  desc : Nat := 0
  rowLen : Nat := 0
  rows : Nat := 0
  bstride : Nat := 1
  blen : Nat := 0
  ext : SMap Nat := []
  et : Nat := 0x7F
  chan : SMap Nat := []
  blocks : SMap Nat := []
  tags : SMap Nat := []
  writers : SMap Nat := []
  codes : Mem := []
  side : Mem := []
  deriving DecidableEq, Repr

namespace Tensor

/-- The descriptor, when valid. -/
def d (t : Tensor) : Desc := (Desc.ofByte t.desc).getD ⟨.bf16, 3, false⟩

/-- Elements. -/
def size (t : Tensor) : Nat := t.rows * t.rowLen

/-- Length of the block axis. -/
def axisLen (t : Tensor) : Nat := if t.blen = 0 then max t.rowLen 1 else t.blen

/-- The ordinal of the block that element i of the logical order falls into (R37). -/
def blockOf (t : Tensor) (i : Nat) : Nat :=
  let n := t.axisLen
  let st := max t.bstride 1
  (i / (st * n) * st + i % st) * ((n + 31) / 32) + i / st % n / 32

/-- The code of element (r, c) of packed rows. -/
def codeAt (t : Tensor) (r c : Nat) : Nat :=
  let f := t.d.fmt
  let base := r * f.rowBytes t.rowLen
  if f.perByte = 1 then leNat (t.codes.readBytes (base + c * f.bytes) f.bytes)
  else
    let b := (t.codes.readByte (base + c / f.perByte)).toNat
    let i := c % f.perByte
    if f = .wt then (if b ≤ 242 then b / 3 ^ i % 3 else 0) else b / 2 ^ (f.width * i) % 2 ^ f.width

/-- The bytes that hold elements [c, c + n) of a packed row, of those the ones no code writes (R28): how many. -/
def badBytes (t : Tensor) (r c n : Nat) : Nat :=
  let first := c / 5
  if t.d.fmt = .wt then
    ((t.codes.readBytes (r * Fmt.rowBytes .wt t.rowLen + first) ((c + n + 4) / 5 - first)).filter (fun b => decide (b.toNat > 242))).length
  else 0

/-- Element i of the logical order holds the code of an infinity. -/
def infAt (t : Tensor) (i : Nat) : Bool :=
  match codeVal t.d.fmt t.d.sgn (t.codeAt (i / max t.rowLen 1) (i % max t.rowLen 1)) with
  | .inf _ => true
  | _ => false

/-- Elements [i, i + n) came from outside: the infinities among them are noted (R33). -/
def markExt (t : Tensor) (i n : Nat) : Tensor :=
  { t with ext := (List.range n).foldl (fun m j => m.put 0 (i + j) (bnat (t.infAt (i + j)))) t.ext }

/-- Put a code that the KJ9 itself makes at element (r, c), leaving its neighbours in the byte. -/
def putCode (t : Tensor) (r c q : Nat) : Tensor :=
  let f := t.d.fmt
  let base := r * f.rowBytes t.rowLen
  let t := { t with ext := t.ext.put 0 (r * t.rowLen + c) 0 }
  if f.perByte = 1 then { t with codes := t.codes.writeBytes (base + c * f.bytes) (natLe q f.bytes) }
  else
    let a := base + c / f.perByte
    let b := (t.codes.readByte a).toNat
    let i := c % f.perByte
    let nb := if f = .wt then
        (let b := if b ≤ 242 then b else 0
         b - (b / 3 ^ i % 3) * 3 ^ i + q % 3 * 3 ^ i)
      else b - (b / 2 ^ (f.width * i) % 2 ^ f.width) * 2 ^ (f.width * i) + q % 2 ^ f.width * 2 ^ (f.width * i)
    { t with codes := t.codes.writeByte a (BitVec.ofNat 8 nb) }

/-- The codes of a scale that cover element (r, c): tensor, then channel or block (R36). -/
def scaleCodes (t : Tensor) (r c : Nat) : List Nat :=
  match t.d.grain with
  | 0 => [t.et]
  | 1 => [t.et, t.chan.get 0x7F r]
  | 2 => [t.et, t.blocks.get 0x7F (t.blockOf (r * t.rowLen + c))]
  | _ => []

/-- A covering scale is poisoned (R38). -/
def poisonedAt (t : Tensor) (r c : Nat) : Bool := (t.scaleCodes r c).any (· == 0xFF)

/-- The element's scale exponent s (R36). -/
def scaleAt (t : Tensor) (r c : Nat) : Int := ((t.scaleCodes r c).map (fun e => (e : Int) - 127)).sum

/-- The value of a code before scales: an infinity from outside reads as NaN (R33). -/
def codeValAt (t : Tensor) (r c : Nat) : Fp :=
  let v := codeVal t.d.fmt t.d.sgn (t.codeAt r c)
  if t.ext.get 0 (r * t.rowLen + c) = 0 then v else v.infAsNan

/-- The value of element (r, c) read from data: poison reads as NaN, and so does an infinity from outside (R33, R38). -/
def valAt (t : Tensor) (r c : Nat) : Fp :=
  if t.poisonedAt r c then .nan false 0
  else (t.codeValAt r c).scale (t.scaleAt r c)

/-- The value of an element as a joiner's IEEE operation reads it: infinities stay (R33). -/
def rawAt (t : Tensor) (r c : Nat) : Fp :=
  if t.poisonedAt r c then .nan false 0 else (codeVal t.d.fmt t.d.sgn (t.codeAt r c)).scale (t.scaleAt r c)

/-- Element i in row-major order. -/
def at_ (t : Tensor) (i : Nat) : Fp := t.valAt (i / max t.rowLen 1) (i % max t.rowLen 1)

/-- An empty tensor of a shape. -/
def blank (desc rows rowLen : Nat) : Tensor := { desc := desc, rows := rows, rowLen := rowLen }

/-- The stored data is in canonical form. -/
def wf (t : Tensor) : Bool :=
  SMap.wf 0 t.ext && SMap.wf 0x7F t.chan && SMap.wf 0x7F t.blocks && SMap.wf 0 t.tags && t.codes.wf && t.side.wf

end Tensor

/-! Conversion. -/

/-- What converting one element gives: a code, whether it saturated, whether the source was NaN or infinite (R41). -/
structure Conv where
  code : Nat
  sat : Bool := false
  nan : Bool := false
  deriving DecidableEq, Repr

/-- An integer rounded from an exact value under an attribute. -/
def intUnder (r : Rnd) : Fp → Int
  | .fin n m e =>
    let ab := scaleQ m 1 e
    let x := (roundInt r n ab.1 ab.2).1
    if n then -(x : Int) else x
  | _ => 0

/-- An integer rounded to nearest even from an exact value. -/
def rneInt (y : Fp) : Int := intUnder .rne y

/-- An exact value is above an integer. -/
def gtInt (y : Fp) (x : Int) : Bool := decide (cmpScaled y.toInt (x, 0) > 0)

/-- An exact value is below an integer. -/
def ltInt (y : Fp) (x : Int) : Bool := decide (cmpScaled y.toInt (x, 0) < 0)

/-- Conversion into an integer format, saturating before rounding (R40). -/
def convertInt (f : Fmt) (sgn : Bool) (y : Fp) (r : Rnd := .rne) : Conv :=
  let lo := (intRange f sgn).1
  let hi := (intRange f sgn).2
  if gtInt y hi then ⟨codeOf f.width hi, true, false⟩
  else if lo = 0 && ltInt y 0 then ⟨0, intUnder r y != 0, false⟩
  else if ltInt y lo then ⟨codeOf f.width lo, true, false⟩
  else ⟨codeOf f.width (intUnder r y), false, false⟩

/-- Conversion into a trit code (R27, R40). -/
def convertTrit (y : Fp) (r : Rnd := .rne) : Conv :=
  if gtInt y 1 then ⟨1, true, false⟩
  else if ltInt y (-1) then ⟨2, true, false⟩
  else ⟨if intUnder r y = 1 then 1 else if intUnder r y = -1 then 2 else 0, false, false⟩

/-- A finite value into a binary format, saturating before rounding (R40). -/
def convertSat (f : FFmt) (r : Rnd) (y : Fp) : Conv :=
  match y with
  | .fin n m e =>
    if magGt m e f.maxM f.maxE then ⟨maxFinCode f n, true, false⟩
    else
      let x := roundQ f r n m 1 e
      ⟨encodeFin f n x.n x.q, false, false⟩
  | _ => ⟨0, false, true⟩

/-- A value into FP32 or FP64 outside the joiners' IEEE operations: IEEE overflow, canonical NaN (R32, R40, R50). -/
def convertWide (f : FFmt) (y : Fp) : Conv :=
  match y with
  | .nan _ _ => ⟨f.canonNan, false, true⟩
  | .inf n => ⟨f.infCode n, false, true⟩
  | .fin n m e => ⟨(ieeeOf f .rne n m 1 e).1, false, false⟩

/-- Convert one element whose scale exponent is s (R39-R43). A NaN or infinite source gives `nan`; the code beside it is
the one R41 stores in that grain: zero, or the canonical NaN in unscaled BF16 and FP16. Every conversion rounds to nearest even but
those of a reduction, which round under its attribute (R39, R241). -/
def convert (d : Desc) (s : Int) (x : Fp) (r : Rnd := .rne) : Conv :=
  match d.fmt with
  | .fp32 => convertWide .fp32 x
  | .fp64 => convertWide .fp64 x
  | f =>
    if x.nonFinite then
      ⟨match f with
        | .bf16 => if d.grain = 3 then FFmt.bf16.canonNan else 0
        | .fp16 => FFmt.fp16.canonNan
        | _ => 0, false, true⟩
    else
      let y := x.scale (-s)
      match f.ffmt with
      | some ff => convertSat ff r y
      | none => if f = .wt then convertTrit y r else convertInt f d.sgn y r

/-- FP32 bits of an exact value, rounded to nearest even (R50). -/
def toFp32 (x : Fp) : Nat := (convertWide .fp32 x).code

/-- The value of FP32 bits. -/
def fp32V (c : Nat) : Fp := decodeIeee .fp32 c

/-- The value of BF16 bits. -/
def bf16V (c : Nat) : Fp := decodeIeee .bf16 c

/-- BF16 bits of a value: saturating, canonical NaN (R40, R41). -/
def toBf16 (x : Fp) : Conv := convert ⟨.bf16, 3, false⟩ 0 x

/-- A widened element: its bits, and whether OVF or UNF counts it (R44). -/
structure Widened where
  code : Nat
  ovf : Bool := false
  unf : Bool := false
  deriving DecidableEq, Repr

/-- Widening into BF16, FP32 or FP64 (R44): poison gives the canonical NaN, a magnitude above the largest finite value
gives that value. -/
def widen (f : FFmt) (x : Fp) : Widened :=
  match x with
  | .fin n m e =>
    if magGt m e f.maxM f.maxE then ⟨maxFinCode f n, true, false⟩
    else
      let y := roundQ f .rne n m 1 e
      ⟨encodeFin f n y.n y.q, false, m != 0 && y.n == 0⟩
  | _ => ⟨f.canonNan, false, false⟩

/-- A scale exponent clamped into an E8M0 code; above and below are counted (R35). -/
def e8m0 (x : Int) : Nat × Bool × Bool :=
  if x > 127 then (254, true, false) else if x < -127 then (0, false, true) else ((x + 127).toNat, false, false)

end Sys2Proof.Machine
end

