-- ==== Sys2Proof/Machine/RegMap.lean ====
section
/-! DEFINITION. The register map: the map of R427, the common header of R430, every block-specific register with its fields,
access and reset value (R72, R104, R105, R127, R144, R165, R180, R205, R224, R240, R252, R294, R315, R339, R340, R358, R359,
R376, R391, R409, R425, R429, R437). -/

namespace Sys2Proof.Machine

/-- The access codes of R431. -/
inductive Acc where
  | ro | rw | rws | rwr | w1c | w1s | wo
  deriving DecidableEq, Repr

/-- One field of a register: byte offset in its page, bits [hi:lo], access, reset value. -/
structure RegField where
  off : Nat
  hi : Nat
  lo : Nat
  acc : Acc
  reset : Nat
  deriving DecidableEq, Repr

/-! Offsets of the registers, by the spec's names. -/

namespace Reg

def BLK_ID : Nat := 0x000
def BLK_REV : Nat := 0x004
def BLK_CAP0 : Nat := 0x008
def BLK_CAP1 : Nat := 0x00C
def BLK_CTRL : Nat := 0x010
def BLK_STAT : Nat := 0x014
def BLK_SWING : Nat := 0x018
def BLK_SWING_STAT : Nat := 0x01C
def EVT_PEND : Nat := 0x020
def EVT_EN : Nat := 0x024
def EVT_SET : Nat := 0x028
def EVT_ROUTE : Nat := 0x02C
def OWNER : Nat := 0x030
def DV_CFG : Nat := 0x080
def SW_CTRL : Nat := 0x080
def SW_GSEL : Nat := 0x084
def SW_FIRE : Nat := 0x088
def SW_GSTAT : Nat := 0x08C
def SW_ERR : Nat := 0x090
def GE_CTRL : Nat := 0x080
def GE_THR0 : Nat := 0x084
def GE_THR1 : Nat := 0x088
def GE_WIN : Nat := 0x08C
def GE_WORD_LO : Nat := 0x090
def GE_WORD_HI : Nat := 0x094
def GE_HIST0 : Nat := 0x098
def GE_HIST1 : Nat := 0x09C
def GE_HIST2 : Nat := 0x0A0
def GE_HIST3 : Nat := 0x0A4
def GE_HIST4 : Nat := 0x0A8
def GE_HIST5 : Nat := 0x0AC
def GE_HIST6 : Nat := 0x0B0
def GE_HIST7 : Nat := 0x0B4
def GE_STAT : Nat := 0x0B8
def RN_CTRL : Nat := 0x080
def RN_KEY_LO : Nat := 0x084
def RN_KEY_HI : Nat := 0x088
def RN_CTR0 : Nat := 0x08C
def RN_CTR1 : Nat := 0x090
def RN_CTR2 : Nat := 0x094
def RN_CTR3 : Nat := 0x098
def RN_GO : Nat := 0x09C
def RN_OUT0 : Nat := 0x0A0
def RN_OUT1 : Nat := 0x0A4
def RN_OUT2 : Nat := 0x0A8
def RN_OUT3 : Nat := 0x0AC
def RN_STAT : Nat := 0x0B0
def RN_ERR : Nat := 0x0B4
def ST_CTRL : Nat := 0x080
def ST_SEL : Nat := 0x084
def ST_STEP : Nat := 0x088
def ST_STAT : Nat := 0x08C
def ST_LAST : Nat := 0x090
def ST_LASTSTEP : Nat := 0x094
def ST_ERR : Nat := 0x098
def ST_COMMITS : Nat := 0x09C
def SB_CTRL : Nat := 0x080
def SB_LS : Nat := 0x084
def SB_GROW : Nat := 0x088
def SB_SEL : Nat := 0x08C
def SB_LAYER : Nat := 0x090
def SB_STAT : Nat := 0x094
def SB_REPEATS : Nat := 0x098
def SB_ABORTS : Nat := 0x09C
def SB_ERR : Nat := 0x0A0
def SM_CTRL : Nat := 0x080
def SM_SEL : Nat := 0x084
def SM_FLAGS : Nat := 0x088
def SM_LOOSE_LO : Nat := 0x08C
def SM_LOOSE_HI : Nat := 0x090
def SM_FALLBACK : Nat := 0x094
def SM_ERR : Nat := 0x098
def PL_CTRL : Nat := 0x080
def PL_STAT : Nat := 0x084
def PL_SEL : Nat := 0x088
def PL_CTX : Nat := 0x08C
def PL_FRAMES : Nat := 0x090
def PL_MEM_LO : Nat := 0x094
def PL_MEM_HI : Nat := 0x098
def PL_SW_LAST : Nat := 0x09C
def PL_SW_MAX : Nat := 0x0A0
def PL_ERR : Nat := 0x0A4
def SE_CTRL : Nat := 0x080
def SE_STAT : Nat := 0x084
def SE_DUPS : Nat := 0x088
def SE_MISMATCH : Nat := 0x08C
def SE_SEL : Nat := 0x090
def SE_AGREED : Nat := 0x094
def SE_TEST : Nat := 0x098
def SE_TESTOPT : Nat := 0x09C
def SE_ERR : Nat := 0x0A0
def FM_CTRL : Nat := 0x080
def FM_STAT : Nat := 0x084
def FM_LAST : Nat := 0x088
def FM_LAST_UNIT : Nat := 0x08C
def FM_LAST_NS : Nat := 0x090
def FM_MAX_NS : Nat := 0x094
def FM_FSEL : Nat := 0x098
def FM_FENCE : Nat := 0x09C
def FM_ERR : Nat := 0x0A0
def EX_CTRL : Nat := 0x080
def EX_STAT : Nat := 0x084
def EX_DONE : Nat := 0x088
def EX_ERR : Nat := 0x08C
def EX_RESLOG : Nat := 0x090
def EX_BREACHES : Nat := 0x094
def EX_DSEL : Nat := 0x098
def EX_DSTEP : Nat := 0x09C
def EX_DIG_LO : Nat := 0x0A0
def EX_DIG_HI : Nat := 0x0A4
def EX_BYTES_LO : Nat := 0x0A8
def EX_BYTES_HI : Nat := 0x0AC
def TW_CTRL : Nat := 0x080
def TW_STAT : Nat := 0x084
def TW_MISSES : Nat := 0x088
def TW_MIRROR_LO : Nat := 0x08C
def TW_MIRROR_HI : Nat := 0x090
def TW_SEEDLEFT : Nat := 0x094
def TW_ERR : Nat := 0x098
def LK_CTRL : Nat := 0x080
def LK_STAT : Nat := 0x084
def LK_WEIGHT : Nat := 0x088
def LK_FLITS_LO : Nat := 0x08C
def LK_FLITS_HI : Nat := 0x090
def LK_FEC_CE : Nat := 0x094
def LK_FEC_UE : Nat := 0x098
def LK_RETRY : Nat := 0x09C
def LK_ERR : Nat := 0x0A0
def RT_ID : Nat := 0x080
def RT_SEL : Nat := 0x084
def RT_ENTRY : Nat := 0x088
def RT_TSEL : Nat := 0x08C
def RT_TMASK_LO : Nat := 0x090
def RT_TMASK_HI : Nat := 0x094
def RT_CTRL : Nat := 0x098
def RT_ERR : Nat := 0x09C
def HP_CTRL : Nat := 0x080
def HP_STAT : Nat := 0x084
def HP_MAC_LO : Nat := 0x088
def HP_MAC_HI : Nat := 0x08C
def HP_CC : Nat := 0x090
def HP_CMDS : Nat := 0x094
def HP_P0_LAST_NS : Nat := 0x098
def HP_P0_MAX_NS : Nat := 0x09C
def HP_DROP : Nat := 0x0A0
def HP_ERR : Nat := 0x0A4
def EC_CTRL : Nat := 0x080
def EC_STAT : Nat := 0x084
def EC_SSEL : Nat := 0x088
def EC_SCFG : Nat := 0x08C
def EC_NEXT0 : Nat := 0x090
def EC_NEXT1 : Nat := 0x094
def EC_NEXT2 : Nat := 0x098
def EC_NEXT3 : Nat := 0x09C
def EC_NEXT4 : Nat := 0x0A0
def EC_PPEND0 : Nat := 0x0A4
def EC_PPEND1 : Nat := 0x0A8
def EC_PPEND2 : Nat := 0x0AC
def EC_PPEND3 : Nat := 0x0B0
def EC_PPEND4 : Nat := 0x0B4
def EC_PEN0 : Nat := 0x0B8
def EC_PEN1 : Nat := 0x0BC
def EC_PEN2 : Nat := 0x0C0
def EC_PEN3 : Nat := 0x0C4
def EC_PEN4 : Nat := 0x0C8
def EC_RING : Nat := 0x0CC
def EC_ERR : Nat := 0x0D0
def PW_CTRL : Nat := 0x080
def PW_IDLE : Nat := 0x084
def PW_CAP : Nat := 0x088
def PW_STAT : Nat := 0x08C
def PW_VIN : Nat := 0x090
def PW_TICK_LO : Nat := 0x094
def PW_TICK_HI : Nat := 0x098
def PW_WAKE : Nat := 0x09C
def PW_ERR : Nat := 0x0A0
def MN_CTRL : Nat := 0x080
def MN_STAT : Nat := 0x084
def MN_TSEL : Nat := 0x088
def MN_TEMP : Nat := 0x08C
def MN_VSEL : Nat := 0x090
def MN_VOLT : Nat := 0x094
def MN_PROC : Nat := 0x098
def MN_ERR : Nat := 0x09C
def BT_STAT : Nat := 0x080
def BT_FWVER : Nat := 0x084
def BT_SVN : Nat := 0x088
def BT_SERIAL_LO : Nat := 0x08C
def BT_SERIAL_HI : Nat := 0x090
def BT_MEAS0 : Nat := 0x094
def BT_MEAS1 : Nat := 0x098
def BT_MEAS2 : Nat := 0x09C
def BT_MEAS3 : Nat := 0x0A0
def BT_MEAS4 : Nat := 0x0A4
def BT_MEAS5 : Nat := 0x0A8
def BT_MEAS6 : Nat := 0x0AC
def BT_MEAS7 : Nat := 0x0B0
def BT_ERR : Nat := 0x0B4
def FA_CTRL : Nat := 0x080
def FA_STAT : Nat := 0x084
def FA_TILES : Nat := 0x088
def FA_ERR : Nat := 0x08C
def FA_MACS_LO : Nat := 0x090
def FA_MACS_HI : Nat := 0x094
def LD_CTRL : Nat := 0x080
def LD_STAT : Nat := 0x084
def LD_SLIP : Nat := 0x088
def LD_ERR : Nat := 0x08C
def LD_ELEMS_LO : Nat := 0x090
def LD_ELEMS_HI : Nat := 0x094
def BA_CTRL : Nat := 0x080
def BX_STAT : Nat := 0x084
def BW_STAT : Nat := 0x088
def BX_TILES : Nat := 0x08C
def BW_TILES : Nat := 0x090
def BA_ERR : Nat := 0x094
def BX_MACS_LO : Nat := 0x098
def BX_MACS_HI : Nat := 0x09C
def BW_MACS_LO : Nat := 0x0A0
def BW_MACS_HI : Nat := 0x0A4
def AI_GSEL : Nat := 0x080
def AI_GSTAT : Nat := 0x084
def AI_GCTRL : Nat := 0x088
def PG_SEL : Nat := 0x080
def PG_COUNT : Nat := 0x084
def PG_TARGET : Nat := 0x088
def PG_OWNER : Nat := 0x08C
def PG_FLAGS : Nat := 0x090
def PG_GREACH : Nat := 0x094
def PG_FREE : Nat := 0x098
def PG_ERR : Nat := 0x09C
def SK_CTRL : Nat := 0x080
def SK_STAT : Nat := 0x084
def SK_CTX : Nat := 0x088
def SK_BASE_LO : Nat := 0x08C
def SK_BASE_HI : Nat := 0x090
def SK_SIZE : Nat := 0x094
def SK_TOP : Nat := 0x098
def SK_PEAK : Nat := 0x09C
def SK_ERR : Nat := 0x0A0
def UE_CTRL : Nat := 0x080
def UE_STAT : Nat := 0x084
def UE_SLICES : Nat := 0x088
def UE_ERR : Nat := 0x08C
def UE_PARAMS_LO : Nat := 0x090
def UE_PARAMS_HI : Nat := 0x094
def UE_DRAWS_LO : Nat := 0x098
def UE_DRAWS_HI : Nat := 0x09C
def UE_MSTALL : Nat := 0x0A0
def MC_CTRL : Nat := 0x080
def MC_STAT : Nat := 0x084
def MC_CE : Nat := 0x088
def MC_UE : Nat := 0x08C
def MC_UEADDR_LO : Nat := 0x090
def MC_UEADDR_HI : Nat := 0x094
def MC_ERR : Nat := 0x098

end Reg

/-- The writable or counted fields of the common header (R430); the rest of it is computed when read. -/
def hdrFields : List RegField :=
  [⟨0x010, 0, 0, .rws, 1⟩, ⟨0x010, 1, 1, .rws, 0⟩, ⟨0x018, 0, 0, .wo, 0⟩, ⟨0x018, 1, 1, .wo, 0⟩, ⟨0x018, 11, 8, .wo, 0⟩,
   ⟨0x020, 31, 0, .w1c, 0⟩, ⟨0x024, 31, 0, .rw, 0⟩, ⟨0x028, 31, 0, .w1s, 0⟩, ⟨0x02C, 1, 0, .rw, 0⟩, ⟨0x030, 31, 0, .rw, 0⟩]

/-- The block-specific fields of page kind 0x001 (R429). -/
def devicePage : List RegField :=
  [⟨0x080, 3, 0, .ro, 8⟩, ⟨0x080, 7, 4, .ro, 8⟩, ⟨0x080, 13, 8, .ro, 48⟩, ⟨0x080, 17, 14, .ro, 2⟩]

/-- The block-specific fields of page kind 0x002 (R437). -/
def swingPage : List RegField :=
  [⟨0x080, 15, 0, .rw, 5⟩, ⟨0x084, 3, 0, .rw, 1⟩, ⟨0x088, 1, 0, .wo, 0⟩, ⟨0x08C, 1, 0, .ro, 0⟩,
   ⟨0x08C, 16, 2, .ro, 0⟩, ⟨0x08C, 31, 17, .ro, 0⟩, ⟨0x090, 1, 0, .w1c, 0⟩]

/-- The block-specific fields of page kind 0x010 (R105). -/
def gaugePage : List RegField :=
  [⟨0x080, 15, 0, .rws, 256⟩, ⟨0x084, 15, 0, .rws, 64⟩, ⟨0x084, 31, 16, .rws, 1024⟩, ⟨0x088, 7, 0, .rws, 0⟩,
   ⟨0x088, 15, 8, .rws, 0⟩, ⟨0x088, 31, 16, .rws, 0xFFFF⟩, ⟨0x08C, 15, 0, .rw, 0⟩, ⟨0x08C, 25, 16, .rw, 0⟩,
   ⟨0x090, 31, 0, .rws, 0⟩, ⟨0x094, 31, 0, .rws, 0⟩, ⟨0x098, 15, 0, .ro, 0⟩, ⟨0x098, 31, 16, .ro, 0⟩,
   ⟨0x09C, 15, 0, .ro, 0⟩, ⟨0x09C, 31, 16, .ro, 0⟩, ⟨0x0A0, 15, 0, .ro, 0⟩, ⟨0x0A0, 31, 16, .ro, 0⟩,
   ⟨0x0A4, 15, 0, .ro, 0⟩, ⟨0x0A4, 31, 16, .ro, 0⟩, ⟨0x0A8, 15, 0, .ro, 0⟩, ⟨0x0A8, 31, 16, .ro, 0⟩,
   ⟨0x0AC, 15, 0, .ro, 0⟩, ⟨0x0AC, 31, 16, .ro, 0⟩, ⟨0x0B0, 15, 0, .ro, 0⟩, ⟨0x0B0, 31, 16, .ro, 0⟩,
   ⟨0x0B4, 15, 0, .ro, 0⟩, ⟨0x0B4, 31, 16, .ro, 0⟩, ⟨0x0B8, 0, 0, .ro, 0⟩, ⟨0x0B8, 1, 1, .ro, 0⟩,
   ⟨0x0B8, 2, 2, .ro, 0⟩, ⟨0x0B8, 31, 16, .ro, 0⟩]

/-- The block-specific fields of page kind 0x011 (R180). -/
def referencePage : List RegField :=
  [⟨0x080, 0, 0, .rws, 1⟩, ⟨0x084, 31, 0, .rw, 0⟩, ⟨0x088, 31, 0, .rw, 0⟩, ⟨0x08C, 31, 0, .rw, 0⟩,
   ⟨0x090, 31, 0, .rw, 0⟩, ⟨0x094, 31, 0, .rw, 0⟩, ⟨0x098, 31, 0, .rw, 0⟩, ⟨0x09C, 0, 0, .wo, 0⟩,
   ⟨0x0A0, 31, 0, .ro, 0⟩, ⟨0x0A4, 31, 0, .ro, 0⟩, ⟨0x0A8, 31, 0, .ro, 0⟩, ⟨0x0AC, 31, 0, .ro, 0⟩,
   ⟨0x0B0, 0, 0, .ro, 0⟩, ⟨0x0B0, 1, 1, .ro, 0⟩, ⟨0x0B4, 0, 0, .w1c, 0⟩, ⟨0x0B4, 31, 16, .ro, 0⟩]

/-- The block-specific fields of page kind 0x012 (R224). -/
def stepPage : List RegField :=
  [⟨0x080, 3, 0, .rws, 3⟩, ⟨0x080, 11, 4, .rws, 16⟩, ⟨0x080, 31, 16, .rws, 500⟩, ⟨0x084, 9, 0, .rw, 0⟩,
   ⟨0x088, 31, 0, .ro, 0⟩, ⟨0x08C, 3, 0, .ro, 0⟩, ⟨0x08C, 7, 4, .ro, 0⟩, ⟨0x08C, 8, 8, .ro, 0⟩,
   ⟨0x08C, 9, 9, .ro, 0⟩, ⟨0x08C, 10, 10, .ro, 0⟩, ⟨0x08C, 11, 11, .ro, 0⟩, ⟨0x08C, 23, 16, .ro, 0⟩,
   ⟨0x090, 1, 0, .ro, 0⟩, ⟨0x090, 15, 8, .ro, 0⟩, ⟨0x090, 27, 16, .ro, 0⟩, ⟨0x094, 31, 0, .ro, 0⟩,
   ⟨0x098, 0, 0, .w1c, 0⟩, ⟨0x098, 1, 1, .w1c, 0⟩, ⟨0x098, 2, 2, .w1c, 0⟩, ⟨0x098, 3, 3, .w1c, 0⟩,
   ⟨0x098, 4, 4, .w1c, 0⟩, ⟨0x098, 5, 5, .w1c, 0⟩, ⟨0x09C, 31, 0, .ro, 0⟩]

/-- The block-specific fields of page kind 0x013 (R240). -/
def stairPage : List RegField :=
  [⟨0x080, 6, 0, .rws, 4⟩, ⟨0x080, 31, 16, .rws, 256⟩, ⟨0x084, 9, 0, .rws, 0x3F0⟩, ⟨0x084, 25, 16, .rws, 0x020⟩,
   ⟨0x088, 15, 0, .rws, 2000⟩, ⟨0x08C, 9, 0, .rw, 0⟩, ⟨0x08C, 31, 16, .rw, 0⟩, ⟨0x090, 1, 0, .ro, 0⟩,
   ⟨0x090, 4, 2, .ro, 0⟩, ⟨0x090, 7, 5, .ro, 0⟩, ⟨0x090, 31, 16, .ro, 0⟩, ⟨0x094, 6, 0, .ro, 0⟩,
   ⟨0x094, 7, 7, .ro, 0⟩, ⟨0x094, 8, 8, .ro, 0⟩, ⟨0x094, 25, 16, .ro, 0⟩, ⟨0x098, 31, 0, .ro, 0⟩,
   ⟨0x09C, 31, 0, .ro, 0⟩, ⟨0x0A0, 0, 0, .w1c, 0⟩, ⟨0x0A0, 1, 1, .w1c, 0⟩, ⟨0x0A0, 2, 2, .w1c, 0⟩,
   ⟨0x0A0, 3, 3, .w1c, 0⟩]

/-- The block-specific fields of page kind 0x014 (R252). -/
def simulationPage : List RegField :=
  [⟨0x080, 3, 0, .rws, 7⟩, ⟨0x080, 7, 4, .rws, 3⟩, ⟨0x084, 9, 0, .rw, 0⟩, ⟨0x088, 0, 0, .w1c, 0⟩,
   ⟨0x088, 1, 1, .w1c, 0⟩, ⟨0x088, 2, 2, .w1c, 0⟩, ⟨0x088, 3, 3, .w1c, 0⟩, ⟨0x088, 4, 4, .w1c, 0⟩,
   ⟨0x08C, 31, 0, .ro, 0⟩, ⟨0x090, 31, 0, .ro, 0⟩, ⟨0x094, 31, 0, .ro, 0⟩, ⟨0x098, 0, 0, .w1c, 0⟩,
   ⟨0x098, 1, 1, .w1c, 0⟩, ⟨0x098, 2, 2, .w1c, 0⟩]

/-- The block-specific fields of page kind 0x015 (R294). -/
def scribePage : List RegField :=
  [⟨0x080, 0, 0, .rws, 1⟩, ⟨0x084, 0, 0, .ro, 0⟩, ⟨0x084, 7, 1, .ro, 0⟩, ⟨0x084, 29, 16, .ro, 0⟩,
   ⟨0x088, 9, 0, .rw, 0⟩, ⟨0x08C, 1, 0, .ro, 0⟩, ⟨0x08C, 2, 2, .ro, 0⟩, ⟨0x08C, 3, 3, .ro, 0⟩,
   ⟨0x08C, 4, 4, .ro, 0⟩, ⟨0x08C, 5, 5, .ro, 0⟩, ⟨0x08C, 6, 6, .ro, 0⟩, ⟨0x08C, 15, 8, .ro, 0⟩,
   ⟨0x08C, 22, 16, .ro, 0x7F⟩, ⟨0x090, 12, 0, .ro, 0⟩, ⟨0x090, 29, 16, .ro, 0⟩, ⟨0x094, 31, 0, .ro, 0⟩,
   ⟨0x098, 31, 0, .ro, 0⟩, ⟨0x09C, 31, 0, .ro, 0⟩, ⟨0x0A0, 31, 0, .ro, 0⟩, ⟨0x0A4, 0, 0, .w1c, 0⟩,
   ⟨0x0A4, 1, 1, .w1c, 0⟩, ⟨0x0A4, 2, 2, .w1c, 0⟩, ⟨0x0A4, 3, 3, .w1c, 0⟩, ⟨0x0A4, 4, 4, .w1c, 0⟩,
   ⟨0x0A4, 5, 5, .w1c, 0⟩]

/-- The block-specific fields of page kind 0x016 (R315). -/
def silentPage : List RegField :=
  [⟨0x080, 4, 0, .rws, 6⟩, ⟨0x080, 11, 5, .rws, 4⟩, ⟨0x080, 12, 12, .rws, 0⟩, ⟨0x080, 31, 16, .rws, 600⟩,
   ⟨0x084, 0, 0, .ro, 0⟩, ⟨0x084, 1, 1, .ro, 0⟩, ⟨0x084, 2, 2, .ro, 0⟩, ⟨0x084, 3, 3, .ro, 0⟩,
   ⟨0x084, 24, 16, .ro, 0⟩, ⟨0x088, 31, 0, .ro, 0⟩, ⟨0x08C, 31, 0, .ro, 0⟩, ⟨0x090, 9, 0, .rw, 0⟩,
   ⟨0x094, 31, 0, .ro, 0xFFFFFFFF⟩, ⟨0x098, 31, 0, .wo, 0⟩, ⟨0x09C, 0, 0, .rw, 0⟩, ⟨0x0A0, 0, 0, .w1c, 0⟩,
   ⟨0x0A0, 1, 1, .w1c, 0⟩, ⟨0x0A0, 2, 2, .w1c, 0⟩, ⟨0x0A0, 3, 3, .w1c, 0⟩, ⟨0x0A0, 4, 4, .w1c, 0⟩,
   ⟨0x0A0, 5, 5, .w1c, 0⟩, ⟨0x0A0, 6, 6, .w1c, 0⟩, ⟨0x0A0, 7, 7, .w1c, 0⟩]

/-- The block-specific fields of page kind 0x017 (R339). -/
def faultPage : List RegField :=
  [⟨0x080, 7, 0, .rws, 10⟩, ⟨0x084, 0, 0, .ro, 0⟩, ⟨0x084, 4, 1, .ro, 0⟩, ⟨0x084, 24, 16, .ro, 0⟩,
   ⟨0x088, 3, 0, .ro, 0⟩, ⟨0x088, 15, 4, .ro, 0⟩, ⟨0x08C, 31, 0, .ro, 0⟩, ⟨0x090, 31, 0, .ro, 0⟩,
   ⟨0x094, 31, 0, .ro, 0⟩, ⟨0x098, 7, 0, .rw, 0⟩, ⟨0x09C, 31, 0, .ro, 0⟩, ⟨0x0A0, 0, 0, .w1c, 0⟩,
   ⟨0x0A0, 1, 1, .w1c, 0⟩, ⟨0x0A0, 2, 2, .w1c, 0⟩]

/-- The block-specific fields of page kind 0x018 (R205). -/
def exchangePage : List RegField :=
  [⟨0x080, 15, 0, .rws, 2000⟩, ⟨0x080, 16, 16, .rws, 1⟩, ⟨0x080, 17, 17, .rws, 1⟩, ⟨0x084, 0, 0, .ro, 0⟩,
   ⟨0x084, 1, 1, .ro, 0⟩, ⟨0x084, 28, 16, .ro, 0⟩, ⟨0x088, 31, 0, .ro, 0⟩, ⟨0x08C, 0, 0, .w1c, 0⟩,
   ⟨0x08C, 1, 1, .w1c, 0⟩, ⟨0x08C, 2, 2, .w1c, 0⟩, ⟨0x08C, 3, 3, .w1c, 0⟩, ⟨0x08C, 4, 4, .w1c, 0⟩,
   ⟨0x08C, 5, 5, .w1c, 0⟩, ⟨0x090, 11, 0, .ro, 0⟩, ⟨0x090, 23, 12, .ro, 0⟩, ⟨0x090, 31, 24, .ro, 0⟩,
   ⟨0x094, 31, 0, .ro, 0⟩, ⟨0x098, 11, 0, .rw, 0⟩, ⟨0x098, 15, 12, .rw, 0⟩, ⟨0x098, 16, 16, .rw, 0⟩,
   ⟨0x09C, 31, 0, .ro, 0xFFFFFFFF⟩, ⟨0x0A0, 31, 0, .ro, 0⟩, ⟨0x0A4, 31, 0, .ro, 0⟩, ⟨0x0A8, 31, 0, .ro, 0⟩,
   ⟨0x0AC, 31, 0, .ro, 0⟩]

/-- The block-specific fields of page kind 0x019 (R339). -/
def twinPage : List RegField :=
  [⟨0x080, 0, 0, .rws, 1⟩, ⟨0x084, 2, 0, .ro, 0⟩, ⟨0x084, 27, 16, .ro, 0⟩, ⟨0x088, 31, 0, .ro, 0⟩,
   ⟨0x08C, 31, 0, .ro, 0⟩, ⟨0x090, 31, 0, .ro, 0⟩, ⟨0x094, 31, 0, .ro, 0⟩, ⟨0x098, 0, 0, .w1c, 0⟩,
   ⟨0x098, 1, 1, .w1c, 0⟩, ⟨0x098, 2, 2, .w1c, 0⟩]

/-- The block-specific fields of page kind 0x01A (R358). -/
def linkPage : List RegField :=
  [⟨0x080, 0, 0, .rws, 1⟩, ⟨0x080, 1, 1, .rws, 1⟩, ⟨0x080, 15, 8, .rws, 8⟩, ⟨0x080, 31, 24, .rws, 64⟩,
   ⟨0x084, 2, 0, .ro, 0⟩, ⟨0x084, 5, 3, .ro, 4⟩, ⟨0x084, 6, 6, .ro, 0⟩, ⟨0x084, 7, 7, .ro, 0⟩,
   ⟨0x084, 19, 8, .ro, 0⟩, ⟨0x084, 25, 20, .ro, 0⟩, ⟨0x088, 7, 0, .rws, 8⟩, ⟨0x088, 15, 8, .rws, 6⟩,
   ⟨0x088, 23, 16, .rws, 2⟩, ⟨0x08C, 31, 0, .ro, 0⟩, ⟨0x090, 31, 0, .ro, 0⟩, ⟨0x094, 31, 0, .ro, 0⟩,
   ⟨0x098, 31, 0, .ro, 0⟩, ⟨0x09C, 31, 0, .ro, 0⟩, ⟨0x0A0, 0, 0, .w1c, 0⟩, ⟨0x0A0, 1, 1, .w1c, 0⟩,
   ⟨0x0A0, 2, 2, .w1c, 0⟩, ⟨0x0A0, 3, 3, .w1c, 0⟩, ⟨0x0A0, 4, 4, .w1c, 0⟩, ⟨0x0A0, 5, 5, .w1c, 0⟩]

/-- The block-specific fields of page kind 0x01B (R359). -/
def routerPage : List RegField :=
  [⟨0x080, 11, 0, .rws, 0⟩, ⟨0x080, 31, 31, .rws, 0⟩, ⟨0x084, 11, 0, .rw, 0⟩, ⟨0x088, 5, 0, .rws, 0⟩,
   ⟨0x088, 11, 6, .rws, 0⟩, ⟨0x088, 12, 12, .rws, 0⟩, ⟨0x088, 13, 13, .rws, 0⟩, ⟨0x088, 14, 14, .rws, 0⟩,
   ⟨0x08C, 5, 0, .rw, 0⟩, ⟨0x090, 31, 0, .rws, 0⟩, ⟨0x094, 31, 0, .rws, 0⟩, ⟨0x098, 15, 0, .rws, 20⟩,
   ⟨0x098, 22, 16, .rws, 64⟩, ⟨0x09C, 0, 0, .w1c, 0⟩, ⟨0x09C, 1, 1, .w1c, 0⟩, ⟨0x09C, 2, 2, .w1c, 0⟩]

/-- The block-specific fields of page kind 0x01C (R376). -/
def hostPage : List RegField :=
  [⟨0x080, 0, 0, .rws, 1⟩, ⟨0x080, 3, 1, .rws, 3⟩, ⟨0x080, 6, 4, .rws, 6⟩, ⟨0x080, 15, 8, .rws, 0x08⟩,
   ⟨0x080, 31, 16, .rws, 10⟩, ⟨0x084, 0, 0, .ro, 0⟩, ⟨0x084, 1, 1, .ro, 0⟩, ⟨0x084, 18, 8, .ro, 0⟩,
   ⟨0x084, 25, 19, .ro, 0⟩, ⟨0x088, 31, 0, .ro, 0⟩, ⟨0x08C, 31, 0, .ro, 0⟩, ⟨0x090, 7, 0, .rws, 5⟩,
   ⟨0x090, 15, 8, .rws, 50⟩, ⟨0x094, 31, 0, .ro, 0⟩, ⟨0x098, 31, 0, .ro, 0⟩, ⟨0x09C, 31, 0, .ro, 0⟩,
   ⟨0x0A0, 31, 0, .ro, 0⟩, ⟨0x0A4, 0, 0, .w1c, 0⟩, ⟨0x0A4, 1, 1, .w1c, 0⟩, ⟨0x0A4, 2, 2, .w1c, 0⟩,
   ⟨0x0A4, 3, 3, .w1c, 0⟩]

/-- The block-specific fields of page kind 0x01D (R391). -/
def eventPage : List RegField :=
  [⟨0x080, 0, 0, .rws, 1⟩, ⟨0x084, 0, 0, .ro, 0⟩, ⟨0x088, 9, 0, .rw, 0⟩, ⟨0x08C, 2, 0, .rwr, 4⟩,
   ⟨0x08C, 3, 3, .rwr, 0⟩, ⟨0x08C, 4, 4, .w1c, 0⟩, ⟨0x08C, 5, 5, .ro, 0⟩, ⟨0x090, 9, 0, .ro, 0⟩,
   ⟨0x090, 15, 15, .ro, 0⟩, ⟨0x094, 9, 0, .ro, 0⟩, ⟨0x094, 15, 15, .ro, 0⟩, ⟨0x098, 9, 0, .ro, 0⟩,
   ⟨0x098, 15, 15, .ro, 0⟩, ⟨0x09C, 9, 0, .ro, 0⟩, ⟨0x09C, 15, 15, .ro, 0⟩, ⟨0x0A0, 9, 0, .ro, 0⟩,
   ⟨0x0A0, 15, 15, .ro, 0⟩, ⟨0x0A4, 31, 0, .w1c, 0⟩, ⟨0x0A8, 31, 0, .w1c, 0⟩, ⟨0x0AC, 31, 0, .w1c, 0⟩,
   ⟨0x0B0, 31, 0, .w1c, 0⟩, ⟨0x0B4, 31, 0, .w1c, 0⟩, ⟨0x0B8, 31, 0, .rwr, 0⟩, ⟨0x0BC, 31, 0, .rwr, 0⟩,
   ⟨0x0C0, 31, 0, .rwr, 0⟩, ⟨0x0C4, 31, 0, .rwr, 0⟩, ⟨0x0C8, 31, 0, .rwr, 0⟩, ⟨0x0CC, 2, 0, .wo, 0⟩,
   ⟨0x0D0, 0, 0, .w1c, 0⟩, ⟨0x0D0, 1, 1, .w1c, 0⟩]

/-- The block-specific fields of page kind 0x01E (R409). -/
def powerPage : List RegField :=
  [⟨0x080, 0, 0, .rws, 1⟩, ⟨0x080, 1, 1, .rw, 0⟩, ⟨0x080, 2, 2, .wo, 0⟩, ⟨0x084, 15, 0, .rws, 50⟩,
   ⟨0x084, 31, 16, .rws, 1000⟩, ⟨0x088, 15, 0, .rws, 3600⟩, ⟨0x08C, 1, 0, .ro, 0⟩, ⟨0x08C, 9, 2, .ro, 0⟩,
   ⟨0x08C, 10, 10, .ro, 0⟩, ⟨0x08C, 11, 11, .ro, 0⟩, ⟨0x08C, 12, 12, .ro, 0⟩, ⟨0x08C, 13, 13, .ro, 0⟩,
   ⟨0x08C, 31, 16, .ro, 0⟩, ⟨0x090, 15, 0, .ro, 0⟩, ⟨0x090, 31, 16, .ro, 0⟩, ⟨0x094, 31, 0, .ro, 0⟩,
   ⟨0x098, 31, 0, .ro, 0⟩, ⟨0x09C, 31, 0, .rwr, 0⟩, ⟨0x0A0, 0, 0, .w1c, 0⟩, ⟨0x0A0, 1, 1, .w1c, 0⟩,
   ⟨0x0A0, 2, 2, .w1c, 0⟩, ⟨0x0A0, 3, 3, .w1c, 0⟩, ⟨0x0A0, 4, 4, .w1c, 0⟩, ⟨0x0A0, 5, 5, .w1c, 0⟩]

/-- The block-specific fields of page kind 0x01F (R409). -/
def monitorPage : List RegField :=
  [⟨0x080, 7, 0, .rws, 95⟩, ⟨0x080, 15, 8, .rws, 105⟩, ⟨0x080, 19, 16, .rws, 3⟩, ⟨0x084, 11, 0, .ro, 0⟩,
   ⟨0x084, 20, 16, .ro, 16⟩, ⟨0x084, 21, 21, .ro, 0⟩, ⟨0x084, 22, 22, .ro, 0⟩, ⟨0x088, 6, 0, .rw, 0⟩,
   ⟨0x08C, 11, 0, .ro, 0⟩, ⟨0x08C, 12, 12, .ro, 0⟩, ⟨0x090, 7, 0, .rw, 0⟩, ⟨0x094, 15, 0, .ro, 0⟩,
   ⟨0x098, 15, 0, .ro, 0⟩, ⟨0x09C, 0, 0, .w1c, 0⟩, ⟨0x09C, 1, 1, .w1c, 0⟩, ⟨0x09C, 2, 2, .w1c, 0⟩,
   ⟨0x09C, 3, 3, .w1c, 0⟩]

/-- The block-specific fields of page kind 0x020 (R425). -/
def bootPage : List RegField :=
  [⟨0x080, 1, 0, .ro, 0⟩, ⟨0x080, 2, 2, .ro, 0⟩, ⟨0x080, 3, 3, .ro, 0⟩, ⟨0x080, 4, 4, .ro, 0⟩,
   ⟨0x084, 31, 0, .ro, 0⟩, ⟨0x088, 7, 0, .ro, 0⟩, ⟨0x088, 15, 8, .ro, 0⟩, ⟨0x088, 19, 16, .ro, 0⟩,
   ⟨0x08C, 31, 0, .ro, 0⟩, ⟨0x090, 31, 0, .ro, 0⟩, ⟨0x094, 31, 0, .ro, 0⟩, ⟨0x098, 31, 0, .ro, 0⟩,
   ⟨0x09C, 31, 0, .ro, 0⟩, ⟨0x0A0, 31, 0, .ro, 0⟩, ⟨0x0A4, 31, 0, .ro, 0⟩, ⟨0x0A8, 31, 0, .ro, 0⟩,
   ⟨0x0AC, 31, 0, .ro, 0⟩, ⟨0x0B0, 31, 0, .ro, 0⟩, ⟨0x0B4, 0, 0, .w1c, 0⟩, ⟨0x0B4, 1, 1, .w1c, 0⟩,
   ⟨0x0B4, 2, 2, .w1c, 0⟩, ⟨0x0B4, 3, 3, .w1c, 0⟩, ⟨0x0B4, 4, 4, .w1c, 0⟩, ⟨0x0B4, 5, 5, .w1c, 0⟩]

/-- The block-specific fields of page kind 0x030 (R72). -/
def fArrayPage : List RegField :=
  [⟨0x080, 0, 0, .rws, 0⟩, ⟨0x080, 1, 1, .rws, 1⟩, ⟨0x084, 0, 0, .ro, 0⟩, ⟨0x084, 2, 1, .ro, 0⟩,
   ⟨0x084, 3, 3, .ro, 0⟩, ⟨0x084, 4, 4, .ro, 0⟩, ⟨0x084, 12, 8, .ro, 0⟩, ⟨0x088, 31, 0, .ro, 0⟩,
   ⟨0x08C, 0, 0, .w1c, 0⟩, ⟨0x08C, 1, 1, .w1c, 0⟩, ⟨0x08C, 2, 2, .w1c, 0⟩, ⟨0x08C, 3, 3, .w1c, 0⟩,
   ⟨0x090, 31, 0, .ro, 0⟩, ⟨0x094, 31, 0, .ro, 0⟩]

/-- The block-specific fields of page kind 0x031 (R104). -/
def landingPage : List RegField :=
  [⟨0x080, 0, 0, .rws, 1⟩, ⟨0x080, 1, 1, .rws, 0⟩, ⟨0x084, 0, 0, .ro, 0⟩, ⟨0x084, 1, 1, .ro, 0⟩,
   ⟨0x084, 2, 2, .ro, 0⟩, ⟨0x088, 5, 0, .ro, 0⟩, ⟨0x088, 13, 8, .ro, 0⟩, ⟨0x088, 15, 14, .ro, 0⟩,
   ⟨0x088, 31, 16, .ro, 0⟩, ⟨0x08C, 0, 0, .w1c, 0⟩, ⟨0x08C, 1, 1, .w1c, 0⟩, ⟨0x08C, 2, 2, .w1c, 0⟩,
   ⟨0x090, 31, 0, .ro, 0⟩, ⟨0x094, 31, 0, .ro, 0⟩]

/-- The block-specific fields of page kind 0x032 (R127). -/
def bArrayPage : List RegField :=
  [⟨0x080, 0, 0, .rws, 1⟩, ⟨0x080, 1, 1, .rws, 0⟩, ⟨0x084, 0, 0, .ro, 0⟩, ⟨0x084, 2, 1, .ro, 0⟩,
   ⟨0x084, 3, 3, .ro, 0⟩, ⟨0x084, 12, 8, .ro, 0⟩, ⟨0x088, 0, 0, .ro, 0⟩, ⟨0x088, 2, 1, .ro, 0⟩,
   ⟨0x088, 3, 3, .ro, 0⟩, ⟨0x088, 12, 8, .ro, 0⟩, ⟨0x08C, 31, 0, .ro, 0⟩, ⟨0x090, 31, 0, .ro, 0⟩,
   ⟨0x094, 0, 0, .w1c, 0⟩, ⟨0x094, 1, 1, .w1c, 0⟩, ⟨0x094, 2, 2, .w1c, 0⟩, ⟨0x094, 3, 3, .w1c, 0⟩,
   ⟨0x094, 4, 4, .w1c, 0⟩, ⟨0x094, 5, 5, .w1c, 0⟩, ⟨0x098, 31, 0, .ro, 0⟩, ⟨0x09C, 31, 0, .ro, 0⟩,
   ⟨0x0A0, 31, 0, .ro, 0⟩, ⟨0x0A4, 31, 0, .ro, 0⟩]

/-- The block-specific fields of page kind 0x033 (R429). -/
def aislePage : List RegField :=
  [⟨0x080, 6, 0, .rw, 0⟩, ⟨0x084, 2, 0, .ro, 0⟩, ⟨0x084, 9, 3, .ro, 0x7F⟩, ⟨0x088, 0, 0, .rws, 0⟩]

/-- The block-specific fields of page kind 0x034 (R391). -/
def pegPage : List RegField :=
  [⟨0x080, 9, 0, .rw, 0⟩, ⟨0x084, 31, 0, .ro, 0⟩, ⟨0x088, 31, 0, .ro, 0⟩, ⟨0x08C, 31, 0, .ro, 0⟩,
   ⟨0x090, 0, 0, .ro, 0⟩, ⟨0x090, 1, 1, .w1c, 0⟩, ⟨0x090, 2, 2, .rw, 0⟩, ⟨0x090, 3, 3, .ro, 0⟩,
   ⟨0x094, 31, 0, .w1c, 0⟩, ⟨0x098, 10, 0, .ro, 1024⟩, ⟨0x09C, 0, 0, .w1c, 0⟩, ⟨0x09C, 1, 1, .w1c, 0⟩,
   ⟨0x09C, 2, 2, .w1c, 0⟩, ⟨0x09C, 3, 3, .w1c, 0⟩]

/-- The block-specific fields of page kind 0x035 (R144). -/
def stackPage : List RegField :=
  [⟨0x080, 0, 0, .rws, 1⟩, ⟨0x080, 3, 1, .rws, 2⟩, ⟨0x084, 0, 0, .ro, 0⟩, ⟨0x084, 1, 1, .ro, 0⟩,
   ⟨0x084, 2, 2, .ro, 0⟩, ⟨0x084, 31, 16, .ro, 0⟩, ⟨0x088, 9, 0, .rw, 0⟩, ⟨0x08C, 31, 0, .ro, 0⟩,
   ⟨0x090, 31, 0, .ro, 0⟩, ⟨0x094, 27, 0, .ro, 0⟩, ⟨0x098, 27, 0, .ro, 0⟩, ⟨0x09C, 27, 0, .ro, 0⟩,
   ⟨0x0A0, 0, 0, .w1c, 0⟩, ⟨0x0A0, 1, 1, .w1c, 0⟩, ⟨0x0A0, 2, 2, .w1c, 0⟩]

/-- The block-specific fields of page kind 0x036 (R165). -/
def updatePage : List RegField :=
  [⟨0x080, 3, 0, .rws, 8⟩, ⟨0x084, 0, 0, .ro, 0⟩, ⟨0x084, 1, 1, .ro, 0⟩, ⟨0x084, 2, 2, .ro, 0⟩,
   ⟨0x084, 5, 3, .ro, 0⟩, ⟨0x084, 25, 16, .ro, 0⟩, ⟨0x088, 31, 0, .ro, 0⟩, ⟨0x08C, 0, 0, .w1c, 0⟩,
   ⟨0x08C, 1, 1, .w1c, 0⟩, ⟨0x08C, 2, 2, .w1c, 0⟩, ⟨0x090, 31, 0, .ro, 0⟩, ⟨0x094, 31, 0, .ro, 0⟩,
   ⟨0x098, 31, 0, .ro, 0⟩, ⟨0x09C, 31, 0, .ro, 0⟩, ⟨0x0A0, 31, 0, .ro, 0⟩]

/-- The block-specific fields of page kind 0x037 (R340). -/
def memoryPage : List RegField :=
  [⟨0x080, 0, 0, .rws, 1⟩, ⟨0x080, 15, 8, .rws, 8⟩, ⟨0x080, 31, 16, .rws, 120⟩, ⟨0x084, 0, 0, .ro, 0⟩,
   ⟨0x084, 1, 1, .ro, 0⟩, ⟨0x084, 31, 16, .ro, 0⟩, ⟨0x088, 31, 0, .ro, 0⟩, ⟨0x08C, 31, 0, .ro, 0⟩,
   ⟨0x090, 31, 0, .ro, 0⟩, ⟨0x094, 31, 0, .ro, 0⟩, ⟨0x098, 0, 0, .w1c, 0⟩, ⟨0x098, 1, 1, .w1c, 0⟩,
   ⟨0x098, 2, 2, .w1c, 0⟩]

/-- The block-specific fields of a page kind. -/
def pageFields : Nat → List RegField
  | 0x01 => devicePage
  | 0x02 => swingPage
  | 0x10 => gaugePage
  | 0x11 => referencePage
  | 0x12 => stepPage
  | 0x13 => stairPage
  | 0x14 => simulationPage
  | 0x15 => scribePage
  | 0x16 => silentPage
  | 0x17 => faultPage
  | 0x18 => exchangePage
  | 0x19 => twinPage
  | 0x1A => linkPage
  | 0x1B => routerPage
  | 0x1C => hostPage
  | 0x1D => eventPage
  | 0x1E => powerPage
  | 0x1F => monitorPage
  | 0x20 => bootPage
  | 0x30 => fArrayPage
  | 0x31 => landingPage
  | 0x32 => bArrayPage
  | 0x33 => aislePage
  | 0x34 => pegPage
  | 0x35 => stackPage
  | 0x36 => updatePage
  | 0x37 => memoryPage
  | _ => []

/-- The fields of a page kind, header included. -/
def allFields (k : Nat) : List RegField := hdrFields ++ pageFields k

/-- BLK_CAP0.END: the first reserved offset after the block-specific registers, in words (R430). -/
def pageEnd (k : Nat) : Nat := ((pageFields k).foldl (fun a f => max a (f.off + 4)) 0x80) / 4

/-- The page kind has an RWR field. -/
def pageRetains (k : Nat) : Bool := (pageFields k).any (fun f => f.acc == .rwr)

/-- The error register of a page kind: its bits raise EVT_PEND (R430). -/
def errOff : Nat → Nat
  | 0x02 => 0x090
  | 0x11 => 0x0B4
  | 0x12 => 0x098
  | 0x13 => 0x0A0
  | 0x14 => 0x098
  | 0x15 => 0x0A4
  | 0x16 => 0x0A0
  | 0x17 => 0x0A0
  | 0x18 => 0x08C
  | 0x19 => 0x098
  | 0x1A => 0x0A0
  | 0x1B => 0x09C
  | 0x1C => 0x0A4
  | 0x1D => 0x0D0
  | 0x1E => 0x0A0
  | 0x1F => 0x09C
  | 0x20 => 0x0B4
  | 0x30 => 0x08C
  | 0x31 => 0x08C
  | 0x32 => 0x094
  | 0x34 => 0x09C
  | 0x35 => 0x0A0
  | 0x36 => 0x08C
  | 0x37 => 0x098
  | _ => 0

/-- A page: kind, instance field of BLK_ID, base address. -/
structure Page where
  kind : Nat
  inst : Nat
  base : Nat
  deriving DecidableEq, Repr

/-- Base address of hall n (R427). -/
def hallBase (h : Nat) : Nat := 0x08000000 + h * 0x01000000
/-- Base address of an aisle's window (R427). -/
def aisleBase (h a : Nat) : Nat := hallBase h + a * 0x00100000
/-- The pages by what they serve (R427). -/
def pgDevice : Page := ⟨0x01, 0, 0x00000000⟩
def pgSwing : Page := ⟨0x02, 0, 0x00001000⟩
def pgGauge : Page := ⟨0x10, 0, 0x00040000⟩
def pgReference : Page := ⟨0x11, 0, 0x00041000⟩
def pgStep : Page := ⟨0x12, 0, 0x00042000⟩
def pgStair : Page := ⟨0x13, 0, 0x00043000⟩
def pgSimulation : Page := ⟨0x14, 0, 0x00044000⟩
def pgScribe : Page := ⟨0x15, 0, 0x00045000⟩
def pgSilent : Page := ⟨0x16, 0, 0x00046000⟩
def pgFault : Page := ⟨0x17, 0, 0x00047000⟩
def pgExchange (hub : Nat) : Page := ⟨0x18, hub, if hub = 0 then 0x00050000 else 0x01050000⟩
def pgTwin : Page := ⟨0x19, 1, 0x01051000⟩
def pgLink (n : Nat) : Page := ⟨0x1A, n, if n < 24 then 0x00060000 + n * 0x1000 else 0x01060000 + (n - 24) * 0x1000⟩
def pgRouter : Page := ⟨0x1B, 0, 0x00080000⟩
def pgHost : Page := ⟨0x1C, 0, 0x00090000⟩
def pgEvent : Page := ⟨0x1D, 0, 0x000A0000⟩
def pgPower : Page := ⟨0x1E, 0, 0x000B0000⟩
/-- Monitor page: halls 0 to 7, 8 hub A, 9 hub B. -/
def pgMonitor (u : Nat) : Page :=
  if u = 8 then ⟨0x1F, 0, 0x000B1000⟩ else if u = 9 then ⟨0x1F, 1, 0x01052000⟩ else ⟨0x1F, u * 2048, hallBase u + 0xFF000⟩
def pgBoot : Page := ⟨0x20, 0, 0x000C0000⟩
def pgAisle (h a : Nat) : Page := ⟨0x33, h * 2048 + a * 128, aisleBase h a⟩
def pgFArray (h a g : Nat) : Page := ⟨0x30, h * 2048 + a * 128 + g, aisleBase h a + 0x10000 + g * 0x1000⟩
def pgLanding (h a g : Nat) : Page := ⟨0x31, h * 2048 + a * 128 + g, aisleBase h a + 0x60000 + g * 0x1000⟩
def pgBArray (h a g : Nat) : Page := ⟨0x32, h * 2048 + a * 128 + g, aisleBase h a + 0xB0000 + g * 0x1000⟩
def pgPeg (h : Nat) : Page := ⟨0x34, h * 2048, hallBase h + 0xFB000⟩
def pgStack (h : Nat) : Page := ⟨0x35, h * 2048, hallBase h + 0xFC000⟩
def pgUpdate (h : Nat) : Page := ⟨0x36, h * 2048, hallBase h + 0xFD000⟩
def pgMemory (h : Nat) : Page := ⟨0x37, h * 2048, hallBase h + 0xFE000⟩

/-- The page of an address inside a hall (R427). -/
def hallPage (h off : Nat) : Option Page :=
  let a := off / 0x100000
  let w := off % 0x100000
  if w < 0x1000 then some (pgAisle h a)
  else if 0x10000 ≤ w ∧ w < 0x54000 then some (pgFArray h a ((w - 0x10000) / 0x1000))
  else if 0x60000 ≤ w ∧ w < 0xA4000 then some (pgLanding h a ((w - 0x60000) / 0x1000))
  else if 0xB0000 ≤ w ∧ w < 0xF4000 then some (pgBArray h a ((w - 0xB0000) / 0x1000))
  else if a ≠ 0 then none
  else match w / 0x1000 with
    | 0xFB => some (pgPeg h)
    | 0xFC => some (pgStack h)
    | 0xFD => some (pgUpdate h)
    | 0xFE => some (pgMemory h)
    | 0xFF => some (pgMonitor h)
    | _ => none

/-- The page of a hub address (R427). -/
def hubPage (p : Nat) : Option Page :=
  match p with
  | 0x00000 => some pgDevice
  | 0x00001 => some pgSwing
  | 0x00040 => some pgGauge
  | 0x00041 => some pgReference
  | 0x00042 => some pgStep
  | 0x00043 => some pgStair
  | 0x00044 => some pgSimulation
  | 0x00045 => some pgScribe
  | 0x00046 => some pgSilent
  | 0x00047 => some pgFault
  | 0x00050 => some (pgExchange 0)
  | 0x01050 => some (pgExchange 1)
  | 0x01051 => some pgTwin
  | 0x01052 => some (pgMonitor 9)
  | 0x00080 => some pgRouter
  | 0x00090 => some pgHost
  | 0x000A0 => some pgEvent
  | 0x000B0 => some pgPower
  | 0x000B1 => some (pgMonitor 8)
  | 0x000C0 => some pgBoot
  | n =>
    if 0x60 ≤ n ∧ n < 0x78 then some (pgLink (n - 0x60))
    else if 0x1060 ≤ n ∧ n < 0x1078 then some (pgLink (n - 0x1060 + 24))
    else none

/-- The page that holds an address, or none where it is unmapped (R427). -/
def pageOf (addr : Nat) : Option Page :=
  if addr < 0x08000000 then hubPage (addr / 0x1000)
  else if addr < 0x10000000 then hallPage ((addr - 0x08000000) / 0x1000000) ((addr - 0x08000000) % 0x1000000)
  else none

/-- The gallery (hall, aisle, physical) that a gallery block's page belongs to. -/
def Page.gallery (p : Page) : Option (Nat × Nat × Nat) :=
  if p.kind = 0x30 ∨ p.kind = 0x31 ∨ p.kind = 0x32 then some (p.inst / 2048, p.inst / 128 % 16, p.inst % 128) else none

/-- The hall whose domain a page lies in; none for a hub page. -/
def Page.hall (p : Page) : Option Nat := if 0x08000000 ≤ p.base then some (p.inst / 2048) else none

/-- The fields of one register. -/
def fieldsAt (k off : Nat) : List RegField := (allFields k).filter (fun f => f.off == off)

/-- A register's reset value: the fields' reset values in their places. -/
def resetAt (k off : Nat) : Nat := ((fieldsAt k off).map (fun f => f.reset * 2 ^ f.lo)).sum

/-- The mask of the fields of a register with an access. -/
def maskAt (k off : Nat) (a : Acc) : Nat :=
  (((fieldsAt k off).filter (fun f => f.acc == a)).map (fun f => (2 ^ (f.hi + 1 - f.lo) - 1) * 2 ^ f.lo)).sum

end Sys2Proof.Machine
end

