-- ==== Sys2Proof/Machine/State.lean ====
section
/-! DEFINITION. The state of the block as plain data: every register, store, queue, counter, mode and pin of the spec, and the
queue of waiting commands; the machine right after reset. -/

namespace Sys2Proof.Machine

/-- The reasons a step can stop with a fault. No command of this block does: every failure the spec gives is a status, an
error bit or a fault record in a next state. -/
inductive Fault where
  /-- Raised by no meaning; it keeps the type inhabited. Safe. -/
  | unused
  deriving DecidableEq, Repr

/-- The reasons a step can refuse. -/
inductive Refusal where
  /-- Raised by Dispatch for a command whose meaning is not written, with its mnemonic. Safe. -/
  | notModelled (mnemonic : String)
  deriving DecidableEq, Repr

/-! Registers (R426-R439). -/

/-- A page's swing (R430, R433): STATE code, GROUP, TIMEOUT, REFUSED, SWINGS; whether it has arrived on its swing peg. -/
structure Swing where
  state : Nat := 0
  group : Nat := 0
  timeout : Bool := false
  refused : Bool := false
  swings : Nat := 0
  arrived : Bool := false
  deriving DecidableEq, Repr

/-- A swing group with its swing peg (R436): member pages, fired, contexts held. -/
structure SwingGroup where
  members : List Nat := []
  fired : Bool := false
  count : Nat := 0
  target : Nat := 0
  held : List Nat := []
  deriving DecidableEq, Repr

/-- The register banks: applied words and shadow words that differ from their reset value, by byte address; latched high
words; swings by page; swing groups; the block that the reference generator's last GO started (R180). -/
structure RegBank where
  applied : SMap Nat := []
  shadow : SMap Nat := []
  latch : SMap Nat := []
  swings : SMap Swing := []
  groups : SMap SwingGroup := []
  rnBlock : Nat := 0
  deriving DecidableEq, Repr

/-! Pegs and the event controller (R377-R390). -/

/-- A wait registered on a peg: a local work order (`op`: it is itself a wait operation), or a remote device with its
reference (R383, R384). -/
structure PegWait where
  ctx : Nat
  device : Option Nat := none
  ref : Nat := 0
  op : Bool := false
  w : WoHdr := {}
  deriving DecidableEq, Repr

/-- A peg (R377); `closed` is the closing of a COMMIT instance (R217). -/
structure Peg where
  count : Nat := 0
  target : Nat := 0
  owner : Nat := 0
  bound : Bool := false
  reached : Bool := false
  evtEn : Bool := false
  closed : Bool := false
  waits : List PegWait := []
  deriving DecidableEq, Repr

/-- A shared source of the event controller (R388). -/
structure Source where
  pend : Bool := false
  en : Bool := false
  target : Nat := 4
  level : Bool := false
  deriving DecidableEq, Repr

/-- What the retention registers hold (R390). -/
structure Retention where
  shared : SMap Source := []
  ppend : SMap Nat := []
  pen : SMap Nat := []
  crcOk : Bool := true
  late : List Nat := []
  deriving DecidableEq, Repr

/-- The event controller: shared sources, private pending and enable words of the five processors, retention image. -/
structure EventCtl where
  shared : SMap Source := []
  ppend : SMap Nat := []
  pen : SMap Nat := []
  image : Option Retention := none
  deriving DecidableEq, Repr

/-! Host port (R360-R376). -/

/-- A response (R366, R368): to a session and source, or on a ring with its consumer index (R370). -/
structure Resp where
  session : Nat
  seq : Nat
  status : Nat
  payload : List Byte := []
  src : Nat := 0
  ring : Option Nat := none
  consumer : Nat := 0
  deriving DecidableEq, Repr

/-- A command session (R367): highest SEQ answered, answered responses, SEQs accepted and not answered yet. -/
structure Session where
  src : Nat := 0
  high : Nat := 0
  answers : List Resp := []
  open_ : List Nat := []
  deriving DecidableEq, Repr

/-- A queue pair (R362-R364): connection, error state, rate in Gbit/s, when its last congestion notification left. -/
structure Qp where
  cfg : QpCfg
  error : Bool := false
  rate : Nat := 800
  cnpAt : Option Nat := none
  deriving DecidableEq, Repr

/-- A command ring (R369, R370). -/
structure Ring where
  qp : Nat
  prio : Nat
  rkey : Nat
  producer : Nat := 0
  consumer : Nat := 0
  entries : SMap RingEntry := []
  deriving DecidableEq, Repr

/-- Where a command came from: a datagram of a session, a ring entry, each with its priority, or the device itself. -/
inductive Origin where
  | session (id seq src prio : Nat)
  | ring (id seq prio : Nat)
  | device
  deriving DecidableEq, Repr

/-- What a pending transfer is for (R363, R365). -/
inductive XferKind where
  | plan (o : Origin) (ctx : Nat) (table : BufRef)
  | planTable (o : Origin) (ctx : Nat) (image : List Byte)
  | activateTable (o : Origin) (ctx : Nat)
  | switchTable (o : Origin) (outs : List Nat) (ctx : Nat)
  | image (o : Origin) (ctx : Nat) (r : RestoreArgs)
  | imagePlan (o : Origin) (ctx : Nat) (r : RestoreArgs) (img : List Byte)
  | imageTable (o : Origin) (ctx : Nat) (r : RestoreArgs) (img plan : List Byte)
  | export_ (o : Origin) (ctx : Nat)
  | probe (o : Origin)
  | firmware (o : Origin)
  | pairTable (o : Origin) (twin links : Nat)
  | shadow (ctx : Nat)
  | rollback (ctx : Nat)
  | moveIn (w : WoHdr) (tid off : Nat)
  | moveOut (w : WoHdr)
  | mxIn (w : WoHdr) (a : MvArgs) (x : MxArgs)
  | telemetry (stream ctx : Nat)
  deriving DecidableEq, Repr

/-- A transfer to or from host memory that has not completed: its QP and what waits on it. -/
structure Xfer where
  qp : Nat
  kind : XferKind
  deriving DecidableEq, Repr

/-- The mode of a telemetry stream (R373): 0 off, 1 datagrams to a session, 2 host ring with its producer count. -/
structure Stream where
  mode : Nat := 0
  session : Nat := 0
  buf : BufRef := {}
  producer : Nat := 0
  deriving DecidableEq, Repr

/-- A record waiting in a device ring (R373, R375), with the monotonic count at which it was written. -/
structure TelRec where
  stream : Nat
  ctx : Nat
  body : List Byte
  tick : Nat := 0
  deriving DecidableEq, Repr

/-- A device ring of one stream, and of one context for streams 0 and 1: records, oldest first, and how many were dropped. -/
structure DevRing where
  recs : List TelRec := []
  lost : Nat := 0
  deriving DecidableEq, Repr

/-- The host port. -/
structure HostPort where
  net : NetCfg := {}
  sessions : SMap Session := []
  qps : SMap Qp := []
  rings : SMap Ring := []
  xfers : SMap Xfer := []
  nextXfer : Nat := 0
  streams : SMap Stream := []
  devRings : SMap DevRing := []
  paused : Nat := 0
  deriving DecidableEq, Repr

/-! Plans (R253-R263). -/

/-- A tensor record (R256). -/
structure TensorRec where
  tid : Nat
  fmt : Nat
  et : Nat
  rank : Nat
  baxis : Nat
  token : Bool
  role : Nat
  dims : List Nat
  parent : Nat
  mslot : Nat
  deriving DecidableEq, Repr

/-- A layer record (R258). -/
structure LayerRec where
  kind : Nat
  fbase : Nat
  fceil : Nat
  bbase : Nat
  bceil : Nat
  runlen : Nat
  frozen : Bool
  plumb : Bool
  recomp : Bool
  rbstart : Bool
  exch : Bool
  group : Nat
  outCount : Nat
  w : Nat
  x : Nat
  xs : Nat
  opt : Nat
  ovr : Nat
  outFirst : Nat
  tfirst : Nat
  tcount : Nat
  ovfThr : Nat
  badThr : Nat
  satThr : Nat
  vanThr : Nat
  unfThr : Nat
  deriving DecidableEq, Repr

/-- A gauge binding (R260). -/
structure BindRec where
  gauge : Nat
  tid : Nat
  kind : Nat
  margin : Nat
  hwin : Nat
  bucket : Nat
  deriving DecidableEq, Repr

/-- A group record with its member entries: device and share offset (R261). -/
structure GroupRec where
  p : Nat
  topo : Nat
  topk : Bool
  ef : Bool
  hub : Nat
  rings : Nat
  kshift : Nat
  tagGroup : Nat
  q : Nat
  deadline : Nat
  nslice : Nat
  tokens : Nat
  members : List (Nat × Nat)
  deriving DecidableEq, Repr

/-- An optimizer record (R263): scalars LR to U3 as FP32 codes. -/
structure OptRec where
  kind : Nat
  nmom : Nat
  sched : Nat
  scal : List Nat
  warmup : Nat
  total : Nat
  period : Nat
  factor : Nat
  seq : List Nat
  deriving DecidableEq, Repr

/-- A work-order template: its sixteen words (R264, R266). -/
structure Template where
  words : List Nat
  deriving DecidableEq, Repr

/-- A plan image parsed, with its bytes (R253, R254). -/
structure Plan where
  image : List Byte := []
  cls : Nat := 0
  split : Bool := false
  lsInit : Int := 0
  nframe : Nat := 1
  tensors : List TensorRec := []
  layers : List LayerRec := []
  outliers : List Nat := []
  gauges : List BindRec := []
  groups : List GroupRec := []
  opts : List OptRec := []
  templates : List Template := []
  deriving DecidableEq, Repr

/-- A frame request (R277). -/
structure FrameReq where
  gmin : Nat
  gwant : Nat
  hmin : Nat
  hmax : Nat
  deriving DecidableEq, Repr

/-- A member of a frame: hall, aisle, slot (R286). -/
structure Slot where
  hall : Nat
  aisle : Nat
  slot : Nat
  deriving DecidableEq, Repr

/-! Contexts. -/

/-- A gauge: the fields of the gauge word (R80) and the sixteen history slots, newest first (R79). -/
structure Gauge where
  pend : Nat := 0
  gexp : Int := 0
  margin : Nat := 2
  base : Nat := 2
  hcount : Nat := 0
  hwin : Nat := 0
  quiet : Nat := 0
  trip : Bool := false
  wide : Bool := false
  survey : Bool := false
  top : Bool := false
  bound : Bool := false
  kind : Nat := 0
  hist : List Nat := []
  deriving DecidableEq, Repr

/-- A journal slot (R160, R211): VALID, STEP, NMOM and CRC of its header (TENSOR, SLICE and CTX are its key and its context), the payload
as BF16 codes of parameters and moments, and whether an uncorrectable line of it was met (R336). -/
structure JSlot where
  valid : Bool := false
  step : Nat := 0
  nmom : Nat := 0
  crc : Nat := 0
  lost : Bool := false
  data : List (List Nat) := []
  deriving DecidableEq, Repr

/-- One frame of one hall with its record (R131, R132, R136): layer, kind, half, position, hall, tensor kept, format, first page and
pages, CRC-32C, the rows of the copy it covers, its parts in order (codes, block scales, tags, side rows, auxiliary records), and for kind
1 the forward activation copy. A record of held segment results is one of kind 3. -/
structure StackFrame where
  layer : Nat
  kind : Nat
  half : Nat
  pos : Nat
  hall : Nat
  tid : Nat := 0xFFFFFF
  fmt : Nat := 0
  offset : Nat := 0
  length : Nat := 0
  crc : Nat := 0
  first : Nat := 0
  rows : Nat := 0
  parts : List (List Byte) := []
  input : Option Tensor := none
  deriving DecidableEq, Repr

/-- The activation stack of a context (R129-R143): highest top per hall, frames (newest first), mark of each layer (how many frames of its
half and position stood below it), the recompute scratch, frames popped ahead of bay W, records of held segment results, whether a block
is being rerun. -/
structure ActStack where
  peak : SMap Nat := []
  frames : List StackFrame := []
  marks : SMap Nat := []
  scratch : List StackFrame := []
  popped : List StackFrame := []
  held : List StackFrame := []
  rerun : Bool := false
  deriving DecidableEq, Repr

/-- A work order that has run and has yet to report (R267); `elems` counts the elements its landing unit converted (R104). -/
structure WoDone where
  w : WoHdr
  kind : Nat
  elems : Nat := 0
  status : Nat := 0
  tally : Tally := {}
  maxima : List (Nat × Nat) := []
  trips : List Nat := []
  flags : IFlags := {}
  c0 : Nat := 0
  c1 : Nat := 0
  c2 : Nat := 0
  always : Bool := false
  deriving DecidableEq, Repr

/-- A cause of an attempt's end (R209): outcome code, cause code, device that reported it. -/
structure Cause where
  outcome : Nat
  code : Nat
  device : Nat
  deriving DecidableEq, Repr

/-- An admission notice held (R450): the twin's device ID where protection is PENDING or ACTIVE, and which of the two. -/
structure Notice where
  twin : Option Nat := none
  active : Bool := false
  deriving DecidableEq, Repr

/-- The limits an attempt keeps from its admission (R209, R224, R240). -/
structure Limits where
  repeatMax : Nat := 3
  skipMax : Nat := 16
  timeout : Nat := 500
  budget : Nat := 4
  deriving DecidableEq, Repr

/-- A weight-gradient slice on its way (R120, R145, R197): stage 0 complete, 1 final, 2 accepted and computed, 3 written,
4 refused or discarded; its FP32 values; what the update engine computed for it: prepared gradient, new parameters and moments
as FP32 codes. -/
structure Slice where
  layer : Nat
  stage : Nat := 0
  vals : List Nat := []
  grad : List Nat := []
  news : List (List Nat) := []
  deriving DecidableEq, Repr

/-- A chunk of an exchange bucket as it stands (R189-R194): sums and residues by block index, the flags carried with it. -/
structure Chunk where
  blocks : SMap (List Int) := []
  residues : SMap Nat := []
  breach : Bool := false
  poison : Bool := false
  bump : Nat := 0
  gmax : Nat := 0
  deriving DecidableEq, Repr

/-- An exchange bucket open at this device (R181-R203): stage 0 agreeing, 1 reducing, 2 up the tree, 3 down the tree,
4 gathering, 5 every chunk final, 6 decided. `fault` is the cause code that stops it, `hub` the hub at which its last packet came in
(R19). -/
structure Bucket where
  tid : Nat
  first : Nat
  count : Nat
  layer : Nat
  gauge : Nat
  stage : Nat := 0
  attempt : Nat := 0
  a : Int := 0
  agree : Int := 0
  vals : List Nat := []
  sel : List Nat := []
  own : SMap (List Int) := []
  maxima : Nat := 0
  bump : Nat := 0
  breach : Bool := false
  poison : Bool := false
  hop : Nat := 0
  ups : Nat := 0
  chunks : SMap Chunk := []
  fault : Nat := 0
  hub : Nat := 0
  final : Bool := false
  deriving DecidableEq, Repr

/-- A sampled tile and its executions (R296-R299): the physical galleries of the original, duplicate and third run, their
digests, and the work order it belongs to. -/
structure DupExec where
  w : WoHdr
  gals : List Nat
  digests : List Nat
  training : Bool := true
  deriving DecidableEq, Repr

/-- One attempt of a step (R206-R221, R225-R239). Layer keys are (pos * 2 + half) * 65536 + layer; `back` holds for pos * 2 + half
the layer whose backward runs plus 1, and 0x10000 once all of it has ended; `own` the complete slices that wait for their bucket, by
position, parameter and slice; `digRun` the device's running exchange digests SENT and RECEIVED, by group, ordinal and attempt of the
bucket (R204); `braises` and `bover` layer keys; the settle round: messages taken from the ring, children heard, own sum sent up, done, messages
that came before it began (R238). -/
structure Attempt where
  step : Nat
  number : Nat := 0
  phase : Nat := 2
  split : Bool := false
  halfOff : Bool := false
  batchOff : Nat := 0
  batchLen : Nat := 0
  limits : Limits := {}
  repeats : Nat := 0
  shift : Nat := 6
  used : SMap Nat := []
  treads : SMap Nat := []
  passes : SMap Nat := []
  tally : SMap Tally := []
  btally : SMap Tally := []
  prior : SMap Tally := []
  xsat : SMap Nat := []
  xovf : SMap Nat := []
  saved : SMap (List (Nat × Nat × Bool)) := []
  tripSet : List Nat := []
  raises : List Nat := []
  lower : Option Nat := none
  braises : List Nat := []
  bover : List Nat := []
  events : List Nat := []
  causes : List Cause := []
  told : List Cause := []
  notices : SMap Notice := []
  ready : Bool := false
  vote : Option Nat := none
  outcome : Option Nat := none
  deciding : Bool := false
  lostParties : List Nat := []
  timedOut : Bool := false
  asked : List Nat := []
  answers : List (Nat × Nat) := []
  losses : List (Nat × Nat) := []
  survey : List Nat := []
  surveyed : Bool := false
  back : SMap Nat := []
  segs : SMap (SMap (List Nat)) := []
  own : SMap (List Nat) := []
  slices : SMap Slice := []
  buckets : SMap Bucket := []
  digRun : SMap (Nat × Nat) := []
  noMore : Bool := false
  discard : Bool := false
  journalled : List Nat := []
  mirrorLeft : Nat := 0
  summarySent : Bool := false
  summaryAcked : Bool := false
  twinParty : Bool := false
  settleHop : Nat := 0
  settleUps : List Nat := []
  settleUp : Bool := false
  settleDone : Bool := false
  settleIn : List (Nat × Bool × List Nat) := []
  settleRaises : List Nat := []
  settleLower : Bool := false
  settling : Bool := false
  leaves : SMap (List Byte) := []
  deriving DecidableEq, Repr

/-- An evaluation pass (R222, R223). -/
structure EvalRun where
  number : Nat
  lfirst : Nat := 0
  llast : Nat := 0
  failed : Bool := false
  report : Nat := 0xFFFFFF
  off : Nat := 0
  len : Nat := 0
  tally : SMap Tally := []
  loss : Nat := 0
  wo : Option WoHdr := none
  deriving DecidableEq, Repr

/-- A command that waits in a context's queue (R276). -/
structure Queued where
  origin : Origin
  cmd : HostCmd
  deriving DecidableEq, Repr

/-- A plan load that passed its checks and waits for the boundary (R271). -/
structure HeldPlan where
  origin : Origin
  plan : Plan
  table : List FrameReq
  deriving DecidableEq, Repr

/-- The shadow a twin keeps beyond the context's own state (R303, R325, R328): records that wait for the plan, pre-step copies and
the two agreed logs, by slice key, with the steps they stand for and the optimizer counters at them. -/
structure Shadow where
  held : Bool := false
  member : Nat := 0
  wait : List MirrorRec := []
  pre : SMap (List (List Nat)) := []
  agreedStep : Option Nat := none
  agreedLog : SMap (List (List Nat)) := []
  agreedCtr : SMap Nat := []
  candStep : Option Nat := none
  candLog : SMap (List (List Nat)) := []
  candCtr : SMap Nat := []
  summary : Option StepSummary := none
  deriving DecidableEq, Repr

/-- What one tile of a simulation kernel reported: its place and extent, flags, LOOSE, FALLBACK, the rows and columns it found split
inexactly (R242, R249, R250). -/
structure KernelTile where
  m0 : Nat
  n0 : Nat
  m : Nat
  n : Nat
  flags : IFlags := {}
  loose : Nat := 0
  fallback : Nat := 0
  rows : List Nat := []
  cols : List Nat := []
  deriving DecidableEq, Repr

/-- A context (R273, R274). `parts` holds segment results of products and reductions that were divided, as codes (R66, R244);
`kernels` holds by template the tiles of a kernel that have run since its dispatch (R242, R250), `sliceAt` the slice-count defaults, plus
1, that it was dispatched with (R252);
`passOf` names for a tensor the pass that last stored its scales afresh, so that a poison of the same pass stays (R38, R41);
`reexec` holds the work orders that a first slip stopped, as sent and as they run (R100). -/
structure Ctx where
  state : Nat := 0
  suspended : Bool := false
  noFit : Bool := false
  journal : Bool := false
  seed : Option (BitVec 64) := none
  step : Nat := 0
  evalno : Nat := 0
  plan : Option Plan := none
  table : List FrameReq := []
  held : Option HeldPlan := none
  queue : List Queued := []
  exporting : Bool := false
  window : Option BufRef := none
  tensors : SMap Tensor := []
  inactive : SMap Tensor := []
  chanMax : SMap (SMap Nat) := []
  chanNew : SMap (SMap Nat) := []
  residual : SMap (SMap Nat) := []
  residualNew : SMap (SMap Nat) := []
  made : SMap Tensor := []
  gauges : SMap Gauge := []
  closing : List Nat := []
  optCtr : SMap Nat := []
  scalars : SMap (List Nat) := []
  btread : SMap Nat := []
  bquiet : SMap Nat := []
  lastTread : SMap Nat := []
  lastUsed : Nat := 0
  lastSplit : Bool := false
  homes : SMap (List Nat) := []
  frameHomes : SMap (List Nat) := []
  homeBytes : SMap Nat := []
  exchBytes : SMap Nat := []
  regionBytes : SMap Nat := []
  stackPages : SMap Nat := []
  stackBase : SMap Nat := []
  frames : SMap (List Slot) := []
  cached : SMap (List Slot) := []
  frameQueues : SMap (List Nat) := []
  pegs : SMap Nat := []
  commitPegs : List Nat := []
  slot : Option Nat := none
  stack : ActStack := {}
  jslots : SMap JSlot := []
  rollback : List Nat := []
  attempt : Option Attempt := none
  batch : Option (Nat × Nat) := none
  repeatPending : Bool := false
  evalRun : Option EvalRun := none
  done : List WoDone := []
  dups : List DupExec := []
  parts : SMap (SMap Nat) := []
  passOf : SMap Nat := []
  reexec : List (WoHdr × WoHdr) := []
  kernels : SMap (List KernelTile) := []
  sliceAt : SMap Nat := []
  flags : IFlags := {}
  loose : Nat := 0
  fallback : Nat := 0
  skips : Nat := 0
  repeats : Nat := 0
  attemptNo : Nat := 0
  lastOutcome : Nat := 0
  lastCause : Nat := 0
  lastDevice : Nat := 0
  lastStep : Nat := 0
  digest : Option (Nat × List Byte) := none
  roots : SMap (Nat × List Byte) := []
  lastTwins : SMap Nat := []
  voting : Bool := false
  agreed : Option Nat := none
  configBad : Bool := false
  rollbackDue : Bool := false
  vacant : List Nat := []
  taken : List Nat := []
  moved : SMap Nat := []
  earlyNotices : List (Nat × Nat × Nat × Notice) := []
  expelled : List Nat := []
  unpairing : Bool := false
  shadow : Shadow := {}
  deriving DecidableEq, Repr

/-! Galleries, power, boot, links and the rest of the device. -/

/-- A physical gallery: AI_GSTAT.STATE (0 in service, 1 spare passed, 2 spare testing, 3 spare failed, 4 held, 5 retired) and
slot (R429), failures of its test in succession, suspicion, a requested test, quarantined and not passed since, power gate, test
running, when it left and entered service and ticks served, the probe pack it runs and those it has run with their versions, its
owner tags that are fenced, the context in which it lost an arbitration, AI_GCTRL.HOLD applied and staged, back from HOLD and not passed since (R14-R18, R299, R307-R312,
R315, R320, R395, R429). -/
structure Gallery where
  state : Nat := 0
  slot : Nat := 0x7F
  fails : Nat := 0
  suspect : Bool := false
  testReq : Bool := false
  quar : Bool := false
  powered : Bool := true
  testing : Bool := false
  timeOut : Nat := 0
  timeIn : Nat := 0
  served : Nat := 0
  probing : Option Nat := none
  packs : List (Nat × Nat) := []
  tags : List Nat := []
  blame : Option Nat := none
  hold : Bool := false
  holdNext : Bool := false
  mustPass : Bool := false
  deriving DecidableEq, Repr

/-- A flit (R342): its header's fields and data bytes; the CRC is formed where bytes are. -/
structure Flit where
  tc : Nat := 0
  fkind : Nat := 0
  last : Bool := false
  vc : Nat := 0
  seq : Nat := 0
  ack : Nat := 0
  dst : Nat := 0
  src : Nat := 0
  len : Nat := 240
  credit : Nat := 0
  ctc : Nat := 0
  proto : Nat := 0
  eseq : Nat := 0
  hops : Nat := 0
  data : List Byte := []
  deriving DecidableEq, Repr

/-- A message of the device to another device, by what it carries (R204, R209, R238, R301, R329, R383, R450). -/
inductive Msg where
  | pegOp (m : PegMsg)
  | pegAck (ref status count target : Nat)
  | release (ref status : Nat)
  | notice (ctx step attempt : Nat) (twin : Option Nat) (active : Bool)
  | settle (ctx step : Nat) (lower : Bool) (raises : List Nat)
  | exchange (p : ExPkt)
  | root (ctx step interval : Nat) (root : List Byte)
  | mirror (header : List Byte) (m : MirrorRec)
  | seed (ctx tid slice : Nat)
  | summary (m : StepSummary)
  | mirrorAck (ctx : Nat) (summary : Bool)
  | lost (device : Nat)
  | beat (seq : Nat) (down : Bool)
  | fetch (ctx : Nat)
  | movement (ctx : Nat) (data : List Byte)
  | pairing (twin : Nat) (on : Bool)
  deriving DecidableEq, Repr

/-- What leaves the block, in order. -/
inductive Out where
  | resp (r : Resp)
  | send (r : Resp)
  | read (id : Nat) (b : BufRef)
  | write (b : BufRef) (data : List Byte)
  | nak (qp : Nat)
  | cnp (qp : Nat)
  | reply (kind dst : Nat) (data : List Byte)
  | datagram (session : Nat) (data : List Byte)
  | msg (dst tc proto : Nat) (m : Msg)
  | flit (link : Nat) (f : Flit)
  | nakFlit (link seq : Nat)
  | training (link : Nat)
  deriving DecidableEq, Repr

/-- A work order waiting in a member's queue (R6, R7); `again`: it completed before and is run again after a gallery fault
(R322). -/
structure QEntry where
  ctx : Nat
  template : Nat
  again : Bool := false
  deriving DecidableEq, Repr

/-- The twin logic (R324-R331): TW_STAT.STATE (as a member 0 to 4; `serving` reads as 5), the device's own twin, the member it serves and its shadow's request table,
the mask of bundle links, periods missed in a row by peer, peers heard in this period, the sequence number of its own beats,
seeding still to send in bytes, an UNPAIR that waits. -/
structure TwinSt where
  state : Nat := 0
  twin : Option Nat := none
  member : Option Nat := none
  links : Nat := 0
  table : List FrameReq := []
  missed : SMap Nat := []
  heard : List Nat := []
  beat : Nat := 0
  seedLeft : Nat := 0
  unpair : Option Origin := none
  serving : Bool := false
  deriving DecidableEq, Repr

/-- A link (R341-R358): state 0 DOWN, 1 TRAINING, 2 UP, 3 DEGRADED, 4 FAILED; spare lane and whether it is faulty; calibration; the far end and the ID
last seen there; left out of its trunk; sequence numbers; a discard that waits for a replay; the retry buffer; how often its
oldest flit was replayed; credits held by class and channel; credits to return; flits waiting at egress. -/
structure Link where
  state : Nat := 0
  spare : Nat := 4
  noSpare : Bool := false
  cal : Bool := false
  peer : Nat := 0
  peerLink : Nat := 0
  seen : Option Nat := none
  leftOut : Bool := false
  tx : Nat := 0
  rx : Nat := 0
  discarding : Bool := false
  retry : List Flit := []
  replayed : Nat := 0
  replays : Nat := 0
  used : SMap Nat := []
  owed : SMap Nat := []
  queue : List Flit := []
  turn : Nat := 0
  share : Nat := 0
  deriving DecidableEq, Repr

/-- A flit in the reorder store, or behind it in its port's buffer: then the link whose credit is withheld (R352). -/
structure HeldFlit where
  f : Flit
  link : Option Nat := none
  deriving DecidableEq, Repr

/-- The router (R350-R354): routing entries and trunk masks, applied and staged; end-to-end sequence numbers sent and expected;
held flits by source and class. -/
structure Router where
  entries : SMap Nat := []
  staged : SMap Nat := []
  trunks : SMap Nat := []
  stagedTrunks : SMap Nat := []
  sent : SMap Nat := []
  next : SMap Nat := []
  held : SMap (List HeldFlit) := []
  deriving DecidableEq, Repr

/-- Power, clocks and resets (R392-R405): inputs in their windows and their voltages in mV, REFCLK, the two reset inputs low,
the device state 0 running, 2 DORMANT, halls asleep, halls waking, input power, monotonic count, stopped by the thermal trip
or by its own declaration of loss, THERMTRIP_N and FAULT_N latched low, output groups enabled. -/
structure Power where
  mainOk : Bool := true
  backupOk : Bool := true
  stbyOk : Bool := true
  mainMv : Nat := 48000
  backupMv : Nat := 48000
  stbyMv : Nat := 3300
  refclk : Bool := true
  poreset : Bool := true
  warmreset : Bool := false
  dormant : Bool := false
  asleep : Nat := 0
  waking : Nat := 0
  watts : Nat := 0
  capValue : SMap Nat := []
  tick : Nat := 0
  tripped : Bool := false
  lost : Bool := false
  therm : Bool := false
  fault : Bool := false
  control : Bool := false
  pins : Bool := false
  deriving DecidableEq, Repr

/-- One monitor page's readings (R406, R407): temperatures in 0.125 °C with whether they are valid, rails in mV, ring
oscillators in MHz, the thermal value of the issue duty. -/
structure Monitor where
  temps : SMap (Int × Bool) := []
  volts : SMap Nat := []
  freqs : SMap Nat := []
  thermal : Nat := 16
  deriving DecidableEq, Repr

/-- A flash slot (R412): its state word 0 EMPTY, 1 INACTIVE, 2 ACTIVE, 3 PENDING, and the image bytes. -/
structure FwSlot where
  word : Nat := 0
  image : List Byte := []
  deriving DecidableEq, Repr

/-- A stored probe pack (R311). -/
structure Pack where
  id : Nat
  version : Nat
  image : List Byte
  deriving DecidableEq, Repr

/-- Boot, firmware, fuses and flash (R410-R425, R445): BT_STAT.STATE, running slot and image, slots tried, rollback counter,
revoked key slots, the update in progress, probe packs and last accepted versions, galleries retired in flash, whether the
device is in service mode, a failed hall-edge unit, flash bytes the service port wrote, whether this boot fell back, the SHA-256 and SVN
retained for a resume, a release that waits for a sensor to cool (R448), the contexts that lie in HBM during a warm reset (R404), the galleries that failed the
manufacturing test (none in State.reset: log entry 14) and whether a slot map exists (R14). -/
structure Boot where
  state : Nat := 0
  slot : Nat := 0
  image : List Byte := []
  tried : List Nat := []
  slots : SMap FwSlot := []
  counter : Nat := 0
  revoked : Nat := 0
  updating : Option (Origin × List Byte) := none
  packs : List Pack := []
  versions : SMap Nat := []
  service : Bool := false
  flash : Mem := []
  failedUnit : Option Nat := none
  fallback : Bool := false
  resume : Option (List Byte × Nat) := none
  parked : SMap Ctx := []
  waitCool : Bool := false
  madeBad : List Nat := []
  mapped : Bool := false
  deriving DecidableEq, Repr

/-- A recovery of the fault manager (R316, R318): class, contexts whose repeat it waits for, a second fault arose, the
interruption so far in ns, detection by lease expiry. -/
structure Recovery where
  cls : Nat
  unit : Nat := 0
  waits : List Nat := []
  double : Bool := false
  ns : Nat := 0
  lease : Bool := false
  deriving DecidableEq, Repr

/-- A stack's memory controller (R314, R333-R336, R397): corrected events per row, rows retired, spare rows used per bank, pages
withdrawn in bytes, the pseudo-channel being retrained, one that is due, self-refresh. -/
structure MemCtl where
  events : SMap Nat := []
  retired : List Nat := []
  spares : SMap Nat := []
  withdrawn : Nat := 0
  retrain : Option Nat := none
  due : Option Nat := none
  refresh : Bool := false
  deriving DecidableEq, Repr

/-- The gauge engine's holding register, staging store, the staged words whose boundary has come while their gauge's CLOSE update has
not (R106, R108), and history window (R105-R107). -/
structure GaugeEng where
  hold : Nat := 0
  staged : SMap Nat := []
  due : SMap Nat := []
  window : Option (Nat × Nat) := none
  ready : Bool := false
  hist : List Nat := []
  deriving DecidableEq, Repr

/-- The silent-error controller (R296-R313): aisles whose rotation is due, galleries requested for a swap at a boundary,
hall-edge engines under suspicion (hall × 16 + unit of R319, 8 update engine, 9 stack engine), the probe packs' round robin, movers
retired (hall × 8 + mover). -/
structure Silent where
  due : List Nat := []
  requests : List Nat := []
  suspects : List Nat := []
  probe : Nat := 0
  movers : List Nat := []
  deriving DecidableEq, Repr

/-- The update engines beyond the slices in their buffers (R145, R162): the slices that wait at each hall's hub port in order of arrival, as
context and key; whether hub B's mirror queue is full; the mirror records that wait for it, with the hall that has them to send. -/
structure UpdateSt where
  ports : SMap (List (Nat × Nat)) := []
  full : Bool := false
  waiting : List (Nat × MirrorRec) := []
  deriving DecidableEq, Repr

/-- The state of the block: the commands that wait, then everything the spec gives the machine. -/
structure State where
  pending : List Instr := []
  freeCtr : Nat := 0
  regs : RegBank := {}
  gals : SMap Gallery := []
  queues : SMap (List QEntry) := []
  ran : SMap (List QEntry) := []
  pegs : SMap Peg := []
  pegRefs : SMap WoDone := []
  nextRef : Nat := 0
  fence : List Nat := []
  lostDevs : List Nat := []
  recovery : Option Recovery := none
  twin : TwinSt := {}
  ec : EventCtl := {}
  host : HostPort := {}
  ctxs : SMap Ctx := []
  links : SMap Link := []
  router : Router := {}
  power : Power := {}
  monitors : SMap Monitor := []
  boot : Boot := {}
  mem : SMap MemCtl := []
  gauge : GaugeEng := {}
  silent : Silent := {}
  digests : SMap (List (Nat × Nat × Nat)) := []
  early : List ExPkt := []
  update : UpdateSt := {}
  out : List Out := []
  deriving DecidableEq, Repr

/-- The machine right after reset: supplies in their windows, the reference clock running, PORESET_N held low, nothing booted,
every register at its reset value, the queue empty (log entries 1, 12-16). -/
def State.reset : State := { ec := {}, boot := { slots := [(0, { word := 2, image := Config.factoryImage })] } }

end Sys2Proof.Machine
end

