-- ==== Sys2Proof/Machine/Ops.lean ====
section
/-! DEFINITION. The named operations over registers, event lines, pegs, contexts, galleries, telemetry and responses that the
meanings share. -/

namespace Sys2Proof.Machine

/-! Free values. -/

/-- The next free word and the state with its counter stepped (log entry 6). -/
def freeNext (s : State) : BitVec 32 × State := (Config.freeWord s.freeCtr, { s with freeCtr := s.freeCtr + 1 })

/-! Contexts and galleries. -/

/-- A context by number. -/
def getCtx (s : State) (n : Nat) : Ctx := s.ctxs.get {} n

/-- Store a context. -/
def putCtx (s : State) (n : Nat) (c : Ctx) : State := { s with ctxs := s.ctxs.put {} n c }

/-- Change a context. -/
def modCtx (s : State) (n : Nat) (f : Ctx → Ctx) : State := putCtx s n (f (getCtx s n))

/-- The key of a physical gallery. -/
def galKey (h a g : Nat) : Nat := (h * 16 + a) * 68 + g

/-- A gallery nothing has happened to: slot n holds physical gallery n, 66 and 67 are untested spares (R14, log entry 14). -/
def galInit (k : Nat) : Gallery := if k % 68 < 66 then { slot := k % 68 } else { state := 2 }

/-- A gallery by key. -/
def getGal (s : State) (k : Nat) : Gallery := (s.gals.find k).getD (galInit k)

/-- Store a gallery; one in its initial condition is not listed. -/
def putGal (s : State) (k : Nat) (g : Gallery) : State :=
  { s with gals := if g = galInit k then s.gals.erase k else s.gals.insert k g }

/-- Change a gallery. -/
def modGal (s : State) (k : Nat) (f : Gallery → Gallery) : State := putGal s k (f (getGal s k))

/-- The physical gallery in service behind a slot (R14, R286). -/
def galAt (s : State) (h a slot : Nat) : Option Nat :=
  ((List.range 68).find? (fun g =>
    let x := getGal s (galKey h a g)
    x.state == 0 && x.slot == slot)).map (galKey h a ·)

/-- The identifier of a physical gallery (R9, R10). -/
def unitOf (h a g : Nat) : Nat := 3 * 2 ^ 29 + h * 2 ^ 25 + a * 2 ^ 21 + g * 2 ^ 14

/-- The identifier of a hall (R9). -/
def hallUnit (h : Nat) : Nat := 2 ^ 29 + h % 8 * 2 ^ 25

/-- The identifier of the gallery of a key. -/
def unitOfKey (k : Nat) : Nat := unitOf (k / 68 / 16) (k / 68 % 16) (k % 68)

/-- The identifier of a bay. -/
def bayUnit (h a g b : Nat) : Nat := 4 * 2 ^ 29 + h * 2 ^ 25 + a * 2 ^ 21 + g * 2 ^ 14 + b * 2 ^ 12

/-- A unit identifier of DEPTH 0 to 4 is valid: depth, ranges, zero fields finer than its depth (R9-R11). -/
def unitValid (u : Nat) : Bool :=
  let d := bits u 31 29
  d ≤ 4 && bits u 28 25 ≤ 7 && bits u 20 14 ≤ 67 && bits u 13 12 ≤ 2 && bits u 11 0 == 0 &&
    (d ≥ 1 || bits u 28 25 == 0) && (d ≥ 2 || bits u 24 21 == 0) && (d ≥ 3 || bits u 20 14 == 0) &&
    (d ≥ 4 || bits u 13 12 == 0)

/-- The handle of a formed frame (R10): DESIGN CHOICE, the number from 1 of its first member slot, which no other frame holds. -/
def frameHandle (members : List Slot) : Nat :=
  match members with
  | m :: _ => (m.hall * 16 + m.aisle) * 66 + m.slot + 1
  | [] => 0

/-- A logical-frame identifier: DEPTH 7, no other bit than the handle, and the handle assigned to a frame of an ACTIVE context (R10, R11,
R285 step 2). -/
def frameNamed (s : State) (u : Nat) : Bool :=
  bits u 31 29 == 7 && bits u 28 16 == 0 && bits u 15 0 != 0 &&
    s.ctxs.any (fun e => e.2.state == 2 && e.2.frames.any (fun f => frameHandle f.2 == bits u 15 0))

/-- An identifier is valid (R11). -/
def unitNamed (s : State) (u : Nat) : Bool := unitValid u || frameNamed s u

/-- The gallery that a member slot's work runs on, or the slot's own number where none is in service. -/
def memberGal (s : State) (w : WoHdr) : Nat := (galAt s w.hall w.aisle w.slot).getD (galKey w.hall w.aisle w.slot)

/-! Registers (R426, R430, R431). -/

/-- The applied word at a register address. -/
def regGet (s : State) (p : Page) (off : Nat) : Nat := s.regs.applied.get (resetAt p.kind off) (p.base + off)

/-- The shadow word at a register address. -/
def shadowGet (s : State) (p : Page) (off : Nat) : Nat := s.regs.shadow.get (resetAt p.kind off) (p.base + off)

/-- Store an applied word. -/
def regSet (s : State) (p : Page) (off v : Nat) : State :=
  { s with regs := { s.regs with applied := s.regs.applied.put (resetAt p.kind off) (p.base + off) (v % 2 ^ 32) } }

/-- Store a shadow word. -/
def shadowSet (s : State) (p : Page) (off v : Nat) : State :=
  { s with regs := { s.regs with shadow := s.regs.shadow.put (resetAt p.kind off) (p.base + off) (v % 2 ^ 32) } }

/-- Bits [hi:lo] of an applied word. -/
def fld (s : State) (p : Page) (off hi lo : Nat) : Nat := bits (regGet s p off) hi lo

/-- Replace bits [hi:lo] of an applied word. -/
def setFld (s : State) (p : Page) (off hi lo v : Nat) : State := regSet s p off (setBits (regGet s p off) hi lo v)

/-- BLK_CTRL.CNT_HOLD: the page's counters hold their values (R430). -/
def cntHold (s : State) (p : Page) : Bool := bit (regGet s p Reg.BLK_CTRL) 1

/-- Add to a 32-bit counter that wraps. -/
def bumpWrap (s : State) (p : Page) (off n : Nat) : State :=
  if cntHold s p then s else regSet s p off (regGet s p off + n)

/-- Add to a counter field that saturates. -/
def bumpSat (s : State) (p : Page) (off hi lo n : Nat) : State :=
  if cntHold s p then s else setFld s p off hi lo (min (fld s p off hi lo + n) (2 ^ (hi + 1 - lo) - 1))

/-- Add to a 64-bit counter held in two words. -/
def bump64 (s : State) (p : Page) (lo n : Nat) : State :=
  if cntHold s p then s
  else
    let v := regGet s p lo + 2 ^ 32 * regGet s p (lo + 4) + n
    regSet (regSet s p lo v) p (lo + 4) (v / 2 ^ 32)

/-- Keep the longest value seen in a register. -/
def keepMax (s : State) (p : Page) (off n : Nat) : State := regSet s p off (max (regGet s p off) (min n 0xFFFFFFFF))

/-! Event lines (R387, R388, R430). -/

/-- A shared source of the event controller. -/
def getSrc (s : State) (n : Nat) : Source := s.ec.shared.get {} n

/-- Store a shared source. -/
def putSrc (s : State) (n : Nat) (x : Source) : State := { s with ec := { s.ec with shared := s.ec.shared.put {} n x } }

/-- A source's line takes a level: a rising edge sets its pending bit (R388). -/
def setLine (s : State) (n : Nat) (lvl : Bool) : State :=
  let x := getSrc s n
  putSrc s n { x with level := lvl, pend := x.pend || (lvl && !x.level) }

/-- A line that drops and rises again: a new edge (R389). -/
def pulseLine (s : State) (n : Nat) : State :=
  let x := getSrc s n
  putSrc s n { x with level := true, pend := true }

/-- The shared source of a page's own line, where it has one (R387). -/
def ownSource (p : Page) : Option Nat :=
  match p.kind with
  | 0x35 => some (128 + 8 * (p.inst / 2048))
  | 0x36 => some (129 + 8 * (p.inst / 2048))
  | 0x37 => some (130 + 8 * (p.inst / 2048))
  | 0x34 => some (134 + 8 * (p.inst / 2048))
  | 0x1F => if p.base = 0x000B1000 then some 251 else if p.base = 0x01052000 then some 260
    else some (133 + 8 * (p.inst / 2048))
  | 0x1A => some (192 + p.inst)
  | 0x1C => some 240
  | 0x10 => some 241
  | 0x11 => some 242
  | 0x12 => some 243
  | 0x13 => some 244
  | 0x14 => some 245
  | 0x15 => some 246
  | 0x16 => some 247
  | 0x17 => some 248
  | 0x1B => some 249
  | 0x18 => if p.inst = 0 then some 250 else some 256
  | 0x19 => some 257
  | 0x1E => some 254
  | 0x01 => some 261
  | 0x02 => some 262
  | 0x20 => some 263
  | _ => none

/-- The aisle source that encloses a gallery page or an aisle page (R6, R387). -/
def aisleSource (p : Page) : Option Nat :=
  if 0x30 ≤ p.kind ∧ p.kind ≤ 0x33 then some (16 * (p.inst / 2048) + p.inst / 128 % 16) else none

/-- The source a page's line drives under EVT_ROUTE (R430). -/
def lineOf (s : State) (p : Page) : Option Nat :=
  match fld s p Reg.EVT_ROUTE 1 0 with
  | 0 => match aisleSource p with
    | some n => some n
    | none => ownSource p
  | 1 => match aisleSource p with
    | some n => some n
    | none => ownSource p
  | _ => none

/-- The page's event line: EVT_PEND AND EVT_EN (R430). -/
def lineLevel (s : State) (p : Page) : Bool := (regGet s p Reg.EVT_PEND) &&& (regGet s p Reg.EVT_EN) != 0

/-- Some page that drives a source has its line high. -/
def sourceLevel (s : State) (n : Nat) : Bool :=
  s.regs.applied.any (fun e => e.1 % 0x1000 == Reg.EVT_PEND &&
    (match pageOf e.1 with
      | some p => lineOf s p == some n && lineLevel s p
      | none => false))

/-- Bring the source that a page drives to its level. -/
def updateLine (s : State) (p : Page) : State :=
  match lineOf s p with
  | some n => setLine s n (sourceLevel s n)
  | none => s

/-- Set pending bits of a page (R430). -/
def setEvt (s : State) (p : Page) (mask : Nat) : State :=
  updateLine (regSet s p Reg.EVT_PEND (regGet s p Reg.EVT_PEND ||| mask)) p

/-! Telemetry (R373-R375). -/

/-- The device ring of a stream; streams 0 and 1 have one per context (R375). -/
def ringKey (stream ctx : Nat) : Nat := if stream ≤ 1 then stream * 1024 + ctx % 1024 else 2048 + stream

/-- Bytes of a device ring: 8 MiB (R274, R375). -/
def devRingBytes : Nat := 8 * 1024 * 1024

/-- Drop the oldest records until the ring fits: what stays and how many went. -/
def dropOld : Nat → List TelRec → Nat → List TelRec × Nat
  | 0, l, k => (l, k)
  | n + 1, l, k =>
    if (l.map (fun r => 16 + r.body.length)).sum ≤ devRingBytes then (l, k)
    else dropOld n (l.drop 1) (k + 1)

/-- Set an error bit of a page: its register bit, its pending bit and line, and under LOG_EN a fault-log record of KIND 9
(R374, R430). -/
def setErrBit (s : State) (p : Page) (i : Nat) : State :=
  let off := errOff p.kind
  let w := regGet s p off
  if bit w i then s else setEvt (regSet s p off (w ||| 2 ^ i)) p (2 ^ i)

/-- Put a record into its device ring; a full ring drops its oldest and sets HP_ERR.TELEM_LOST (R375). -/
def pushRec (s : State) (stream ctx : Nat) (body : List Byte) : State :=
  let k := ringKey stream ctx
  let r := s.host.devRings.get {} k
  let d := dropOld (r.recs.length + 1) (r.recs ++ [⟨stream, ctx, body, s.power.tick⟩]) 0
  let s1 := { s with host := { s.host with devRings := s.host.devRings.put {} k { recs := d.1, lost := r.lost + d.2 } } }
  if d.2 = 0 then s1 else setErrBit s1 pgHost 2

/-- The fields of a fault-log record (R374); without a device it is this one. -/
structure FaultRec where
  kind : Nat
  cls : Nat := 0
  device : Option Nat := none
  unit : Nat := 0
  ns : Nat := 0
  d0 : Nat := 0
  d1 : Nat := 0
  addr : Nat := 0
  deriving DecidableEq, Repr

/-- The device's own ID (R9, R359). -/
def deviceId (s : State) : Nat := bits (regGet s pgRouter Reg.RT_ID) 11 0

/-- The body of a fault-log record after its prefix (R374). -/
def faultBody (s : State) (r : FaultRec) : List Byte :=
  natLe r.kind 1 ++ natLe r.cls 1 ++ natLe (r.device.getD (deviceId s)) 2 ++ natLe r.unit 4 ++ natLe r.ns 4 ++ natLe r.d0 4 ++
    natLe r.d1 4 ++ natLe 0 4 ++ natLe r.addr 8

/-- Write a fault-log record (R374). -/
def logFault (s : State) (r : FaultRec) : State := pushRec s 2 0xFFFF (faultBody s r)

/-- Set an error bit and, under BLK_CTRL.LOG_EN, copy it to the fault log (R374 KIND 9, R430). -/
def setErr (s : State) (p : Page) (i : Nat) : State :=
  if bit (regGet s p (errOff p.kind)) i then s
  else
    let s1 := setErrBit s p i
    if bit (regGet s p Reg.BLK_CTRL) 0 then logFault s1 { kind := 9, d0 := 2 ^ i, addr := p.base + errOff p.kind } else s1

/-- The simulation arithmetic controller's error bit for a refusal under R245 or R241, none for other statuses (R252). -/
def noteSmErr (s : State) (st : Nat) : State :=
  match st with
  | 0x09 => setErr s pgSimulation 0
  | 0x0A => setErr s pgSimulation 1
  | 0x0B => setErr s pgSimulation 2
  | _ => s

/-! Output. -/

/-- A message leaves the block. -/
def emit (s : State) (o : Out) : State := { s with out := s.out ++ [o] }

/-! Memory controllers and rows (R335). -/

/-- The memory controller of a hall. -/
def getMc (s : State) (h : Nat) : MemCtl := s.mem.get {} h

/-- Store a memory controller. -/
def putMc (s : State) (h : Nat) (m : MemCtl) : State := { s with mem := s.mem.put {} h m }

/-- Retire a row by a spare of its bank, or by withdrawing its pages (R335). -/
def retireRow (s : State) (h row : Nat) : State :=
  let m := getMc s h
  if m.retired.contains row then s
  else
    let b := Config.bankOf row
    let m1 := { m with retired := m.retired ++ [row], events := m.events.erase row }
    if m.spares.get 0 b < Config.spareRows then
      setErr (putMc s h { m1 with spares := m.spares.put 0 b (m.spares.get 0 b + 1) }) (pgMemory h) 1
    else setErr (setErr (putMc s h { m1 with withdrawn := m.withdrawn + Config.rowBytes }) (pgMemory h) 1) (pgMemory h) 2

end Sys2Proof.Machine
end

