-- ==== Sys2Proof/Machine/Fabric.lean ====
section
/-! DEFINITION. Sending over the Viold links: flits and their bytes (R342), routes (R351), credits (R346), egress order (R347),
the retry buffer (R343), and the messages of the device that travel on them. -/

namespace Sys2Proof.Machine

/-! Flits as bytes (R342). -/

/-- The header of a flit as a number. -/
def flitHeader (f : Flit) : Nat :=
  f.tc % 4 + f.fkind % 4 * 2 ^ 2 + bnat f.last * 2 ^ 4 + f.vc % 2 * 2 ^ 5 + f.seq % 4096 * 2 ^ 6 + f.ack % 4096 * 2 ^ 18 +
    f.dst % 4096 * 2 ^ 30 + f.src % 4096 * 2 ^ 42 + f.len % 256 * 2 ^ 54 + f.credit % 128 * 2 ^ 62 + f.ctc % 4 * 2 ^ 69 +
    f.proto % 16 * 2 ^ 71 + f.eseq % 4096 * 2 ^ 75 + f.hops % 128 * 2 ^ 87

/-- The 256 bytes of a flit: header, 240 data bytes, CRC-32C over the first 252. -/
def flitBytes (f : Flit) : List Byte :=
  let body := natLe (flitHeader f) 12 ++ (f.data ++ List.replicate (240 - f.data.length) 0#8).take 240
  body ++ natLe (crc32c body) 4

/-- The flit that 256 bytes spell, where their CRC holds. -/
def readFlit (l : List Byte) : Option Flit :=
  if l.length = 256 ∧ leNat (l.drop 252) = crc32c (l.take 252) then
    let h := leNat (l.take 12)
    some { tc := bits h 1 0, fkind := bits h 3 2, last := bit h 4, vc := bits h 5 5, seq := bits h 17 6, ack := bits h 29 18,
           dst := bits h 41 30, src := bits h 53 42, len := bits h 61 54, credit := bits h 68 62, ctc := bits h 70 69,
           proto := bits h 74 71, eseq := bits h 86 75, hops := bits h 93 87, data := (l.drop 12).take 240 }
  else none

/-! Links. -/

/-- A link by number. -/
def getLink (s : State) (n : Nat) : Link := s.links.get {} n

/-- Store a link. -/
def putLink (s : State) (n : Nat) (l : Link) : State := { s with links := s.links.put {} n l }

/-- Change a link. -/
def modLink (s : State) (n : Nat) (f : Link → Link) : State := putLink s n (f (getLink s n))

/-- The link belongs to the twin bundle (R356). -/
def inBundle (s : State) (n : Nat) : Bool := s.twin.twin.isSome && bit s.twin.links n

/-- The link carries flits: UP or DEGRADED (R357). -/
def linkRuns (s : State) (n : Nat) : Bool :=
  let l := getLink s n
  l.state == 2 || l.state == 3

/-- Receive buffer of a class at the far port, in flits, for one virtual channel (R345, R348). -/
def creditsOf (tc : Nat) : Nat :=
  match tc with
  | 0 => 16
  | 1 => 256
  | 2 => 192
  | _ => 48

/-- The weight of a class at egress; 0 acts as 1 (R347). -/
def classWeight (s : State) (n tc : Nat) : Nat :=
  let w := regGet s (pgLink n) Reg.LK_WEIGHT
  max 1 (match tc with
    | 1 => bits w 7 0
    | 2 => bits w 15 8
    | _ => bits w 23 16)

/-- The first waiting flit of a class, where a credit lets it go (R346). Control flits use none (log entry 20). -/
def readyFlit (l : Link) (tc : Nat) : Option Flit :=
  match l.queue.find? (fun f => f.tc == tc) with
  | none => none
  | some f => if f.fkind = 3 ∨ l.used.get 0 (tc * 2 + f.vc) < creditsOf tc then some f else none

/-- The next flit to leave: TC0 first, then weighted round robin (R347); with the round robin's place after it. -/
def nextFlit (s : State) (n : Nat) (l : Link) : Option (Flit × Nat × Nat) :=
  match readyFlit l 0 with
  | some f => some (f, l.turn, l.share)
  | none =>
    let t := if 1 ≤ l.turn ∧ l.turn ≤ 3 then l.turn else 1
    let order := [t, t % 3 + 1, (t + 1) % 3 + 1]
    match (if l.share = 0 then none else readyFlit l t) with
    | some f => some (f, t, l.share - 1)
    | none => (order.drop 1 ++ [t]).findSome? (fun c => (readyFlit l c).map (fun f => (f, c, classWeight s n c - 1)))

/-- Bytes of an exchange packet (R191). -/
def exPktSize (p : ExPkt) : Nat :=
  32 + (if p.kind = 2 then 4 else ((p.nblk + 7) / 8 + 3) / 4 * 4 + (if p.wide then 128 else 64) * p.present.length + (p.present.length + 3) / 4 * 4)

/-- The hub that a packet from a device comes in at: that of the first running link to it, hub B without one (R19, R358). -/
def hubFrom (s : State) (src : Nat) : Nat :=
  (((List.range 48).find? (fun n => linkRuns s n && (getLink s n).peer == src && !inBundle s n)).map (· / 24)).getD 1

/-- A hub's 16 MiB buffer of exchange packets that arrived early is full (R184). -/
def earlyFull (s : State) (hub : Nat) : Bool :=
  !s.early.isEmpty && decide (2 ^ 24 ≤ ((s.early.filter (fun p => hubFrom s p.src == hub)).map exPktSize).sum)

/-- Credits to return with the next flit: class, channel key, count up to 127 (R346). While its hub's exchange buffer is full those of TC1
are withheld (R184). -/
def creditBack (s : State) (n : Nat) (l : Link) : Option (Nat × Nat) :=
  (l.owed.find? (fun e => e.2 != 0 && !(e.1 / 2 == 1 && earlyFull s (n / 24)))).map (fun e => (e.1, min e.2 127))

/-- Send one flit: number it, acknowledge, return credits, keep it for replay (R343, R346). -/
def launch (s : State) (n : Nat) (l : Link) (f : Flit) : State :=
  let cr := creditBack s n l
  let g := { f with seq := l.tx % 4096, ack := (l.rx + 4095) % 4096, credit := (cr.map (·.2)).getD 0,
                    ctc := (cr.map (·.1 / 2)).getD 0 }
  let owed := match cr with
    | some (k, c) => l.owed.put 0 k (l.owed.get 0 k - c)
    | none => l.owed
  let used := if f.fkind = 3 then l.used else l.used.put 0 (f.tc * 2 + f.vc) (l.used.get 0 (f.tc * 2 + f.vc) + 1)
  let s1 := putLink s n { l with tx := (l.tx + 1) % 4096, owed := owed, used := used, queue := l.queue.erase f,
                                 retry := l.retry ++ [g] }
  emit (bump64 s1 (pgLink n) Reg.LK_FLITS_LO 1) (.flit n g)

/-- Let waiting flits leave while the retry buffer of 512 and the credits allow (R343, R346); a device that declared itself
lost sends nothing (R317). -/
def pump (n : Nat) : Nat → State → State
  | 0, s => s
  | k + 1, s =>
    let l := getLink s n
    if l.retry.length ≥ 512 || !linkRuns s n || s.power.lost then s
    else
      match nextFlit s n l with
      | none => s
      | some (f, t, sh) => pump n k (launch s n { l with turn := t, share := sh } f)

/-- How many TC0 flits may stand ahead of another (R349). -/
def tc0Limit (l : Link) : Nat := if l.state = 3 then 12 else 16

/-- Queue a flit at a link's egress. -/
def enqueueFlit (s : State) (n : Nat) (f : Flit) : State :=
  let l := getLink s n
  let full := f.tc == 0 && decide (tc0Limit l < (l.queue.filter (fun g => g.tc == 0)).length)
  let s1 := putLink s n { l with queue := l.queue ++ [f] }
  let s2 := if full then setErr s1 (pgLink n) 4 else s1
  pump n ((getLink s2 n).queue.length + 1) s2

/-! Routes (R350, R351). -/

/-- The device has its ID (R350). -/
def idValid (s : State) : Bool := bit (regGet s pgRouter Reg.RT_ID) 31

/-- The usable links of a trunk in rising order (R351, R356, R357). -/
def trunkLinks (s : State) (t : Nat) : List Nat :=
  (List.range 48).filter (fun n => bit (s.router.trunks.get 0 t) n && linkRuns s n && !(getLink s n).leftOut && !inBundle s n)

/-- The number that chooses a link within a trunk: CRC-32C of SRC, DST and TC (R351; their bytes: log entry 21). -/
def trunkHash (src dst tc : Nat) : Nat := crc32c (natLe src 2 ++ natLe dst 2 ++ natLe tc 1)

/-- The link a flit leaves by, and whether it crosses a dateline; none without a usable trunk (R348, R351). -/
def routeOf (s : State) (src dst tc : Nat) : Option (Nat × Bool) :=
  let e := s.router.entries.get 0 dst
  if !bit e 12 then none
  else
    let p := trunkLinks s (bits e 5 0)
    let a := trunkLinks s (bits e 11 6)
    let h := trunkHash src dst tc
    if !p.isEmpty then (p[h % p.length]?).map (fun n => (n, bit e 13))
    else if !a.isEmpty then (a[h % a.length]?).map (fun n => (n, bit e 14))
    else none

/-- A running link to an adjacent device (R351). -/
def linkTo (s : State) (dst : Nat) (bundle : Bool) : Option Nat :=
  (List.range 48).find? (fun n => linkRuns s n && (getLink s n).peer == dst && inBundle s n == bundle)

/-! Messages. -/

/-- Flits of a packet of `n` bytes at least 1 (R342). -/
def flitCount (n : Nat) : Nat := max 1 ((n + 239) / 240)

/-- The flits of one packet from this device. -/
def packetFlits (s : State) (dst tc proto n : Nat) : List Flit :=
  let k := flitCount n
  let e0 := s.router.sent.get 0 (dst * 4 + tc)
  (List.range k).map (fun i =>
    { tc := tc, fkind := if i = 0 then 1 else 2, last := decide (i + 1 = k), dst := dst, src := deviceId s,
      len := if i + 1 < k ∨ n = 0 then 240 else n - 240 * i, proto := proto, eseq := (e0 + i) % 4096 })

/-- Send a message of `n` bytes (0 where the spec gives it no layout: one flit) by a link, numbering its flits end to end
(R352). -/
def sendOn (s : State) (link dst tc proto n : Nat) (dateline : Bool) (m : Msg) : State :=
  let fs := packetFlits s dst tc proto n
  let k := dst * 4 + tc
  let s1 := { s with router := { s.router with sent := s.router.sent.put 0 k ((s.router.sent.get 0 k + fs.length) % 4096) } }
  fs.foldl (fun s f => enqueueFlit s link { f with vc := bnat dateline }) (emit s1 (.msg dst tc proto m))

/-- Send a message over the routed fabric; without a route it is lost and RT_ERR.NO_ROUTE set; without an ID nothing but
control flits leaves (R350, R351). -/
def sendRouted (s : State) (dst tc proto n : Nat) (m : Msg) : State :=
  if !idValid s then s
  else
    match routeOf s (deviceId s) dst tc with
    | some (l, d) => sendOn s l dst tc proto n d m
    | none => setErr s pgRouter 0

/-- Send to a device: by a link that ends there where one runs, else by route (R351). -/
def sendNear (s : State) (dst tc proto n : Nat) (m : Msg) : State :=
  if !idValid s then s
  else
    match linkTo s dst false with
    | some l => sendOn s l dst tc proto n false m
    | none => sendRouted s dst tc proto n m

/-- Send to the twin or the member over the bundle, else by route (R329, R356). -/
def sendBundle (s : State) (dst tc proto n : Nat) (m : Msg) : State :=
  match linkTo s dst true with
  | some l => sendOn s l dst tc proto n false m
  | none => sendRouted s dst tc proto n m

/-- A control flit to the neighbour (R342). -/
def sendControl (s : State) (link : Nat) (data : List Byte) : State :=
  enqueueFlit s link { fkind := 3, last := true, src := deviceId s, len := max 1 data.length, data := data }

end Sys2Proof.Machine
end

