-- ==== Sys2Proof/Machine/Galleries.lean ====
section
/-! DEFINITION. Galleries in and out of service: slots, spares, swaps, degraded aisles (R14-R18, R286). -/

namespace Sys2Proof.Machine

/-- Keys of an aisle's physical galleries. -/
def aisleGals (h a : Nat) : List Nat := (List.range 68).map (galKey h a)

/-- The hall of a gallery key. -/
def keyHall (k : Nat) : Nat := k / 68 / 16

/-- The aisle of a gallery key. -/
def keyAisle (k : Nat) : Nat := k / 68 % 16

/-- A gallery is healthy: not held, not retired, its last test not failed (`fails` counts since the last pass), not quarantined and
unpassed since (R18). -/
def healthy (g : Gallery) : Bool := g.state != 3 && g.state != 4 && g.state != 5 && g.fails == 0 && !g.quar

/-- Galleries in service in an aisle: BLK_STAT.DETAIL of its page (R430). -/
def inService (s : State) (h a : Nat) : Nat := ((aisleGals h a).filter (fun k => (getGal s k).state == 0)).length

/-- Healthy galleries of an aisle (R18). -/
def healthyCount (s : State) (h a : Nat) : Nat := ((aisleGals h a).filter (fun k => healthy (getGal s k))).length

/-- Of the keys that satisfy a condition, the one longest out of service, ties to the lower number (R307). -/
def longestOut (s : State) (ks : List Nat) : Option Nat :=
  ks.foldl (fun b k => match b with
    | none => some k
    | some j => if (getGal s k).timeOut < (getGal s j).timeOut then some k else some j) none

/-- The eligible spare an aisle takes, in the order of R16. R307 orders only spares that have passed; among several of class 2 or 3 the
model takes the longest out as well (DESIGN CHOICE, log entry 143). A gallery out for a requested test or back from HOLD must pass
first (R16, R429). -/
def eligible (s : State) (h a : Nat) : Option Nat :=
  let ks := (aisleGals h a).filter (fun k => healthy (getGal s k))
  let passed := ks.filter (fun k => let g := getGal s k; g.state == 1 && g.probing.isNone)
  let testing := ks.filter (fun k => let g := getGal s k; g.state == 2 && !g.testReq && !g.mustPass)
  let probing := ks.filter (fun k => let g := getGal s k; g.state == 1 && g.probing.isSome)
  match longestOut s passed with
  | some k => some k
  | none => match longestOut s testing with
    | some k => some k
    | none => longestOut s probing

/-- A probe pack is aborted on a gallery and reported as not run (R16, R312). -/
def abortProbe (s : State) (k : Nat) : State :=
  let g := getGal s k
  match g.probing with
  | none => s
  | some p =>
    let v := ((s.boot.packs.find? (fun x => x.id == p)).map (·.version)).getD 0
    pushRec (putGal s k { g with probing := none }) 3 0xFFFF
      (natLe (unitOfKey k) 4 ++ natLe p 4 ++ natLe v 4 ++ natLe 2 1 ++ natLe 0 3 ++ natLe 0xFFFFFFFF 4)

/-- A gallery leaves service and begins its test, or is held (R15, R438). -/
def leaveService (s : State) (k : Nat) (quar hold : Bool) : State :=
  let g := getGal s k
  putGal s k { g with state := if hold then 4 else 2, slot := 0x7F, quar := g.quar || quar, testing := !hold,
                      timeOut := s.power.tick, served := g.served + (s.power.tick - g.timeIn) }

/-- A gallery enters a slot; its test or probe pack is aborted (R16). -/
def enterSlot (s : State) (k slot : Nat) : State :=
  let s1 := abortProbe s k
  putGal s1 k { getGal s1 k with state := 0, slot := slot, testing := false, powered := true, timeIn := s.power.tick,
                                 suspect := false, mustPass := false }

/-- The highest occupied slot of an aisle. -/
def highestSlot (s : State) (h a : Nat) : Option Nat :=
  ((List.range 66).reverse).find? (fun n => (galAt s h a n).isSome)

/-- Fill a slot that a gallery left: the spare chosen takes it, or the aisle degrades and the gallery of the highest occupied
slot moves into it (R16, R18). Answers the slot that stays empty. -/
def fillSlot (s : State) (h a slot : Nat) (spare : Option Nat) : State × Option Nat :=
  match spare with
  | some k => (enterSlot s k slot, none)
  | none =>
    match highestSlot s h a with
    | some n =>
      if slot < n then
        match galAt s h a n with
        | some k => (modGal s k (fun g => { g with slot := slot }), some n)
        | none => (s, some slot)
      else (s, some slot)
    | none => (s, some slot)

/-- Take an in-service gallery out and fill its slot: state, the slot left empty. The spare is one that was out already: the gallery that
leaves never fills its own slot (R15-R17). A swap is logged (R374 KIND 2). -/
def swapOut (s : State) (k : Nat) (quar hold : Bool) : State × Option Nat :=
  let g := getGal s k
  let r := fillSlot (leaveService s k quar hold) (keyHall k) (keyAisle k) g.slot (eligible s (keyHall k) (keyAisle k))
  (logFault r.1 { kind := 2, device := deviceId s, unit := unitOfKey k, d0 := 0x12 }, r.2)

/-- A healthy spare of a degraded aisle fills the lowest empty slot at once (R18). -/
def refill (s : State) (h a : Nat) : State :=
  if inService s h a ≥ 66 then s
  else
    match eligible s h a, (List.range 66).find? (fun n => (galAt s h a n).isNone) with
    | some k, some n => enterSlot s k n
    | _, _ => s

/-- Every aisle holds 66 galleries in service while it has as many healthy ones (R18). -/
def refillAll (s : State) : State :=
  (List.range 128).foldl (fun s i =>
    (List.range (66 - inService s (i / 16) (i % 16))).foldl (fun s _ => refill s (i / 16) (i % 16)) s) s

/-- The slot map of the first boot: in each aisle slots 0 to 65 take the lowest galleries that passed the manufacturing test, the others
that passed are spares, untested, those that failed are retired (R14). -/
def firstMap (bad : List Nat) (k : Nat) : Gallery :=
  if bad.contains k then { state := 5 }
  else
    let n := ((List.range (k % 68)).filter (fun g => !bad.contains (k - k % 68 + g))).length
    if n < 66 then { slot := n } else { state := 2 }

/-- At the first boot after manufacture no map exists: the slots are laid out (R14). -/
def layOut (s : State) : State :=
  if s.boot.mapped then s
  else ((s.boot.madeBad.map (· / 68)).eraseDups).foldl (fun s a =>
    (aisleGals (a / 16) (a % 16)).foldl (fun s k => putGal s k (firstMap s.boot.madeBad k)) s) { s with boot := { s.boot with mapped := true } }

/-- A gallery that a swing withheld and whose staged HOLD is taken back goes on as a spare and begins its test (R15, R429). -/
def releaseHold (s : State) (k : Nat) : State :=
  let g := getGal s k
  if g.state = 4 && !g.hold && !g.holdNext then putGal s k { g with state := 2, testing := true, mustPass := true } else s

/-- The frames that hold a slot: contexts. -/
def holdersOf (s : State) (h a slot : Nat) : List Nat :=
  (s.ctxs.filter (fun e => e.2.state == 2 && e.2.frames.any (fun f => f.2.contains ⟨h, a, slot⟩))).map (·.1)

/-- The active contexts with frames in an aisle. -/
def aisleContexts (s : State) (h a : Nat) : List Nat :=
  (s.ctxs.filter (fun e => e.2.state == 2 && e.2.frames.any (fun f => f.2.any (fun m => m.hall == h && m.aisle == a)))).map (·.1)

/-- The context whose frame holds a gallery, where it is in service (R430 OWNER). -/
def ownerOf (s : State) (k : Nat) : Option Nat :=
  let g := getGal s k
  if g.state = 0 then (holdersOf s (keyHall k) (keyAisle k) g.slot).head? else none

/-- A training context stands at its step boundary (R206): no attempt, pass, export or rollback, no pending repeat. -/
def Ctx.atBoundary (c : Ctx) : Bool :=
  c.attempt.isNone && c.evalRun.isNone && !c.exporting && c.rollback.isEmpty && !c.repeatPending

/-- The quiet moment of a context: its step boundary, or for a simulation plan all its frames' queues empty (R309, R434). -/
def quietCtx (s : State) (n : Nat) : Bool :=
  let c := getCtx s n
  match c.plan with
  | some p =>
    if p.cls = 0 then c.attempt.isNone && c.evalRun.isNone
    else c.frameQueues.all (fun e => e.2.isEmpty) && s.queues.all (fun e => e.2.all (fun q => q.ctx != n)) && c.done.isEmpty
  | none => true

/-- Every context with frames in the aisle is at such a point (R15). -/
def aisleQuiet (s : State) (h a : Nat) : Bool := (aisleContexts s h a).all (quietCtx s)

/-- The swing of a page (R430, R433). -/
def getSwing (s : State) (p : Page) : Swing := s.regs.swings.get {} p.base

/-- The aisle's page has a swing that waits or drains: its swaps come before requested tests and rotation (R439). -/
def aisleSwing (s : State) (h a : Nat) : Bool := (getSwing s (pgAisle h a)).state != 0

/-- A swing of its own on a page keeps a context at its boundary until it applies: an aisle page's does (R434); a gallery page's applies at
that boundary itself, unless a recovery runs. -/
def pageHolds (s : State) (p : Page) (n : Nat) : Bool :=
  match p.gallery with
  | some (h, a, g) => s.recovery.isNone && ownerOf s (galKey h a g) == some n
  | none => p.kind == 0x33 && (aisleContexts s (p.inst / 2048) (p.inst / 128 % 16)).contains n

/-- A context is held at its boundary by a swing of a page on its own, or of a group (R434, R436). -/
def heldBySwing (s : State) (n : Nat) : Bool :=
  s.regs.groups.any (fun e => e.2.held.contains n) ||
    s.regs.swings.any (fun e => e.2.state != 0 && e.2.group == 0 && (match pageOf e.1 with
      | some p => pageHolds s p n
      | none => false))

end Sys2Proof.Machine
end

