-- ==== Sys2Proof/Machine/Landing.lean ====
section
/-! DEFINITION. What a landing unit does to the values of one tensor row (R74-R77, R81-R85, R98-R103), and the exact exponent
arithmetic of gauges. -/

namespace Sys2Proof.Machine

/-- F of R81: the largest finite magnitude of a format, as m * 2^e. -/
def fmaxOf (d : Desc) : Nat × Int :=
  match d.fmt.ffmt with
  | some f => (f.maxM, f.maxE)
  | none => if d.fmt = .wt then (1, 0) else ((intRange d.fmt d.sgn).2.toNat, 0)

/-- fit(h, F): the smallest exponent x with h ≤ F * 2^x, exactly; fit(0, F) = 0 (R81). -/
def fit (m : Nat) (e : Int) (f : Nat × Int) : Int :=
  if m = 0 then 0
  else
    let k := ilog2Q m f.1
    let exact := if 0 ≤ k then decide (m = f.1 * 2 ^ k.toNat) else decide (m * 2 ^ (-k).toNat = f.1)
    (if exact then k else k + 1) + e - f.2

/-- A finite magnitude as BF16 rounded toward plus infinity; above 0x7F7F it is 0x7F80 (R80). -/
def bf16Up (m : Nat) (e : Int) : Nat :=
  let x := roundQ .bf16 .rup false m 1 e
  if overflows .bf16 x then 0x7F80 else encodeFin .bf16 false x.n x.q

/-- A stored maximum as m * 2^e; 0x7F80 reads as 2^128 (R80). -/
def maxVal (c : Nat) : Nat × Int :=
  if c / 128 = 0 then (c, -133) else (128 + c % 128, ((c / 128 : Nat) : Int) - 134)

/-- fit of a stored maximum (R81, R82). -/
def fitCode (c : Nat) (f : Nat × Int) : Int := fit (maxVal c).1 (maxVal c).2 f

/-- The gauge a conversion runs under: its exponent, the tensor exponent in force and whether storing it met the top or the bottom
clamp (R35), whether the cap binds (R92, R231), the survey's pass 1 (R91), the slot whose landing unit writes, plus 1 (R100), and the
rounding attribute of a reduction's conversions (R241). -/
structure GaugeView where
  g : Int := 0
  et : Nat := 0x7F
  top : Bool := false
  bottom : Bool := false
  capped : Bool := true
  survey : Bool := false
  src : Nat := 0
  rnd : Rnd := .rne
  deriving DecidableEq, Repr

/-- What converting values gives: the tensor, the tally, the largest finite source as a BF16 code, whether the gauge trips. -/
structure Landed where
  t : Tensor
  tally : Tally := {}
  maxc : Nat := 0
  trip : Bool := false
  deriving DecidableEq, Repr

/-- One after the other. -/
def Landed.then_ (a : Landed) (f : Tensor → Landed) : Landed :=
  let b := f a.t
  { t := b.t, tally := a.tally.add b.tally, maxc := max a.maxc b.maxc, trip := a.trip || b.trip }

/-- An element on its way: logical index, value, whether it is no outlier. -/
structure Elem where
  i : Nat
  x : Fp
  real : Bool := true
  deriving DecidableEq, Repr

/-- The largest finite magnitude of values, as a BF16 code rounded up (R84). -/
def maxCode (vals : List Fp) : Nat :=
  vals.foldl (fun a x => match x with
    | .fin _ m e => max a (bf16Up m e)
    | _ => a) 0

/-- The larger of two finite magnitudes. -/
def magMax (a b : Nat × Int) : Nat × Int := if magGt b.1 b.2 a.1 a.2 then b else a

/-- The largest finite magnitude of values, exactly. -/
def magOf (vals : List Fp) : Nat × Int :=
  vals.foldl (fun a x => match x with
    | .fin _ m e => magMax a (m, e)
    | _ => a) (0, 0)

/-- Put a code at a logical index. -/
def Tensor.putAt (t : Tensor) (i q : Nat) : Tensor := t.putCode (i / max t.rowLen 1) (i % max t.rowLen 1) q

/-- The scale exponent a conversion uses for an element: the tensor exponent in force, whatever has poisoned the tensor
since (R41). -/
def convScale (gv : GaugeView) (t : Tensor) (i : Nat) : Int :=
  match t.d.grain with
  | 0 => (gv.et : Int) - 127
  | 1 => (gv.et : Int) - 127 + ((t.chan.get 0x7F (i / max t.rowLen 1) : Nat) : Int) - 127
  | 2 => (t.et : Int) - 127 + ((t.blocks.get 0x7F (t.blockOf i) : Nat) : Int) - 127
  | _ => 0

/-- A code without its sign is zero. -/
def zeroCode (f : Fmt) (q : Nat) : Bool :=
  match f.ffmt with
  | some f => q % 2 ^ (f.width - 1) == 0
  | none => q == 0

/-- A scaled group with a NaN or infinite source: zero codes, poison, one NAN (R41, R103). -/
def poisonGroup (t : Tensor) (es : List Elem) : Landed :=
  let t1 := es.foldl (fun t p => t.putAt p.i 0) t
  let t2 := if t.d.grain = 2 then { t1 with blocks := t1.blocks.put 0x7F (t.blockOf (es.headD ⟨0, .zero false, true⟩).i) 0xFF }
    else { t1 with et := 0xFF }
  { t := t2, tally := { nan := 1, pop := (es.filter (·.real)).length }, maxc := maxCode (es.map (·.x)) }

/-- Convert a group of at most 32 elements under the scales that stand (R39-R42, R101, R102). -/
def landGroup (gv : GaugeView) (t : Tensor) (es : List Elem) : Landed :=
  let d := t.d
  let scaled := d.grain != 3
  if scaled && es.any (fun p => p.x.nonFinite) then poisonGroup t es
  else
    let cs := es.map (fun p => (p, convert d (convScale gv t p.i) p.x gv.rnd))
    let t1 := cs.foldl (fun t p => t.putAt p.1.i p.2.code) t
    let sat := (cs.filter (·.2.sat)).length
    let nan := (cs.filter (·.2.nan)).length
    let van := scaled && es.any (fun p => p.real && !p.x.isZero) && cs.all (fun k => zeroCode d.fmt k.2.code)
    let whole := scaled && !cs.isEmpty && cs.all (·.2.sat)
    { t := t1, tally := { sat := sat, nan := nan, vanish := bnat van, ovf := bnat whole, pop := (es.filter (·.real)).length },
      maxc := maxCode (es.map (·.x)), trip := sat != 0 }

/-- A block's tag and the slot that writes it, beside its scale (R98, R100). -/
def Tensor.tagBlock (t : Tensor) (epoch src b : Nat) : Tensor :=
  { t with tags := t.tags.put 0 b ((b + epoch) % 64), writers := t.writers.put 0 b src }

/-- Choose a blocked group's scale (R83, R92), tag it, then convert it; a group with a NaN or infinite source has no scale to
choose (R103). -/
def landScaled (gv : GaugeView) (epoch : Nat) (t : Tensor) (es : List Elem) : Landed :=
  if t.d.grain = 2 then
    let b := t.blockOf (es.headD ⟨0, .zero false, true⟩).i
    let t1 := t.tagBlock epoch gv.src b
    if es.any (fun p => p.x.nonFinite) then poisonGroup t1 es
    else
      let bm := magOf (es.map (·.x))
      let own := if bm.1 = 0 then gv.g else fit bm.1 bm.2 (fmaxOf t.d)
      let e := e8m0 ((if gv.capped then min own gv.g else own) - ((t.et : Int) - 127))
      let l := landGroup gv { t1 with blocks := t1.blocks.put 0x7F b e.1 } es
      { l with tally := l.tally.add { ovf := bnat e.2.1, unf := bnat e.2.2 }, trip := l.trip || e.2.1 }
  else landGroup gv t es

/-- The group an element belongs to: its block, or its 32 of the packing order (R37, R101). -/
def groupKey (t : Tensor) (i : Nat) : Nat :=
  if t.d.grain = 2 then t.blockOf i
  else
    let l := max t.rowLen 1
    i / l * ((l + 31) / 32) + i % l / 32

/-- Elements gathered by group, groups in rising order of first appearance. -/
def groupElems (t : Tensor) (es : List Elem) : List (List Elem) :=
  ((es.map (fun p => groupKey t p.i)).eraseDups).map (fun k => es.filter (fun p => groupKey t p.i == k))

/-- The side row entry of an outlier channel: BF16, saturating, canonical NaN counted (R53, R76). -/
def landOutlier (r : Rnd) (t : Tensor) (row j : Nat) (x : Fp) : Tensor × Tally :=
  let q := convert ⟨.bf16, 3, false⟩ 0 x r
  ({ t with side := t.side.writeBytes (2 * (row * 64 + j)) (natLe q.code 2) }, { sat := bnat q.sat, nan := bnat q.nan })

/-- Convert values at logical indices, under a gauge; `outl` lists the outlier channels (R74-R76): an outlier value stands apart
from every tally but SAT and NAN (POP too: log entry 136) and trips the gauge if it saturates (log entry 137). In the survey's pass 1
nothing is written: only the maximum and NAN are kept, NAN as pass 2 would count it (R41, R76, R91). -/
def landPairs (gv : GaugeView) (epoch : Nat) (outl : List Nat) (t : Tensor) (ps : List (Nat × Fp)) : Landed :=
  let l := max t.rowLen 1
  let es := ps.map (fun p => (⟨p.1, p.2, !outl.contains (p.1 % l)⟩ : Elem))
  let main := es.map (fun p => if p.real then p else { p with x := .zero false })
  if gv.survey then
    { t := t, tally := { nan := ((groupElems t main).filter (fun g => g.any (fun p => p.x.nonFinite))).length +
                                (es.filter (fun p => !p.real && p.x.nonFinite)).length }, maxc := maxCode (main.map (·.x)) }
  else
    let s := (es.filter (fun p => !p.real)).foldl (fun a p =>
      let x := landOutlier gv.rnd a.1 (p.i / l) (outl.idxOf (p.i % l)) p.x
      (x.1, a.2.add x.2)) (t, Tally.zero)
    (groupElems t main).foldl (fun (a : Landed) g => a.then_ (fun t => landScaled gv epoch t g)) { t := s.1, tally := s.2, trip := s.2.sat != 0 }

/-- Values from a logical index on, with their indices. -/
def fromIdx {α : Type} (i : Nat) (vals : List α) : List (Nat × α) := vals.mapIdx (fun j x => (i + j, x))

/-- Convert values from a logical index on. -/
def landFrom (gv : GaugeView) (epoch : Nat) (outl : List Nat) (t : Tensor) (i : Nat) (vals : List Fp) : Landed :=
  landPairs gv epoch outl t (fromIdx i vals)

/-- Unconverted results written as they are at logical indices (the pass-through of the landing unit). -/
def putPairs (t : Tensor) (ps : List (Nat × Nat)) : Tensor := ps.foldl (fun t p => t.putAt p.1 p.2) t

/-- Unconverted results from a logical index on. -/
def putWords (t : Tensor) (i : Nat) (codes : List Nat) : Tensor := putPairs t (fromIdx i codes)

/-! The weight copy for bay X (R77). -/

/-- Transpose a forward copy of rows n and columns k into the copy of rows k blocked along n with its tags (R98, R111); G8 where every
block allows it and `bf16` does not force BF16; a poisoned block holds zero codes (R41). The flag says that it fell back to BF16
under R77. -/
def weightCopy (bf16 : Bool) (epoch src : Nat) (w : Tensor) : Tensor × Bool :=
  let d := w.d
  let nb := (w.rows + 31) / 32
  let ec (n : Nat) : Nat := w.chan.get 0x7F n
  let top (b : Nat) : Nat :=
    ((List.range 32).filter (fun i => decide (32 * b + i < w.rows))).foldl (fun a i => max a (ec (32 * b + i))) 0
  let lim := if d.fmt = .f4 then 15 else 16
  let narrow := match d.fmt with
    | .wt => true
    | .w2 => true
    | .f4 => true
    | .w4 => d.sgn
    | _ => false
  let fits := (List.range w.rows).all (fun n => top (n / 32) == 0xFF || decide (top (n / 32) - ec n ≤ lim))
  let g8 := narrow && fits && !bf16
  let od : Desc := ⟨if g8 then .g8 else .bf16, 2, false⟩
  let out : Tensor := { desc := od.toByte, rowLen := w.rows, rows := w.rowLen, et := w.et }
  let t := (List.range w.rowLen).foldl (fun t k =>
    let t1 := (List.range nb).foldl (fun (t : Tensor) b => { t.tagBlock epoch src (k * nb + b) with blocks := t.blocks.put 0x7F (k * nb + b) (top b) }) t
    (List.range w.rows).foldl (fun t n =>
      let e := top (n / 32)
      let v := if e = 0xFF then .zero false else (codeVal d.fmt d.sgn (w.codeAt n k)).scale ((ec n : Int) - e)
      t.putCode k n (convert out.d 0 v).code) t1) out
  (t, !(narrow && fits))

end Sys2Proof.Machine
end

