-- ==== Sys2Proof/Machine/Products.lean ====
section
/-! DEFINITION. The arithmetic of products and reductions: runs (R55-R57, R113), promotion and accumulation (R58-R63, R114),
segments and tree (R65), plumb mode (R68), INT32 and INT8 sums (R62, R116), joiner reductions (R123, R244). -/

namespace Sys2Proof.Machine

/-- One operand of an output element along the reduction: code values without scales, and the scale exponent of each index,
none where it is poisoned (R36, R38). -/
structure Opnd where
  val : Nat → Fp
  scale : Nat → Option Int

/-- A promotable term s * 2^e; none where it is NaN (R61). -/
abbrev Term := Option (Int × Int)

/-- An accumulator with what it counted. -/
structure Acc32 where
  code : Nat := 0
  ovf : Nat := 0
  unf : Nat := 0
  nan : Bool := false
  deriving DecidableEq, Repr

/-- The largest finite binary32 with a sign. -/
def max32 (neg : Bool) : Nat := maxFinCode .fp32 neg

/-- Promotion: s * 2^e rounded once to binary32, saturating with OVF, zero with UNF (R59, R114). -/
def promote (t : Int × Int) : Nat × Bool × Bool :=
  let neg := decide (t.1 < 0)
  let r := ieeeOf .fp32 .rne neg t.1.natAbs 1 t.2
  if r.2.of then (max32 neg, true, false) else (r.1, false, t.1 != 0 && r.1 % 2 ^ 31 == 0)

/-- acc ← RNE(acc + v), saturating with OVF (R60). -/
def satAdd (a : Acc32) (v : Nat) : Acc32 :=
  if a.nan then a
  else
    let r := ieeeAdd .fp32 .rne a.code v
    if r.2.of then { a with code := max32 (decide (r.1 ≥ 2 ^ 31)), ovf := a.ovf + 1 } else { a with code := r.1 }

/-- Promote a term and add it (R58-R61). -/
def accTerm (a : Acc32) (t : Term) : Acc32 :=
  match t with
  | none => { a with code := FFmt.fp32.canonNan, nan := true }
  | some x =>
    let p := promote x
    let b := satAdd a p.1
    { b with ovf := b.ovf + bnat p.2.1, unf := b.unf + bnat p.2.2 }

/-- One segment: an accumulator from +0 over its terms in order (R65). -/
def segment (ts : List Term) : Acc32 := ts.foldl accTerm {}

/-- Two segment results added in the tree (R65). -/
def treeAdd (a b : Acc32) : Acc32 :=
  let base : Acc32 := { a with ovf := a.ovf + b.ovf, unf := a.unf + b.unf }
  if a.nan || b.nan then { base with code := FFmt.fp32.canonNan, nan := true } else satAdd base b.code

/-- One level of the pairwise tree: results 2i and 2i+1 combine, an unpaired last passes up (R65). -/
def treeLevel {α : Type} (f : α → α → α) : List α → List α
  | a :: b :: t => f a b :: treeLevel f t
  | l => l

/-- The pairwise tree until one value remains; `n` levels are enough for 2^n results (R65). -/
def tree {α : Type} (f : α → α → α) : Nat → List α → List α
  | 0, l => l
  | n + 1, l => match l with
    | _ :: _ :: _ => tree f n (treeLevel f l)
    | _ => l

/-- The tree over all segment results. -/
def treeOf {α : Type} (f : α → α → α) (z : α) (l : List α) : α := (tree f l.length l).headD z

/-- The starts of the runs of length L in [lo, hi). -/
def runStarts (L lo hi : Nat) : List Nat := (List.range ((hi - lo + L - 1) / L)).map (fun i => lo + i * L)

/-- The indices of a run that starts at k in [k, hi). -/
def runIdx (L k hi : Nat) : List Nat := (List.range (min L (hi - k))).map (k + ·)

/-- The segments [4096 g, 4096 (g+1)) that [lo, hi) meets, as bounds (R65). -/
def segBounds (lo hi : Nat) : List (Nat × Nat) :=
  if hi ≤ lo then []
  else (List.range (hi / 4096 + 1 - lo / 4096)).filterMap (fun i =>
    let g := lo / 4096 + i
    let a := max lo (4096 * g)
    let b := min hi (4096 * (g + 1))
    if a < b then some (a, b) else none)

/-- The significand, exponent and sign of an operand on the float path: value = ±m * 2^x (R56). -/
def unpack (v : Fp) : Nat × Int × Bool :=
  match v with
  | .fin n m e => (m, e, n)
  | _ => (0, 0, false)

/-- A float-path run: products aligned to the largest exponent among the non-zero ones with 3 guard bits (R56). -/
def floatRun (ps : List (Fp × Fp)) : Int × Int :=
  let ms := ps.map (fun p =>
    let a := unpack p.1
    let b := unpack p.2
    (a.1 * b.1, a.2.1 + b.2.1, a.2.2 != b.2.2))
  let nz := ms.filter (fun p => p.1 != 0)
  match nz with
  | [] => (0, 0)
  | p :: t =>
    let xmax := t.foldl (fun x q => max x q.2.1) p.2.1
    let s := nz.foldl (fun (s : Int) q =>
      let d := (xmax - q.2.1).toNat
      let al : Int := if d < 32 then ((q.1 * 8 / 2 ^ d : Nat) : Int) else 0
      if q.2.2 then s - al else s + al) 0
    (s, xmax - 3)

/-- An integer-path run: the exact sum of products; W8 halves combine to the same sum (R55, R57). -/
def intRun (ps : List (Fp × Fp)) : Int × Int :=
  ((ps.map (fun p => p.1.toInt.1 * 2 ^ p.1.toInt.2.toNat * (p.2.toInt.1 * 2 ^ p.2.toInt.2.toNat))).sum, 0)

/-- A B-array run: exact products truncated 55 binades below the largest (R113). -/
def bRun (ps : List (Fp × Fp)) : Int × Int :=
  let ms := (ps.map (fun p =>
    let a := p.1.toInt
    let b := p.2.toInt
    (a.1 * b.1, a.2 + b.2))).filter (fun p => p.1 != 0)
  match ms with
  | [] => (0, 0)
  | p :: t =>
    let lg (q : Int × Int) : Int := (Nat.log2 q.1.natAbs : Int) + q.2
    let q := t.foldl (fun x y => max x (lg y)) (lg p) - 55
    ((ms.map (fun x =>
      let k := x.2 - q
      let a : Int := if 0 ≤ k then ((x.1.natAbs * 2 ^ k.toNat : Nat) : Int) else ((x.1.natAbs / 2 ^ (-k).toNat : Nat) : Int)
      if x.1 < 0 then -a else a)).sum, q)

/-- The kinds of run (R55, R56, R113). -/
inductive RunKind where
  | int | float | b
  deriving DecidableEq, Repr

/-- A run's value before its scale. -/
def runOf (k : RunKind) (ps : List (Fp × Fp)) : Int × Int :=
  match k with
  | .int => intRun ps
  | .float => floatRun ps
  | .b => bRun ps

/-- The promoted term of the run at indices `ks`: exponents add exactly at promotion; poison and NaN give none (R58, R61). -/
def runTerm (kind : RunKind) (w a : Opnd) (ks : List Nat) : Term :=
  let k0 := ks.headD 0
  if ks.any (fun k => (w.val k).nonFinite || (a.val k).nonFinite || (w.scale k).isNone || (a.scale k).isNone) then none
  else
    let r := runOf kind (ks.map (fun k => (w.val k, a.val k)))
    some (r.1, r.2 + (w.scale k0).getD 0 + (a.scale k0).getD 0)

/-- The term of one outlier product, exact, scaled by the weight's exponent (R63, R64). -/
def outlierTerm (w : Opnd) (k : Nat) (v : Fp) : Term :=
  match w.scale k with
  | none => none
  | some s =>
    if v.nonFinite || (w.val k).nonFinite then none
    else
      let a := (w.val k).toInt
      let b := v.toInt
      some (a.1 * b.1, a.2 + b.2 + s)

/-- The terms of [lo, hi): each run, then its outlier products in rising index (R63, R65). -/
def segTerms (kind : RunKind) (L : Nat) (w a : Opnd) (outl : List (Nat × Fp)) (lo hi : Nat) : List Term :=
  (runStarts L lo hi).flatMap (fun k =>
    let ks := runIdx L k hi
    runTerm kind w a ks :: ((outl.filter (fun o => decide (k ≤ o.1 ∧ o.1 < k + ks.length))).map (fun o => outlierTerm w o.1 o.2)))

/-- The segment results of one output element over [lo, hi) (R65). -/
def segResults (kind : RunKind) (L : Nat) (w a : Opnd) (outl : List (Nat × Fp)) (lo hi : Nat) : List Acc32 :=
  (segBounds lo hi).map (fun b => segment (segTerms kind L w a outl b.1 b.2))

/-- One output element of a scaled matrix product (R65, R115). -/
def scaledElem (kind : RunKind) (L : Nat) (w a : Opnd) (outl : List (Nat × Fp)) (lo hi : Nat) : Acc32 :=
  treeOf treeAdd {} (segResults kind L w a outl lo hi)

/-- One output element in plumb mode: the exact sum of every scaled product rounded once (R68). -/
def plumbElem (w a : Opnd) (outl : List (Nat × Fp)) (lo hi : Nat) : Acc32 :=
  let ks := (List.range (hi - lo)).map (lo + ·)
  let ts : List Term := ks.map (fun k => runTerm .b w a [k]) ++
    (outl.filter (fun o => decide (lo ≤ o.1 ∧ o.1 < hi))).map (fun o => outlierTerm w o.1 o.2)
  if ts.any Option.isNone then { code := FFmt.fp32.canonNan, nan := true }
  else
    let exact := ts.foldl (fun (s : Int × Int) t => addScaled s (t.getD (0, 0))) (0, 0)
    let p := promote exact
    { code := p.1, ovf := bnat p.2.1, unf := bnat p.2.2 }

/-- The exact integer sum of products of INT32 promotion and INT8 mode (R62, R116). -/
def intElem (w a : Opnd) (lo hi : Nat) : Int :=
  (intRun (((List.range (hi - lo)).map (lo + ·)).map (fun k => (w.val k, a.val k)))).1

/-! Joiner reductions. -/

/-- One saturating FP32 fused multiply-add (R123). -/
def satFma (a : Acc32) (x y : Nat) : Acc32 :=
  if a.nan then a
  else
    let r := ieeeFma .fp32 .rne x y a.code
    if (fp32V r.1).isNan then { a with code := FFmt.fp32.canonNan, nan := true }
    else if r.2.of then { a with code := max32 (decide (r.1 ≥ 2 ^ 31)), ovf := a.ovf + 1 } else { a with code := r.1 }

/-- The segment results of tread B2: runs of 32 by fused multiply-adds from +0, then R65 (R123). -/
def b2Segments (x y : Nat → Nat) (lo hi : Nat) : List Acc32 :=
  (segBounds lo hi).map (fun b => (runStarts 32 b.1 b.2).foldl (fun acc k =>
    treeAdd acc ((runIdx 32 k b.2).foldl (fun a i => satFma a (x i) (y i)) {})) {})

/-- Two IEEE results in sequence under a rounding attribute. -/
def resAdd (f : FFmt) (r : Rnd) (a b : Res) : Res :=
  let x := ieeeAdd f r a.1 b.1
  (x.1, (a.2.or b.2).or x.2)

/-- The segment results of a joiner reduction of R244 over indices [lo, hi): `one acc i` adds element i into a run's value; runs of 32
from +0, segments of 4,096. -/
def joinerSegs (f : FFmt) (r : Rnd) (one : Res → Nat → Res) (lo hi : Nat) : List Res :=
  (segBounds lo hi).map (fun b =>
    (runStarts 32 b.1 b.2).foldl (fun acc k => resAdd f r acc ((runIdx 32 k b.2).foldl one (0, {}))) (0, {}))

/-- A joiner reduction of R244 over indices [lo, hi): its segments by the pairwise tree. -/
def joinerFold (f : FFmt) (r : Rnd) (one : Res → Nat → Res) (lo hi : Nat) : Res :=
  treeOf (resAdd f r) (0, {}) (joinerSegs f r one lo hi)

/-- One element added into a sum. -/
def addInto (f : FFmt) (r : Rnd) (x : Nat → Nat) (a : Res) (i : Nat) : Res :=
  let s := ieeeAdd f r a.1 (x i)
  (s.1, a.2.or s.2)

/-- One product added into a sum by fusedMultiplyAdd. -/
def fmaInto (f : FFmt) (r : Rnd) (x y : Nat → Nat) (a : Res) (i : Nat) : Res :=
  let s := ieeeFma f r (x i) (y i) a.1
  (s.1, a.2.or s.2)

/-- The sum of codes (R244). -/
def joinerSum (f : FFmt) (r : Rnd) (x : Nat → Nat) (n : Nat) : Res :=
  joinerFold f r (addInto f r x) 0 n

/-- The dot product of codes by fused multiply-adds (R244). -/
def joinerDot (f : FFmt) (r : Rnd) (x y : Nat → Nat) (n : Nat) : Res :=
  joinerFold f r (fmaInto f r x y) 0 n

end Sys2Proof.Machine
end

