-- ==== Sys2Proof/Machine/Random.lean ====
section
/-! DEFINITION. Philox4x32-10 and the draws of R166-R171. -/

namespace Sys2Proof.Machine

/-- One round of R166 on counter words, with the round's key. -/
def philoxRound (k0 k1 : Word) (c : Word × Word × Word × Word) : Word × Word × Word × Word :=
  let p0 := 0xD2511F53 * c.1.toNat
  let p1 := 0xCD9E8D57 * c.2.2.1.toNat
  (BitVec.ofNat 32 (p1 / 2 ^ 32) ^^^ c.2.1 ^^^ k0, BitVec.ofNat 32 p1,
   BitVec.ofNat 32 (p0 / 2 ^ 32) ^^^ c.2.2.2 ^^^ k1, BitVec.ofNat 32 p0)

/-- The rounds left, the key stepping before every round but the first. -/
def philoxRounds : Nat → Word → Word → Word × Word × Word × Word → Word × Word × Word × Word
  | 0, _, _, c => c
  | n + 1, k0, k1, c => philoxRounds n (k0 + 0x9E3779B9#32) (k1 + 0xBB67AE85#32) (philoxRound k0 k1 c)

/-- One Philox4x32-10 block (R166). -/
def philox (k0 k1 c0 c1 c2 c3 : Word) : Word × Word × Word × Word := philoxRounds 10 k0 k1 (c0, c1, c2, c3)

/-- Word j of a block. -/
def philoxWord (x : Word × Word × Word × Word) : Nat → Nat
  | 0 => x.1.toNat
  | 1 => x.2.1.toNat
  | 2 => x.2.2.1.toNat
  | _ => x.2.2.2.toNat

/-- Where a draw stands: seed, purpose, tensor and step field (R167, R172). -/
structure DrawKey where
  seed : BitVec 64
  purpose : Nat
  tid : Nat
  step : Nat
  deriving DecidableEq, Repr

/-- The block of an element field (R167). -/
def drawBlock (k : DrawKey) (elem : Nat) : Word × Word × Word × Word :=
  philox (k.seed.setWidth 32) ((k.seed >>> 32).setWidth 32) (BitVec.ofNat 32 elem) (BitVec.ofNat 32 (elem / 2 ^ 32))
    (BitVec.ofNat 32 k.step) (BitVec.ofNat 32 (k.purpose * 2 ^ 24 + k.tid % 2 ^ 24))

/-- The 16-bit word of element i under purpose 0x01 (R168). -/
def draw16 (k : DrawKey) (i : Nat) : Nat :=
  let w := philoxWord (drawBlock k (i / 8)) (i % 8 / 2)
  if i % 2 = 0 then w % 2 ^ 16 else w / 2 ^ 16

/-- The 32-bit word of element i under purposes 0x02 and 0x04 uniform (R168). -/
def draw32 (k : DrawKey) (i : Nat) : Nat := philoxWord (drawBlock k (i / 4)) (i % 4)

/-- The word x0 of a row under purpose 0x03 (R168). -/
def drawRow (k : DrawKey) (row : Nat) : Nat := philoxWord (drawBlock k row) 0

/-- The two words of element i under purpose 0x04 normal (R168). -/
def drawPair (k : DrawKey) (i : Nat) : Nat × Nat :=
  let b := drawBlock k (i / 2)
  (philoxWord b (2 * (i % 2)), philoxWord b (2 * (i % 2) + 1))

/-- The uniform number of a 32-bit word, in units of 2^-24 (R169). -/
def uniform24 (r : Nat) : Nat := 2 * (r / 2 ^ 9) + 1

end Sys2Proof.Machine
end

