-- ==== Sys2Proof/Machine/Transc.lean ====
section
/-! DEFINITION. The microcoded functions of R268-R270: real functions in fixed point with 512 fraction bits, and the choice
among the binary32 results a stated bound allows (log entry 7). -/

namespace Sys2Proof.Machine

/-- Fraction bits of the fixed-point reals. -/
def fixP : Nat := 512

/-- 1 in fixed point. -/
def fixOne : Int := 2 ^ 512

/-- A finite value in fixed point, truncated below 2^-512. -/
def fixOf : Fp → Int
  | .fin n m e =>
    let k := e + 512
    let a : Int := if 0 ≤ k then ((m * 2 ^ k.toNat : Nat) : Int) else ((m / 2 ^ (-k).toNat : Nat) : Int)
    if n then -a else a
  | _ => 0

/-- Product in fixed point. -/
def fixMul (a b : Int) : Int := a * b / 2 ^ 512

/-- Quotient in fixed point. -/
def fixDiv (a b : Int) : Int := a * 2 ^ 512 / b

/-- ln 2. -/
def ln2F : Int :=
  0xb17217f7d1cf79abc9e3b39803f2f6af40f343267298b62d8a0d175b8baafa2be7b876206debac98559552fb4afa1b10ed2eae35c138214427573b291169b825

/-- pi. -/
def piF : Int :=
  0x3243f6a8885a308d313198a2e03707344a4093822299f31d0082efa98ec4e6c89452821e638d01377be5466cf34e90c6cc0ac29b7c97c50dd3f84d5b5b5470917

/-- sqrt(2 / pi). -/
def sqrt2OverPiF : Int :=
  0xcc42299ea1b284687e59e2805d5c717fa7053e60a24e0db1808e369004c73a5d3bf158aa88fa7b6e47eba75766e9d11bd6284ef2e17c2a264f1d32688be119ff

/-- 1 / sqrt(pi). -/
def invSqrtPiF : Int :=
  0x906eba8214db688d71d48a7f6bfec3441409a0ebac3e751739a15830cce620b0c0759cf859270f1140c036096cc79aebbd1f4eee48e1ca7874f76f877ffec251

/-- Taylor sum of exp by Horner, terms n down to 1. -/
def expTaylor (r : Int) : Nat → Int → Int
  | 0, acc => acc
  | n + 1, acc => expTaylor r n (fixOne + fixMul r acc / ((n + 1 : Nat) : Int))

/-- exp, its argument held within -2048 and 2048, beyond which no binary32 bound can tell the difference. -/
def fixExp (x0 : Int) : Int :=
  let x := max (-2048 * fixOne) (min (2048 * fixOne) x0)
  let k := x / ln2F
  let e := expTaylor (x - k * ln2F) 130 fixOne
  if 0 ≤ k then e * 2 ^ k.toNat else e / 2 ^ (-k).toNat

/-- The odd series of atanh: sum of z^(2i+1) / (2i+1), `n` terms, from the highest. -/
def atanhSeries (z2 : Int) : Nat → Int → Int
  | 0, acc => acc
  | n + 1, acc => atanhSeries z2 n (fixOne / ((2 * n + 1 : Nat) : Int) + fixMul z2 acc)

/-- ln of a positive m * 2^e. -/
def fixLog (m : Nat) (e : Int) : Int :=
  let k := Nat.log2 m
  let w : Int := ((m * 2 ^ 512 / 2 ^ k : Nat) : Int)
  let z := fixDiv (w - fixOne) (w + fixOne)
  2 * fixMul z (atanhSeries (fixMul z z) 170 0) + (e + k) * ln2F

/-- Taylor sum of cos by Horner. -/
def cosTaylor (t2 : Int) : Nat → Int → Int
  | 0, acc => acc
  | n + 1, acc => cosTaylor t2 n (fixOne - fixMul t2 acc / (((2 * n + 1) * (2 * n + 2) : Nat) : Int))

/-- cos of an angle within -pi and pi. -/
def fixCos (t : Int) : Int := cosTaylor (fixMul t t) 110 fixOne

/-- Square root of a non-negative fixed-point number. -/
def fixSqrt (x : Int) : Int := (isqrt (x.toNat * 2 ^ 512) : Nat)

/-- 1 / (1 + exp(-x)). -/
def fixSigmoid (x : Int) : Int := fixDiv fixOne (fixOne + fixExp (-x))

/-- Sum of (-1)^n z^(2n+1) / (n! (2n+1)) by its terms: `t` is z^(2n+1) / n!. -/
def erfSeries (z2 : Int) : Nat → Nat → Int → Int → Int
  | 0, _, _, acc => acc
  | k + 1, n, t, acc =>
    erfSeries z2 k (n + 1) (-(fixMul t z2) / ((n + 1 : Nat) : Int)) (acc + t / ((2 * n + 1 : Nat) : Int))

/-- The normal distribution function; beyond 15 it is 0 or 1 for binary32. -/
def fixPhi (x : Int) : Int :=
  if x > 16 * fixOne then fixOne
  else if x < -16 * fixOne then 0
  else
    let z := fixMul x (fixSqrt (fixOne / 2))
    (fixOne + 2 * fixMul invSqrtPiF (erfSeries (fixMul z z) 900 0 z 0)) / 2

/-- The normal density. -/
def fixDensity (x : Int) : Int :=
  fixMul (fixMul invSqrtPiF (fixSqrt (fixOne / 2))) (fixExp (-(fixMul x x) / 2))

/-- 0.044715. -/
def geluC : Int := 44715 * fixOne / 1000000

/-- 2 u(x), with u the argument of GELU's tanh form. -/
def geluArg (x : Int) : Int := 2 * fixMul sqrt2OverPiF (x + fixMul geluC (fixMul x (fixMul x x)))

/-- 2 u'(x). -/
def geluArg' (x : Int) : Int := 2 * fixMul sqrt2OverPiF (fixOne + 3 * fixMul geluC (fixMul x x))

/-- The real functions of the catalogue, one variable (R269). -/
inductive Fn where
  | rsqrt | recip | geluTanh | geluErf | silu | sigmoid | tanh | softplus | exp | log
  | dGeluTanh | dGeluErf | dSilu | dSigmoid | dTanh | dSoftplus | dExp | dLog | relu' | leaky' | normal
  deriving DecidableEq, Repr

/-- Each function's number for Config.microcode. -/
def Fn.code : Fn → Nat
  | .rsqrt => 0x0A
  | .recip => 0x0B
  | .geluTanh => 0x12
  | .geluErf => 0x13
  | .silu => 0x14
  | .sigmoid => 0x15
  | .tanh => 0x16
  | .softplus => 0x17
  | .exp => 0x18
  | .log => 0x19
  | .relu' => 0x20
  | .leaky' => 0x21
  | .dGeluTanh => 0x22
  | .dGeluErf => 0x23
  | .dSilu => 0x24
  | .dSigmoid => 0x25
  | .dTanh => 0x26
  | .dSoftplus => 0x27
  | .dExp => 0x28
  | .dLog => 0x29
  | .normal => 0x41

/-- The stated bound in ulp (R269, R270). -/
def Fn.ulps : Fn → Nat
  | .rsqrt => 1
  | .recip => 1
  | .exp => 1
  | .log => 1
  | .sigmoid => 2
  | .tanh => 2
  | _ => 4

/-- The function at a finite argument where it has a value. -/
def Fn.eval (f : Fn) (x : Fp) : Option Int :=
  let v := fixOf x
  match f, x with
  | .rsqrt, .fin n m e =>
    if n || m = 0 then none
    else if e % 2 = 0 then some (fixDiv fixOne (fixSqrt ((m : Int) * fixOne)) |> fun r =>
        if 0 ≤ e / 2 then r / 2 ^ (e / 2).toNat else r * 2 ^ (-(e / 2)).toNat)
    else some (fixDiv fixOne (fixSqrt (2 * (m : Int) * fixOne)) |> fun r =>
        if 0 ≤ (e - 1) / 2 then r / 2 ^ ((e - 1) / 2).toNat else r * 2 ^ (-((e - 1) / 2)).toNat)
  | .recip, .fin _ m _ => if m = 0 then none else some (fixDiv fixOne v)
  | .log, .fin n m e => if n || m = 0 then none else some (fixLog m e)
  | .dLog, .fin n m _ => if n || m = 0 then none else some (fixDiv fixOne v)
  | .geluTanh, .fin _ _ _ => some (fixMul v (fixSigmoid (geluArg v)))
  | .geluErf, .fin _ _ _ => some (fixMul v (fixPhi v))
  | .silu, .fin _ _ _ => some (fixMul v (fixSigmoid v))
  | .sigmoid, .fin _ _ _ => some (fixSigmoid v)
  | .tanh, .fin _ _ _ => some (2 * fixSigmoid (2 * v) - fixOne)
  | .softplus, .fin _ _ _ =>
    some (max v 0 + fixLog (fixOne + fixExp (-(max v (-v)))).toNat (-512))
  | .exp, .fin _ _ _ => some (fixExp v)
  | .dExp, .fin _ _ _ => some (fixExp v)
  | .dGeluTanh, .fin _ _ _ =>
    let s := fixSigmoid (geluArg v)
    some (s + fixMul (fixMul v (geluArg' v)) (fixMul s (fixOne - s)))
  | .dGeluErf, .fin _ _ _ => some (fixPhi v + fixMul v (fixDensity v))
  | .dSilu, .fin _ _ _ =>
    let s := fixSigmoid v
    some (fixMul s (fixOne + fixMul v (fixOne - s)))
  | .dSigmoid, .fin _ _ _ => some (fixMul (fixSigmoid v) (fixSigmoid (-v)))
  | .dTanh, .fin _ _ _ => some (4 * fixMul (fixSigmoid (2 * v)) (fixSigmoid (-2 * v)))
  | .dSoftplus, .fin _ _ _ => some (fixSigmoid v)
  | _, _ => none

/-- Finite binary32 codes as consecutive integers: code order is value order. -/
def ordOf32 (c : Nat) : Int := if c < 2 ^ 31 then c else -((c - 2 ^ 31 : Nat) : Int)

/-- Back from the integer order, held at the infinities. -/
def of32Ord (i : Int) : Nat :=
  let m := min i.natAbs 0x7F800000
  if i < 0 then 2 ^ 31 + m else m

/-- The value of a finite binary32 code or infinity's place 2^128, times 2^149. -/
def grid32 (c : Nat) : Int :=
  let m := c % 2 ^ 31
  let n : Nat := if m / 2 ^ 23 = 0 then m else (2 ^ 23 + m % 2 ^ 23) * 2 ^ (m / 2 ^ 23 - 1)
  if c < 2 ^ 31 then (n : Int) else -(n : Int)

/-- One ulp at a fixed-point value, in units of 2^-149. -/
def ulp32 (v : Int) : Nat :=
  let a := v.natAbs / 2 ^ 363
  if a < 2 ^ 24 then 1 else 2 ^ (Nat.log2 a - 23)

/-- The binary32 codes within k ulp of a fixed-point value (R268), lowest first. -/
def within32 (k : Nat) (v : Int) : List Nat :=
  let base := ordOf32 (toFp32 (.ofScaled (v, -512)))
  ((List.range (2 * k + 3)).map (fun i => of32Ord (base + (i : Int) - ((k + 1 : Nat) : Int)))).filter
    (fun c => decide ((grid32 c * (2 ^ 363 : Nat) - v).natAbs ≤ k * ulp32 v * 2 ^ 363))

/-- A microcoded result: one of the codes the bound allows, the same for the same operation and operand bits; where the
function has no value stated, any code (R268, log entry 7). -/
def micro (f : Fn) (x : Fp) (args : List Nat) : Nat :=
  let pick := Config.microcode f.code args
  match x with
  | .nan _ _ => FFmt.fp32.canonNan
  | _ =>
    match f.eval x with
    | some v =>
      let cs := within32 f.ulps v
      cs.getD (pick % max cs.length 1) (toFp32 (.ofScaled (v, -512)))
    | none => pick % 2 ^ 32

/-- A microcoded function of one binary32 code. -/
def microFn (f : Fn) (c : Nat) : Nat := micro f (fp32V c) [c]

/-- The Box-Muller value z of R270 from two 32-bit words, within 4 ulp. -/
def boxMuller (r1 r2 : Nat) : Nat :=
  let u1 := uniform24 r1
  let u2 := uniform24 r2
  let t := if u2 ≤ 2 ^ 23 then (u2 : Int) else (u2 : Int) - 2 ^ 24
  let v := fixMul (fixSqrt (-2 * fixLog u1 (-24))) (fixCos (2 * piF * t / 2 ^ 24))
  let cs := within32 4 v
  cs.getD (Config.microcode Fn.normal.code [r1, r2] % max cs.length 1) (toFp32 (.ofScaled (v, -512)))

/-- The correctly rounded binary64 cosine of a binary64 angle within 0 and pi (R263). -/
def cos64 (c : Nat) : Nat :=
  (convertWide .fp64 (.ofScaled (fixCos (fixOf (decodeIeee .fp64 c)), -512))).code

end Sys2Proof.Machine
end

