-- ==== Sys2Proof/Machine/Catalogue.lean ====
section
/-! DEFINITION. What the element-wise catalogue and the reductions compute on the tensors of one context (R241-R244,
R268-R270), and how their results are stored under the gauges. -/

namespace Sys2Proof.Machine

/-- TID 0xFF_FFFF means none (R266). -/
def noTid : Nat := 0xFFFFFF

/-- The stored tensor of an identifier. -/
def Ctx.tensor (c : Ctx) (tid : Nat) : Tensor := c.tensors.get {} tid

/-- Store a tensor. -/
def Ctx.putTensor (c : Ctx) (tid : Nat) (t : Tensor) : Ctx := { c with tensors := c.tensors.put {} tid t }

/-- The tensor record of an identifier. -/
def Plan.record (p : Plan) (tid : Nat) : Option TensorRec := p.tensors.find? (fun r => r.tid == tid)

/-- The gauge of a kind bound to a tensor (R260). -/
def Plan.gaugeOf (p : Plan) (kind tid : Nat) : Option Nat :=
  (p.gauges.find? (fun b => b.tid == tid && b.kind == kind)).map (·.gauge)

/-- The loss-scale gauge (R95). -/
def Plan.lossGauge (p : Plan) : Option Nat := (p.gauges.find? (fun b => b.kind == 3)).map (·.gauge)

/-- The layer record of an index. -/
def Plan.layer (p : Plan) (l : Nat) : Option LayerRec := p.layers[l]?

/-- A layer's outlier channels (R258). -/
def Plan.outliersOf (p : Plan) (l : LayerRec) : List Nat := (p.outliers.drop l.outFirst).take l.outCount

/-- The outlier channels of a tensor: those its consuming layer lists (R76). -/
def Plan.outliersFor (p : Plan) (tid : Nat) : List Nat :=
  match p.layers.find? (fun l => (l.x == tid || l.xs == tid) && l.outCount != 0) with
  | some l => p.outliersOf l
  | none => []

/-- An empty tensor of a record's shape: rows of DIM0, the block axis of BAXIS (R37, R256). -/
def TensorRec.blank (r : TensorRec) : Tensor :=
  let d0 := r.dims.headD 1
  let rest := (r.dims.drop 1).foldl (· * ·) 1
  let stride := (r.dims.drop (r.baxis + 1)).foldl (· * ·) 1
  { desc := r.fmt, rows := d0, rowLen := rest, bstride := stride, blen := r.dims.getD r.baxis 1, et := r.et }

/-- The tensor as a work order finds it: what is stored, or the record's empty tensor. -/
def Ctx.open_ (c : Ctx) (tid : Nat) : Tensor :=
  match c.tensors.find tid with
  | some t => t
  | none => match c.plan.bind (·.record tid) with
    | some r => r.blank
    | none => {}

/-- The key of a layer's pass within an attempt: position, half, layer (R232). -/
def woKey (w : WoHdr) : Nat := (w.pos * 2 + w.half) * 65536 + w.layer

/-- The key of a survey within an attempt: a layer's forward pass and its backward pass are surveyed apart (R91). -/
def surveyKey (w : WoHdr) : Nat := woKey w * 2 + bnat (w.phase == 2)

/-- The work runs in an evaluation pass (R222). -/
def Ctx.inEval (c : Ctx) : Bool := c.evalRun.isSome && c.attempt.isNone

/-- The step field of draws and the epoch of tags (R98, R168, R173, R223). -/
def Ctx.epoch (c : Ctx) : Nat :=
  match c.attempt, c.evalRun with
  | some a, _ => a.step
  | none, some e => e.number
  | none, none => c.step

/-- The slot, plus 1, that a work order's landing unit writes as (R100). -/
def writerOf (w : WoHdr) : Nat := (w.hall * 16 + w.aisle) * 68 + w.slot + 1

/-- How a conversion into a tensor sees its gauge (R83, R91, R92, R222, R231). -/
def Ctx.view (c : Ctx) (w : WoHdr) (tid : Nat) (t : Tensor) : GaugeView :=
  let src := writerOf w
  let et := match c.plan.bind (·.record tid) with
    | some r => r.et
    | none => t.et
  match c.plan.bind (·.gaugeOf 0 tid) with
  | none => { et := et, capped := false, src := src }
  | some gi =>
    let g := c.gauges.get {} gi
    let rep := match c.attempt with
      | some a => w.phase != 2 && a.passes.get 0 (woKey w) != 0
      | none => false
    let surveyed := match c.attempt with
      | some a => a.survey.contains (surveyKey w)
      | none => true
    let flat := t.d.grain == 0
    let first := g.hcount == 0 || g.survey || rep
    let e := e8m0 g.gexp
    { g := g.gexp, et := if flat then e.1 else et, top := flat && e.2.1, bottom := flat && e.2.2,
      capped := g.hcount != 0 && !rep, survey := flat && first && !surveyed && !c.inEval, src := src }

/-- What tells one pass over a tensor from the next: the step or evaluation pass, the attempt, the layer's repeats, its survey. -/
def Ctx.passTag (c : Ctx) (w : WoHdr) : Nat :=
  let x := match c.attempt with
    | some a => (a.number, (a.passes.get 0 (woKey w)) * 2 + bnat (a.survey.contains (surveyKey w)))
    | none => (0, 0)
  (((c.epoch * 65536 + x.1) * 65536 + x.2) * 2 + bnat c.inEval) * 4 + min w.phase 2 + 1

/-- The key of a draw for a tensor under a purpose, or purpose 0x05 in an evaluation pass (R167, R168). -/
def Ctx.drawKey (c : Ctx) (purpose tid : Nat) : DrawKey :=
  if c.inEval then ⟨c.seed.getD 0, 5, tid, c.epoch⟩
  else ⟨c.seed.getD 0, purpose, tid, if purpose = 4 then 0 else c.epoch⟩

/-- The loss-scale exponent L (R237). -/
def Ctx.lossExp (c : Ctx) : Int :=
  match c.plan.bind (·.lossGauge) with
  | some gi => (c.gauges.get {} gi).gexp
  | none => 0

/-- The tally of converted elements that stand alone: saturations and NaNs (R40, R41). -/
def convTally (cs : List Conv) : Tally := { sat := (cs.filter (·.sat)).length, nan := (cs.filter (·.nan)).length }

/-- Values as they are converted into a wide destination: FP32 and FP64 take IEEE overflow and the canonical NaN (R32, R40). -/
def storeWide (c : Ctx) (tid : Nat) (t : Tensor) (f : FFmt) (ps : List (Nat × Fp)) (d : WoDone) : Ctx × WoDone :=
  (c.putTensor tid (putPairs t (ps.map (fun p => (p.1, (convertWide f p.2).code)))),
    { d with tally := d.tally.add { nan := (ps.filter (fun p => p.2.isNan)).length } })

/-- Store values at logical indices in a format, under the tensor's gauge; the report of the work order (R74, R84, R88, R268). The
conversions of a reduction round under its attribute (R241). The first store of a pass writes the tensor exponent, whose clamp counts and trips (R35, R88); a later one leaves it, poisoned or not
(R38, R41). -/
def storeOne (c : Ctx) (w : WoHdr) (tid fmt : Nat) (ps : List (Nat × Fp)) (d : WoDone) : Ctx × WoDone :=
  let t0 := { c.open_ tid with desc := fmt }
  match t0.d.fmt with
  | .fp32 => storeWide c tid t0 .fp32 ps d
  | .fp64 => storeWide c tid t0 .fp64 ps d
  | _ =>
    let gv := { c.view w tid t0 with rnd := if d.kind = 2 then (Rnd.ofCode w.rnd).getD .rne else .rne }
    let fresh := !gv.survey && c.passOf.get 0 tid != c.passTag w
    let outl := match c.plan with
      | some p => p.outliersFor tid
      | none => []
    let l := landPairs gv c.epoch outl (if fresh then { t0 with et := gv.et } else t0) ps
    let clamp : Tally := { ovf := bnat (fresh && gv.top), unf := bnat (fresh && gv.bottom) }
    let gi := c.plan.bind (·.gaugeOf 0 tid)
    let quiet := c.inEval
    ({ c.putTensor tid l.t with passOf := if gv.survey then c.passOf else c.passOf.put 0 tid (c.passTag w) },
      { d with
        tally := (d.tally.add l.tally).add clamp
        elems := d.elems + (if gv.survey then 0 else ps.length)
        maxima := match gi with
          | some g => if quiet || ps.isEmpty then d.maxima else d.maxima ++ [(g, l.maxc)]
          | none => d.maxima
        trips := match gi with
          | some g => if (l.trip || (fresh && gv.top)) && !quiet then d.trips ++ [g] else d.trips
          | none => d.trips })

/-- The layers whose input copy a tensor is and that keep a stack copy of it (R118, R132, R258). -/
def Plan.stackLayers (p : Plan) (tid : Nat) : List (Nat × LayerRec) :=
  ((p.layers.zipIdx).filter (fun x => x.1.kind == 0 && x.1.x == tid && x.1.xs != noTid)).map (fun x => (x.2, x.1))

/-- The format a stack copy takes in this step: G8 at B0, BF16 at B1 and B2, blocked along tokens (R118, R140). -/
def stackFmt (btread : Nat) : Nat := (Desc.mk (if btread = 0 then .g8 else .bf16) 2 false).toByte

/-- The layers whose stack copies a store into a tensor also writes: in a training forward pass (R118). -/
def Ctx.stackOuts (c : Ctx) (w : WoHdr) (tid : Nat) : List (Nat × LayerRec) :=
  match c.plan with
  | some p => if c.attempt.isSome && w.phase == 0 then p.stackLayers tid else []
  | none => []

/-- In a training forward pass a layer's input also gets its stack copy from the same source, under the gauge bound to the copy
(R118). -/
def storeCopies (w : WoHdr) (tid : Nat) (ps : List (Nat × Fp)) (r : Ctx × WoDone) : Ctx × WoDone :=
  (r.1.stackOuts w tid).foldl (fun r l => storeOne r.1 w l.2.xs (stackFmt (r.1.btread.get 0 l.1)) ps r.2) r

/-- Store values and their stack copies; in the survey's pass 1 nothing is written (R91). -/
def storePairs (c : Ctx) (w : WoHdr) (tid fmt : Nat) (ps : List (Nat × Fp)) (d : WoDone) : Ctx × WoDone :=
  if (c.view w tid { c.open_ tid with desc := fmt }).survey then storeOne c w tid fmt ps d
  else storeCopies w tid ps (storeOne c w tid fmt ps d)

/-- Store values from a logical index on. -/
def storeVals (c : Ctx) (w : WoHdr) (tid fmt start : Nat) (vals : List Fp) (d : WoDone) : Ctx × WoDone :=
  storePairs c w tid fmt (fromIdx start vals) d

/-! Element-wise work. -/

/-- The inputs of an element-wise work order as FP32 codes, element by element; `aux` holds one or two values for each. -/
structure EwIn where
  x : List Nat
  y : List Nat
  z : List Nat
  aux : List Nat
  p0 : Nat
  p1 : Nat
  row : Nat
  start : Nat
  deriving DecidableEq, Repr

/-- The results: values for OUT, FP32 codes for the auxiliary record, values of the second output, IEEE flags. -/
structure EwOut where
  out : List Fp
  aux : List Nat := []
  snd : List Fp := []
  flags : IFlags := {}

/-- Canonical NaN in place of any NaN (R32). -/
def canon32 (c : Nat) : Nat := if (fp32V c).isNan then FFmt.fp32.canonNan else c

/-- Widen elements [start, start + n) of a tensor to FP32 with the tally of R44; NAN counts poisoned elements read (R38). -/
def readFp32 (t : Tensor) (start n : Nat) : List Nat × Tally :=
  (List.range n).foldr (fun i a =>
    let l := max t.rowLen 1
    let r := (start + i) / l
    let k := (start + i) % l
    let x := t.valAt r k
    let q := match x with
      | .inf s => (⟨FFmt.fp32.infCode s, false, false⟩ : Widened)
      | x => widen .fp32 x
    (q.code :: a.1, a.2.add { ovf := bnat q.ovf, unf := bnat q.unf, nan := bnat (t.poisonedAt r k) })) ([], Tally.zero)

/-- Read the inputs of an element-wise work order, with `k` values of the auxiliary record for each element; P0 stands for an absent
IN1 (R268, R269). -/
def ewInputs (k : Nat) (c : Ctx) (a : EwArgs) : EwIn × Tally :=
  let x := readFp32 (c.open_ a.in0) a.start a.count
  let y := if a.in1 = noTid then (List.replicate a.count a.p0, Tally.zero) else readFp32 (c.open_ a.in1) a.start a.count
  let z := if a.in2 = noTid then ([], Tally.zero) else readFp32 (c.open_ a.in2) a.start a.count
  let u := if a.aux = noTid then ([], Tally.zero) else readFp32 (c.open_ a.aux) (k * a.start) (k * a.count)
  ({ x := x.1, y := y.1, z := z.1, aux := u.1, p0 := a.p0, p1 := a.p1, row := max a.rowLen 1, start := a.start },
    ((x.2.add y.2).add z.2).add u.2)

/-- Elements at odd or even places of a list of pairs. -/
def pairAt (odd : Nat) (l : List Nat) : List Nat := (l.zipIdx.filter (fun p => p.2 % 2 == odd)).map (·.1)

/-- Map over one input. -/
def ew1 (f : Nat → Nat) (d : EwIn) : EwOut := { out := d.x.map (fun a => fp32V (canon32 (f a))) }

/-- Results with their flags gathered (R242). -/
def ewRes (rs : List Res) : EwOut := { out := rs.map (fun r => fp32V (canon32 r.1)), flags := rs.foldl (fun a r => a.or r.2) {} }

/-- Map over one input with flags. -/
def ew1f (f : Nat → Res) (d : EwIn) : EwOut := ewRes (d.x.map f)

/-- Map over two inputs with flags. -/
def ew2 (f : Nat → Nat → Res) (d : EwIn) : EwOut := ewRes ((d.x.zip d.y).map (fun p => f p.1 p.2))

/-- Map over three inputs with flags. -/
def ew3 (f : Nat → Nat → Nat → Res) (d : EwIn) : EwOut := ewRes ((d.x.zip (d.y.zip d.z)).map (fun p => f p.1 p.2.1 p.2.2))

/-- One operation on the canonical result of another, the flags of both (R32, R242). -/
def resThen (r : Res) (f : Nat → Res) : Res :=
  let x := f (canon32 r.1)
  (x.1, r.2.or x.2)

/-- FP32 operations rounding to nearest even. -/
def f32add (a b : Nat) : Nat := canon32 (ieeeAdd .fp32 .rne a b).1
/-- Difference. -/
def f32sub (a b : Nat) : Nat := canon32 (ieeeSub .fp32 .rne a b).1
/-- Product. -/
def f32mul (a b : Nat) : Nat := canon32 (ieeeMul .fp32 .rne a b).1
/-- Quotient. -/
def f32div (a b : Nat) : Nat := canon32 (ieeeDiv .fp32 .rne a b).1
/-- Fused multiply-add. -/
def f32fma (a b c : Nat) : Nat := canon32 (ieeeFma .fp32 .rne a b c).1
/-- 1.0 in binary32. -/
def f32one : Nat := 0x3F800000
/-- An integer rounded to binary32. -/
def f32ofNat (n : Nat) : Nat := toFp32 (.fin false n 0)

/-- An activation function with its auxiliary record, its input (R269). -/
def ewAct (f : Nat → Nat) (d : EwIn) : EwOut := { ew1 f d with aux := d.x }

/-- An activation of one rounding, with its flags and its auxiliary record. -/
def ewActf (f : Nat → Res) (d : EwIn) : EwOut := { ew1f f d with aux := d.x }

/-- A gated activation IN0 × f(IN1) with both inputs in the auxiliary record, element by element. -/
def ewGlu (f : Fn) (d : EwIn) : EwOut :=
  let ps := d.x.zip d.y
  { out := ps.map (fun p => fp32V (f32mul p.1 (microFn f p.2))), aux := ps.flatMap (fun p => [p.1, p.2]) }

/-- A derivative: dX = dY × f'(x), x from the auxiliary record (R269). -/
def ewDer (f : Nat → Nat) (d : EwIn) : EwOut := ewRes ((d.x.zip d.aux).map (fun p => ieeeMul .fp32 .rne p.1 (f p.2)))

/-- The derivative of a gated activation: the first gradient to OUT, the second to IN2 (R269). -/
def ewGluDer (f f' : Fn) (d : EwIn) : EwOut :=
  let ps := d.x.zip ((pairAt 0 d.aux).zip (pairAt 1 d.aux))
  { out := ps.map (fun p => fp32V (f32mul p.1 (microFn f p.2.2))),
    snd := ps.map (fun p => fp32V (f32mul (f32mul p.1 p.2.1) (microFn f' p.2.2))) }

/-- relu'(x); at zero the spec states no value (log entry 7). -/
def reluDer (c : Nat) : Nat :=
  let x := fp32V c
  if x.isNan then FFmt.fp32.canonNan
  else if x.isZero then micro .relu' x [c]
  else if x.sign then 0 else f32one

/-- The derivative of LEAKY with slope p; at zero the spec states no value. -/
def leakyDer (p c : Nat) : Nat :=
  let x := fp32V c
  if x.isNan then FFmt.fp32.canonNan
  else if x.isZero then micro .leaky' x [c, p]
  else if x.sign then p else f32one

/-- exp of an FP32 code; of minus infinity it is +0 (R270's rows of minus infinity). -/
def expCode (c : Nat) : Nat := if c = 0xFF800000 then 0 else microFn .exp c

/-- Cut a list into rows of n. -/
def rowsOf (n : Nat) : Nat → List α → List (List α)
  | 0, _ => []
  | k + 1, l => if l.isEmpty then [] else l.take n :: rowsOf n k (l.drop n)

/-- A list as a function of its index. -/
def nth (l : List Nat) (i : Nat) : Nat := l.getD i 0

/-- Apply a row function to the rows of IN0 (R268). -/
def ewRows (f : List Nat → List Nat) (d : EwIn) : List Nat := (rowsOf d.row (d.x.length + 1) d.x).flatMap f

/-- The row sum of R244 with RND 0. -/
def rowSum (l : List Nat) : Nat := canon32 (joinerSum .fp32 .rne (nth l) l.length).1

/-- The row dot product of R244 with RND 0. -/
def rowDot (a b : List Nat) : Nat := canon32 (joinerDot .fp32 .rne (nth a) (nth b) a.length).1

/-- The row maximum. -/
def rowMax (l : List Nat) : Nat := l.foldl (fun a b => canon32 (ieeeMax .fp32 a b).1) 0xFF800000

/-- Exponentials of a row and their sum (R270). -/
def softParts (l : List Nat) : Nat × List Nat × Nat :=
  let m := rowMax l
  let e := l.map (fun x => expCode (f32sub x m))
  (m, e, rowSum e)

/-- SOFTMAX of a row; a row of minus infinities gives +0 (R270). -/
def softRow (l : List Nat) : List Nat :=
  if l.all (· == 0xFF800000) then l.map (fun _ => 0)
  else
    let p := softParts l
    p.2.1.map (fun e => f32div e p.2.2)

/-- LOGSOFTMAX of a row (R270). -/
def logSoftRow (l : List Nat) : List Nat :=
  let p := softParts l
  let s := microFn .log p.2.2
  l.map (fun x => f32sub (f32sub x p.1) s)

/-- Mean and reciprocal deviation of LAYERNORM (R269). -/
def lnStats (eps : Nat) (l : List Nat) : Nat × Nat :=
  let r := f32div f32one (f32ofNat l.length)
  let mu := f32mul (rowSum l) r
  let d := l.map (fun x => f32sub x mu)
  let v := f32mul (rowDot d d) r
  (mu, microFn .rsqrt (f32add v eps))

/-- The reciprocal root mean square of RMSNORM (R269). -/
def rmsStat (eps : Nat) (l : List Nat) : Nat :=
  microFn .rsqrt (f32add (f32mul (rowDot l l) (f32div f32one (f32ofNat l.length))) eps)

/-- Backward of a normalised row by the standard formula dX = ρ (g − mean g − x̂ mean(g x̂)), g = dY γ; RMSNORM has no mean
term (R269, log entry 18). -/
def normBack (mean : Bool) (rho : Nat) (g xh : List Nat) : List Nat :=
  let r := f32div f32one (f32ofNat g.length)
  let a := if mean then f32mul (rowSum g) r else 0
  let b := f32mul (rowDot g xh) r
  (g.zip xh).map (fun p => f32mul rho (f32sub (f32sub p.1 a) (f32mul p.2 b)))

/-- Finish an element-wise work order: OUT, the auxiliary record in BF16 or FP32 with the tallies of its conversion (R40, R41), the second
output. -/
def ewFinish (c : Ctx) (w : WoHdr) (a : EwArgs) (auxFp32 : Bool) (t : Tally) (o : EwOut) (outStart auxStart : Nat) :
    Ctx × WoDone :=
  let d : WoDone := { w := w, kind := 1, tally := t, flags := o.flags }
  let s := storeVals c w a.out a.outFmt outStart o.out d
  let s2 := if o.snd.isEmpty || a.in2 = noTid then s
    else storeVals s.1 w a.in2 (s.1.open_ a.in2).desc a.start o.snd s.2
  if o.aux.isEmpty || a.aux = noTid then s2
  else if auxFp32 then (s2.1.putTensor a.aux (putWords { s2.1.open_ a.aux with desc := (Desc.mk .fp32 3 false).toByte } auxStart o.aux), s2.2)
  else
    let cs := o.aux.map (fun q => toBf16 (fp32V q))
    (s2.1.putTensor a.aux (putWords { s2.1.open_ a.aux with desc := (Desc.mk .bf16 3 false).toByte } auxStart (cs.map (·.code))),
      { s2.2 with tally := s2.2.tally.add (convTally cs), elems := s2.2.elems + cs.length })

/-- An element-wise work order whose results stand element by element; it reads `k` values of the auxiliary record for each. -/
def ewRun (k : Nat) (f : EwIn → EwOut) (c : Ctx) (w : WoHdr) (a : EwArgs) : Ctx × WoDone :=
  let i := ewInputs k c a
  let o := f i.1
  ewFinish c w a false i.2 o a.start (if o.aux.length = 2 * a.count then 2 * a.start else a.start)

/-- A normalisation: γ and β by column, μ and ρ kept per row (R269). -/
def ewNorm (rms : Bool) (c : Ctx) (w : WoHdr) (a : EwArgs) : Ctx × WoDone :=
  let n := max a.rowLen 1
  let x := readFp32 (c.open_ a.in0) a.start a.count
  let gt := readFp32 (c.open_ a.in1) 0 n
  let bt := if rms then ([], Tally.zero) else readFp32 (c.open_ a.in2) 0 n
  let g := gt.1
  let b := bt.1
  let rows := rowsOf n (x.1.length + 1) x.1
  let outs := rows.map (fun l =>
    if rms then
      let rho := rmsStat a.p0 l
      ((l.zip g).map (fun p => f32mul (f32mul p.1 rho) p.2), [rho])
    else
      let st := lnStats a.p0 l
      ((l.zip (g.zip b)).map (fun p => f32fma (f32mul (f32sub p.1 st.1) st.2) p.2.1 p.2.2), [st.1, st.2]))
  let aux := outs.flatMap (·.2)
  ewFinish c w { a with in2 := noTid } true ((x.2.add gt.2).add bt.2)
    { out := (outs.flatMap (·.1)).map fp32V, aux := aux } a.start (a.start / n * (if rms then 1 else 2))

/-- The input of a work order's layer, which the backward of a normalisation reads (log entry 18). -/
def keptInput (c : Ctx) (w : WoHdr) : Nat := ((c.plan.bind (·.layer w.layer)).map (·.x)).getD noTid

/-- The backward of a normalisation: dX to OUT, x̂ × dY to IN2; x is the layer's kept input (R269, log entry 18). -/
def ewNormBack (rms : Bool) (c : Ctx) (w : WoHdr) (a : EwArgs) : Ctx × WoDone :=
  let n := max a.rowLen 1
  let dy := readFp32 (c.open_ a.in0) a.start a.count
  let gt := readFp32 (c.open_ a.in1) 0 n
  let g := gt.1
  let xt := c.open_ (keptInput c w)
  let x := readFp32 xt a.start a.count
  let k := if rms then 1 else 2
  let sr := readFp32 (c.open_ a.aux) (a.start / n * k) (a.count / n * k)
  let st := sr.1
  let rows := (rowsOf n (a.count + 1) dy.1).zip (rowsOf n (a.count + 1) x.1)
  let outs := rows.mapIdx (fun i p =>
    let mu := if rms then 0 else nth st (2 * i)
    let rho := if rms then nth st i else nth st (2 * i + 1)
    let xh := p.2.map (fun v => f32mul (f32sub v mu) rho)
    let gg := (p.1.zip g).map (fun q => f32mul q.1 q.2)
    (normBack (!rms) rho gg xh, (xh.zip p.1).map (fun q => f32mul q.1 q.2)))
  ewFinish c w a false (((dy.2.add gt.2).add x.2).add sr.2)
    { out := (outs.flatMap (·.1)).map fp32V, snd := (outs.flatMap (·.2)).map fp32V } a.start a.start

/-- SOFTMAX with its auxiliary record y in BF16 (R270). -/
def ewSoftmax (d : EwIn) : EwOut :=
  let y := ewRows softRow d
  { out := y.map fp32V, aux := y }

/-- SOFTMAX_B: dX = y (dY − Σ dY y) (R270). -/
def ewSoftmaxB (d : EwIn) : EwOut :=
  let rows := (rowsOf d.row (d.x.length + 1) d.x).zip (rowsOf d.row (d.x.length + 1) d.aux)
  { out := (rows.flatMap (fun p =>
      let s := rowDot p.1 p.2
      (p.1.zip p.2).map (fun q => f32mul q.2 (f32sub q.1 s)))).map fp32V }

/-- The label of a row: an INT32 element of IN1. -/
def labelAt (t : Tensor) (row : Nat) : Int := signedOf 32 (t.codeAt (row / max t.rowLen 1) (row % max t.rowLen 1))

/-- XENT: log(s) + m − x_label per row; −1 gives +0, any other label outside the row NaN (R270). -/
def ewXent (c : Ctx) (w : WoHdr) (a : EwArgs) : Ctx × WoDone :=
  let n := max a.rowLen 1
  let x := readFp32 (c.open_ a.in0) a.start a.count
  let lt := c.open_ a.in1
  let outs := (rowsOf n (a.count + 1) x.1).mapIdx (fun i l =>
    let lab := labelAt lt (a.start / n + i)
    if lab = -1 then 0
    else if lab < 0 || lab ≥ n then FFmt.fp32.canonNan
    else
      let p := softParts l
      f32sub (f32add (microFn .log p.2.2) p.1) (nth l lab.toNat))
  ewFinish c w { a with in2 := noTid } false x.2 { out := outs.map fp32V } (a.start / n) 0

/-- XENT_B: (y − [j = label]) × P0, times 2^L exactly (R237, R270). -/
def ewXentB (c : Ctx) (w : WoHdr) (a : EwArgs) : Ctx × WoDone :=
  let n := max a.rowLen 1
  let x := readFp32 (c.open_ a.in0) a.start a.count
  let lt := c.open_ a.in1
  let outs := ((rowsOf n (a.count + 1) x.1).mapIdx (fun i l =>
    let lab := labelAt lt (a.start / n + i)
    (softRow l).mapIdx (fun j y => f32mul (f32sub y (if lab = j then f32one else 0)) a.p0))).flatten
  ewFinish c w { a with in2 := noTid } false x.2 { out := outs.map (fun v => (fp32V v).scale c.lossExp) } a.start 0

/-- T of R169: p × 2^32 rounded to nearest even. -/
def dropThreshold (p : Nat) : Nat := (rneInt ((fp32V p).scale 32)).toNat

/-- k of R270: 1 ÷ (1 − p) rounded once. -/
def dropScale (p : Nat) : Nat :=
  let q := addScaled (1, 0) (-(fp32V p).toInt.1, (fp32V p).toInt.2)
  if q.1 ≤ 0 then FFmt.fp32.canonNan else (ieeeOf .fp32 .rne false 1 q.1.natAbs (-q.2)).1

/-- Dropout under the mask of a tensor identifier (R168-R170, R270). -/
def dropVals (k : DrawKey) (p start : Nat) (xs : List Nat) : EwOut :=
  let t := dropThreshold p
  let s := dropScale p
  ewRes (xs.mapIdx (fun i x => if draw32 k (start + i) < t then (0, {}) else ieeeMul .fp32 .rne x s))

/-- GATHER: rows of IN0 chosen by IN1 (R270). -/
def ewGather (c : Ctx) (w : WoHdr) (a : EwArgs) : Ctx × WoDone :=
  let n := max a.rowLen 1
  let tab := c.open_ a.in0
  let idx := c.open_ a.in1
  let rows := (List.range (a.count / n)).map (fun i =>
    let j := labelAt idx (a.start / n + i)
    if j < 0 || j.toNat * n ≥ tab.size then (List.replicate n FFmt.fp32.canonNan, Tally.zero)
    else readFp32 tab (j.toNat * n) n)
  ewFinish c w { a with in2 := noTid } false (rows.foldl (fun t p => t.add p.2) Tally.zero)
    { out := (rows.flatMap (·.1)).map fp32V } a.start 0

/-- SCATTER_ADD: the dY rows that name each table row summed in rising token order (R270). -/
def ewScatter (c : Ctx) (w : WoHdr) (a : EwArgs) : Ctx × WoDone :=
  let n := max a.rowLen 1
  let idx := c.open_ a.in1
  let dy := readFp32 (c.open_ a.in0) 0 (idx.size * n)
  let outs := (List.range a.count).map (fun e =>
    let j := (a.start + e) / n
    let k := (a.start + e) % n
    let toks := (List.range idx.size).filter (fun t => labelAt idx t == (j : Int))
    let l := toks.map (fun t => nth dy.1 (t * n + k))
    joinerSum .fp32 .rne (nth l) l.length)
  ewFinish c w { a with in2 := noTid } false dy.2 (ewRes outs) a.start 0

/-- The first index of the largest element. -/
def argMax (l : List Nat) : Nat :=
  let m := rowMax l
  (l.findIdx? (fun x => x == m)).getD 0

/-- The index SAMPLE picks in a row (R169, R270); where no index satisfies the rule, one the spec does not state. -/
def sampleRow (p u : Nat) (l : List Nat) : Nat :=
  if (fp32V p).isZero then argMax l
  else
    let y := softRow (l.map (fun x => f32div x p))
    let cs := (y.foldl (fun a v => a ++ [f32add (a.getLastD 0) v]) ([] : List Nat))
    let t := f32mul (toFp32 (.fin false u (-24))) (cs.getLastD 0)
    match cs.findIdx? (fun v => totalLt (fp32V t) (fp32V v)) with
    | some j => j
    | none => Config.microcode 0x3F (p :: u :: l) % 2 ^ 32

/-- SAMPLE: one index per row (R270). -/
def ewSample (c : Ctx) (w : WoHdr) (a : EwArgs) : Ctx × WoDone :=
  let n := max a.rowLen 1
  let x := readFp32 (c.open_ a.in0) a.start a.count
  let k := c.drawKey 3 a.out
  let outs := (rowsOf n (a.count + 1) x.1).mapIdx (fun i l =>
    sampleRow a.p0 (uniform24 (drawRow k (a.start / n + i))) l)
  ewFinish c w { a with in2 := noTid } false x.2 { out := outs.map (fun j => .fin false j 0) } (a.start / n) 0

/-- INIT_UNIFORM: P0 + (P1 − P0) × u (R270). -/
def ewInitUniform (c : Ctx) (w : WoHdr) (a : EwArgs) : Ctx × WoDone :=
  let k := c.drawKey 4 a.out
  let d := f32sub a.p1 a.p0
  let y (i : Nat) : Res := resThen (ieeeMul .fp32 .rne d (toFp32 (.fin false (uniform24 (draw32 k (a.start + i))) (-24))))
    (ieeeAdd .fp32 .rne a.p0)
  let o := ewRes ((List.range a.count).map y)
  ewFinish c w { a with in2 := noTid, aux := noTid } false {} { o with flags := o.flags.or (ieeeSub .fp32 .rne a.p1 a.p0).2 } a.start 0

/-- INIT_NORMAL: P0 + P1 × z (R270). -/
def ewInitNormal (c : Ctx) (w : WoHdr) (a : EwArgs) : Ctx × WoDone :=
  let k := c.drawKey 4 a.out
  ewFinish c w { a with in2 := noTid, aux := noTid } false {}
    { out := (List.range a.count).map (fun i =>
        let q := drawPair k (a.start + i)
        fp32V (f32add a.p0 (f32mul a.p1 (boxMuller q.1 q.2)))) } a.start 0

/-- CONVERT: exact widening, then conversion into OUT_FMT (R269). -/
def ewConvert (c : Ctx) (w : WoHdr) (a : EwArgs) : Ctx × WoDone :=
  let t := c.open_ a.in0
  let vals := (List.range a.count).map (fun i => t.at_ (a.start + i))
  let bad := ((List.range a.count).filter (fun i =>
    t.poisonedAt ((a.start + i) / max t.rowLen 1) ((a.start + i) % max t.rowLen 1))).length
  ewFinish c w { a with in2 := noTid, aux := noTid } false { nan := bad } { out := vals } a.start 0

/-! IEEE operations on codes (R241-R243). -/

/-- The raw codes of elements [start, start + n). -/
def rawCodes (t : Tensor) (start n : Nat) : List Nat :=
  (List.range n).map (fun i => t.codeAt ((start + i) / max t.rowLen 1) ((start + i) % max t.rowLen 1))

/-- The binary format of a tensor's codes for the joiners: binary64, binary32 or binary16. -/
def joinerFmt (t : Tensor) : FFmt :=
  match t.d.fmt with
  | .fp64 => .fp64
  | .fp16 => .fp16
  | _ => .fp32

/-- IEEE operands in the operation's format, with what widening them raises, widened exactly where it is wider (R48, R243); an absent IN1
is P0 (R268). -/
def ieeeInput (f : FFmt) (c : Ctx) (tid p0 start n : Nat) : List Res :=
  let wid (src : FFmt) (q : Nat) : Res := if f = .fp64 ∧ src = .fp32 then ieeeConv .fp32 .fp64 .rne q else (q, {})
  if tid = noTid then List.replicate n (wid .fp32 p0)
  else (rawCodes (c.open_ tid) start n).map (wid (joinerFmt (c.open_ tid)))

/-- An IEEE work order of one, two or three operands: in the format of OUT, or of IN0 for a conversion; results as codes in OUT, flags
gathered (R242). -/
def ieeeRun (conv : Bool) (args : Nat) (f : FFmt → Rnd → Nat → Nat → Nat → Res) (c : Ctx) (w : WoHdr) (a : EwArgs) : Ctx × WoDone :=
  let r := (Rnd.ofCode w.rnd).getD .rne
  let ff := joinerFmt { desc := if conv then (c.open_ a.in0).desc else a.outFmt }
  let x := ieeeInput ff c a.in0 a.p0 a.start a.count
  let y := if args < 2 then x else ieeeInput ff c a.in1 a.p0 a.start a.count
  let z := if args < 3 then x else ieeeInput ff c a.in2 0 a.start a.count
  let rs := (x.zip (y.zip z)).map (fun p =>
    let q := f ff r p.1.1 p.2.1.1 p.2.2.1
    (q.1, ((q.2.or p.1.2).or p.2.1.2).or p.2.2.2))
  (c.putTensor a.out (putWords { c.open_ a.out with desc := a.outFmt } a.start (rs.map (·.1))),
    { w := w, kind := 1, flags := rs.foldl (fun g q => g.or q.2) {} })

/-- VCONV: convertFormat between the joiner formats or convertToInteger into INT32 (R269); an INT32 source converts exactly
and rounds once (R48). -/
def vconvRes (src : Fmt) (dst : Fmt) (r : Rnd) (q : Nat) : Res :=
  let s : FFmt := match src with
    | .fp64 => .fp64
    | .fp16 => .fp16
    | _ => .fp32
  let d : FFmt := match dst with
    | .fp64 => .fp64
    | .fp16 => .fp16
    | _ => .fp32
  match src, dst with
  | .int32, .int32 => (q, {})
  | .int32, _ => ieeeOfInt d r false (signedOf 32 q, 0)
  | _, .int32 => ieeeToInt32 s r q
  | _, _ => ieeeConv s d r q

/-! Reductions (R244, R268). -/

/-- The value of a reduction over one line of codes. -/
inductive RedOp where
  | sum | sumsq | max | min | maxabs | dot
  deriving DecidableEq, Repr

/-- Magnitude of a code. -/
def absCode (f : FFmt) (q : Nat) : Nat := q % 2 ^ (f.width - 1)

/-- Segment results of an extreme over [lo, hi): each segment from its first element on. -/
def extremeSegs (f : Nat → Nat → Res) (x : Nat → Nat) (lo hi : Nat) : List Res :=
  (segBounds lo hi).map (fun b => ((List.range (b.2 - b.1 - 1)).map (b.1 + 1 + ·)).foldl (fun a i =>
    let s := f a.1 (x i)
    (s.1, a.2.or s.2)) (x b.1, {}))

/-- The segment results of the part [lo, hi) of a line (R65, R244, R268). -/
def reduceSegs (op : RedOp) (f : FFmt) (r : Rnd) (x y : Nat → Nat) (lo hi : Nat) : List Res :=
  match op with
  | .sum => joinerSegs f r (addInto f r x) lo hi
  | .sumsq => joinerSegs f r (fmaInto f r x x) lo hi
  | .dot => joinerSegs f r (fmaInto f r x y) lo hi
  | .max => extremeSegs (ieeeMax f) x lo hi
  | .min => extremeSegs (ieeeMin f) x lo hi
  | .maxabs => extremeSegs (ieeeMax f) (fun i => absCode f (x i)) lo hi

/-- Two segment results in the tree (R65, R244). -/
def redJoin (op : RedOp) (f : FFmt) (r : Rnd) (a b : Res) : Res :=
  let s := match op with
    | .max => ieeeMax f a.1 b.1
    | .maxabs => ieeeMax f a.1 b.1
    | .min => ieeeMin f a.1 b.1
    | _ => ieeeAdd f r a.1 b.1
  (s.1, (a.2.or b.2).or s.2)

/-- The elements of [start, start + count) by line along an axis of given stride and length, lines in rising order. -/
def linesOf (stride len start count : Nat) : List (Nat × List Nat) :=
  let line (i : Nat) : Nat := i / (stride * len) * stride + i % stride
  let es := (List.range count).map (start + ·)
  ((es.map line).eraseDups).map (fun k => (k, es.filter (fun i => line i == k)))

/-- The key of a divided result's segment results: pass, result tensor (R66). -/
def partKey (w : WoHdr) (tid : Nat) : Nat := (woKey w * 16 + w.phase) * 2 ^ 24 + tid

/-- The key of one element's segment. -/
def segKey (idx g : Nat) : Nat := idx * 2 ^ 20 + g

/-- A context without the segment results that a layer's pass has gathered in a phase: its work orders run again (R231, R232). -/
def Ctx.clearParts (c : Ctx) (k phase : Nat) : Ctx := { c with parts := c.parts.filter (fun e => e.1 / 2 ^ 24 != k * 16 + phase) }

/-- Keep an element's segment results from segment g0 on; all of them once none of the `segs` is missing (R66). -/
def gatherSegs (m : SMap Nat) (segs g0 idx : Nat) (l : List Nat) : SMap Nat × Option (List Nat) :=
  let m1 := (l.zipIdx).foldl (fun (m : SMap Nat) x => m.insert (segKey idx (g0 + x.2)) x.1) m
  let all := (List.range segs).map (fun g => m1.find (segKey idx g))
  (m1, if all.all Option.isSome then some (all.map (·.getD 0)) else none)

/-- Elements of a tensor as a reduction of a format reads them: FP32 and FP64 as they stand, as the joiners' IEEE operations do, anything
narrower widened to FP32; in a binary64 reduction the FP32 codes are widened on (R33, R44, R243, R268; log entry 149). -/
def redCodes (f : FFmt) (t : Tensor) (is : List Nat) : List Res × Tally :=
  let up (q : Nat) : Res := if f = .fp64 then ieeeConv .fp32 .fp64 .rne q else (q, {})
  let raw (i : Nat) : Nat := t.codeAt (i / Nat.max t.rowLen 1) (i % Nat.max t.rowLen 1)
  match t.d.fmt with
  | .fp64 => (is.map (fun i => (raw i, {})), {})
  | .fp32 => (is.map (fun i => up (raw i)), {})
  | _ => is.foldr (fun i q => let x := readFp32 t i 1; (x.1.map up ++ q.1, x.2.add q.2)) ([], Tally.zero)

/-- Store the results of a reduction by line: into FP32 or FP64 by the joiners' own conversion under RND, which keeps a NaN's payload and
raises flags, into any other format as R39 to R43 have it (R40, R241-R243). -/
def storeReduced (f : FFmt) (c : Ctx) (w : WoHdr) (a : RdArgs) (rs : List (Nat × Nat)) (d : WoDone) : Ctx × WoDone :=
  let r := (Rnd.ofCode w.rnd).getD .rne
  let wide (g : FFmt) : Ctx × WoDone :=
    let qs := rs.map (fun q => (q.1, if g = f then ((q.2, {}) : Res) else ieeeConv f g r q.2))
    storeCopies w a.out (qs.map (fun q => (q.1, decodeIeee g q.2.1)))
      (c.putTensor a.out (putPairs { c.open_ a.out with desc := a.outFmt } (qs.map (fun q => (q.1, q.2.1)))),
        { d with flags := qs.foldl (fun x q => x.or q.2.2) d.flags
                 tally := d.tally.add { nan := (qs.filter (fun q => (decodeIeee g q.2.1).isNan)).length } })
  match ((Desc.ofByte a.outFmt).getD ⟨.bf16, 3, false⟩).fmt with
  | .fp32 => wide .fp32
  | .fp64 => wide .fp64
  | _ => storePairs c w a.out a.outFmt (rs.map (fun q => (q.1, decodeIeee f q.2))) d

/-- One line of a reduction as a work order meets it: its number, where its part starts and how many elements it has, its segment
results, and what reading the elements raised and counted. -/
structure RedLine where
  line : Nat
  lo : Nat
  n : Nat
  segs : List Res
  flags : IFlags
  tally : Tally

/-- The flags of results together. -/
def flagsOf (rs : List Res) : IFlags := rs.foldl (fun x q => x.or q.2) {}

/-- What a line of a reduction covers: where it begins in the tensor, which part of it this half's work orders reduce, its whole extent. Over
tokens the line is the device's share (R65, R124). -/
structure LineSpan where
  base : Nat
  first : Nat
  count : Nat
  total : Nat
  deriving DecidableEq, Repr

/-- The results of a divided line: over all of it once every segment is there, else over this half's part once that is (R66, R124). -/
def lineResult (m : SMap Nat) (idx : Nat) (x : LineSpan) : Option (List Nat) :=
  let got (g0 n : Nat) : Option (List Nat) :=
    let l := (List.range n).map (fun g => m.find (segKey idx (g0 + g)))
    if l.all Option.isSome then some (l.map (·.getD 0)) else none
  (got 0 ((x.total + 4095) / 4096)).or (got (x.first / 4096) ((x.count + 4095) / 4096))

/-- A reduction work order: one result per line of AXIS, converted into OUT_FMT; binary64 where an input is FP64. A line that was divided on
segment boundaries stands once every segment is there, in tree order; in a split step half B's result over tokens takes half A's segments
in (R66, R124, R126, R244, R265). -/
def reduceRun (op : RedOp) (span : Option LineSpan) (c : Ctx) (w : WoHdr) (a : RdArgs) : Ctx × WoDone :=
  let r := (Rnd.ofCode w.rnd).getD .rne
  let t := c.open_ a.in0
  let dims := match c.plan.bind (·.record a.in0) with
    | some q => q.dims
    | none => [t.rows, t.rowLen]
  let stride := Nat.max ((dims.drop (a.axis + 1)).foldl (· * ·) 1) 1
  let len := Nat.max (dims.getD a.axis 1) 1
  let f : FFmt := if t.d.fmt == .fp64 || (op == .dot && (c.open_ a.in1).d.fmt == .fp64) then .fp64 else .fp32
  let sp := span.getD ⟨0, 0, len, len⟩
  let lines := (linesOf stride len a.start a.count).map (fun l =>
    let x := redCodes f t l.2
    let y := if op = .dot then redCodes f (c.open_ a.in1) l.2 else ([], Tally.zero)
    let lo := l.2.headD 0 / stride % len - sp.base
    let at_ (z : List Res) (i : Nat) : Nat := (z.getD (i - lo) (0, {})).1
    ({ line := l.1, lo := lo, n := l.2.length, segs := reduceSegs op f r (at_ x.1) (at_ y.1) lo (lo + l.2.length),
       flags := (flagsOf x.1).or (flagsOf y.1), tally := x.2.add y.2 } : RedLine))
  let key := partKey (if span.isSome then { w with half := 0 } else w) a.out
  let join (l : List Res) : Res := treeOf (redJoin op f r) (0, {}) l
  let g := lines.foldl (fun (b : SMap Nat × List (Nat × Res)) l =>
    if l.n = sp.total then (b.1, b.2 ++ [(l.line, join l.segs)])
    else
      let m := (l.segs.zipIdx).foldl (fun (m : SMap Nat) x => m.insert (segKey l.line (l.lo / 4096 + x.2)) x.1.1) b.1
      (m, b.2 ++ ((lineResult m l.line sp).toList).map (fun z => (l.line, join (z.map (fun x => (x, {}))))))) (c.parts.get [] key, [])
  let d : WoDone := { w := w, kind := 2,
                      flags := lines.foldl (fun x l => (x.or l.flags).or (flagsOf l.segs)) (flagsOf (g.2.map (·.2))),
                      tally := lines.foldl (fun x l => x.add l.tally) Tally.zero }
  storeReduced f { c with parts := c.parts.put [] key g.1 } w a (g.2.map (fun q => (q.1, q.2.1))) d

end Sys2Proof.Machine
end

