-- ==== Sys2Proof/Machine/Pegs.lean ====
section
/-! DEFINITION. Pegs, their owners and remote operations (R377-R384), and the report of a finished work order (R267, R379). -/

namespace Sys2Proof.Machine

/-- A peg by key (hall × 1,024 + number). -/
def getPeg (s : State) (k : Nat) : Peg := s.pegs.get {} k

/-- Store a peg; a free peg is not listed. -/
def putPeg (s : State) (k : Nat) (p : Peg) : State := { s with pegs := s.pegs.put {} k p }

/-- The owner tag of a context of this device (R319, R382). -/
def ctxTag (s : State) (ctx : Nat) : Nat := ctx % 1024 + deviceId s * 2 ^ 20

/-- The line of a peg's group: REACHED AND EVT_EN over its 32 pegs (R389). -/
def groupLevel (s : State) (k : Nat) : Bool :=
  (List.range 32).any (fun i =>
    let p := getPeg s (k / 32 * 32 + i)
    p.reached && p.evtEn)

/-- Bring a peg group's line to its level. -/
def updateGroup (s : State) (k : Nat) : State := setLine s (272 + k / 32) (groupLevel s k)

/-- A finished work order joins the reports of its context. -/
def addDone (s : State) (d : WoDone) : State := modCtx s d.w.ctx (fun c => { c with done := c.done ++ [d] })

/-- End one wait with a status: a local wait operation completes, a remote waiter gets its release (R380, R383). -/
def endWait (status : Nat) (s : State) (x : PegWait) : State :=
  match x.device with
  | some d => sendRouted s d 0 1 0 (.release x.ref status)
  | none => if x.op then addDone s { w := x.w, kind := 4, status := status } else s

/-- After every operation: reached when COUNT ≥ TARGET, waits released, event raised (R380). -/
def settlePeg (s : State) (k : Nat) : State :=
  let p := getPeg s k
  if decide (p.target ≤ p.count) && !p.reached then
    let s1 := putPeg s k { p with reached := true, waits := [] }
    updateGroup (p.waits.foldl (endWait 0) s1) k
  else updateGroup s k

/-- The peg operations of R379. -/
inductive PegOp where
  | arrive | wait | set | reset | query
  deriving DecidableEq, Repr

/-- OP codes 0 to 4. -/
def PegOp.ofCode : Nat → Option PegOp
  | 0 => some .arrive
  | 1 => some .wait
  | 2 => some .set
  | 3 => some .reset
  | 4 => some .query
  | _ => none

/-- The OP code. -/
def PegOp.code : PegOp → Nat
  | .arrive => 0
  | .wait => 1
  | .set => 2
  | .reset => 3
  | .query => 4

/-- What an operation answers: status, and whether a wait was registered. -/
structure PegAns where
  s : State
  status : Nat := 0
  held : Bool := false

/-- The page of a peg's hall. -/
def pegPg (k : Nat) : Page := pgPeg (k / 1024)

/-- Apply an operation to a bound peg whose owner matched (R379, R380). A closed COMMIT instance counts no arrive (R217). -/
def applyPeg (s : State) (k : Nat) (op : PegOp) (v : Nat) (wt : PegWait) : PegAns :=
  let p := getPeg s k
  match op with
  | .arrive =>
    if p.closed then { s := s }
    else
      let c := p.count + (if v = 0 then 1 else v)
      let s1 := putPeg s k { p with count := min c 0xFFFFFFFF }
      let s2 := if c > 0xFFFFFFFF then setErr s1 (pegPg k) 1 else s1
      { s := settlePeg s2 k }
  | .wait =>
    if p.target ≤ p.count then { s := endWait 0 s wt }
    else { s := putPeg s k { p with waits := p.waits ++ [wt] }, held := true }
  | .set =>
    { s := settlePeg (putPeg s k { p with target := v, reached := p.reached && decide (v ≤ p.count) }) k }
  | .reset => { s := settlePeg (putPeg s k { p with count := 0, reached := false, closed := false }) k }
  | .query => { s := s }

/-- The three tests of R382 in their order, then the operation. -/
def pegOpOn (s : State) (k : Nat) (tag : Nat) (op : PegOp) (v : Nat) (wt : PegWait) : PegAns :=
  let p := getPeg s k
  if s.fence.contains tag then { s := setErr s (pegPg k) 2, status := 0x21 }
  else if !p.bound then { s := setErr s (pegPg k) 3, status := 0x1A }
  else if p.owner % 2 ^ 20 ≠ tag % 2 ^ 20 then { s := setErr s (pegPg k) 0, status := 0x19 }
  else applyPeg s k op v wt

/-- Bind a free peg to a context (R378, R282). -/
def bindPeg (s : State) (k ctx target : Nat) : State :=
  putPeg s k { count := 0, target := target, owner := ctxTag s ctx, bound := true }

/-- Return a bound peg to its bound state (R378). -/
def resetPeg (s : State) (k target : Nat) : State :=
  let p := getPeg s k
  updateGroup (putPeg s k { p with count := 0, target := target, reached := false, closed := false }) k

/-- Free a peg; its waits end with a status (R377). -/
def freePeg (status : Nat) (s : State) (k : Nat) : State :=
  let p := getPeg s k
  updateGroup (p.waits.foldl (endWait status) (putPeg s k {})) k

/-- The plan-peg numbers by which remote operations name the commit peg: COMMIT, SKIP, REPEAT (log entry 19). -/
def commitPlanPeg (i : Nat) : Nat := 0x1000 + i

/-- The physical peg behind a plan peg or commit peg number of a context (R282). -/
def pegKeyOf (c : Ctx) (pp : Nat) : Option Nat :=
  if pp < 0x1000 then c.pegs.find pp else c.commitPegs[pp - 0x1000]?

/-- A device may operate on a context's pegs: a member of one of its groups, a twin of one, or the member this device is twin to
(R383). -/
def mayOperate (s : State) (ctx src : Nat) : Bool :=
  let c := getCtx s ctx
  (match c.plan with
    | some p => p.groups.any (fun g => g.members.any (fun m => m.1 == src))
    | none => false) || s.twin.twin == some src || s.twin.member == some src || c.moved.any (fun e => e.2 == src) ||
    c.lastTwins.any (fun e => e.2 == src) || (match c.attempt with
      | some a => a.notices.any (fun e => e.2.twin == some src)
      | none => false)

/-- A work order whose peg lies on this device. -/
def localPegOp (s : State) (w : WoHdr) (op : PegOp) (a : PegArgs) : State :=
  let c := getCtx s w.ctx
  match pegKeyOf c a.peg with
  | none => addDone (setErr s (pgPeg w.hall) 3) { w := w, kind := 4, status := 0x1A, always := op == .query }
  | some k =>
    let p := getPeg s k
    let r := pegOpOn s k (ctxTag s w.ctx) op a.value { ctx := w.ctx, op := true, w := w }
    if r.held then r.s
    else if op == .wait && r.status == 0 then r.s
    else addDone r.s { w := w, kind := 4, status := r.status, always := op == .query,
                       c0 := if op == .query then p.count else 0, c1 := if op == .query then p.target else 0 }

/-- A work order whose peg lies on another device: a PROTO 1 packet; to a lost device it ends FAILED (R322, R383). -/
def remotePegSend (s : State) (w : WoHdr) (op : PegOp) (a : PegArgs) : State :=
  if s.lostDevs.contains a.device then addDone s { w := w, kind := 4, status := 0x20, always := op == .query }
  else
    let r := s.nextRef
    let d : WoDone := { w := w, kind := 4, always := op == .query, c1 := a.device, c2 := if op == .wait then 1 else 0 }
    sendRouted { s with nextRef := r + 1, pegRefs := s.pegRefs.insert r d } a.device 0 1 0
      (.pegOp { src := deviceId s, ref := r, ctx := w.ctx, peg := a.peg, op := op.code, value := a.value, tag := ctxTag s w.ctx })

/-! Starting and reporting work orders. -/

/-- The queue a work order stands in: its slot's bay queue or joiner queue (R6). -/
def queueKey (w : WoHdr) (unit : Nat) : Nat := ((w.hall * 16 + w.aisle) * 68 + w.slot) * 4 + unit

/-- The plan of a context is a simulation plan. -/
def simCtx (s : State) (n : Nat) : Bool :=
  match (getCtx s n).plan with
  | some p => p.cls != 0
  | none => false

/-- Take a work order out of its member's queue. One that is run again after a gallery fault, having completed before, arrives
on no DONEPEG (R322): the header it runs under. A simulation context keeps what its members ran since the last WAITPEG. -/
def takeQueued (s : State) (w : WoHdr) (unit : Nat) : State × WoHdr :=
  let k := queueKey w unit
  let q := s.queues.get [] k
  match q.find? (fun e => e.ctx == w.ctx && e.template == w.template) with
  | none => (s, w)
  | some e =>
    let s1 := { s with queues := s.queues.put [] k (q.erase e) }
    let s2 := if simCtx s w.ctx then
        { s1 with ran := s1.ran.put [] k ((if w.waitPeg = 0xFFFF then s1.ran.get [] k else []) ++ [{ e with again := true }]) }
      else s1
    (s2, if e.again then { w with donePeg := 0xFFFF } else w)

/-- Two work orders address the same member. -/
def sameMember (a b : WoHdr) : Bool := a.hall == b.hall && a.aisle == b.aisle && a.slot == b.slot

/-- A wait operation of this member is still held, here or at another device (R379, R383). -/
def waitHeld (s : State) (w : WoHdr) : Bool :=
  s.pegs.any (fun e => e.2.waits.any (fun x => x.op && sameMember x.w w)) ||
    s.pegRefs.any (fun e => e.2.c2 == 1 && sameMember e.2.w w)

/-- A work order stands behind another in its member's queue, or behind a wait operation of the joiner's queue (R7, R379). -/
def queuedBehind (s : State) (w : WoHdr) (unit : Nat) : Bool :=
  let q := s.queues.get [] (queueKey w unit)
  let own (e : QEntry) : Bool := e.ctx == w.ctx && e.template == w.template
  (q.any own && !(q.take 1).any own) || (unit == 3 && waitHeld s w)

/-- What the start of a work order comes to: it runs, under a header, or the state it leaves without running. -/
inductive Begun where
  | go (s : State) (w : WoHdr)
  | stop (s : State)

/-- The start of a work order: not before those ahead of it in its queue. WAITPEG acts as a wait issued before it starts (R379): a
peg short of its target holds it in its queue; a peg that refuses the tag ends it with that status (R382). -/
def startWork (s : State) (w : WoHdr) (unit kind : Nat) : Begun :=
  if queuedBehind s w unit then .stop s
  else if w.waitPeg = 0xFFFF then .go (takeQueued s w unit).1 (takeQueued s w unit).2
  else
    match pegKeyOf (getCtx s w.ctx) w.waitPeg with
    | none => .stop (addDone (setErr (takeQueued s w unit).1 (pgPeg w.hall) 3) { w := w, kind := kind, status := 0x1A })
    | some k =>
      let x : PegWait := { ctx := w.ctx, w := w }
      if (getPeg s k).waits.contains x then .stop s
      else
        let r := pegOpOn s k (ctxTag s w.ctx) .wait 0 x
        if r.held then .stop r.s
        else if r.status ≠ 0 then .stop (addDone (takeQueued r.s w unit).1 { w := w, kind := kind, status := r.status })
        else .go (takeQueued r.s w unit).1 (takeQueued r.s w unit).2

/-- The 32-byte completion record of R267. -/
def completionBody (s : State) (d : WoDone) : List Byte :=
  natLe (d.status % 256 + (d.kind % 16) * 256 + (d.w.layer % 2 ^ 16) * 2 ^ 16) 4 ++
    natLe (unitOfKey (memberGal s d.w)) 4 ++ natLe d.flags.toNat 4 ++ natLe (sat32 d.c0) 4 ++ natLe (sat32 d.c1) 4 ++
    natLe (sat32 d.c2) 4 ++ natLe d.w.template 4 ++ natLe 0 4

/-- A completion record is written: any status but OK, MX movements, queries, evaluation passes and kernels (R267). -/
def wantsRecord (d : WoDone) : Bool := d.status != 0 || d.always

/-- PEND takes the larger value (R84). -/
def reportMax (c : Ctx) (m : Nat × Nat) : Ctx :=
  let g := c.gauges.get {} m.1
  { c with gauges := c.gauges.put {} m.1 { g with pend := max g.pend m.2 } }

/-- A gauge trips and joins the attempt's trip set (R88, R233). -/
def reportTrip (c : Ctx) (gi : Nat) : Ctx :=
  let g := c.gauges.get {} gi
  { c with
    gauges := c.gauges.put {} gi { g with trip := true }
    attempt := c.attempt.map (fun a => { a with tripSet := if a.tripSet.contains gi then a.tripSet else a.tripSet ++ [gi] }) }

/-- What hub A takes from a work order's report: tallies, maxima, trips, flags (R84, R96, R242). -/
def absorb (c : Ctx) (d : WoDone) : Ctx :=
  let k := woKey d.w
  let c1 := { c with flags := c.flags.or d.flags, loose := (c.loose + (if d.kind = 6 then d.c0 else 0)) % 2 ^ 64,
                     fallback := sat32 (c.fallback + (if d.kind = 6 then d.c1 else 0)) }
  match c1.attempt, c1.evalRun with
  | some a, _ =>
    let c2 := { c1 with attempt := some (if d.w.phase = 2 then { a with btally := a.btally.put .zero k ((a.btally.get .zero k).add d.tally) }
      else { a with tally := a.tally.put .zero k ((a.tally.get .zero k).add d.tally) }) }
    d.trips.foldl reportTrip (d.maxima.foldl reportMax c2)
  | none, some e => { c1 with evalRun := some { e with tally := e.tally.put .zero d.w.layer ((e.tally.get .zero d.w.layer).add d.tally),
                                                       failed := e.failed || d.status == 0x20 } }
  | none, none => c1

/-- The queue unit of a template: bays F, X, W for matrix tiles, the joiner's for the rest (R6, R264). -/
def templateUnit (t : Template) : Nat :=
  if bits (t.words.getD 0 0) 3 0 = 0 then min (bits (t.words.getD 7 0) 1 0) 2 else 3

/-- A bay's work order completes: bit 30 of its F-array page for bay F, bits 30 and 29 of its B-array page for bays X and W (R430). -/
def bayEvent (s : State) (d : WoDone) : State :=
  match (getCtx s d.w.ctx).plan with
  | none => s
  | some p =>
    let k := memberGal s d.w
    let u := templateUnit (p.templates.getD d.w.template ⟨[]⟩)
    let fa := pgFArray (k / 68 / 16) (k / 68 % 16) (k % 68)
    let ba := pgBArray (k / 68 / 16) (k / 68 % 16) (k % 68)
    if d.kind ≠ 0 then s
    else match u with
      | 0 => setEvt s fa (2 ^ 30)
      | 1 => setEvt s ba (2 ^ 30)
      | 2 => setEvt s ba (2 ^ 29)
      | _ => s

/-- A finished work order reports: hub A absorbs it, the bay's event is set, its DONEPEG gets one arrive, a completion record follows
where R267 asks for one. -/
def reportWork (s0 : State) (d : WoDone) : State :=
  let s := bayEvent s0 d
  let s1 := modCtx s d.w.ctx (fun c => absorb c d)
  let s2 := match (if d.w.donePeg = 0xFFFF then none else pegKeyOf (getCtx s1 d.w.ctx) d.w.donePeg) with
    | some k => (pegOpOn s1 k (ctxTag s1 d.w.ctx) .arrive 1 { ctx := d.w.ctx }).s
    | none => s1
  if wantsRecord d then pushRec s2 1 d.w.ctx (completionBody s2 d) else s2

/-! The commands. -/

/-- The work of a context is live: an attempt not yet decided or stopped, or a pass that has not failed. -/
def workLive (c : Ctx) : Bool :=
  match c.attempt, c.evalRun with
  | some a, _ => !a.discard && a.outcome.isNone
  | none, some e => !e.failed
  | none, none => false

/-- The member exists and its context's work is live. -/
def mayWork (s : State) (w : WoHdr) : Bool :=
  let c := getCtx s w.ctx
  c.state == 2 && workLive c && (galAt s w.hall w.aisle w.slot).isSome && decide (w.slot < 66)

/-- The member's power gate is open and its hall awake (R395, R397). -/
def memberPowered (s : State) (w : WoHdr) : Bool := (getGal s (memberGal s w)).powered && !bit s.power.asleep w.hall

/-- Work for a member without power waits and asks for it: a sleeping hall begins its wake (R395, R397). -/
def askPower (s : State) (w : WoHdr) : State :=
  if bit s.power.asleep w.hall then { s with power := { s.power with waking := setBits s.power.waking w.hall w.hall 1 } } else s

/-- A peg-operation work order (R379, R383). -/
def pegWork (op : PegOp) (w : WoHdr) (a : PegArgs) (s : State) : State :=
  if !mayWork s w then s
  else if !memberPowered s w then askPower s w
  else match startWork s w 3 4 with
  | .stop s => s
  | .go s w => if a.device = 0xFFFF then localPegOp s w op a else remotePegSend s w op a

/-- WAIT (R379). -/
def execWait (w : WoHdr) (a : PegArgs) (s : State) : Host.Outcome State Fault Refusal := .next (pegWork .wait w a s)
/-- SET (R379). -/
def execSet (w : WoHdr) (a : PegArgs) (s : State) : Host.Outcome State Fault Refusal := .next (pegWork .set w a s)
/-- RESET (R379). -/
def execReset (w : WoHdr) (a : PegArgs) (s : State) : Host.Outcome State Fault Refusal := .next (pegWork .reset w a s)
/-- QUERY (R379). -/
def execQuery (w : WoHdr) (a : PegArgs) (s : State) : Host.Outcome State Fault Refusal := .next (pegWork .query w a s)

/-- Answer a remote peg operation (R383). -/
def ackPeg (s : State) (m : PegMsg) (status count target : Nat) : State :=
  sendRouted s m.src 0 1 0 (.pegAck m.ref status count target)

/-- The OP code that closes a COMMIT instance (R217; the spec names none: log entry 19). -/
def opClose : Nat := 5

/-- Close a COMMIT instance: it counts no further arrive (R217). -/
def closePeg (s : State) (k : Nat) : State := putPeg s k { getPeg s k with closed := true }

/-- REMOTE_PEG_OP: resolved in the own context of the same number, refused from a stranger, applied and answered (R383). A
lost device's tag is fenced (R320). -/
def remotePegOp (s : State) (m : PegMsg) : State :=
  if !mayOperate s m.ctx m.src then ackPeg s m 0x19 0 0
  else
    match pegKeyOf (getCtx s m.ctx) m.peg with
    | none => ackPeg (setErr s (pgPeg 0) 3) m 0x1A 0 0
    | some k =>
      match PegOp.ofCode m.op with
      | none =>
        if m.op = opClose && !s.fence.contains m.tag then
          let p := getPeg s k
          ackPeg (closePeg s k) m 0 p.count p.target
        else ackPeg s m 0x0C 0 0
      | some op =>
        let p := getPeg s k
        let r := pegOpOn s k m.tag op m.value { ctx := m.ctx, device := some m.src, ref := m.ref }
        ackPeg r.s m r.status (if op == .query then p.count else 0) (if op == .query then p.target else 0)

/-- PEG_ACK: the sender's work order completes on the acknowledgement; a wait that was accepted goes on waiting (R383). -/
def pegAcked (s : State) (ref status count target : Nat) : State :=
  match s.pegRefs.find ref with
  | none => s
  | some d =>
    if d.c2 = 1 && status = 0 then s
    else addDone { s with pegRefs := s.pegRefs.erase ref } { d with status := status, c0 := count, c1 := target, c2 := 0 }

/-- WAIT_RELEASE: a remote wait ends (R383). -/
def execWaitRelease (ref status : Nat) (s : State) : Host.Outcome State Fault Refusal :=
  match s.pegRefs.find ref with
  | none => .next s
  | some d => .next (addDone { s with pegRefs := s.pegRefs.erase ref } { d with status := status, c1 := 0, c2 := 0 })

/-- WORK_ORDER_COMPLETE: the oldest finished work order of the context reports (R267). -/
def execWorkOrderComplete (ctx : Nat) (s : State) : Host.Outcome State Fault Refusal :=
  match (getCtx s ctx).done with
  | [] => .next s
  | d :: t => .next (reportWork (modCtx s ctx (fun c => { c with done := t })) d)

/-- Room of a member queue: 16 in a bay, 64 in a gallery (R6). -/
def queueRoom (unit : Nat) : Nat := if unit = 3 then 64 else 16

/-- FRAME_QUEUE_ACCEPT: the work order at the head of the frame's queue goes to every member, in member order, when every
member has room; otherwise the frame queue waits (R7). -/
def execFrameQueueAccept (ctx frame : Nat) (s : State) : Host.Outcome State Fault Refusal :=
  let c := getCtx s ctx
  match c.frameQueues.get [] frame, c.plan with
  | ti :: rest, some p =>
    let u := templateUnit (p.templates.getD ti ⟨[]⟩)
    let ks := (c.frames.get [] frame).map (fun (m : Slot) => ((m.hall * 16 + m.aisle) * 68 + m.slot) * 4 + u)
    if ks.all (fun k => decide ((s.queues.get [] k).length < queueRoom u)) then
      let s1 := { s with queues := ks.foldl (fun q k => q.put [] k (q.get [] k ++ [{ ctx := ctx, template := ti }])) s.queues }
      .next (putCtx s1 ctx { c with frameQueues := c.frameQueues.put [] frame rest })
    else .next s
  | _, _ => .next s

end Sys2Proof.Machine
end

