-- ==== Sys2Proof/Machine/Events.lean ====
section
/-! DEFINITION. The event controller (R386-R390) and the pending bits of the pages (R430). -/

namespace Sys2Proof.Machine

/-- Raise a private source of a processor: its pending bit (R386). Sources 9 to 31 are never raised. -/
def raisePrivate (s : State) (proc src : Nat) : State :=
  if proc ≤ 4 ∧ src ≤ 8 then
    { s with ec := { s.ec with ppend := s.ec.ppend.put 0 proc (s.ec.ppend.get 0 proc ||| 2 ^ src) } }
  else s

/-- The lowest private source of a processor that is pending and enabled. -/
def nextPrivate (s : State) (proc : Nat) : Option Nat :=
  (List.range 9).find? (fun i => bit (s.ec.ppend.get 0 proc) i && bit (s.ec.pen.get 0 proc) i)

/-- The lowest shared source routed to a processor that is pending and enabled. -/
def nextShared (s : State) (proc : Nat) : Option Nat :=
  (s.ec.shared.find? (fun e => e.2.pend && e.2.en && e.2.target == proc)).map (·.1)

/-- EC_NEXT: private sources first, reported as 640 + i, then shared ones; VALID in bit 15 (R388). -/
def ecNext (s : State) (proc : Nat) : Nat :=
  match nextPrivate s proc, nextShared s proc with
  | some i, _ => 640 + i + 2 ^ 15
  | none, some n => n + 2 ^ 15
  | none, none => 0

/-- A processor's interrupt input is asserted (R388). -/
def interrupted (s : State) (proc : Nat) : Bool := (nextPrivate s proc).isSome || (nextShared s proc).isSome

/-- A write to EC_SCFG: route, enable, clear; a reserved TARGET keeps the old one and sets ROUTE_INV (R388, R391). -/
def ecScfgWrite (s : State) (w : Nat) : State :=
  let n := fld s pgEvent Reg.EC_SSEL 9 0
  let x := getSrc s n
  let t := bits w 2 0
  let s1 := putSrc s n { x with target := if t ≤ 4 then t else x.target, en := bit w 3,
                                pend := if bit w 4 then false else x.pend }
  if t ≤ 4 then s1 else setErr s1 pgEvent 0

/-- A write to EC_RING: the writer's doorbell source at the target; targets 5 to 7 and the writer itself are ignored
(R386, R391). -/
def ecRingWrite (s : State) (writer target : Nat) : State :=
  if target ≤ 4 ∧ target ≠ writer ∧ writer ≤ 4 then raisePrivate s target writer else s

/-- A write to PG_GREACH: clears REACHED bits of the selected peg's group; if an enabled REACHED bit remains the line drops
and rises again (R389). -/
def pgGreachWrite (s : State) (hall w : Nat) : State :=
  let k0 := hall * 1024 + fld s (pgPeg hall) Reg.PG_SEL 9 0 / 32 * 32
  let s1 := (List.range 32).foldl (fun s i =>
    if bit w i then putPeg s (k0 + i) { getPeg s (k0 + i) with reached := false } else s) s
  let n := 272 + k0 / 32
  if groupLevel s1 k0 then pulseLine s1 n else setLine s1 n false

/-- A write to EVT_SET: sets pending bits (R430). -/
def evtSetWrite (s : State) (p : Page) (w : Nat) : State := setEvt s p w

/-- Save pending bits, enables and routes into the retention registers (R390). -/
def saveRetention (s : State) : State :=
  if bit (regGet s pgEvent Reg.EC_CTRL) 0 then
    { s with ec := { s.ec with image := some { shared := s.ec.shared, ppend := s.ec.ppend, pen := s.ec.pen } } }
  else s

/-- Every line's previous level is 0 after a restore: each line that is high latches. -/
def relatch (s : State) : State :=
  { s with ec := { s.ec with shared := s.ec.shared.map (fun e => (e.1, { e.2 with pend := e.2.pend || e.2.level })) } }

/-- Restore the retention image on wake, with what latched meanwhile; a bad CRC resets every field, sets pending each source
whose line is high and sets RET_FAIL (R390). -/
def restoreRetention (s : State) : State :=
  match s.ec.image with
  | none => s
  | some r =>
    let lvl (n : Nat) : Bool := (getSrc s n).level
    if r.crcOk then
      let high := (s.ec.shared.filter (fun e => e.2.level)).map (fun e => (e.1, ({ level := true } : Source)))
      let base := r.shared.foldl (fun m e => SMap.put {} e.1 { e.2 with level := lvl e.1 } m) high
      let s1 := { s with ec := { s.ec with shared := base, ppend := r.ppend, pen := r.pen, image := none } }
      let s2 := r.late.foldl (fun s n => putSrc s n { getSrc s n with pend := true }) s1
      relatch s2
    else
      let s1 := { s with ec := { s.ec with
        shared := (s.ec.shared.filter (fun e => e.2.level)).map (fun e => (e.1, { pend := true, level := true : Source })),
        ppend := [], pen := [], image := none } }
      setErr s1 pgEvent 1

/-! The commands. -/

/-- EC_RING (R386). -/
def execEcRing (writer target : Nat) (s : State) : Host.Outcome State Fault Refusal := .next (ecRingWrite s writer target)

/-- EC_SCFG (R388). -/
def execEcScfg (x : Word) (s : State) : Host.Outcome State Fault Refusal := .next (ecScfgWrite s x.toNat)

/-- PG_GREACH (R389). -/
def execPgGreach (hall : Nat) (x : Word) (s : State) : Host.Outcome State Fault Refusal :=
  .next (pgGreachWrite s (hall % 8) x.toNat)

/-- EVT_SET (R430): a page address that maps to no page names none. -/
def execEvtSet (page : Nat) (x : Word) (s : State) : Host.Outcome State Fault Refusal :=
  match pageOf page with
  | some p => .next (evtSetWrite s p x.toNat)
  | none => .next s

/-- LOCAL_TIMER: private source 5 (R386). -/
def execLocalTimer (proc : Nat) (s : State) : Host.Outcome State Fault Refusal := .next (raisePrivate s proc 5)

/-- WATCHDOG_WARNING: private source 6 (R386). -/
def execWatchdogWarning (proc : Nat) (s : State) : Host.Outcome State Fault Refusal := .next (raisePrivate s proc 6)

/-- CACHE_ERROR: private source 7 for a corrected error, 8 for an uncorrectable one (R386). -/
def execCacheError (proc : Nat) (corrected : Bool) (s : State) : Host.Outcome State Fault Refusal :=
  .next (raisePrivate s proc (if corrected then 7 else 8))

end Sys2Proof.Machine
end

