-- ==== Sys2Proof/Machine/HostOps.lean ====
section
/-! DEFINITION. Sessions, responses, buffer references, transfers (R361-R373): what every host command shares. -/

namespace Sys2Proof.Machine

/-! Status codes (R267, R275, R368). -/

def stOk : Nat := 0x00
def stUnitInvalid : Nat := 0x01
def stPlanInvalid : Nat := 0x10
def stPlanMismatch : Nat := 0x16
def stPlanSuperseded : Nat := 0x17
def stTagBusy : Nat := 0x18
def stCtxInvalid : Nat := 0x30
def stCtxBusy : Nat := 0x31
def stActiveLimit : Nat := 0x32
def stNoUnits : Nat := 0x33
def stNoPegs : Nat := 0x34
def stNoMemory : Nat := 0x35
def stImageInvalid : Nat := 0x36
def stGenMismatch : Nat := 0x37
def stSeedMissing : Nat := 0x38
def stStackOverflow : Nat := 0x39
def stStepLimit : Nat := 0x3A
def stSuspended : Nat := 0x3B
def stSessionInvalid : Nat := 0x40
def stStaleSeq : Nat := 0x41
def stOpcodeInvalid : Nat := 0x42
def stQpInvalid : Nat := 0x43
def stQpBusy : Nat := 0x44
def stBusy : Nat := 0x45
def stHostIo : Nat := 0x46
def stAddrInvalid : Nat := 0x47
def stLengthInvalid : Nat := 0x48
def stNotAllowed : Nat := 0x49

/-! Responses. -/

/-- Keep the responses to the last 64 commands (R367). -/
def keepAnswer (x : Session) (r : Resp) : Session :=
  { x with answers := (x.answers ++ [r]).drop ((x.answers.length + 1) - 64), open_ := x.open_.erase r.seq,
           high := max x.high r.seq }

/-- Answer a command: a datagram back to its source and into the session's window, a SEND on a ring's QP with the consumer
index, its payload at most 28 bytes (R366, R367, R370); the device's own requests are answered to nobody. -/
def respond (s : State) (o : Origin) (status : Nat) (payload : List Byte) : State :=
  match o with
  | .session id seq src _ =>
    let r : Resp := { session := id, seq := seq, status := status, payload := payload, src := src }
    emit { s with host := { s.host with sessions := (match s.host.sessions.find id with
      | some x => s.host.sessions.insert id (keepAnswer x r)
      | none => s.host.sessions) } } (.resp r)
  | .ring id seq _ =>
    let long := decide (payload.length > 28)
    let cons := match s.host.rings.find id with
      | some q => q.consumer
      | none => 0
    emit s (.send { session := id, seq := seq, status := if long then stLengthInvalid else status,
                    payload := if long then [] else payload, ring := some id, consumer := cons })
  | .device => s

/-- Answer with a status alone. -/
def answer (s : State) (o : Origin) (status : Nat) : State := respond s o status []

/-- The device's ring of a command (R371 arrival order in the fault log, R276, R374 KIND 7). -/
def logArrival (s : State) (seq id : Nat) : State := logFault s { kind := 7, d0 := seq, d1 := id }

/-! Buffer references and transfers (R363). -/

/-- A queue pair is connected and not in error. -/
def qpUp (s : State) (q : Nat) : Bool :=
  match s.host.qps.find q with
  | some x => !x.error
  | none => false

/-- The status a buffer reference is refused with, or 0 (R363). -/
def bufStatus (s : State) (b : BufRef) (limit : Nat) (zeroOk : Bool) : Nat :=
  if b.len = 0 && zeroOk then 0
  else if !qpUp s b.qp then stQpInvalid
  else if b.len = 0 || b.len > limit then stLengthInvalid
  else 0

/-- Begin a transfer to or from host memory: an RDMA READ or WRITE leaves, its completion is awaited (R363). -/
def startXfer (s : State) (qp : Nat) (k : XferKind) : Nat × State :=
  let id := s.host.nextXfer
  (id, { s with host := { s.host with xfers := s.host.xfers.insert id ⟨qp, k⟩, nextXfer := id + 1 } })

/-- Begin an RDMA READ. -/
def startRead (s : State) (b : BufRef) (k : XferKind) : State :=
  let r := startXfer s b.qp k
  emit r.2 (.read r.1 b)

/-- Begin an RDMA WRITE. -/
def startWrite (s : State) (b : BufRef) (data : List Byte) (k : XferKind) : State :=
  let r := startXfer s b.qp k
  emit r.2 (.write b data)

/-- A recovery of the fault manager is running (R316, R339 FM_STAT.BUSY). -/
def recovering (s : State) : Bool := s.recovery.isSome

/-- Record a priority 0 dispatch time and judge its bound (R372). -/
def noteLatency (s : State) (h : Hdr) (payload : Nat) : State :=
  if h.prio ≠ 0 then s
  else
    let s1 := keepMax (regSet s pgHost Reg.HP_P0_LAST_NS (min h.lat 0xFFFFFFFF)) pgHost Reg.HP_P0_MAX_NS h.lat
    if h.lat > 4000 ∧ h.p0 ≤ 4 ∧ payload ≤ 1024 ∧ recovering s = false then
      logFault (setErr s1 pgHost 0) { kind := 8, d0 := 0 }
    else s1

/-- A packet from outside the allow-list is discarded and counted (R361). -/
def allowed (s : State) (src : Nat) : Bool := s.host.net.allow.isEmpty || s.host.net.allow.contains src

/-- Count a discarded frame or datagram (R360, R361, R366). -/
def dropFrame (s : State) : State := bumpSat s pgHost Reg.HP_DROP 31 0 1

/-- What the session window decides about a datagram (R367). -/
inductive Gate where
  | run (s : State)
  | done (s : State)

/-- The session window of R367: an answered SEQ gets its stored response again, one below the window is refused with
STALE_SEQ, one in progress is not executed twice, a full window is refused with BUSY; otherwise the command is executed. -/
def sessionGate (h : Hdr) (s : State) : Gate :=
  match s.host.sessions.find h.session with
  | none => .done (emit s (.resp { session := h.session, seq := h.seq, status := stSessionInvalid, src := h.src }))
  | some x =>
    match x.answers.find? (fun r => r.seq == h.seq) with
    | some r => .done (emit s (.resp { r with src := h.src }))
    | none =>
      if x.open_.contains h.seq then .done s
      else if h.seq + 64 ≤ x.high || h.seq = 0 then
        .done (emit s (.resp { session := h.session, seq := h.seq, status := stStaleSeq, src := h.src }))
      else if x.open_.length ≥ 64 then
        .done (emit s (.resp { session := h.session, seq := h.seq, status := stBusy, src := h.src }))
      else .run { s with host := { s.host with sessions := s.host.sessions.insert h.session { x with open_ := x.open_ ++ [h.seq] } } }

end Sys2Proof.Machine
end

