-- ==== Sys2Proof/Machine/Slices.lean ====
section
/-! DEFINITION. Slice-mode products (R245-R250) and the joiner product (R244) of simulation kernels. -/

namespace Sys2Proof.Machine

/-- The balanced base-256 digits of an integer, most significant first (R246). -/
def digitsOf : Nat → Int → List Int → List Int
  | 0, _, acc => acc
  | n + 1, v, acc =>
    let r := (v + 128) % 256 - 128
    digitsOf n ((v - r) / 256) (r :: acc)

/-- The largest balanced magnitude of s digits (R246). -/
def digitMax (s : Nat) : Nat := 127 * (256 ^ s - 1) / 255

/-- One row or column split: exponent, exactness, digits of each element (R246). -/
structure SplitRow where
  e : Int
  exact : Bool
  digits : List (List Int)
  deriving DecidableEq, Repr

/-- The integers of a row under an exponent, and whether every one is exact. -/
def splitAt (s : Nat) (e : Int) (xs : List Fp) : List Int × Bool :=
  let k : Int := 8 * s - 1 - e
  (xs.map (fun x => rneInt (x.scale k)),
    xs.all (fun x => decide (cmpScaled (x.scale k).toInt (rneInt (x.scale k), 0) = 0)))

/-- Split a row of values; digits of a non-finite element are zero (R246, R249). -/
def splitRow (s : Nat) (xs0 : List Fp) : SplitRow :=
  let xs := xs0.map (fun x => if x.nonFinite then Fp.zero false else x)
  let m := magOf xs
  if m.1 = 0 then ⟨0, true, xs.map (fun _ => List.replicate s 0)⟩
  else
    let e := (Nat.log2 m.1 : Int) + m.2 + 1
    let v := splitAt s e xs
    let fits := v.1.all (fun x => decide (x.natAbs ≤ digitMax s))
    let e' := if fits then e else e + 1
    let u := if fits then v else splitAt s e' xs
    ⟨e', u.2, u.1.map (fun x => digitsOf s x [])⟩

/-- The kept digit pairs: p + q ≤ s − 1 (R248). -/
def keptPairs (s : Nat) : List (Nat × Nat) :=
  (List.range s).flatMap (fun p => (List.range (s - p)).map (fun q => (p, q)))

/-- One digit of an element. -/
def digit (r : SplitRow) (k p : Nat) : Int := (r.digits.getD k []).getD p 0

/-- A part of K that one bay takes as one work order (R247). -/
structure SlicePart where
  bay : Nat
  lo : Nat
  len : Nat
  deriving DecidableEq, Repr

/-- Cut a range of K into chunks of at most 65,536 indices; `n` chunks are enough. -/
def chunksOf (bay : Nat) : Nat → Nat → Nat → List SlicePart
  | 0, _, _ => []
  | n + 1, lo, len => if len = 0 then [] else ⟨bay, lo, min len 65536⟩ :: chunksOf bay n (lo + min len 65536) (len - min len 65536)

/-- The division of K among the bays F, X and W in whole groups of 64 indices, 2 : 1 : 1, each share in chunks (R247; which share takes what
is left over and which stands first: log entry 151). -/
def sliceParts (k : Nat) : List SlicePart :=
  let g := (k + 63) / 64
  let x := min (k - min k (64 * (g - 2 * (g / 4)))) (64 * (g / 4))
  let f := min k (64 * (g - 2 * (g / 4)))
  let n := k / 65536 + 1
  chunksOf 0 n 0 f ++ chunksOf 1 n f x ++ chunksOf 2 n (f + x) (k - f - x)

/-- The exact sum of digit products over a part of K: the INT32 sum a bay returns (R247, R248). -/
def partSum (a b : SplitRow) (lo len p q : Nat) : Int := ((List.range len).map (fun k => digit a (lo + k) p * digit b (lo + k) q)).sum

/-- P_pq over all of K: the parts' sums together (R247, R248). -/
def pairSum (a b : SplitRow) (n p q : Nat) : Int := ((sliceParts n).map (fun x => partSum a b x.lo x.len p q)).sum

/-- S of R248. -/
def sliceSum (s n : Nat) (a b : SplitRow) : Int :=
  ((keptPairs s).map (fun pq => pairSum a b n pq.1 pq.2 * (256 ^ (2 * s - 2 - pq.1 - pq.2) : Nat))).sum

/-- Sb_j: the largest sum of digit magnitudes at a position from 1 to s − 1 (R250). -/
def digitSum (s n : Nat) (b : SplitRow) : Nat :=
  ((List.range s).drop 1).foldl (fun m q => max m ((List.range n).map (fun k => (digit b k q).natAbs)).sum) 0

/-- A natural number in binary64, rounded toward plus infinity. -/
def f64up (n : Nat) : Nat := (ieeeOf .fp64 .rup false n 1 0).1

/-- 1.004 in binary64, rounded toward plus infinity (R250). -/
def f64c1004 : Nat := (ieeeOf .fp64 .rup false 1004 1000 0).1

/-- E_ij, one operation at a time toward plus infinity (R250). -/
def errBound (s n : Nat) (a b : SplitRow) : Nat :=
  let t1 := (ieeeMul .fp64 .rup (f64up (s - 1)) f64c1004).1
  let t2 := (ieeeMul .fp64 .rup t1 (f64up (digitSum s n b))).1
  let t3 := (ieeeDiv .fp64 .rup t2 (f64up 128)).1
  let ra := bnat (!a.exact)
  let rb := bnat (!b.exact)
  let t4 := (ieeeMul .fp64 .rup (f64up n) (f64up (ra + rb + ra * rb))).1
  let t5 := (ieeeAdd .fp64 .rup t3 t4).1
  match (decodeIeee .fp64 t5).scale (a.e + b.e - 8 * s) with
  | .fin _ m e => (ieeeOf .fp64 .rup false m 1 e).1
  | _ => FFmt.fp64.infCode false

/-- Half an ulp of a finite result, as an exponent of two. -/
def halfUlpExp (f : FFmt) (y : Fp) : Int :=
  match y with
  | .fin _ m e => (if m = 0 then f.emin else max ((Nat.log2 m : Int) + e) f.emin) - (f.p - 1 : Nat) - 1
  | _ => 0

/-- The element is certified (R250). -/
def certified (f : FFmt) (r : Rnd) (y : Nat) (err : Nat) : Bool :=
  let v := decodeIeee f y
  let e := decodeIeee .fp64 err
  !v.nonFinite && !e.nonFinite &&
    (match r with
      | .rne => decide (cmpScaled e.toInt (1, halfUlpExp f v) ≤ 0)
      | .rna => decide (cmpScaled e.toInt (1, halfUlpExp f v) ≤ 0)
      | _ => e.isZero)

/-- What a product reports. -/
structure SliceOut where
  code : Nat
  flags : IFlags := {}
  loose : Nat := 0
  fallback : Nat := 0
  deriving DecidableEq, Repr

/-- One element of a slice-mode product (R248-R250). -/
def sliceElem (f : FFmt) (r : Rnd) (s n : Nat) (bad : Bool) (xs ys : Nat → Nat) (a b : SplitRow) : SliceOut :=
  if bad then
    let d := joinerDot f r xs ys n
    { code := d.1, flags := d.2, fallback := 1 }
  else
    let sum := sliceSum s n a b
    let y := ieeeOfInt f r (r == .rdn) (sum, a.e + b.e - 14 - 8 * (2 * s - 2))
    let err := errBound s n a b
    { code := y.1, flags := { y.2 with nx := y.2.nx || !(decodeIeee .fp64 err).isZero },
      loose := bnat (!(decodeIeee f y.1).nonFinite && !certified f r y.1 err) }

/-- Codes of row i of an M × K operand. -/
def rowCodes (t : Tensor) (i n : Nat) : List Nat := (List.range n).map (fun k => t.codeAt i k)

/-- Codes of column j of a K × N operand. -/
def colCodes (t : Tensor) (j n : Nat) : List Nat := (List.range n).map (fun k => t.codeAt k j)

/-- A row holds a NaN or an infinity. -/
def badRow (f : FFmt) (l : List Nat) : Bool := l.any (fun q => (decodeIeee f q).nonFinite)

/-- The extent of the product that a kernel's work order belongs to: its template's M and N, or its own where no template stands for it
(R265, R266). -/
def kernelExtent (c : Ctx) (w : WoHdr) (a : SkArgs) : Nat :=
  match c.plan.bind (fun p => p.templates[w.template]?) with
  | some t => if t.words.getD 0 0 % 16 = 6 then t.words.getD 10 0 * t.words.getD 11 0 else a.m * a.n
  | none => a.m * a.n

/-- A kernel's tile joins those of its product: what the work order reports. The flags are the OR so far over the frame's members, and the
last work order of the product returns the counts of the whole product (R242, R250; log entry 152). -/
def kernelReport (c : Ctx) (w : WoHdr) (a : SkArgs) (x : KernelTile) : Ctx × WoDone :=
  let old := (c.kernels.get [] w.template).filter (fun y => !(y.m0 == x.m0 && y.n0 == x.n0 && y.m == x.m && y.n == x.n))
  let all := old ++ [x]
  let last := decide (kernelExtent c w a ≤ (all.map (fun y => y.m * y.n)).sum)
  let d : WoDone := { w := w, kind := 6, flags := all.foldl (fun g y => g.or y.flags) {}, always := true }
  if last then
    ({ c with kernels := c.kernels.put [] w.template [] },
      { d with c0 := (all.map (·.loose)).sum, c1 := (all.map (·.fallback)).sum,
               c2 := (all.flatMap (·.rows)).eraseDups.length + (all.flatMap (·.cols)).eraseDups.length })
  else ({ c with kernels := c.kernels.put [] w.template all }, d)

/-- A simulation kernel over the tile [M0, M0+M) × [N0, N0+N): SUB 0 in slice mode with s digits, SUB 1 by joiner dot products
(R244-R250). -/
def kernelRun (slice : Bool) (s : Nat) (c : Ctx) (w : WoHdr) (a : SkArgs) : Ctx × WoDone :=
  let f : FFmt := if a.prec = 0 then .fp64 else .fp32
  let r := (Rnd.ofCode w.rnd).getD .rne
  let ta := c.open_ a.a
  let tb := c.open_ a.b
  let rows := (List.range a.m).map (fun i =>
    let l := rowCodes ta (a.m0 + i) a.k
    (l, badRow f l, splitRow s (l.map (decodeIeee f))))
  let cols := (List.range a.n).map (fun j =>
    let l := colCodes tb (a.n0 + j) a.k
    (l, badRow f l, splitRow s (l.map (decodeIeee f))))
  let outs := (rows.zipIdx).flatMap (fun x => (cols.zipIdx).map (fun y =>
    let o := if slice then
        sliceElem f r s a.k (x.1.2.1 || y.1.2.1) (nth x.1.1) (nth y.1.1) x.1.2.2 y.1.2.2
      else
        let d := joinerDot f r (nth x.1.1) (nth y.1.1) a.k
        { code := d.1, flags := d.2 }
    (a.m0 + x.2, a.n0 + y.2, o)))
  let fd : Desc := ⟨if a.prec = 0 then .fp64 else .fp32, 3, false⟩
  let t0 := { c.open_ a.c with desc := fd.toByte }
  let t1 := outs.foldl (fun (t : Tensor) o => t.putCode o.1 o.2.1 o.2.2.code) t0
  let inexact (o : Nat) (l : List (List Nat × Bool × SplitRow)) : List Nat :=
    ((l.zipIdx).filter (fun x => slice && !x.1.2.2.exact)).map (fun x => o + x.2)
  kernelReport (c.putTensor a.c t1) w a
    { m0 := a.m0, n0 := a.n0, m := a.m, n := a.n, flags := outs.foldl (fun g o => g.or o.2.2.flags) {},
      loose := (outs.map (·.2.2.loose)).sum, fallback := (outs.map (·.2.2.fallback)).sum,
      rows := inexact a.m0 rows, cols := inexact a.n0 cols }

/-- The slice count in force: 0 selects the default of SM_CTRL, whose values outside the range act as 7 or 3 (R245, R252). -/
def sliceCount (prec s def64 def32 : Nat) : Nat :=
  if s ≠ 0 then s
  else if prec = 0 then (if 6 ≤ def64 ∧ def64 ≤ 9 then def64 else 7)
  else (if 2 ≤ def32 ∧ def32 ≤ 4 then def32 else 3)

/-- The refusals of R245 and R241, in the order the parameters stand: status code, or 0. -/
def kernelStatus (slice : Bool) (w : WoHdr) (a : SkArgs) : Nat :=
  if a.prec > 1 then 0x09
  else if slice && a.s != 0 && !(if a.prec = 0 then decide (6 ≤ a.s ∧ a.s ≤ 9) else decide (2 ≤ a.s ∧ a.s ≤ 4)) then 0x09
  else if a.k = 0 then 0x09
  else if a.k > 16777216 then 0x0A
  else if (Rnd.ofCode w.rnd).isNone then 0x0B
  else 0

end Sys2Proof.Machine
end

