-- ==== Sys2Proof/Machine/Plan.lean ====
section
/-! DEFINITION. Plan images: reading and checking them in the order of R255 (R253-R266), compatibility of a replacing plan
(R272), frame request tables (R277). -/

namespace Sys2Proof.Machine

/-- The number in a record's bytes; bit fields of it are the record's fields. -/
def recNat (img : List Byte) (off n : Nat) : Nat := leNat ((img.drop off).take n)

/-- Round up to a multiple of 64. -/
def align64 (x : Nat) : Nat := (x + 63) / 64 * 64

/-- The records of a section: `n` records of `size` bytes from an offset. -/
def recsAt (img : List Byte) (off size n : Nat) : List Nat := (List.range n).map (fun i => recNat img (off + i * size) size)

/-- A failed check: status and the index of the offending record (R255). -/
structure PlanErr where
  status : Nat
  idx : Nat := 0
  deriving DecidableEq, Repr

/-- The first check that fails, in order. -/
def firstErr : List (Bool × PlanErr) → Option PlanErr
  | [] => none
  | (ok, e) :: t => if ok then firstErr t else some e

/-- Sections: offset and count of each, in the order of R253, and the end. -/
def sections (h : Nat) : List (Nat × Nat × Nat) × Nat :=
  let cs : List (Nat × Nat) := [(bits h 159 128, 32), (bits h 175 160, 64), (bits h 287 256, 4), (bits h 224 208, 8),
    (bits h 180 176, 32), (bits h 383 352, 8), (bits h 203 192, 256), (bits h 319 288, 64)]
  cs.foldl (fun a c =>
    let off := align64 a.2
    (a.1 ++ [(off, c.1, c.2)], off + c.1 * c.2)) ([], 64)

/-- Every gap between sections is zero (R253). -/
def gapsZero (img : List Byte) (secs : List (Nat × Nat × Nat)) : Bool :=
  (secs.foldl (fun (a : Bool × Nat) s =>
    (a.1 && ((img.drop a.2).take (s.1 - a.2)).all (· == 0), s.1 + s.2.1 * s.2.2)) (true, 64)).1

/-- The image with its CRC field taken as zero (R254). -/
def crcView (img : List Byte) : List Byte := img.take 12 ++ List.replicate 4 0 ++ img.drop 16

/-- Step 1 of R255: the header. -/
def headerErr (gen : Nat) (img : List Byte) : Option PlanErr :=
  let h := recNat img 0 64
  let secs := sections h
  let cls := bits h 53 52
  let inv : PlanErr := ⟨0x10, 0⟩
  firstErr [
    (decide (64 ≤ img.length) && bits h 31 0 == 0x4E414C50 && bits h 47 32 == 1, inv),
    (bits h 51 48 == gen, ⟨0x37, 0⟩),
    (bits h 95 64 == img.length && decide (img.length ≤ 2 ^ 30) && secs.2 == img.length && gapsZero img secs.1, inv),
    (bits h 127 96 == crc32c (crcView img), inv),
    (decide (cls ≤ 1) && bits h 63 55 == 0 && bits h 191 181 == 0 && bits h 207 204 == 0 && bits h 255 225 == 0 &&
      bits h 351 346 == 0 && bits h 511 384 == 0, inv),
    (decide (1 ≤ bits h 159 128 ∧ bits h 159 128 ≤ 1048576) &&
      (if cls = 0 then decide (1 ≤ bits h 175 160 ∧ bits h 175 160 ≤ 16384) else bits h 175 160 == 0) &&
      decide (bits h 180 176 ≤ 16) && decide (bits h 203 192 ≤ 4095) && decide (bits h 224 208 ≤ 65536) &&
      decide (bits h 287 256 ≤ 1048576) && decide (1 ≤ bits h 319 288 ∧ bits h 319 288 ≤ 16777216) &&
      decide (1 ≤ bits h 335 320 ∧ bits h 335 320 ≤ 4096) && decide (bits h 383 352 ≤ 65536), inv)]

/-! Reading the records. -/

/-- A tensor record (R256). -/
def readTensor (r : Nat) : TensorRec :=
  { tid := bits r 23 0, fmt := bits r 31 24, et := bits r 39 32, rank := bits r 41 40, baxis := bits r 43 42,
    token := bit r 44, role := bits r 47 45, dims := [bits r 95 64, bits r 127 96, bits r 159 128, bits r 191 160],
    parent := bits r 215 192, mslot := bits r 217 216 }

/-- A layer record (R258). -/
def readLayer (r : Nat) : LayerRec :=
  { kind := bits r 17 16, fbase := bits r 20 18, fceil := bits r 23 21, bbase := bits r 25 24, bceil := bits r 27 26,
    runlen := bits r 29 28, frozen := bit r 30, plumb := bit r 31, recomp := bit r 32, rbstart := bit r 33, exch := bit r 34,
    group := bits r 39 36, outCount := bits r 46 40, w := bits r 71 48, x := bits r 95 72, xs := bits r 119 96,
    opt := bits r 131 120, ovr := bits r 136 132, outFirst := bits r 175 144, tfirst := bits r 207 176,
    tcount := bits r 231 208, ovfThr := bits r 239 232, badThr := bits r 247 240, satThr := bits r 271 256,
    vanThr := bits r 287 272, unfThr := bits r 303 288 }

/-- A gauge binding (R260). -/
def readBind (r : Nat) : BindRec :=
  { gauge := bits r 15 0, tid := bits r 39 16, kind := bits r 41 40, margin := bits r 44 42, hwin := bits r 48 45,
    bucket := bits r 63 49 }

/-- A group record with its members (R261). -/
def readGroup (members : List Nat) (r : Nat) : GroupRec :=
  { p := bits r 12 0, topo := bits r 13 13, topk := bit r 14, ef := bit r 15, hub := bits r 16 16, rings := bits r 18 17,
    kshift := bits r 22 19, tagGroup := bits r 26 23, q := bits r 44 32, deadline := bits r 63 48,
    nslice := bits r 69 64, tokens := bits r 127 96,
    members := ((members.drop (bits r 159 128)).take (bits r 12 0)).map (fun m => (bits m 11 0, bits m 63 32)) }

/-- An optimizer record (R263). -/
def readOpt (r : Nat) : OptRec :=
  { kind := bits r 3 0, nmom := bits r 5 4, sched := bits r 7 6,
    scal := (List.range 15).map (fun i => bits r (63 + 32 * i) (32 + 32 * i)),
    warmup := bits r 543 512, total := bits r 575 544, period := bits r 607 576, factor := bits r 639 608,
    seq := (List.range 32).map (fun i => bits r (1055 + 32 * i) (1024 + 32 * i)) }

/-- A template: its sixteen words (R264). -/
def readTemplate (r : Nat) : Template := ⟨(List.range 16).map (fun i => bits r (32 * i + 31) (32 * i))⟩

/-- The parts of an image whose header is good. -/
def readPlan (img : List Byte) : Plan :=
  let h := recNat img 0 64
  let secs := (sections h).1
  let sec (i : Nat) : List Nat :=
    let x := secs.getD i (0, 0, 0)
    recsAt img x.1 x.2.2 x.2.1
  { image := img, cls := bits h 53 52, split := bit h 54, lsInit := signedOf 10 (bits h 345 336), nframe := bits h 335 320,
    tensors := (sec 0).map readTensor, layers := (sec 1).map readLayer, outliers := sec 2, gauges := (sec 3).map readBind,
    groups := (sec 4).map (readGroup (sec 5)), opts := (sec 6).map readOpt, templates := (sec 7).map readTemplate }

/-! Step 2 of R255: each record against its own rules. -/

/-- Check records in index order with a function to checks. -/
def indexed {α : Type} (l : List α) (f : Nat → α → List (Bool × Nat)) : List (Bool × PlanErr) :=
  (l.zipIdx).flatMap (fun p => (f p.2 p.1).map (fun c => (c.1, ⟨c.2, p.2⟩)))

/-- R257, with R22 for the descriptor; `r` is the raw record. -/
def tensorChecks (ts : List TensorRec) (raw : List Nat) (i : Nat) (t : TensorRec) : List (Bool × Nat) :=
  let r := raw.getD i 0
  let d := Desc.ofByte t.fmt
  let prod := t.dims.foldl (· * ·) 1
  let fmtIs (p : Desc → Bool) : Bool := match d with
    | some x => p x
    | none => false
  [(d.isSome, 0x02),
   (bits r 63 48 == 0 && bits r 255 218 == 0, 0x10),
   (decide (t.role ≤ 4), 0x10),
   (t.dims.all (fun x => decide (1 ≤ x)) && (t.dims.drop (t.rank + 1)).all (· == 1), 0x10),
   (decide (prod < 2 ^ 48) && decide (t.baxis ≤ t.rank), 0x10),
   (fmtIs (fun x => x.grain == 2) || t.baxis == 0, 0x10),
   (!t.token || t.role == 0 || t.role == 4, 0x10),
   (!(t.role == 1 || t.role == 2) || fmtIs (fun x => x.fmt == .bf16 && x.grain == 3), 0x10),
   (t.role != 3 || fmtIs (fun x => x.grain == 1), 0x10),
   (if t.role = 2 then t.mslot == 1 || t.mslot == 2 else t.mslot == 0, 0x10),
   (if t.role = 2 || t.role = 3 then t.parent != 0xFFFFFF else t.parent == 0xFFFFFF, 0x10),
   (decide ((ts.filter (fun u => u.tid == t.tid)).length = 1) && t.tid != 0xFFFFFF, 0x10)]

/-- The base forward tread of a forward copy's format (R227). -/
def baseTread : Fmt → Option Nat
  | .wt => some 0
  | .w2 => some 0
  | .w4 => some 1
  | .f4 => some 1
  | .w8 => some 2
  | _ => none

/-- The format of a tensor record, where it exists. -/
def Plan.fmtOf (p : Plan) (tid : Nat) : Option Desc := (p.record tid).bind (fun r => Desc.ofByte r.fmt)

/-- The tread above a forward tread, given AF8 activations (R226). -/
def nextTread (af8 : Bool) : Nat → Option Nat
  | 0 => some 1
  | 1 => some (if af8 then 3 else 2)
  | 2 => some 3
  | 3 => some 4
  | _ => none

/-- Forward treads reachable from base to ceiling (R226). -/
def treadsFrom (af8 : Bool) : Nat → Nat → Nat → List Nat
  | 0, _, _ => []
  | n + 1, t, ceil =>
    if t > ceil then []
    else t :: (match nextTread af8 t with
      | some u => treadsFrom af8 n u ceil
      | none => [])

/-- The descriptor a made copy has at a tread (R228). -/
def madeFmt (tread : Nat) : Nat :=
  match tread with
  | 1 => 0xA2
  | 2 => 0xA4
  | 3 => 0x47
  | _ => 0x69

/-- Bytes of 64 rows of an operand over one reduction segment, with its scales: a tensor exponent and 64 channel exponents, or a
byte per 32 elements (R53, R111). -/
def panelBytes (d : Desc) (k : Nat) : Nat :=
  64 * d.fmt.rowBytes k + (if d.grain = 1 then 65 else if d.grain = 2 then 64 * ((k + 31) / 32) else 0)

/-- The SRAM of one gallery: its own 512 KiB and three bays of 128 KiB. -/
def galleryBytes : Nat := 896 * 1024

/-- Two operands over one segment of a reduction fit the SRAM of one gallery (R227). -/
def segmentFits (w a : Option Desc) (k side : Nat) : Bool :=
  match w, a with
  | some w, some a => decide (panelBytes w (min k 4096) + panelBytes a (min k 4096) + side ≤ galleryBytes)
  | _, _ => true

/-- The layer has a data-gradient tile at a backward tread (R117). -/
def xgradTile (p : Plan) (l : LayerRec) (b : Nat) : Bool :=
  ((p.templates.drop l.tfirst).take l.tcount).any (fun t =>
    let h := t.words.getD 0 0
    bits h 3 0 == 0 && bits h 7 4 == 2 && bit h (13 + b) && bits (t.words.getD 7 0) 1 0 == 1)

/-- The operands of every tread from base to ceiling fit one gallery for the smallest division of the layer's work (R227, log entry
90): forward over K with the outlier rows of 64 tokens, the data gradient over N. Bay W's vectors are 16 tokens of one channel
(R111), so its operands always fit. -/
def layoutOk (p : Plan) (l : LayerRec) : Bool :=
  let x := p.fmtOf l.x
  let af8 := match x with
    | some d => d.fmt == .af8
    | none => false
  let k := match p.record l.w with
    | some t => (t.dims.drop 1).foldl (· * ·) 1
    | none => 0
  let n := match p.record l.w with
    | some t => t.dims.headD 1
    | none => 0
  (treadsFrom af8 5 l.fbase l.fceil).all (fun t =>
    let w := if t = l.fbase then p.fmtOf l.w else Desc.ofByte (madeFmt t)
    segmentFits w (if t ≤ 2 then x else Desc.ofByte (madeFmt t)) k (128 * l.outCount)) &&
  ((List.range 2).filter (fun b => decide (l.bbase ≤ b ∧ b ≤ l.bceil) && xgradTile p l b)).all (fun b =>
    segmentFits (Desc.ofByte (madeFmt (3 + b))) (Desc.ofByte (madeFmt (3 + b))) n 0)

/-- R227 and R259 for one layer. -/
def layerChecks (p : Plan) (raw : List Nat) (i : Nat) (l : LayerRec) : List (Bool × Nat) :=
  let r := raw.getD i 0
  let af8 := match p.fmtOf l.x with
    | some d => d.fmt == .af8
    | none => false
  let next := p.layers[i + 1]?
  let prev := if i = 0 then none else p.layers[i - 1]?
  let nextIn := match next with
    | some n => n.recomp && !n.rbstart
    | none => false
  let prevIn := match prev with
    | some q => q.recomp
    | none => false
  let outs := p.outliersOf l
  let k := match p.record l.w with
    | some t => t.dims.getD 1 1
    | none => 0
  let copy := (p.record l.w).isSome && (p.record l.w).all (fun t => t.role == 3)
  [(bits r 15 0 == i && decide (l.kind ≤ 2), 0x10),
   (bits r 35 35 == 0 && bits r 47 47 == 0 && bits r 143 137 == 0 && bits r 255 248 == 0 && bits r 511 304 == 0, 0x10),
   (decide (l.fbase ≤ 4 ∧ l.fceil ≤ 4 ∧ l.bbase ≤ 2 ∧ l.bceil ≤ 2), 0x10),
   (decide (l.outCount ≤ 64), 0x06),
   (if l.kind = 0 then
      (!copy || (match (p.fmtOf l.w).bind (fun d => baseTread d.fmt) with
        | some b => b == l.fbase
        | none => false)) && decide (l.fbase ≤ l.fceil ∧ l.bbase ≤ l.bceil) && !(af8 && l.fceil == 2) && (!copy || layoutOk p l)
    else l.fbase == 0 && l.fceil == 0 && l.bbase == 0 && l.bceil == 0, 0x11),
   (!l.rbstart || (l.recomp && nextIn), 0x15),
   (!(l.recomp && !l.rbstart) || prevIn, 0x15),
   (outs.length == l.outCount && (outs.zip (outs.drop 1)).all (fun q => decide (q.1 < q.2)) &&
      outs.all (fun c => decide (c < k)), 0x10),
   (if l.kind = 0 then true else l.w == 0xFFFFFF, 0x10),
   (decide (1 ≤ l.tcount), 0x10)]

/-- R260 for one binding. -/
def bindChecks (p : Plan) (_ : Nat) (b : BindRec) : List (Bool × Nat) :=
  [(decide (b.margin ≤ 6), 0x10), (b.kind == 2 || b.bucket == 0, 0x10),
   (decide ((p.gauges.filter (fun x => x.gauge == b.gauge)).length = 1), 0x10)]

/-- Offsets of a group rise strictly from 0 and stay below TOKENS (R261). -/
def offsetsOk (g : GroupRec) : Bool :=
  let os := g.members.map (·.2)
  os.headD 1 == 0 && (os.zip (os.drop 1)).all (fun q => decide (q.1 < q.2)) && decide (os.getLastD 0 < g.tokens)

/-- R182 and R261 for one group on the device that loads the plan; `self` is none where no device loads it, and holds none where
the device has no ID. -/
def groupChecks (p : Plan) (raw : List Nat) (self : Option (Option Nat)) (i : Nat) (g : GroupRec) : List (Bool × Nat) :=
  let r := raw.getD i 0
  let devs := g.members.map (·.1)
  [(bits r 31 27 == 0 && bits r 47 45 == 0 && bits r 95 70 == 0 && bits r 255 160 == 0, 0x10),
   (decide (1 ≤ g.p ∧ g.p ≤ 4096) && g.members.length == g.p, 0x14),
   (if g.topo = 1 then decide (2 ≤ g.q ∧ g.q ≤ g.p) && g.p % Nat.max g.q 1 == 0 else g.q == 0, 0x14),
   (decide (1 ≤ g.kshift ∧ g.kshift ≤ 8) && (!g.topk || g.ef), 0x14),
   (offsetsOk g && decide devs.Nodup, 0x14),
   (decide ((p.groups.filter (fun x => x.tagGroup == g.tagGroup)).length = 1), 0x14),
   (match self with
      | some (some d) => devs.contains d
      | some none => false
      | none => true, 0x14)]

/-- The words of a micro-sequence up to END. -/
def mseqWords : List Nat → List Nat
  | [] => []
  | w :: t => if bits w 31 27 = 0 then [] else w :: mseqWords t

/-- R155: no reserved OP, no reserved bit set in a word up to END, END present when the sequence is shorter than 32 words. Words
after END are not looked at (log entry 150). -/
def mseqOk (ws : List Nat) : Bool :=
  let body := mseqWords ws
  body.all (fun w => decide (bits w 31 27 ≤ 0x0D) && bits w 8 0 == 0) &&
    (body.length == 32 || (decide (body.length < ws.length) && bits (ws.getD body.length 1) 31 27 == 0 && bits (ws.getD body.length 1) 8 0 == 0))

/-- FP32 code is greater than zero. -/
def fpPos (c : Nat) : Bool := match fp32V c with
  | .fin n m _ => !n && m != 0
  | .inf n => !n
  | _ => false

/-- R263 and the ε rule of R150 for one optimizer record. -/
def optChecks (p : Plan) (raw : List Nat) (i : Nat) (o : OptRec) : List (Bool × Nat) :=
  let r := raw.getD i 0
  let params := (p.layers.filter (fun l => l.opt == i)).filterMap (fun l => (p.record l.w).map (·.parent))
  let moms (t : Nat) : Nat := (p.tensors.filter (fun u => u.role == 2 && u.parent == t)).length
  [(bits r 31 8 == 0 && bits r 1023 640 == 0, 0x10),
   (decide (o.kind ≤ 4) && decide (o.sched ≤ 2), 0x12),
   (match o.kind with
      | 0 => o.nmom == 1
      | 1 => o.nmom == 1
      | 2 => o.nmom == 2
      | 3 => o.nmom == 2
      | _ => decide (o.nmom ≤ 2), 0x12),
   (params.all (fun t => moms t == o.nmom), 0x12),
   (!(o.sched == 1) || decide (o.warmup < o.total), 0x12),
   (!(o.sched == 2) || o.period != 0, 0x12),
   (!(o.kind == 2 || o.kind == 3) || fpPos (o.scal.getD 6 0), 0x12),
   (if o.kind = 4 then mseqOk o.seq else o.seq.all (· == 0), if o.kind = 4 then 0x13 else 0x10)]

/-! Step 4 of R255: every template against the refusal rules of its kind. -/

/-- Word i of a template. -/
def tw (t : Template) (i : Nat) : Nat := t.words.getD i 0

/-- A 24-bit TID at a byte offset of a template. -/
def tTid (t : Template) (byte : Nat) : Nat :=
  bits ((tw t (byte / 4)) + 2 ^ 32 * tw t (byte / 4 + 1)) (8 * (byte % 4) + 23) (8 * (byte % 4))

/-- One byte of a template. -/
def tByte (t : Template) (byte : Nat) : Nat := bits (tw t (byte / 4)) (8 * (byte % 4) + 7) (8 * (byte % 4))

/-- The bytes [a, b) of a template are zero. -/
def tZero (t : Template) (a b : Nat) : Bool := (List.range (b - a)).all (fun i => tByte t (a + i) == 0)

/-- A run length code: 0 takes the layer's, whose 0 is the default 32 (R52, R258, R266). -/
def runLen (ctrl layer : Nat) : Nat :=
  let c := if ctrl = 0 then layer else ctrl
  if c = 1 then 16 else if c = 3 then 64 else 32

/-- The largest product magnitude of two integer formats (R62, R116). -/
def pMax (w a : Desc) : Nat :=
  let m (d : Desc) : Nat := if d.sgn then 2 ^ (d.fmt.width - 1) else 2 ^ d.fmt.width - 1
  m w * m a

/-- R51, R52 and R62 for bay F: the status of a refusal, or 0. -/
def fArrayStatus (w a : Option Desc) (L : Nat) (int32 : Bool) (k : Nat) : Nat :=
  match w, a with
  | some w, some a =>
    let wOk := match w.fmt with
      | .wt => true
      | .w2 => true
      | .w4 => true
      | .f4 => true
      | .w8 => true
      | _ => false
    let pair := wOk && (a.fmt == .a8 || (a.fmt == .af8 && w.fmt != .w8))
    let dbl := (w.fmt == .w2 || w.fmt == .wt) && a.fmt == .a8
    if !pair then 0x03
    else if (L = 64 && (w.grain == 2 || a.grain == 2)) || (L = 16 && dbl) then 0x04
    else if int32 && !((w.fmt == .w4 || w.fmt == .w8) && a.fmt == .a8 && a.grain == 0) then 0x03
    else if int32 && k * pMax w a > 2147483647 then 0x05
    else 0
  | _, _ => 0x02

/-- R109 and R116 for bays X and W: the status of a refusal, or 0. -/
def bArrayStatus (w a : Option Desc) (k : Nat) : Nat :=
  match w, a with
  | some w, some a =>
    let fl (d : Desc) : Bool := d.fmt == .g8 || d.fmt == .bf16
    if fl w && fl a then 0
    else if w.fmt == .int8 && a.fmt == .int8 then (if k * pMax w a > 2147483647 then 0x05 else 0)
    else 0x03
  | _, _ => 0x02

/-- The refusals of a matrix tile by bay: descriptors first, that of the result among them (R51, R109), then the bay's own checks; tread
B2 runs on the joiners, which take FP32 and BF16 (R123). -/
def tileStatus (bay : Nat) (b2 : Bool) (w a y : Option Desc) (L : Nat) (int32 : Bool) (k : Nat) : Nat :=
  if w.isNone || a.isNone || y.isNone then 0x02
  else if bay = 0 then fArrayStatus w a L int32 k
  else if b2 then 0
  else bArrayStatus w a k

/-- Element-wise opcodes of R269. -/
def ewOpOk (op : Nat) : Bool :=
  op ≤ 0x0C || (0x10 ≤ op && op ≤ 0x1B) || (0x20 ≤ op && op ≤ 0x2B) || (0x30 ≤ op && op ≤ 0x42) || (0x50 ≤ op && op ≤ 0x58)

/-- The format an operation's input may have (R268, R269): no packed weight; FP64 only in IEEE operations. -/
def ewInOk (op : Nat) (d : Option Desc) : Bool :=
  match d with
  | none => true
  | some d =>
    let packed := d.grain == 1
    if 0x50 ≤ op then (d.fmt == .fp64 || d.fmt == .fp32 || (op == 0x58 && (d.fmt == .fp16 || d.fmt == .int32))) && d.grain == 3
    else !packed && (d.fmt != .fp64 || op == 0x42)

/-- An IEEE operation other than a conversion never narrows: an FP64 input needs an FP64 result (R269, log entry 128). -/
def ieeeMix (op : Nat) (out : Option Desc) (ins : List (Option Desc)) : Bool :=
  op == 0x58 || (match out with
    | some o => o.fmt == .fp64 || ins.all (fun d => match d with
      | some x => x.fmt != .fp64
      | none => true)
    | none => true)

/-- The labels of XENT and XENT_B and the indices of GATHER and SCATTER_ADD are INT32 (R268, R270). -/
def labelsOk (op : Nat) (in1 : Option Desc) : Bool :=
  !([0x37, 0x38, 0x3D, 0x3E].contains op) || (match in1 with
    | some d => d.fmt == .int32
    | none => false)

/-- The p of a dropout: finite, 0 ≤ p < 1, -0 counting as 0 (R270). -/
def dropOk (p0 : Nat) : Bool :=
  match fp32V p0 with
  | .fin n m e => (m == 0 || !n) && decide (cmpScaled (Fp.fin n m e).toInt (1, 0) < 0)
  | _ => false

/-- The refusals of an element-wise operation by its formats and its P0: a status, or 0 (R255, R268-R270). `ins` are the formats of IN0, IN1
and IN2, none where absent. -/
def ewFmtStatus (op p0 : Nat) (out : Option Desc) (ins : List (Option Desc)) : Nat :=
  if !(ins.all (ewInOk op)) || !labelsOk op (ins.getD 1 none) then 0x0C
  else if (op == 0x3B || op == 0x3C) && !dropOk p0 then 0x0C
  else if out.isNone then 0x02
  else if decide (0x50 ≤ op) && !(ewInOk op out && ieeeMix op out ins) then 0x0C
  else 0

/-- The refusals of a reduction by its formats: no packed weight is read (R268). -/
def rdFmtStatus (out : Option Desc) (ins : List (Option Desc)) : Nat :=
  if ins.any (fun d => match d with
    | some x => x.grain == 1
    | none => false) then 0x0C
  else if out.isNone then 0x02 else 0

/-- A tensor's format has the MX form of an element code (R45, R47). -/
def mxForm (elem : Nat) (d : Option Desc) : Bool :=
  match d with
  | none => false
  | some d => match elem with
    | 0 => d.fmt == .af8 && d.grain == 2
    | 1 => d.fmt == .g8 && d.grain == 2
    | 2 => d.fmt == .a8 && d.grain == 2 && d.sgn
    | 3 => d.fmt == .f4 && d.grain == 1
    | _ => false

/-- The checks of a template's body by kind (R255 step 4, R266). -/
def bodyStatus (p : Plan) (t : Template) : Nat :=
  let h0 := tw t 0
  let rnd := bits (tw t 3) 2 0
  let ins (l : List Nat) : List (Option Desc) := l.map (fun b => if tTid t b = noTid then none else p.fmtOf (tTid t b))
  match bits h0 3 0 with
  | 0 =>
    let bay := bits (tByte t 28) 1 0
    let L := match p.layer (bits h0 31 16) with
      | some l => runLen (bits (tByte t 28) 3 2) l.runlen
      | none => runLen (bits (tByte t 28) 3 2) 0
    let st := tileStatus bay (bit h0 15 && !bit h0 13 && !bit h0 14) (Desc.ofByte (tByte t 19)) (Desc.ofByte (tByte t 23)) (Desc.ofByte (tByte t 27))
      L (bit (tByte t 28) 5) (tw t 13)
    if bay = 3 || bit (tByte t 28) 7 || !tZero t 29 32 || !tZero t 56 64 then 0x10 else st
  | 1 =>
    let op := tByte t 16
    let st := ewFmtStatus op (tw t 9) (Desc.ofByte (tByte t 17)) (ins [20, 23, 26])
    if !ewOpOk op then 0x0C
    else if st ≠ 0 then st
    else if tw t 14 % tw t 11 != 0 || !tZero t 18 20 || !tZero t 35 36 || !tZero t 60 64 then 0x10
    else 0
  | 2 =>
    let st := rdFmtStatus (Desc.ofByte (tByte t 17)) (ins (if tByte t 16 = 5 then [20, 23] else [20]))
    if tByte t 16 > 5 then 0x0C
    else if st ≠ 0 then st
    else if !tZero t 18 20 || !tZero t 30 32 || !tZero t 44 64 then 0x10
    else 0
  | 3 =>
    let mx := tByte t 19
    if bits mx 1 0 = 3 then 0x10
    else if bits mx 1 0 ≠ 0 && (bits mx 4 2 ≥ 4 || bits mx 7 5 ≠ 2) then 0x07
    else if bits mx 1 0 = 2 && !mxForm (bits mx 4 2) (p.fmtOf (tTid t 16)) then 0x07
    else if !tZero t 23 24 || !tZero t 48 64 then 0x10
    else 0
  | 4 => if tByte t 16 > 4 then 0x0C else if bits (tw t 4) 31 16 > 4095 || !tZero t 17 18 || !tZero t 22 24 || !tZero t 28 64 then 0x10 else 0
  | 5 => if bits (tByte t 20) 7 1 ≠ 0 || !tZero t 21 24 || !tZero t 27 28 || !tZero t 31 32 || !tZero t 36 64 then 0x10 else 0
  | _ =>
    let sub := tByte t 16
    if sub > 1 then 0x09
    else
      let st := kernelStatus (sub == 0) { rnd := rnd } { prec := tByte t 17, s := tByte t 18, a := 0, b := 0, c := 0, k := tw t 12 }
      if st ≠ 0 then st else if !tZero t 19 20 || !tZero t 23 24 || !tZero t 27 28 || !tZero t 31 32 || !tZero t 52 64 then 0x10 else 0

/-- R264 for one template; RND is zero but in element-wise work, reductions and kernels. -/
def templateChecks (p : Plan) (_ : Nat) (t : Template) : List (Bool × Nat) :=
  let h0 := tw t 0
  let u := tw t 1
  [(decide (bits h0 3 0 ≤ 6) && decide (bits h0 7 4 ≤ 4), 0x0D),
   (bits u 31 29 == 7 && bits u 28 16 == 0 && decide (1 ≤ bits u 15 0 ∧ bits u 15 0 ≤ p.nframe), 0x01),
   (decide (bits (tw t 3) 2 0 ≤ 4) && (bits (tw t 3) 2 0 == 0 || [1, 2, 6].contains (bits h0 3 0)), 0x0B),
   (bits (tw t 3) 31 3 == 0, 0x10),
   (bits (tw t 2) 15 0 == 0xFFFF || decide (bits (tw t 2) 15 0 ≤ 4095), 0x10),
   (bits (tw t 2) 31 16 == 0xFFFF || decide (bits (tw t 2) 31 16 ≤ 4095), 0x10)]

/-! Step 3 of R255: cross-references. -/

/-- Cross-references of tensor records: a moment or forward copy names a parameter, with its shape, once (R257). -/
def tensorRefs (p : Plan) (_ : Nat) (t : TensorRec) : List (Bool × Nat) :=
  if t.role = 2 || t.role = 3 then
    match p.record t.parent with
    | some q => [(q.role == 1 && (t.role != 3 || t.dims == q.dims), 0x10),
                 (decide ((p.tensors.filter (fun u => u.role == t.role && u.parent == t.parent && u.mslot == t.mslot)).length = 1), 0x10)]
    | none => [(false, 0x10)]
  else []

/-- A reference to a tensor of a role, or none. -/
def refOk (p : Plan) (tid : Nat) (roles : List Nat) : Bool :=
  tid == 0xFFFFFF || (match p.record tid with
    | some t => roles.contains t.role
    | none => false)

/-- The templates of a layer. -/
def Plan.layerTemplates (p : Plan) (l : LayerRec) : List Template := (p.templates.drop l.tfirst).take l.tcount

/-- A template is a forward matrix tile of a tread. -/
def fwdTile (t : Template) (tread : Nat) : Bool := bits (tw t 0) 3 0 == 0 && bits (tw t 0) 7 4 == 0 && bit (tw t 0) (8 + tread)

/-- A template makes a weight gradient at a backward tread: a phase 2 tile of bay W, or of the joiners at B2. -/
def wgradTile (t : Template) (b : Nat) : Bool :=
  bits (tw t 0) 3 0 == 0 && bits (tw t 0) 7 4 == 2 && bit (tw t 0) (13 + b) && (bits (tByte t 28) 1 0 == 2)

/-- Cross-references and stair rules of a layer (R255 step 3, R259, R265). -/
def layerRefs (p : Plan) (i : Nat) (l : LayerRec) : List (Bool × Nat) :=
  let af8 := match p.fmtOf l.x with
    | some d => d.fmt == .af8
    | none => false
  let ts := p.layerTemplates l
  let treads := treadsFrom af8 5 l.fbase l.fceil
  [(refOk p l.w [3] && (l.kind != 0 || l.w != 0xFFFFFF) && refOk p l.x [0, 4] && refOk p l.xs [0, 4], 0x10),
   (l.opt == 0xFFF || decide (l.opt < p.opts.length), 0x10),
   (!l.exch || p.groups.isEmpty || decide (l.group < p.groups.length), 0x10),
   (decide (l.outFirst + l.outCount ≤ p.outliers.length) && decide (l.tfirst + l.tcount ≤ p.templates.length), 0x10),
   (ts.all (fun t => bits (tw t 0) 31 16 == i || bits (tw t 0) 31 16 == 0xFFFF), 0x10),
   (l.kind != 0 || treads.all (fun t => ts.any (fun x => fwdTile x t)), 0x11),
   (l.kind != 0 || (treads.drop 1).all (fun t => ts.all (fun x => !fwdTile x t || tByte x 19 == madeFmt t)), 0x11),
   (l.kind != 0 || l.xs == 0xFFFFFF ||
      ((List.range 3).filter (fun b => decide (l.bbase ≤ b ∧ b ≤ l.bceil))).all (fun b => ts.any (fun x => wgradTile x b)), 0x11)]

/-- Cross-references of gauge bindings (R260). -/
def bindRefs (p : Plan) (_ : Nat) (b : BindRec) : List (Bool × Nat) :=
  [(match b.kind with
      | 0 => refOk p b.tid [0, 4] && b.tid != 0xFFFFFF
      | 1 => refOk p b.tid [3] && b.tid != 0xFFFFFF
      | 2 => refOk p b.tid [1] && b.tid != 0xFFFFFF
      | _ => b.tid == 0xFFFFFF, 0x10)]

/-- Slices of a parameter: 64 × 64 tiles (R120, R262). -/
def sliceCountOf (t : TensorRec) : Nat :=
  ((t.dims.getD 0 1 + 63) / 64) * (((t.dims.drop 1).foldl (· * ·) 1 + 63) / 64)

/-- Slices per bucket of a group: NSLICE, 0 meaning 64 (R261). -/
def GroupRec.slices (g : GroupRec) : Nat := if g.nslice = 0 then 64 else g.nslice

/-- Buckets of an EXCH layer's parameter (R262). -/
def bucketCount (g : GroupRec) (t : TensorRec) : Nat := (sliceCountOf t + g.slices - 1) / g.slices

/-- The parameter of a layer. -/
def Plan.paramOf (p : Plan) (l : LayerRec) : Option TensorRec := (p.record l.w).bind (fun t => p.record t.parent)

/-- The tensors that a template writes; the gated and normalisation derivatives write IN2 too (R266, R269). -/
def tOuts (t : Template) : List Nat :=
  (match bits (tw t 0) 3 0 with
    | 0 => [tTid t 24]
    | 1 => [tTid t 29] ++ (if [0x2A, 0x2B, 0x32, 0x33].contains (tByte t 16) then [tTid t 26] else [])
    | 2 => [tTid t 26]
    | 3 => [tTid t 20]
    | _ => []).filter (· != 0xFFFFFF)

/-- The TIDs that a template's body names (R266). -/
def tTids (t : Template) : List Nat :=
  let bs := match bits (tw t 0) 3 0 with
    | 0 => [16, 20, 24]
    | 1 => [20, 23, 26, 29, 32]
    | 2 => [20, 23, 26]
    | 3 => [16, 20]
    | 5 => [24, 28]
    | 6 => [20, 24, 28]
    | _ => []
  (bs.map (tTid t)).filter (· != noTid)

/-- The roles of a matrix tile's tensors (R255 step 3): in forward work and in a data gradient of a matrix layer W_TID names a forward
copy (R111, R265); what streams is an activation, a gradient or data. -/
def tileRoles (p : Plan) (t : Template) : Bool :=
  let h := tw t 0
  let matrix := match p.layer (bits h 31 16) with
    | some l => l.kind == 0
    | none => false
  if bits h 3 0 ≠ 0 ∨ bits h 7 4 = 4 ∨ !matrix then true
  else
    let grad := bits h 7 4 == 2 && bits (tByte t 28) 1 0 == 2
    refOk p (tTid t 16) (if grad then [0, 4] else [3]) && refOk p (tTid t 20) [0, 4]

/-- Cross-references of a template: its layer, its tensors and their roles, the layers of an evaluation pass (R255 step 3). -/
def templateRefs (p : Plan) (_ : Nat) (t : Template) : List (Bool × Nat) :=
  let l := bits (tw t 0) 31 16
  [(l == 0xFFFF || decide (l < p.layers.length), 0x10), ((tTids t).all (fun i => (p.record i).isSome) && tileRoles p t, 0x10),
   (bits (tw t 0) 3 0 != 5 || decide (bits (tw t 8) 15 0 < p.layers.length ∧ bits (tw t 8) 31 16 < p.layers.length), 0x10)]

/-- A tensor that some conversion of the plan writes under a gauge: the output of a tile, an element-wise operation or a reduction,
and the stack copy of a layer (R83, R118). -/
def Plan.converted (p : Plan) (tid : Nat) : Bool :=
  p.templates.any (fun t => decide (bits (tw t 0) 3 0 ≤ 2) && (tOuts t).contains tid) || p.layers.any (fun l => l.xs == tid)

/-- The binding pattern of R260: one gauge for each tensor a conversion writes with a tensor or block exponent and for each forward
copy, one for each bucket of an EXCH layer, one loss-scale gauge in a training plan, and no other. -/
def gaugeCover (p : Plan) : Bool :=
  let cnt (k tid : Nat) : Nat := (p.gauges.filter (fun b => b.kind == k && b.tid == tid)).length
  let exch := if p.groups.isEmpty then [] else p.layers.filter (·.exch)
  p.tensors.all (fun t =>
    let g := (Desc.ofByte t.fmt).map (·.grain)
    let scaled := (t.role == 0 || t.role == 4) && (g == some 0 || g == some 2)
    if scaled then (if p.converted t.tid then cnt 0 t.tid == 1 else decide (cnt 0 t.tid ≤ 1))
    else if t.role = 3 then cnt 1 t.tid == 1 && cnt 0 t.tid == 0 else cnt 0 t.tid == 0) &&
  exch.all (fun l => match p.paramOf l, p.groups[l.group]? with
    | some t, some g =>
      let bs := (p.gauges.filter (fun b => b.kind == 2 && b.tid == t.tid)).map (·.bucket)
      (List.range (bucketCount g t)).all (fun i => decide ((bs.filter (· == i)).length = 1)) && bs.length == bucketCount g t
    | _, _ => l.kind != 0) &&
  p.gauges.all (fun b => b.kind != 2 || exch.any (fun l => match p.paramOf l with
    | some t => t.tid == b.tid
    | none => false)) &&
  decide ((p.gauges.filter (fun b => b.kind == 3)).length = (if p.cls = 0 then 1 else 0))

/-- The batch tensor: the ROLE 4 tensor with TOKEN set that the first FORWARD movement template reads from the transfer window
(R142). -/
def Plan.batchTensor (p : Plan) : Option TensorRec :=
  match p.templates.find? (fun t => bits (tw t 0) 3 0 == 3 && bits (tw t 0) 7 4 == 0 && tTid t 16 == noTid) with
  | some t => (p.record (tTid t 20)).filter (fun r => r.role == 4 && r.token)
  | none => none

/-- Bytes that one token of the batch tensor occupies: DIM1 to DIM3 packed in its format (R142). -/
def TensorRec.tokenBytes (r : TensorRec) : Nat :=
  match Desc.ofByte r.fmt with
  | some d => d.fmt.rowBytes ((r.dims.drop 1).foldl (· * ·) 1)
  | none => 1

/-- The checks of R255 in their order on one image, on the device that loads it. -/
def planErr (gen : Nat) (self : Option (Option Nat)) (img : List Byte) : Option PlanErr :=
  match headerErr gen img with
  | some e => some e
  | none =>
    let p := readPlan img
    let secs := (sections (recNat img 0 64)).1
    let raw (i : Nat) : List Nat :=
      let x := secs.getD i (0, 0, 0)
      recsAt img x.1 x.2.2 x.2.1
    let last := p.layers.length - 1
    firstErr (indexed p.tensors (tensorChecks p.tensors (raw 0)) ++ indexed p.layers (layerChecks p (raw 1)) ++
      [(p.cls != 0 || (p.layers.zipIdx).all (fun q => (q.1.kind == 2) == (q.2 == last)), ⟨0x10, last⟩)] ++
      indexed p.gauges (bindChecks p) ++ indexed p.groups (groupChecks p (raw 4) self) ++
      indexed (raw 5) (fun _ m => [(bits m 31 12 == 0, 0x10)]) ++ indexed p.opts (optChecks p (raw 6)) ++
      indexed p.templates (templateChecks p) ++
      indexed p.tensors (tensorRefs p) ++ indexed p.layers (layerRefs p) ++ indexed p.gauges (bindRefs p) ++ indexed p.templates (templateRefs p) ++
      [(gaugeCover p, ⟨0x10, 0⟩), (p.cls != 0 || !p.groups.isEmpty || p.batchTensor.isSome, ⟨0x10, 0⟩)] ++
      indexed p.templates (fun _ t => [(bodyStatus p t == 0, bodyStatus p t)]))

/-! Replacing a bound plan (R272). -/

/-- The tensor's identity that a replacing plan must keep. -/
def sameTensor (a b : TensorRec) : Bool :=
  a.fmt == b.fmt && a.dims == b.dims && a.parent == b.parent && a.role == b.role && a.mslot == b.mslot

/-- The optimizer record bound to a parameter. -/
def Plan.optOf (p : Plan) (tid : Nat) : Option Nat :=
  (p.layers.find? (fun l => match p.record l.w with
    | some t => t.parent == tid && l.opt != 0xFFF
    | none => false)).map (·.opt)

/-- Every tensor of ROLE 1, 2 or 3 stays, and every optimizer record bound to them keeps KIND and NMOM (R272). -/
def planMatches (old new : Plan) : Bool :=
  (old.tensors.filter (fun t => t.role == 1 || t.role == 2 || t.role == 3)).all (fun t =>
    (match new.record t.tid with
      | some u => sameTensor t u
      | none => false) &&
    (t.role != 1 || (match old.optOf t.tid, new.optOf t.tid with
      | some i, some j => (old.opts[i]?).map (fun o => (o.kind, o.nmom)) == (new.opts[j]?).map (fun o => (o.kind, o.nmom))
      | none, _ => true
      | some _, none => true)))

/-! Frame request tables (R277). -/

/-- One entry. -/
def readReq (x : Nat) : FrameReq := ⟨bits x 15 0, bits x 31 16, bits x 35 32, bits x 39 36⟩

/-- The table of a byte image. -/
def readTable (l : List Byte) : List FrameReq := (recsAt l 0 8 (l.length / 8)).map readReq

/-- The refusals of R277. -/
def tableOk (nframe : Nat) (l : List Byte) : Bool :=
  l.length == 8 * nframe && (recsAt l 0 8 nframe).all (fun x =>
    let r := readReq x
    decide (1 ≤ r.gmin ∧ r.gmin ≤ 8448 ∧ r.gmin ≤ r.gwant ∧ r.gwant ≤ 8448 ∧ r.hmin ≤ 8 ∧ r.hmax ≤ 8) &&
      (r.hmax == 0 || decide (Nat.max r.hmin 1 ≤ r.hmax)) && bits x 63 40 == 0)

end Sys2Proof.Machine
end

