-- ==== Sys2Proof/Machine/Placement.lean ====
section
/-! DEFINITION. The Scribe: home placement, frame placement, regions and pegs of a context (R129, R140-R142, R161, R188,
R274-R287). -/

namespace Sys2Proof.Machine

/-! Templates and frames. -/

/-- The plan frame number of a template (R264). -/
def tFrame (t : Template) : Nat := bits (tw t 1) 15 0

/-- The forward copy of a parameter. -/
def Plan.copyOf (p : Plan) (tid : Nat) : Option TensorRec := p.tensors.find? (fun t => t.role == 3 && t.parent == tid)

/-- The frame a parameter belongs to: that of the first template that names it or its forward copy (R278). -/
def Plan.frameOf (p : Plan) (tid : Nat) : Option Nat :=
  let ids := tid :: (match p.copyOf tid with
    | some c => [c.tid]
    | none => [])
  (p.templates.find? (fun t => (tTids t).any ids.contains)).map tFrame

/-- The parameters of a plan. -/
def Plan.params (p : Plan) : List TensorRec := p.tensors.filter (fun t => t.role == 1)

/-- Elements of a tensor. -/
def TensorRec.elems (t : TensorRec) : Nat := t.dims.foldl (· * ·) 1

/-- Moments of a parameter in a plan. -/
def Plan.nmom (p : Plan) (tid : Nat) : Nat := (p.tensors.filter (fun t => t.role == 2 && t.parent == tid)).length

/-- Bytes of a forward copy, rows packed (R23, R27). -/
def copyBytes (t : TensorRec) : Nat :=
  match Desc.ofByte t.fmt with
  | some d => t.dims.headD 1 * d.fmt.rowBytes ((t.dims.drop 1).foldl (· * ·) 1)
  | none => 0

/-- A parameter's EXCH layer's group keeps a residual (R188, R262). -/
def Plan.efOf (p : Plan) (tid : Nat) : Bool :=
  p.layers.any (fun l => l.exch && (match p.paramOf l, p.groups[l.group]? with
    | some t, some g => t.tid == tid && g.ef
    | _, _ => false))

/-- Resident bytes that follow a parameter's slices: master, moments, forward copies, channel-maximum tables (R274). -/
def Plan.paramBytes (p : Plan) (t : TensorRec) : Nat :=
  t.elems * (2 + 2 * p.nmom t.tid) + (match p.copyOf t.tid with
    | some c => 2 * copyBytes c + 4 * c.dims.headD 1
    | none => 0)

/-- Bytes of the items of R274 that lie in one place: plan and table, gauges, counters under 1 MiB, two rings of 8 MiB. -/
def Plan.miscBytes (p : Plan) : Nat := p.image.length + 8 * p.nframe + 40 * p.gauges.length + 2 ^ 20 + 2 * 2 ^ 23

/-- Part i of h of an amount divided with a tensor's S slices (R278; rounding: log entry 22). -/
def sharePart (bytes S i h : Nat) : Nat :=
  let n := max S 1
  bytes * (S * (i + 1) / h) / n - bytes * (S * i / h) / n

/-- Frames by GWANT descending, then number ascending (R278). -/
def frameOrder (table : List FrameReq) : List (Nat × FrameReq) :=
  (table.zipIdx.map (fun p => (p.2 + 1, p.1))).mergeSort (fun a b => decide (b.2.gwant < a.2.gwant) || (a.2.gwant == b.2.gwant && decide (a.1 ≤ b.1)))

/-- The hall count of a frame: max(HMIN, ceil(GWANT / 1,056)) clamped to HMAX and the halls of the device (R277). -/
def hallCount (r : FrameReq) : Nat :=
  let want := max (min (max r.hmin 1) 8) ((r.gwant + 1055) / 1056)
  min (min want (if r.hmax = 0 then 8 else min r.hmax 8)) 8

/-! Memory (R278, R335). -/

/-- User capacity of a stack: 128 GiB, less the pages withdrawn. -/
def stackBytes (s : State) (h : Nat) : Nat := 128 * 2 ^ 30 - (s.mem.get {} h).withdrawn

/-- Bytes of a hall's stack that contexts hold. -/
def heldBytes (s : State) (h : Nat) : Nat :=
  (s.ctxs.map (fun e => e.2.homeBytes.get 0 h + e.2.exchBytes.get 0 h + e.2.regionBytes.get 0 h)).sum

/-- Free bytes of a stack. -/
def freeBytes (s : State) (h : Nat) : Nat := stackBytes s h - heldBytes s h

/-- Halls by free bytes descending, ties to the lower number. -/
def byFree (free : List Nat) : List Nat :=
  (List.range 8).mergeSort (fun a b => decide (free.getD b 0 < free.getD a 0) || (free.getD a 0 == free.getD b 0 && decide (a ≤ b)))

/-- Put shares on halls in order: a hall that cannot hold its share gives way to the next in free-byte order (R278 step 4). -/
def placeShares (free : List Nat) : List Nat → List Nat → List Nat → Option (List Nat × List Nat)
  | [], _, _ => some ([], free)
  | b :: bs, hs, rest =>
    let pick := match hs with
      | h :: t => if b ≤ free.getD h 0 then some (h, t, rest) else
          (match rest.find? (fun r => decide (b ≤ free.getD r 0)) with
            | some r => some (r, t, rest.erase r)
            | none => none)
      | [] => none
    match pick with
    | none => none
    | some (h, t, rest') =>
      match placeShares (free.set h (free.getD h 0 - b)) bs t rest' with
      | some x => some (h :: x.1, x.2)
      | none => none

/-- A home placement: home halls per frame and per parameter, bytes per hall. -/
structure HomePlan where
  frames : SMap (List Nat) := []
  params : SMap (List Nat) := []
  bytes : SMap Nat := []
  free : List Nat := []
  deriving DecidableEq, Repr

/-- The home placement of parameters by frame, in frame order (R278). `which` says which parameters to place, `misc` the bytes
of step 3. -/
def homePlace (p : Plan) (table : List FrameReq) (which : TensorRec → Bool) (misc : Nat) (free : List Nat) : Option HomePlan :=
  let ps := p.params.filter which
  (frameOrder table).foldl (fun acc fr => match acc with
    | none => none
    | some (hp : HomePlan) =>
      let h := hallCount fr.2
      let mine := ps.filter (fun t => p.frameOf t.tid == some fr.1 || (fr.1 == 1 && (p.frameOf t.tid).isNone))
      let share (i : Nat) : Nat :=
        (mine.map (fun t => sharePart (p.paramBytes t) (sliceCountOf t) i h)).sum + (if fr.1 = 1 ∧ i = 0 then misc else 0)
      let order := byFree hp.free
      match placeShares hp.free ((List.range h).map share) (order.take h) (order.drop h) with
      | none => none
      | some (hs, free') =>
        some { frames := hp.frames.insert fr.1 hs
               params := mine.foldl (fun m t => m.insert t.tid hs) hp.params
               bytes := (hs.zipIdx).foldl (fun m x => m.put 0 x.1 (m.get 0 x.1 + share x.2)) hp.bytes
               free := free' }) (some { free := free })

/-- The free bytes of every stack. -/
def freeList (s : State) : List Nat := (List.range 8).map (freeBytes s)

/-- Bytes per hall of something proportional to parameters, placed with their homes. -/
def byHomes (c : Ctx) (p : Plan) (bytes : TensorRec → Nat) : SMap Nat :=
  p.params.foldl (fun m t =>
    let hs := c.homes.get [] t.tid
    (hs.zipIdx).foldl (fun m x => m.put 0 x.1 (m.get 0 x.1 + sharePart (bytes t) (sliceCountOf t) x.2 hs.length)) m) []

/-- The hall that holds a parameter's slice (R278). -/
def homeOf (c : Ctx) (tid S ord : Nat) : Nat :=
  let hs := c.homes.get [0] tid
  let h := max hs.length 1
  hs.getD ((List.range h).findIdx (fun i => decide (ord < S * (i + 1) / h))) 0

/-! Regions (R129, R140-R142, R161, R188). -/

/-- Pages of a part. -/
def pagesOf (b : Nat) : Nat := (b + 4095) / 4096

/-- A member's position in a group. -/
def GroupRec.position (g : GroupRec) (self : Nat) : Option Nat := g.members.findIdx? (fun m => m.1 == self)

/-- This device's position in the plan's first group (R374). -/
def positionOf (s : State) (p : Plan) : Nat := (p.groups.head?.bind (fun g => g.position (deviceId s))).getD 0

/-- The positions whose shares run here: its own and those it has taken (R196, R232). -/
def positionsHere (s : State) (c : Ctx) (p : Plan) : List Nat :=
  (match p.groups.head? with
    | some g => (g.position (deviceId s)).toList
    | none => [0]) ++ c.taken

/-- A device's share in tokens under its member entry, the largest where it belongs to several groups (R129, R261). -/
def Plan.shareOf (p : Plan) (d : Nat) : Nat :=
  (p.groups.filterMap (fun g => (g.members.findIdx? (fun m => m.1 == d)).map (fun i =>
    (match g.members[i + 1]? with
      | some n => n.2
      | none => g.tokens) - (g.members.getD i (0, 0)).2))).foldl max 0

/-- The declared token share of a position: that of its member's entry, DIM0 of the batch tensor in a plan without groups (R129). -/
def Plan.shareAt (p : Plan) (pos : Nat) : Nat :=
  if p.groups.isEmpty then (match p.batchTensor with
    | some t => t.dims.headD 0
    | none => 0)
  else match p.groups.head?.bind (fun g => g.members[pos]?) with
    | some m => p.shareOf m.1
    | none => 0

/-- The share offset of a position in global tokens (R170, R261). -/
def Plan.shareOffset (p : Plan) (pos : Nat) : Nat := ((p.groups.head?.bind (fun g => g.members[pos]?)).map (·.2)).getD 0

/-- The declared shares of the positions that run here: its own and, after a takeover, those it has taken (R129, R330). -/
def declaredShares (s : State) (c : Ctx) (p : Plan) : List Nat := (positionsHere s c p).map p.shareAt

/-- The declared share that the batch of a step is held to (R129, R142): of the own position, or of the one a shadow stands for. -/
def declaredShare (s : State) (c : Ctx) (p : Plan) : Nat := (declaredShares s c p).headD 0

/-- Input channels of a layer: the elements of one token of its stack copy. -/
def layerK (p : Plan) (l : LayerRec) : Nat :=
  match p.record l.xs with
  | some t => (t.dims.drop 1).foldl (· * ·) 1
  | none => 0

/-- Elements that a template's output has for one token, or none where its first dimension counts no tokens. -/
def tokenElems (p : Plan) (t : Template) : Option Nat :=
  match p.record (tTid t 29) with
  | some r => if r.token then some ((r.dims.drop 1).foldl (· * ·) 1) else none
  | none => none

/-- Bytes of the auxiliary record of an element-wise operation over n elements in rows of `len`: the input or inputs of an activation in
BF16, the row statistics of a normalisation in FP32, SOFTMAX's result in BF16 (R269, R270). -/
def auxOpBytes (op n len : Nat) : Nat :=
  if 0x10 ≤ op ∧ op ≤ 0x19 then 2 * n
  else match op with
    | 0x1A => 4 * n
    | 0x1B => 4 * n
    | 0x30 => 8 * (n / max len 1)
    | 0x31 => 4 * (n / max len 1)
    | 0x34 => 2 * n
    | _ => 0

/-- The forward element-wise templates of a layer that keep an auxiliary record (R132, R266). -/
def auxTemplates (p : Plan) (l : LayerRec) : List Template :=
  (p.layerTemplates l).filter (fun t => bits (tw t 0) 3 0 == 1 && bits (tw t 0) 7 4 == 0 && tTid t 32 != noTid)

/-- Bytes of the auxiliary records that a layer's element-wise work keeps for T tokens (R132, R140, R269). -/
def auxBytes (p : Plan) (l : LayerRec) (T : Nat) : Nat :=
  ((auxTemplates p l).map (fun t => auxOpBytes (tByte t 16) (match tokenElems p t with
    | some e => T * e
    | none => tw t 14) (tw t 11))).sum

/-- Pages of a layer's frame for T tokens (R140); none without tokens. -/
def framePages (p : Plan) (l : LayerRec) (T : Nat) : Nat :=
  let k := layerK p l
  let e := if l.bceil = 0 then 1 else 2
  if T = 0 then 0
  else pagesOf (T * k * e) + 2 * pagesOf ((T + 31) / 32 * k) + pagesOf (T * l.outCount * 2) + pagesOf (auxBytes p l T)

/-- What a recompute block's input adds (R140). -/
def inputExtra (p : Plan) (l : LayerRec) (T : Nat) : Nat :=
  let k := match p.record l.x with
    | some t => (t.dims.drop 1).foldl (· * ·) 1
    | none => 0
  pagesOf (T * k) + 2 * pagesOf (T * ((k + 31) / 32))

/-- Layers with bay W work keep a stack copy. -/
def stacked (l : LayerRec) : Bool := l.kind == 0 && l.xs != noTid

/-- Token segments of a share (R124). -/
def segmentsOf (tokens : Nat) : Nat := (tokens + 4095) / 4096

/-- The halls that run a layer's bay W work, with how many of its galleries each holds (R129, R130). -/
def layerHalls (c : Ctx) (p : Plan) (l : LayerRec) : SMap Nat :=
  let fs := (((p.layerTemplates l).filter (fun t =>
    bits (tw t 0) 3 0 == 0 && bits (tw t 0) 7 4 == 2 && bits (tByte t 28) 1 0 == 2)).map tFrame).eraseDups
  if stacked l then fs.foldl (fun m f => (c.frames.get [] f).foldl (fun m (x : Slot) => m.put 0 x.hall (m.get 0 x.hall + 1)) m) [] else []

/-- The halls that run a context's bay W work (R129). -/
def bayWHalls (c : Ctx) (p : Plan) : List Nat := (List.range 8).filter (fun h => p.layers.any (fun l => (layerHalls c p l).get 0 h != 0))

/-- A hall's part of T tokens, first and count: the token segments divided among the galleries that run the layer's bay W work, in hall
order (R66, R130, R265; log entry 155). -/
def hallPart (ws : SMap Nat) (T h : Nat) : Nat × Nat :=
  let n := (ws.map (·.2)).sum
  let lo := ((ws.filter (fun e => decide (e.1 < h))).map (·.2)).sum
  let S := segmentsOf T
  let cut (k : Nat) : Nat := min T ((S * k + n - 1) / n * 4096)
  if n = 0 then (0, 0) else (cut lo, cut (lo + ws.get 0 h) - cut lo)

/-- Tokens of half A of a split step: the first ceil(S / 2) segments (R124). -/
def halfATokens (T : Nat) : Nat := min T ((segmentsOf T + 1) / 2 * 4096)

/-- The tokens of each half of a share, or of the share alone in an unsplit step (R124). -/
def runParts (split : Bool) (T : Nat) : List Nat := if split then [halfATokens T, T - halfATokens T] else [T]

/-- A layer's pages in a hall for a run of T tokens: its frame, with its input at the head of a recompute block, nothing stored for an
interior layer (R136, R140). -/
def runPages (c : Ctx) (p : Plan) (l : LayerRec) (T h : Nat) : Nat :=
  let t := (hallPart (layerHalls c p l) T h).2
  if l.recomp && !l.rbstart then 0 else framePages p l t + (if l.recomp && t != 0 then inputExtra p l t else 0)

/-- Pages of the largest recompute interior in a hall for a run of T tokens: the layers after a block's first (R139, R141). -/
def interiorPages (c : Ctx) (p : Plan) (T h : Nat) : Nat :=
  (p.layers.foldl (fun (a : Nat × Nat) l =>
    if !l.recomp || l.rbstart then (0, a.2)
    else
      let n := a.1 + framePages p l (hallPart (layerHalls c p l) T h).2
      (n, max a.2 n)) (0, 0)).2

/-- Pages of a hall's part of a layer's held segment results in a split step, rounded up for each layer and hall (R124, R141; log
entry 154). -/
def heldPages (c : Ctx) (p : Plan) (l : LayerRec) (T h : Nat) : Nat :=
  let ws := layerHalls c p l
  let n := (ws.map (·.2)).sum
  let w := match p.record l.w with
    | some r => r.elems
    | none => 0
  if n = 0 then 0 else pagesOf ((segmentsOf T + 1) / 2 * w * 4 * ws.get 0 h / n)

/-- Pages of the frame table: a record for each stacked layer, each half and each position that runs here, with one more for held segment
results where the plan splits (R130, R131, R141). -/
def tablePages (c : Ctx) (p : Plan) : Nat :=
  pagesOf (32 * (p.layers.filter stacked).length * (if p.split then 3 else 1) * (c.taken.length + 1))

/-- The four parts of a hall's region for a step of the given shares (R130, R141): table, frames, the largest block interior, held
segment results. -/
structure RegionNeed where
  table : Nat
  frames : Nat
  scratch : Nat
  held : Nat

/-- What a hall needs for a step. -/
def regionNeed (c : Ctx) (p : Plan) (shares : List Nat) (split : Bool) (h : Nat) : RegionNeed :=
  let runs := shares.flatMap (runParts split)
  { table := tablePages c p
    frames := (runs.map (fun T => (p.layers.map (fun l => runPages c p l T h)).sum)).sum
    scratch := runs.foldl (fun m T => max m (interiorPages c p T h)) 0
    held := if split then (shares.map (fun T => (p.layers.map (fun l => heldPages c p l T h)).sum)).sum else 0 }

/-- Pages a hall needs for a step (R141). -/
def needPages (c : Ctx) (p : Plan) (shares : List Nat) (split : Bool) (h : Nat) : Nat :=
  let r := regionNeed c p shares split h
  r.table + r.frames + r.scratch + r.held

/-- Journal bytes of a parameter: 2 + 2 NMOM per element and 32 per slice (R161). -/
def journalBytes (p : Plan) (t : TensorRec) : Nat := t.elems * (2 + 2 * p.nmom t.tid) + 32 * sliceCountOf t

/-- The pages of each hall's stack region for the declared shares: enough for a split step where the plan splits, and for an unsplit one
(R129, R141). -/
def regionPages (s : State) (c : Ctx) (p : Plan) : SMap Nat :=
  let sh := declaredShares s c p
  (bayWHalls c p).foldl (fun (m : SMap Nat) h =>
    m.put 0 h (max (needPages c p sh false h) (if p.split then needPages c p sh true h else 0))) []

/-- Where the Scribe puts the regions: a free page-aligned address in each stack, fixed while the region stays (R129, R144; log
entry 10). -/
def regionBases (s : State) (pages : SMap Nat) : SMap Nat :=
  pages.foldl (fun (m : SMap Nat) e =>
    m.put 0 e.1 ((Config.freeWord (s.freeCtr + e.1)).toNat % (stackBytes s e.1 / 4096 + 1 - e.2) * 4096)) []

/-- Reserve the stack, journal and exchange regions of an active context; none where a stack cannot hold its share (R129,
R161, R188). The regions' addresses take eight free words. -/
def reserveRegions (s : State) (n : Nat) (c : Ctx) (p : Plan) : Option (State × Ctx) :=
  let pages := regionPages s c p
  let jb := if c.journal then byHomes c p (journalBytes p) else []
  let region := (List.range 8).foldl (fun (m : SMap Nat) h => m.put 0 h (pages.get 0 h * 4096 + jb.get 0 h)) ([] : SMap Nat)
  let ef := byHomes c p (fun t => if p.efOf t.tid then 8 * t.elems else 0)
  let c1 := { c with regionBytes := region, stackPages := pages, stackBase := regionBases s pages, exchBytes := ef }
  let s1 := putCtx s n c1
  if (List.range 8).all (fun h => decide (heldBytes s1 h ≤ stackBytes s1 h)) then some ({ s with freeCtr := s.freeCtr + 8 }, c1) else none

/-- A context that takes a lost member's position needs room for both shares: its regions grow in place where its stacks can hold them
(R129, R330; log entry 174). -/
def growRegions (s : State) (n : Nat) : State :=
  let c := getCtx s n
  match c.plan with
  | some p =>
    if c.state ≠ 2 then s
    else match reserveRegions s n c p with
      | some r => putCtx s n { r.2 with stackBase := c.stackBase }
      | none => s
  | none => s

/-! Frames (R279). -/

/-- Slots of the device in service and in no active frame: hall, aisle, slots. -/
def freeSlots (s : State) : List (Nat × Nat × List Nat) :=
  let taken := s.ctxs.flatMap (fun e => if e.2.state = 2 then e.2.frames.flatMap (·.2) else [])
  (List.range 128).map (fun i =>
    let h := i / 16
    let a := i % 16
    (h, a, (List.range 66).filter (fun n => (galAt s h a n).isSome && !taken.contains ⟨h, a, n⟩)))

/-- Take up to k slots of a hall: aisles by free slots descending, slots rising (R279 step 3). -/
def takeHall (free : List (Nat × Nat × List Nat)) (h k : Nat) : List Slot :=
  let as := (free.filter (fun x => x.1 == h)).mergeSort (fun a b =>
    decide (b.2.2.length < a.2.2.length) || (a.2.2.length == b.2.2.length && decide (a.2.1 ≤ b.2.1)))
  (as.flatMap (fun x => x.2.2.map (fun n => (⟨h, x.2.1, n⟩ : Slot)))).take k

/-- Free slots of a hall. -/
def hallFree (free : List (Nat × Nat × List Nat)) (h : Nat) : Nat := ((free.filter (fun x => x.1 == h)).map (·.2.2.length)).sum

/-- Take members out of the free slots. -/
def dropSlots (free : List (Nat × Nat × List Nat)) (ms : List Slot) : List (Nat × Nat × List Nat) :=
  free.map (fun x => (x.1, x.2.1, x.2.2.filter (fun n => !ms.contains ⟨x.1, x.2.1, n⟩)))

/-- The hall list of a frame: its home halls by resident bytes of its tensors, then the others by free slots (R279 step 2). -/
def hallList (c : Ctx) (p : Plan) (free : List (Nat × Nat × List Nat)) (f : Nat) : List Nat :=
  let hs := (c.frameHomes.get [] f).eraseDups
  let mine := p.params.filter (fun t => p.frameOf t.tid == some f)
  let bytes (h : Nat) : Nat := (mine.map (fun t =>
    let l := c.homes.get [] t.tid
    ((l.zipIdx.filter (fun x => x.1 == h)).map (fun x => sharePart (p.paramBytes t) (sliceCountOf t) x.2 l.length)).sum)).sum
  let homes := hs.mergeSort (fun a b => decide (bytes b < bytes a) || (bytes a == bytes b && decide (a ≤ b)))
  let others := ((List.range 8).filter (fun h => !hs.contains h)).mergeSort (fun a b =>
    decide (hallFree free b < hallFree free a) || (hallFree free a == hallFree free b && decide (a ≤ b)))
  homes ++ others

/-- The members one frame obtains (R279 step 3). -/
def placeFrame (c : Ctx) (p : Plan) (free : List (Nat × Nat × List Nat)) (f : Nat) (r : FrameReq) : List Slot :=
  let n := hallCount r
  let hs := hallList c p free f
  let lim := if r.hmax = 0 then 8 else min r.hmax 8
  let first := ((hs.take n).zipIdx).map (fun x => takeHall free x.1 (r.gwant / n + bnat (decide (x.2 < r.gwant % n))))
  let got := first.flatten
  let spans := (first.filter (fun l => !l.isEmpty)).length
  ((hs.drop n).foldl (fun (a : List Slot × Nat) h =>
    if a.1.length ≥ r.gwant ∨ a.2 ≥ lim then a
    else
      let t := takeHall free h (r.gwant - a.1.length)
      (a.1 ++ t, a.2 + bnat (!t.isEmpty))) (got, spans)).1

/-- The frame placement of a context against free slots; none where a frame obtains fewer than GMIN (R279). -/
def placeFrames (c : Ctx) (p : Plan) (table : List FrameReq) (free : List (Nat × Nat × List Nat)) : Option (SMap (List Slot)) :=
  ((frameOrder table).foldl (fun (acc : Option (SMap (List Slot) × List (Nat × Nat × List Nat))) fr => match acc with
    | none => none
    | some (m, fs) =>
      let ms := placeFrame c p fs fr.1 fr.2
      if ms.length < fr.2.gmin then none else some (m.insert fr.1 ms, dropSlots fs ms)) (some ([], free))).map (·.1)

/-- A cached placement may be used: CACHE_EN, and every slot free and in service (R284). -/
def cacheUsable (s : State) (c : Ctx) (free : List (Nat × Nat × List Nat)) : Bool :=
  bit (regGet s pgScribe Reg.PL_CTRL) 0 && !c.cached.isEmpty &&
    c.cached.all (fun f => f.2.all (fun m => free.any (fun x => x.1 == m.hall && x.2.1 == m.aisle && x.2.2.contains m.slot)))

/-! Pegs (R282). -/

/-- The lowest free peg, searching the halls from one on and wrapping. -/
def findPeg (s : State) (h : Nat) : Option Nat :=
  (List.range 8).findSome? (fun i =>
    let g := (h + i) % 8
    ((List.range 1024).find? (fun n => !(getPeg s (g * 1024 + n)).bound)).map (g * 1024 + ·))

/-- The plan pegs a template names: WAITPEG, DONEPEG and the peg of a peg operation on this device. -/
def tPegs (t : Template) : List Nat :=
  ([bits (tw t 2) 15 0, bits (tw t 2) 31 16].filter (· != 0xFFFF)) ++
    (if bits (tw t 0) 3 0 = 4 then [bits (tw t 4) 31 16] else [])

/-- The plan pegs of a plan in template order with the frame that names each first. -/
def planPegs (p : Plan) : List (Nat × Nat) :=
  p.templates.foldl (fun m t => (tPegs t).foldl (fun m q => if m.any (fun e => e.1 == q) then m else m ++ [(q, tFrame t)]) m) []

/-- The target a plan peg is bound with: the members addressed by the DONEPEG that names it, 1 where none does (R265, R378). -/
def pegTarget (c : Ctx) (p : Plan) (q : Nat) : Nat :=
  match p.templates.find? (fun t => bits (tw t 2) 31 16 == q) with
  | some t => (c.frames.get [] (tFrame t)).length
  | none => 1

/-- The hall of a frame's first member. -/
def frameHall (c : Ctx) (f : Nat) : Nat := ((c.frames.get [] f).head?.map (fun (m : Slot) => m.hall)).getD 0

/-- Bind the plan pegs and the three commit pegs of a context; none when the device has too few (R282). -/
def bindPegs (s : State) (n : Nat) (c : Ctx) (p : Plan) : Option (State × Ctx) :=
  let one (acc : Option (State × List Nat)) (x : Nat × Nat) : Option (State × List Nat) := match acc with
    | none => none
    | some (s, ks) => (findPeg s x.1).map (fun k => (bindPeg s k n x.2, ks ++ [k]))
  let pp := planPegs p
  match (pp.map (fun q => (frameHall c q.2, pegTarget c p q.1))).foldl one (some (s, [])) with
  | none => none
  | some (s1, ks) =>
    let need := if c.commitPegs.isEmpty then 3 else 0
    match ((List.replicate need (frameHall c 1, 0xFFFFFFFF)).foldl one (some (s1, []))) with
    | none => none
    | some (s2, cs) =>
      some (s2, { c with pegs := (pp.zip ks).foldl (fun m x => m.insert x.1.1 x.2) [],
                         commitPegs := if need = 0 then c.commitPegs else cs })

/-- Free a context's pegs; what waits on them ends OK-less with UNBOUND. -/
def freePegs (s : State) (c : Ctx) (keepCommit : Bool) : State :=
  ((c.pegs.map (·.2)) ++ (if keepCommit then [] else c.commitPegs)).foldl (freePeg 0x1A) s

/-! Waking halls (R397). -/

/-- Wake a sleeping hall: it is awake once HALL_WAKE_DONE arrives; requests wait until then. -/
def wakeHall (s : State) (h : Nat) : State :=
  if bit s.power.asleep h then { s with power := { s.power with waking := s.power.waking ||| 2 ^ h } } else s

/-- Wake the halls of a list. -/
def wakeHalls (s : State) (hs : List Nat) : State := hs.foldl wakeHall s

/-- Write a gallery's OWNER registers at frame formation and release (R430). -/
def setOwner (tag : Nat) (s : State) (m : Slot) : State :=
  match galAt s m.hall m.aisle m.slot with
  | some k =>
    let s1 := modGal s k (fun g => { g with powered := true })
    let g := k % 68
    [pgFArray m.hall m.aisle g, pgLanding m.hall m.aisle g, pgBArray m.hall m.aisle g].foldl
      (fun s p => regSet s p Reg.OWNER tag) s1
  | none => s

/-- Own the galleries of a context's frames. -/
def ownFrames (s : State) (c : Ctx) (tag : Nat) : State := (c.frames.flatMap (·.2)).foldl (setOwner tag) s

end Sys2Proof.Machine
end

