-- ==== Sys2Proof/Machine/Gauges.lean ====
section
/-! DEFINITION. The gauge engine: the CLOSE update of a gauge (R82, R86, R87, R108), gauge words (R80), staged writes (R106,
R107), the history window, and what a binding does to gauges (R95, R272). -/

namespace Sys2Proof.Machine

/-! The gauge word (R80). -/

/-- The 64 bits of a gauge word. -/
def Gauge.word (g : Gauge) : Nat :=
  g.pend % 2 ^ 16 + codeOf 10 g.gexp * 2 ^ 16 + g.margin % 8 * 2 ^ 26 + g.base % 8 * 2 ^ 29 + g.hcount % 32 * 2 ^ 32 +
    g.hwin % 16 * 2 ^ 37 + g.quiet % 2 ^ 16 * 2 ^ 41 + bnat g.trip * 2 ^ 57 + bnat g.wide * 2 ^ 58 + bnat g.survey * 2 ^ 59 +
    bnat g.top * 2 ^ 60 + bnat g.bound * 2 ^ 61 + g.kind % 4 * 2 ^ 62

/-- The gauge that a word and its history slots describe. -/
def Gauge.ofWord (w : Nat) (hist : List Nat) : Gauge :=
  { pend := bits w 15 0, gexp := signedOf 10 (bits w 25 16), margin := bits w 28 26, base := bits w 31 29,
    hcount := bits w 36 32, hwin := bits w 40 37, quiet := bits w 56 41, trip := bit w 57, wide := bit w 58,
    survey := bit w 59, top := bit w 60, bound := bit w 61, kind := bits w 63 62, hist := hist.take (bits w 36 32) }

/-! CLOSE (R86, R87, R108). -/

/-- F of a gauge: that of the tensor it is bound to, 127 for a bucket gauge (R81). -/
def gaugeF (p : Plan) (gi : Nat) : Nat × Int :=
  match p.gauges.find? (fun b => b.gauge == gi) with
  | some b =>
    if b.kind = 2 then (127, 0)
    else match p.fmtOf b.tid with
      | some d => fmaxOf d
      | none => (127, 0)
  | none => (127, 0)

/-- H of R82: the largest of the newest min(HWIN + 1, HCOUNT) slots. -/
def Gauge.top_ (g : Gauge) : Nat := (g.hist.take (min (g.hwin + 1) g.hcount)).foldl max 0

/-- The exponent recomputed at CLOSE; with HCOUNT = 0 it is not computed (R82). -/
def Gauge.recomputed (g : Gauge) (f : Nat × Int) : Int :=
  if g.hcount = 0 then g.gexp else fitCode g.top_ f + (g.margin : Int) - 2

/-- A margin raise (R87). -/
def Gauge.raised (g : Gauge) : Gauge := if g.margin < 6 then { g with margin := g.margin + 1 } else { g with top := true }

/-- What a committed attempt does to history, QUIET and margin (R86, R87). -/
def Gauge.committed (g : Gauge) (mdecay : Nat) : Gauge :=
  let g1 := if g.pend = 0 then g else { g with hist := (g.pend :: g.hist).take 16, hcount := min (g.hcount + 1) 16 }
  let q := if g.trip then 0 else min (g.quiet + 1) 65535
  if mdecay ≠ 0 ∧ mdecay ≤ q then { g1 with quiet := 0, margin := if g.base < g.margin then g.margin - 1 else g.margin }
  else { g1 with quiet := q }

/-- The CLOSE update of one gauge other than the loss scale's (R86, R108). -/
def Gauge.close (g : Gauge) (f : Nat × Int) (commit raise : Bool) (mdecay : Nat) : Gauge :=
  let g1 := if raise then g.raised else g
  let g2 := if commit then g1.committed mdecay else g1
  let g3 := { g2 with pend := 0, trip := false }
  { g3 with gexp := g3.recomputed f }

/-- A loss-scale gauge at CLOSE takes neither raises nor decay (R87); its exponent follows R237. -/
def Gauge.closeLs (g : Gauge) : Gauge := { g with pend := 0, trip := false }

/-- What R237 does to the loss scale: the gauge, whether it met LS_MIN, whether it grew or fell. -/
structure LsChange where
  g : Gauge
  floor : Bool := false
  lowered : Bool := false
  grew : Bool := false
  deriving DecidableEq, Repr

/-- The loss-scale rule at CLOSE (R237): clamp to the limits, lower, or count quiet steps and grow. -/
def Gauge.lossScale (g : Gauge) (commit lower : Bool) (lsMin lsMax : Int) (grow : Nat) : LsChange :=
  let l := max lsMin (min g.gexp lsMax)
  if lower then
    if l ≤ lsMin then { g := { g.closeLs with gexp := l, quiet := 0 }, floor := true }
    else { g := { g.closeLs with gexp := l - 1, quiet := 0 }, lowered := true }
  else if commit then
    let q := min (g.quiet + 1) 65535
    if grow ≠ 0 ∧ grow ≤ q then { g := { g.closeLs with gexp := min (l + 1) lsMax, quiet := 0 }, grew := true }
    else { g := { g.closeLs with gexp := l, quiet := q } }
  else { g := { g.closeLs with gexp := l } }

/-! Bindings (R86, R95, R260, R272). -/

/-- The gauge a binding gives: what carries over of the old one, or first use (R272, R95). -/
def bindGauge (old : Option BindRec) (g : Gauge) (b : BindRec) (lsInit : Int) : Gauge :=
  let keeps := match old with
    | some o => o.tid == b.tid && o.kind == b.kind && o.bucket == b.bucket
    | none => false
  let m := max g.margin b.margin
  if keeps then { g with base := b.margin, hwin := b.hwin, margin := m, bound := true }
  else { bound := true, kind := b.kind, base := b.margin, margin := b.margin, hwin := b.hwin,
         gexp := if b.kind = 3 then lsInit else 0 }

/-- Gauges after binding a plan: old bindings not bound again keep their word with BOUND cleared (R272); the loss-scale gauge starts at
LS_INIT clamped to SB_LS (R95, R254). -/
def bindGauges (lsMin lsMax : Int) (old : Option Plan) (new : Plan) (gs : SMap Gauge) : SMap Gauge :=
  let gone := gs.map (fun e => (e.1, if new.gauges.any (fun b => b.gauge == e.1) then e.2 else { e.2 with bound := false }))
  new.gauges.foldl (fun m b =>
    let o := old.bind (fun p => p.gauges.find? (fun x => x.gauge == b.gauge))
    m.put {} b.gauge (bindGauge o (m.get {} b.gauge) b (max lsMin (min new.lsInit lsMax)))) gone

/-! Staged words (R106, R107). -/

/-- The key of a staged word. -/
def stageKey (ctx g : Nat) : Nat := ctx * 65536 + g

/-- A staged word meets its boundary: refused with a MARGIN or BASE code of 7 or a raised HCOUNT; PEND and TRIP are ignored
(R106). -/
def applyWord (g : Gauge) (w : Nat) : Gauge :=
  let n := Gauge.ofWord w g.hist
  if n.margin = 7 ∨ n.base = 7 ∨ g.hcount < n.hcount then g
  else { n with pend := g.pend, trip := g.trip, hist := g.hist.take n.hcount }

/-- A word whose boundary has come applies to its gauge. -/
def applyDue (s : State) (ctx g : Nat) : State :=
  match s.gauge.due.find (stageKey ctx g) with
  | none => s
  | some w => modCtx { s with gauge := { s.gauge with due := s.gauge.due.erase (stageKey ctx g) } } ctx
      (fun c => { c with gauges := c.gauges.put {} g (applyWord (c.gauges.get {} g) w) })

/-- A staged word's boundary has come: it applies, or waits for the CLOSE update of its gauge (R106, R108). -/
def meetBoundary (s : State) (ctx g : Nat) : State :=
  let k := stageKey ctx g
  match s.gauge.staged.find k with
  | none => s
  | some w =>
    let s1 := { s with gauge := { s.gauge with staged := s.gauge.staged.erase k, due := s.gauge.due.insert k w } }
    if (getCtx s ctx).closing.contains g then s1 else applyDue s1 ctx g

/-- The boundary of a context: every word staged for it. -/
def applyAllStaged (s : State) (ctx : Nat) : State :=
  (s.gauge.staged.map (·.1)).foldl (fun s k => if k / 65536 = ctx then meetBoundary s ctx (k % 65536) else s) s

/-! The order of CLOSE updates (R108). -/

/-- The gauges that a template's conversions run under: of what it writes, and of the stack copies written with it. -/
def tGauges (p : Plan) (t : Template) : List Nat :=
  (tOuts t).flatMap (fun tid =>
    (tid :: (if bits (tw t 0) 7 4 = 0 then (p.stackLayers tid).map (fun l => l.2.xs) else [])).filterMap (p.gaugeOf 0))

/-- The bound gauges in the order of their first use by a step of a plan (R108): layers forward, the loss with the loss scale, layers
backward, then weight and bucket gauges as they are bound (log entry 148). -/
def useOrder (p : Plan) : List Nat :=
  let of (ph : Nat) (l : LayerRec) : List Nat :=
    ((p.layerTemplates l).filter (fun t => bits (tw t 0) 7 4 == ph)).flatMap (tGauges p)
  (p.layers.flatMap (of 0) ++ p.lossGauge.toList ++ p.layers.flatMap (of 1) ++ p.layers.reverse.flatMap (of 2) ++
    p.gauges.map (·.gauge)).eraseDups

/-- The next gauge's CLOSE update finishes (R108). -/
def finishGauge (s : State) (ctx : Nat) : State :=
  match (getCtx s ctx).closing with
  | [] => s
  | g :: rest => applyDue (modCtx s ctx (fun c => { c with closing := rest })) ctx g

/-- CLOSE updates finish until `n` of them have. -/
def finishGauges : Nat → State → Nat → State
  | 0, s, _ => s
  | n + 1, s, ctx => finishGauges n (finishGauge s ctx) ctx

/-- A gauge that the next step reads before its update finished delays the read: the engine comes to it first, in its order (R108). -/
def awaitGauge (s : State) (ctx g : Nat) : State :=
  let cl := (getCtx s ctx).closing
  if cl.contains g then finishGauges (cl.idxOf g + 1) s ctx else s

/-- The gauges that a work order reads are awaited: of what it writes, of the stack copies beside it, the loss scale in the loss
(R83, R108, R237). -/
def awaitGauges (s : State) (w : WoHdr) (outs : List Nat) : State :=
  let c := getCtx s w.ctx
  match c.plan with
  | none => s
  | some p =>
    let tids := outs ++ outs.flatMap (fun i => (c.stackOuts w i).map (fun l => l.2.xs))
    (tids.filterMap (p.gaugeOf 0) ++ (if w.phase = 1 then p.lossGauge.toList else [])).foldl (fun s g => awaitGauge s w.ctx g) s

/-- Entries of the staging store (R107). -/
def stageRoom : Nat := 4096

/-- The context and gauge selected in GE_WIN. -/
def geSelected (s : State) : Nat × Nat := (fld s pgGauge Reg.GE_WIN 25 16, fld s pgGauge Reg.GE_WIN 15 0)

/-- A write to GE_WORD_HI stages the word; a full store ignores a new pair; a context that is not resident refuses it
(R106, R107). A context that stands at its boundary takes it at once. -/
def stageWord (s : State) (hi : Nat) : State :=
  let sel := geSelected s
  let c := getCtx s sel.1
  let k := stageKey sel.1 sel.2
  let w := s.gauge.hold + hi % 2 ^ 32 * 2 ^ 32
  if c.state = 0 then s
  else if (s.gauge.staged.find k).isNone && decide (stageRoom ≤ s.gauge.staged.length + s.gauge.due.length) then s
  else
    let s1 := { s with gauge := { s.gauge with staged := s.gauge.staged.insert k w } }
    if c.atBoundary then meetBoundary s1 sel.1 sel.2 else s1

/-! The commands. -/

/-- GE_WORD_LO: the low half of the holding register (R107). -/
def execGeWordLo (x : Word) (s : State) : Host.Outcome State Fault Refusal :=
  .next { s with gauge := { s.gauge with hold := x.toNat } }

/-- GE_WORD_HI (R107). -/
def execGeWordHi (x : Word) (s : State) : Host.Outcome State Fault Refusal := .next (stageWord s x.toNat)

/-- GE_HIST_FETCH: a read of GE_HIST fetches the selected gauge's slots; a window already fetched stays (R106). -/
def execGeHistFetch (_ : Nat) (s : State) : Host.Outcome State Fault Refusal :=
  let sel := geSelected s
  if s.gauge.window = some sel then .next s
  else .next { s with gauge := { s.gauge with window := some sel, ready := false, hist := [] } }

/-- GE_HIST_READY: the slots are valid (R106). -/
def execGeHistReady (s : State) : Host.Outcome State Fault Refusal :=
  match s.gauge.window with
  | some (c, g) => .next { s with gauge := { s.gauge with ready := true, hist := ((getCtx s c).gauges.get {} g).hist } }
  | none => .next s

/-- CLOSE_UPDATE_DONE: of the gauge whose turn it is (R108). -/
def execCloseUpdateDone (ctx gauge : Nat) (s : State) : Host.Outcome State Fault Refusal :=
  if (getCtx s ctx).closing.head? = some gauge then .next (finishGauge s ctx) else .next s

end Sys2Proof.Machine
end

