-- ==== Sys2Proof/Machine/Copies.lean ====
section
/-! DEFINITION. Slices of a parameter (R120), channel-maximum tables and forward copies (R83, R85, R93, R158, R159, R228). -/

namespace Sys2Proof.Machine

/-- Input channels of a weight tensor: elements of one output channel. -/
def TensorRec.kdim (t : TensorRec) : Nat := max 1 ((t.dims.drop 1).foldl (· * ·) 1)

/-- The logical indices of a slice, in order of k and then n (R120). -/
def sliceIdx (t : TensorRec) (ord : Nat) : List Nat :=
  let K := t.kdim
  let N := t.dims.headD 1
  let kt := (K + 63) / 64
  let n0 := ord / kt * 64
  let k0 := ord % kt * 64
  (List.range (min 64 (K - k0))).flatMap (fun i => (List.range (min 64 (N - n0))).map (fun j => (n0 + j) * K + k0 + i))

/-- The elements of a bucket's slice range. -/
def rangeIdx (t : TensorRec) (first count : Nat) : List Nat := (List.range count).flatMap (fun i => sliceIdx t (first + i))

/-- BF16 codes of a stored tensor at logical indices. -/
def codesAt (t : Tensor) (is : List Nat) : List Nat :=
  is.map (fun i => t.codeAt (i / max t.rowLen 1) (i % max t.rowLen 1))

/-- Write codes at logical indices. -/
def putCodesAt (t : Tensor) (is qs : List Nat) : Tensor := (is.zip qs).foldl (fun t p => t.putAt p.1 p.2) t

/-- A BF16 code's magnitude as a stored maximum; NaN and infinity are left out (R84). -/
def magCode (q : Nat) : Nat := if q % 2 ^ 15 < 0x7F80 then q % 2 ^ 15 else 0

/-- Merge magnitudes into a channel-maximum table (R159). -/
def mergeMax (m : SMap Nat) (row q : Nat) : SMap Nat := m.put 0 row (max (m.get 0 row) (magCode q))

/-- The channel-maximum table of whole master weights (R93). -/
def chanTable (w : Tensor) : SMap Nat :=
  (List.range w.rows).foldl (fun m r => (List.range w.rowLen).foldl (fun m c => mergeMax m r (w.codeAt r c)) m) []

/-- Ec of a channel under a weight gauge: 127 + fit(cmax, F) + margin, clamped (R83, R35); whether the top and the bottom
clamp hit. -/
def channelScale (cmax : Nat) (f : Nat × Int) (margin : Int) : Nat × Bool × Bool := e8m0 (fitCode cmax f + margin)

/-- Write values into a forward copy under the live table: every group of 32 along a channel's row under the channel's scale, with
its saturations, vanished and whole saturated groups, clamps and poison (R41, R83, R101-R103, R159). -/
def copyInto (table : SMap Nat) (margin : Int) (t : Tensor) (is : List Nat) (xs : List Fp) : Landed :=
  let f := fmaxOf t.d
  let es := (is.zip xs).map (fun p => (⟨p.1, p.2, true⟩ : Elem))
  (groupElems t es).foldl (fun (a : Landed) g => a.then_ (fun t =>
    let r := (g.headD ⟨0, .zero false, true⟩).i / max t.rowLen 1
    let e := channelScale (table.get 0 r) f margin
    let fresh := t.chan.get 0x7F r != e.1
    let l := landGroup { et := 0x7F } { t with chan := t.chan.put 0x7F r e.1 } g
    { l with tally := l.tally.add { ovf := bnat (e.2.1 && fresh), unf := bnat (e.2.2 && fresh) }, trip := l.trip || e.2.1 })) { t := t }

/-- A whole forward copy made from master weights (R93). -/
def wholeCopy (table : SMap Nat) (margin : Int) (blank w : Tensor) : Landed :=
  copyInto table margin blank (List.range w.size) ((List.range w.size).map w.at_)

/-- At context load: fill the channel-maximum tables that are missing, then the forward copies that are (R93). -/
def loadCopies (p : Plan) (c : Ctx) : Ctx :=
  p.params.foldl (fun c t =>
    match c.tensors.find t.tid, p.copyOf t.tid with
    | some w, some r =>
      if (c.tensors.find r.tid).isSome then c
      else
        let table := chanTable w
        let margin := match p.gaugeOf 1 r.tid with
          | some g => ((c.gauges.get {} g).margin : Int) - 2
          | none => 0
        let l := wholeCopy table margin { r.blank with et := 0x7F } w
        { c with chanMax := c.chanMax.put [] t.tid table, tensors := c.tensors.put {} r.tid l.t }
    | _, _ => c) c

/-! Made copies (R228). -/

/-- The operand of a tread above the base, converted from the master weights (R228): W4 and W8 signed by channel from the live
table without a margin, G8 blocked along k with exact fits, BF16 as it is. -/
def madeCopy (c : Ctx) (param : TensorRec) (tread : Nat) : Tensor :=
  let w := c.tensor param.tid
  let table := c.chanMax.get [] param.tid
  let shape : Tensor := { rows := w.rows, rowLen := w.rowLen, blen := 0 }
  match tread with
  | 1 => (wholeCopy table 0 { shape with desc := (Desc.mk .w4 1 true).toByte } w).t
  | 2 => (wholeCopy table 0 { shape with desc := (Desc.mk .w8 1 true).toByte } w).t
  | 3 => (landFrom { capped := false } c.epoch [] { shape with desc := (Desc.mk .g8 2 false).toByte } 0 ((List.range w.size).map w.at_)).t
  | _ => w

/-- The key of a made copy: forward copy and tread. -/
def madeKey (tid tread : Nat) : Nat := tread * 2 ^ 24 + tid

/-- The weight operand a forward tile reads at a tread (R225, R265). -/
def Ctx.weightAt (c : Ctx) (tid tread : Nat) : Tensor :=
  match c.made.find (madeKey tid tread) with
  | some t => t
  | none => c.tensor tid

end Sys2Proof.Machine
end

