-- ==== Sys2Proof/Machine/Scalars.lean ====
section
/-! DEFINITION. The scalar block of an optimizer record for a context's next step (R150, R152, R263). -/

namespace Sys2Proof.Machine

def f64add (a b : Nat) : Nat := (ieeeAdd .fp64 .rne a b).1
def f64sub (a b : Nat) : Nat := (ieeeSub .fp64 .rne a b).1
def f64mul (a b : Nat) : Nat := (ieeeMul .fp64 .rne a b).1
def f64div (a b : Nat) : Nat := (ieeeDiv .fp64 .rne a b).1

/-- An FP32 code widened exactly to binary64. -/
def to64 (q : Nat) : Nat := (ieeeConv .fp32 .fp64 .rne q).1

/-- A binary64 code rounded once to FP32. -/
def to32 (q : Nat) : Nat := (ieeeConv .fp64 .fp32 .rne q).1

/-- An integer as binary64. -/
def int64 (n : Int) : Nat := (ieeeOf .fp64 .rne (decide (n < 0)) n.natAbs 1 0).1

def one64 : Nat := 0x3FF0000000000000
def two64 : Nat := 0x4000000000000000
def pi64 : Nat := 0x400921FB54442D18

/-- b^n by square-and-multiply over the bits of n from the most significant (R152). -/
def pow64 (b n : Nat) : Nat :=
  (List.range (Nat.log2 n + 1)).reverse.foldl (fun r i =>
    let q := f64mul r r
    if bit n i then f64mul q b else q) one64

/-- 1 / (1 - b^n), rounded once to FP32 (R152). -/
def biasCorrection (b n : Nat) : Nat := to32 (f64div one64 (f64sub one64 (pow64 (to64 b) n)))

/-- The learning rate at n = t + 1 under the record's schedule (R263). -/
def learningRate (o : OptRec) (n : Nat) : Nat :=
  let lr := to64 (o.scal.getD 0 0)
  let lmin := to64 (o.scal.getD 1 0)
  match o.sched with
  | 1 =>
    if o.total ≤ n then to32 lmin
    else if n ≤ o.warmup then to32 (f64div (f64mul lr (int64 n)) (int64 o.warmup))
    else
      let d := f64sub lr lmin
      let q := f64div (int64 ((n : Int) - o.warmup)) (int64 ((o.total : Int) - o.warmup))
      let c := cos64 (f64mul pi64 q)
      let v := f64div (f64add one64 c) two64
      to32 (f64add lmin (f64mul d v))
  | 2 =>
    let p := pow64 (to64 o.factor) (n / max o.period 1)
    to32 (ieeeMax .fp64 lmin (f64mul lr p)).1
  | _ => o.scal.getD 0 0

/-- The sixteen scalars s0 to s15 for counter t (R150, R152, R263). -/
def scalarBlock (o : OptRec) (t : Nat) : List Nat :=
  let x (i : Nat) : Nat := o.scal.getD i 0
  [learningRate o (t + 1), x 2, x 3, x 4, x 5, x 6, x 7, biasCorrection (x 2) (t + 1), biasCorrection (x 4) (t + 1),
    x 8, x 9, x 10, x 11, x 12, x 13, x 14]

/-- Compute every block of a context from its counters (R150). -/
def computeScalars (c : Ctx) : Ctx :=
  match c.plan with
  | some p => { c with scalars := (p.opts.zipIdx).foldl (fun m x => m.insert x.2 (scalarBlock x.1 (c.optCtr.get 0 x.2))) [] }
  | none => c

end Sys2Proof.Machine
end

