-- ==== Sys2Proof/Machine/Images.lean ====
section
/-! DEFINITION. Context images and KJ7 snapshots as bytes (R288-R293). -/

namespace Sys2Proof.Machine

/-- The 8 bytes of a frame request (R277). -/
def FrameReq.bytes (r : FrameReq) : List Byte := natLe (r.gmin + r.gwant * 2 ^ 16 + r.hmin * 2 ^ 32 + r.hmax * 2 ^ 36) 8

/-- The bytes of a table. -/
def tableBytes (t : List FrameReq) : List Byte := t.flatMap FrameReq.bytes

/-- A section: kind, TID, bytes. -/
structure Section where
  kind : Nat
  tid : Nat
  data : List Byte
  deriving DecidableEq, Repr

/-- All code bytes of a tensor. -/
def Tensor.bytes (t : Tensor) : List Byte := t.codes.readBytes 0 (t.rows * t.d.fmt.rowBytes t.rowLen)

/-- The record of a gauge in section 0x07: index, word without PEND and TRIP, 16 slots (R288, R290). -/
def gaugeRecord (i : Nat) (g : Gauge) : List Byte :=
  natLe i 4 ++ natLe ({ g with pend := 0, trip := false } : Gauge).word 8 ++
    (List.range 16).flatMap (fun j => natLe (g.hist.getD j 0) 2)

/-- The counters' section: per optimizer record its counter, per layer its backward tread and BQUIET, then per forward copy in
plan order its tensor and channel exponents. The spec gives this section no layout (log entry 23). -/
def countersBytes (c : Ctx) (p : Plan) : List Byte :=
  (List.range p.opts.length).flatMap (fun i => natLe (c.optCtr.get 0 i) 4) ++
    (List.range p.layers.length).flatMap (fun i => natLe (c.btread.get 0 i) 2 ++ natLe (c.bquiet.get 0 i) 2) ++
    (p.tensors.filter (fun t => t.role == 3)).flatMap (fun t =>
      let x := c.tensor t.tid
      natLe x.et 1 ++ (List.range (t.dims.headD 1)).flatMap (fun n => natLe (x.chan.get 0x7F n) 1))

/-- The sections of a context's image (R288, R290). -/
def imageSections (s : State) (c : Ctx) : List Section :=
  match c.plan with
  | none => []
  | some p =>
    let ofRole (r k : Nat) : List Section := (p.tensors.filter (fun t => t.role == r)).map (fun t => ⟨k, t.tid, ((c.open_ t.tid)).bytes⟩)
    [⟨1, 0, p.image ++ tableBytes c.table⟩] ++ ofRole 1 2 ++ ofRole 2 3 ++ ofRole 3 4 ++
      p.params.map (fun t => ⟨5, t.tid, (List.range (t.dims.headD 1)).flatMap (fun n => natLe (SMap.get 0 n (c.chanMax.get [] t.tid)) 2)⟩) ++
      (p.params.filter (fun t => p.efOf t.tid)).map (fun t =>
        ⟨6, t.tid, (List.range t.elems).flatMap (fun i => natLe (SMap.get 0 i (c.residual.get [] t.tid)) 4)⟩) ++
      [⟨7, 0, p.gauges.flatMap (fun b => gaugeRecord b.gauge (c.gauges.get {} b.gauge))⟩, ⟨8, 0, countersBytes c p⟩,
       ⟨9, 0, p.groups.flatMap (fun g => natLe ((g.position (deviceId s)).getD 0) 2)⟩]

/-- Offsets of sections aligned to 64 bytes from a start, and the end. -/
def sectionOffsets : Nat → List Section → List Nat × Nat
  | e, [] => ([], e)
  | e, x :: t =>
    let o := align64 e
    let r := sectionOffsets (o + x.data.length) t
    (o :: r.1, r.2)

/-- Pad bytes to a length. -/
def padTo (l : List Byte) (n : Nat) : List Byte := l ++ List.replicate (n - l.length) 0

/-- An image in its three parts: header, directory, sections with their offsets (R290). -/
structure ImageParts where
  header : List Byte
  dir : List Byte
  secs : List (Nat × List Byte)
  len : Nat
  deriving DecidableEq, Repr

/-- The bytes of the parts together. -/
def ImageParts.bytes (x : ImageParts) : List Byte :=
  x.secs.foldl (fun l s => padTo l s.1 ++ s.2) (x.header ++ x.dir)

/-- The 128 header bytes without the digest (R290). -/
def imageHeader (s : State) (c : Ctx) (nsect len : Nat) (digest : List Byte) : List Byte :=
  natLe (0x49584A4B + 1 * 2 ^ 32 + fld s pgDevice Reg.DV_CFG 17 14 * 2 ^ 48 + bnat c.journal * 2 ^ 52 + bnat c.seed.isSome * 2 ^ 53) 8 ++
    natLe (c.seed.getD 0).toNat 8 ++ natLe c.step 4 ++ natLe c.evalno 4 ++ natLe nsect 4 ++ natLe 0 4 ++ natLe len 8 ++
    digest ++ List.replicate 56 0

/-- The context image (R289, R290). -/
def contextImage (s : State) (c : Ctx) : ImageParts :=
  let ss := imageSections s c
  let lay := sectionOffsets (128 + 32 * ss.length) ss
  let dir := (ss.zip lay.1).flatMap (fun x =>
    natLe (x.1.kind + x.1.tid * 2 ^ 8) 4 ++ natLe x.2 8 ++ natLe x.1.data.length 8 ++ natLe (crc32c x.1.data) 4 ++ natLe 0 8)
  let secs := (ss.zip lay.1).map (fun x => (x.2, x.1.data))
  let zero := imageHeader s c ss.length lay.2 (List.replicate 32 0)
  let blank : ImageParts := ⟨zero, dir, secs, lay.2⟩
  { blank with header := imageHeader s c ss.length lay.2 (sha256 blank.bytes) }

/-- The KJ7 snapshot, version 3 (R293). -/
def kj7Image (c : Ctx) (p : Plan) : ImageParts :=
  let ts := (p.tensors.filter (fun t => t.role == 1 || t.role == 2)).mergeSort (fun a b => decide (a.tid ≤ b.tid))
  let ss : List Section := ts.map (fun t => ⟨0, t.tid, (c.open_ t.tid).bytes⟩)
  let lay := sectionOffsets (64 + 64 * ts.length) ss
  let optCtr (t : TensorRec) : Nat := match p.optOf (if t.role = 1 then t.tid else t.parent) with
    | some i => c.optCtr.get 0 i
    | none => 0
  let dir := ((ts.zip ss).zip lay.1).flatMap (fun x =>
    let t := x.1.1
    natLe (t.tid + (if t.role = 1 then 0 else 1 + t.mslot) * 2 ^ 24 + t.rank % 4 * 2 ^ 40) 8 ++
      (List.range 4).flatMap (fun i => natLe (t.dims.getD i 1) 4) ++ natLe x.2 8 ++ natLe x.1.2.data.length 8 ++
      natLe (crc32c x.1.2.data) 4 ++ natLe (optCtr t) 4 ++ natLe 0 16)
  let header := natLe (0x53374A4B + 3 * 2 ^ 32) 8 ++ natLe ts.length 4 ++ natLe c.step 4 ++ natLe (c.seed.getD 0).toNat 8 ++
    natLe (crc32c dir) 4 ++ natLe 0 36
  ⟨header, dir, (ss.zip lay.1).map (fun x => (x.2, x.1.data)), lay.2⟩

/-! Reading an image (R291). -/

/-- What a directory entry says: kind, TID, offset, length, CRC. -/
def dirEntry (img : List Byte) (i : Nat) : Nat × Nat × Nat × Nat × Nat :=
  let e := recNat img (128 + 32 * i) 32
  (bits e 7 0, bits e 31 8, bits e 95 32, bits e 159 96, bits e 191 160)

/-- MAGIC, VERSION, LENGTH and DIGEST (R291 step 1). -/
def imageHeaderOk (img : List Byte) : Bool :=
  let h := recNat img 0 128
  decide (128 ≤ img.length) && bits h 31 0 == 0x49584A4B && bits h 47 32 == 1 && bits h 319 256 == img.length &&
    decide (128 + 32 * bits h 223 192 ≤ img.length) &&
    decide ((img.drop 40).take 32 = sha256 (img.take 40 ++ List.replicate 32 0 ++ img.drop 72))

/-- The sections of an image. -/
def readSections (img : List Byte) : List (Section × Nat) :=
  (List.range (recNat img 24 4)).map (fun i =>
    let e := dirEntry img i
    (⟨e.1, e.2.1, (img.drop e.2.2.1).take e.2.2.2.1⟩, e.2.2.2.2))

/-- Every section CRC (R291 step 2). -/
def sectionsOk (ss : List (Section × Nat)) : Bool := ss.all (fun x => crc32c x.1.data == x.2)

/-- The data of the section of a kind and TID. -/
def sectionData (ss : List (Section × Nat)) (kind tid : Nat) : List Byte :=
  ((ss.find? (fun x => x.1.kind == kind && x.1.tid == tid)).map (·.1.data)).getD []

/-- Words of w bytes as a map from index, zeros left out. -/
def wordsMap (w : Nat) (l : List Byte) : SMap Nat :=
  (List.range (l.length / w)).foldl (fun m i => m.put 0 i (recNat l (w * i) w)) []

/-- A tensor of a record filled with code bytes from outside (R33). -/
def TensorRec.filled (r : TensorRec) (l : List Byte) : Tensor :=
  let b := r.blank
  ({ b with codes := Mem.writeBytes [] 0 l } : Tensor).markExt 0 b.size

/-- The gauges of section 0x07. -/
def readGauges (l : List Byte) : SMap Gauge :=
  (List.range (l.length / 44)).foldl (fun m i =>
    let o := 44 * i
    m.put {} (recNat l o 4) (Gauge.ofWord (recNat l (o + 4) 8) ((List.range 16).map (fun j => recNat l (o + 12 + 2 * j) 2)))) []

/-- The counters of section 0x08 back into a context (log entry 23). -/
def readCounters (c : Ctx) (p : Plan) (l : List Byte) : Ctx :=
  let no := p.opts.length
  let nl := p.layers.length
  let c1 := { c with
    optCtr := (List.range no).foldl (fun m i => m.put 0 i (recNat l (4 * i) 4)) []
    btread := (List.range nl).foldl (fun m i => m.put 0 i (recNat l (4 * no + 4 * i) 2)) []
    bquiet := (List.range nl).foldl (fun m i => m.put 0 i (recNat l (4 * no + 4 * i + 2) 2)) [] }
  ((p.tensors.filter (fun t => t.role == 3)).foldl (fun (a : Ctx × Nat) t =>
    let n := t.dims.headD 1
    let x := a.1.tensor t.tid
    let ch := (List.range n).foldl (fun (m : SMap Nat) i => m.put 0x7F i (recNat l (a.2 + 1 + i) 1)) ([] : SMap Nat)
    (a.1.putTensor t.tid { x with et := recNat l a.2 1, chan := ch }, a.2 + 1 + n)) (c1, 4 * no + 4 * nl)).1

/-- Every tensor, table, residual, gauge and counter of an image into a context that holds nothing yet. -/
def fillContext (c : Ctx) (p : Plan) (ss : List (Section × Nat)) : Ctx :=
  let put (c : Ctx) (role kind : Nat) : Ctx :=
    (p.tensors.filter (fun t => t.role == role)).foldl (fun c t =>
      match ss.find? (fun x => x.1.kind == kind && x.1.tid == t.tid) with
      | some x => c.putTensor t.tid (t.filled x.1.data)
      | none => c) c
  let c1 := put (put (put c 1 2) 2 3) 3 4
  let c2 := { c1 with
    chanMax := p.params.foldl (fun m t => m.put [] t.tid (wordsMap 2 (sectionData ss 5 t.tid))) []
    residual := p.params.foldl (fun m t => m.put [] t.tid (wordsMap 4 (sectionData ss 6 t.tid))) []
    gauges := readGauges (sectionData ss 7 0) }
  readCounters c2 p (sectionData ss 8 0)

end Sys2Proof.Machine
end

