-- ==== Sys2Proof/Machine/Contexts.lean ====
section
/-! DEFINITION. The context-management commands and the Scribe's re-placement (R271, R272, R275-R293). -/

namespace Sys2Proof.Machine

/-! Boundaries and refusals. -/

/-- A context stands where a boundary command may act: no attempt, pass, export or rollback; a simulation context with empty
queues (R206, R275). -/
def cmdBoundary (s : State) (n : Nat) : Bool :=
  let c := getCtx s n
  c.attempt.isNone && c.evalRun.isNone && !c.exporting && c.rollback.isEmpty && quietCtx s n

/-- Refuse: PL_ERR's bit where the status has one, then the answer (R294). -/
def refuse (s : State) (o : Origin) (st : Nat) (payload : List Byte) : State :=
  let s1 := if st = stNoUnits then setErr s pgScribe 0 else if st = stNoPegs then setErr s pgScribe 1
    else if st = stNoMemory then setErr s pgScribe 2 else s
  respond s1 o st payload

/-- What trying to place gives: the state reached, or the state as it was, and a status. -/
structure Did where
  s : State
  status : Nat := 0
  idx : Nat := 0

/-- Contexts that are ACTIVE. -/
def activeCtxs (s : State) : List Nat := (s.ctxs.filter (fun e => e.2.state == 2)).map (·.1)

/-- The lowest free gauge slot of hub A. -/
def freeSlot (s : State) : Nat :=
  let used := s.ctxs.filterMap (fun e => e.2.slot)
  ((List.range 64).find? (fun i => !used.contains i)).getD 0

/-- Another active context holds one of the plan's tag groups (R183). -/
def tagTaken (s : State) (n : Nat) (p : Plan) : Bool :=
  s.ctxs.any (fun e => e.1 != n && e.2.state == 2 && (match e.2.plan with
    | some q => q.groups.any (fun g => p.groups.any (fun h => h.tagGroup == g.tagGroup))
    | none => false))

/-! Leaving and entering the active set (R275, R279, R282, R284). -/

/-- ACTIVE to RESIDENT: frames, pegs, tags, slot and regions released, the placement kept (R275, R284). -/
def releaseActive (s : State) (n : Nat) : State :=
  let c := getCtx s n
  let s1 := ownFrames (freePegs s c false) c 0
  putCtx s1 n { getCtx s1 n with state := 1, cached := c.frames, frames := [], frameQueues := [], pegs := [], commitPegs := [], slot := none,
                                 regionBytes := [], stackPages := [], stackBase := [], stack := {}, jslots := [] }

/-- The halls whose stacks hold a context's resident state (R278). -/
def homeHalls (c : Ctx) : List Nat := (c.homeBytes.filter (fun e => e.2 != 0)).map (·.1)

/-- Form frames, bind pegs, reserve regions for a context whose number is `n`, against what is free (R275, R279, R282). -/
def formActive (s : State) (n : Nat) (c : Ctx) (p : Plan) (frames : Option (SMap (List Slot))) (keepCommit : Bool) : Did :=
  match frames with
  | none => { s := s, status := stNoUnits }
  | some fr =>
    let c1 := { c with state := 2, frames := fr }
    match bindPegs s n (if keepCommit then c1 else { c1 with commitPegs := [] }) p with
    | none => { s := s, status := stNoPegs }
    | some (s1, c2) =>
      if tagTaken s n p then { s := s, status := stTagBusy }
      else
        match reserveRegions s1 n c2 p with
        | none => { s := s, status := stNoMemory }
        | some (s2, c3) => { s := wakeHalls (ownFrames (putCtx s2 n c3) c3 (ctxTag s n)) (fr.flatMap (fun f => f.2.map (·.hall)) ++ homeHalls c3) }

/-- RESIDENT to ACTIVE (R275, R284); a replacing table governs frame placement from now on. -/
def activate (s : State) (n slot : Nat) (table : Option (List Byte)) : Did :=
  let c := getCtx s n
  match c.plan with
  | none => { s := s, status := stCtxInvalid }
  | some p =>
    if c.state ≠ 1 then { s := s, status := stCtxInvalid }
    else if (match table with
      | some l => !tableOk p.nframe l
      | none => false) then { s := s, status := stPlanInvalid }
    else if 64 ≤ (activeCtxs s).length then { s := s, status := stActiveLimit }
    else
      let c1 := { c with table := (table.map readTable).getD c.table, slot := some slot, noFit := false }
      let free := freeSlots s
      let cached := cacheUsable s c1 free && table.isNone
      let d := formActive s n c1 p (if cached then some c1.cached else placeFrames c1 p c1.table free) false
      if d.status ≠ 0 then { d with s := s } else { d with s := modCtx d.s n (loadCopies p) }

/-- The command came at the highest priority. -/
def Origin.highest : Origin → Bool
  | .session _ _ _ p => p == 0
  | .ring _ _ p => p == 0
  | .device => false

/-- The conditions under which a switch onto a context is bounded to 40 µs (R285, R397). -/
def switchBounded (s : State) (o : Origin) (n : Nat) : Bool :=
  let c := getCtx s n
  let halls := c.frames.flatMap (fun f => f.2.map (fun (m : Slot) => m.hall)) ++ c.homeBytes.map (·.1)
  o.highest && !c.suspended && c.seed.isSome && !recovering s && halls.all (fun h => !bit s.power.asleep h)

/-- The duration of a switch is not the model's to know: a free value (R294; log entry 9), judged against the bound (R285). -/
def noteSwitch (s : State) (o : Origin) (n : Nat) : State :=
  let f := freeNext s
  let s1 := keepMax (regSet f.2 pgScribe Reg.PL_SW_LAST f.1.toNat) pgScribe Reg.PL_SW_MAX f.1.toNat
  if switchBounded s o n ∧ 40000 < f.1.toNat then logFault (setErr s1 pgScribe 5) { kind := 8, device := deviceId s } else s1

/-- SWITCH, checked whole: outgoing slots count as free; the incoming context takes the gauge slot of the lowest-numbered
outgoing one (R284). -/
def switchCtxs (s : State) (o : Origin) (outs : List Nat) (n : Nat) (table : Option (List Byte)) : Did :=
  if outs.any (fun k => (getCtx s k).state != 2) || outs.length > 8 then { s := s, status := stCtxInvalid }
  else
    let slot := match (outs.mergeSort (fun a b => decide (a ≤ b))).head? with
      | some k => ((getCtx s k).slot).getD 0
      | none => freeSlot s
    let s1 := outs.foldl releaseActive s
    let d := activate s1 n slot table
    if d.status ≠ 0 then { d with s := s } else { d with s := noteSwitch d.s o n }

/-! Binding a plan (R271, R272, R278). -/

/-- Backward treads after a binding: clamped into the new range, BQUIET 0 (R272); at a first binding the base. -/
def clampTreads (first : Bool) (p : Plan) (m : SMap Nat) : SMap Nat :=
  (p.layers.zipIdx).foldl (fun (r : SMap Nat) x =>
    r.put 0 x.2 (if first then x.1.bbase else max x.1.bbase (min (m.get 0 x.2) x.1.bceil))) []

/-- The residual after a binding: kept where EF stays on (R272). -/
def keepResidual (old : Option Plan) (p : Plan) (r : SMap (SMap Nat)) : SMap (SMap Nat) :=
  r.filter (fun e => p.efOf e.1 && (match old with
    | some q => q.efOf e.1
    | none => false))

/-- What binding makes of a context besides placement: plan, table, gauges, treads, residual, scalars (R150, R272). -/
def bindState (s : State) (c : Ctx) (p : Plan) (table : List FrameReq) : Ctx :=
  computeScalars { c with
    plan := some p, table := table, gauges := bindGauges (signedOf 10 (fld s pgStair Reg.SB_LS 9 0))
      (signedOf 10 (fld s pgStair Reg.SB_LS 25 16)) c.plan p c.gauges, btread := clampTreads c.plan.isNone p c.btread,
    bquiet := [], residual := keepResidual c.plan p c.residual, made := [] }

/-- The home placement of a binding: whole at the first, only added tensors later (R278); none when no stack can hold a share. -/
def bindHomes (s : State) (c : Ctx) (p : Plan) (table : List FrameReq) (fresh : Bool) : Option Ctx :=
  if fresh then
    (homePlace p table (fun _ => true) p.miscBytes (freeList s)).map (fun h =>
      { c with homes := h.params, frameHomes := h.frames, homeBytes := h.bytes })
  else
    (homePlace p table (fun t => (c.homes.find t.tid).isNone) 0 (freeList s)).map (fun h =>
      { c with homes := h.params.foldl (fun m e => if (m.find e.1).isSome then m else m.insert e.1 e.2) c.homes
               frameHomes := h.frames.foldl (fun m e => if (m.find e.1).isSome then m else m.insert e.1 e.2) c.frameHomes
               homeBytes := h.bytes.foldl (fun (m : SMap Nat) e => m.put 0 e.1 (m.get 0 e.1 + e.2)) c.homeBytes })

/-- Bind a plan that passed its checks (R271). -/
def bindPlan (s : State) (n : Nat) (p : Plan) (table : List FrameReq) : Did :=
  let c := getCtx s n
  match bindHomes s c p table c.plan.isNone with
  | none => { s := s, status := stNoMemory }
  | some c1 =>
    let c2 := bindState s c1 p table
    if c.state ≠ 2 then { s := putCtx s n (loadCopies p { c2 with cached := [] }) }
    else
      let s1 := ownFrames (freePegs s c true) c 0
      let s2 := putCtx s1 n { c2 with frames := [], pegs := [], regionBytes := [], stackPages := [], stackBase := [] }
      let c3 := getCtx s2 n
      let d := formActive s2 n c3 p (placeFrames c3 p table (freeSlots s2)) true
      if d.status ≠ 0 then { d with s := s }
      else { d with s := modCtx d.s n (fun c => loadCopies p { c with frameQueues := [], cached := [] }) }

/-- The device's own ID where it is set. -/
def selfId (s : State) : Option Nat := if idValid s then some (deviceId s) else none

/-- The generation of the device (R254). -/
def genOf (s : State) : Nat := fld s pgDevice Reg.DV_CFG 17 14

/-- Answer a binding: OK, or the refusal with the offending record's index (R255, R271). -/
def answerDid (d : Did) (o : Origin) : State :=
  if d.status = 0 then answer d.s o stOk else refuse d.s o d.status []

/-- The index of an offending record as a response carries it (log entry 24). -/
def idxBytes (i : Nat) : List Byte := natLe i 4

/-- The checks of a plan load: R255, R272, table, tag group; then bound at a boundary, held otherwise (R271, R275). A template refused
under R241 or R245 sets its bit of SM_ERR (R252; log entry 153). -/
def planArrived (s : State) (o : Origin) (n : Nat) (img : List Byte) (tbl : Option (List Byte)) : State :=
  let c := getCtx s n
  match planErr (genOf s) (some (selfId s)) img with
  | some e => refuse (noteSmErr s e.status) o e.status (idxBytes e.idx)
  | none =>
    let p := readPlan img
    let table := match tbl with
      | some l => if tableOk p.nframe l then some (readTable l) else none
      | none => match c.plan with
        | some q => if q.nframe = p.nframe then some c.table else none
        | none => none
    if (match c.plan with
      | some q => !planMatches q p
      | none => false) then refuse s o stPlanMismatch []
    else
      match table with
      | none => refuse s o stPlanInvalid []
      | some t =>
        if tagTaken s n p then refuse s o stTagBusy []
        else if cmdBoundary s n then answerDid (bindPlan s n p t) o
        else
          let s1 := match c.held with
            | some h => answer s h.origin stPlanSuperseded
            | none => s
          modCtx s1 n (fun c => { c with held := some ⟨o, p, t⟩ })

/-- A held plan binds at the boundary (R271). -/
def bindHeld (s : State) (n : Nat) : State :=
  match (getCtx s n).held with
  | none => s
  | some h => answerDid (bindPlan (modCtx s n (fun c => { c with held := none })) n h.plan h.table) h.origin

/-! Re-placement (R286, R287). -/

/-- New targets for plan pegs after a frame changed its member count. -/
def retarget (s : State) (n : Nat) : State :=
  let c := getCtx s n
  match c.plan with
  | none => s
  | some p => c.pegs.foldl (fun s e =>
      if p.templates.any (fun t => bits (tw t 2) 31 16 == e.1) then
        putPeg s e.2 { getPeg s e.2 with target := pegTarget c p e.1 } else s) s

/-- The frames of a context, and of the plan, computed again after slots went: none where one obtains fewer than GMIN. -/
def reform (s : State) (n : Nat) (fs : List Nat) : Option (SMap (List Slot)) :=
  let c := getCtx s n
  match c.plan with
  | none => none
  | some p =>
    ((frameOrder c.table).filter (fun e => fs.contains e.1)).foldl (fun acc e => match acc with
      | none => none
      | some (fr : SMap (List Slot)) =>
        let s1 := putCtx s n { c with frames := fr.erase e.1 }
        let ms := placeFrame c p (freeSlots s1) e.1 e.2
        if ms.length < e.2.gmin then none else some (fr.insert e.1 ms)) (some c.frames)

/-- Suspend a context that no longer fits: frames released, RESIDENT, NO_FIT set, the held batch kept (R287). -/
def suspendNoFit (s : State) (n : Nat) : State :=
  let s1 := releaseActive (setErr s pgScribe 3) n
  modCtx s1 n (fun c => { c with suspended := true, noFit := true, attempt := none, evalRun := none,
                                 repeatPending := c.batch.isSome || c.repeatPending, cached := [] })

/-- Take a slot out of a context's frames and place the affected frames again (R287). -/
def replaceCtx (h a slot : Nat) (s : State) (n : Nat) : State :=
  let c := getCtx s n
  let m : Slot := ⟨h, a, slot⟩
  let hit := (c.frames.filter (fun f => f.2.contains m)).map (·.1)
  let s1 := putCtx s n { c with frames := c.frames.map (fun f => (f.1, f.2.filter (· != m))) }
  match reform s1 n hit with
  | some fr =>
    let s2 := putCtx s1 n { getCtx s1 n with frames := fr }
    retarget (ownFrames s2 (getCtx s2 n) (ctxTag s n)) n
  | none => suspendNoFit s1 n

/-- An aisle's slot was emptied: every active context with that slot is placed again (R287). -/
def replaceSlot (s : State) (h a : Nat) : Option Nat → State
  | none => s
  | some slot => (holdersOf s h a slot).foldl (replaceCtx h a slot) s

/-- Take a gallery out of service, fill its slot, own the gallery that comes in, place again what lost its slot (R15, R16,
R286, R287). -/
def swapGallery (s : State) (k : Nat) (quar hold : Bool) : State :=
  let g := getGal s k
  if g.state ≠ 0 then s
  else
    let h := keyHall k
    let a := keyAisle k
    let own := (holdersOf s h a g.slot).head?
    let r := swapOut s k quar hold
    let s1 := match own with
      | some n => setOwner (ctxTag s n) r.1 ⟨h, a, g.slot⟩
      | none => r.1
    replaceSlot s1 h a r.2

/-! Images and restores (R289-R293). -/

/-- Write an image in the order of R289 and wait for its completion. -/
def writeParts (s : State) (o : Origin) (n : Nat) (b : BufRef) (x : ImageParts) : State :=
  let at_ (off len : Nat) : BufRef := { b with addr := b.addr + off, len := len }
  let s1 := x.secs.foldl (fun s e => emit s (.write (at_ e.1 e.2.length) e.2)) s
  let s2 := emit s1 (.write (at_ x.header.length x.dir.length) x.dir)
  startWrite (modCtx s2 n (fun c => { c with exporting := true })) (at_ 0 x.header.length) x.header (.export_ o n)

/-- EXPORT and EXPORT_KJ7 (R275, R289, R293); the halls whose stacks it reads are woken (R397). -/
def doExport (kj7 : Bool) (s : State) (o : Origin) (n : Nat) (b : BufRef) : State :=
  let c := getCtx s n
  if c.state = 0 || (kj7 && c.plan.isNone) then refuse s o stCtxInvalid []
  else
    let st := bufStatus s b (2 ^ 64) false
    if st ≠ 0 then answer s o st
    else
      let x := match kj7, c.plan with
        | true, some p => kj7Image c p
        | _, _ => contextImage s c
      if b.len < x.len then answer s o stLengthInvalid else writeParts (wakeHalls s (homeHalls c)) o n b x

/-- Refuse a restore by one of its checks: PL_ERR.IMAGE_INVALID whichever it was; the index of the offending record goes with the
status of a plan (R291, R294). -/
def refuseRestore (s0 : State) (o : Origin) (st idx : Nat) : State :=
  let s := setErr s0 pgScribe 4
  if st = stImageInvalid ∨ st = stGenMismatch then answer s o st else refuse s o st (idxBytes idx)

/-- The device stands at the image's position in every group (R291 step 6). -/
def positionsOk (s : State) (p : Plan) (ss : List (Section × Nat)) : Bool :=
  let d := sectionData ss 9 0
  (p.groups.zipIdx).all (fun x => x.1.position (deviceId s) == some (recNat d (2 * x.2) 2))

/-- A restore whose bytes are all here: checks in the order of R291, then the context's state replaced. -/
def restoreCtx (s : State) (o : Origin) (n : Nat) (r : RestoreArgs) (img : List Byte) (plan tbl : Option (List Byte)) : State :=
  let ss := readSections img
  let d1 := sectionData ss 1 0
  let len := recNat d1 8 4
  let img1 := d1.take len
  if !imageHeaderOk img || !sectionsOk ss then refuseRestore s o stImageInvalid 0
  else if bits (recNat img 0 8) 51 48 ≠ genOf s then refuseRestore s o stGenMismatch 0
  else
    match planErr (genOf s) (if plan.isSome then none else some (selfId s)) img1 with
    | some e => refuseRestore s o e.status e.idx
    | none =>
      let p0 := readPlan img1
      match plan.bind (planErr (genOf s) (some (selfId s))) with
      | some e => refuseRestore s o e.status e.idx
      | none =>
        let p := (plan.map readPlan).getD p0
        let table := (tbl.getD (d1.drop len))
        if !planMatches p0 p then refuseRestore s o stPlanMismatch 0
        else if !tableOk p.nframe table then refuseRestore s o stPlanInvalid 0
        else if !positionsOk s p ss then refuseRestore s o stImageInvalid 0
        else
          let old := getCtx s n
          let s1 := if old.state = 2 then releaseActive s n else s
          let c0 : Ctx := { state := 1, journal := r.setJournal.getD (bit (recNat img 0 8) 52),
                            seed := if bit (recNat img 0 8) 53 then some (BitVec.ofNat 64 (recNat img 8 8)) else none,
                            step := recNat img 16 4, evalno := recNat img 20 4, window := old.window, queue := old.queue }
          let c1 := fillContext c0 p0 ss
          let s2 := putCtx s1 n {}
          match bindHomes s2 (bindState s2 { c1 with plan := some p0 } p (readTable table)) p (readTable table) true with
          | none => refuse s o stNoMemory []
          | some c2 => answer (putCtx (wakeHalls s2 (homeHalls c2)) n (loadCopies p { c2 with residual := if r.twin then [] else c2.residual })) o stOk

/-! The commands' effects: each answers its origin. -/

/-- CREATE (R275). -/
def doCreate (s : State) (o : Origin) (n : Nat) (journal : Bool) (seed : Option (BitVec 64)) : State :=
  if (getCtx s n).state ≠ 0 || decide (1024 ≤ n) then refuse s o stCtxInvalid []
  else answer (putCtx s n { getCtx s n with state := 1, journal := journal, seed := seed }) o stOk

/-- LOAD_PLAN: the references are checked, the image is read first (R271, R363). -/
def doLoadPlan (s : State) (o : Origin) (n : Nat) (plan table : BufRef) : State :=
  if (getCtx s n).state = 0 then refuse s o stCtxInvalid []
  else
    let st := if bufStatus s plan (2 ^ 32 - 1) false ≠ 0 then bufStatus s plan (2 ^ 32 - 1) false else bufStatus s table (8 * 4096) true
    if st ≠ 0 then answer s o st else startRead s plan (.plan o n table)

/-- SET_SEED at the boundary; the change is logged with both seeds (R179). -/
def doSetSeed (s : State) (o : Origin) (n : Nat) (seed : BitVec 64) : State :=
  let c := getCtx s n
  if c.state = 0 then refuse s o stCtxInvalid []
  else
    let old := (c.seed.getD 0).toNat
    answer (logFault (putCtx s n { c with seed := some seed })
      { kind := 11, d0 := old % 2 ^ 32, d1 := old / 2 ^ 32, addr := seed.toNat }) o stOk

/-- UNIT_FAILED: a hall-edge engine has failed its test (R310). -/
def stUnitFailed : Nat := 0x3C

/-- ACTIVATE (R275, R279). -/
def doActivate (s : State) (o : Origin) (n : Nat) (table : Option BufRef) : State :=
  if s.boot.failedUnit.isSome then refuse s o stUnitFailed []
  else
  match table with
  | some b =>
    let st := bufStatus s b (8 * 4096) false
    if st ≠ 0 then answer s o st else startRead s b (.activateTable o n)
  | none => answerDid (let d := activate s n (freeSlot s) none
                       if d.status = 0 then { d with s := noteSwitch d.s o n } else d) o

/-- DEACTIVATE (R275). -/
def doDeactivate (s : State) (o : Origin) (n : Nat) : State :=
  if (getCtx s n).state ≠ 2 then refuse s o stCtxInvalid [] else answer (releaseActive s n) o stOk

/-- SWITCH (R284). -/
def doSwitch (s : State) (o : Origin) (outs : List Nat) (n : Nat) (table : Option BufRef) : State :=
  if s.boot.failedUnit.isSome then refuse s o stUnitFailed []
  else
  match table with
  | some b =>
    let st := bufStatus s b (8 * 4096) false
    if st ≠ 0 then answer s o st else startRead s b (.switchTable o outs n)
  | none => answerDid (switchCtxs s o outs n none) o

/-- RESUME clears SUSPENDED and the count of skips; a pending repeat may then be admitted (R209, R275). -/
def doResume (s : State) (o : Origin) (n : Nat) : State :=
  let c := getCtx s n
  if !c.suspended then refuse s o stCtxInvalid []
  else answer (putCtx s n { c with suspended := false, noFit := false, skips := 0 }) o stOk

/-- RESTORE: from the twin where one holds a shadow, or from an image in host memory (R275, R291). -/
def doRestore (s : State) (o : Origin) (n : Nat) (r : RestoreArgs) : State :=
  if s.boot.failedUnit.isSome then refuse s o stUnitFailed []
  else if r.twin then
    if s.twin.state = 2 ∨ s.twin.state = 3 then
      let x := startXfer s 0xFFFF (.image o n r)
      match s.twin.twin with
      | some t => sendBundle x.2 t 2 2 0 (.fetch n)
      | none => answer s o stNotAllowed
    else answer s o stNotAllowed
  else
    let b1 := match r.plan with
      | some b => bufStatus s b (2 ^ 32 - 1) false
      | none => 0
    let b2 := match r.table with
      | some b => bufStatus s b (8 * 4096) false
      | none => 0
    let b0 := bufStatus s r.image (2 ^ 64) false
    let st := if b0 ≠ 0 then b0 else if b1 ≠ 0 then b1 else b2
    if st ≠ 0 then answer s o st else startRead s r.image (.image o n r)

/-- DESTROY: every byte released (R275). -/
def doDestroy (s : State) (o : Origin) (n : Nat) : State :=
  if (getCtx s n).state ≠ 1 then refuse s o stCtxInvalid []
  else
    let keep := (getCtx s n).queue
    let s1 := putCtx s n { ({} : Ctx) with queue := keep }
    answer { s1 with host := { s1.host with devRings := (s1.host.devRings.erase (ringKey 0 n)).erase (ringKey 1 n) } } o stOk

/-- SET_WINDOW at the boundary (R363). -/
def doSetWindow (s : State) (o : Origin) (n : Nat) (b : BufRef) : State :=
  if (getCtx s n).state = 0 then refuse s o stCtxInvalid []
  else
    let st := bufStatus s b (2 ^ 64) false
    if st ≠ 0 then answer s o st else answer (modCtx s n (fun c => { c with window := some b })) o stOk

end Sys2Proof.Machine
end

