-- ==== Sys2Proof/Machine/Stack.lean ====
section
/-! DEFINITION. The activation stack: frames, marks, tops, pops, recompute records, held segment results (R129-R143). Each hall keeps its own
part of a layer's stack copy. -/

namespace Sys2Proof.Machine

/-! Tokens and rows. -/

/-- The attempt runs split (R124). -/
def isSplit (c : Ctx) : Bool :=
  match c.attempt with
  | some a => a.split
  | none => false

/-- Tokens of a position's share in the step (R142): the batch's tokens at the first position, the declared share without a batch tensor
and at positions taken (log entry 157). -/
def shareTokens (s : State) (c : Ctx) (p : Plan) (pos : Nat) : Nat :=
  match p.batchTensor, c.attempt with
  | some t, some a => if (positionsHere s c p).headD pos = pos then a.batchLen / max t.tokenBytes 1 else p.shareAt pos
  | _, _ => p.shareAt pos

/-- The shares of the step by position. -/
def attemptShares (s : State) (c : Ctx) (p : Plan) : List Nat := (positionsHere s c p).map (shareTokens s c p)

/-- Tokens of a half, or of an unsplit step (R124). -/
def halfTokens (split : Bool) (half T : Nat) : Nat := (runParts split T).getD half 0

/-- The rows of a token tensor that a half of a position's share covers: first and count. Where the tensor counts global tokens they begin
at the position's share offset (R124, R170). -/
def halfRows (s : State) (c : Ctx) (p : Plan) (half pos : Nat) (token : Bool) (rows : Nat) : Nat × Nat :=
  match c.attempt with
  | some a =>
    let T := shareTokens s c p pos
    let lo := (if token then p.shareOffset pos else 0) + (if a.split && half != 0 then halfATokens T else 0)
    (min lo rows, min (lo + halfTokens a.split half T) rows - min lo rows)
  | none => (0, rows)

/-- DIM0 of a tensor counts global tokens. -/
def Plan.isToken (p : Plan) (tid : Nat) : Bool :=
  match p.record tid with
  | some r => r.token
  | none => false

/-! A hall's region (R130). -/

/-- The first page past some records of a hall, or a base. -/
def endOf (base h : Nat) (fs : List StackFrame) : Nat :=
  (fs.filter (fun f => f.hall == h)).foldl (fun m f => max m (f.offset + f.length)) base

/-- The pages of some records in a hall. -/
def pagesIn (h : Nat) (fs : List StackFrame) : Nat := ((fs.filter (fun f => f.hall == h)).map (·.length)).sum

/-- The top of a hall's region in pages: table, frames, frames being consumed, scratch, held segment results (R130, R133; log entry
158). -/
def Ctx.stackTop (c : Ctx) (p : Plan) (h : Nat) : Nat :=
  if c.stackPages.get 0 h = 0 then 0
  else tablePages c p + pagesIn h (c.stack.frames ++ c.stack.popped ++ c.stack.scratch ++ c.stack.held)

/-- What the step in progress needs in a hall. -/
def stepNeed (s : State) (c : Ctx) (p : Plan) (h : Nat) : RegionNeed := regionNeed c p (attemptShares s c p) (isSplit c) h

/-- The page at which the next frame of a hall begins: frames lie upward from the table's end (R130). -/
def frameBase (c : Ctx) (p : Plan) (h : Nat) : Nat := endOf (tablePages c p) h (c.stack.frames ++ c.stack.popped)

/-- The page at which the next record of the recompute scratch begins: past every frame of the step (R130). -/
def scratchBase (s : State) (c : Ctx) (p : Plan) (h : Nat) : Nat :=
  let n := stepNeed s c p h
  endOf (n.table + n.frames) h c.stack.scratch

/-- The page at which the next held segment results begin: past the scratch (R130). -/
def heldBase (s : State) (c : Ctx) (p : Plan) (h : Nat) : Nat :=
  let n := stepNeed s c p h
  endOf (n.table + n.frames + n.scratch) h c.stack.held

/-- Keep each hall's highest top. -/
def notePeak (p : Plan) (c : Ctx) : Ctx :=
  { c with stack := { c.stack with peak := c.stackPages.foldl (fun (m : SMap Nat) e => m.put 0 e.1 (max (m.get 0 e.1) (c.stackTop p e.1))) c.stack.peak } }

/-- A record would pass the end of its hall's region (R143). -/
def passesEnd (c : Ctx) (f : StackFrame) : Bool := decide (c.stackPages.get 0 f.hall < f.offset + f.length)

/-! Frames (R131, R132). -/

/-- The bytes of rows of a tensor. -/
def rowBytesOf (t : Tensor) (first n : Nat) : List Byte :=
  let rb := t.d.fmt.rowBytes t.rowLen
  t.codes.readBytes (first * rb) (n * rb)

/-- The blocks that rows of a tensor touch, in canonical order. -/
def rowBlocks (t : Tensor) (first n : Nat) : List Nat :=
  if t.d.grain ≠ 2 then []
  else (((List.range (n * t.rowLen)).map (fun i => t.blockOf (first * t.rowLen + i))).foldl (fun (m : SMap Nat) b => m.insert b 0) []).map (·.1)

/-- The parts of a frame in their order: codes, block scales, tags, side rows, auxiliary records (R132). -/
def frameParts (t : Tensor) (first n : Nat) (aux : List Tensor) : List (List Byte) :=
  let bs := rowBlocks t first n
  [rowBytesOf t first n, bs.map (fun b => BitVec.ofNat 8 (t.blocks.get 0x7F b)), bs.map (fun b => BitVec.ofNat 8 (t.tags.get 0 b)),
   t.side.readBytes (128 * first) (128 * n)] ++ aux.map (fun u => rowBytesOf u first n)

/-- The CRC-32C of a frame: codes, block scales and tag array in canonical order (R131). -/
def frameCrc (parts : List (List Byte)) : Nat := crc32c (parts.take 3).flatten

/-- The kind of a layer's frame (R131, R136). -/
def frameKind (l : LayerRec) : Nat := if !l.recomp then 0 else if l.rbstart then 1 else 2

/-- The auxiliary records that stand for a layer (R132). -/
def layerAux (c : Ctx) (p : Plan) (l : LayerRec) : List Tensor := ((auxTemplates p l).map (fun t => tTid t 32)).eraseDups.filterMap (fun i => c.tensors.find i)

/-- A hall's frame of a layer's stack copy as it stands, without a place yet; an interior layer's record keeps the CRC alone (R132,
R136). -/
def hallFrame (s : State) (c : Ctx) (p : Plan) (i : Nat) (l : LayerRec) (kind half pos h : Nat) : StackFrame :=
  let x := c.tensor l.xs
  let r := halfRows s c p half pos (p.isToken l.xs) x.rows
  let q := hallPart (layerHalls c p l) r.2 h
  let ps := frameParts x (r.1 + q.1) q.2 (layerAux c p l)
  { layer := i, kind := kind, half := half, pos := pos, hall := h, tid := l.xs, fmt := x.desc,
    length := if kind = 2 then 0 else framePages p l q.2 + (if kind = 1 && q.2 != 0 then inputExtra p l q.2 else 0),
    crc := frameCrc ps, first := r.1 + q.1, rows := q.2, parts := if kind = 2 then [] else ps,
    input := if kind = 1 then some (c.tensor l.x) else none }

/-- Two records stand for the same frame. -/
def StackFrame.same (f g : StackFrame) : Bool := f.layer == g.layer && f.half == g.half && f.pos == g.pos && f.hall == g.hall

/-- Put a frame on the stack, or bring the one that stands there up to date in its place; none where it would pass the region's end (R132,
R143). -/
def putFrame (c : Ctx) (p : Plan) (f : StackFrame) : Option Ctx :=
  match c.stack.frames.find? (f.same ·) with
  | some g => some { c with stack := { c.stack with frames := c.stack.frames.map (fun x => if f.same x then { f with offset := g.offset } else x) } }
  | none =>
    let f1 := { f with offset := frameBase c p f.hall }
    if passesEnd c f1 then none else some { c with stack := { c.stack with frames := f1 :: c.stack.frames } }

/-- The stacked layers whose frames a written tensor belongs to: those whose input copy it is, and the work order's own where it is an
auxiliary record of it (R118, R132). -/
def frameLayers (c : Ctx) (p : Plan) (w : WoHdr) (tid : Nat) : List (Nat × LayerRec) :=
  p.stackLayers tid ++ (match p.layer w.layer with
    | some l => if stacked l && (c.tensors.find l.xs).isSome && (auxTemplates p l).any (fun t => tTid t 32 == tid) then [(w.layer, l)] else []
    | none => [])

/-! Marks (R134). -/

/-- The key of a layer within an attempt: position, half, layer (R232). -/
def layerKey (layer half pos : Nat) : Nat := (pos * 2 + half) * 65536 + layer

/-- The frames of a half at a position, newest first. -/
def Ctx.runFrames (c : Ctx) (half pos : Nat) : List StackFrame := c.stack.frames.filter (fun f => f.half == half && f.pos == pos)

/-- Record a layer's mark: how many frames of its half and position stand (R134). -/
def markLayer (c : Ctx) (i half pos : Nat) : Ctx :=
  { c with stack := { c.stack with marks := c.stack.marks.insert (layerKey i half pos) (c.runFrames half pos).length } }

/-- Return to a layer's mark: every frame of its half and position pushed since then is discarded (R134). -/
def toMark (c : Ctx) (i half pos : Nat) : Ctx :=
  let fs := c.runFrames half pos
  let gone := fs.take (fs.length - c.stack.marks.get 0 (layerKey i half pos))
  { c with stack := { c.stack with frames := c.stack.frames.filter (fun f => !gone.any (f.same ·)) } }

/-- Empty the stack at the end of a step; the peak stays until the next (R134, R144). -/
def emptyStack (c : Ctx) : Ctx :=
  let xs := match c.plan with
    | some p => (p.layers.filter stacked).map (fun (l : LayerRec) => l.xs)
    | none => []
  { c with stack := { peak := c.stack.peak }, tensors := c.tensors.filter (fun e => !xs.contains e.1) }

/-! Consumption (R124, R133). -/

/-- Free the frames of a layer that backward has consumed; half B's end completes the slices, so that what half A held goes too (R124, R133,
R139). -/
def freeLayer (c : Ctx) (i half pos : Nat) : Ctx :=
  let keep (l : List StackFrame) : List StackFrame := l.filter (fun f => !(f.layer == i && f.half == half && f.pos == pos))
  { c with stack := { c.stack with frames := keep c.stack.frames, popped := keep c.stack.popped, scratch := keep c.stack.scratch,
                                   held := if half = 0 then c.stack.held else c.stack.held.filter (fun f => !(f.layer == i && f.pos == pos)) } }

/-- An interior layer's stack copy is not stored once its forward has ended (R136), unless a rerun of another half has put it back. -/
def dropInterior (c : Ctx) (i : Nat) (l : LayerRec) : Ctx :=
  if frameKind l = 2 && stacked l && !(c.stack.scratch.any (fun f => f.layer == i)) then { c with tensors := c.tensors.erase l.xs } else c

/-- The backward work of a half at a position is under way. -/
def backRuns (c : Ctx) (half pos : Nat) : Bool :=
  match c.attempt with
  | some a => let b := a.back.get 0 (pos * 2 + half); b != 0 && b != 0x10000
  | none => false

/-- STACK_POP: pop a hall's newest frame of a half whose backward runs, while fewer than PREFETCH wait (R133). -/
def execStackPop (ctx hall : Nat) (s : State) : Host.Outcome State Fault Refusal :=
  let c := getCtx s ctx
  let h := hall % 8
  let pre := max 1 (fld s (pgStack h) Reg.SK_CTRL 3 1)
  let waiting := (c.stack.popped.filter (fun f => f.hall == h)).length
  match (if waiting < pre then c.stack.frames.find? (fun f => f.hall == h && f.kind != 2 && backRuns c f.half f.pos) else none) with
  | none => .next s
  | some f => .next (putCtx s ctx { c with stack := { c.stack with frames := c.stack.frames.filter (fun g => !f.same g),
                                                                   popped := c.stack.popped ++ [f] } })

/-- The layer is the one whose forward or loss work runs in a half at a position. -/
def layerRuns (c : Ctx) (i half pos : Nat) : Bool :=
  (c.stack.marks.find (layerKey i half pos)).isSome && (c.stack.marks.find (layerKey (i + 1) half pos)).isNone

end Sys2Proof.Machine
end

