-- ==== Sys2Proof/Machine/Rotation.lean ====
section
/-! DEFINITION. Rotation and requested self-tests at step boundaries (R15-R17, R307-R309). -/

namespace Sys2Proof.Machine

/-- An aisle by number 0 to 127. -/
def aisleOf (k : Nat) : Nat := k / 68

/-- The in-service gallery of an aisle that has served longest without a break, ties to the lower number (R307). -/
def longestIn (s : State) (h a : Nat) : Option Nat :=
  ((aisleGals h a).filter (fun k => (getGal s k).state == 0)).foldl (fun b k => match b with
    | none => some k
    | some j => if (getGal s k).timeIn < (getGal s j).timeIn then some k else some j) none

/-- Rotate an aisle whose rotation is due: only with an eligible spare (R17, R307). -/
def tryRotate (s : State) (h a : Nat) : State :=
  let i := h * 16 + a
  if s.silent.due.contains i && !aisleSwing s h a && aisleQuiet s h a && (eligible s h a).isSome then
    match longestIn s h a with
    | some k => swapGallery { s with silent := { s.silent with due := s.silent.due.erase i } } k false false
    | none => s
  else s

/-- A gallery of the aisle is out for a requested test. -/
def outForRequest (s : State) (h a : Nat) : Bool :=
  (aisleGals h a).any (fun k => let g := getGal s k
                                g.state == 2 && g.testing && g.testReq)

/-- Swap out the first requested gallery of an aisle, one at a time, only with an eligible spare (R309). -/
def tryRequest (s : State) (h a : Nat) : State :=
  if !aisleQuiet s h a || aisleSwing s h a || outForRequest s h a || (eligible s h a).isNone then s
  else
    match s.silent.requests.find? (fun k => k / 68 == h * 16 + a) with
    | some k =>
      let s1 := { s with silent := { s.silent with requests := s.silent.requests.erase k } }
      if (getGal s k).state = 0 then modGal (swapGallery s1 k false false) k (fun g => { g with testReq := true }) else s1
    | none => s

/-- The due swaps of one aisle. -/
def aisleSwaps (s : State) (h a : Nat) : State := tryRotate (tryRequest s h a) h a

/-- The aisles that a context's frames lie in. -/
def ctxAisles (c : Ctx) : List (Nat × Nat) := (c.frames.flatMap (fun f => f.2.map (fun (m : Slot) => (m.hall, m.aisle)))).eraseDups

/-- The due swaps of a context's step boundary. -/
def boundarySwaps (s : State) (n : Nat) : State := (ctxAisles (getCtx s n)).foldl (fun s x => aisleSwaps s x.1 x.2) s

/-- A spare begins its test at once, aborting its probe pack (R309). -/
def startTest (s : State) (k : Nat) (req : Bool) : State :=
  let s1 := abortProbe s k
  putGal s1 k { getGal s1 k with state := 2, testing := true, testReq := req }

/-- Request a gallery's test without force (R309): a retired or held gallery takes none. -/
def requestOne (s : State) (k : Nat) : State :=
  let g := getGal s k
  if g.state = 0 then
    let s1 := { s with silent := { s.silent with requests := if s.silent.requests.contains k then s.silent.requests else s.silent.requests ++ [k] } }
    tryRequest s1 (keyHall k) (keyAisle k)
  else if g.state ≤ 3 then startTest s k true else s

/-- The galleries that a physical identifier of depth 1 to 3 names (R9, R309). -/
def unitGals (u : Nat) : List Nat :=
  let h := bits u 28 25
  match bits u 31 29 with
  | 1 => (List.range 16).flatMap (fun a => aisleGals h a)
  | 2 => aisleGals h (bits u 24 21)
  | 3 => [galKey h (bits u 24 21) (bits u 20 14)]
  | _ => []

/-- Mark a gallery suspect: a request (R309). -/
def suspectGal (s : State) (k : Nat) : State := requestOne (modGal s k (fun g => { g with suspect := true })) k

/-- ROTATE_PERIOD: every aisle's rotation falls due, at once where nothing runs in it; galleries that failed their last test are
tested again (R307, R308). ROTATE_PERIOD 0 stops the rotation only. -/
def execRotatePeriod (s : State) : Host.Outcome State Fault Refusal :=
  let s1 := if fld s pgSilent Reg.SE_CTRL 31 16 = 0 then s
    else { s with silent := { s.silent with due := List.range 128 } }
  let s2 := (List.range 128).foldl (fun s i => tryRotate s (i / 16) (i % 16)) s1
  .next (((s2.gals.filter (fun e => e.2.state == 3)).map (·.1)).foldl (fun s k => startTest s k false) s2)

end Sys2Proof.Machine
end

