-- ==== Sys2Proof/Machine/Pairing.lean ====
section
/-! DEFINITION. The contexts a member mirrors, and the end of a pairing (R324, R327, R331). -/

namespace Sys2Proof.Machine

/-- A context that its device mirrors to a twin: a training context, not itself a shadow (R322, R324). -/
def Ctx.mirrored (c : Ctx) : Bool :=
  c.state != 0 && !c.shadow.held && (match c.plan with
    | some p => p.cls == 0
    | none => false)

/-- A mirrored context stands at a boundary that counts for UNPAIR: no attempt, no pass, no repeat to come (R331). -/
def Ctx.unpairPoint (c : Ctx) : Bool := c.attempt.isNone && c.evalRun.isNone && (!c.repeatPending || c.suspended || c.state != 2)

/-- The pairing has ended: UNPAIRED, the UNPAIR command answered (R331). -/
def endPairing (s : State) : State :=
  let s1 := { s with twin := { s.twin with state := 0, twin := none, links := 0, table := [], seedLeft := 0, unpair := none }
                     ctxs := s.ctxs.map (fun e => (e.1, { e.2 with unpairing := false })) }
  let s2 := match s.twin.twin with
    | some d => sendBundle s1 d 0 4 0 (.pairing d false)
    | none => s1
  match s.twin.unpair with
  | some o => answer s2 o stOk
  | none => s2

/-- While an UNPAIR waits, each mirrored context that stands at such a boundary has passed it; once all have, the pairing ends
(R331). -/
def noteUnpair (s : State) : State :=
  if s.twin.unpair.isNone then s
  else
    let cs := s.ctxs.map (fun e => (e.1, if e.2.mirrored && e.2.unpairPoint then { e.2 with unpairing := true } else e.2))
    let s1 := { s with ctxs := cs }
    if cs.all (fun e => !e.2.mirrored || e.2.unpairing) then endPairing s1 else s1

/-! Digest rollback (R303, R304). -/

/-- The twin whose agreed log restores a context: the own one, else any active one of the group (R304). -/
def rollbackTwin (s : State) (c : Ctx) : Option Nat :=
  if s.twin.state = 3 then s.twin.twin else (c.lastTwins.map (·.2)).find? (fun d => !s.lostDevs.contains d)

/-- Begin a digest rollback: the context is suspended and the agreed state fetched; without an agreed point or an active twin nothing
is restored (R304). -/
def startRollback (s : State) (n : Nat) : State :=
  let c := getCtx s n
  let s1 := putCtx s n { c with rollbackDue := false, suspended := true, repeatPending := false, batch := none }
  match c.agreed, rollbackTwin s c with
  | some _, some d =>
    let x := startXfer s1 0xFFFF (.rollback n)
    if s.twin.twin = some d then sendBundle x.2 d 2 2 0 (.fetch n) else sendNear x.2 d 2 2 0 (.fetch n)
  | _, _ => setErr s1 pgSilent 4

/-- A rollback that is due begins where no attempt or pass runs (R210, R304). -/
def dueRollback (s : State) (n : Nat) : State :=
  let c := getCtx s n
  if c.rollbackDue && c.attempt.isNone && c.evalRun.isNone then startRollback s n else s

/-! HBM retraining (R314). -/

/-- A context has state in a hall's stack. -/
def inStack (c : Ctx) (h : Nat) : Bool := c.homeBytes.get 0 h + c.exchBytes.get 0 h + c.regionBytes.get 0 h != 0

/-- The moment a retraining window waits for: every active context with state in the stack at a step boundary or in CLOSE. -/
def retrainQuiet (s : State) (h : Nat) : Bool :=
  s.ctxs.all (fun e => e.2.state != 2 || !inStack e.2 h || quietCtx s e.1 || (match e.2.attempt with
    | some a => a.outcome.isSome
    | none => false))

/-- Open the windows that are due and whose moment has come. -/
def openRetrains (s : State) : State :=
  (List.range 8).foldl (fun s h =>
    let m := getMc s h
    if m.due.isSome && m.retrain.isNone && retrainQuiet s h then putMc s h { m with retrain := m.due, due := none } else s) s

end Sys2Proof.Machine
end

