-- ==== Sys2Proof/Machine/Admission.lean ====
section
/-! DEFINITION. Admission of steps and evaluation passes, dispatch of templates, and the queue of a context's commands (R124,
R125, R142, R206, R207, R214, R222, R265, R276, R378, R450). -/

namespace Sys2Proof.Machine

/-! Groups and parties (R214). -/

/-- The members of a plan's groups. -/
def Plan.memberIds (p : Plan) : List Nat := (p.groups.flatMap (fun g => g.members.map (·.1))).eraseDups

/-- The other devices that stand for members of the group: a lost member's twin in its place (R196, R218, R305). -/
def peersOf (s : State) (c : Ctx) (p : Plan) : List Nat :=
  ((p.memberIds.map (fun d => c.moved.get d d)).filter (fun d => d != deviceId s && !c.expelled.contains d)).eraseDups

/-! The schedule of a group (R194, R195, R449). A ring is the two-level schedule with one inner ring. -/

/-- Members of an inner ring. -/
def ringSize (g : GroupRec) : Nat := max 1 (if g.topo = 1 then g.q else g.p)

/-- Inner rings. -/
def ringCount (g : GroupRec) : Nat := max 1 (g.p / ringSize g)

/-- The next position of the inner ring. -/
def nextPos (g : GroupRec) (pos : Nat) : Nat := pos / ringSize g * ringSize g + (pos % ringSize g + 1) % ringSize g

/-- The position before. -/
def prevPos (g : GroupRec) (pos : Nat) : Nat := pos / ringSize g * ringSize g + (pos % ringSize g + ringSize g - 1) % ringSize g

/-- The positions of the tree's children: the same inner position in rings 2i + 1 and 2i + 2 (R195). -/
def treeKids (g : GroupRec) (pos : Nat) : List Nat :=
  let r := pos / ringSize g
  ([2 * r + 1, 2 * r + 2].filter (fun k => decide (k < ringCount g))).map (fun k => k * ringSize g + pos % ringSize g)

/-- The position of the tree's parent. -/
def treeParent (g : GroupRec) (pos : Nat) : Nat := (pos / ringSize g - 1) / 2 * ringSize g + pos % ringSize g

/-- The depth of a position's ring in the tree. -/
def treeDepth (g : GroupRec) (pos : Nat) : Nat := Nat.log2 (pos / ringSize g + 1)

/-- The depth of the tree. -/
def treeD (g : GroupRec) : Nat := Nat.log2 (ringCount g)

/-- The device that stands at a position: a lost member's twin in its place (R196). -/
def devAt (c : Ctx) (g : GroupRec) (pos : Nat) : Nat :=
  let d := (g.members.getD pos (0, 0)).1
  c.moved.get d d

/-- The own twin is a party to the context's steps (R214, R327). -/
def twinIsParty (s : State) (c : Ctx) : Bool := (s.twin.state == 2 || s.twin.state == 3) && !c.unpairing

/-- Send a remote peg operation on a commit peg of another device (R214, R450). -/
def sendPegOp (s : State) (n dev peg op value : Nat) (cause : Cause) (step : Nat) : State :=
  if s.lostDevs.contains dev then s
  else
    let m : PegMsg := { src := deviceId s, ref := s.nextRef, ctx := n, peg := peg, op := op, value := value, tag := ctxTag s n,
                        cause := cause.code, step := step }
    let s1 := { s with nextRef := s.nextRef + 1 }
    if s.twin.twin = some dev then sendBundle s1 dev 0 1 0 (.pegOp m) else sendNear s1 dev 0 1 0 (.pegOp m)

/-- No cause travels with a plain operation. -/
def noCause : Cause := ⟨0, 0, 0⟩

/-- Change a context's attempt. -/
def modAttempt (s : State) (n : Nat) (f : Attempt → Attempt) : State :=
  modCtx s n (fun c => { c with attempt := c.attempt.map f })

/-- Every notice of a surviving member is held (R450). -/
def noticesHeld (s : State) (c : Ctx) (p : Plan) (a : Attempt) : Bool :=
  (peersOf s c p).all (fun d => (a.notices.find d).isSome || s.lostDevs.contains d)

/-- COMMIT's target once every notice is held: P and the twins reported, the own included (R450). -/
def commitTarget (s : State) (c : Ctx) (p : Plan) (a : Attempt) : Nat :=
  (peersOf s c p).length + 1 + (a.notices.filter (fun e => e.2.twin.isSome)).length + bnat a.twinParty

/-- Set the targets of the own COMMIT instance and of the twin's once every notice is held (R450). -/
def holdNotices (s : State) (n : Nat) : State :=
  let c := getCtx s n
  match c.plan, c.attempt with
  | some p, some a =>
    if (peersOf s c p).isEmpty || !noticesHeld s c p a then s
    else
      let t := commitTarget s c p a
      let s1 := match c.commitPegs.head? with
        | some k => (pegOpOn s k (ctxTag s n) .set t { ctx := n }).s
        | none => s
      match (if a.twinParty then s.twin.twin else none) with
      | some d => sendPegOp s1 n d (commitPlanPeg 0) 2 t noCause 0
      | none => s1
  | _, _ => s

/-! Dispatch (R7, R265). -/

/-- Put templates into the queues of their frames, in order. A product keeps the slice-count defaults it is dispatched with, and its reports
begin anew (R250, R252). -/
def dispatch (s : State) (n : Nat) (ts : List Nat) : State :=
  modCtx s n (fun c => match c.plan with
    | none => c
    | some p => { c with
        sliceAt := (ts.filter (fun i => bits (tw (p.templates.getD i ⟨[]⟩) 0) 3 0 == 6)).foldl
          (fun m i => m.put 0 i (fld s pgSimulation Reg.SM_CTRL 7 0 + 1)) c.sliceAt
        kernels := ts.foldl (fun m i => m.put [] i []) c.kernels
        frameQueues := ts.foldl (fun q i =>
        let f := tFrame (p.templates.getD i ⟨[]⟩)
        q.put [] f (q.get [] f ++ [i])) c.frameQueues })

/-- The templates of a layer for a phase whose TREADS bit is set (R265): bits 0-4 forward treads, 5-7 backward treads. -/
def layerTs (p : Plan) (l : LayerRec) (phase treadBit : Nat) : List Nat :=
  ((List.range l.tcount).map (l.tfirst + ·)).filter (fun i =>
    let t := p.templates.getD i ⟨[]⟩
    bits (tw t 0) 7 4 == phase && bit (tw t 0) (8 + treadBit))

/-- The forward tread of a layer in this attempt (R227). -/
def treadOf (c : Ctx) (p : Plan) (layer half pos : Nat) : Nat :=
  match c.attempt.bind (fun a => a.treads.find (layerKey layer half pos)), p.layer layer with
  | some t, _ => t
  | none, some l => l.fbase
  | none, none => 0

/-- Return the DONEPEGs of templates to their bound state before a rerun (R378). -/
def resetDone (s : State) (n : Nat) (ts : List Nat) : State :=
  let c := getCtx s n
  match c.plan with
  | none => s
  | some p => ts.foldl (fun s i =>
      let q := bits (tw (p.templates.getD i ⟨[]⟩) 2) 31 16
      match (if q = 0xFFFF then none else c.pegs.find q) with
      | some k => resetPeg s k (pegTarget c p q)
      | none => s) s

/-- The gauges that a layer's forward or loss work converts under, those of the stack copies it writes among them (R90, R118, R230). -/
def outGauges (p : Plan) (l : LayerRec) : List Nat :=
  (((p.layerTemplates l).filter (fun t => decide (bits (tw t 0) 7 4 ≤ 1))).flatMap (tGauges p)).eraseDups

/-- Start a layer's forward or loss work in a half at a position: mark, PEND and TRIP as they stand, templates (R90, R134, R265). -/
def startLayer (s : State) (n i half pos : Nat) : State :=
  let c := getCtx s n
  match c.plan.bind (fun p => (p.layer i).map (fun l => (p, l))) with
  | none => s
  | some (p, l) =>
    let k := layerKey i half pos
    let kept := (outGauges p l).map (fun g => (g, (c.gauges.get {} g).pend, (c.gauges.get {} g).trip))
    let s1 := putCtx s n (markLayer c i half pos)
    let ph := if l.kind = 2 then 1 else 0
    let s2 := modAttempt s1 n (fun a => { a with saved := a.saved.insert k kept, phase := if l.kind = 2 then 3 else a.phase })
    dispatch s2 n (layerTs p l ph (treadOf c p i half pos))

/-- The backward templates of a layer at its current backward tread. -/
def backTs (c : Ctx) (p : Plan) (i : Nat) : List Nat :=
  match p.layer i with
  | some l => layerTs p l 2 (5 + c.btread.get 0 i)
  | none => []

/-- The layers whose weight gradients are to be applied: those with bay W work, unfrozen. -/
def updatedLayers (c : Ctx) (p : Plan) : List (Nat × LayerRec × TensorRec) :=
  (p.layers.zipIdx).filterMap (fun x =>
    if x.1.kind != 0 || x.1.frozen || x.1.opt == 0xFFF || !((backTs c p x.2).any (fun i => wgradTile (p.templates.getD i ⟨[]⟩) (c.btread.get 0 x.2)))
    then none else (p.paramOf x.1).map (fun t => (x.2, x.1, t)))

/-- The next layer downwards that has backward work, from a layer on. -/
def nextBack (c : Ctx) (p : Plan) (i : Nat) : Option Nat := ((List.range (i + 1)).reverse).find? (fun j => !(backTs c p j).isEmpty)

/-- Start the backward work of the highest layer from one on that has any; without one the half's backward has ended. -/
def startBackward (s : State) (n i half pos : Nat) : State :=
  let c := getCtx s n
  let note (s : State) (v : Nat) : State := modAttempt s n (fun a => { a with back := a.back.insert (pos * 2 + half) v })
  match c.plan with
  | none => s
  | some p => match nextBack c p i with
    | some j => note (dispatch s n (backTs c p j)) (j + 1)
    | none => note s 0x10000

/-- Continue the backward work below a layer. -/
def nextBackward (s : State) (n i half pos : Nat) : State :=
  if i = 0 then modAttempt s n (fun a => { a with back := a.back.insert (pos * 2 + half) 0x10000 }) else startBackward s n (i - 1) half pos

/-! ADMIT (R207, R142, R125). -/

/-- A forward work order other than the loss reduces across tokens: a reduction along the first axis of a token tensor, or a
SCATTER_ADD, which sums over the tokens that name a row (R125, R270). -/
def reducesTokens (p : Plan) : Bool :=
  p.templates.any (fun t =>
    let token := match p.record (tTid t 20) with
      | some r => r.token
      | none => false
    bits (tw t 0) 7 4 == 0 && token &&
      ((bits (tw t 0) 3 0 == 2 && tByte t 29 == 0) || (bits (tw t 0) 3 0 == 1 && tByte t 16 == 0x3E)))

/-- The token shares of a step by position: the batch's tokens at the first, the declared shares at positions taken (R142, R330; log
entry 157). -/
def stepShares (s : State) (c : Ctx) (p : Plan) (T : Nat) : List Nat := T :: (declaredShares s c p).drop 1

/-- The halls whose region is too small for a step, with the pages short, in hall order (R142). -/
def shortHalls (c : Ctx) (p : Plan) (shares : List Nat) (split : Bool) : List (Nat × Nat) :=
  (bayWHalls c p).filterMap (fun h =>
    let n := needPages c p shares split h
    let have_ := c.stackPages.get 0 h
    if have_ < n then some (h, n - have_) else none)

/-- What admission decides. -/
inductive Admit where
  | refused (st hall short : Nat)
  | go (split halfOff : Bool)
  deriving DecidableEq, Repr

/-- The tokens of a batch, or none where LENGTH is not a whole number of tokens within the declared share (R142). -/
def batchTokens (s : State) (c : Ctx) (p : Plan) (len : Nat) : Option Nat :=
  let D := declaredShare s c p
  match p.batchTensor with
  | none => some D
  | some t =>
    let b := max t.tokenBytes 1
    if len % b = 0 ∧ len / b ≤ D then some (len / b) else none

/-- The checks of ADMIT in the order of R207. A group with a vacant position, or whose members disagreed on D, is refused as
SUSPENDED (R301, R305). Of several halls that are short the lowest-numbered one is reported (log entry 156). -/
def admitCheck (s : State) (n len : Nat) : Admit :=
  let c := getCtx s n
  match c.plan with
  | none => .refused stCtxInvalid 0 0
  | some p =>
    if c.state ≠ 2 ∨ p.cls ≠ 0 then .refused stCtxInvalid 0 0
    else if c.suspended || c.configBad || !c.vacant.isEmpty then .refused stSuspended 0 0
    else if c.seed.isNone then .refused stSeedMissing 0 0
    else match batchTokens s c p len with
      | none => .refused stLengthInvalid 0 0
      | some T =>
        if c.step = 0xFFFFFFFF then .refused stStepLimit 0 0
        else
          let sh := stepShares s c p T
          let can := p.split && decide (2 ≤ segmentsOf T) && !reducesTokens p && (shortHalls c p sh true).isEmpty
          match (if can then [] else shortHalls c p sh false) with
          | [] => .go can (p.split && !can)
          | x :: _ => .refused stStackOverflow x.1 x.2

/-- The limits an attempt is admitted under (R224, R240). -/
def limitsNow (s : State) : Limits :=
  { repeatMax := fld s pgStep Reg.ST_CTRL 3 0, skipMax := fld s pgStep Reg.ST_CTRL 11 4,
    timeout := max 1 (fld s pgStep Reg.ST_CTRL 31 16), budget := min 64 (fld s pgStair Reg.SB_CTRL 6 0) }

/-- Return every bound peg and the commit pegs to their state at ADMIT; COMMIT's target is open until every notice is held
(R214, R378, R450). -/
def resetCtxPegs (s : State) (n target : Nat) : State :=
  let c := getCtx s n
  match c.plan with
  | none => s
  | some p =>
    let s1 := c.pegs.foldl (fun s e => resetPeg s e.2 (pegTarget c p e.1)) s
    (c.commitPegs.zipIdx).foldl (fun s e => resetPeg s e.1 (if e.2 = 0 then target else 1)) s1

/-- The twin's instances reset and their targets set by remote operations (R326, R450). -/
def resetTwinPegs (s : State) (n target : Nat) : State :=
  match s.twin.twin with
  | none => s
  | some t =>
    let s1 := (List.range 3).foldl (fun s i => sendPegOp s n t (commitPlanPeg i) 3 0 noCause 0) s
    sendPegOp s1 n t (commitPlanPeg 0) 2 target noCause 0

/-- Admit an attempt: its fields, the pegs, inactive tables cleared, notices, the first layer (R158, R206, R214, R450). -/
def startAttempt (s : State) (n off len : Nat) (split halfOff : Bool) : State :=
  let c := getCtx s n
  match c.plan with
  | none => s
  | some p =>
    let tw := twinIsParty s c
    let alone := (peersOf s c p).isEmpty
    let target := if alone then 1 + bnat tw else 0xFFFFFFFF
    let a : Attempt := { step := c.step, number := c.attemptNo, phase := 2, split := split, halfOff := halfOff, batchOff := off,
                         batchLen := len, limits := limitsNow s, repeats := c.repeats,
                         shift := min 16 (fld s pgSilent Reg.SE_CTRL 4 0), twinParty := tw,
                         notices := (c.earlyNotices.filter (fun x => x.2.1 == c.step && x.2.2.1 == c.attemptNo)).foldl
                           (fun m x => m.insert x.1 x.2.2.2) [] }
    let s1 := putCtx s n { c with attempt := some a, earlyNotices := [], batch := some (off, len), repeatPending := false, inactive := [], chanNew := [],
                                  residualNew := [], made := [], frameQueues := [], stack := {} }
    let s2 := resetCtxPegs s1 n target
    let s3 := if tw then resetTwinPegs s2 n target else s2
    let s4 := (peersOf s c p).foldl (fun s d => sendNear s d 0 4 0
      (.notice n c.step c.attemptNo (if tw then s.twin.twin else none) (s.twin.state == 3))) s3
    (positionsHere s c p).foldl (fun s q => startLayer s n 0 0 q) (holdNotices s4 n)

/-- The response of ADMIT (R368): STEP, FLAGS, HALL and SHORTFALL. -/
def admitPayload (step : Nat) (halfOff : Bool) (hall short : Nat) : List Byte :=
  natLe step 4 ++ natLe (bnat halfOff) 4 ++ natLe hall 4 ++ natLe short 4

/-- ADMIT at the context's boundary (R207). A disagreement on D refuses the next ADMIT only (R301). -/
def doAdmit (s : State) (o : Origin) (n off len : Nat) : State :=
  match admitCheck s n len with
  | .refused st h k =>
    let s0 := if st = stStackOverflow then setErr s (pgStack h) 0 else s
    let s1 := if st = stSuspended then modCtx s0 n (fun c => { c with configBad := false }) else s0
    respond s1 o st (admitPayload (getCtx s n).step false h k)
  | .go split halfOff => respond (startAttempt s n off len split halfOff) o stOk (admitPayload (getCtx s n).step halfOff 0 0)

/-! EVAL (R207, R222, R223). -/

/-- EVAL: only CTX_INVALID and SEED_MISSING are checked; the pass runs the plan's evaluation templates, and in a simulation
context those of PHASE 4 as well (R222, R264; log entry 82). -/
def doEval (s : State) (o : Origin) (n evalno : Nat) (take : Bool) (off len : Nat) : State :=
  let c := getCtx s n
  match c.plan with
  | none => respond s o stCtxInvalid (natLe evalno 4)
  | some p =>
    if c.state ≠ 2 then respond s o stCtxInvalid (natLe evalno 4)
    else if c.seed.isNone then respond s o stSeedMissing (natLe evalno 4)
    else
      let no := if take then c.evalno else evalno
      let s1 := putCtx s n { c with evalRun := some { number := no, off := off, len := len },
                                    evalno := if take then (c.evalno + 1) % 2 ^ 32 else c.evalno }
      let s2 := if p.cls = 0 then c.pegs.foldl (fun s e => resetPeg s e.2 (pegTarget c p e.1)) s1 else s1
      let ts := (List.range p.templates.length).filter (fun i =>
        let ph := bits (tw (p.templates.getD i ⟨[]⟩) 0) 7 4
        ph == 3 || (p.cls != 0 && ph == 4))
      respond (dispatch s2 n ts) o stOk (natLe no 4)

/-! The command queue of a context (R276). -/

/-- A transfer of a context command is on its way. -/
def fetching (s : State) (n : Nat) : Bool :=
  s.host.xfers.any (fun e => match e.2.kind with
    | .plan _ c _ => c == n
    | .planTable _ c _ => c == n
    | .activateTable _ c => c == n
    | .switchTable _ outs c => c == n || outs.contains n
    | .image _ c _ => c == n
    | .imagePlan _ c _ _ => c == n
    | .imageTable _ c _ _ _ => c == n
    | .export_ _ c => c == n
    | _ => false)

/-- The command at the head of a queue may act now (R207, R275): a new seed waits for a repeat that is to come (R179; log entry 172). -/
def mayAct (s : State) (n : Nat) (cmd : HostCmd) : Bool :=
  let c := getCtx s n
  let free := c.attempt.isNone && c.evalRun.isNone && !c.exporting
  match cmd with
  | .admit_ .. => free && !c.repeatPending && !heldBySwing s n
  | .eval .. => free && !c.repeatPending && !heldBySwing s n
  | .setSeed .. => cmdBoundary s n && (!c.repeatPending || c.suspended)
  | .deactivate => cmdBoundary s n
  | .setWindow .. => cmdBoundary s n
  | .switch outs _ _ => outs.all (cmdBoundary s)
  | .export_ .. => c.state != 2 || cmdBoundary s n
  | .exportKj7 .. => c.state != 2 || cmdBoundary s n
  | .restore .. => c.state != 2 || cmdBoundary s n
  | _ => true

/-- Carry out a context command. -/
def ctxCmd (s : State) (o : Origin) (n : Nat) : HostCmd → State
  | .create j sd => doCreate s o n j sd
  | .loadPlan p t => doLoadPlan s o n p t
  | .setSeed x => doSetSeed s o n x
  | .activate t => doActivate s o n t
  | .deactivate => doDeactivate s o n
  | .switch outs inc t => doSwitch s o outs inc t
  | .resume => doResume s o n
  | .export_ b => doExport false s o n b
  | .restore r => doRestore s o n r
  | .exportKj7 b => doExport true s o n b
  | .destroy => doDestroy s o n
  | .admit_ off len => doAdmit s o n off len
  | .eval no take off len => doEval s o n no take off len
  | .setWindow b => doSetWindow s o n b
  | _ => answer s o stOpcodeInvalid

/-- Act on the commands at the head of a context's queue while they may act (R276). -/
def runQueue : Nat → State → Nat → State
  | 0, s, _ => s
  | k + 1, s, n =>
    match (getCtx s n).queue with
    | [] => s
    | q :: rest =>
      if fetching s n || !mayAct s n q.cmd then s
      else runQueue k (ctxCmd (modCtx s n (fun c => { c with queue := rest })) q.origin n q.cmd) n

/-- Commands that a context's queue holds (R276). -/
def queueRoomCtx : Nat := 8

/-- Run every queue that may have been waiting for a context: its own, and a switch that names it as outgoing. -/
def runQueues (s : State) (n : Nat) : State :=
  let others := (s.ctxs.filter (fun e => e.1 != n && (match e.2.queue.head? with
    | some q => (match q.cmd with
      | .switch outs _ _ => outs.contains n
      | _ => false)
    | none => false))).map (·.1)
  (n :: others).foldl (fun s k => runQueue (queueRoomCtx + 1) s k) s

/-- Queue a context command, the ninth refused with CTX_BUSY, and act on what may act (R276). -/
def enqueueCmd (s : State) (o : Origin) (n : Nat) (cmd : HostCmd) : State :=
  let c := getCtx s n
  if queueRoomCtx ≤ c.queue.length then answer s o stCtxBusy
  else runQueue (queueRoomCtx + 1) (putCtx s n { c with queue := c.queue ++ [⟨o, cmd⟩] }) n

/-- STEP_BOUNDARY (R206): an UNPAIR that waits takes note, staged gauge words, a held plan, due swaps, then waiting commands. -/
def stepBoundary (s : State) (n : Nat) : State :=
  runQueues (boundarySwaps (bindHeld (applyAllStaged (dueRollback (noteUnpair (openRetrains s)) n) n) n) n) n

end Sys2Proof.Machine
end

