-- ==== Sys2Proof/Machine/Commit.lean ====
section
/-! DEFINITION. The outcome of an attempt: causes, arrives on the commit peg, its closing and query, the commit point, the
decision (R208, R209, R213-R220, R450). -/

namespace Sys2Proof.Machine

/-! Cause codes (R209, R161, R302, R365). -/

def cNanLoss : Nat := 0x01
def cNanGrad : Nat := 0x02
def cOvfExch : Nat := 0x03
def cStair : Nat := 0x04
def cResidue : Nat := 0x10
def cDeadline : Nat := 0x11
def cUnit : Nat := 0x12
def cDuplicate : Nat := 0x13
def cPartyLost : Nat := 0x14
def cTimeout : Nat := 0x15
def cHostIo : Nat := 0x17
def cJwrite : Nat := 0x18
def cRepeatLimit : Nat := 0x20
def cBound : Nat := 0x21
def cJrestore : Nat := 0x22
def cNoJournal : Nat := 0x23
def cUnprotected : Nat := 0x24
def cRollback : Nat := 0x25

/-- The outcome that a cause code brings (R209). -/
def outcomeOf (code : Nat) : Nat := if code < 0x10 then 1 else if code < 0x20 then 2 else 3

/-! Arriving (R209, R214, R215, R450). -/

/-- Every other instance holder: members, their twins as the notices name them, the own twin (R214, R450). -/
def instances (s : State) (c : Ctx) (p : Plan) (a : Attempt) : List Nat :=
  ((peersOf s c p) ++ a.notices.filterMap (fun e => e.2.twin) ++
    (if a.twinParty then s.twin.twin.toList else [])).eraseDups.filter (fun d => d != deviceId s && !s.lostDevs.contains d)

/-- The point of no return of an attempt without a journal has passed here (R220). -/
def pastReturn (c : Ctx) (a : Attempt) : Bool := !c.journal && a.slices.any (fun e => e.2.stage == 3)

/-- The winning cause among some: the highest rank, the first of it (R208, R209). -/
def winner (cs : List Cause) : Option Cause :=
  let r := (cs.map (·.outcome)).foldl max 0
  cs.find? (fun x => x.outcome == r)

/-- The own instance of COMMIT (0), SKIP (1) or REPEAT (2). -/
def commitKey (c : Ctx) (i : Nat) : Option Nat := c.commitPegs[i]?

/-- Arrive on an instance set: COMMIT 0, SKIP 1, REPEAT 2; the cause message travels with the arrive (R209, R214). -/
def arriveAll (s : State) (n i : Nat) (cause : Cause) : State :=
  let c := getCtx s n
  match c.plan, c.attempt with
  | some p, some a =>
    let s1 := match commitKey c i with
      | some k => (pegOpOn s k (ctxTag s n) .arrive 1 { ctx := n }).s
      | none => s
    let s2 := modAttempt s1 n (fun a => { a with vote := some i })
    (instances s c p a).foldl (fun s d => sendPegOp s n d (commitPlanPeg i) 0 1 cause a.step) s2
  | _, _ => s

/-- A movement of the context that waits on the host. -/
def Xfer.movesOf (x : Xfer) (n : Nat) : Bool :=
  match x.kind with
  | .moveIn w _ _ => w.ctx == n
  | .moveOut w => w.ctx == n
  | .mxIn w _ _ => w.ctx == n
  | _ => false

/-- What stops at a party that has found a cause (R215): queues of the context's frames empty, further slices discarded, its movements
no longer waited for. -/
def stopWork (s : State) (n : Nat) : State :=
  let s0 := modCtx s n (fun c => { c with frameQueues := [], attempt := c.attempt.map (fun a => { a with discard := true, noMore := true }) })
  let s1 := { s0 with host := { s0.host with xfers := s0.host.xfers.filter (fun e => !e.2.movesOf n) } }
  { s1 with queues := (s1.queues.map (fun e => (e.1, e.2.filter (fun q => q.ctx != n)))).filter (fun e => !e.2.isEmpty) }

/-- A cause as the party votes and reports it: without a journal and past the point of no return it is NO_JOURNAL (R220). -/
def effective (c : Ctx) (a : Attempt) (self : Nat) (x : Cause) : Cause :=
  if pastReturn c a && x.outcome != 3 then ⟨3, cNoJournal, self⟩ else x

/-- Every condition of a member's arrive on COMMIT holds (R215); the vote on the last digest step is decided (R301). -/
def commitReady (c : Ctx) (a : Attempt) : Bool :=
  a.ready && a.causes.isEmpty && !c.voting && (!a.twinParty || (a.summarySent && a.summaryAcked && a.mirrorLeft == 0))

/-- Arrive where the party may: a cause sends SKIP or REPEAT, a clean VERIFY sends COMMIT; never twice, never before every
notice is held (R215, R450). -/
def tryArrive (s : State) (n : Nat) : State :=
  let c := getCtx s n
  match c.plan, c.attempt with
  | some p, some a =>
    if a.vote.isSome || a.outcome.isSome || !noticesHeld s c p a then s
    else match winner a.causes with
      | some x => let y := effective c a (deviceId s) x
                  arriveAll s n (if y.outcome = 1 then 1 else 2) y
      | none => if commitReady c a then arriveAll s n 0 noCause else s
  | _, _ => s

/-! The commit point (R216, R158, R188, R152). -/

/-- Every slice of a parameter was written in the attempt (R158). -/
def allWritten (a : Attempt) (t : TensorRec) : Bool :=
  (List.range (sliceCountOf t)).all (fun o => match a.slices.find (t.tid * 2 ^ 24 + o) with
    | some x => x.stage == 3
    | none => false)

/-- The key of a slice. -/
def sliceKey (tid ord : Nat) : Nat := tid * 2 ^ 24 + ord

/-- Live selectors swap for every tensor whose slices were all written (R158). -/
def swapLive (p : Plan) (a : Attempt) (c : Ctx) : Ctx :=
  p.params.foldl (fun c t =>
    if !allWritten a t then c
    else
      let c1 := match p.copyOf t.tid with
        | some r => match c.inactive.find r.tid with
          | some x => { c with tensors := c.tensors.put {} r.tid x }
          | none => c
        | none => c
      { c1 with chanMax := c1.chanMax.put [] t.tid (c1.chanNew.get [] t.tid) }) c

/-- Residuals of the buckets that completed become live (R188). -/
def swapResidual (p : Plan) (c : Ctx) : Ctx :=
  { c with residual := c.residualNew.foldl (fun m e =>
      if p.efOf (e.1 % 2 ^ 24) then m.put [] e.1 (e.2.foldl (fun (r : SMap Nat) x => r.put 0 x.1 x.2) (m.get [] e.1)) else m) c.residual }

/-- The optimizer records that updated an unfrozen tensor in the attempt (R152). -/
def optUsed (p : Plan) (a : Attempt) : List Nat :=
  ((p.layers.filter (fun l => l.opt != 0xFFF && !l.frozen && (match p.paramOf l with
    | some t => a.slices.any (fun e => e.1 / 2 ^ 24 == t.tid && e.2.stage == 3)
    | none => false))).map (·.opt)).eraseDups

/-- D of the digest interval (R300). -/
def digestD (s : State) : Nat := max 1 (min 64 (fld s pgSilent Reg.SE_CTRL 11 5))

/-- The BF16 bytes of a slice's parameters, in order of k and then n (R163). -/
def sliceBytes (c : Ctx) (t : TensorRec) (ord : Nat) : List Byte :=
  (codesAt (c.open_ t.tid) (sliceIdx t ord)).flatMap (fun q => natLe q 2)

/-- One level of the digest tree: nodes 2i and 2i + 1 pair, an unpaired last one passes up (R300). -/
def digestLevel : List (List Byte) → List (List Byte)
  | a :: b :: t => sha256 (a ++ b) :: digestLevel t
  | l => l

/-- The root over leaves. -/
def digestTree : Nat → List (List Byte) → List Byte
  | 0, l => l.headD []
  | k + 1, l => if l.length ≤ 1 then l.headD [] else digestTree k (digestLevel l)

/-- The parameters of EXCH layers, by tensor identifier (R300). -/
def exchParams (p : Plan) : List TensorRec :=
  ((p.layers.filter (·.exch)).filterMap p.paramOf).eraseDups.mergeSort (fun a b => decide (a.tid ≤ b.tid))

/-- The root of the weight digest tree: written slices have the leaf of APPLY, others one from the stored parameters (R300). -/
def digestRoot (p : Plan) (c : Ctx) (leaves : SMap (List Byte)) : List Byte :=
  let ls := (exchParams p).flatMap (fun t => (List.range (sliceCountOf t)).map (fun o =>
    match leaves.find (sliceKey t.tid o) with
    | some x => x
    | none => sha256 (sliceBytes c t o)))
  digestTree ls.length ls

/-- A digest step makes its leaves current; with other members a vote follows (R300, R301). -/
def noteDigest (s : State) (p : Plan) (a : Attempt) (c : Ctx) : Ctx :=
  if a.step % digestD s = 0 ∧ !(exchParams p).isEmpty then
    { c with digest := some (a.step, digestRoot p c a.leaves), voting := !(peersOf s c p).isEmpty }
  else c

/-! A twin's shadow at the end of a step (R218, R303, R325, R328). -/

/-- The moment tensors of a parameter in order (R256). -/
def momentsOf (p : Plan) (tid : Nat) : List TensorRec :=
  (p.tensors.filter (fun r => r.role == 2 && r.parent == tid)).mergeSort (fun a b => decide (a.mslot ≤ b.mslot))

/-- Put a slice's saved state back (R211, R328). -/
def restoreSlice (c : Ctx) (p : Plan) (t : TensorRec) (ord : Nat) (data : List (List Nat)) : Ctx :=
  ((t :: momentsOf p t.tid).zip data).foldl (fun (c : Ctx) r => c.putTensor r.1.tid (putCodesAt (c.open_ r.1.tid) (sliceIdx t ord) r.2)) c

/-- The gauges of a shadow after a committed step, from the step summary (R86, R325). -/
def shadowGauges (s : State) (p : Plan) (c : Ctx) (m : StepSummary) : SMap Gauge :=
  let g0 := m.pend.foldl (fun (x : SMap Gauge) e => x.put {} e.1 { x.get {} e.1 with pend := e.2 }) c.gauges
  let g1 := m.trips.foldl (fun (x : SMap Gauge) i => x.put {} i { x.get {} i with trip := true }) g0
  let md := fld s pgGauge Reg.GE_CTRL 15 0
  p.gauges.foldl (fun x b =>
    if b.kind = 3 then x.put {} b.gauge ((x.get {} b.gauge).lossScale true false (signedOf 10 (fld s pgStair Reg.SB_LS 9 0))
      (signedOf 10 (fld s pgStair Reg.SB_LS 25 16)) (fld s pgStair Reg.SB_GROW 15 0)).g
    else x.put {} b.gauge ((x.get {} b.gauge).close (gaugeF p b.gauge) true (m.raises.contains b.gauge) md)) g1

/-- Every slice of a parameter was mirrored in the step. -/
def allMirrored (c : Ctx) (t : TensorRec) : Bool :=
  (List.range (sliceCountOf t)).all (fun o => (c.shadow.pre.find (sliceKey t.tid o)).isSome)

/-- The copies of the parameters whose slices were all mirrored become live (R159, R325). -/
def swapShadow (p : Plan) (c : Ctx) : Ctx :=
  p.params.foldl (fun c t =>
    if !allMirrored c t then c
    else
      let c1 := match p.copyOf t.tid with
        | some r => match c.inactive.find r.tid with
          | some x => { c with tensors := c.tensors.put {} r.tid x }
          | none => c
        | none => c
      { c1 with chanMax := c1.chanMax.put [] t.tid (c1.chanNew.get [] t.tid) }) c

/-- The agreed logs after a committed step (R303): old values join the logs at a parameter's first overwrite; the candidate of an
earlier digest step has been agreed, since a later step could commit (R301); a digest step starts a new candidate; without an agreed
point the state now is the first. -/
def shadowLogs (d : Nat) (step : Nat) (ctr : SMap Nat) (x : Shadow) : Shadow :=
  let log := (match x.candStep with
    | some _ => x.candLog
    | none => x.agreedLog)
  let kept := x.pre.foldl (fun (m : SMap (List (List Nat))) e => if (m.find e.1).isSome then m else m.insert e.1 e.2) log
  let x1 := match x.candStep, x.agreedStep with
    | some k, _ => { x with agreedStep := some k, agreedLog := kept, agreedCtr := x.candCtr }
    | none, some _ => { x with agreedLog := kept }
    | none, none => { x with agreedStep := some step, agreedLog := [], agreedCtr := ctr }
  { x1 with candStep := if step % d = 0 then some step else none, candLog := [], candCtr := if step % d = 0 then ctr else [],
            pre := [], summary := none }

/-- Phase 2 at a twin (R216, R325, R328): the pre-step copy is released, the shadow stands at the committed step. -/
def shadowCommit (s : State) (n : Nat) : State :=
  let c := getCtx s n
  match c.plan, c.shadow.summary with
  | some p, some m =>
    let ctr := m.counters.foldl (fun (x : SMap Nat) i => x.put 0 i (x.get 0 i + 1)) c.optCtr
    let c1 := swapShadow p c
    putCtx s n { c1 with gauges := shadowGauges s p c m, optCtr := ctr, step := (c.step + 1) % 2 ^ 32, inactive := [], chanNew := [],
                         attempt := none, repeatPending := false, suspended := false, shadow := shadowLogs (digestD s) m.step ctr c.shadow }
  | _, _ => s

/-- The shadow returns to its pre-step state (R218, R328). -/
def shadowRevert (s : State) (n : Nat) : State :=
  modCtx s n (fun c =>
    let c1 := match c.plan with
      | some p => c.shadow.pre.foldl (fun (c : Ctx) (e : Nat × List (List Nat)) => match p.record (e.1 / 2 ^ 24) with
          | some t => restoreSlice c p t (e.1 % 2 ^ 24) e.2
          | none => c) c
      | none => c
    { c1 with inactive := [], chanNew := [], attempt := none, shadow := { c1.shadow with pre := [], summary := none } })

/-- Phase 2 at this party (R216): copies, tables and residuals live, counters advanced, journal released; twin protection
becomes ACTIVE with the first such step (R327). -/
def commitPoint (s : State) (n : Nat) : State :=
  let c := getCtx s n
  if c.shadow.held then shadowCommit s n
  else
  match c.plan, c.attempt with
  | some p, some a =>
    let used := optUsed p a
    let c1 := swapResidual p (swapLive p a c)
    let c2 := { c1 with
      optCtr := used.foldl (fun (m : SMap Nat) i => m.put 0 i (m.get 0 i + 1)) c.optCtr, step := (c.step + 1) % 2 ^ 32,
      jslots := c.jslots.filter (fun (e : Nat × JSlot) => c.rollback.contains e.1), inactive := [], chanNew := [], residualNew := [],
      attempt := some { a with outcome := some 0, phase := 8, causes := [] } }
    let s1 := putCtx s n (noteDigest s p a c2)
    let s2 := if a.twinParty ∧ s.twin.state = 2 then { s1 with twin := { s1.twin with state := 3 } } else s1
    bumpWrap s2 pgStep Reg.ST_COMMITS 1
  | _, _ => s

/-! The decision (R217). -/

/-- The causes a decision weighs, in the order that names one (R209, R217): those this device found, own, lost parties and timeout, then those
told. PARTY_LOST names the lost device, COMMIT_TIMEOUT the writing one. -/
def decisionCauses (s : State) (c : Ctx) (a : Attempt) : List Cause :=
  let self := deviceId s
  let own := a.causes.map (effective c a self)
  let lost := a.lostParties.map (fun d =>
    let prot := c.shadow.held || match a.notices.find d with
      | some x => x.active && (match x.twin with
        | some t => !s.lostDevs.contains t
        | none => false)
      | none => s.twin.twin == some d || a.notices.any (fun e => e.2.twin == some d)
    effective c a self (if prot then ⟨2, cPartyLost, d⟩ else ⟨3, cUnprotected, d⟩))
  let tm := if a.timedOut then [effective c a self ⟨2, cTimeout, self⟩] else []
  own ++ lost ++ tm ++ a.told.map (fun x => let y := effective c a self x
    if y.code = cPartyLost then { y with device := a.lostParties.headD y.device }
    else if y.code = cTimeout then { y with device := self } else y)

/-- BF16 codes as bytes in order (R160). -/
def codeBytes (data : List (List Nat)) : List Byte := data.flatten.flatMap (fun q => natLe q 2)

/-- The 32-byte header of a journal entry and of a mirror record (R160, R162). -/
def entryHeader (ctx step key nmom crc : Nat) (valid : Bool) : List Byte :=
  natLe (step % 2 ^ 32 + key / 2 ^ 24 % 2 ^ 24 * 2 ^ 32 + nmom % 4 * 2 ^ 56 + key % 2 ^ 24 * 2 ^ 64 + crc % 2 ^ 32 * 2 ^ 96 +
    ctx % 2 ^ 10 * 2 ^ 128 + bnat valid * 2 ^ 138) 32

/-- The header that stands in HBM for a journal slot. -/
def JSlot.header (j : JSlot) (ctx key : Nat) : List Byte := entryHeader ctx j.step key j.nmom j.crc j.valid

/-- The slot's payload can be copied back: its CRC-32C holds and no line of it was lost (R211, R213). -/
def JSlot.good (j : JSlot) : Bool := !j.lost && j.crc == crc32c (codeBytes j.data)

/-- A journal slot as the engine first writes it: the payload, the header not yet valid (R160, R161). -/
def newSlot (step : Nat) (data : List (List Nat)) : JSlot :=
  { step := step, nmom := data.length - 1, crc := crc32c (codeBytes data), data := data }

/-- The keys of slices that APPLY wrote and that a journal can restore (R211). -/
def toRestore (c : Ctx) (a : Attempt) : List Nat :=
  if c.journal then (a.slices.filter (fun e => (e.2.stage == 3 || e.2.stage == 2) && (match c.jslots.find e.1 with
    | some j => j.valid && j.step == a.step
    | none => false))).map (·.1) else []

/-- Decide an outcome other than COMMITTED: the winning cause, REPEAT_LIMIT, the party's own arrive where it made none, rollback
(R207-R209, R212, R217, R220). -/
def decideEnd (s : State) (n : Nat) : State :=
  let c := getCtx s n
  match c.attempt with
  | none => s
  | some a =>
    let x := (winner (decisionCauses s c a)).getD ⟨2, cTimeout, deviceId s⟩
    let y : Cause := if x.outcome = 2 ∧ a.limits.repeatMax ≤ a.repeats then ⟨3, cRepeatLimit, x.device⟩ else x
    let s1 := if y.code = cRepeatLimit then setErr s pgStep 0 else s
    let s2 := if y.code = cNoJournal then setErr s1 pgStep 4 else s1
    let s3 := if y.code = cUnprotected then setErr s2 pgStep 5 else s2
    let s4 := if a.timedOut then setErr s3 pgStep 3 else s3
    let s5 := if a.vote = none ∨ a.vote = some 0 then arriveAll s4 n (if x.outcome = 1 then 1 else 2) x else s4
    let s6 := stopWork s5 n
    if c.shadow.held then modCtx (shadowRevert s6 n) n (fun c => { c with repeatPending := y.outcome == 2, suspended := y.outcome == 3 })
    else modCtx s6 n (fun c => { c with
      rollback := (c.rollback ++ toRestore c a).eraseDups, inactive := [], chanNew := [], residualNew := [], lastCause := y.code, lastDevice := y.device,
      attempt := c.attempt.map (fun b => { b with outcome := some y.outcome, phase := 8, told := [y] }) })

/-- What the own COMMIT instance stands at: count and target. -/
def ownInstance (s : State) (c : Ctx) : Nat × Nat :=
  match commitKey c 0 with
  | some k => let p := getPeg s k
              (p.count, if p.reached then 0 else p.target)
  | none => (0, 1)

/-- Every surviving instance has been read: decide (R217 steps 3 and 4). -/
def finishDecision (s : State) (n : Nat) : State :=
  let c := getCtx s n
  match c.attempt with
  | none => s
  | some a =>
    if !a.deciding || a.outcome.isSome || !a.asked.isEmpty then s
    else if ((ownInstance s c) :: a.answers).any (fun x => decide (x.2 ≤ x.1)) then commitPoint (if a.timedOut then setErr s pgStep 3 else s) n
    else decideEnd s n

/-- Close the own instance and every other, then query each (R217 steps 1 and 2). Lost parties are fenced already (R320). -/
def beginDecision (s : State) (n : Nat) : State :=
  let c := getCtx s n
  match c.plan, c.attempt with
  | some p, some a =>
    if a.deciding || a.outcome.isSome then s
    else
      let s1 := match commitKey c 0 with
        | some k => closePeg s k
        | none => s
      let s2 := modAttempt s1 n (fun a => { a with deciding := true })
      let s3 := (instances s c p a).foldl (fun s d =>
        let r := s.nextRef
        let s1 := sendPegOp s n d (commitPlanPeg 0) opClose 0 noCause 0
        modAttempt { s1 with pegRefs := s1.pegRefs.insert r { w := { ctx := n, slot := d }, kind := 14 } } n
          (fun a => { a with asked := a.asked ++ [r] })) s2
      finishDecision s3 n
  | _, _ => s

/-- What a change of the pegs means for an attempt: the own COMMIT instance reached is the commit point; a tripped SKIP or REPEAT,
a lost party or an expired timeout starts the decision (R216, R217). -/
def commitWatch (s : State) (n : Nat) : State :=
  let c := getCtx s n
  let hit (i : Nat) : Bool := match commitKey c i with
    | some k => (getPeg s k).reached
    | none => false
  match c.attempt with
  | none => if c.shadow.held && (hit 1 || hit 2) then shadowRevert s n else s
  | some a =>
    if a.outcome.isSome then s
    else if hit 0 then commitPoint s n
    else if hit 1 || hit 2 || !a.lostParties.isEmpty || a.timedOut then finishDecision (beginDecision s n) n
    else s

/-- Arrive where possible, then see what it means. -/
def progress (s : State) (n : Nat) : State := commitWatch (tryArrive s n) n

/-- A cause is found in a context's attempt (R208, R215): after the party's COMMIT arrive it changes nothing. -/
def addCause (s : State) (n code device : Nat) : State :=
  let c := getCtx s n
  match c.attempt with
  | none => s
  | some a =>
    if a.outcome.isSome || a.vote == some 0 then s
    else progress (stopWork (modAttempt s n (fun a => { a with causes := a.causes ++ [⟨outcomeOf code, code, device⟩] })) n) n

/-- A cause of the own device. -/
def endAttempt (s : State) (n code : Nat) : State := addCause s n code (deviceId s)

/-- A party of the attempt is lost (R217, R218). -/
def partyLost (s : State) (n d : Nat) : State :=
  let c := getCtx s n
  match c.plan, c.attempt with
  | some p, some a =>
    let party := p.memberIds.contains d || a.notices.any (fun e => e.2.twin == some d) || (a.twinParty && s.twin.twin == some d)
    if !party || a.outcome.isSome then s
    else
      let gone := (s.pegRefs.filter (fun e => e.2.kind == 14 && e.2.w.ctx == n && e.2.w.slot == d)).map (·.1)
      let s1 := modAttempt s n (fun a => { a with lostParties := if a.lostParties.contains d then a.lostParties else a.lostParties ++ [d],
                                                  asked := a.asked.filter (fun r => !gone.contains r) })
      commitWatch s1 n
  | _, _ => s

/-! The commands. -/

/-- The context whose commit pegs hold a physical peg. -/
def commitOwner (s : State) (k : Nat) : Option Nat := (s.ctxs.find? (fun e => e.2.commitPegs.contains k)).map (·.1)

/-- ARRIVE (R379): the work order's arrive, then what it means for the attempt. -/
def execArrive (w : WoHdr) (a : PegArgs) (s : State) : Host.Outcome State Fault Refusal :=
  .next (commitWatch (pegWork .arrive w a s) w.ctx)

/-- A context that stands in for a lost member learns from a survivor that the step is repeated (R218): it runs the member's share in the
attempt of that number. The spec says nowhere how the member's batch reaches it: the offset is a free value, the length the declared share
(log entry 173). -/
def awaitRepeat (s : State) (n attempt : Nat) : State :=
  let c := getCtx s n
  let len := match c.plan with
    | some p => declaredShare s c p * (match p.batchTensor with
      | some t => t.tokenBytes
      | none => 0)
    | none => 0
  let s1 := putCtx s n { c with repeatPending := true, attemptNo := max c.attemptNo attempt }
  if c.batch.isSome then s1
  else
    let r := freeNext s1
    modCtx r.2 n (fun c => { c with batch := some (r.1.toNat, len) })

/-- This device stands in for a lost member in the context (R196, R330). -/
def standsIn (s : State) (c : Ctx) : Bool := c.state == 2 && c.moved.any (fun e => e.2 == deviceId s)

/-- ADMISSION_NOTICE (R450): once every notice is held, the targets of the own COMMIT instance and of the twin's are set, and a
party that waited arrives. A notice for an attempt not admitted here yet is kept until it is. -/
def execAdmissionNotice (src ctx step attempt : Nat) (twin : Option Nat) (active : Bool) (s : State) :
    Host.Outcome State Fault Refusal :=
  let c := getCtx s ctx
  match c.plan with
  | none => .next s
  | some p =>
    if !(peersOf s c p).contains src then .next s
    else
      let waiting : Bool := match c.attempt with
        | some a => a.step == step && a.number == attempt && a.outcome.isNone
        | none => false
      if waiting then
        .next (progress (holdNotices (modAttempt s ctx (fun a => { a with notices := a.notices.insert src ⟨twin, active⟩ })) ctx) ctx)
      else
        let s1 := putCtx s ctx { c with earlyNotices := c.earlyNotices ++ [(src, step, attempt, ⟨twin, active⟩)] }
        .next (if standsIn s c && c.attempt.isNone && step == c.step && decide (c.attemptNo < attempt) then awaitRepeat s1 ctx attempt else s1)

end Sys2Proof.Machine
end

