-- ==== Sys2Proof/Machine/Closing.lean ====
section
/-! DEFINITION. CLOSE and the step boundary: gauges, loss scale, backward treads, the settle round, the step record, what follows
each outcome (R86, R87, R207, R209, R235-R239, R374). -/

namespace Sys2Proof.Machine

/-! Stair events (R239). -/

/-- An event record. -/
def stairEvent (layer half kind src dst why used pos : Nat) : Nat :=
  layer % 2 ^ 16 + half % 2 * 2 ^ 16 + kind % 8 * 2 ^ 17 + src % 8 * 2 ^ 20 + dst % 8 * 2 ^ 23 + why % 4 * 2 ^ 26 +
    used % 128 * 2 ^ 28 + pos % 4096 * 2 ^ 35

/-- Log an event of the attempt. -/
def logEvent (s : State) (n e : Nat) : State := modAttempt s n (fun a => { a with events := a.events ++ [e] })

/-- Stair repeats used, summed over positions. -/
def usedTotal (a : Attempt) : Nat := (a.used.map (·.2)).sum

/-! The step record (R209, R374). -/

/-- Sum of a layer's tallies over halves and positions. -/
def layerSum (m : SMap Tally) (i : Nat) : Tally :=
  (m.filter (fun e => e.1 % 65536 == i)).foldl (fun t e => t.add e.2) .zero

/-- A layer entry (R374). -/
def layerEntry (c : Ctx) (p : Plan) (a : Attempt) (pos i : Nat) : List Byte :=
  let f := treadOf c p i 0 pos
  let g := if a.split then treadOf c p i 1 pos else f
  let t := (layerSum a.tally i).add (layerSum a.btally i)
  natLe i 2 ++ natLe (f + 16 * g) 1 ++ natLe (c.btread.get 0 i) 1 ++ t.toList.flatMap (fun x => natLe (sat32 x) 4) ++
    (layerSum a.prior i).toList.flatMap (fun x => natLe (sat32 x) 4) ++ natLe (sat32 (a.xsat.get 0 i)) 4 ++
    natLe (sat32 (a.xovf.get 0 i)) 4 ++ natLe 0 4

/-- The reduced loss of the step as the record of a position gives it: half B's holds the tree over the segments of both halves (R65, R126,
R374; log entry 169). -/
def lossField (a : Attempt) (pos : Nat) : Nat :=
  match (a.losses.filter (fun e => e.1 / 2 == pos)).getLast? with
  | none => 0
  | some e => if (fp32V e.2).nonFinite then FFmt.fp32.canonNan else e.2

/-- The body of the step record after its prefix (R374). -/
def stepRecord (s : State) (c : Ctx) (p : Plan) (a : Attempt) (outcome cause device : Nat) : List Byte :=
  let pos := positionOf s p
  natLe a.step 4 ++ natLe (min a.number 255) 1 ++ natLe outcome 1 ++ natLe cause 1 ++
    natLe (bnat a.split + bnat c.journal * 2 + bnat a.twinParty * 4 + bnat a.halfOff * 8 + bnat a.surveyed * 16) 1 ++
    natLe device 2 ++ natLe pos 2 ++ natLe (lossField a pos) 4 ++ natLe (codeOf 16 c.lossExp) 2 ++ natLe (min (usedTotal a) 255) 1 ++
    natLe 0 1 ++ natLe p.layers.length 2 ++ natLe a.events.length 2 ++
    (List.range p.layers.length).flatMap (layerEntry c p a pos) ++ a.events.flatMap (fun e => natLe e 8)

/-! Gauges, loss scale, treads (R86, R87, R108, R235-R237). -/

/-- The kind of a bound gauge. -/
def gaugeKind (p : Plan) (g : Nat) : Nat := ((p.gauges.find? (fun b => b.gauge == g)).map (·.kind)).getD 0

/-- Close every bound gauge but the loss scale's (R86); each update is announced by CLOSE_UPDATE_DONE (R108). -/
def closeGauges (s : State) (p : Plan) (c : Ctx) (commit : Bool) (raises : List Nat) : Ctx :=
  let md := fld s pgGauge Reg.GE_CTRL 15 0
  let bs := p.gauges.filter (fun b => b.kind != 3)
  { c with gauges := bs.foldl (fun m b => m.put {} b.gauge ((m.get {} b.gauge).close (gaugeF p b.gauge) commit (raises.contains b.gauge) md)) c.gauges
           closing := useOrder p }

/-- The loss-scale change of an outcome (R236, R237). -/
def closeLoss (s : State) (n : Nat) (p : Plan) (commit : Bool) (lower : Option Nat) : State :=
  match p.lossGauge with
  | none => s
  | some g =>
    let c := getCtx s n
    let old := c.gauges.get {} g
    let x := old.lossScale commit lower.isSome (signedOf 10 (fld s pgStair Reg.SB_LS 9 0)) (signedOf 10 (fld s pgStair Reg.SB_LS 25 16))
      (fld s pgStair Reg.SB_GROW 15 0)
    let s1 := putCtx s n { c with gauges := c.gauges.put {} g x.g }
    let ev (kind why : Nat) : Nat :=
      stairEvent 0xFFFF 0 kind (codeOf 10 old.gexp % 8) (codeOf 10 x.g.gexp % 8) why
        ((c.attempt.map usedTotal).getD 0) (positionOf s p)
    if x.floor then logEvent (setErr s1 pgStair 2) n (ev 7 3)
    else if x.lowered then logEvent s1 n (ev 5 (lower.getD 3))
    else if x.grew then logEvent s1 n (ev 6 3)
    else s1

/-- Backward treads at CLOSE: rises on a skip, BQUIET and decay on a commit (R235). -/
def closeTreads (s : State) (n : Nat) (p : Plan) (a : Attempt) (outcome : Nat) : State :=
  let bd := fld s pgStair Reg.SB_CTRL 31 16
  (p.layers.zipIdx).foldl (fun s x =>
    let c := getCtx s n
    let i := x.2
    let t := c.btread.get 0 i
    let ev (half kind dst why pos : Nat) : Nat := stairEvent i half kind t dst why (usedTotal a) pos
    if outcome = 1 then
      match a.braises.find? (fun k => k % 65536 == i && decide (t < x.1.bceil)) with
      | some k =>
        let why := if a.bover.contains k then 0 else 1
        logEvent (putCtx s n { c with btread := c.btread.put 0 i (t + 1), bquiet := c.bquiet.put 0 i 0 }) n
          (ev (k / 65536 % 2) 3 (t + 1) why (k / 131072))
      | none => s
    else if outcome = 0 then
      let q := min (c.bquiet.get 0 i + 1) 65535
      if bd ≠ 0 ∧ bd ≤ q then
        let c1 := { c with bquiet := c.bquiet.put 0 i 0 }
        if x.1.bbase < t then logEvent (putCtx s n { c1 with btread := c.btread.put 0 i (t - 1) }) n (ev 0 4 (t - 1) 3 (positionOf s p))
        else putCtx s n c1
      else putCtx s n { c with bquiet := c.bquiet.put 0 i q }
    else s) s

/-! CLOSE (R206, R207, R209). -/

/-- What follows an outcome: counters, batch, repeat, suspension (R207, R209). -/
def afterOutcome (c : Ctx) (a : Attempt) (outcome : Nat) : Ctx :=
  let skips := if outcome = 1 then c.skips + 1 else 0
  let c1 := { c with
    skips := skips, attempt := none, made := [], parts := [], reexec := [], dups := [], frameQueues := [], lastOutcome := outcome, lastStep := a.step,
    lastTread := a.treads, lastUsed := usedTotal a, lastSplit := a.split
    lastTwins := a.notices.filterMap (fun (e : Nat × Notice) => if e.2.active then e.2.twin.map (fun t => (e.1, t)) else none) }
  match outcome with
  | 0 => { c1 with attemptNo := 0, repeats := 0, batch := none, lastCause := 0, lastDevice := 0 }
  | 1 => { c1 with attemptNo := c.attemptNo + 1, repeats := 0, batch := none,
                   suspended := c.suspended || (a.limits.skipMax != 0 && decide (a.limits.skipMax ≤ skips)) }
  | 2 => { c1 with attemptNo := c.attemptNo + 1, repeats := c.repeats + 1, repeatPending := true }
  | _ => { c1 with attemptNo := c.attemptNo + 1, repeats := 0, batch := none, suspended := true }

/-- CLOSE with its settle round decided: `ok` false when the round did not complete (R86, R235-R238). -/
def closeNow (s : State) (n : Nat) (ok : Bool) : State :=
  let c := getCtx s n
  match c.plan, c.attempt with
  | some p, some a =>
    let oc := a.outcome.getD 2
    let settled := oc ≠ 0 ∧ !(peersOf s c p).isEmpty
    let own := a.raises.eraseDups
    let raises := if settled then own.filter (fun g => gaugeKind p g != 1) ++ (if ok then a.settleRaises else []) else own
    let lower : Option Nat :=
      if settled then (if ok && (a.settleLower || (oc == 1 && a.lower.isSome)) then some (a.lower.getD 3) else none)
      else if oc = 1 then a.lower else none
    let s0 := finishGauges c.closing.length s n
    let s1 := putCtx s0 n (closeGauges s0 p (getCtx s0 n) (oc == 0) raises)
    let s2 := closeTreads (closeLoss s1 n p (oc == 0) lower) n p a oc
    let s3 := if settled && !ok then setErr s2 pgStair 3 else s2
    let c3 := getCtx s3 n
    let a3 := c3.attempt.getD a
    let cause := if oc = 0 then 0 else c3.lastCause
    let dev := if oc = 0 then 0 else c3.lastDevice
    let s4 := pushRec s3 0 n (stepRecord s3 c3 p a3 oc cause dev)
    let c5 := computeScalars (emptyStack (afterOutcome c3 a3 oc))
    let c6 := if settled && !ok then { c5 with suspended := true } else c5
    let s5 := putCtx s4 n c6
    if oc = 1 ∧ a.limits.skipMax ≠ 0 ∧ a.limits.skipMax ≤ c6.skips then setErr s5 pgStep 1 else s5
  | _, _ => s

/-- The weight gauges with a raise requested, and whether the loss scale is to be lowered (R238). -/
def settleOwn (p : Plan) (a : Attempt) : Bool × List Nat :=
  (a.outcome == some 1 && a.lower.isSome, a.raises.eraseDups.filter (fun g => gaugeKind p g == 1))

/-- The devices of a group's inner rings in order, lost ones left out, each device once (R238). -/
def settleRings (s : State) (c : Ctx) (g : GroupRec) : List (List Nat) :=
  ((List.range (ringCount g)).foldl (fun (rs : List (List Nat)) r =>
    let ds := ((List.range (ringSize g)).map (fun i => devAt c g (r * ringSize g + i))).filter (fun d =>
      !s.lostDevs.contains d && !c.expelled.contains d && !rs.flatten.contains d)
    rs ++ [ds.eraseDups]) []).filter (fun l => !l.isEmpty)

/-- The rings of the round: those of the plan's first group of more than one member. -/
def roundRings (s : State) (c : Ctx) (p : Plan) : List (List Nat) :=
  match p.groups.find? (fun g => decide (1 < g.p)) with
  | some g => settleRings s c g
  | none => []

/-- Where this device stands in the round: its ring, and its place in it. -/
def settlePlace (s : State) (rs : List (List Nat)) : Option (Nat × Nat) :=
  (rs.findIdx? (fun l => l.contains (deviceId s))).map (fun r => (r, (rs.getD r []).idxOf (deviceId s)))

/-- The next device of a ring, and the one before. -/
def settleNext (l : List Nat) (i : Nat) : Nat := l.getD ((i + 1) % l.length) 0
def settlePrev (l : List Nat) (i : Nat) : Nat := l.getD ((i + l.length - 1) % l.length) 0

/-- The first devices of the rings below a ring in the tree. -/
def settleKids (rs : List (List Nat)) (r : Nat) : List Nat :=
  ([2 * r + 1, 2 * r + 2].filter (fun k => decide (k < rs.length))).map (fun k => (rs.getD k []).headD 0)

/-- Send the combined bit and bitmap of 65,536 bits (R238). -/
def sendSettle (s : State) (n d : Nat) : State :=
  match (getCtx s n).attempt with
  | some a => sendNear s d 0 4 8193 (.settle n a.step a.settleLower a.settleRaises)
  | none => s

/-- The result is final here: it goes down the tree, and round the ring from its first device (R238; log entry 170). -/
def settleFinal (s : State) (n : Nat) (rs : List (List Nat)) (r i : Nat) : State :=
  let l := rs.getD r []
  let ds := (if i = 0 then settleKids rs r else []) ++
    (if rs.length ≠ 1 ∧ i + 1 < l.length then [settleNext l i] else [])
  ds.foldl (fun s d => sendSettle s n d) (modAttempt s n (fun a => { a with settleDone := true }))

/-- The ring is through and every child's sum is in: up the tree, or final at its root. -/
def settleClimb (s : State) (n : Nat) (rs : List (List Nat)) (r i : Nat) : State :=
  let l := rs.getD r []
  match (getCtx s n).attempt with
  | some a =>
    if a.settleHop + 1 < l.length || a.settleUp || a.settleDone then s
    else if rs.length = 1 then modAttempt s n (fun a => { a with settleDone := true })
    else if i ≠ 0 || !(settleKids rs r).all (a.settleUps.contains ·) then s
    else if r = 0 then settleFinal s n rs r i
    else sendSettle (modAttempt s n (fun a => { a with settleUp := true })) n ((rs.getD ((r - 1) / 2) []).headD 0)
  | none => s

/-- Take a message of the round: round the ring, up from a child, or the final result (R238; log entry 170). -/
def settleTake (s : State) (n : Nat) (rs : List (List Nat)) (r i : Nat) (x : Nat × Bool × List Nat) : State :=
  let l := rs.getD r []
  match (getCtx s n).attempt with
  | none => s
  | some a =>
    let s1 := modAttempt s n (fun a => { a with settleLower := a.settleLower || x.2.1, settleRaises := (a.settleRaises ++ x.2.2).eraseDups })
    if x.1 = settlePrev l i ∧ a.settleHop + 1 < l.length then
      let s2 := modAttempt s1 n (fun a => { a with settleHop := a.settleHop + 1 })
      settleClimb (if a.settleHop + 2 < l.length then sendSettle s2 n (settleNext l i) else s2) n rs r i
    else if i = 0 ∧ (settleKids rs r).contains x.1 then
      settleClimb (modAttempt s1 n (fun a => { a with settleUps := a.settleUps ++ [x.1] })) n rs r i
    else if (i = 0 ∧ a.settleUp = true ∧ x.1 = (rs.getD ((r - 1) / 2) []).headD 0) ∨ (i ≠ 0 ∧ x.1 = settlePrev l i ∧ a.settleDone = false) then
      settleFinal s1 n rs r i
    else s

/-- The round is complete here. -/
def settled (s : State) (n : Nat) : Bool :=
  match (getCtx s n).attempt with
  | some a => a.settling && a.settleDone
  | none => false

/-- Start a settle round: the own values, then what already came (R238). -/
def startSettle (s : State) (n : Nat) : State :=
  let c := getCtx s n
  match c.plan, c.attempt with
  | some p, some a =>
    let x := settleOwn p a
    let rs := roundRings s c p
    let s1 := modAttempt s n (fun a => { a with settling := true, settleLower := a.settleLower || x.1,
                                                settleRaises := (a.settleRaises ++ x.2).eraseDups, settleIn := [] })
    match settlePlace s rs with
    | none => modAttempt s1 n (fun a => { a with settleDone := true })
    | some (r, i) =>
      let l := rs.getD r []
      let s2 := if 1 < l.length then sendSettle s1 n (settleNext l i) else s1
      a.settleIn.foldl (fun s y => settleTake s n rs r i y) (settleClimb s2 n rs r i)
  | _, _ => s

/-- CLOSE_PHASE on a decided attempt (R206, R238): P > 1 and no commit runs a settle round first. Answers whether it closed. -/
def closePhase (s : State) (n : Nat) : State × Bool :=
  let c := getCtx s n
  match c.plan, c.attempt with
  | some p, some a =>
    match a.outcome with
    | none => (s, false)
    | some oc =>
      if oc = 0 ∨ (peersOf s c p).isEmpty then (closeNow s n true, true)
      else if a.settling then (s, false)
      else
        let s1 := startSettle s n
        if settled s1 n then (closeNow s1 n true, true) else (s1, false)
  | _, _ => (s, false)

/-- A settle message: kept until the own round begins, then taken (R238). Answers whether CLOSE ended. -/
def settleMsg (s : State) (src n step : Nat) (lower : Bool) (raises : List Nat) : State × Bool :=
  let c := getCtx s n
  match c.plan, c.attempt with
  | some p, some a =>
    if a.step ≠ step ∨ a.outcome = some 0 then (s, false)
    else if !a.settling then (modAttempt s n (fun a => { a with settleIn := a.settleIn ++ [(src, lower, raises)] }), false)
    else
      let rs := roundRings s c p
      let s1 := match settlePlace s rs with
        | some (r, i) => settleTake s n rs r i (src, lower, raises)
        | none => s
      if settled s1 n then (closeNow s1 n true, true) else (s1, false)
  | _, _ => (s, false)

end Sys2Proof.Machine
end

