-- ==== Sys2Proof/Machine/Faulty.lean ====
section
/-! DEFINITION. What the fault manager does with a detected fault: recoveries and their bounds, the fence table, quarantine of a
gallery, the device's own declaration of loss (R73, R299, R316-R322, R329). -/

namespace Sys2Proof.Machine

/-! Recoveries (R316, R318). -/

/-- The bound of a fault class in ns (R316). -/
def classBound (cls : Nat) : Nat := 1000 * ([0, 5, 20, 30, 50, 2, 50, 50, 30].getD cls 0)

/-- The lease of local owners in µs; values below 4 act as 4 (R319, R339). -/
def leaseUs (s : State) : Nat := max 4 (fld s pgFault Reg.FM_CTRL 7 0)

/-- The bound a recovery is judged against: raised by a lease beyond 10 µs where expiry detected it (R316). -/
def recoveryBound (s : State) (r : Recovery) : Nat := classBound r.cls + (if r.lease then 1000 * (leaseUs s - 10) else 0)

/-- What FM_LAST_UNIT shows of a fault (R339): nothing of a link or a supply, of a mover its hall. -/
def lastUnit (cls unit : Nat) : Nat :=
  match cls with
  | 1 => 0
  | 2 => 0
  | 5 => 0
  | 8 => hallUnit (bits unit 17 15)
  | _ => unit

/-- A fault is detected: logged, its registers set, its recovery begun; a second one sets FM_ERR.DOUBLE (R318, R339, R374). -/
def beginRecovery (s : State) (cls unit dev code : Nat) (lease : Bool) (addr : Nat := 0) : State :=
  let s1 := logFault s { kind := 0, cls := cls, device := dev, unit := unit, d0 := code, addr := addr }
  let s2 := regSet (regSet s1 pgFault Reg.FM_LAST (cls % 16 + dev % 4096 * 16)) pgFault Reg.FM_LAST_UNIT (lastUnit cls unit)
  match s2.recovery with
  | some r => { setErr s2 pgFault 1 with recovery := some { r with double := true } }
  | none => { s2 with recovery := some { cls := cls, unit := unit, lease := lease } }

/-- A recovery waits for the repeats of contexts; `ns` is the interruption where it waits for none. -/
def recoveryWaits (s : State) (ns : List Nat) (t : Nat) : State :=
  { s with recovery := s.recovery.map (fun r => { r with waits := (r.waits ++ ns).eraseDups, ns := max r.ns t }) }

/-- End a recovery that waits for nothing more: its interruption, the longest, the bound, the log (R316, R318, R339). -/
def settleRecovery (s : State) : State :=
  match s.recovery with
  | none => s
  | some r =>
    if !r.waits.isEmpty then s
    else
      let s1 := keepMax (regSet { s with recovery := none } pgFault Reg.FM_LAST_NS (min r.ns 0xFFFFFFFF)) pgFault Reg.FM_MAX_NS r.ns
      let s2 := logFault s1 { kind := 1, cls := r.cls, device := deviceId s, unit := r.unit, ns := min r.ns 0xFFFFFFFF }
      if !r.double && decide (recoveryBound s r < r.ns) then
        logFault (setErr s2 pgFault 0) { kind := 8, cls := r.cls, device := deviceId s, unit := r.unit, d0 := r.cls }
      else s2

/-- A context's repeat was dispatched after `t` ns, or will not be (R316). -/
def recoveryEnds (s : State) (n t : Nat) : State :=
  match s.recovery with
  | none => s
  | some r => if r.waits.contains n then
      settleRecovery { s with recovery := some { r with waits := r.waits.erase n, ns := max r.ns t } }
    else s

/-! The device's own loss (R317, R329). -/

/-- The bytes of a heartbeat control flit: kind 1, device ID, sequence number, health code (R329, R342; log entry 25). -/
def beatBytes (s : State) (down : Bool) : List Byte :=
  natLe 1 1 ++ natLe (deviceId s) 2 ++ natLe s.twin.beat 4 ++ natLe (bnat down) 1

/-- The devices that exchange heartbeats with this one: its twin, the member it is twin to. -/
def beatPeers (s : State) : List Nat := (s.twin.twin.toList ++ s.twin.member.toList).filter (fun d => !s.lostDevs.contains d)

/-- The bundle links to a peer that run: those of PAIR to the own twin, those whose far end is the member. -/
def beatLinks (s : State) (d : Nat) : List Nat :=
  (List.range 48).filter (fun n => linkRuns s n && (if s.twin.twin = some d then bit s.twin.links n else (getLink s n).peer == d))

/-- One beat to a peer: on every bundle link, else by the fallback route (R329). -/
def sendBeat (s : State) (down : Bool) (d : Nat) : State :=
  let ls := beatLinks s d
  if ls.isEmpty then
    (if fld s pgTwin Reg.TW_CTRL 0 0 = 1 then sendRouted s d 0 4 8 (.beat s.twin.beat down) else s)
  else ls.foldl (fun s l => sendControl s l (beatBytes s down)) s

/-- Beats to every peer; the sequence number advances. -/
def sendBeats (s : State) (down : Bool) : State :=
  let s1 := (beatPeers s).foldl (fun s d => sendBeat s down d) s
  { s1 with twin := { s1.twin with beat := (s1.twin.beat + 1) % 2 ^ 32 } }

/-- The device declares itself lost: DOWN beats on every heartbeat route, then no link output, FAULT_N low (R317, R441). -/
def declareLost (s : State) (unit code : Nat) : State :=
  if s.power.lost then s
  else
    let s1 := beginRecovery s 6 unit (deviceId s) code false
    let s2 := settleRecovery (sendBeats s1 true)
    { s2 with power := { s2.power with lost := true, fault := true } }

/-! The fence table (R320). -/

/-- Fence an owner tag; a full table of 256 makes the device declare itself lost (R317, R320, R339). -/
def fence (s : State) (tag : Nat) : State :=
  if s.fence.contains tag then s
  else if 256 ≤ s.fence.length then declareLost (setErr s pgFault 2) 0 0x12
  else { s with fence := s.fence ++ [tag] }

/-- The owner tags of a gallery's units by its slot: bays F, X and W, joiner, landing unit (R319). -/
def slotTags (s : State) (h a slot : Nat) : List Nat :=
  (List.range 5).map (fun u => u + slot * 2 ^ 4 + a * 2 ^ 11 + h * 2 ^ 15 + 2 ^ 18 + deviceId s * 2 ^ 20)

/-- The tag of a mover (R319). -/
def moverTag (s : State) (h m : Nat) : Nat := 8 + m % 8 + h * 2 ^ 15 + 2 ^ 18 + deviceId s * 2 ^ 20

/-! A gallery's fault (R15, R316, R322). -/

/-- The header of an instance of a template on a member (R264, R265). -/
def instHdr (p : Plan) (n ti : Nat) (m : Slot) : WoHdr :=
  let t := p.templates.getD ti ⟨[]⟩
  { ctx := n, hall := m.hall, aisle := m.aisle, slot := m.slot, layer := bits (tw t 0) 31 16, phase := bits (tw t 0) 7 4,
    waitPeg := bits (tw t 2) 15 0, donePeg := bits (tw t 2) 31 16, rnd := bits (tw t 3) 2 0, template := ti }

/-- The four queues of a slot (R6). -/
def slotQueues (h a slot : Nat) : List Nat := (List.range 4).map (fun u => ((h * 16 + a) * 68 + slot) * 4 + u)

/-- The faulty member's unfinished instances of a simulation context end FAILED; every instance it received since the last WAITPEG
it passed goes to the slot's new gallery in order (R322). -/
def failMember (s : State) (n h a slot : Nat) : State :=
  match (getCtx s n).plan with
  | none => s
  | some p =>
    (slotQueues h a slot).foldl (fun s k =>
      let q := s.queues.get [] k
      let mine := q.filter (fun e => e.ctx == n)
      let s1 := mine.foldl (fun s e => addDone s { w := { instHdr p n e.template ⟨h, a, slot⟩ with donePeg := 0xFFFF },
                                                   kind := bits (tw (p.templates.getD e.template ⟨[]⟩) 0) 3 0, status := 0x20 }) s
      let again := if (galAt s h a slot).isSome then s.ran.get [] k ++ mine else []
      { s1 with queues := s1.queues.put [] k (again ++ q.filter (fun e => e.ctx != n)), ran := s1.ran.put [] k [] }) s

/-- A fault stops a training context's work: the attempt ends with a cause, a running pass ends FAILED (R223, R316). -/
def hitTraining (s : State) (n code : Nat) : State :=
  let c := getCtx s n
  match c.attempt, c.evalRun with
  | some _, _ => endAttempt s n code
  | none, some e => putCtx s n { c with evalRun := some { e with failed := true } }
  | none, none => s

/-- The contexts whose attempt a fault interrupted: those whose repeat is still to come. -/
def interrupted_ (s : State) (ns : List Nat) : List Nat :=
  ns.filter (fun n => match (getCtx s n).attempt with
    | some a => !a.causes.isEmpty || (match a.outcome with
      | some o => o == 2
      | none => false)
    | none => (getCtx s n).repeatPending)

/-- A gallery counts as having failed its test: ineligible; after three failures in succession retired for good (R299, R308). -/
def markFailed (s : State) (k : Nat) : State :=
  let g := getGal s k
  let bad : Gallery := { g with fails := g.fails + 1, testing := false, testReq := false, probing := none }
  if 3 ≤ bad.fails then logFault (putGal s k { bad with state := 5 }) { kind := 3, device := deviceId s, unit := unitOfKey k, d0 := 0x12 }
  else putGal s k { bad with state := 3 }

/-- A gallery's fault: its recovery, fence, the end of what it ran, quarantine swap, and for a simulation context the rerun on the
slot's new gallery (R15, R16, R316, R320, R322). A spare that faults has failed its test (R299). -/
def galleryFault (s : State) (k code ns : Nat) (lease : Bool) : State :=
  let g := getGal s k
  let h := keyHall k
  let a := keyAisle k
  let s1 := beginRecovery s 3 (unitOfKey k) (deviceId s) code lease
  if g.state = 0 then
    let hs := holdersOf s1 h a g.slot
    let tags := slotTags s1 h a g.slot
    let s2 := tags.foldl fence s1
    let s3 := hs.foldl (fun s n => if simCtx s n then s else hitTraining s n code) s2
    let s4 := modGal (swapGallery s3 k true false) k (fun g => { g with tags := tags })
    let s5 := hs.foldl (fun s n => if simCtx s n then failMember s n h a g.slot else s) s4
    settleRecovery (recoveryWaits s5 (interrupted_ s5 hs) ns)
  else
    let s2 := if g.state = 1 || g.state = 2 then
        modGal (markFailed (abortProbe s1 k) k) k (fun g => { g with quar := true })
      else s1
    settleRecovery (recoveryWaits s2 [] ns)

end Sys2Proof.Machine
end

