-- ==== Sys2Proof/Machine/Work.lean ====
section
/-! DEFINITION. How a work order runs on a member: may it run, the wait before it, the tags of the blocks it reads, its frame on
the activation stack, its report (R7, R98-R100, R108, R132, R143, R267, R395). -/

namespace Sys2Proof.Machine

/-! Sequence tags (R98-R100). -/

/-- Elements of a tensor that a work order reads under block scales. -/
structure ReadSet where
  tid : Nat
  t : Tensor
  idx : List Nat

/-- A mismatch: expected tag, stored byte, the slot (plus 1) that wrote the block. -/
structure SlipAt where
  want : Nat
  got : Nat
  writer : Nat
  deriving DecidableEq, Repr

/-- The first block read whose stored tag byte differs from the expected one (R98, R99). -/
def firstSlip (epoch : Nat) (rs : List ReadSet) : Option SlipAt :=
  rs.findSome? (fun r =>
    if r.t.d.grain ≠ 2 then none
    else ((r.idx.map r.t.blockOf).eraseDups).findSome? (fun b =>
      let want := (b + epoch) % 64
      let got := r.t.tags.get 0 b
      if want = got then none else some ⟨want, got, r.t.writers.get 0 b⟩))

/-- The landing page of a gallery. -/
def landPg (k : Nat) : Page := pgLanding (keyHall k) (keyAisle k) (k % 68)

/-- An interruption that no operand measures: a free value within the class's bound (R316, log entry 26). -/
def freeNs (s : State) (cls : Nat) : Nat × State :=
  let r := freeNext s
  (r.1.toNat % (classBound cls + 1), r.2)

/-- A gallery fault whose interruption the model does not measure. -/
def galleryFaultFree (s : State) (k code : Nat) : State :=
  let r := freeNs s 3
  galleryFault r.2 k code r.1 false

/-- Count a tally against a work order's layer at once. -/
def countNow (s : State) (w : WoHdr) (t : Tally) : State := modCtx s w.ctx (fun c => absorb c { w := w, kind := 0, tally := t })

/-- A slip is counted and recorded with both tags, and its error bit set: bit 0 a first slip, bit 1 a second (R99, R104). -/
def noteSlip (s : State) (w : WoHdr) (x : SlipAt) (bitNo : Nat) : State :=
  let p := landPg (memberGal s w)
  let n := min 65535 (fld s p Reg.LD_SLIP 31 16 + 1)
  setErr (countNow (regSet s p Reg.LD_SLIP (x.want + x.got % 256 * 256 + n * 2 ^ 16)) w { slip := 1 }) p bitNo

/-- The streams of a slipped work order were written by another gallery: its landing unit is marked suspect (R100). -/
def blameWriter (s : State) (w : WoHdr) (x : SlipAt) : State :=
  let other := x.writer - 1
  if x.writer = 0 ∨ other = (w.hall * 16 + w.aisle) * 68 + w.slot then s
  else match galAt s (other / 68 / 16) (other / 68 % 16) (other % 68) with
    | some j => suspectGal s j
    | none => s

/-- A second slip quarantines the consuming gallery and repeats the step (R100). -/
def secondSlip (s : State) (w : WoHdr) (x : SlipAt) : State :=
  blameWriter (galleryFaultFree (noteSlip s w x 1) (memberGal s w) 0x12) w x

/-- A slip (R100): the first stops the work order, which runs once more on the same gallery when it is next sent (log entry 144), in a
rerun at once; the second is a fault. -/
def slipped (s : State) (sent w : WoHdr) (x : SlipAt) : State :=
  let c := getCtx s w.ctx
  if c.stack.rerun then secondSlip (noteSlip s w x 0) w x
  else if c.reexec.any (fun e => e.1 == sent) then
    secondSlip (modCtx s w.ctx (fun c => { c with reexec := c.reexec.filter (fun e => e.1 != sent) })) w x
  else noteSlip (modCtx s w.ctx (fun c => { c with reexec := c.reexec ++ [(sent, w)] })) w x 0

/-! Running. -/

/-! Frames of the activation stack (R124, R130-R133, R143). -/

/-- A write past a region's end is dropped: SK_ERR.BOUND, a device defect, and the attempt ends ABANDONED (R143). -/
def boundFault (s : State) (n h : Nat) : State :=
  endAttempt (logFault (setErr s (pgStack h) 1) { kind := 8, device := deviceId s, unit := 2 ^ 29 + h * 2 ^ 25, d0 := cBound }) n cBound

/-- Push the frames of a layer whose input copy or auxiliary record was written, each hall its own part (R130, R132, R136). -/
def pushLayer (s : State) (w : WoHdr) (p : Plan) (i : Nat) (l : LayerRec) : State :=
  (layerHalls (getCtx s w.ctx) p l).foldl (fun s e =>
    let c := getCtx s w.ctx
    let f := hallFrame s c p i l (frameKind l) w.half w.pos e.1
    if f.rows = 0 then s
    else match putFrame c p f with
      | some c1 => putCtx s w.ctx (notePeak p c1)
      | none => boundFault s w.ctx e.1) s

/-- Push what a work order's tensor belongs to, in a training forward pass that is no rerun (R132, R137). -/
def pushFrame (s : State) (w : WoHdr) (tid : Nat) : State :=
  let c := getCtx s w.ctx
  match c.plan with
  | some p => if c.attempt.isSome ∧ w.phase = 0 ∧ c.stack.rerun = false then (frameLayers c p w tid).foldl (fun s x => pushLayer s w p x.1 x.2) s else s
  | none => s

/-- The segment results of half A that bay W holds for a layer until half B's are there (R124, R130, R131). -/
def holdSegments (s : State) (n : Nat) (p : Plan) (i : Nat) (l : LayerRec) (pos : Nat) : State :=
  let T := shareTokens s (getCtx s n) p pos
  (layerHalls (getCtx s n) p l).foldl (fun s e =>
    let c := getCtx s n
    let f : StackFrame := { layer := i, kind := 3, half := 0, pos := pos, hall := e.1, length := heldPages c p l T e.1, offset := heldBase s c p e.1 }
    if passesEnd c f then boundFault s n e.1 else putCtx s n (notePeak p { c with stack := { c.stack with held := c.stack.held ++ [f] } })) s

/-- A layer's backward work in a half has ended: its frames are free, and in a split step half A's segment results are held (R124, R133). -/
def layerConsumed (s : State) (n : Nat) (p : Plan) (i : Nat) (l : LayerRec) (half pos : Nat) : State :=
  let s1 := modCtx s n (fun c => freeLayer c i half pos)
  if isSplit (getCtx s n) && half == 0 then holdSegments s1 n p i l pos else s1

/-- Push the frames of the tensors a work order wrote (R132). -/
def pushOuts (s : State) (w : WoHdr) (outs : List Nat) : State := outs.foldl (fun s tid => pushFrame s w tid) s

/-- What a work order does to its context, and what it reports. -/
abbrev WorkFn := Ctx → WoHdr → Ctx × WoDone

/-- The start of a work order, which one that a first slip stopped has behind it (R100); the rerun of a recompute block takes its place on
the members without their queues and pegs (R137, R139; log entry 103). -/
def startAgain (s : State) (w : WoHdr) (unit kind : Nat) : Begun :=
  if (getCtx s w.ctx).stack.rerun then .go s w
  else match (getCtx s w.ctx).reexec.find? (fun e => e.1 == w) with
  | some e => .go s e.2
  | none => startWork s w unit kind

/-- A work order's result: what its landing unit converted is counted (R104), its frames are pushed, its report waits for
WORK_ORDER_COMPLETE. -/
def finishWork (s : State) (w : WoHdr) (outs : List Nat) (r : Ctx × WoDone) : State :=
  let s1 := if r.2.elems = 0 then s else bump64 s (landPg (memberGal s w)) Reg.LD_ELEMS_LO r.2.elems
  pushOuts (addDone (putCtx s1 w.ctx r.1) r.2) w outs

/-- Run a work order: it waits for power and for its WAITPEG, delayed gauges are released, the tags of what it reads are checked,
it computes and finishes. -/
def runWork (unit kind : Nat) (reads : Ctx → List ReadSet) (outs : List Nat) (f : WorkFn) (sent : WoHdr) (s : State) : State :=
  if !mayWork s sent then s
  else if !memberPowered s sent then askPower s sent
  else
    match startAgain s sent unit kind with
    | .stop s => s
    | .go s w =>
      let s1 := awaitGauges s w outs
      let c := getCtx s1 w.ctx
      let chk := fld s1 (landPg (memberGal s1 w)) Reg.LD_CTRL 0 0 == 1
      match (if chk then firstSlip c.epoch (reads c) else none) with
      | some x => slipped s1 sent w x
      | none =>
        let s2 := modCtx s1 w.ctx (fun c => { c with reexec := c.reexec.filter (fun e => e.1 != sent) })
        finishWork s2 w outs (f (getCtx s2 w.ctx) w)

/-- The read set of a tensor over a range of its elements. -/
def readsOf (c : Ctx) (tid start n : Nat) : List ReadSet :=
  if tid = noTid then []
  else
    let t := c.open_ tid
    [⟨tid, t, (List.range (min n (t.size - start))).map (start + ·)⟩]

end Sys2Proof.Machine
end

