-- ==== Sys2Proof/Machine/Elementwise.lean ====
section
/-! DEFINITION. The element-wise catalogue as work orders of the joiners (R268-R270): one meaning per operation over the shared
ones of Catalogue. -/

namespace Sys2Proof.Machine

/-- The formats of operands as the plan gives them. -/
def fmtsOf (c : Ctx) (l : List Nat) : List (Option Desc) := l.map (fun i => if i = noTid then none else c.plan.bind (fun p => p.fmtOf i))

/-- The status an element-wise work order is refused with, or 0 (R255, R268, R270). -/
def ewStatus (c : Ctx) (op : Nat) (a : EwArgs) : Nat := ewFmtStatus op a.p0 (Desc.ofByte a.outFmt) (fmtsOf c [a.in0, a.in1, a.in2])

/-- The tensors an element-wise operation writes: OUT, and IN2 for the operations that name a second output there (R269). -/
def ewOuts (op : Nat) (a : EwArgs) : List Nat :=
  a.out :: (if [0x2A, 0x2B, 0x32, 0x33].contains op && a.in2 != noTid then [a.in2] else [])

/-- What an operation reads under block scales: IN0, and IN1 and IN2 where it takes them element by element; a normalisation γ and β by
column and its backward the layer's kept input, GATHER the rows named, SCATTER_ADD every contributing row (R99, R269, R270). -/
def ewReads (op : Nat) (two three : Bool) (w : WoHdr) (a : EwArgs) (c : Ctx) : List ReadSet :=
  let n := max a.rowLen 1
  let own (tid : Nat) : List ReadSet := readsOf c tid a.start a.count
  let table (i : Nat) : List ReadSet :=
    let j := labelAt (c.open_ a.in1) (a.start / n + i)
    if j < 0 || (c.open_ a.in0).size ≤ j.toNat * n then [] else readsOf c a.in0 (j.toNat * n) n
  match op with
  | 0x30 => own a.in0 ++ readsOf c a.in1 0 n ++ readsOf c a.in2 0 n
  | 0x31 => own a.in0 ++ readsOf c a.in1 0 n
  | 0x32 => own a.in0 ++ readsOf c a.in1 0 n ++ own (keptInput c w)
  | 0x33 => own a.in0 ++ readsOf c a.in1 0 n ++ own (keptInput c w)
  | 0x3D => (List.range (a.count / n)).flatMap table
  | 0x3E => readsOf c a.in0 0 ((c.open_ a.in1).size * n)
  | _ => own a.in0 ++ (if two then own a.in1 else []) ++ (if three then own a.in2 else [])

/-- The operations whose every step the catalogue states as an IEEE operation; the flags of the others are their microcode's. -/
def ewExact (op : Nat) : Bool :=
  decide (op ≤ 0x09) || [0x0C, 0x10, 0x11, 0x20, 0x21, 0x39, 0x3A, 0x3B, 0x3C, 0x3D, 0x3E, 0x40, 0x42].contains op || decide (0x50 ≤ op)

/-- A work order's report with the flags its microcode raised, which the spec does not state (R242, R268; log entry 147). -/
def withMicroFlags (op : Nat) (c : Ctx) (a : EwArgs) (d : WoDone) : WoDone :=
  if ewExact op then d
  else
    let x := (ewInputs 0 c a).1
    { d with flags := d.flags.or (IFlags.ofNat (Config.microFlags op (x.p0 :: x.p1 :: (x.x ++ x.y)))) }

/-- Refuse a work order of the joiners before it starts: SM_ERR for a reserved RND (R241, R252). -/
def refuseJoiner (s : State) (w : WoHdr) (kind st : Nat) : State :=
  let q := takeQueued s w 3
  addDone (noteSmErr q.1 st) { w := q.2, kind := kind, status := st }

/-- An element-wise work order: refused whole, for its rounding attribute first, or run on the joiner (R241, R268). -/
def ewWork (op : Nat) (two three : Bool) (f : Ctx → WoHdr → EwArgs → Ctx × WoDone) (w : WoHdr) (a : EwArgs) (s : State) : State :=
  let st := if (Rnd.ofCode w.rnd).isNone then 0x0B else ewStatus (getCtx s w.ctx) op a
  if mayWork s w && st != 0 then refuseJoiner s w 1 st
  else runWork 3 1 (ewReads op two three w a) (ewOuts op a ++ (if a.aux = noTid then [] else [a.aux])) (fun c w =>
    let r := f c w a
    (r.1, withMicroFlags op c a r.2)) w s

/-- CLAMP to [P0, P1]: maximum with P0, then minimum with P1 (R269). -/
def clampRes (p0 p1 x : Nat) : Res := resThen (ieeeMax .fp32 x p0) (fun y => ieeeMin .fp32 y p1)

/-- LEAKY with slope P0 (R269). -/
def leakyRes (p x : Nat) : Res := if (fp32V x).isNan then (x, {}) else if (fp32V x).sign then ieeeMul .fp32 .rne x p else (x, {})

/-- MSE: the square of the difference, each operation rounded once (R270). -/
def mseRes (x y : Nat) : Res := resThen (ieeeSub .fp32 .rne x y) (fun d => ieeeMul .fp32 .rne d d)

/-- MSE_B before the loss scale: 2(x − y) × P0 (R270). -/
def mseBack (p x y : Nat) : Res :=
  resThen (resThen (ieeeSub .fp32 .rne x y) (ieeeMul .fp32 .rne 0x40000000)) (fun d => ieeeMul .fp32 .rne d p)

/-- RELU (R269). -/
def reluCode (x : Nat) : Nat := if (fp32V x).isNan then x else if (fp32V x).sign then 0 else x

/-- ADD (R269). -/
def execAdd (w : WoHdr) (a : EwArgs) (s : State) : Host.Outcome State Fault Refusal :=
  .next (ewWork 0x00 true false (ewRun 0 (ew2 (ieeeAdd .fp32 .rne))) w a s)
/-- SUB (R269). -/
def execSub (w : WoHdr) (a : EwArgs) (s : State) : Host.Outcome State Fault Refusal :=
  .next (ewWork 0x01 true false (ewRun 0 (ew2 (ieeeSub .fp32 .rne))) w a s)
/-- MUL (R269). -/
def execMul (w : WoHdr) (a : EwArgs) (s : State) : Host.Outcome State Fault Refusal :=
  .next (ewWork 0x02 true false (ewRun 0 (ew2 (ieeeMul .fp32 .rne))) w a s)
/-- DIV (R269). -/
def execDiv (w : WoHdr) (a : EwArgs) (s : State) : Host.Outcome State Fault Refusal :=
  .next (ewWork 0x03 true false (ewRun 0 (ew2 (ieeeDiv .fp32 .rne))) w a s)
/-- FMA (R269). -/
def execFma (w : WoHdr) (a : EwArgs) (s : State) : Host.Outcome State Fault Refusal :=
  .next (ewWork 0x04 true true (ewRun 0 (ew3 (ieeeFma .fp32 .rne))) w a s)
/-- MIN (R154, R269). -/
def execMin (w : WoHdr) (a : EwArgs) (s : State) : Host.Outcome State Fault Refusal :=
  .next (ewWork 0x05 true false (ewRun 0 (ew2 (ieeeMin .fp32))) w a s)
/-- MAX (R154, R269). -/
def execMax (w : WoHdr) (a : EwArgs) (s : State) : Host.Outcome State Fault Refusal :=
  .next (ewWork 0x06 true false (ewRun 0 (ew2 (ieeeMax .fp32))) w a s)
/-- NEG (R269). -/
def execNeg (w : WoHdr) (a : EwArgs) (s : State) : Host.Outcome State Fault Refusal :=
  .next (ewWork 0x07 false false (ewRun 0 (ew1 (fun x => x ^^^ 2 ^ 31))) w a s)
/-- ABS (R269). -/
def execAbs (w : WoHdr) (a : EwArgs) (s : State) : Host.Outcome State Fault Refusal :=
  .next (ewWork 0x08 false false (ewRun 0 (ew1 (fun x => x % 2 ^ 31))) w a s)
/-- SQRT (R269). -/
def execSqrt (w : WoHdr) (a : EwArgs) (s : State) : Host.Outcome State Fault Refusal :=
  .next (ewWork 0x09 false false (ewRun 0 (ew1f (ieeeSqrt .fp32 .rne))) w a s)
/-- RSQRT (R269). -/
def execRsqrt (w : WoHdr) (a : EwArgs) (s : State) : Host.Outcome State Fault Refusal :=
  .next (ewWork 0x0A false false (ewRun 0 (ew1 (microFn .rsqrt))) w a s)
/-- RECIP (R269). -/
def execRecip (w : WoHdr) (a : EwArgs) (s : State) : Host.Outcome State Fault Refusal :=
  .next (ewWork 0x0B false false (ewRun 0 (ew1 (microFn .recip))) w a s)
/-- CLAMP (R269). -/
def execClamp (w : WoHdr) (a : EwArgs) (s : State) : Host.Outcome State Fault Refusal :=
  .next (ewWork 0x0C false false (ewRun 0 (fun d => ew1f (clampRes d.p0 d.p1) d)) w a s)
/-- RELU (R269). -/
def execRelu (w : WoHdr) (a : EwArgs) (s : State) : Host.Outcome State Fault Refusal :=
  .next (ewWork 0x10 false false (ewRun 0 (ewAct reluCode)) w a s)
/-- LEAKY (R269). -/
def execLeaky (w : WoHdr) (a : EwArgs) (s : State) : Host.Outcome State Fault Refusal :=
  .next (ewWork 0x11 false false (ewRun 0 (fun d => ewActf (leakyRes d.p0) d)) w a s)
/-- GELU_TANH (R269). -/
def execGeluTanh (w : WoHdr) (a : EwArgs) (s : State) : Host.Outcome State Fault Refusal :=
  .next (ewWork 0x12 false false (ewRun 0 (ewAct (microFn .geluTanh))) w a s)
/-- GELU_ERF (R269). -/
def execGeluErf (w : WoHdr) (a : EwArgs) (s : State) : Host.Outcome State Fault Refusal :=
  .next (ewWork 0x13 false false (ewRun 0 (ewAct (microFn .geluErf))) w a s)
/-- SILU (R269). -/
def execSilu (w : WoHdr) (a : EwArgs) (s : State) : Host.Outcome State Fault Refusal :=
  .next (ewWork 0x14 false false (ewRun 0 (ewAct (microFn .silu))) w a s)
/-- SIGMOID (R269). -/
def execSigmoid (w : WoHdr) (a : EwArgs) (s : State) : Host.Outcome State Fault Refusal :=
  .next (ewWork 0x15 false false (ewRun 0 (ewAct (microFn .sigmoid))) w a s)
/-- TANH (R269). -/
def execTanh (w : WoHdr) (a : EwArgs) (s : State) : Host.Outcome State Fault Refusal :=
  .next (ewWork 0x16 false false (ewRun 0 (ewAct (microFn .tanh))) w a s)
/-- SOFTPLUS (R269). -/
def execSoftplus (w : WoHdr) (a : EwArgs) (s : State) : Host.Outcome State Fault Refusal :=
  .next (ewWork 0x17 false false (ewRun 0 (ewAct (microFn .softplus))) w a s)
/-- EXP (R269). -/
def execExp (w : WoHdr) (a : EwArgs) (s : State) : Host.Outcome State Fault Refusal :=
  .next (ewWork 0x18 false false (ewRun 0 (ewAct expCode)) w a s)
/-- LOG (R269). -/
def execLog (w : WoHdr) (a : EwArgs) (s : State) : Host.Outcome State Fault Refusal :=
  .next (ewWork 0x19 false false (ewRun 0 (ewAct (microFn .log))) w a s)
/-- GLU_SILU (R269). -/
def execGluSilu (w : WoHdr) (a : EwArgs) (s : State) : Host.Outcome State Fault Refusal :=
  .next (ewWork 0x1A true false (ewRun 0 (ewGlu .silu)) w a s)
/-- GLU_GELU (R269). -/
def execGluGelu (w : WoHdr) (a : EwArgs) (s : State) : Host.Outcome State Fault Refusal :=
  .next (ewWork 0x1B true false (ewRun 0 (ewGlu .geluErf)) w a s)
/-- RELU_DERIVATIVE (R269). -/
def execReluDerivative (w : WoHdr) (a : EwArgs) (s : State) : Host.Outcome State Fault Refusal :=
  .next (ewWork 0x20 false false (ewRun 1 (ewDer reluDer)) w a s)
/-- LEAKY_DERIVATIVE (R269). -/
def execLeakyDerivative (w : WoHdr) (a : EwArgs) (s : State) : Host.Outcome State Fault Refusal :=
  .next (ewWork 0x21 false false (ewRun 1 (fun d => ewDer (leakyDer d.p0) d)) w a s)
/-- GELU_TANH_DERIVATIVE (R269). -/
def execGeluTanhDerivative (w : WoHdr) (a : EwArgs) (s : State) : Host.Outcome State Fault Refusal :=
  .next (ewWork 0x22 false false (ewRun 1 (ewDer (microFn .dGeluTanh))) w a s)
/-- GELU_ERF_DERIVATIVE (R269). -/
def execGeluErfDerivative (w : WoHdr) (a : EwArgs) (s : State) : Host.Outcome State Fault Refusal :=
  .next (ewWork 0x23 false false (ewRun 1 (ewDer (microFn .dGeluErf))) w a s)
/-- SILU_DERIVATIVE (R269). -/
def execSiluDerivative (w : WoHdr) (a : EwArgs) (s : State) : Host.Outcome State Fault Refusal :=
  .next (ewWork 0x24 false false (ewRun 1 (ewDer (microFn .dSilu))) w a s)
/-- SIGMOID_DERIVATIVE (R269). -/
def execSigmoidDerivative (w : WoHdr) (a : EwArgs) (s : State) : Host.Outcome State Fault Refusal :=
  .next (ewWork 0x25 false false (ewRun 1 (ewDer (microFn .dSigmoid))) w a s)
/-- TANH_DERIVATIVE (R269). -/
def execTanhDerivative (w : WoHdr) (a : EwArgs) (s : State) : Host.Outcome State Fault Refusal :=
  .next (ewWork 0x26 false false (ewRun 1 (ewDer (microFn .dTanh))) w a s)
/-- SOFTPLUS_DERIVATIVE (R269). -/
def execSoftplusDerivative (w : WoHdr) (a : EwArgs) (s : State) : Host.Outcome State Fault Refusal :=
  .next (ewWork 0x27 false false (ewRun 1 (ewDer (microFn .dSoftplus))) w a s)
/-- EXP_DERIVATIVE (R269). -/
def execExpDerivative (w : WoHdr) (a : EwArgs) (s : State) : Host.Outcome State Fault Refusal :=
  .next (ewWork 0x28 false false (ewRun 1 (ewDer (microFn .dExp))) w a s)
/-- LOG_DERIVATIVE (R269). -/
def execLogDerivative (w : WoHdr) (a : EwArgs) (s : State) : Host.Outcome State Fault Refusal :=
  .next (ewWork 0x29 false false (ewRun 1 (ewDer (microFn .dLog))) w a s)
/-- GLU_SILU_DERIVATIVE (R269). -/
def execGluSiluDerivative (w : WoHdr) (a : EwArgs) (s : State) : Host.Outcome State Fault Refusal :=
  .next (ewWork 0x2A false false (ewRun 2 (ewGluDer .silu .dSilu)) w a s)
/-- GLU_GELU_DERIVATIVE (R269). -/
def execGluGeluDerivative (w : WoHdr) (a : EwArgs) (s : State) : Host.Outcome State Fault Refusal :=
  .next (ewWork 0x2B false false (ewRun 2 (ewGluDer .geluErf .dGeluErf)) w a s)
/-- LAYERNORM (R269). -/
def execLayernorm (w : WoHdr) (a : EwArgs) (s : State) : Host.Outcome State Fault Refusal :=
  .next (ewWork 0x30 false false (ewNorm false) w a s)
/-- RMSNORM (R269). -/
def execRmsnorm (w : WoHdr) (a : EwArgs) (s : State) : Host.Outcome State Fault Refusal :=
  .next (ewWork 0x31 false false (ewNorm true) w a s)
/-- LAYERNORM_B (R269). -/
def execLayernormB (w : WoHdr) (a : EwArgs) (s : State) : Host.Outcome State Fault Refusal :=
  .next (ewWork 0x32 false false (ewNormBack false) w a s)
/-- RMSNORM_B (R269). -/
def execRmsnormB (w : WoHdr) (a : EwArgs) (s : State) : Host.Outcome State Fault Refusal :=
  .next (ewWork 0x33 false false (ewNormBack true) w a s)
/-- SOFTMAX (R270). -/
def execSoftmax (w : WoHdr) (a : EwArgs) (s : State) : Host.Outcome State Fault Refusal :=
  .next (ewWork 0x34 false false (ewRun 0 ewSoftmax) w a s)
/-- LOGSOFTMAX (R270). -/
def execLogsoftmax (w : WoHdr) (a : EwArgs) (s : State) : Host.Outcome State Fault Refusal :=
  .next (ewWork 0x35 false false (ewRun 0 (fun d => { out := (ewRows logSoftRow d).map fp32V })) w a s)
/-- SOFTMAX_B (R270). -/
def execSoftmaxB (w : WoHdr) (a : EwArgs) (s : State) : Host.Outcome State Fault Refusal :=
  .next (ewWork 0x36 false false (ewRun 1 ewSoftmaxB) w a s)
/-- XENT (R270). -/
def execXent (w : WoHdr) (a : EwArgs) (s : State) : Host.Outcome State Fault Refusal :=
  .next (ewWork 0x37 false false (ewXent) w a s)
/-- XENT_B (R237, R270). -/
def execXentB (w : WoHdr) (a : EwArgs) (s : State) : Host.Outcome State Fault Refusal :=
  .next (ewWork 0x38 false false (ewXentB) w a s)
/-- MSE (R270). -/
def execMse (w : WoHdr) (a : EwArgs) (s : State) : Host.Outcome State Fault Refusal :=
  .next (ewWork 0x39 true false (ewRun 0 (ew2 mseRes)) w a s)
/-- MSE_B (R237, R270). -/
def execMseB (w : WoHdr) (a : EwArgs) (s : State) : Host.Outcome State Fault Refusal :=
  .next (ewWork 0x3A true false (fun c => ewRun 0 (fun d =>
    let o := ew2 (mseBack d.p0) d
    { o with out := o.out.map (fun v => v.scale c.lossExp) }) c) w a s)
/-- DROPOUT (R169-R171, R270). -/
def execDropout (w : WoHdr) (a : EwArgs) (s : State) : Host.Outcome State Fault Refusal :=
  .next (ewWork 0x3B false false (fun c w a => ewRun 0 (fun d => dropVals (c.drawKey 2 a.out) d.p0 d.start d.x) c w a) w a s)
/-- DROPOUT_B (R171, R270). -/
def execDropoutB (w : WoHdr) (a : EwArgs) (s : State) : Host.Outcome State Fault Refusal :=
  .next (ewWork 0x3C false false (fun c w a => ewRun 0 (fun d => dropVals (c.drawKey 2 a.aux) d.p0 d.start d.x) c w { a with aux := noTid }) w a s)
/-- GATHER (R270). -/
def execGather (w : WoHdr) (a : EwArgs) (s : State) : Host.Outcome State Fault Refusal :=
  .next (ewWork 0x3D false false (ewGather) w a s)
/-- SCATTER_ADD (R244, R270). -/
def execScatterAdd (w : WoHdr) (a : EwArgs) (s : State) : Host.Outcome State Fault Refusal :=
  .next (ewWork 0x3E false false (ewScatter) w a s)
/-- SAMPLE (R169, R270). -/
def execSample (w : WoHdr) (a : EwArgs) (s : State) : Host.Outcome State Fault Refusal :=
  .next (ewWork 0x3F false false (ewSample) w a s)
/-- INIT_UNIFORM (R270). -/
def execInitUniform (w : WoHdr) (a : EwArgs) (s : State) : Host.Outcome State Fault Refusal :=
  .next (ewWork 0x40 false false (ewInitUniform) w a s)
/-- INIT_NORMAL (R270). -/
def execInitNormal (w : WoHdr) (a : EwArgs) (s : State) : Host.Outcome State Fault Refusal :=
  .next (ewWork 0x41 false false (ewInitNormal) w a s)
/-- CONVERT (R269). -/
def execConvert (w : WoHdr) (a : EwArgs) (s : State) : Host.Outcome State Fault Refusal :=
  .next (ewWork 0x42 false false (ewConvert) w a s)

end Sys2Proof.Machine
end

