-- ==== Sys2Proof/Machine/Movement.lean ====
section
/-! DEFINITION. Movement work orders between tensors and the transfer window, with MX import and export (R45-R47, R98, R266,
R267, R363, R365). -/

namespace Sys2Proof.Machine

/-- Bytes [off, off + n) of a tensor's packed codes. -/
def tensorBytes (t : Tensor) (off n : Nat) : List Byte := t.codes.readBytes off n

/-- Elements that a byte range of a tensor covers: first and count. -/
def elemsOf (t : Tensor) (off n : Nat) : Nat × Nat :=
  let f := t.d.fmt
  if f.perByte = 1 then (off / f.bytes, n / f.bytes) else (off * f.perByte, n * f.perByte)

/-- Scales, tags and side rows move with the codes they cover (R98, R266). -/
def moveScales (src dst : Tensor) (soff doff n : Nat) : Tensor :=
  let es := elemsOf src soff n
  let ed := (elemsOf dst doff n).1
  let l := max src.rowLen 1
  let m := max dst.rowLen 1
  match src.d.grain, dst.d.grain with
  | 0, 0 => { dst with et := src.et }
  | 1, 1 => (List.range es.2).foldl (fun (t : Tensor) i => { t with
      et := src.et, chan := t.chan.put 0x7F ((ed + i) / m) (src.chan.get 0x7F ((es.1 + i) / l)) }) dst
  | 2, 2 => (List.range es.2).foldl (fun (t : Tensor) i =>
      let b := src.blockOf (es.1 + i)
      let q := t.blockOf (ed + i)
      { t with et := src.et, blocks := t.blocks.put 0x7F q (src.blocks.get 0x7F b), tags := t.tags.put 0 q (src.tags.get 0 b),
               writers := t.writers.put 0 q (src.writers.get 0 b) }) dst
  | _, _ => dst

/-- Elements [i, i + n) of a tensor are a copy of elements from `j` on of another: an infinity stays one from outside (R33). -/
def copyMarks (src dst : Tensor) (j i n : Nat) : Tensor :=
  { dst with ext := (List.range n).foldl (fun m k => m.put 0 (i + k) (bnat (src.ext.get 0 (j + k) != 0 && dst.infAt (i + k)))) dst.ext }

/-- A movement between two tensors of a context. -/
def moveTensor (c : Ctx) (a : MvArgs) : Ctx :=
  let src := c.open_ a.src
  let dst := c.open_ a.dst
  let es := elemsOf src a.srcOff a.len
  let t := copyMarks src { dst with codes := dst.codes.writeBytes a.dstOff (tensorBytes src a.srcOff a.len) } es.1 (elemsOf dst a.dstOff a.len).1 es.2
  let t1 := moveScales src t a.srcOff a.dstOff a.len
  c.putTensor a.dst (if a.srcOff = 0 ∧ (src.rows * src.d.fmt.rowBytes src.rowLen) ≤ a.len then { t1 with side := src.side } else t1)

/-- Bytes from outside arrive in a tensor (R33). -/
def moveIn (c : Ctx) (tid off : Nat) (data : List Byte) : Ctx :=
  let t := c.open_ tid
  let e := elemsOf t off data.length
  c.putTensor tid ({ t with codes := t.codes.writeBytes off data }.markExt e.1 e.2)

/-! MX (R45-R47). -/

/-- The native descriptor and tensor exponent of an MX element code (R45). -/
def mxNative (elem : Nat) : Desc × Nat :=
  match elem with
  | 0 => (⟨.af8, 2, false⟩, 0x7F)
  | 1 => (⟨.g8, 2, false⟩, 0x7F)
  | 2 => (⟨.a8, 2, true⟩, 0x79)
  | _ => (⟨.f4, 1, false⟩, 0x7F)

/-- The status an MX option is refused with, or 0 (R45, R266). -/
def mxStatus (x : MxArgs) : Nat := if x.elem ≥ 4 ∨ x.block ≠ 2 then 0x07 else 0

/-- The MX block that an element falls into: of an F4 weight along its channel's reduction, else of the tensor's own block axis (R37,
R45, R46). -/
def mxBlockOf (t : Tensor) (elem i : Nat) : Nat :=
  let l := max t.rowLen 1
  if elem = 3 then i / l * ((l + 31) / 32) + i % l / 32 else t.blockOf i

/-- Bytes that n element codes of an MX stream take. -/
def mxBytes (elem n : Nat) : Nat := if elem = 3 then (n + 1) / 2 else n

/-- What an MX stream of a length holds from element e0 on: how many elements, and the blocks they touch in canonical order, one scale
for each (log entry 28). `fuel` bounds the elements. -/
def mxFit (t : Tensor) (elem len e0 : Nat) : Nat → Nat → SMap Nat → Nat × List Nat
  | 0, n, m => (n, m.map (·.1))
  | fuel + 1, n, m =>
    let m1 := m.insert (mxBlockOf t elem (e0 + n)) 0
    if e0 + n < t.size ∧ mxBytes elem (n + 1) + m1.length ≤ len then mxFit t elem len e0 fuel (n + 1) m1 else (n, m.map (·.1))

/-- The elements and blocks of an MX stream of `len` bytes. -/
def mxSpan (t : Tensor) (elem len e0 : Nat) : Nat × List Nat := mxFit t elem len e0 (2 * len + 1) 0 []

/-- The element codes of an MX stream. -/
def mxCodes (elem n : Nat) (data : List Byte) : List Nat :=
  (List.range n).map (fun i => if elem = 3 then (data.getD (i / 2) 0).toNat / 16 ^ (i % 2) % 16 else (data.getD i 0).toNat)

/-- The shared scales of an MX stream by block. -/
def mxScales (elem : Nat) (x : Nat × List Nat) (data : List Byte) : List (Nat × Nat) :=
  (x.2.zipIdx).map (fun b => (b.1, (data.getD (mxBytes elem x.1 + b.2) 0).toNat))

/-- Import blocked elements: codes and scales copied, each block tagged (R45, R98). -/
def mxBlocked (c : Ctx) (w : WoHdr) (t : Tensor) (elem e0 : Nat) (codes : List Nat) (scales : List (Nat × Nat)) : Tensor :=
  let t1 := (putWords { t with et := (mxNative elem).2 } e0 codes).markExt e0 codes.length
  scales.foldl (fun (t : Tensor) x => { t.tagBlock c.epoch (writerOf w) x.1 with blocks := t.blocks.put 0x7F x.1 x.2 }) t1

/-- Import MXFP4 as F4 weights: one scale per channel, smaller blocks re-rounded; how many codes changed (R46). -/
def mxWeights (t : Tensor) (e0 : Nat) (codes : List Nat) (scales : List (Nat × Nat)) : Tensor × Nat :=
  let l := max t.rowLen 1
  let nb := (l + 31) / 32
  let x (i : Nat) : Nat := ((scales.find? (fun s => s.1 == mxBlockOf t 3 i)).map (·.2)).getD 0xFF
  let rows := ((scales.map (fun s => s.1 / nb)).eraseDups).map (fun r =>
    let ss := (scales.filter (fun s => s.1 / nb == r)).map (·.2)
    (r, if ss.any (· == 0xFF) then 0xFF else ss.foldl max 0, (ss.filter (· != 0xFF)).foldl max 0))
  let t1 := rows.foldl (fun (t : Tensor) r => { t with chan := t.chan.put 0x7F r.1 r.2.1 }) { t with et := 0x7F }
  (codes.zipIdx).foldl (fun (a : Tensor × Nat) q =>
    let i := e0 + q.2
    let ec := ((rows.find? (fun r => r.1 == i / l)).map (·.2.2)).getD 0
    let q' := if x i = 0xFF ∨ x i = ec then q.1 else (convert ⟨.f4, 1, false⟩ ((ec : Int) - x i) (codeVal .f4 false q.1)).code
    (a.1.putCode (i / l) (i % l) q', a.2 + bnat (q' != q.1))) (t1, 0)

/-- An MX import into a tensor from the bytes of its stream: the tensor takes the native form (R45, R46). -/
def mxInto (c : Ctx) (w : WoHdr) (a : MvArgs) (x : MxArgs) (data : List Byte) : Ctx × WoDone :=
  let t := { c.open_ a.dst with desc := (mxNative x.elem).1.toByte }
  let e0 := a.dstOff * (if x.elem = 3 then 2 else 1)
  let sp := mxSpan t x.elem data.length e0
  let codes := mxCodes x.elem sp.1 data
  let scales := mxScales x.elem sp data
  let d : WoDone := { w := w, kind := 3, always := true }
  if x.elem = 3 then
    let r := mxWeights t e0 codes scales
    (c.putTensor a.dst r.1, { d with c0 := r.2 })
  else (c.putTensor a.dst (mxBlocked c w t x.elem e0 codes scales), d)

/-- The stream an MX export writes: a status where the tensor has no such form or a scale does not fit (R47). -/
def mxStream (t : Tensor) (a : MvArgs) (x : MxArgs) : Nat × List Byte :=
  if !mxForm x.elem (some t.d) then (0x07, [])
  else
    let e0 := a.srcOff * (if x.elem = 3 then 2 else 1)
    let sp := mxSpan t x.elem a.len e0
    let l := max t.rowLen 1
    let codes := (List.range sp.1).map (fun i => t.codeAt ((e0 + i) / l) ((e0 + i) % l))
    let raw := sp.2.map (fun b => if x.elem = 3 then t.chan.get 0x7F (b / ((l + 31) / 32)) else t.blocks.get 0x7F b)
    let fold (q : Nat) : Int := if q = 0xFF ∨ t.et = 0xFF then 255 else (q : Int) + t.et - 127 + (if x.elem = 2 then 6 else 0)
    let xs := raw.map (fun q => (fold q, decide (q = 0xFF ∨ t.et = 0xFF)))
    if xs.any (fun q => !q.2 && decide (q.1 < 0 ∨ 254 < q.1)) then (0x08, [])
    else
      let body := if x.elem = 3 then (List.range ((sp.1 + 1) / 2)).map (fun i => BitVec.ofNat 8 (nth codes (2 * i) + 16 * nth codes (2 * i + 1)))
        else codes.map (BitVec.ofNat 8)
      (0, body ++ xs.map (fun q => BitVec.ofNat 8 q.1.toNat))

/-! Window transfers. -/

/-- The part of the transfer window a movement reads or writes: reads of a step or pass start at the batch's OFFSET (R207, R363,
log entry 29). -/
def windowRef (c : Ctx) (off len : Nat) (batch : Bool) : Option BufRef :=
  let base := if batch then (match c.attempt, c.evalRun with
    | some a, _ => a.batchOff
    | none, some e => e.off
    | none, none => 0) else 0
  c.window.map (fun b => { b with addr := b.addr + base + off, len := len })

/-- A movement fails: FAILED; a training attempt ends REPEATED with cause HOST_IO, a pass FAILED, a simulation context is suspended
(R365). -/
def moveFailed (s : State) (w : WoHdr) (mx : Bool) : State :=
  let s1 := addDone s { w := w, kind := 3, status := 0x20, always := mx }
  if simCtx s w.ctx then modCtx s1 w.ctx (fun c => { c with suspended := true, evalRun := c.evalRun.map (fun e => { e with failed := true }) })
  else hitTraining s1 w.ctx cHostIo

/-- Start a movement that reads the window: an RDMA READ (R363). -/
def startMoveIn (s : State) (w : WoHdr) (a : MvArgs) (k : XferKind) (mx : Bool) : State :=
  match windowRef (getCtx s w.ctx) a.srcOff a.len true with
  | some b => if qpUp s b.qp then startRead s b k else moveFailed s w mx
  | none => moveFailed s w mx

/-- Start a movement that writes the window: an RDMA WRITE (R363). -/
def startMoveOut (s : State) (w : WoHdr) (off : Nat) (data : List Byte) (mx : Bool) : State :=
  match windowRef (getCtx s w.ctx) off data.length false with
  | some b => if qpUp s b.qp then startWrite s b data (.moveOut w) else moveFailed s w mx
  | none => moveFailed s w mx

/-- A window read completed: its bytes land, the work order reports (R266, R363). -/
def moveInDone (s : State) (w : WoHdr) (tid off : Nat) (data : List Byte) (ok : Bool) : State :=
  if ok then pushOuts (addDone (modCtx s w.ctx (fun c => moveIn c tid off data)) { w := w, kind := 3 }) w [tid]
  else moveFailed s w false

/-- A window read of MX data completed. -/
def mxInDone (s : State) (w : WoHdr) (a : MvArgs) (x : MxArgs) (data : List Byte) (ok : Bool) : State :=
  if ok then
    let r := mxInto (getCtx s w.ctx) w a x data
    addDone (putCtx s w.ctx r.1) r.2
  else moveFailed s w true

/-- A window write completed. -/
def moveOutDone (s : State) (w : WoHdr) (ok : Bool) : State :=
  let mx := match (getCtx s w.ctx).plan with
    | some p => bits (tByte (p.templates.getD w.template ⟨[]⟩) 19) 1 0 != 0
    | none => false
  if ok then addDone s { w := w, kind := 3, always := mx } else moveFailed s w mx

/-- Begin a movement: power, WAITPEG, queue. -/
def moveStart (w : WoHdr) (s : State) (go : State → WoHdr → State) : State :=
  if !mayWork s w then s
  else if !memberPowered s w then askPower s w
  else match startAgain s w 3 3 with
    | .stop s => s
    | .go s w => go s w

/-- MOVEMENT (R266, R363). -/
def execMovement (w : WoHdr) (a : MvArgs) (s : State) : Host.Outcome State Fault Refusal :=
  .next (moveStart w s (fun s w =>
    if a.src = noTid then startMoveIn s w a (.moveIn w a.dst a.dstOff) false
    else if a.dst = noTid then startMoveOut s w a.dstOff (tensorBytes ((getCtx s w.ctx).open_ a.src) a.srcOff a.len) false
    else pushOuts (addDone (modCtx s w.ctx (fun c => moveTensor c a)) { w := w, kind := 3 }) w [a.dst]))

/-- MX_IMPORT (R45, R46). -/
def execMxImport (w : WoHdr) (a : MvArgs) (x : MxArgs) (s : State) : Host.Outcome State Fault Refusal :=
  .next (moveStart w s (fun s w =>
    if mxStatus x ≠ 0 then addDone s { w := w, kind := 3, status := mxStatus x, always := true }
    else if a.src = noTid then startMoveIn s w a (.mxIn w a x) true
    else mxInDone s w a x (tensorBytes ((getCtx s w.ctx).open_ a.src) a.srcOff a.len) true))

/-- MX_EXPORT (R47): refused with MX_RANGE it writes no byte. -/
def execMxExport (w : WoHdr) (a : MvArgs) (x : MxArgs) (s : State) : Host.Outcome State Fault Refusal :=
  .next (moveStart w s (fun s w =>
    let r := mxStream ((getCtx s w.ctx).open_ a.src) a x
    if mxStatus x ≠ 0 then addDone s { w := w, kind := 3, status := mxStatus x, always := true }
    else if r.1 ≠ 0 then addDone s { w := w, kind := 3, status := r.1, always := true }
    else if a.dst = noTid then startMoveOut s w a.dstOff r.2 true
    else addDone (modCtx s w.ctx (fun c => moveIn c a.dst a.dstOff r.2)) { w := w, kind := 3, always := true }))

end Sys2Proof.Machine
end

