-- ==== Sys2Proof/Machine/Arrays.lean ====
section
/-! DEFINITION. The matrix tile on bays F, X and W and on the joiners at tread B2 (R51-R69, R109-R123), and the sampling of tiles
for duplicate execution (R296-R298). -/

namespace Sys2Proof.Machine

/-! Operands of a tile. -/

/-- A scale exponent, none where poisoned (R36, R38). -/
def arrayScale (t : Tensor) (r c : Nat) : Option Int := if t.poisonedAt r c then none else some (t.scaleAt r c)

/-- An operand whose reduction runs along a row. -/
def rowOpnd (t : Tensor) (r : Nat) : Opnd := { val := t.codeValAt r, scale := arrayScale t r }

/-- An operand whose reduction runs along a column, from row `o` on (R111, R112). -/
def colOpnd (t : Tensor) (o c : Nat) : Opnd := { val := fun r => t.codeValAt (o + r) c, scale := fun r => arrayScale t (o + r) c }

/-- The side row of a vector: outlier channels with their BF16 values, in list order (R53, R63). -/
def sideRow (t : Tensor) (outl : List Nat) (r : Nat) : List (Nat × Fp) :=
  (outl.zipIdx).map (fun o => (o.1, bf16V (leNat (t.side.readBytes (2 * (r * 64 + o.2)) 2))))

/-- The input of a forward tile at F3 or F4: rows [m0, m0 + m) and indices [k0, k0 + k) of the stored copy converted on the stage path
(R229) with what the conversion counts (R35, R40-R44, R101); already in the format, as it is. -/
def stageInput (epoch src fmt m0 m k0 k : Nat) (t : Tensor) : Landed × Nat :=
  let d := (Desc.ofByte fmt).getD ⟨.bf16, 3, false⟩
  if t.d.fmt = d.fmt then ({ t := t }, 0)
  else
    let blank : Tensor := { desc := fmt, rows := t.rows, rowLen := t.rowLen, side := t.side }
    let is := (List.range m).flatMap (fun i => (List.range k).map (fun j => (m0 + i) * t.rowLen + k0 + j))
    match d.fmt with
    | .g8 => (landPairs { capped := false, src := src } epoch [] blank (is.map (fun i => (i, t.at_ i))), is.length)
    | _ =>
      let ws := is.map (fun i => (i, widen .bf16 (t.at_ i)))
      let poison := (is.filter (fun i => t.poisonedAt (i / max t.rowLen 1) (i % max t.rowLen 1))).length
      ({ t := putPairs blank (ws.map (fun w => (w.1, w.2.code)))
         tally := { ovf := (ws.filter (·.2.ovf)).length, unf := (ws.filter (·.2.unf)).length, nan := poison } }, is.length)

/-- What a tile computes with: its operands by output column and by streaming vector, side rows, the whole reduction length, the
row length of the result, what reading and staging the operands counted and how many elements the landing unit converted for it,
whether the weight copy fell back to BF16, the copies it reads that landing units wrote for this tile, and the row at which the share's
reduction begins (R120, R170). -/
structure TileIn where
  wOf : Nat → Opnd
  aOf : Nat → Opnd
  outl : Nat → List (Nat × Fp)
  whole : Nat
  cols : Nat
  tally : Tally := {}
  elems : Nat := 0
  wide : Bool := false
  copies : List Tensor := []
  base : Nat := 0

/-- Tread B2 of backward work (R123). -/
def isB2 (w : WoHdr) : Bool := w.phase == 2 && w.tread == 2

/-- The tile is a layer's forward product, on bay F or, at F3 and F4, on bay X (R122). -/
def isForward (w : WoHdr) (a : MtArgs) : Bool := a.bay == 0 || (a.bay == 1 && w.phase != 2)

/-- The operands of a tile (R111). Forward: weight rows by output channel, input rows by token. Data gradient: the bay X copy of
the forward weights by input channel, gradient rows by token. Weight gradient: both read by columns over tokens. A copy that
WCOPY_BF16 or a tread above B0 makes BF16 is no fallback of R77 (log entry 145). -/
def tileIn (forceBf16 : Bool) (c : Ctx) (w : WoHdr) (a : MtArgs) : TileIn :=
  let outs := match c.plan with
    | some p => match p.layer w.layer with
      | some l => p.outliersOf l
      | none => []
    | none => []
  if isForward w a then
    let wt := { c.weightAt a.w w.tread with desc := a.wFmt }
    let at0 := c.open_ a.a
    let st := if a.bay = 1 then stageInput c.epoch (writerOf w) a.aFmt a.m0 a.m a.k0 a.k at0 else ({ t := { at0 with desc := a.aFmt } }, 0)
    let bad := ((List.range a.n).map (fun j => wt.badBytes (a.n0 + j) a.k0 a.k)).sum
    { wOf := rowOpnd wt, aOf := rowOpnd st.1.t, outl := sideRow at0 outs, whole := at0.rowLen, cols := max wt.rows 1,
      tally := st.1.tally.add { badcode := bad }, elems := st.2 }
  else if a.bay = 1 then
    let force := forceBf16 || w.tread != 0
    let wc := weightCopy force c.epoch (writerOf w) (c.open_ a.w)
    let dy := c.open_ a.a
    { wOf := rowOpnd wc.1, aOf := rowOpnd dy, outl := fun _ => [], whole := dy.rowLen, cols := max wc.1.rows 1,
      elems := a.n * a.k, wide := wc.2 && !force, copies := [wc.1] }
  else
    let dy := c.open_ a.w
    let xs := c.open_ a.a
    let o (tid : Nat) : Nat := match c.plan with
      | some p => if p.isToken tid then p.shareOffset w.pos else 0
      | none => 0
    let side (k : Nat) : Opnd :=
      { val := fun r => bf16V (leNat (xs.side.readBytes (2 * ((o a.a + r) * 64 + outs.idxOf k)) 2)), scale := fun _ => some 0 }
    { wOf := colOpnd dy (o a.w), aOf := fun k => if outs.contains k then side k else colOpnd xs (o a.a) k, outl := fun _ => [],
      whole := dy.rows, cols := max dy.rowLen 1, base := o a.w }

/-- The elements of rows [r0, r0 + nr) and columns [c0, c0 + nc) of a tensor. -/
def cellsOf (t : Tensor) (r0 nr c0 nc : Nat) : List Nat :=
  (List.range (min nr (t.rows - r0))).flatMap (fun i => (List.range (min nc (t.rowLen - c0))).map (fun j => (r0 + i) * t.rowLen + c0 + j))

/-- The blocks a tile reads under scales: the streaming and the stationary operand, a made copy or bay X weight copy among them
(R99, R111). -/
def tileReads (forceBf16 : Bool) (w : WoHdr) (a : MtArgs) (c : Ctx) : List ReadSet :=
  let at0 := c.open_ a.a
  if isForward w a then
    let wt := c.weightAt a.w w.tread
    [⟨a.a, at0, cellsOf at0 a.m0 a.m a.k0 a.k⟩, ⟨a.w, wt, cellsOf wt a.n0 a.n a.k0 a.k⟩]
  else if a.bay = 1 then
    ⟨a.a, at0, cellsOf at0 a.m0 a.m a.k0 a.k⟩ :: (tileIn forceBf16 c w a).copies.map (fun t => ⟨a.w, t, cellsOf t a.n0 a.n a.k0 a.k⟩)
  else
    let dy := c.open_ a.w
    [⟨a.w, dy, cellsOf dy a.k0 a.k a.n0 a.n⟩, ⟨a.a, at0, cellsOf at0 a.k0 a.k a.m0 a.m⟩]

/-! Results. -/

/-- How a tile's elements are formed. -/
inductive TileMode where
  | scaled (kind : RunKind) (L : Nat)
  | plumb
  | int
  | joiner
  deriving DecidableEq, Repr

/-- The mode of a tile: INT32 or INT8 sums, plumb where the work order, the layer or the array asks for it, the joiners at B2, integer or
float runs on bay F, B-array runs elsewhere (R55, R56, R62, R68, R113, R116, R123, R258). -/
def tileMode (plumbAll : Bool) (runlen : Nat) (w : WoHdr) (a : MtArgs) : TileMode :=
  let wd := (Desc.ofByte a.wFmt).getD ⟨.bf16, 3, false⟩
  let ad := (Desc.ofByte a.aFmt).getD ⟨.bf16, 3, false⟩
  if a.bay = 0 then
    if a.int32 then .int
    else if a.plumb || plumbAll then .plumb
    else .scaled (if wd.fmt == .f4 || ad.fmt == .af8 then .float else .int) (runLen a.run runlen)
  else if wd.fmt == .int8 && ad.fmt == .int8 then .int
  else if isB2 w then .joiner
  else .scaled .b 32

/-- An operand's element widened to FP32 (R44, R123). -/
def opndWide (o : Opnd) (i : Nat) : Widened :=
  match o.scale i with
  | none => ⟨FFmt.fp32.canonNan, false, false⟩
  | some s => widen .fp32 ((o.val i).scale s)

/-- The FP32 code of an operand's element. -/
def opndCode (o : Opnd) (i : Nat) : Nat := (opndWide o i).code

/-- What widening the operands of a B2 tile counts, each element once (R44): streaming vectors, then columns. -/
def joinerTally (x : TileIn) (a : MtArgs) : Tally :=
  let os := ((List.range a.m).map (fun i => x.aOf (a.m0 + i))) ++ ((List.range a.n).map (fun j => x.wOf (a.n0 + j)))
  let ws := os.flatMap (fun o => (List.range a.k).map (fun i => opndWide o (a.k0 - x.base + i)))
  { ovf := (ws.filter (·.ovf)).length, unf := (ws.filter (·.unf)).length }

/-- The segment results of one element, or its one result in the unsegmented modes. -/
def elemSegs (md : TileMode) (x : TileIn) (v n lo hi : Nat) : List Acc32 :=
  let w := x.wOf n
  let a := x.aOf v
  match md with
  | .scaled kind L => segResults kind L w a (x.outl v) lo hi
  | .plumb => [plumbElem w a (x.outl v) lo hi]
  | .int => [{ code := codeOf 32 (intElem w a lo hi) }]
  | .joiner => b2Segments (opndCode a) (opndCode w) lo hi

/-- The elements of a tile by streaming vector and then column, each with its segment results. -/
def tileElems (md : TileMode) (x : TileIn) (a : MtArgs) : List (Nat × Nat × List Acc32) :=
  (List.range a.m).flatMap (fun i => (List.range a.n).map (fun j =>
    (a.m0 + i, a.n0 + j, elemSegs md x (a.m0 + i) (a.n0 + j) (a.k0 - x.base) (a.k0 - x.base + a.k))))

/-- What the arrays counted: OVF, UNF, and NAN once for each element that became NaN (R59-R61). -/
def accTally (es : List (List Acc32)) : Tally :=
  { ovf := (es.map (fun l => (l.map (·.ovf)).sum)).sum, unf := (es.map (fun l => (l.map (·.unf)).sum)).sum,
    nan := (es.filter (fun l => l.any (·.nan))).length }

/-- What a tile counts: its arrays or joiners, and the reading and staging of its operands. -/
def tileTally (md : TileMode) (x : TileIn) (a : MtArgs) (es : List (List Acc32)) : Tally :=
  ((accTally es).add x.tally).add (if md = .joiner then joinerTally x a else {})

/-- The one value of an element: the tree over its segments (R65). -/
def elemValue (l : List Acc32) : Acc32 := treeOf treeAdd {} l

/-- The saturations of the tree alone. -/
def treeOvf (l : List Acc32) : Nat := (elemValue l).ovf - (l.map (·.ovf)).sum

/-- The CRC-64 of a tile: its results, then the eight counts (R298). -/
def tileDigest (codes : List Nat) (t : Tally) : Nat :=
  crc64 (codes.flatMap (fun q => natLe q 4) ++
    [t.ovf, t.unf, t.sat, t.vanish, t.nan, t.slip, t.badcode, t.breach].flatMap (fun q => natLe (sat32 q) 4))

/-- Keep the segments of a part of the reduction; the elements whose segments are all present, with their tree values (R66). -/
def gatherParts (m : SMap Nat) (segs k0 : Nat) (es : List (Nat × List Acc32)) : SMap Nat × List (Nat × Acc32) :=
  es.foldl (fun (b : SMap Nat × List (Nat × Acc32)) e =>
    let q := gatherSegs b.1 segs (k0 / 4096) e.1 (e.2.map (·.code))
    (q.1, b.2 ++ (q.2.toList).map (fun l => (e.1, elemValue (l.map (fun x => ({ code := x, nan := (fp32V x).isNan } : Acc32))))))) (m, [])

/-! Sampling (R296, R297). -/

/-- The selection hash of a tile (R296). -/
def sampleHash (num att ctx template inst unit : Nat) : Nat :=
  crc32c (natLe num 4 ++ natLe att 1 ++ natLe ctx 2 ++ natLe template 3 ++ natLe inst 3 ++ natLe (unit / 2 ^ 12) 3)

/-- The sampling shift in force: an attempt's own, else the register's; above 16 acts as 16 (R296). -/
def sampleShift (s : State) (c : Ctx) : Nat :=
  match c.attempt with
  | some a => a.shift
  | none => min 16 (fld s pgSilent Reg.SE_CTRL 4 0)

/-- The aisle number of a gallery key. -/
def aisleIdx (k : Nat) : Nat := k / 68

/-- The gallery on which a tile runs again: the next member of its frame in another aisle, else a spare of the nearest other aisle of
the hall (R297). -/
def dupGallery (s : State) (c : Ctx) (w : WoHdr) (avoid : List Nat) : Option Nat :=
  let ms := match c.plan with
    | some p => c.frames.get [] (tFrame (p.templates.getD w.template ⟨[]⟩))
    | none => []
  let me : Slot := ⟨w.hall, w.aisle, w.slot⟩
  let i := ms.idxOf me
  let order := ms.drop (i + 1) ++ ms.take i
  match order.find? (fun m => !avoid.contains (m.hall * 16 + m.aisle) && (galAt s m.hall m.aisle m.slot).isSome) with
  | some m => galAt s m.hall m.aisle m.slot
  | none =>
    let aisles := ((List.range 16).filter (fun b => !avoid.contains (w.hall * 16 + b))).mergeSort (fun x y =>
      let d (z : Nat) : Nat := if z ≤ w.aisle then w.aisle - z else z - w.aisle
      decide (d x < d y) || (d x == d y && decide (x ≤ y)))
    aisles.findSome? (fun b => (aisleGals w.hall b).find? (fun k =>
      let g := getGal s k
      (g.state == 1 || g.state == 2) && healthy g))

/-- A sampled tile waits for its duplicate (R296-R298). -/
def noteSample (s : State) (w : WoHdr) (bay digest : Nat) : State :=
  let c := getCtx s w.ctx
  let k := memberGal s w
  let sh := sampleShift s c
  let num := c.epoch
  let att := (c.attempt.map (·.number)).getD 0
  let h := sampleHash num att w.ctx w.template w.inst (bayUnit (keyHall k) (keyAisle k) (k % 68) bay)
  if sh = 0 ∨ h % 2 ^ sh ≠ 0 then s
  else match dupGallery s c w [aisleIdx k] with
    | some j => putCtx s w.ctx { c with dups := c.dups ++ [{ w := w, gals := [k, j], digests := [digest], training := c.attempt.isSome }] }
    | none => s

/-! The command. -/

/-- The page of a gallery's F-array. -/
def faPg (k : Nat) : Page := pgFArray (keyHall k) (keyAisle k) (k % 68)
/-- The page of a gallery's B-arrays. -/
def baPg (k : Nat) : Page := pgBArray (keyHall k) (keyAisle k) (k % 68)

/-- The error bit of a bay's page that a refusal sets: by the rule it was refused under. `pair`: the operand pair is the reason
(R51, R109), which a descriptor is too; else OPERAND_INVALID comes from R62. -/
def refuseBit (bay st : Nat) (pair : Bool) : Nat :=
  match bay with
  | 0 => if st = 0x04 then 1 else if pair then 0 else 2
  | 1 => if st = 0x05 then 1 else 0
  | _ => if st = 0x05 then 4 else 3

/-- A refused tile: its status and error bit (R51, R52, R62, R72, R109, R116, R127); the joiners of tread B2 have none. -/
def refuseTile (s : State) (w : WoHdr) (bay st : Nat) (pair b2 : Bool) : State :=
  let k := memberGal s w
  let p := if bay = 0 then faPg k else baPg k
  addDone (if b2 && bay != 0 then s else setErr s p (refuseBit bay st pair)) { w := w, kind := 0, status := st }

/-- Count tiles and MACs of a bay (R72, R127). -/
def countBay (s : State) (k bay tiles macs : Nat) : State :=
  match bay with
  | 0 => bump64 (bumpWrap s (faPg k) Reg.FA_TILES tiles) (faPg k) Reg.FA_MACS_LO macs
  | 1 => bump64 (bumpWrap s (baPg k) Reg.BX_TILES tiles) (baPg k) Reg.BX_MACS_LO macs
  | _ => bump64 (bumpWrap s (baPg k) Reg.BW_TILES tiles) (baPg k) Reg.BW_MACS_LO macs

/-- The outlier products of a forward tile on bay F, which bay X forms (R63). -/
def outlierMacs (c : Ctx) (w : WoHdr) (a : MtArgs) : Nat :=
  if a.bay ≠ 0 ∨ a.int32 then 0
  else match c.plan.bind (fun p => (p.layer w.layer).map p.outliersOf) with
    | some outs => a.m * a.n * (outs.filter (fun o => decide (a.k0 ≤ o ∧ o < a.k0 + a.k))).length
    | none => 0

/-- Count a completed tile: tiles and MACs of its bay, none for the joiners of tread B2; the outlier tile and its MACs on bay X
(R63, R72, R127). -/
def countTile (s : State) (w : WoHdr) (a : MtArgs) : State :=
  let k := memberGal s w
  let o := outlierMacs (getCtx s w.ctx) w a
  let s1 := if isB2 w ∧ a.bay ≠ 0 then s else countBay s k (min a.bay 2) 1 (a.m * a.n * a.k)
  if o = 0 then s1 else countBay s1 k 1 1 o

/-- Store results by how the tile writes them: INT32 or FP32 words unconverted, or converted under the gauge. -/
def storeTile (c : Ctx) (w : WoHdr) (a : MtArgs) (raw : Bool) (cells : List (Nat × Nat)) (d : WoDone) : Ctx × WoDone :=
  if raw then (c.putTensor a.y (putPairs { c.open_ a.y with desc := a.yFmt } cells), d)
  else storePairs c w a.y a.yFmt (cells.map (fun q => (q.1, fp32V q.2))) d

/-- A tile's work on its context: forward and data-gradient results land; a weight gradient keeps its segment results until its
slice is complete (R65, R66, R74, R120). A plumb product is never divided (R69): of a plumb tile over a part of K the exact sum of that
part is the result (log entry 146). -/
def tileWork (md : TileMode) (x : TileIn) (a : MtArgs) (c : Ctx) (w : WoHdr) : Ctx × WoDone :=
  let es := tileElems md x a
  let t := tileTally md x a (es.map (·.2.2))
  let raw := a.fp32Out || md == .int
  let idx (e : Nat × Nat × List Acc32) : Nat := e.1 * x.cols + e.2.1
  let d : WoDone := { w := w, kind := 0, tally := t, elems := x.elems }
  if a.bay = 2 ∧ md ≠ .int then
    match c.attempt, c.plan.bind (fun p => (p.layer w.layer).bind p.paramOf) with
    | some at_, some r =>
      let key := w.pos * 2 ^ 24 + r.tid
      let m := es.foldl (fun (m : SMap (List Nat)) e =>
        let i := e.2.1 * r.kdim + e.1
        (e.2.2.zipIdx).foldl (fun (m : SMap (List Nat)) q => m.insert (segKey i ((a.k0 - x.base) / 4096 + q.2)) [q.1.code]) m) (at_.segs.get [] key)
      ({ c with attempt := some { at_ with segs := at_.segs.put [] key m } }, d)
    | _, _ => (c, d)
  else
    let segmented := match md with
      | .scaled _ _ => true
      | .joiner => true
      | _ => false
    if segmented && decide (a.k < x.whole) then
      let key := partKey w a.y
      let g := gatherParts (c.parts.get [] key) ((x.whole + 4095) / 4096) a.k0 (es.map (fun e => (idx e, e.2.2)))
      let d1 := { d with tally := { t with nan := (g.2.filter (·.2.nan)).length, ovf := t.ovf + (g.2.map (·.2.ovf)).sum } }
      storeTile { c with parts := c.parts.put [] key g.1 } w a raw (g.2.map (fun q => (q.1, q.2.code))) d1
    else
      let vals := es.map (fun e => (idx e, (elemValue e.2.2).code))
      let d1 := { d with tally := { t with ovf := t.ovf + (es.map (fun e => treeOvf e.2.2)).sum } }
      storeTile c w a raw vals d1

/-- The digest of a tile's results as they stand before the landing unit: the tree's value where the tile spans the whole reduction,
else its segment results (R298). -/
def digestOf (md : TileMode) (x : TileIn) (a : MtArgs) : Nat :=
  let es := tileElems md x a
  let t := tileTally md x a (es.map (·.2.2))
  let codes := if a.bay = 2 || decide (a.k < x.whole) then es.flatMap (fun e => e.2.2.map (·.code)) else es.map (fun e => (elemValue e.2.2).code)
  tileDigest codes { t with ovf := t.ovf + (if a.bay = 2 then 0 else (es.map (fun e => treeOvf e.2.2)).sum) }

/-- The last bay X copy of a weight tensor fell back to BF16 or did not: WIDE of its gauge, and LD_ERR.WCOPY_WIDE (R77, R80). -/
def noteWide (s : State) (w : WoHdr) (a : MtArgs) (wide : Bool) : State :=
  let s1 := if wide then setErr s (landPg (memberGal s w)) 2 else s
  if a.bay ≠ 1 ∨ isForward w a then s1
  else modCtx s1 w.ctx (fun c => match c.plan.bind (fun p => p.gaugeOf 1 a.w) with
    | some g => { c with gauges := c.gauges.put {} g { c.gauges.get {} g with wide := wide } }
    | none => c)

/-- MATRIX_TILE: refused whole where R51, R52, R62, R109 or R116 says so, else computed, counted, sampled (R65, R115). -/
def execMatrixTile (w : WoHdr) (a : MtArgs) (s : State) : Host.Outcome State Fault Refusal :=
  let c := getCtx s w.ctx
  let l := c.plan.bind (fun p => p.layer w.layer)
  let rl := (l.map (·.runlen)).getD 0
  let b2 := isB2 w
  let status (int32 : Bool) (k : Nat) : Nat :=
    tileStatus a.bay b2 (Desc.ofByte a.wFmt) (Desc.ofByte a.aFmt) (Desc.ofByte a.yFmt) (runLen a.run rl) int32 k
  let st := status a.int32 a.k
  let unit := if b2 ∧ a.bay ≠ 0 then 3 else min a.bay 2
  if !mayWork s w then .next s
  else if st ≠ 0 then
    let q := takeQueued s w unit
    .next (refuseTile q.1 q.2 a.bay st (status false 0 == st) b2)
  else
    let k := memberGal s w
    let md := tileMode (fld s (faPg k) Reg.FA_CTRL 0 0 == 1 || (l.map (·.plumb)).getD false) rl w a
    let force := fld s (landPg k) Reg.LD_CTRL 1 1 == 1
    let x := tileIn force c w a
    let s1 := runWork unit 0 (tileReads force w a) [a.y] (tileWork md x a) w s
    if (getCtx s1 w.ctx).done.length ≤ c.done.length then .next s1
    else
      let s2 := noteWide (countTile s1 w a) w a x.wide
      .next (if b2 then s2 else noteSample s2 w (min a.bay 2) (digestOf md x a))

end Sys2Proof.Machine
end

