-- ==== Sys2Proof/Machine/Reroute.lean ====
section
/-! DEFINITION. A link that stops and where its flits go (R316, R320, R337, R351, R357). -/

namespace Sys2Proof.Machine

/-- Put a flit on a route: its link and virtual channel, or NO_ROUTE (R348, R351). -/
def routeFlit (s : State) (f : Flit) : State :=
  match routeOf s f.src f.dst f.tc with
  | some (n, d) => enqueueFlit s n { f with vc := if d then 1 else f.vc }
  | none => setErr s pgRouter 0

/-- A link begins to train (R357). -/
def trainLink (s : State) (link : Nat) : State := emit (modLink s link (fun l => { l with state := 1, cal := false })) (.training link)

/-- Where a flit goes whose link failed: to the twin or member by another bundle link or the fabric, to a neighbour by another link
of its own, else by route; control flits go nowhere (R329, R337, R351). -/
def rerouteFlit (s : State) (bundle : Bool) (f : Flit) : State :=
  if f.fkind = 3 ∨ f.fkind = 0 then s
  else if bundle then match linkTo s f.dst true with
    | some n => enqueueFlit s n f
    | none => routeFlit s f
  else routeFlit s f

/-- A link stops: FAILED or DOWN, its credit counters reinitialised; what its retry buffer and queue hold leaves over the new route, in
order (R320, R337). -/
def stopLink (s : State) (link st : Nat) : State :=
  let l := getLink s link
  let b := inBundle s link
  let s1 := putLink s link { l with state := st, cal := false, retry := [], queue := [], used := [], owed := [], discarding := false,
                                    replays := 0, turn := 0, share := 0 }
  (l.retry ++ l.queue).foldl (fun s f => rerouteFlit s b { f with seq := 0, ack := 0, credit := 0, ctc := 0 }) s1

/-- No bundle link of the twin runs. -/
def bundleDown (s : State) : Bool := s.twin.twin.isSome && !((List.range 48).any (fun n => inBundle s n && linkRuns s n))

/-- Every bundle link is gone: heartbeats take the fallback route (R329). -/
def noteBundle (s : State) : State :=
  if bundleDown s && fld s pgTwin Reg.TW_CTRL 0 0 == 1 then setErr s pgTwin 2 else s

/-- A whole-link fault, class 2 (R316, R337). -/
def failLink (s : State) (link ns : Nat) : State :=
  let s1 := beginRecovery s 2 link (deviceId s) 0x12 false
  settleRecovery (recoveryWaits (noteBundle (stopLink s1 link 4)) [] ns)

end Sys2Proof.Machine
end

