-- ==== Sys2Proof/Machine/Update.lean ====
section
/-! DEFINITION. The update engines (R120, R145-R165): slices, gradient preparation, optimizers and micro-sequences, rounding back
to BF16, journal, mirror records, rollback (R211-R213). -/

namespace Sys2Proof.Machine

/-! Lanes (R149-R154). -/

/-- A lane's value with the overflows and the NaN or infinite results so far. -/
structure Lane where
  code : Nat
  ovf : Nat := 0
  bad : Bool := false
  deriving DecidableEq, Repr

/-- The sign of an FP32 code. -/
def neg32 (q : Nat) : Bool := q / 2 ^ 31 % 2 == 1

/-- A result of the engine's arithmetic: an overflow or a division of a non-zero value by zero becomes the largest finite value of
its sign and counts OVF (R149, R154). -/
def laneOf (r : Res) : Lane :=
  if r.2.of || r.2.dz then { code := maxFinCode .fp32 (neg32 r.1), ovf := 1 }
  else { code := r.1, bad := (fp32V r.1).nonFinite }

/-- Two lanes through an operation. -/
def lane2 (f : Nat → Nat → Res) (a b : Lane) : Lane :=
  let x := laneOf (f a.code b.code)
  { x with ovf := a.ovf + b.ovf + x.ovf, bad := a.bad || b.bad || x.bad }

def laneMul (a b : Lane) : Lane := lane2 (ieeeMul .fp32 .rne) a b
def laneDiv (a b : Lane) : Lane := lane2 (ieeeDiv .fp32 .rne) a b
def laneAdd (a b : Lane) : Lane := lane2 (ieeeAdd .fp32 .rne) a b
def laneSub (a b : Lane) : Lane := lane2 (ieeeSub .fp32 .rne) a b
def laneMin (a b : Lane) : Lane := lane2 (ieeeMin .fp32) a b
def laneMax (a b : Lane) : Lane := lane2 (ieeeMax .fp32) a b

/-- Fused multiply-add of lanes. -/
def laneFma (a b c : Lane) : Lane :=
  let x := laneOf (ieeeFma .fp32 .rne a.code b.code c.code)
  { x with ovf := a.ovf + b.ovf + c.ovf + x.ovf, bad := a.bad || b.bad || c.bad || x.bad }

/-- Square root of a lane. -/
def laneSqrt (a : Lane) : Lane :=
  let x := laneOf (ieeeSqrt .fp32 .rne a.code)
  { x with ovf := a.ovf, bad := a.bad || x.bad }

/-- A constant in a lane. -/
def laneC (q : Nat) : Lane := { code := q }

/-- A lane's value alone, its events counted elsewhere. -/
def Lane.val (a : Lane) : Lane := { code := a.code }

/-- The other sign. -/
def laneNeg (a : Lane) : Lane := { a with code := a.code ^^^ 2 ^ 31 }

/-- What an element's update gives: new parameter and moments as FP32, the overflows, whether some result was NaN or infinite. -/
structure LaneOut where
  news : List Nat
  ovf : Nat
  bad : Bool

/-- Gather results; `steps` are all operations, each with the events of its own. -/
def laneOut (news : List Lane) (steps : List Lane) : LaneOut :=
  { news := news.map (·.code), ovf := (steps.map (·.ovf)).sum, bad := steps.any (·.bad) || news.any (fun x => (fp32V x.code).nonFinite) }

/-- The scalars of an optimizer step (R150). -/
structure Scalars where
  s : List Nat

/-- Scalar slot i. -/
def Scalars.get (x : Scalars) (i : Nat) : Nat := x.s.getD i 0

/-- SGD with momentum, plain or Nesterov (R153). -/
def sgdStep (x : Scalars) (nesterov : Bool) (w m1 g : Nat) : LaneOut :=
  let wd := laneC (x.get 6)
  let mu := laneC (x.get 10)
  let g1 := if (fp32V (x.get 6)).isZero then laneC g else laneFma wd (laneC w) (laneC g)
  let b := laneFma mu (laneC m1) g1.val
  let u := if nesterov then laneFma mu b.val g1.val else b.val
  let r := laneFma (laneNeg (laneC (x.get 0))) u.val (laneC w)
  laneOut [r, b] [g1, b, u, r]

/-- Adam and, decoupled, AdamW (R153). -/
def adamStep (x : Scalars) (decoupled : Bool) (w m1 m2 g : Nat) : LaneOut :=
  let wd0 := (fp32V (x.get 6)).isZero
  let wd := laneC (x.get 6)
  let g1 := if wd0 || decoupled then laneC g else laneFma wd (laneC w) (laneC g)
  let og := laneMul (laneC (x.get 2)) g1.val
  let m1n := laneFma (laneC (x.get 1)) (laneC m1) og.val
  let o2 := laneMul (laneC (x.get 4)) g1.val
  let o3 := laneMul o2.val g1.val
  let m2n := laneFma (laneC (x.get 3)) (laneC m2) o3.val
  let n := laneMul m1n.val (laneC (x.get 7))
  let v := laneMul m2n.val (laneC (x.get 8))
  let q := laneSqrt v.val
  let e := laneAdd q.val (laneC (x.get 5))
  let d := laneDiv n.val e.val
  let d1 := if decoupled && !wd0 then laneFma wd (laneC w) d.val else d.val
  let r := laneFma (laneNeg (laneC (x.get 0))) d1.val (laneC w)
  laneOut [r, m1n, m2n] [g1, og, m1n, o2, o3, m2n, n, v, q, e, d, d1, r]

/-- One word of a micro-sequence on the sixteen registers (R154). -/
def mseqStep (x : Scalars) (v : List Nat × Nat × Bool) (word : Nat) : List Nat × Nat × Bool :=
  let reg (i : Nat) : Lane := laneC (v.1.getD i 0)
  let a := reg (bits word 22 19)
  let b := if bit word 10 then laneC (x.get (bits word 18 15)) else reg (bits word 18 15)
  let c := if bit word 9 then laneC (x.get (bits word 14 11)) else reg (bits word 14 11)
  let av := fp32V a.code
  let pos := !av.isNan && !av.isZero && !av.sign
  let r : Lane := match bits word 31 27 with
    | 0x01 => laneAdd a b
    | 0x02 => laneSub a b
    | 0x03 => laneMul a b
    | 0x04 => laneFma a b c
    | 0x05 => laneDiv a b
    | 0x06 => laneSqrt a
    | 0x07 => laneMin a b
    | 0x08 => laneMax a b
    | 0x09 => { a with code := a.code % 2 ^ 31 }
    | 0x0A => laneNeg a
    | 0x0B => if av.isZero || av.isNan then a else laneC (if av.sign then 0xBF800000 else 0x3F800000)
    | 0x0C => b
    | _ => if pos then b else c
  (v.1.set (bits word 26 23) r.code, v.2.1 + r.ovf, v.2.2 || r.bad)

/-- A micro-sequence on an element (R154). -/
def mseqRun (x : Scalars) (seq : List Nat) (nmom w m1 m2 g : Nat) : LaneOut :=
  let v0 := [g, w, m1, m2] ++ List.replicate 12 0
  let r := (mseqWords seq).foldl (mseqStep x) (v0, 0, false)
  let news := (r.1.drop 1).take (1 + nmom)
  { news := news, ovf := r.2.1, bad := r.2.2 || news.any (fun q => (fp32V q).nonFinite) }

/-- A gradient element prepared (R151): the value, whether a non-zero gradient became zero, overflows. -/
def prepare (x : Scalars) (lossExp : Int) (gin : Nat) : Lane × Bool :=
  let v := fp32V gin
  let r := ieeeOfInt .fp32 .rne v.sign (v.scale (-lossExp)).toInt
  let g0 := if v.nonFinite then { code := gin, bad := true : Lane } else laneOf r
  let unf := !v.nonFinite && !v.isZero && (fp32V g0.code).isZero
  let gf := x.get 11
  let g1 := if gf = 0x3F800000 then g0 else laneMul g0 (laneC gf)
  let clip := x.get 9
  let g2 := if (fp32V clip).isZero then g1 else laneMin (laneMax g1 (laneNeg (laneC clip))) (laneC clip)
  (g2, unf)

/-- One element's update by the kind of its optimizer record (R151-R154). -/
def elementStep (o : OptRec) (x : Scalars) (w m1 m2 g : Nat) : LaneOut :=
  match o.kind with
  | 0 => sgdStep x false w m1 g
  | 1 => sgdStep x true w m1 g
  | 2 => adamStep x false w m1 m2 g
  | 3 => adamStep x true w m1 m2 g
  | _ => mseqRun x o.seq o.nmom w m1 m2 g

/-! Rounding back (R156, R157). -/

/-- Stochastic rounding of a finite FP32 code to BF16 with a drawn word: the code, whether a draw was needed, whether it
saturated. -/
def stochastic (f r : Nat) : Nat × Bool × Bool :=
  let lo := f % 2 ^ 16
  let hi := f / 2 ^ 16 % 2 ^ 16
  if lo = 0 then (hi, false, false)
  else if lo + r < 2 ^ 16 then (hi, true, false)
  else
    let m := hi % 2 ^ 15 + 1
    if m = 0x7F80 then (hi / 2 ^ 15 * 2 ^ 15 + 0x7F7F, true, true) else (hi / 2 ^ 15 * 2 ^ 15 + m, true, false)

/-! Slices (R120, R197). -/

/-- The key of a position's complete slice. -/
def ownKey (pos tid ord : Nat) : Nat := (pos * 2 ^ 24 + tid) * 2 ^ 24 + ord

/-- The key of a pass in the attempt's tallies. -/
def btallyKey (layer pos : Nat) : Nat := layerKey layer 0 pos

/-- Add to a layer's backward tally. -/
def addBack (s : State) (n layer pos : Nat) (t : Tally) : State :=
  modAttempt s n (fun a => { a with btally := a.btally.put .zero (btallyKey layer pos) ((a.btally.get .zero (btallyKey layer pos)).add t) })

/-- Count SAT or OVF of the exchange and the update engine apart (R96). -/
def addApart (s : State) (n layer sat ovf : Nat) : State :=
  modAttempt s n (fun a => { a with xsat := a.xsat.put 0 layer (sat32 (a.xsat.get 0 layer + sat)), xovf := a.xovf.put 0 layer (sat32 (a.xovf.get 0 layer + ovf)) })

/-- The key of one element's segment, as the arrays keep it. -/
def sliceSeg (i g : Nat) : Nat := i * 2 ^ 20 + g

/-- The values of a slice: the tree over the segments of each element, where every segment is there (R65, R120). -/
def sliceValues (a : Attempt) (t : TensorRec) (pos ord segs : Nat) : Option (List Acc32) :=
  let m : SMap (List Nat) := a.segs.get [] (pos * 2 ^ 24 + t.tid)
  let vs := (sliceIdx t ord).map (fun i =>
    let l := (List.range segs).map (fun g => m.find (sliceSeg i g))
    if l.all Option.isSome then
      some (treeOf treeAdd {} (l.map (fun q => ({ code := (q.getD []).headD 0, nan := (fp32V ((q.getD []).headD 0)).isNan } : Acc32))))
    else none)
  if segs ≠ 0 ∧ vs.all Option.isSome = true then some (vs.map (fun v => v.getD {})) else none

/-- SLICE_COMPLETE: the tree additions of a slice are done; an exchanged layer's slice waits for its bucket, any other is final and
goes to its update engine (R120, R197). -/
def execSliceComplete (ctx layer ord pos : Nat) (s : State) : Host.Outcome State Fault Refusal :=
  let c := getCtx s ctx
  match c.attempt, c.plan.bind (fun p => (p.layer layer).bind (fun l => (p.paramOf l).map (fun t => (p, l, t)))) with
  | some a, some (p, l, t) =>
    if a.outcome.isSome || decide (sliceCountOf t ≤ ord) then .next s
    else match sliceValues a t pos ord (segmentsOf (shareTokens s c p pos)) with
      | none => .next s
      | some vs =>
        let vals := vs.map (·.code)
        let s1 := addBack s ctx layer pos { ovf := (vs.map (·.ovf)).sum }
        if l.exch && !p.groups.isEmpty then
          (if (a.own.find (ownKey pos t.tid ord)).isSome then .next s
           else .next (modAttempt s1 ctx (fun a => { a with own := a.own.insert (ownKey pos t.tid ord) vals })))
        else if (a.slices.find (sliceKey t.tid ord)).isSome then .next s
        else .next (modAttempt s1 ctx (fun a => { a with slices := a.slices.insert (sliceKey t.tid ord) { layer := layer, stage := 1, vals := vals } }))
  | _, _ => .next s

/-! Accepting a slice (R145-R149). -/

/-- The hall whose update engine serves a slice. -/
def sliceHall (c : Ctx) (t : TensorRec) (ord : Nat) : Nat := homeOf c t.tid (sliceCountOf t) ord

/-- The old state of a slice: parameters, then each moment, as BF16 codes (R160). -/
def oldState (c : Ctx) (p : Plan) (t : TensorRec) (ord : Nat) : List (List Nat) :=
  (t :: momentsOf p t.tid).map (fun r => codesAt (c.open_ r.tid) (sliceIdx t ord))

/-- What the engine computed for a slice. -/
structure SliceCalc where
  grad : List Nat
  news : List (List Nat)
  ovf : Nat
  unf : Nat
  bad : Bool

/-- The update of every element of a slice (R148-R154). -/
def sliceCalc (o : OptRec) (x : Scalars) (lossExp : Int) (old : List (List Nat)) (vals : List Nat) : SliceCalc :=
  let w := old.headD []
  let m (k i : Nat) : Nat := ((old.getD k []).getD i 0) * 2 ^ 16
  let es := (vals.zipIdx).map (fun v =>
    let g := prepare x lossExp v.1
    let oldBad := (fp32V v.1).nonFinite || old.any (fun l => (bf16V (l.getD v.2 0)).nonFinite)
    let r := elementStep o x (w.getD v.2 0 * 2 ^ 16) (m 1 v.2) (m 2 v.2) g.1.code
    (g, r, oldBad || g.1.bad || r.bad))
  let k := old.length
  { grad := es.map (fun e => e.1.1.code), news := (List.range k).map (fun j => es.map (fun e => e.2.1.news.getD j 0))
    ovf := (es.map (fun e => e.1.1.ovf + e.2.1.ovf)).sum, unf := (es.filter (fun e => e.1.2)).length, bad := es.any (·.2.2) }

/-- Change a slice of the attempt. -/
def modSlice (s : State) (n key : Nat) (f : Slice → Slice) : State :=
  modAttempt s n (fun a => match a.slices.find key with
    | some x => { a with slices := a.slices.insert key (f x) }
    | none => a)

/-- Discard every further slice of the context in this attempt (R148, R161). -/
def discardRest (s : State) (n : Nat) : State := modAttempt s n (fun a => { a with discard := true })

/-- New values written: stochastic rounding, moments, the inactive forward copy, channel maxima, PEND, counters (R156-R159). -/
structure Written where
  ctx : Ctx
  codes : List (List Nat)
  draws : Nat := 0
  sat : Nat := 0
  trip : Bool := false
  tally : Tally := {}
  largest : Nat := 0

/-- Write a slice's BF16 codes: parameters and moments, the new channel maxima, the inactive forward copy (R156, R158, R159). -/
def putSlice (c : Ctx) (p : Plan) (t : TensorRec) (ord : Nat) (codes : List (List Nat)) : Written :=
  let is := sliceIdx t ord
  let c1 := ((t :: momentsOf p t.tid).zip codes).foldl (fun (c : Ctx) r =>
    c.putTensor r.1.tid (putCodesAt (c.open_ r.1.tid) is r.2)) c
  let ws := codes.headD []
  let K := t.kdim
  let maxTab := (is.zip ws).foldl (fun m q => mergeMax m (q.1 / K) q.2) (c1.chanNew.get [] t.tid)
  let c2 := { c1 with chanNew := c1.chanNew.put [] t.tid maxTab }
  let base : Written := { ctx := c2, codes := codes, largest := (ws.map magCode).foldl max 0 }
  match p.copyOf t.tid with
  | none => base
  | some r =>
    let margin : Int := match p.gaugeOf 1 r.tid with
      | some g => ((c.gauges.get {} g).margin : Int) - 2
      | none => 0
    let blank := match c2.inactive.find r.tid with
      | some x => x
      | none => { r.blank with et := 0x7F }
    let l := copyInto (c2.chanMax.get [] t.tid) margin blank is (ws.map bf16V)
    { base with ctx := { c2 with inactive := c2.inactive.insert r.tid l.t }, trip := l.trip, tally := l.tally }

/-- Write a slice into the context. -/
def writeSlice (c : Ctx) (p : Plan) (t : TensorRec) (ord step : Nat) (news : List (List Nat)) : Written :=
  let is := sliceIdx t ord
  let recs := t :: momentsOf p t.tid
  let rounded := (recs.zip news).map (fun r => (is.zip r.2).map (fun q => stochastic q.2 (draw16 ⟨c.seed.getD 0, 1, r.1.tid, step⟩ q.1)))
  { putSlice c p t ord (rounded.map (fun l => l.map (·.1))) with
    draws := (rounded.map (fun l => (l.filter (·.2.1)).length)).sum, sat := (rounded.map (fun l => (l.filter (·.2.2)).length)).sum }

/-- The device mirrors its contexts to a twin now (R162, R327, R331). -/
def mirrors (s : State) (c : Ctx) : Bool := s.twin.twin.isSome && decide (1 ≤ s.twin.state ∧ s.twin.state ≤ 3) && !c.unpairing

/-- The payload of a mirror record: gradient in FP32, new parameters, new moments (R162). -/
def mirrorPayload (m : MirrorRec) : List Byte := m.grad.flatMap (fun q => natLe q 4) ++ codeBytes (m.params :: m.moments)

/-- The header of a mirror record, laid out as a journal entry's (R162). -/
def mirrorHeader (m : MirrorRec) : List Byte :=
  entryHeader m.ctx m.step (sliceKey m.tid m.slice) m.moments.length (crc32c (mirrorPayload m)) true

/-- Bytes of a mirror record (R162). -/
def mirrorBytes (m : MirrorRec) : Nat := 32 + 4 * m.grad.length + 2 * m.params.length + 2 * (m.moments.map List.length).sum

/-- Hub B takes a mirror record and sends it on the twin bundle; whether its queue is full now is a free value (R162; log entry 159). -/
def sendMirror (s : State) (m : MirrorRec) : State :=
  match s.twin.twin with
  | none => s
  | some d =>
    let k := mirrorBytes m
    let s1 := bump64 (sendBundle s d 2 2 k (.mirror (mirrorHeader m) m)) pgTwin Reg.TW_MIRROR_LO k
    { s1 with update := { s1.update with full := Config.mirrorFull s1.freeCtr }, freeCtr := s1.freeCtr + 1 }

/-- An engine has a record to send: hub B takes it, or it waits while the queue is full (R162). -/
def queueMirror (s : State) (h : Nat) (m : MirrorRec) : State :=
  let s1 := modAttempt s m.ctx (fun a => if a.twinParty then { a with mirrorLeft := a.mirrorLeft + 1 } else a)
  if s.update.full then { s1 with update := { s1.update with waiting := s1.update.waiting ++ [(h, m)] } } else sendMirror s1 m

/-- A hall's engine is stalled on the mirror queue (R162, R165). -/
def mirrorStall (s : State) (h : Nat) : Bool := s.update.full && s.update.waiting.any (fun e => e.1 == h)

/-- The records that waited are sent in order until the queue is full again (R162). -/
def drainMirror : Nat → State → State
  | 0, s => s
  | k + 1, s => match s.update.waiting with
    | e :: rest =>
      if s.update.full then s else drainMirror k (sendMirror { s with update := { s.update with waiting := rest } } e.2)
    | [] => s

/-- The writes of a computed slice, its mirror record and digest leaf (R147, R156-R163). -/
def finishSlice (s : State) (n : Nat) (t : TensorRec) (ord : Nat) : State :=
  let c := getCtx s n
  let key := sliceKey t.tid ord
  match c.plan, c.attempt, c.attempt.bind (fun a => a.slices.find key) with
  | some p, some a, some x =>
    let h := sliceHall c t ord
    let wr := writeSlice c p t ord a.step x.news
    let copyGauge := (p.copyOf t.tid).bind (fun r => p.gaugeOf 1 r.tid)
    let c1 := match copyGauge with
      | some g => let d := reportMax wr.ctx (g, wr.largest)
                  if wr.trip then reportTrip d g else d
      | none => wr.ctx
    let s1 := modSlice (putCtx s n c1) n key (fun y => { y with stage := 3 })
    let s2 := addBack (addApart s1 n x.layer (wr.sat + wr.tally.sat) wr.tally.ovf) n x.layer 0 { vanish := wr.tally.vanish, unf := wr.tally.unf }
    let cnt := (sliceIdx t ord).length
    let s3 := bump64 (bump64 (bumpWrap s2 (pgUpdate h) Reg.UE_SLICES 1) (pgUpdate h) Reg.UE_PARAMS_LO cnt) (pgUpdate h) Reg.UE_DRAWS_LO wr.draws
    let exch := (p.layer x.layer).map (·.exch) |>.getD false
    let s4 := modAttempt s3 n (fun a => { a with
      journalled := if c.journal then a.journalled ++ [key] else a.journalled,
      leaves := if exch ∧ a.step % digestD s = 0 then a.leaves.insert key (sha256 ((wr.codes.headD []).flatMap (fun q => natLe q 2))) else a.leaves })
    if mirrors s c then
      queueMirror s4 h { ctx := n, step := a.step, tid := t.tid, slice := ord, grad := x.grad, params := wr.codes.headD [], moments := wr.codes.drop 1 }
    else s4
  | _, _, _ => s

/-- The optimizer record of a layer, with its scalars (R150, R258). -/
def optOfLayer (c : Ctx) (p : Plan) (l : LayerRec) : Option (OptRec × Scalars) :=
  if l.opt = 0xFFF then none else (p.opts[l.opt]?).map (fun o => (o, ⟨c.scalars.get [] l.opt⟩))

/-- The contexts whose slices occupy buffers of a hall's engine, one entry a slice (R145). -/
def heldSlices (s : State) (h : Nat) : List Nat :=
  s.ctxs.flatMap (fun e => match e.2.attempt, e.2.plan with
    | some a, some p => a.slices.filterMap (fun x => match p.record (x.1 / 2 ^ 24) with
        | some t => if x.2.stage = 2 ∧ sliceHall e.2 t (x.1 % 2 ^ 24) = h then some e.1 else none
        | none => none)
    | _, _ => [])

/-- The engine takes a final slice: a frozen layer's slice, or one after a refusal, is consumed and discarded; a NaN refuses it, and
none of its other events are counted (log entry 161); else the journal entry is written, or, without a journal, the slice (R121,
R146-R149, R160). -/
def takeSlice (s : State) (ctx key : Nat) : State :=
  let c := getCtx s ctx
  match c.plan, c.attempt, c.attempt.bind (fun a => a.slices.find key) with
  | some p, some a, some x =>
    match p.record (key / 2 ^ 24), p.layer x.layer with
    | some t, some l =>
      let ord := key % 2 ^ 24
      if x.stage ≠ 1 || a.outcome == some 0 then s
      else if l.frozen || a.discard || a.outcome.isSome || (optOfLayer c p l).isNone then modSlice s ctx key (fun y => { y with stage := 4 })
      else
        let o := (optOfLayer c p l).getD (⟨0, 0, 0, [], 0, 0, 0, 0, []⟩, ⟨[]⟩)
        let gi := (p.copyOf t.tid).bind (fun r => p.gaugeOf 1 r.tid)
        let s0 := (gi.toList ++ p.lossGauge.toList).foldl (fun s g => awaitGauge s ctx g) s
        let old := oldState c p t ord
        let k := sliceCalc o.1 o.2 (getCtx s0 ctx).lossExp old x.vals
        let h := sliceHall c t ord
        if k.bad then
          let s1 := setErr (addBack (modSlice s0 ctx key (fun y => { y with stage := 4 })) ctx x.layer 0 { nan := 1 }) (pgUpdate h) 0
          endAttempt (modAttempt (discardRest s1 ctx) ctx (fun a => { a with lower := a.lower.or (some 2) })) ctx cNanGrad
        else
          let s1 := modSlice s0 ctx key (fun y => { y with stage := 2, grad := k.grad, news := k.news })
          let s2 := addBack (addApart s1 ctx x.layer 0 k.ovf) ctx x.layer 0 { unf := k.unf }
          let s3 := if k.ovf = 0 then s2 else setErr s2 (pgUpdate h) 2
          if c.journal then modCtx s3 ctx (fun c => { c with jslots := c.jslots.insert key (newSlot a.step old) })
          else finishSlice s3 ctx t ord
    | _, _ => s
  | _, _, _ => s

/-- A hall's engine can take the slice at the head of its port: a buffer is free, no mirror record stalls it, and the slice's own journal
slot has been restored (R145, R162, R212). -/
def engineReady (s : State) (h : Nat) (e : Nat × Nat) : Bool :=
  decide ((heldSlices s h).length < 4) && !mirrorStall s h && !(getCtx s e.1).rollback.contains e.2

/-- A hall's engine takes the slices of its port in their order of arrival while it can (R145). -/
def drainPort : Nat → State → Nat → State
  | 0, s, _ => s
  | k + 1, s, h => match s.update.ports.get [] h with
    | e :: rest =>
      if engineReady s h e then
        drainPort k (takeSlice { s with update := { s.update with ports := s.update.ports.put [] h rest } } e.1 e.2) h
      else s
    | [] => s

/-- A buffer, a slot or the mirror queue came free: a hall's port moves on. -/
def drainHall (s : State) (h : Nat) : State := drainPort (s.update.ports.get [] h).length s h

/-- Every hall's port moves on. -/
def drainHalls (s : State) : State := (List.range 8).foldl drainHall s

/-- SLICE_ACCEPT: a final slice arrives at its hall's hub port behind those that wait there (R145). -/
def execSliceAccept (ctx tid ord : Nat) (s : State) : Host.Outcome State Fault Refusal :=
  let c := getCtx s ctx
  let key := sliceKey tid ord
  match c.plan.bind (fun p => p.record tid), c.attempt.bind (fun a => a.slices.find key) with
  | some t, some x =>
    let h := sliceHall c t ord
    let q := s.update.ports.get [] h
    if x.stage ≠ 1 || q.contains (ctx, key) then .next s
    else .next (drainHall { s with update := { s.update with ports := s.update.ports.put [] h (q ++ [(ctx, key)]) } } h)
  | _, _ => .next s

/-- A slice that waits for its journal entry. -/
def awaitsJournal (c : Ctx) (key : Nat) : Bool :=
  match c.attempt.bind (fun a => a.slices.find key), c.jslots.find key with
  | some x, some j => x.stage == 2 && !j.valid
  | _, _ => false

/-- JOURNAL_ACK: the whole entry stands in HBM, its header valid; the engine writes the slice, unless the attempt has come to its
end (R147, R160). -/
def execJournalAck (ctx tid ord : Nat) (s : State) : Host.Outcome State Fault Refusal :=
  let c := getCtx s ctx
  let key := sliceKey tid ord
  match c.plan.bind (fun p => p.record tid) with
  | some t =>
    if !awaitsJournal c key then .next (drainHall s (sliceHall c t ord))
    else
      let stopped := match c.attempt with
        | some a => a.discard || a.outcome.isSome
        | none => true
      let s1 := if stopped then modCtx (modSlice s ctx key (fun y => { y with stage := 4 })) ctx (fun c => { c with jslots := c.jslots.erase key })
        else finishSlice (modCtx s ctx (fun c => { c with jslots := match c.jslots.find key with
          | some j => c.jslots.insert key { j with valid := true }
          | none => c.jslots })) ctx t ord
      .next (drainHall s1 (sliceHall c t ord))
  | none => .next s

/-- The memory controller handles the location of a failed journal write as an uncorrectable line: counted and named, its row retired
(R161, R335, R336, R340). The slot holds nothing that a restore needs. -/
def journalLineLost (s : State) (h ctx key : Nat) : State :=
  let p := pgMemory h
  let addr := Config.journalAddr ctx key
  let s1 := regSet (regSet (bumpSat (setErr s p 0) p Reg.MC_UE 31 0 1) p Reg.MC_UEADDR_LO addr) p Reg.MC_UEADDR_HI (addr / 2 ^ 32)
  retireRow s1 h (Config.rowOf addr)

/-- JWRITE: the memory controller reports the journal write as failed (R161). -/
def execJwrite (ctx tid ord : Nat) (s : State) : Host.Outcome State Fault Refusal :=
  let c := getCtx s ctx
  let key := sliceKey tid ord
  match c.plan.bind (fun p => p.record tid) with
  | some t =>
    if !awaitsJournal c key then .next s
    else
      let h := sliceHall c t ord
      let s1 := setErr (modSlice s ctx key (fun y => { y with stage := 4 })) (pgUpdate h) 1
      let s2 := modCtx (discardRest s1 ctx) ctx (fun c => { c with jslots := c.jslots.erase key })
      .next (drainHall (endAttempt (journalLineLost s2 h ctx key) ctx cJwrite) h)
  | none => .next s

/-- MIRROR_QUEUE_READY: hub B's full mirror queue gains room: the stalled engines count the cycles, their records are sent, their ports
move on (R162). -/
def execMirrorQueueReady (cycles : Nat) (s : State) : Host.Outcome State Fault Refusal :=
  if !s.update.full then .next s
  else
    let halls := (s.update.waiting.map (·.1)).eraseDups
    let s1 := halls.foldl (fun s h => bumpSat s (pgUpdate h) Reg.UE_MSTALL 31 0 cycles) s
    .next (drainHalls (drainMirror s.update.waiting.length { s1 with update := { s1.update with full := false } }))

/-! Rollback (R211-R213). -/

/-- The twin's protection of a context's slices is active (R213). -/
def twinActive (s : State) : Bool := s.twin.state == 3

/-- A slice cannot be restored: ABANDONED with cause JRESTORE for the attempt that failed to commit, or for the repeat that already
runs; the slice is named in the fault log (R213). -/
def notRestored (s : State) (n tid ord : Nat) : State :=
  let s1 := logFault (setErr s pgStep 2) { kind := 11, device := deviceId s, unit := tid, addr := ord }
  let c := getCtx s1 n
  match c.attempt with
  | some a =>
    if a.outcome.isSome then
      putCtx s1 n { c with lastCause := cJrestore, lastDevice := deviceId s, attempt := some { a with outcome := some 3 } }
    else endAttempt s1 n cJrestore
  | none => putCtx s1 n { c with
      lastOutcome := 3, lastCause := cJrestore, lastDevice := deviceId s, suspended := true, repeatPending := false, batch := none }

/-- JOURNAL_ROLLBACK: one slot is restored over its slice and its VALID bit cleared; a slot that fails its CRC or meets an
uncorrectable line is restored from the twin's shadow, or not at all (R211-R213). Commands that waited for the rollback run. -/
def execJournalRollback (ctx tid ord : Nat) (lineOk : Bool) (s : State) : Host.Outcome State Fault Refusal :=
  let c := getCtx s ctx
  let key := sliceKey tid ord
  match c.plan, c.plan.bind (fun p => p.record tid), c.jslots.find key with
  | some p, some t, some j =>
    if !c.rollback.contains key then .next s
    else
      let good := lineOk && j.good
      let c1 := { c with rollback := c.rollback.erase key, jslots := c.jslots.erase key }
      let s1 := if good || twinActive s then putCtx s ctx (restoreSlice c1 p t ord j.data) else notRestored (putCtx s ctx c1) ctx tid ord
      .next (drainHalls (runQueues s1 ctx))
  | _, _, _ => .next s

end Sys2Proof.Machine
end

