-- ==== Sys2Proof/Machine/Exchange.lean ====
section
/-! DEFINITION. The gradient exchange (R94, R181-R205, R449): buckets, selection and quantisation, packets, ring and two-level
schedules, completion, breach retries, residuals, digests. -/

namespace Sys2Proof.Machine

/-! Buckets (R181, R262). -/

/-- The buckets of a group in ordinal order: layer, parameter, bucket index within it (R262). -/
def bucketList (p : Plan) (gi : Nat) : List (Nat × TensorRec × Nat) :=
  match p.groups[gi]? with
  | none => []
  | some g => ((p.layers.zipIdx).reverse.filter (fun x => x.1.exch && x.1.group == gi)).flatMap (fun x => match p.paramOf x.1 with
    | some t => (List.range (bucketCount g t)).map (fun b => (x.2, t, b))
    | none => [])

/-- The key of a bucket: position, group, ordinal. -/
def bucketKey (gi ord pos : Nat) : Nat := (pos * 16 + gi) * 2 ^ 32 + ord

/-- The group index, ordinal and position of a key. -/
def bucketParts (key : Nat) : Nat × Nat × Nat := (key / 2 ^ 32 % 16, key % 2 ^ 32, key / 2 ^ 36)

/-- The grid places of a slice's elements within its 4,096, in order of k and then n (R120). -/
def gridPlaces (t : TensorRec) (ord : Nat) : List Nat :=
  let kt := (t.kdim + 63) / 64
  let n0 := ord / kt * 64
  let k0 := ord % kt * 64
  (List.range (min 64 (t.kdim - k0))).flatMap (fun i => (List.range (min 64 (t.dims.headD 1 - n0))).map (fun j => i * 64 + j))

/-- A slice's values on its grid; places outside the tensor hold +0. -/
def toGrid (t : TensorRec) (ord : Nat) (vals : List Nat) : List Nat :=
  ((gridPlaces t ord).zip vals).foldl (fun (l : List Nat) x => l.set x.1 x.2) (List.replicate 4096 0)

/-! Schedules (R194, R195, R449). A ring is the two-level schedule with one inner ring. -/

/-- HOPS of a gather transfer (R449). -/
def hopsGather (g : GroupRec) (k : Nat) : Nat := (ringSize g - 1) + 2 * treeD g + k

/-- HOPS of a packet sent up the tree. -/
def hopsUp (g : GroupRec) (pos : Nat) : Nat := (ringSize g - 1) + (treeD g - treeDepth g pos)

/-- HOPS of a packet sent down the tree. -/
def hopsDown (g : GroupRec) (pos : Nat) : Nat := (ringSize g - 1) + treeD g + treeDepth g pos

/-- The blocks of a chunk: first and past the last (R194). -/
def chunkRange (blocks size ch : Nat) : Nat × Nat := (ch * blocks / size, (ch + 1) * blocks / size)

/-- The chunk that is complete at a position after the reduce phase. -/
def ownChunk (g : GroupRec) (pos : Nat) : Nat := (pos % ringSize g + 1) % ringSize g

/-! Blocks (R185-R190). -/

/-- The sum that marks a poisoned block (R189). -/
def poisonVal (g : GroupRec) : Int := if g.p > 256 then -2147483648 else -32768

/-- A block is poisoned: every element holds the mark (R189). -/
def poisoned (g : GroupRec) (b : List Int) : Bool := !b.isEmpty && b.all (· == poisonVal g)

/-- The residue of a block (R190). -/
def residueOf (g : GroupRec) (b : List Int) : Nat :=
  if poisoned g b then 0xFF
  else (((b.zipIdx).map (fun x => ((2 ^ (x.2 % 8) : Nat) : Int) * x.1)).sum % 255).toNat

/-- Add two blocks element by element; an adder that meets the mark in either operand writes it unchanged (R189). -/
def addBlocks (g : GroupRec) (a b : List Int) : List Int :=
  (a.zip b).map (fun x => if x.1 = poisonVal g ∨ x.2 = poisonVal g then poisonVal g else x.1 + x.2)

/-- The residue of a sum (R190, R193). -/
def addResidues (a b : Nat) : Nat := if a = 0xFF ∨ b = 0xFF then 0xFF else (a + b) % 255

/-- Block j of contributions. -/
def blockVals (vals : List Nat) (j : Nat) : List Nat := (vals.drop (32 * j)).take 32

/-- A contribution is NaN or infinite. -/
def badVal (q : Nat) : Bool := (fp32V q).nonFinite

/-- The exact magnitude of a block's largest contribution. -/
def blockMax (l : List Nat) : Nat × Int := magOf (l.map fp32V)

/-- A block's maximum ranks above another's: poison is infinite; ties go to the lower index (R186). -/
def ranksAbove (vals : List Nat) (i j : Nat) : Bool :=
  let a := blockVals vals i
  let b := blockVals vals j
  let pa := a.any badVal
  let pb := b.any badVal
  if pa || pb then (pa && (!pb || decide (i < j)))
  else
    let x := blockMax a
    let y := blockMax b
    magGt x.1 x.2 y.1 y.2 || (!magGt y.1 y.2 x.1 x.2 && decide (i < j))

/-- The selected blocks in rising order (R186). -/
def selectBlocks (g : GroupRec) (vals : List Nat) : List Nat :=
  let B := vals.length / 32
  let live := (List.range B).filter (fun j => (blockVals vals j).any (fun q => badVal q || !(fp32V q).isZero))
  if !g.topk then live
  else
    let k := max 1 (B >>> g.kshift)
    ((live.mergeSort (fun i j => ranksAbove vals i j || i == j)).take k).mergeSort (fun a b => decide (a ≤ b))

/-- A mantissa under an exponent, and whether it saturates (R187). -/
def mantissa (a : Int) (q : Nat) : Int × Bool :=
  let v := (fp32V q).scale (-a)
  if gtInt v 127 then (127, true) else if ltInt v (-127) then (-127, true) else (rneInt v, false)

/-- One selected block quantised. -/
def quantBlock (g : GroupRec) (a : Int) (l : List Nat) : List Int × Nat × Bool :=
  if l.any badVal then (List.replicate 32 (poisonVal g), 0, false)
  else
    let ms := l.map (mantissa a)
    (ms.map (·.1), (ms.filter (·.2)).length, ms.all (fun x => x.1 == 0) && l.any (fun q => !(fp32V q).isZero))

/-- The largest finite contribution as a BF16 code (R80, R191). -/
def gmaxOf (vals : List Nat) : Nat := maxCode (vals.map fp32V)

/-! Packets (R191). -/

/-- Bytes padded to a multiple of four. -/
def pad4 (l : List Byte) : List Byte := l ++ List.replicate ((4 - l.length % 4) % 4) 0

/-- A packet's bytes: header and body. -/
def pktBytes (p : ExPkt) : List Byte :=
  let h := p.tag % 2 ^ 12 + p.kind % 16 * 2 ^ 12 + p.step % 2 ^ 32 * 2 ^ 16 + p.seq % 64 * 2 ^ 48 + p.attempt % 2 * 2 ^ 54 +
    bnat p.breach * 2 ^ 55 + bnat p.poison * 2 ^ 56 + bnat p.wide * 2 ^ 57 + p.bump % 256 * 2 ^ 64 + p.gmax % 2 ^ 16 * 2 ^ 72 +
    p.src % 2 ^ 12 * 2 ^ 88 + p.chunk % 2 ^ 16 * 2 ^ 104 + p.present.length % 2 ^ 16 * 2 ^ 120 + p.first % 2 ^ 16 * 2 ^ 136 +
    p.nblk % 2 ^ 16 * 2 ^ 152 + p.hops % 2 ^ 16 * 2 ^ 168
  let w := if p.wide then 4 else 2
  let map := (List.range ((p.nblk + 7) / 8)).map (fun i =>
    BitVec.ofNat 8 (((List.range 8).map (fun k => if p.present.contains (p.first + 8 * i + k) then 2 ^ k else 0)).sum))
  let body := if p.kind = 2 then natLe (codeOf 8 p.agree) 4
    else pad4 map ++ p.blocks.flatMap (fun b => b.flatMap (fun m => natLe (codeOf (8 * w) m) w)) ++
      pad4 (p.residues.map (BitVec.ofNat 8))
  natLe h 32 ++ body

/-- A chunk as a packet carries it. -/
def pktChunk (p : ExPkt) : Chunk :=
  { blocks := (p.present.zip p.blocks).foldl (fun m x => m.insert x.1 x.2) [], residues := (p.present.zip p.residues).foldl (fun m x => m.insert x.1 x.2) [],
    breach := p.breach, poison := p.poison, bump := p.bump, gmax := p.gmax }

/-- Two chunks added block by block, their flags combined (R194). -/
def addChunks (g : GroupRec) (x y : Chunk) : Chunk :=
  let keys := ((x.blocks.map (·.1)) ++ (y.blocks.map (·.1))).eraseDups
  let pick (k : Nat) : List Int × Nat := match x.blocks.find k, y.blocks.find k with
    | some a, some b => (addBlocks g a b, addResidues (x.residues.get 0 k) (y.residues.get 0 k))
    | some a, none => (a, x.residues.get 0 k)
    | none, some b => (b, y.residues.get 0 k)
    | none, none => ([], 0)
  { blocks := keys.foldl (fun m k => m.insert k (pick k).1) [], residues := keys.foldl (fun m k => m.insert k (pick k).2) [],
    breach := x.breach || y.breach, poison := x.poison || y.poison, bump := max x.bump y.bump, gmax := max x.gmax y.gmax }

/-- A bucket's own blocks of a chunk with its bucket-wide flags (R194). -/
def ownPart (g : GroupRec) (b : Bucket) (ch : Nat) : Chunk :=
  let r := chunkRange (b.vals.length / 32) (ringSize g) ch
  let bl := b.own.filter (fun e => decide (r.1 ≤ e.1 ∧ e.1 < r.2))
  { blocks := bl, residues := bl.map (fun e => (e.1, residueOf g e.2)), breach := b.breach, poison := b.poison, bump := b.bump, gmax := b.maxima }

/-! Buckets in the state. -/

/-- An open bucket. -/
def getBucket (s : State) (n key : Nat) : Option Bucket := (getCtx s n).attempt.bind (fun a => a.buckets.find key)

/-- Change a bucket. -/
def modBucket (s : State) (n key : Nat) (f : Bucket → Bucket) : State :=
  modAttempt s n (fun a => match a.buckets.find key with
    | some b => { a with buckets := a.buckets.insert key (f b) }
    | none => a)

/-- The group of a bucket. -/
def bucketGroup (c : Ctx) (key : Nat) : Option GroupRec := c.plan.bind (fun p => p.groups[(bucketParts key).1]?)

/-- The page of the exchange engines that HUB names for a group (R182, R205). -/
def exPg (g : GroupRec) : Page := pgExchange (min g.hub 1)

/-- The ring that a bucket's traffic takes (R182). -/
def ringOf (g : GroupRec) (key : Nat) : Nat := (bucketParts key).2.1 % max 1 g.rings

/-- The link on which a ring's traffic with an adjacent device runs: the running links to it in order, the ring's number choosing one (R182;
log entry 99). -/
def exLink (s : State) (d ring : Nat) : Option Nat :=
  let ls := (List.range 48).filter (fun n => linkRuns s n && (getLink s n).peer == d && !inBundle s n)
  if ls.isEmpty then none else ls[ring % ls.length]?

/-- The hub whose engines take a bucket's traffic with a device: the one its link lies on, HUB without a link (R19). -/
def hubTo (s : State) (g : GroupRec) (key d : Nat) : Nat := ((exLink s d (ringOf g key)).map (· / 24)).getD (min g.hub 1)

/-- The hubs that serve a group at a position: HUB and those of the links of its rings and trees (R19). -/
def servingHubs (s : State) (c : Ctx) (g : GroupRec) (pos : Nat) : List Nat :=
  (min g.hub 1 :: ([nextPos g pos, prevPos g pos, treeParent g pos] ++ treeKids g pos).flatMap (fun q =>
    (List.range (max 1 g.rings)).filterMap (fun r => (exLink s (devAt c g q) r).map (· / 24)))).eraseDups

/-- A packet of a bucket. -/
def mkPkt (s : State) (n key : Nat) (g : GroupRec) (b : Bucket) (kind ch hops : Nat) (x : Chunk) (agree : Int) : ExPkt :=
  let step := ((getCtx s n).attempt.map (·.step)).getD 0
  let r := if kind = 2 then (0, 0) else chunkRange (b.vals.length / 32) (ringSize g) ch
  { tag := g.tagGroup % 16 * 256 + (bucketParts key).2.1 % 256, kind := kind, step := step, seq := (ch + step) % 64,
    attempt := if kind = 2 then 0 else b.attempt, breach := x.breach, poison := x.poison, wide := decide (g.p > 256), bump := x.bump,
    gmax := x.gmax, src := deviceId s, chunk := ch, first := r.1, nblk := r.2 - r.1, hops := hops, present := x.blocks.map (·.1),
    blocks := x.blocks.map (·.2), residues := x.blocks.map (fun e => x.residues.get 0 e.1), agree := agree }

/-- Every present block's residue checks (R193). -/
def residuesOk (g : GroupRec) (p : ExPkt) : Bool := (p.blocks.zip p.residues).all (fun x => residueOf g x.1 == x.2)

/-- The tags of a group and the steps for which hub B still holds its exchange digests, of those concerned (R204, R306). -/
def heldDigests (s : State) (g : GroupRec) (steps : Nat → Bool) : List (Nat × Nat) :=
  (s.digests.filter (fun e => e.1 / 256 == g.tagGroup % 16)).flatMap (fun e => (e.2.filter (fun x => steps x.1)).map (fun x => (e.1, x.1)))

/-- The path to a device is handled as a link fault, and the result is logged (R306). -/
def pathFault (s : State) (d : Nat) : State :=
  let s1 := logFault s { kind := 11, device := d, unit := ((exLink s d 0).getD 0) }
  match exLink s1 d 0 with
  | some l => let r := freeNs s1 2
              failLink r.2 l r.1
  | none => s1

/-- An exchange digest comparison at a position (R306): for every digest held of the steps concerned the own SENT is compared with what the
successor reports as RECEIVED; the successor's value comes from outside, so whether a pair differs is a free value (log entry 166). -/
def compareAt (s : State) (n : Nat) (g : GroupRec) (steps : Nat → Bool) (pos : Nat) : State :=
  let d := devAt (getCtx s n) g (nextPos g pos)
  let hs := heldDigests s g steps
  if d = deviceId s ∨ hs = [] then s
  else
    let bad := (List.range hs.length).any (fun i => Config.digestDiffers (s.freeCtr + i))
    let s1 := { s with freeCtr := s.freeCtr + hs.length }
    if bad then pathFault s1 d else logFault s1 { kind := 11, device := d }

/-- The comparison over every group and position that this device serves (R306). -/
def compareExchange (s : State) (n : Nat) (steps : Nat → Bool) : State :=
  let c := getCtx s n
  match c.plan with
  | some p => (p.groups.filter (fun g => decide (1 < ringSize g))).foldl (fun s g => (positionsHere s c p).foldl (fun s q => compareAt s n g steps q) s) s
  | none => s

/-- A residue mismatch: nothing of the block is used, the bucket is never final here, the attempt ends REPEATED, the fault manager has an
exchange adder to deal with, and the digests are compared (R193, R306, R316, R323). -/
def residueFault (s : State) (n key : Nat) (g : GroupRec) (hub src hops : Nat) : State :=
  let p := pgExchange hub
  let tag := g.tagGroup % 16 * 256 + (bucketParts key).2.1 % 256
  let step := ((getCtx s n).attempt.map (·.step)).getD 0
  let s1 := regSet (setErr s p 1) p Reg.EX_RESLOG (tag + src % 4096 * 2 ^ 12 + hops % 256 * 2 ^ 24)
  let s2 := beginRecovery (modBucket s1 n key (fun b => { b with fault := cResidue })) 7 0 src cResidue false
  let s3 := endAttempt s2 n cResidue
  let r := freeNs s3 7
  compareExchange (settleRecovery (recoveryWaits r.2 (interrupted_ r.2 [n]) r.1)) n (· == step)

/-- Residues are checked at a hub (R205). -/
def resChk (s : State) (hub : Nat) : Bool := bit (regGet s (pgExchange hub) Reg.EX_CTRL) 16

/-- The key of a bucket's running digests at this device (R204): AGREE packets belong to attempt 0. -/
def digKey (key att : Nat) : Nat := key % 2 ^ 36 * 2 + att % 2

/-- Change the running digests of a bucket's attempt. -/
def modDig (s : State) (n key att : Nat) (f : Nat × Nat → Nat × Nat) : State :=
  modAttempt s n (fun a => { a with digRun := a.digRun.insert (digKey key att) (f (a.digRun.get (0, 0) (digKey key att))) })

/-- Send a packet to a position: to another device on its ring's link, counted and digested (R204, R205); to a position that this device
serves too it is simply held for it. A partial result that crosses the bridge to the other hub is checked there first (R19, R193). -/
def sendPkt (s : State) (n key : Nat) (g : GroupRec) (dst : Nat) (p : ExPkt) : State :=
  let d := devAt (getCtx s n) g dst
  let hub := hubTo s g key d
  let came := ((getBucket s n key).map (·.hub)).getD hub
  if d = deviceId s then { s with early := s.early ++ [p] }
  else if came ≠ hub && p.kind != 2 && resChk s hub && !residuesOk g p then residueFault s n key g hub (deviceId s) p.hops
  else
    let bs := pktBytes p
    let s1 := bump64 (modDig s n key p.attempt (fun x => (crc64Run x.1 bs, x.2))) (pgExchange hub) Reg.EX_BYTES_LO bs.length
    if !idValid s then s1
    else match exLink s1 d (ringOf g key) with
      | some l => sendOn s1 l d 1 0 bs.length false (.exchange p)
      | none => sendRouted s1 d 1 0 bs.length (.exchange p)

/-! The schedule. -/

/-- The own chunk is final at a position: the gather phase begins (R194, R195). -/
def ownFinal (s : State) (n key : Nat) (g : GroupRec) (pos : Nat) : State :=
  match getBucket s n key with
  | none => s
  | some b =>
    let k := ownChunk g pos
    if ringSize g = 1 then modBucket s n key (fun b => { b with stage := 5 })
    else sendPkt (modBucket s n key (fun b => { b with stage := 4 })) n key g (nextPos g pos) (mkPkt s n key g b 1 k (hopsGather g 0) (b.chunks.get {} k) 0)

/-- Send the final own chunk down the tree, then gather. -/
def sendDown (s : State) (n key : Nat) (g : GroupRec) (pos : Nat) : State :=
  match getBucket s n key with
  | none => s
  | some b =>
    let k := ownChunk g pos
    let s1 := (treeKids g pos).foldl (fun s kid => sendPkt s n key g kid (mkPkt s n key g b 4 k (hopsDown g pos) (b.chunks.get {} k) 0)) s
    ownFinal s1 n key g pos

/-- Every child's sum is in: the root's chunk is final, any other sends its sum up (R195). -/
def treeStep (s : State) (n key : Nat) (g : GroupRec) (pos : Nat) : State :=
  match getBucket s n key with
  | none => s
  | some b =>
    if b.ups ≠ 2 ^ (treeKids g pos).length - 1 then s
    else if pos / ringSize g = 0 then sendDown s n key g pos
    else
      let k := ownChunk g pos
      sendPkt (modBucket s n key (fun b => { b with stage := 3 })) n key g (treeParent g pos) (mkPkt s n key g b 3 k (hopsUp g pos) (b.chunks.get {} k) 0)

/-- The reduce phase has ended at a position. -/
def reduceEnd (s : State) (n key : Nat) (g : GroupRec) (pos : Nat) : State :=
  treeStep (modBucket s n key (fun b => { b with stage := 2 })) n key g pos

/-- Start an attempt of a bucket at its exponent: quantise, send the own chunk at hop 0 (R187, R194, R201). A breach trips the bucket gauge
(R88) and is logged with tag, step and bump (R201; log entry 165). -/
def startReduce (s : State) (n key : Nat) : State :=
  match bucketGroup (getCtx s n) key, getBucket s n key with
  | some g, some b =>
    let pos := (bucketParts key).2.2
    let qs := b.sel.map (fun j => (j, quantBlock g b.a (blockVals b.vals j)))
    let sat := (qs.map (·.2.2.1)).sum
    let sm := b.sel.flatMap (blockVals b.vals)
    let m := magOf (sm.map fp32V)
    let breach := decide (sat ≠ 0)
    let b1 := { b with
      own := qs.foldl (fun o x => o.insert x.1 x.2.1) [], breach := breach, poison := b.vals.any badVal,
      bump := if breach then (fit m.1 m.2 (127, 0) - b.a).toNat else 0, maxima := gmaxOf b.vals, hop := 0, ups := 0, chunks := [], stage := 1, hub := min g.hub 1 }
    let s1 := modBucket s n key (fun _ => b1)
    let s2 := addBack (addApart s1 n b.layer sat 0) n b.layer pos { vanish := (qs.filter (·.2.2.2)).length }
    let step := ((getCtx s n).attempt.map (·.step)).getD 0
    let s3 := if breach then logFault (modCtx s2 n (fun c => reportTrip c b.gauge))
        { kind := 11, device := deviceId s, unit := g.tagGroup % 16 * 256 + (bucketParts key).2.1 % 256, d0 := step, d1 := b1.bump }
      else s2
    let i := pos % ringSize g
    if ringSize g = 1 then reduceEnd (modBucket s3 n key (fun b => { b with chunks := [(0, ownPart g b1 0)] })) n key g pos
    else sendPkt s3 n key g (nextPos g pos) (mkPkt s3 n key g b1 0 i 0 (ownPart g b1 i) 0)
  | _, _ => s

/-! The agreement round (R94). -/

/-- The exponent is agreed: the maximum plus the margin, clamped (R94). -/
def agreed_ (s : State) (n key : Nat) : State :=
  match getBucket s n key with
  | none => s
  | some b =>
    let g := (getCtx s n).gauges.get {} b.gauge
    let a := max (-127) (min 127 (b.agree + (g.margin : Int) - 2))
    startReduce (modBucket s n key (fun b => { b with a := a })) n key

/-- The agreed value goes round the inner ring, and this position's exponent is settled. -/
def agreeGather (s : State) (n key : Nat) (g : GroupRec) (pos : Nat) : State :=
  match getBucket s n key with
  | none => s
  | some b =>
    let q := ringSize g
    let i := pos % q
    let last := decide ((i + 1) % q = q - 1)
    let s1 := if q = 1 ∨ last then s
      else sendPkt s n key g (nextPos g pos) (mkPkt s n key g b 2 0 (hopsGather g (if i = q - 1 then 0 else i + 1)) {} b.agree)
    agreed_ s1 n key

/-- The round at the tree position of an inner ring: up when every child is in, down from the root. -/
def agreeTree (s : State) (n key : Nat) (g : GroupRec) (pos : Nat) : State :=
  match getBucket s n key with
  | none => s
  | some b =>
    if b.ups ≠ 2 ^ (treeKids g pos).length - 1 then s
    else if pos / ringSize g = 0 then
      let s1 := (treeKids g pos).foldl (fun s kid => sendPkt s n key g kid (mkPkt s n key g b 2 0 (hopsDown g pos) {} b.agree)) s
      agreeGather s1 n key g pos
    else sendPkt (modBucket s n key (fun b => { b with hop := 2 })) n key g (treeParent g pos) (mkPkt s n key g b 2 0 (hopsUp g pos) {} b.agree)

/-- Start the round: position 0 of an inner ring sends; a ring of one goes to the tree. -/
def startAgree (s : State) (n key : Nat) (g : GroupRec) (pos : Nat) : State :=
  match getBucket s n key with
  | none => s
  | some b =>
    if ringSize g = 1 then agreeTree (modBucket s n key (fun b => { b with hop := 1 })) n key g pos
    else if pos % ringSize g = 0 then
      sendPkt (modBucket s n key (fun b => { b with hop := 1 })) n key g (nextPos g pos) (mkPkt s n key g b 2 0 0 {} b.agree)
    else s

/-- What an AGREE packet is at a position: 0 reduce from the one before, 1 + i from child i, 8 from the parent, 9 the gather. -/
def agreeRole (c : Ctx) (g : GroupRec) (b : Bucket) (pos src : Nat) : Option Nat :=
  let q := ringSize g
  let i := pos % q
  let kids := treeKids g pos
  if i ≠ 0 ∧ b.hop = 0 then (if devAt c g (prevPos g pos) = src then some 0 else none)
  else if i = q - 1 then
    match (List.range kids.length).find? (fun k => !bit b.ups k && devAt c g (kids.getD k 0) == src) with
    | some k => some (1 + k)
    | none => if b.hop = 2 ∧ devAt c g (treeParent g pos) = src then some 8 else none
  else if devAt c g (prevPos g pos) = src then some 9 else none

/-- Take an AGREE packet: signed maximum (R94). -/
def takeAgree (s : State) (n key : Nat) (g : GroupRec) (pos role : Nat) (v : Int) : State :=
  let q := ringSize g
  let up (s : State) : State := modBucket s n key (fun b => { b with agree := max b.agree v })
  match role with
  | 0 =>
    let s1 := modBucket (up s) n key (fun b => { b with hop := 1 })
    if pos % q = q - 1 then agreeTree s1 n key g pos
    else match getBucket s1 n key with
      | some b => sendPkt s1 n key g (nextPos g pos) (mkPkt s1 n key g b 2 0 (pos % q) {} b.agree)
      | none => s1
  | 8 =>
    let s1 := modBucket s n key (fun b => { b with agree := v })
    match getBucket s1 n key with
    | some b => agreeGather ((treeKids g pos).foldl (fun s kid => sendPkt s n key g kid (mkPkt s n key g b 2 0 (hopsDown g pos) {} v)) s1) n key g pos
    | none => s1
  | 9 => agreeGather (modBucket s n key (fun b => { b with agree := v })) n key g pos
  | k => agreeTree (modBucket (up s) n key (fun b => { b with ups := setBits b.ups (k - 1) (k - 1) 1 })) n key g pos

/-! Arrival (R192, R193). -/

/-- What an arriving packet is to a bucket. -/
inductive PktFit where
  | take | hold | drop
  deriving DecidableEq, Repr

/-- Compare a packet with what the bucket expects next from that neighbour (R192). -/
def fitOf (c : Ctx) (g : GroupRec) (b : Bucket) (pos : Nat) (p : ExPkt) : PktFit :=
  let q := ringSize g
  let i := pos % q
  let step := (c.attempt.map (·.step)).getD 0
  let fromPrev := devAt c g (prevPos g pos) == p.src
  if p.step ≠ step ∨ p.seq ≠ (p.chunk + step) % 64 then .drop
  else if p.kind = 2 then
    (if b.stage ≠ 0 ∨ p.chunk ≠ 0 ∨ p.attempt ≠ 0 then .drop else if (agreeRole c g b pos p.src).isSome then .take else .hold)
  else if p.attempt ≠ b.attempt then (if b.attempt = 0 ∧ p.attempt = 1 ∧ 4 ≤ b.stage ∧ b.final = false then .hold else .drop)
  else match p.kind with
    | 0 => if !fromPrev then .drop else if b.stage = 0 then .hold
           else if b.stage = 1 ∧ p.chunk = (i + 2 * q - 1 - b.hop) % q then .take else .drop
    | 1 => if !fromPrev then .drop else if b.stage < 4 then .hold
           else if b.stage = 4 ∧ p.chunk = (i + 2 * q - (b.hop + 1 - q)) % q then .take else .drop
    | 3 => if p.chunk ≠ ownChunk g pos ∨ !((treeKids g pos).any (fun k => devAt c g k == p.src)) then .drop
           else if b.stage < 2 then .hold
           else if b.stage = 2 ∧ ((List.range (treeKids g pos).length).any (fun k => !bit b.ups k && devAt c g ((treeKids g pos).getD k 0) == p.src)) then .take else .drop
    | 4 => if p.chunk ≠ ownChunk g pos ∨ pos / q = 0 ∨ devAt c g (treeParent g pos) ≠ p.src then .drop
           else if b.stage < 3 then .hold else if b.stage = 3 then .take else .drop
    | _ => .drop

/-- A taken packet enters the RECEIVED digest (R204). -/
def noteReceived (s : State) (n key : Nat) (p : ExPkt) : State :=
  if p.src = deviceId s then s else modDig s n key p.attempt (fun x => (x.1, crc64Run x.2 (pktBytes p)))

/-- Use a packet that fits (R193-R195). -/
def usePkt (s : State) (n key : Nat) (g : GroupRec) (p : ExPkt) : State :=
  let pos := (bucketParts key).2.2
  let q := ringSize g
  match getBucket s n key with
  | none => s
  | some b =>
    if p.kind = 2 then
      match agreeRole (getCtx s n) g b pos p.src with
      | some r => takeAgree (noteReceived s n key p) n key g pos r p.agree
      | none => s
    else if resChk s (hubTo s g key p.src) && !residuesOk g p then residueFault s n key g (hubTo s g key p.src) p.src p.hops
    else
      let s0 := modBucket (noteReceived s n key p) n key (fun b => { b with hub := hubTo s g key p.src })
      let x := pktChunk p
      match p.kind with
      | 0 =>
        let y := addChunks g x (ownPart g b p.chunk)
        let s1 := modBucket s0 n key (fun b => { b with hop := b.hop + 1 })
        if b.hop + 1 < q - 1 then sendPkt s1 n key g (nextPos g pos) (mkPkt s1 n key g b 0 p.chunk (b.hop + 1) y 0)
        else reduceEnd (modBucket s1 n key (fun b => { b with chunks := b.chunks.insert p.chunk y })) n key g pos
      | 1 =>
        let k := b.hop + 1 - q
        let s1 := modBucket s0 n key (fun b => { b with hop := b.hop + 1, chunks := b.chunks.insert p.chunk x })
        let s2 := if k < q - 2 then sendPkt s1 n key g (nextPos g pos) (mkPkt s1 n key g b 1 p.chunk (hopsGather g (k + 1)) x 0) else s1
        if b.hop + 1 = 2 * (q - 1) then modBucket s2 n key (fun b => { b with stage := 5 }) else s2
      | 3 =>
        let kids := treeKids g pos
        match (List.range kids.length).find? (fun k => !bit b.ups k && devAt (getCtx s n) g (kids.getD k 0) == p.src) with
        | some k =>
          treeStep (modBucket s0 n key (fun b => { b with
            ups := setBits b.ups k k 1, chunks := b.chunks.insert p.chunk (addChunks g x (b.chunks.get {} p.chunk)) })) n key g pos
        | none => s
      | _ => sendDown (modBucket s0 n key (fun b => { b with chunks := b.chunks.insert p.chunk x })) n key g pos

/-- The buckets of a tag that were opened here, decided ones too, over every context (R183). -/
def tagged (s : State) (tag : Nat) : List (Nat × Nat × GroupRec × Bucket) :=
  s.ctxs.flatMap (fun e => match e.2.plan, e.2.attempt with
    | some p, some a => a.buckets.filterMap (fun x =>
        match p.groups[(bucketParts x.1).1]? with
        | some g => if g.tagGroup % 16 * 256 + (bucketParts x.1).2.1 % 256 = tag then some (e.1, x.1, g, x.2) else none
        | none => none)
    | _, _ => [])

/-- Those not decided (R192). -/
def openTags (s : State) (tag : Nat) : List (Nat × Nat × GroupRec × Bucket) := (tagged s tag).filter (fun x => !x.2.2.2.final)

/-- A bucket of the packet's tag may still open here in its step or a later one (R184). -/
def mayOpen (s : State) (p : ExPkt) : Bool :=
  s.ctxs.any (fun e => match e.2.plan with
    | some pl => e.2.state == 2 && decide (e.2.step ≤ p.step) && (pl.groups.zipIdx).any (fun x =>
        x.1.tagGroup % 16 == p.tag / 256 &&
        (match e.2.attempt with
          | some a => decide (a.step < p.step) || (positionsHere s e.2 pl).any (fun q =>
              ((List.range (bucketList pl x.2).length).any (fun o => o % 256 == p.tag % 256 && (a.buckets.find (bucketKey x.2 o q)).isNone)))
          | none => true))
    | none => false)

/-- What to do with a packet: use it for a bucket, hold it, or discard it against a bucket's layer. -/
inductive PktPlan where
  | use (n key : Nat) (g : GroupRec)
  | hold
  | drop (n key : Nat) (g : Option GroupRec)
  deriving DecidableEq, Repr

/-- Choose (R184, R192). -/
def planPkt (s : State) (p : ExPkt) : PktPlan :=
  let cs := openTags s p.tag
  let fits (k : PktFit) : Option (Nat × Nat × GroupRec × Bucket) :=
    cs.find? (fun x => decide (fitOf (getCtx s x.1) x.2.2.1 x.2.2.2 (bucketParts x.2.1).2.2 p = k))
  match fits .take with
  | some x => .use x.1 x.2.1 x.2.2.1
  | none => match fits .hold with
    | some _ => .hold
    | none => if mayOpen s p then .hold
      else match cs ++ (tagged s p.tag).reverse with
        | x :: _ => .drop x.1 x.2.1 (some x.2.2.1)
        | [] => .drop 0 0 none

/-- Discard a packet whole: SLIP against the tensor's layer, EX_ERR.SEQ of the engine that received it (R192). -/
def dropPkt (s : State) (n key : Nat) (g : Option GroupRec) (src : Nat) : State :=
  match g with
  | none => setErr s (pgExchange (hubFrom s src)) 0
  | some g =>
    let s1 := match getBucket s n key with
      | some b => addBack s n b.layer (bucketParts key).2.2 { slip := 1 }
      | none => s
    setErr s1 (pgExchange (hubTo s g key src)) 0

/-- Process held packets while some fits a bucket, or none will (R184). -/
def runEarly : Nat → State → State
  | 0, s => s
  | k + 1, s =>
    let ready (p : ExPkt) : Bool := match planPkt s p with
      | .hold => false
      | _ => true
    match s.early.find? ready with
    | none => s
    | some p =>
      let s1 := { s with early := s.early.erase p }
      match planPkt s p with
      | .use n key g => runEarly k (usePkt s1 n key g p)
      | .drop n key g => runEarly k (dropPkt s1 n key g p.src)
      | .hold => s

/-- How many held packets one event may set in motion. -/
def earlyFuel : Nat := 65536

/-- A packet arrives. -/
def pktIn (s : State) (p : ExPkt) : State := runEarly earlyFuel { s with early := s.early ++ [p] }

/-! The commands. -/

/-- The contributions of a bucket: RNE(x + r), or x without EF (R185). -/
def contributions (c : Ctx) (a : Attempt) (g : GroupRec) (t : TensorRec) (pos first count : Nat) (resKey : Nat) : List Nat :=
  (List.range count).flatMap (fun i =>
    let vals := a.own.get [] (ownKey pos t.tid (first + i))
    let res := c.residual.get [] resKey
    let idx := sliceIdx t (first + i)
    toGrid t (first + i) (if g.ef then (vals.zip idx).map (fun x => f32add x.1 (SMap.get 0 x.2 res)) else vals))

/-- Where a position's residual is kept: a taken position has its own beside the device's (R188, R232). -/
def residualKey (s : State) (c : Ctx) (p : Plan) (tid pos : Nat) : Nat :=
  if (positionsHere s c p).headD pos = pos then tid else (pos + 1) * 2 ^ 24 + tid

/-- What the clamp of a bucket gauge's exponent under R35 counts (R185). -/
def clampTally (x : Int) : Tally := { ovf := bnat (decide (127 < x)), unf := bnat (decide (x < -127)) }

/-- BUCKET_OPEN: every slice of the bucket is there, buckets open in ordinal order, at most 256 in flight (R183-R187, R94). -/
def execBucketOpen (ctx group ordinal pos : Nat) (s : State) : Host.Outcome State Fault Refusal :=
  let c := getCtx s ctx
  match c.attempt, c.plan.bind (fun p => (p.groups[group]?).bind (fun g => ((bucketList p group)[ordinal]?).map (fun x => (p, g, x)))) with
  | some a, some (p, g, i, t, b) =>
    let key := bucketKey group ordinal pos
    let first := b * g.slices
    let count := min g.slices (sliceCountOf t - first)
    let ready := (List.range count).all (fun j => (a.own.find (ownKey pos t.tid (first + j))).isSome)
    let before := ordinal == 0 || (a.buckets.find (bucketKey group (ordinal - 1) pos)).isSome
    let window := decide (ordinal < 256) || (match a.buckets.find (bucketKey group (ordinal - 256) pos) with
      | some x => x.final
      | none => false)
    if !ready || !before || !window || a.outcome.isSome || (a.buckets.find key).isSome || !(positionsHere s c p).contains pos then .next s
    else
      let vals := contributions c a g t pos first count (residualKey s c p t.tid pos)
      let gi := ((p.gauges.find? (fun x => x.kind == 2 && x.tid == t.tid && x.bucket == b)).map (·.gauge)).getD 0
      let s0 := awaitGauge s ctx gi
      let ga := (getCtx s0 ctx).gauges.get {} gi
      let m := magOf (vals.map fp32V)
      let bk : Bucket := { tid := t.tid, first := first, count := count, layer := i, gauge := gi, a := max (-127) (min 127 ga.gexp),
                           agree := max (-127) (min 127 (fit m.1 m.2 (127, 0))), vals := vals, sel := selectBlocks g vals }
      let s1 := modAttempt s0 ctx (fun a => { a with buckets := a.buckets.insert key bk })
      .next (runEarly earlyFuel (if ga.hcount = 0 then startAgree s1 ctx key g pos
        else startReduce (addBack s1 ctx i pos (clampTally ga.gexp)) ctx key))
  | _, _ => .next s

/-- REDUCE_PACKET (R194). -/
def execReducePacket (p : ExPkt) (s : State) : Host.Outcome State Fault Refusal := .next (pktIn s { p with kind := 0 })

/-- GATHER_PACKET (R194). -/
def execGatherPacket (p : ExPkt) (s : State) : Host.Outcome State Fault Refusal := .next (pktIn s { p with kind := 1 })

/-- AGREE_PACKET (R94). -/
def execAgreePacket (p : ExPkt) (s : State) : Host.Outcome State Fault Refusal := .next (pktIn s { p with kind := 2 })

/-- TREE_UP (R195). -/
def execTreeUp (p : ExPkt) (s : State) : Host.Outcome State Fault Refusal := .next (pktIn s { p with kind := 3 })

/-- TREE_DOWN (R195). -/
def execTreeDown (p : ExPkt) (s : State) : Host.Outcome State Fault Refusal := .next (pktIn s { p with kind := 4 })

/-! Completion (R188, R198-R204). -/

/-- The final sum of a block, where some member selected it. -/
def finalBlock (b : Bucket) (j : Nat) : Option (List Int) := b.chunks.findSome? (fun e => e.2.blocks.find j)

/-- The delivered values of a bucket, element by element of its grid, and how many overflow (R199). -/
def delivered (b : Bucket) : List Nat × Nat :=
  let ws := (List.range (b.vals.length / 32)).flatMap (fun j => match finalBlock b j with
    | some l => l.map (fun m => widen .fp32 (.fin (decide (m < 0)) m.natAbs b.a))
    | none => List.replicate 32 ({ code := 0 } : Widened))
  (ws.map (·.code), (ws.filter (·.ovf)).length)

/-- The residual of a position's contributions after a bucket's final attempt (R188). -/
def residualOf (b : Bucket) : List Nat :=
  (List.range (b.vals.length / 32)).flatMap (fun j =>
    let l := blockVals b.vals j
    match b.own.find j with
    | some q => (l.zip q).map (fun x => let v := fp32V x.1
                                        (ieeeOfInt .fp32 .rne false (addScaled v.toInt (-x.2, b.a))).1)
    | none => l)

/-- A grid of a bucket back to logical indices of its tensor. -/
def bucketIdx (t : TensorRec) (b : Bucket) (grid : List Nat) : List (Nat × Nat) :=
  (List.range b.count).flatMap (fun i =>
    let part := (grid.drop (4096 * i)).take 4096
    (sliceIdx t (b.first + i)).zip ((gridPlaces t (b.first + i)).map (fun k => part.getD k 0)))

/-- Keep a tag's digests of the final attempt, one value each over every packet of the device: this step number and the fifteen before it
(R204). Of two buckets of a step that share a tag the one completed last stands (log entry 168). -/
def keepDigest (s : State) (n : Nat) (g : GroupRec) (tag step key : Nat) (b : Bucket) : State :=
  let x : Nat × Nat := SMap.get (0, 0) (digKey key b.attempt) (((getCtx s n).attempt.map (·.digRun)).getD [])
  if !bit (regGet s (exPg g) Reg.EX_CTRL) 17 then s
  else { s with digests := s.digests.insert tag ((step, x.1, x.2) ::
    ((s.digests.get [] tag).filter (fun x => x.1 != step && decide (step < x.1 + 16)))) }

/-- A bucket's tag (R183). -/
def tagOf (g : GroupRec) (key : Nat) : Nat := g.tagGroup % 16 * 256 + (bucketParts key).2.1 % 256

/-- A bucket is decided. -/
def closeBucket (s : State) (n key : Nat) (g : GroupRec) : State :=
  bumpWrap (modBucket s n key (fun b => { b with final := true })) (exPg g) Reg.EX_DONE 1

/-- An overflow of the exchange: OVF, the loss scale lowered, the step skipped (R198, R236). -/
def exchangeOverflow (s : State) (n : Nat) (g : GroupRec) (b : Bucket) (count : Nat) : State :=
  let s1 := setErr (addApart s n b.layer 0 count) (exPg g) 4
  endAttempt (modAttempt s1 n (fun a => { a with noMore := true, lower := some (if a.lower = some 2 then 2 else 0) })) n cOvfExch

/-- Deliver a bucket's slices, marked final together; a position whose slices stand already delivers none (R199). -/
def deliver (s : State) (n : Nat) (t : TensorRec) (b : Bucket) (vals : List Nat) : State :=
  (List.range b.count).foldl (fun s i =>
    let key := sliceKey t.tid (b.first + i)
    let part := (vals.drop (4096 * i)).take 4096
    modAttempt s n (fun a => if (a.slices.find key).isSome then a
      else { a with slices := a.slices.insert key { layer := b.layer, stage := 1, vals := (gridPlaces t (b.first + i)).map (fun k => part.getD k 0) } })) s

/-- What follows a bucket's final attempt whatever its outcome: PEND, the inactive residual, digests (R188, R200, R204). -/
def afterFinal (s : State) (n key : Nat) (g : GroupRec) (t : TensorRec) (b : Bucket) : State :=
  let c := getCtx s n
  let step := (c.attempt.map (·.step)).getD 0
  let gmax := (b.chunks.map (fun e => e.2.gmax)).foldl max 0
  let ga := c.gauges.get {} b.gauge
  let c1 := { c with gauges := c.gauges.put {} b.gauge { ga with pend := gmax } }
  let c2 := match c.plan with
    | some p => if g.ef ∧ b.poison = false then
        let rk := residualKey s c p t.tid (bucketParts key).2.2
        { c1 with residualNew := c1.residualNew.insert rk ((bucketIdx t b (residualOf b)).foldl (fun (m : SMap Nat) x => m.insert x.1 x.2) (c1.residualNew.get [] rk)) }
      else c1
    | none => c1
  keepDigest (putCtx s n c2) n g (tagOf g key) step key b

/-- BREACH at attempt 0: counted, a raise requested, the bucket reduced again at a higher exponent, or at once an overflow above
+127 (R198, R201). -/
def breachRetry (s : State) (n key : Nat) (g : GroupRec) (t : TensorRec) (b : Bucket) : State :=
  let pos := (bucketParts key).2.2
  let bump := (b.chunks.map (fun e => e.2.bump)).foldl max 0
  let s1 := addBack s n b.layer pos { breach := 1 }
  let s2 := modAttempt s1 n (fun a => { a with raises := if a.raises.contains b.gauge then a.raises else a.raises ++ [b.gauge] })
  if b.a + bump > 127 then exchangeOverflow (closeBucket (afterFinal s2 n key g t b) n key g) n g b 1
  else startReduce (bumpSat (modBucket s2 n key (fun b => { b with attempt := 1, a := b.a + bump })) (exPg g) Reg.EX_BREACHES 31 0 1) n key

/-- The residue of every block that is to be dequantised checks (R193). -/
def finalOk (g : GroupRec) (b : Bucket) : Bool :=
  b.chunks.all (fun e => e.2.blocks.all (fun x => residueOf g x.2 == e.2.residues.get 0 x.1))

/-- BUCKET_COMPLETE: the first row of R198 that matches decides. -/
def execBucketComplete (ctx group ordinal pos : Nat) (s : State) : Host.Outcome State Fault Refusal :=
  let c := getCtx s ctx
  let key := bucketKey group ordinal pos
  match c.attempt, bucketGroup c key, getBucket s ctx key with
  | some a, some g, some b =>
    match c.plan.bind (fun p => p.record b.tid) with
    | none => .next s
    | some t =>
      if b.final || (b.stage ≠ 5 && b.fault = 0) then .next s
      else if b.fault ≠ 0 then .next (runEarly earlyFuel (closeBucket (keepDigest s ctx g (tagOf g key) a.step key b) ctx key g))
      else
        let breach := b.chunks.any (fun e => e.2.breach)
        let poison := b.chunks.any (fun e => e.2.poison)
        if poison then
          let bad := (b.chunks.flatMap (fun e => e.2.blocks.filter (fun x => poisoned g x.2))).length
          let s1 := setErr (addBack (afterFinal s ctx key g t b) ctx b.layer pos { nan := bad }) (exPg g) 5
          let s2 := modAttempt (closeBucket s1 ctx key g) ctx (fun a => { a with noMore := true, lower := a.lower.or (some 2) })
          .next (runEarly earlyFuel (endAttempt s2 ctx cNanGrad))
        else if breach && b.attempt == 0 then .next (runEarly earlyFuel (breachRetry s ctx key g t b))
        else if breach then
          .next (runEarly earlyFuel (endAttempt (setErr (closeBucket (afterFinal s ctx key g t b) ctx key g) (exPg g) 3) ctx cResidue))
        else if resChk s (min g.hub 1) && !finalOk g b then
          .next (residueFault s ctx key g (min g.hub 1) (deviceId s) (hopsGather g (ringSize g - 1)))
        else
          let v := delivered b
          let s1 := closeBucket (afterFinal s ctx key g t b) ctx key g
          if v.2 ≠ 0 then .next (runEarly earlyFuel (exchangeOverflow s1 ctx g b v.2))
          else if a.noMore then .next (runEarly earlyFuel s1)
          else .next (runEarly earlyFuel (deliver s1 ctx t b v.1))
  | _, _, _ => .next s

/-- BUCKET_DEADLINE: the timer of a bucket that has not completed runs out (R203). -/
def execBucketDeadline (ctx group ordinal pos : Nat) (s : State) : Host.Outcome State Fault Refusal :=
  let c := getCtx s ctx
  let key := bucketKey group ordinal pos
  match bucketGroup c key, getBucket s ctx key with
  | some g, some b =>
    if b.final || b.stage = 5 || b.fault ≠ 0 then .next s
    else .next (endAttempt (setErr (modBucket s ctx key (fun b => { b with fault := cDeadline })) (exPg g) 2) ctx cDeadline)
  | _, _ => .next s

end Sys2Proof.Machine
end

