-- ==== Sys2Proof/Machine/Settle.lean ====
section
/-! DEFINITION. CLOSE, the settle round and the admission of a repeat (R86, R206, R207, R238, R316). -/

namespace Sys2Proof.Machine

/-- After CLOSE: a recovery waits no longer for a context that has no repeat to come, then the step boundary (R206, R316). -/
def afterClose (s : State) (n : Nat) : State :=
  let c := getCtx s n
  let s1 := if c.repeatPending && !c.suspended then s else recoveryEnds s n 0
  stepBoundary s1 n

/-- CLOSE where it came to an end. -/
def closed (r : State × Bool) (n : Nat) : State := if r.2 then afterClose r.1 n else r.1

/-- A repeat that admission refuses leaves the context suspended, its batch still held, so that RESUME can admit it again (R207,
R287). -/
def repeatRefused (s : State) (n h st : Nat) : State :=
  let s1 := if st = stStackOverflow then setErr s (pgStack h) 0 else s
  recoveryEnds (modCtx s1 n (fun c => { c with suspended := true })) n 0

/-- CLOSE_PHASE: the outcome is decided; CLOSE runs, or begins its settle round (R86, R206, R238). -/
def execClosePhase (ctx : Nat) (s : State) : Host.Outcome State Fault Refusal := .next (closed (closePhase s ctx) ctx)

/-- SETTLE_ROUND: a member's message is combined (R238). -/
def execSettleRound (src ctx step : Nat) (lower : Bool) (raises : List Nat) (s : State) : Host.Outcome State Fault Refusal :=
  match (getCtx s ctx).plan with
  | some p => if (peersOf s (getCtx s ctx) p).contains src then .next (closed (settleMsg s src ctx step lower raises) ctx) else .next s
  | none => .next s

/-- SETTLE_TIMEOUT: CLOSE ends without the round; nothing of it is applied, the context is suspended (R238). -/
def execSettleTimeout (ctx : Nat) (s : State) : Host.Outcome State Fault Refusal :=
  match (getCtx s ctx).attempt with
  | some a => if a.settling then .next (closed (closeNow s ctx false, true) ctx) else .next s
  | none => .next s

/-- REPEAT_ADMIT: a REPEATED attempt is admitted again on its held batch, `ns` after the fault where one caused it (R207, R209,
R316). -/
def execRepeatAdmit (ctx ns : Nat) (s : State) : Host.Outcome State Fault Refusal :=
  let c := getCtx s ctx
  match c.batch with
  | none => .next s
  | some b =>
    if !c.repeatPending || c.suspended || c.state != 2 || c.attempt.isSome || c.evalRun.isSome || c.exporting || heldBySwing s ctx then .next s
    else match admitCheck s ctx b.2 with
      | .refused st h _ => .next (repeatRefused s ctx h st)
      | .go split halfOff => .next (recoveryEnds (startAttempt s ctx b.1 b.2 split halfOff) ctx ns)

end Sys2Proof.Machine
end

