-- ==== Sys2Proof/Machine/Links.lean ====
section
/-! DEFINITION. The Viold links: acknowledgement, replay, credits, delivery in end-to-end order, forwarding, lane and link faults,
training (R313, R337, R343, R346-R352, R354, R356, R357). -/

namespace Sys2Proof.Machine

/-! Acknowledgement and credits (R343, R346). -/

/-- The retry buffer after an acknowledgement of `ack`: what was sent after it. -/
def unacked (l : Link) (ack : Nat) : List Flit :=
  match l.retry.findIdx? (fun f => f.seq == ack) with
  | some i => l.retry.drop (i + 1)
  | none => l.retry

/-- Credits of a class come back: to virtual channel 0 as far as it has any out, then to 1 (the header names no channel: log
entry 30). -/
def takeCredits (l : Link) (tc n : Nat) : SMap Nat :=
  let a := l.used.get 0 (tc * 2)
  let k := min a n
  (l.used.put 0 (tc * 2) (a - k)).put 0 (tc * 2 + 1) (l.used.get 0 (tc * 2 + 1) - (n - k))

/-- What the header of a good flit tells the port. -/
def takeHeader (l : Link) (f : Flit) : Link :=
  let r := unacked l f.ack
  { l with retry := r, used := if f.credit = 0 then l.used else takeCredits l f.ctc f.credit
           replays := if r.length = l.retry.length then l.replays else 0 }

/-- Owe the far port a credit: a buffer slot is free again. -/
def oweCredit (s : State) (link tc vc : Nat) : State :=
  modLink s link (fun l => { l with owed := l.owed.put 0 (tc * 2 + vc) (l.owed.get 0 (tc * 2 + vc) + 1) })

/-- Let a link's waiting flits leave. -/
def pumpLink (s : State) (link : Nat) : State := pump link ((getLink s link).queue.length + 1) s

/-- Discard a flit and name the SEQ expected (R343). -/
def sendNak (s : State) (link : Nat) : State :=
  let l := getLink s link
  emit (putLink s link { l with discarding := true }) (.nakFlit link l.rx)

/-- RETRY_MAX; 0 acts as 1 (R358). -/
def retryMax (s : State) (link : Nat) : Nat := max 1 (fld s (pgLink link) Reg.LK_CTRL 15 8)

/-- Replay from a SEQ out of the retry buffer, ahead of any new flit, unless its retry is exhausted (R343). -/
def replay (s : State) (link seq : Nat) : State :=
  let l := getLink s link
  let r := unacked l ((seq + 4095) % 4096)
  let again := if l.replayed = seq ∧ l.replays ≠ 0 then l.replays else 0
  if r.isEmpty || !linkRuns s link || decide (retryMax s link ≤ again) then putLink s link { l with retry := r }
  else
    let s1 := putLink s link { l with retry := r, replayed := seq, replays := again + 1 }
    let s2 := bumpSat s1 (pgLink link) Reg.LK_RETRY 31 0 1
    if s.power.lost then s2
    else r.foldl (fun s f => emit s (.flit link { f with ack := (l.rx + 4095) % 4096, credit := 0, ctc := 0 })) s2

/-! Delivery and forwarding (R350-R352, R354). -/

/-- The flits held for a source and class. -/
def heldAll (s : State) : Nat := (s.router.held.map (fun e => e.2.length)).sum

/-- A member ends its pairing: its shadows, their logs, pre-step copies and pegs are released, and the device serves nobody (R331). -/
def releaseShadows (s : State) (d : Nat) : State :=
  let mine := s.ctxs.filter (fun e => e.2.shadow.held && e.2.shadow.member == d)
  let s1 := mine.foldl (fun s e => putCtx (freePegs s e.2 false) e.1 {}) s
  { s1 with twin := { s1.twin with member := none, missed := s1.twin.missed.erase d, heard := s1.twin.heard.filter (· != d) } }

/-- What a delivered packet's first flit does where the table has no command for what it carries: the management message by which a member
begins or ends a pairing, whose first byte is 0xF0 or 0xF1 (R324, R331; DESIGN CHOICE, log entry 177). -/
def pairingTaken (s : State) (f : Flit) : State :=
  if f.fkind ≠ 1 ∨ f.proto ≠ 4 then s
  else match f.data.head?.map (·.toNat) with
    | some 0xF0 => if s.twin.member.isNone && !s.lostDevs.contains f.src then { s with twin := { s.twin with member := some f.src } } else s
    | some 0xF1 => if s.twin.member = some f.src ∧ s.twin.serving = false then releaseShadows s f.src else s
    | _ => s

/-- Pass on held flits that now stand next in order, owing the credits that were withheld (R352). -/
def release : Nat → State → Nat → State
  | 0, s, _ => s
  | k + 1, s, key =>
    let e := s.router.next.get 0 key
    let hs := s.router.held.get [] key
    match hs.find? (fun h => h.f.eseq == e) with
    | none => s
    | some h =>
      let s1 := pairingTaken { s with router := { s.router with next := s.router.next.put 0 key ((e + 1) % 4096), held := s.router.held.put [] key (hs.erase h) } } h.f
      let s2 := match h.link with
        | some l => oweCredit s1 l h.f.tc h.f.vc
        | none => s1
      release k s2 key

/-- A flit for this device: in ESEQ order it is delivered to its engine, ahead of it it is held, with its credit withheld where the
store of 4,096 flits in each hub is full (R352). What a delivered packet does is the command of what it carries (log entry 31). -/
def deliverFlit (s : State) (link : Nat) (f : Flit) : State :=
  let key := f.src * 4 + f.tc
  let e := s.router.next.get 0 key
  if f.eseq = e then
    let s1 := oweCredit (pairingTaken { s with router := { s.router with next := s.router.next.put 0 key ((e + 1) % 4096) } } f) link f.tc f.vc
    release ((s1.router.held.get [] key).length + 1) s1 key
  else if (f.eseq + 4096 - e) % 4096 < 2048 then
    let room := decide (heldAll s < 8192)
    let s1 := if room then oweCredit s link f.tc f.vc else s
    let h : HeldFlit := { f := f, link := if room then none else some link }
    { s1 with router := { s1.router with held := s1.router.held.put [] key (s1.router.held.get [] key ++ [h]) } }
  else oweCredit s link f.tc f.vc

/-- HOP_MAX; 0 acts as 1 (R359). -/
def hopMax (s : State) : Nat := max 1 (fld s pgRouter Reg.RT_CTRL 22 16)

/-- A flit for another device: HOPS rises, it leaves by its route (R351, R354). -/
def forwardFlit (s : State) (link : Nat) (f : Flit) : State :=
  let s1 := oweCredit s link f.tc f.vc
  if hopMax s < f.hops + 1 then setErr s1 pgRouter 1 else routeFlit s1 { f with hops := f.hops + 1 }

/-- A packet flit that passed the port's checks (R350). -/
def packetFlit (s : State) (link : Nat) (f : Flit) : State :=
  if !idValid s then oweCredit s link f.tc f.vc
  else if f.dst = deviceId s then deliverFlit s link f
  else forwardFlit s link f

/-! Link states (R337, R357). -/

/-- The far port sent without credit: the flit is discarded, the link retrains (R358 CREDIT). -/
def creditBreach (s : State) (link : Nat) : State := trainLink (setErr s (pgLink link) 3) link

/-- Credits of a class and channel that a link withholds for held flits (R352). -/
def withheld (s : State) (link tc vc : Nat) : Nat :=
  (s.router.held.map (fun e => (e.2.filter (fun h => h.link == some link && h.f.tc == tc && h.f.vc == vc)).length)).sum

/-- The far port holds no credit for this flit: all of them are owed or withheld (R346, R352). -/
def noCredit (s : State) (link : Nat) (l : Link) (f : Flit) : Bool :=
  (f.fkind == 1 || f.fkind == 2) && decide (creditsOf f.tc ≤ l.owed.get 0 (f.tc * 2 + f.vc) + withheld s link f.tc f.vc)

/-! The commands. -/

/-- LINK_UP: training ends with so many good lanes; both ends number afresh, a changed far device leaves the link out of every trunk
until the next routing-table swing (R337, R357). -/
def execLinkUp (link peer peerLink lanes : Nat) (s : State) : Host.Outcome State Fault Refusal :=
  let l := getLink s link
  if l.state ≠ 1 ∨ 48 ≤ link then .next s
  else if lanes < 3 then .next (putLink s link { l with state := 4 })
  else
    let changed := match l.seen with
      | some d => d != peer
      | none => false
    let s1 := putLink s link { l with
      state := if lanes = 3 then 3 else 2, noSpare := decide (lanes < 5), cal := decide (5 ≤ lanes) && fld s (pgLink link) Reg.LK_CTRL 1 1 == 1,
      peer := peer % 4096, peerLink := peerLink % 64, seen := some peer, leftOut := l.leftOut || changed, tx := 0, rx := 0, discarding := false,
      queue := l.retry ++ l.queue, retry := [], replays := 0, used := [], owed := [] }
    .next (pumpLink (if changed then setErr s1 (pgLink link) 5 else s1) link)

/-- LINK_RETRAIN: a FAILED link that is enabled trains again (R357). -/
def execLinkRetrain (link : Nat) (s : State) : Host.Outcome State Fault Refusal :=
  if (getLink s link).state = 4 ∧ fld s (pgLink link) Reg.LK_CTRL 0 0 = 1 ∧ link < 48 then .next (trainLink s link) else .next s

/-- NAK: the far port names the SEQ it expects (R343). -/
def execNak (link seq : Nat) (s : State) : Host.Outcome State Fault Refusal := .next (replay s link (seq % 4096))

/-- IDLE_FLIT: a port with nothing to send emits an idle flit with its ACK and credits; it takes no SEQ of its own (R343; log entry
32). -/
def execIdleFlit (link : Nat) (s : State) : Host.Outcome State Fault Refusal :=
  let l := getLink s link
  if !linkRuns s link || (nextFlit s link l).isSome || s.power.lost then .next s
  else
    let cr := creditBack s link l
    let f : Flit := { seq := l.tx % 4096, ack := (l.rx + 4095) % 4096, src := deviceId s, credit := (cr.map (·.2)).getD 0, ctc := (cr.map (·.1 / 2)).getD 0 }
    let owed := match cr with
      | some (k, c) => l.owed.put 0 k (l.owed.get 0 k - c)
      | none => l.owed
    .next (emit (putLink s link { l with owed := owed }) (.flit link f))

/-- RETRY_EXH: the same SEQ has been replayed RETRY_MAX times in a row (R343). -/
def execRetryExh (link ns : Nat) (s : State) : Host.Outcome State Fault Refusal :=
  let l := getLink s link
  if !linkRuns s link || l.replays < retryMax s link then .next s
  else .next (failLink (setErr s (pgLink link) 1) link ns)

/-- LINK_FAULT: loss of lock on every lane (R316, R337). -/
def execLinkFault (link ns : Nat) (s : State) : Host.Outcome State Fault Refusal :=
  if linkRuns s link then .next (failLink s link ns) else .next s

/-- LANE_FAULT: a healthy spare replaces the lane at once, its calibration abandoned; without one the link goes on with three lanes,
and one more lost lane fails it (R316, R337). -/
def execLaneFault (link lane ns : Nat) (s : State) : Host.Outcome State Fault Refusal :=
  let l := getLink s link
  let p := pgLink link
  if !linkRuns s link then .next s
  else if l.state = 3 then .next (failLink s link ns)
  else
    let s1 := beginRecovery s 1 link (deviceId s) 0x12 false
    let s2 := if lane = l.spare then putLink s1 link { l with noSpare := true, cal := false }
      else if l.noSpare then putLink s1 link { l with state := 3, cal := false }
      else setErr (putLink s1 link { l with spare := lane % 5, noSpare := true, cal := false }) p 2
    .next (settleRecovery (recoveryWaits s2 [] ns))

/-- LANE_SWAP: the calibrated spare takes a data lane's place at a flit boundary; the displaced lane is the spare and is calibrated in
turn (R313). -/
def execLaneSwap (link lane : Nat) (s : State) : Host.Outcome State Fault Refusal :=
  let l := getLink s link
  if l.state ≠ 2 ∨ !l.cal ∨ l.noSpare ∨ 5 ≤ lane ∨ lane = l.spare then .next s
  else .next (setErr (putLink s link { l with spare := lane, cal := fld s (pgLink link) Reg.LK_CTRL 1 1 == 1 }) (pgLink link) 2)

/-- REORDER_TIMEOUT: a gap stays unfilled: the held flits of the flow are discarded, the flow goes on behind them (R352). -/
def execReorderTimeout (src tc : Nat) (s : State) : Host.Outcome State Fault Refusal :=
  let key := src * 4 + tc % 4
  let hs := s.router.held.get [] key
  if hs.isEmpty then .next s
  else
    let e := s.router.next.get 0 key
    let far := (hs.map (fun h => (h.f.eseq + 4096 - e) % 4096)).foldl max 0
    let s1 := { s with router := { s.router with held := s.router.held.put [] key [], next := s.router.next.put 0 key ((e + far + 1) % 4096) } }
    .next (setErr (hs.foldl (fun s h => match h.link with
      | some l => oweCredit s l h.f.tc h.f.vc
      | none => s) s1) pgRouter 2)

/-- FLIT: its CRC and sequence are checked, its acknowledgement and credits taken; a packet flit is delivered in end-to-end order or
forwarded (R342, R343, R346, R350-R352). What a packet or a control flit carries is a command of its own (log entry 31); an idle flit has
no number of its own (log entry 32). -/
def execFlit (link : Nat) (bytes : List Byte) (s : State) : Host.Outcome State Fault Refusal :=
  let l := getLink s link
  if !linkRuns s link then .next s
  else match readFlit bytes with
    | none => .next (sendNak (setErr s (pgLink link) 0) link)
    | some f =>
      if f.fkind = 0 then .next (pumpLink (putLink s link (takeHeader l f)) link)
      else if f.seq ≠ l.rx then .next (if l.discarding then s else sendNak s link)
      else if noCredit s link l f then .next (creditBreach s link)
      else
        let s1 := putLink s link { takeHeader l f with rx := (l.rx + 1) % 4096, discarding := false }
        .next (pumpLink (if f.fkind = 3 then s1 else packetFlit s1 link f) link)

end Sys2Proof.Machine
end

