-- ==== Sys2Proof/Machine/Voting.lean ====
section
/-! DEFINITION. Weight digests: the root, the vote, expulsion, the digest rollback (R196, R300-R305). -/

namespace Sys2Proof.Machine

/-- The replica position of a device in the plan's first group. -/
def positionAt (c : Ctx) (d : Nat) : Option Nat := c.plan.bind (fun p => p.groups.head?.bind (fun g => g.position d))

/-- A member's place after its loss or expulsion: its active twin takes it, on this device where that is the twin; else it stays vacant
(R196, R218, R305, R330). -/
def standIn (s : State) (n d : Nat) (t : Option Nat) : State :=
  let s1 := modCtx s n (fun c => match t with
    | some x =>
      let c1 := { c with moved := c.moved.insert d x }
      if x = deviceId s then { c1 with taken := (c.taken ++ (positionAt c d).toList).eraseDups } else c1
    | none => { c with vacant := (c.vacant ++ (positionAt c d).toList).eraseDups })
  if t = some (deviceId s) then growRegions s1 n else s1

/-- The twin whose protection of a member was last reported active and that is not lost. -/
def activeTwinOf (s : State) (c : Ctx) (d : Nat) : Option Nat :=
  let now := c.attempt.bind (fun a => (a.notices.find d).bind (fun x => if x.active then x.twin else none))
  let t := match now with
    | some x => some x
    | none => c.lastTwins.find d
  t.bind (fun x => if s.lostDevs.contains x then none else some x)

/-- Mark an engine of every hall suspect: 8 update engine, 9 stack engine (R302, R305). -/
def suspectEngines (s : State) (e : Nat) : State :=
  { s with silent := { s.silent with suspects := (s.silent.suspects ++ (List.range 8).map (fun h => h * 16 + e)).eraseDups } }

/-- Expel an outlier: another member is fenced out of the group, its twin stands in; the own device suspends the context and has its
engines tested (R305). -/
def expel (s : State) (n d : Nat) : State :=
  if d = deviceId s then suspectEngines (suspectEngines (modCtx s n (fun c => { c with suspended := true })) 8) 9
  else
    let t := activeTwinOf s (getCtx s n) d
    let s1 := fence (modCtx s n (fun c => { c with expelled := if c.expelled.contains d then c.expelled else c.expelled ++ [d] })) (n % 1024 + d * 2 ^ 20)
    standIn s1 n d t

/-- The roots in hand for the digest step under vote: device and root. -/
def votes (c : Ctx) (step : Nat) : List (Nat × List Byte) := (c.roots.filter (fun e => e.2.1 == step)).map (fun e => (e.1, e.2.2))

/-- The vote ends in a rollback: the attempt ends with cause ROLLBACK, or the rollback begins at once (R302, R304); the context of an
expelled device is left as it is. -/
def voteFails (s : State) (n : Nat) (stays : Bool) : State :=
  let s1 := modCtx s n (fun c => { c with rollbackDue := stays, voting := false, roots := [] })
  dueRollback (endAttempt s1 n cRollback) n

/-- Decide the vote once every surviving member's root is in; roots that differ start an exchange digest comparison over the steps since the last
agreed one (R302, R306). -/
def decideVote (s : State) (n : Nat) : State :=
  let c := getCtx s n
  match c.plan, c.digest with
  | some p, some (step, _) =>
    let vs := votes c step
    let self := deviceId s
    let want := (peersOf s c p).filter (fun d => !s.lostDevs.contains d)
    if !c.voting || !(vs.any (fun v => v.1 == self)) || !(want.all (fun d => vs.any (fun v => v.1 == d))) then s
    else
      let xs := vs.filter (fun v => v.1 == self || want.contains v.1)
      let count (r : List Byte) : Nat := (xs.filter (fun v => v.2 == r)).length
      if xs.all (fun v => v.2 == ((xs.head?).map (·.2)).getD []) then
        progress (modCtx s n (fun c => { c with voting := false, roots := [], agreed := some step })) n
      else
        let s0 := compareExchange s n (fun k => decide (k ≤ step) && (match c.agreed with
          | some a => decide (a < k)
          | none => true))
        match xs.find? (fun v => decide (xs.length < 2 * count v.2)) with
        | some v => voteFails ((xs.filter (fun x => x.2 != v.2)).foldl (fun s x => expel s n x.1) (setErr s0 pgSilent 2)) n
            (xs.any (fun x => x.1 == self && x.2 == v.2))
        | none => voteFails (suspectEngines (setErr s0 pgSilent 3) 8) n true
  | _, _ => s

/-- The context after a digest rollback's data arrived, an image of the agreed state: parameters, moments and optimizer counters taken,
copies rebuilt, residuals zero, the step counter at A + 1 (R304). -/
def rolledBack (c : Ctx) (p : Plan) (a : Nat) (img : List Byte) : Ctx :=
  let ss := readSections img
  let put (c : Ctx) (role kind : Nat) : Ctx := (p.tensors.filter (fun t => t.role == role)).foldl (fun c t =>
    match ss.find? (fun x => x.1.kind == kind && x.1.tid == t.tid) with
    | some x => c.putTensor t.tid (t.filled x.1.data)
    | none => c) c
  let c1 := put (put c 1 2) 2 3
  let d8 := sectionData ss 8 0
  let c2 := { c1 with
    tensors := c1.tensors.filter (fun e => match p.record e.1 with
      | some r => r.role != 3
      | none => true)
    residual := [], residualNew := [], rollback := [], jslots := [], chanMax := []
    optCtr := (List.range p.opts.length).foldl (fun m i => m.put 0 i (recNat d8 (4 * i) 4)) []
    step := (a + 1) % 2 ^ 32, suspended := true, batch := none, repeatPending := false, digest := none }
  computeScalars (loadCopies p c2)

/-- The fetched state of a digest rollback is here: taken where it is an image that holds together; otherwise nothing was restored
(R304). -/
def rollbackArrived (s : State) (n : Nat) (img : List Byte) (ok : Bool) : State :=
  let c := getCtx s n
  match c.plan, c.agreed with
  | some p, some a =>
    if ok && imageHeaderOk img && sectionsOk (readSections img) then putCtx s n (rolledBack c p a img) else setErr s pgSilent 4
  | _, _ => setErr s pgSilent 4

/-! The commands. -/

/-- DIGEST_ROOT: the root of the digest step is formed and goes to every other member, with D (R300, R301). -/
def execDigestRoot (ctx : Nat) (s : State) : Host.Outcome State Fault Refusal :=
  let c := getCtx s ctx
  match c.plan, c.digest with
  | some p, some (step, root) =>
    if !c.voting || (votes c step).any (fun v => v.1 == deviceId s) then .next s
    else
      let s1 := putCtx s ctx { c with roots := c.roots.insert (deviceId s) (step, root) }
      let ps := (peersOf s c p).filter (fun d => !s.lostDevs.contains d)
      .next (decideVote (ps.foldl (fun s d => sendNear s d 0 4 0 (.root ctx step (digestD s) root)) s1) ctx)
  | _, _ => .next s

/-- ROOT_VOTE: a member's root arrives. A member whose D differs ends the vote, and the next ADMIT is refused (R301, R302). -/
def execRootVote (src ctx step interval : Nat) (root : List Byte) (s : State) : Host.Outcome State Fault Refusal :=
  let c := getCtx s ctx
  match c.plan with
  | none => .next s
  | some p =>
    if !(peersOf s c p).contains src then .next s
    else if interval ≠ digestD s then
      .next (progress (putCtx (setErr s pgSilent 7) ctx { c with configBad := true, voting := false, roots := [] }) ctx)
    else .next (decideVote (putCtx s ctx { c with roots := c.roots.insert src (step, root) }) ctx)

end Sys2Proof.Machine
end

