-- ==== Sys2Proof/Machine/Twin.lean ====
section
/-! DEFINITION. The twin: pairing, seeding, the shadow, heartbeats, the loss of a device, takeover; and the commit-peg commands whose
decision a takeover may wait for (R209, R217, R218, R303, R320, R322, R324-R331, R383). -/

namespace Sys2Proof.Machine

/-! Takeover (R330). -/

/-- Every slot in service, whoever holds it. -/
def allSlots (s : State) : List (Nat × Nat × List Nat) :=
  (List.range 128).map (fun i => (i / 16, i % 16, (List.range 66).filter (fun n => (galAt s (i / 16) (i % 16) n).isSome)))

/-- A context gives up slots to an activated shadow: its attempt ends, its frames are placed again on what is left (R330). -/
def yieldSlots (ms : List Slot) (s : State) (n : Nat) : State :=
  let mine := (getCtx s n).frames.flatMap (·.2)
  let hit := ms.filter (fun m => mine.contains m)
  if hit.isEmpty then s
  else hit.foldl (fun s m => replaceCtx m.hall m.aisle m.slot s n) (hitTraining s n cUnit)

/-- Activate a shadow whose member is lost: on free slots where they suffice, else on slots taken from the own active contexts; its
commit peg stays; where the step is to be repeated it runs the member's share in the repeat (R218, R326, R330). -/
def takeShadow (s : State) (n : Nat) : State :=
  let c := getCtx s n
  let d := c.shadow.member
  let s1 := standIn (putCtx s n { c with shadow := {} }) n d (some (deviceId s))
  let c1 := { getCtx s1 n with slot := some (freeSlot s1) }
  match c1.plan with
  | none => s1
  | some p =>
    let others := activeCtxs s1
    let frames := match placeFrames c1 p c1.table (freeSlots s1) with
      | some f => some f
      | none => placeFrames c1 p c1.table (allSlots s1)
    let r := formActive s1 n c1 p frames true
    if r.status ≠ 0 then r.s
    else
      let ms := (getCtx r.s n).frames.flatMap (·.2)
      let s2 := others.foldl (yieldSlots ms) (modCtx r.s n (fun c => computeScalars (loadCopies p c)))
      if c.repeatPending then awaitRepeat s2 n 1 else s2

/-- Shadows of lost members whose step in progress is decided are activated (R218, R330). -/
def takeovers (s : State) : State :=
  ((s.ctxs.filter (fun e => e.2.shadow.held && e.2.attempt.isNone && s.lostDevs.contains e.2.shadow.member)).map (·.1)).foldl takeShadow s

/-! The loss of a device (R320, R322, R329). -/

/-- A training plan of this device names another device in a group. -/
def inGroup (c : Ctx) (d : Nat) : Bool := match c.plan with
  | some p => p.memberIds.contains d
  | none => false

/-- A device takes part in a context's steps as somebody's twin: this device's own, or one that a notice or a takeover names (R214, R326). -/
def isTwinIn (s : State) (c : Ctx) (d : Nat) : Bool :=
  (s.twin.twin == some d && c.plan.isSome) || c.lastTwins.any (fun e => e.2 == d) || c.moved.any (fun e => e.2 == d) ||
    (match c.attempt with
      | some a => a.notices.any (fun e => e.2.twin == some d)
      | none => false)

/-- The owner tags of a lost device that this one fences: its contexts known here, its link ports at the far end of the own links
(R319, R329). -/
def lostTags (s : State) (d : Nat) : List Nat :=
  ((s.ctxs.filter (fun e => inGroup e.2 d || e.2.shadow.member == d && e.2.shadow.held || isTwinIn s e.2 d)).map (fun e => e.1 % 1024 + d * 2 ^ 20)) ++
    ((s.links.filter (fun e => e.2.seen == some d)).map (fun e => e.2.peerLink + 2 * 2 ^ 18 + d * 2 ^ 20))

/-- Waits that a lost device registered end; operations on it that wait for an answer end FENCED, in a simulation context FAILED (R320,
R322). -/
def revokeWaits (s : State) (d : Nat) : State :=
  let s1 := { s with pegs := s.pegs.map (fun (e : Nat × Peg) => (e.1, { e.2 with waits := e.2.waits.filter (fun w => w.device != some d) })) }
  let gone := s1.pegRefs.filter (fun e => e.2.kind == 4 && e.2.c1 == d)
  gone.foldl (fun s e => addDone { s with pegRefs := s.pegRefs.erase e.1 }
    { e.2 with status := if simCtx s e.2.w.ctx then 0x20 else 0x21, c1 := 0, c2 := 0 }) s1

/-- What the loss of the own twin means: PEER_LOST, seeding abandoned, an UNPAIR that waits ends at once (R327, R331). -/
def twinGone (s : State) (d : Nat) : State :=
  if s.twin.twin ≠ some d then s
  else
    let s1 := if s.twin.state = 1 then setErr s pgTwin 1 else s
    let s2 := setErr { s1 with twin := { s1.twin with state := 4, seedLeft := 0 } } pgTwin 0
    if s2.twin.unpair.isSome then endPairing s2 else s2

/-- A context after the loss of a device of its groups: a simulation context is suspended (R322); in a training context the member's
active twin stands in, or its place stays vacant (R196, R218). -/
def groupLoss (d : Nat) (s : State) (n : Nat) : State :=
  let c := getCtx s n
  if !inGroup c d || c.shadow.held then s
  else if simCtx s n then putCtx s n { c with suspended := true }
  else standIn s n d (if s.twin.member = some d then some (deviceId s) else activeTwinOf s c d)

/-- What the loss of the own member means: the shadows that took no part in the step return to their pre-step state, and every shadow
is activated once its step is decided; the device serves (R218, R330). -/
def memberGone (s : State) (d : Nat) : State :=
  if s.twin.member ≠ some d then s
  else
    let mine := (s.ctxs.filter (fun e => e.2.shadow.held && e.2.shadow.member == d && e.2.attempt.isNone)).map (·.1)
    takeovers (mine.foldl (fun s n => modCtx (shadowRevert s n) n (fun c => { c with
      repeatPending := c.repeatPending || !(getCtx s n).shadow.pre.isEmpty || (getCtx s n).shadow.summary.isSome })) { s with twin := { s.twin with serving := true } })

/-- A device is lost: fenced, revoked, reclaimed; its links are rerouted around; the steps it took part in are decided; the twin takes
over (R217, R218, R320, R329). -/
def deviceLost (s : State) (d ns : Nat) : State :=
  if s.lostDevs.contains d || d == deviceId s then s
  else
    let s1 := beginRecovery s 6 0 d cPartyLost false
    let s2 := revokeWaits ((lostTags s1 d).foldl fence { s1 with lostDevs := s1.lostDevs ++ [d] }) d
    let ls := (s2.links.filter (fun e => e.2.peer == d && (e.2.state == 2 || e.2.state == 3))).map (·.1)
    let s3 := ls.foldl (fun s l => stopLink s l 4) s2
    let cs := s3.ctxs.map (·.1)
    let s4 := cs.foldl (fun s n => partyLost s n d) (twinGone s3 d)
    let s5 := memberGone (cs.foldl (groupLoss d) s4) d
    let s6 := cs.foldl decideVote s5
    settleRecovery (recoveryWaits s6 (interrupted_ s6 cs) ns)

/-- Who a declaring device tells: members of every group of the lost device known here, parties of their steps in progress (R329). -/
def lostReaders (s : State) (d : Nat) : List Nat :=
  ((s.ctxs.filter (fun e => inGroup e.2 d || e.2.shadow.member == d || s.twin.twin == some d)).flatMap (fun e => match e.2.plan, e.2.attempt with
    | some p, some a => p.memberIds ++ instances s e.2 p a
    | some p, none => p.memberIds
    | none, _ => [])).eraseDups.filter (fun x => x != d && x != deviceId s && !s.lostDevs.contains x)

/-- The bytes of a LOST control flit: kind 2, the lost device (R342). -/
def lostBytes (d : Nat) : List Byte := natLe 2 1 ++ natLe d 2

/-- Declare a device lost and send the notices (R329). -/
def declare (s : State) (d ns : Nat) : State :=
  if s.lostDevs.contains d || d == deviceId s then s
  else
    let s1 := (lostReaders s d).foldl (fun s x => sendNear s x 0 4 0 (.lost d)) s
    let s2 := ((List.range 48).filter (fun n => linkRuns s1 n && (getLink s1 n).peer != d)).foldl (fun s n => sendControl s n (lostBytes d)) s1
    deviceLost s2 d ns

/-! Heartbeats (R329). -/

/-- A beat arrives. One from a device that is neither twin nor member makes its sender the member, since only a member and its twin
exchange beats (log entry 33). A DOWN beat declares the sender lost at once. -/
def beatIn (s : State) (src : Nat) (down : Bool) : State :=
  let s1 := if s.twin.twin = some src ∨ s.twin.member.isSome ∨ s.lostDevs.contains src then s
    else { s with twin := { s.twin with member := some src } }
  if !(beatPeers s1).contains src then s1
  else if down then declare s1 src 0
  else { s1 with twin := { s1.twin with heard := if s1.twin.heard.contains src then s1.twin.heard else s1.twin.heard ++ [src] } }

/-- HEARTBEAT. -/
def execHeartbeat (src _seq : Nat) (down : Bool) (s : State) : Host.Outcome State Fault Refusal := .next (beatIn s src down)

/-- HEARTBEAT_PERIOD: periods without a beat are counted, the own beats are sent (R317, R329). -/
def execHeartbeatPeriod (s : State) : Host.Outcome State Fault Refusal :=
  let ps := beatPeers s
  let quiet := ps.filter (fun d => !s.twin.heard.contains d)
  let missed := ps.foldl (fun (m : SMap Nat) d => m.put 0 d (if s.twin.heard.contains d then 0 else s.twin.missed.get 0 d + 1)) []
  let s1 := bumpSat { s with twin := { s.twin with missed := missed, heard := [] } } pgTwin Reg.TW_MISSES 31 0 quiet.length
  .next (if s.power.lost then s1 else sendBeats s1 false)

/-- HEARTBEAT_MISS: a peer of which three periods in a row brought no beat is declared lost (R329). -/
def execHeartbeatMiss (ns : Nat) (s : State) : Host.Outcome State Fault Refusal :=
  .next (((beatPeers s).filter (fun d => decide (3 ≤ s.twin.missed.get 0 d))).foldl (fun s d => declare s d ns) s)

/-- LOST: a notice arrives (R329). -/
def execLost (_src device ns : Nat) (s : State) : Host.Outcome State Fault Refusal := .next (deviceLost s device ns)

/-! The shadow (R325, R326, R328). -/

/-- A record enters the shadow: a seed (it carries no gradient) sets what the step has not mirrored yet; a mirror record saves the old
values and is written as the member's engine wrote it (R159, R327, R328; log entry 34). -/
def applyMirror (c : Ctx) (p : Plan) (m : MirrorRec) : Ctx :=
  match p.record m.tid with
  | none => c
  | some t =>
    let key := sliceKey m.tid m.slice
    let data := m.params :: m.moments
    if m.grad.isEmpty then (if (c.shadow.pre.find key).isSome then c else restoreSlice c p t m.slice data)
    else if m.step < c.step then c
    else
      let old := oldState c p t m.slice
      let x := { c.shadow with pre := if (c.shadow.pre.find key).isSome then c.shadow.pre else c.shadow.pre.insert key old }
      (putSlice { c with shadow := x } p t m.slice data).ctx

/-- Bind the three pegs of a new shadow; none when too few are free (R326). -/
def shadowPegs (s : State) (n : Nat) : Option (State × List Nat) :=
  [0xFFFFFFFF, 1, 1].foldl (fun (acc : Option (State × List Nat)) t => acc.bind (fun r =>
    (findPeg r.1 0).map (fun k => (bindPeg r.1 k n t, r.2 ++ [k])))) (some (s, []))

/-- The first record of a context makes its shadow: RESIDENT, three pegs, the member's state fetched as an image, which brings plan,
seed and counters (R324-R326; log entry 35). -/
def startShadow (s : State) (n d : Nat) : State :=
  match shadowPegs s n with
  | none => s
  | some (s1, ks) =>
    let s2 := putCtx s1 n { getCtx s1 n with state := 1, commitPegs := ks, shadow := { held := true, member := d } }
    sendBundle (startXfer s2 0xFFFF (.shadow n)).2 d 2 2 0 (.fetch n)

/-- The member's state arrives at the twin: the shadow filled, the records that waited applied (R325). The table beside the plan is that of
R324, from which the shadow is placed (R330; log entry 177). -/
def shadowArrived (s : State) (n : Nat) (img : List Byte) (ok : Bool) : State :=
  let c := getCtx s n
  let ss := readSections img
  let d1 := sectionData ss 1 0
  let len := recNat d1 8 4
  let pimg := d1.take len
  if !c.shadow.held || c.plan.isSome then s
  else if !ok || !imageHeaderOk img || !sectionsOk ss || (planErr (genOf s) none pimg).isSome then s
  else
    let p := readPlan pimg
    let table := readTable (d1.drop len)
    let c0 : Ctx := { c with journal := bit (recNat img 0 8) 52, seed := if bit (recNat img 0 8) 53 then some (BitVec.ofNat 64 (recNat img 8 8)) else none,
                             step := recNat img 16 4, evalno := recNat img 20 4, plan := some p, table := table }
    let c1 := fillContext c0 p ss
    match bindHomes s c1 p table true with
    | none => s
    | some c2 =>
      let c3 := c.shadow.wait.foldl (fun c m => applyMirror c p m) { loadCopies p c2 with residual := [] }
      putCtx s n { c3 with shadow := { c3.shadow with wait := [] } }

/-- Acknowledge to the member (R215). -/
def ackMirror (s : State) (d n : Nat) (summary : Bool) : State := sendBundle s d 2 2 0 (.mirrorAck n summary)

/-- The device's own context of a member's number belongs to the member's group: its weights are the shadow (R330; log entry 36). -/
def ownShare (c : Ctx) (d : Nat) : Bool := c.state != 0 && !c.shadow.held && inGroup c d

/-- The parties of a step as a twin's attempt holds them: its member under the own name, every other party under its own. -/
def partyNotices (self d : Nat) (parties : List Nat) : SMap Notice :=
  (parties.filter (fun q => q != self && q != d)).foldl (fun m q => SMap.insert q ⟨some q, true⟩ m)
    (SMap.insert self ⟨some d, true⟩ (SMap.insert d ⟨some self, true⟩ []))

/-- The twin's arrive on COMMIT where its shadow is its own context: one more on every instance (R214, R215). -/
def arriveBeside (s : State) (n : Nat) (m : StepSummary) : State :=
  let c := getCtx s n
  let s1 := match c.commitPegs.head? with
    | some k => (pegOpOn s k (ctxTag s n) .arrive 1 { ctx := n }).s
    | none => s
  commitWatch ((m.parties.filter (fun q => q != deviceId s)).foldl (fun s q => sendPegOp s n q (commitPlanPeg 0) 0 1 noCause m.step) s1) n

/-- The shadow holds a mirror record of every slice that the step updates (R215). -/
def holdsRecords (c : Ctx) : Bool :=
  match c.plan with
  | some p => (updatedLayers c p).all (fun x => allMirrored c x.2.2)
  | none => false

/-- Summary and records are all here: the twin is ready and arrives on COMMIT (R215). -/
def summaryReady (s : State) (n d : Nat) : State :=
  let c := getCtx s n
  match c.shadow.summary with
  | some m =>
    if c.attempt.isSome || !holdsRecords c then s
    else
      let a : Attempt := { step := m.step, phase := 6, ready := true, notices := partyNotices (deviceId s) d m.parties, limits := limitsNow s }
      takeovers (progress (putCtx s n { c with attempt := some a }) n)
  | none => s

/-- MIRROR_RECORD (R328). The last one a summary waited for makes the twin ready (R215). The slices it writes count in no UE register (log
entry 163). -/
def execMirrorRecord (m : MirrorRec) (s : State) : Host.Outcome State Fault Refusal :=
  match s.twin.member with
  | none => .next s
  | some d =>
    if s.lostDevs.contains d then .next s
    else if ownShare (getCtx s m.ctx) d then .next (ackMirror s d m.ctx false)
    else
      let s1 := if (getCtx s m.ctx).state = 0 then startShadow s m.ctx d else s
      let c := getCtx s1 m.ctx
      if !c.shadow.held then .next s1
      else
        let c1 := match c.plan with
          | some p => applyMirror c p m
          | none => { c with shadow := { c.shadow with wait := c.shadow.wait ++ [m] } }
        .next (summaryReady (ackMirror (putCtx s1 m.ctx c1) d m.ctx false) m.ctx d)

/-- STEP_SUMMARY: kept and acknowledged; the twin arrives on COMMIT once it holds every mirror record too (R215, R450). -/
def execStepSummary (m : StepSummary) (s : State) : Host.Outcome State Fault Refusal :=
  match s.twin.member with
  | none => .next s
  | some d =>
    let c := getCtx s m.ctx
    if s.lostDevs.contains d then .next s
    else if ownShare c d then .next (arriveBeside (ackMirror s d m.ctx true) m.ctx m)
    else if !c.shadow.held || c.plan.isNone || c.attempt.isSome then .next s
    else .next (summaryReady (ackMirror (putCtx s m.ctx { c with shadow := { c.shadow with summary := some m } }) d m.ctx true) m.ctx d)

/-- MIRROR_ACKNOWLEDGEMENT: a record or the summary is at the twin; the member may then arrive (R215). -/
def execMirrorAcknowledgement (ctx : Nat) (summary : Bool) (s : State) : Host.Outcome State Fault Refusal :=
  .next (progress (modAttempt s ctx (fun a =>
    if summary then { a with summaryAcked := a.summarySent } else { a with mirrorLeft := a.mirrorLeft - 1 })) ctx)

/-- SEEDING_DONE: every slice is seeded or mirrored; protection becomes PENDING (R327). -/
def execSeedingDone (s : State) : Host.Outcome State Fault Refusal :=
  if s.twin.state = 1 then .next { s with twin := { s.twin with state := 2, seedLeft := 0 } } else .next s

/-! PAIR and UNPAIR (R324, R331). -/

/-- Links in some applied trunk mask. -/
def trunked (s : State) (links : Nat) : Bool := s.router.trunks.any (fun e => e.2 &&& links != 0)

/-- PAIR is not allowed (R324). -/
def pairBarred (s : State) (twin links : Nat) : Bool :=
  let k := ((List.range 48).filter (fun n => bit links n)).length
  s.twin.twin.isSome || twin == deviceId s || decide (4096 ≤ twin) || k == 0 || decide (4 < k) || decide (2 ^ 48 ≤ links) || trunked s links

/-- The command arrived on a ring. -/
def Origin.onRing : Origin → Bool
  | .ring _ _ _ => true
  | _ => false

/-- PAIR: checked, then its table is read (R324, R368). -/
def doPair (s : State) (o : Origin) (twin links : Nat) (table : BufRef) : State :=
  if o.onRing || pairBarred s twin links then answer s o stNotAllowed
  else
    let st := bufStatus s table (8 * 4096) false
    if st ≠ 0 then answer s o st else startRead s table (.pairTable o twin links)

/-- Bytes of the committed state of a context that seeding sends (R327). -/
def seedBytes (p : Plan) : Nat := (p.params.map (fun t => t.elems * (2 + 2 * p.nmom t.tid))).sum

/-- Send a context's slices as seeds (R327). -/
def seedCtx (d : Nat) (s : State) (n : Nat) : State :=
  match (getCtx s n).plan with
  | none => s
  | some p => p.params.foldl (fun s t => (List.range (sliceCountOf t)).foldl (fun s o =>
      let k := (sliceIdx t o).length * (2 + 2 * p.nmom t.tid)
      bump64 (sendBundle s d 2 2 k (.seed n t.tid o)) pgTwin Reg.TW_MIRROR_LO k) s) s

/-- The table of PAIR is here: the pairing begins with seeding (R324, R327). -/
def pairArrived (s : State) (o : Origin) (twin links : Nat) (tbl : List Byte) : State :=
  if pairBarred s twin links then answer s o stNotAllowed
  else if tbl.length % 8 ≠ 0 || !tableOk (tbl.length / 8) tbl then refuse s o stPlanInvalid []
  else
    let ns := (s.ctxs.filter (fun e => e.2.mirrored)).map (·.1)
    let left := (ns.map (fun n => match (getCtx s n).plan with
      | some p => seedBytes p
      | none => 0)).sum
    let s1 := { s with twin := { s.twin with state := 1, twin := some twin, links := links, table := readTable tbl, seedLeft := left } }
    ns.foldl (seedCtx twin) (answer (sendBundle s1 twin 0 4 0 (.pairing twin true)) o stOk)

/-- UNPAIR by the state it meets (R331). -/
def doUnpair (s : State) (o : Origin) : State :=
  if o.onRing then answer s o stNotAllowed
  else if s.twin.serving then answer { s with twin := { s.twin with serving := false, member := none } } o stOk
  else if s.twin.twin.isSome then
    if s.twin.unpair.isSome then answer s o stNotAllowed
    else if s.twin.state = 4 then endPairing { s with twin := { s.twin with unpair := some o } }
    else noteUnpair { s with twin := { s.twin with unpair := some o } }
  else if s.twin.member.isSome then answer s o stNotAllowed
  else answer s o stOk

/-! The commit-peg commands. -/

/-- Some member wrote without a journal and ended the attempt NO_JOURNAL, as it tells after this party decided on less: the attempt is ABANDONED
here too (R220; log entry 171). -/
def lateNoJournal (s : State) (m : PegMsg) : State :=
  let c := getCtx s m.ctx
  let low (o : Nat) : Bool := o == 1 || o == 2
  if m.cause ≠ cNoJournal then s
  else match c.attempt with
    | some a =>
      if a.step = m.step ∧ low (a.outcome.getD 0) = true then
        setErr (putCtx s m.ctx { c with lastCause := cNoJournal, lastDevice := m.src, attempt := some { a with outcome := some 3 } }) pgStep 4
      else s
    | none =>
      if c.lastStep = m.step ∧ c.step = m.step ∧ low c.lastOutcome = true then
        setErr (putCtx s m.ctx { c with lastOutcome := 3, lastCause := cNoJournal, lastDevice := m.src, suspended := true, repeatPending := false,
                                        batch := none }) pgStep 4
      else s

/-- REMOTE_PEG_OP (R383): applied and answered; a cause message is kept with the arrive it travels with (R209, R450). -/
def execRemotePegOp (m : PegMsg) (s : State) : Host.Outcome State Fault Refusal :=
  let told := m.op == 0 && m.cause != 0 && mayOperate s m.ctx m.src && !s.fence.contains m.tag
  let s1 := if told then modAttempt s m.ctx (fun a =>
      if a.step = m.step ∧ a.outcome = none then { a with told := a.told ++ [⟨outcomeOf m.cause, m.cause, m.src⟩] } else a) else s
  let s1 := if told then lateNoJournal s1 m else s1
  .next (takeovers (commitWatch (remotePegOp s1 m) m.ctx))

/-- PEG_ACK (R383): the answer to a closing query is an instance's value (R217); any other completes the sender's work order. -/
def execPegAck (ref status count target : Nat) (s : State) : Host.Outcome State Fault Refusal :=
  match s.pegRefs.find ref with
  | some d =>
    if d.kind = 14 then
      .next (takeovers (finishDecision (modAttempt { s with pegRefs := s.pegRefs.erase ref } d.w.ctx (fun a =>
        { a with asked := a.asked.erase ref, answers := if status = 0 then a.answers ++ [(count, target)] else a.answers })) d.w.ctx))
    else .next (pegAcked s ref status count target)
  | none => .next s

/-- COMMIT_TIMEOUT (R217, R450): after the party's own arrive, or after it was ready and a notice is still missing. -/
def execCommitTimeout (ctx : Nat) (s : State) : Host.Outcome State Fault Refusal :=
  match (getCtx s ctx).attempt with
  | some a =>
    if a.outcome.isSome || !(a.vote.isSome || a.ready || !a.causes.isEmpty) then .next s
    else .next (takeovers (commitWatch (modAttempt s ctx (fun a => { a with timedOut := true })) ctx))
  | none => .next s

end Sys2Proof.Machine
end

