-- ==== Sys2Proof/Machine/Silent.lean ====
section
/-! DEFINITION. Silent errors: duplicates and their arbitration, gallery tests, tests of hall-edge engines, requested self-tests, probe
packs (R15, R18, R297-R299, R307-R312, R315). -/

namespace Sys2Proof.Machine

/-! Duplicates (R297-R299). -/

/-- Replace a sampled tile's record. -/
def setDup (s : State) (n i : Nat) (d : Option DupExec) : State :=
  modCtx s n (fun c => { c with dups := match d with
    | some x => c.dups.set i x
    | none => c.dups.eraseIdx i })

/-- A mismatch ends the attempt with cause DUPLICATE, a pass FAILED, a simulation work order with status FAILED (R299). -/
def dupEnds (s : State) (w : WoHdr) : State :=
  let c := getCtx s w.ctx
  if simCtx s w.ctx && c.attempt.isNone && c.evalRun.isNone then
    (if c.done.any (fun d => d.w == w) then
      putCtx s w.ctx { c with done := c.done.map (fun d => if d.w = w then { d with status := 0x20 } else d) }
    else addDone s { w := { w with donePeg := 0xFFFF }, kind := 6, status := 0x20 })
  else hitTraining s w.ctx cDuplicate

/-- A gallery that lost an arbitration: quarantined in service, a spare has failed its test; it remembers the context (R299, R315
PERSIST_ROLLBACK). -/
def dupLoser (s : State) (n k : Nat) : State := modGal (galleryFaultFree s k cUnit) k (fun g => { g with blame := some n })

/-- DUPLICATE_EXECUTION: the duplicate's digest against the original's; on a mismatch a third run follows (R297-R299). -/
def execDuplicateExecution (ctx index digest : Nat) (s : State) : Host.Outcome State Fault Refusal :=
  match (getCtx s ctx).dups[index]? with
  | none => .next s
  | some d =>
    if d.digests.length ≠ 1 then .next s
    else
      let s1 := bumpSat s pgSilent Reg.SE_DUPS 31 0 1
      if d.digests.head? = some digest then .next (progress (setDup s1 ctx index none) ctx)
      else
        let s2 := bumpSat s1 pgSilent Reg.SE_MISMATCH 31 0 1
        match dupGallery s2 (getCtx s2 ctx) d.w (d.gals.map aisleIdx) with
        | some k => .next (setDup s2 ctx index (some { d with gals := d.gals ++ [k], digests := d.digests ++ [digest] }))
        | none => .next (dupEnds (d.gals.foldl suspectGal (setErr (setDup s2 ctx index none) pgSilent 1)) d.w)

/-- THIRD_EXECUTION: two digests that agree name the loser; three that differ make all suspect (R299). -/
def execThirdExecution (ctx index digest : Nat) (s : State) : Host.Outcome State Fault Refusal :=
  match (getCtx s ctx).dups[index]? with
  | none => .next s
  | some d =>
    match d.digests, d.gals with
    | [x, y], [g0, g1, g2] =>
      let s1 := setDup s ctx index none
      if digest = x then .next (dupLoser (dupEnds (setErr s1 pgSilent 0) d.w) ctx g1)
      else if digest = y then .next (dupLoser (dupEnds (setErr s1 pgSilent 0) d.w) ctx g0)
      else if x = y then .next (dupLoser (dupEnds (setErr s1 pgSilent 0) d.w) ctx g2)
      else .next ([g0, g1, g2].foldl suspectGal (dupEnds (setErr s1 pgSilent 1) d.w))
    | _, _ => .next s

/-! Tests of galleries (R308, R311, R312). -/

/-- The next probe pack of the round robin that a gallery has not run at its version. -/
def nextPack (s : State) (g : Gallery) : Option (Nat × Pack) :=
  let k := s.boot.packs.length
  let order := (List.range k).map (fun i => (s.silent.probe + i) % k)
  order.findSome? (fun i => (s.boot.packs[i]?).bind (fun p => if g.packs.contains (p.id, p.version) then none else some (i, p)))

/-- A spare that passed its test and has nothing to do takes up a probe pack (R312). -/
def startProbe (s : State) (k : Nat) : State :=
  let g := getGal s k
  if g.state ≠ 1 ∨ g.probing.isSome then s
  else match nextPack s g with
    | some (i, p) => { putGal s k { g with probing := some p.id } with silent := { s.silent with probe := i + 1 } }
    | none => s

/-- A gallery failed a test, which is logged (R308). -/
def testFails (s : State) (k step : Nat) : State :=
  markFailed (logFault s { kind := 4, device := deviceId s, unit := unitOfKey k, d0 := 1, d1 := step }) k

/-- PERSIST_ROLLBACK: a gallery quarantined by an arbitration that then fails its test brings its context to a digest rollback (R304,
R315). -/
def persistRollback (s : State) (g : Gallery) : State :=
  match g.blame with
  | some n =>
    if fld s pgSilent Reg.SE_CTRL 12 12 = 1 ∧ !simCtx s n then
      dueRollback (endAttempt (modCtx s n (fun c => { c with rollbackDue := true })) n cRollback) n
    else s
  | none => s

/-- A pipeline failed its known-answer test (R177). -/
def katFail (s : State) : State :=
  let p := pgReference
  setErr (regSet s p Reg.RN_ERR (setBits (regGet s p Reg.RN_ERR) 31 16 (min 65535 (fld s p Reg.RN_ERR 31 16 + 1)))) p 0

/-- GALLERY_TEST: the gallery test ends (R308, R18): a pass makes the gallery healthy and eligible, takes its tags out of the fence
table, and fills an empty slot. The parts are numbered 1 to 6 in the order R308 lists them: a failure in part 6 is a known-answer
failure of the joiner's pipeline (R177). -/
def execGalleryTest (hall aisle gallery : Nat) (pass_ : Bool) (test : Nat) (s : State) : Host.Outcome State Fault Refusal :=
  let k := galKey (hall % 8) (aisle % 16) (gallery % 68)
  let g := getGal s k
  if g.state ≠ 2 ∨ !g.testing then .next s
  else if pass_ then
    let s1 := logFault s { kind := 4, device := deviceId s, unit := unitOfKey k }
    let s2 := { s1 with fence := s1.fence.filter (fun t => !g.tags.contains t) }
    let s3 := putGal s2 k { g with state := 1, fails := 0, suspect := false, testReq := false, quar := false, testing := false, mustPass := false, tags := [], blame := none }
    .next (startProbe (aisleSwaps (refill s3 (hall % 8) (aisle % 16)) (hall % 8) (aisle % 16)) k)
  else
    let s0 := if test = 6 then katFail s else s
    .next (persistRollback (aisleSwaps (setErr (testFails s0 k test) pgSilent 6) (hall % 8) (aisle % 16)) g)

/-- PROBE_RESULT: a pack finishes on a spare; its record is delivered; a failure counts as a failed gallery test (R312). -/
def execProbeResult (hall aisle gallery pack result firstFail : Nat) (s : State) : Host.Outcome State Fault Refusal :=
  let k := galKey (hall % 8) (aisle % 16) (gallery % 68)
  let g := getGal s k
  if g.state ≠ 1 ∨ g.probing ≠ some pack ∨ 2 ≤ result then .next s
  else
    let v := ((s.boot.packs.find? (fun x => x.id == pack)).map (·.version)).getD 0
    let s1 := pushRec s 3 0xFFFF (natLe (unitOfKey k) 4 ++ natLe pack 4 ++ natLe v 4 ++ natLe result 1 ++ natLe 0 3 ++
      natLe (if result = 0 then 0xFFFFFFFF else firstFail) 4)
    let s2 := putGal s1 k { g with probing := none, packs := g.packs.filter (fun x => x.1 != pack) ++ [(pack, v)] }
    if result = 0 then .next (startProbe s2 k) else .next (setErr (testFails s2 k 0) pgSilent 5)

/-! Requested self-tests (R309). -/

/-- Quarantine a gallery at once and test it: what it ran ends (R309 FORCE, R322). A spare starts its test. -/
def forceOne (s : State) (k : Nat) : State :=
  let g := getGal s k
  if g.state = 0 then
    let h := keyHall k
    let a := keyAisle k
    let hs := holdersOf s h a g.slot
    let s1 := hs.foldl (fun s n => if simCtx s n then s else hitTraining s n cUnit) s
    let s2 := modGal (swapGallery s1 k true false) k (fun g => { g with testReq := true })
    hs.foldl (fun s n => if simCtx s n then failMember s n h a g.slot else s) s2
  else requestOne s k

/-- The first in-service gallery of an aisle among some, the one that FORCE takes at once; the others wait their turn (R309). -/
def forceAisle (s : State) (ks : List Nat) : State :=
  match ks.find? (fun k => (getGal s k).state == 0) with
  | some k => (ks.filter (· != k)).foldl requestOne (forceOne s k)
  | none => ks.foldl requestOne s

/-- A self-test request by physical identifier of depth 1 to 3; it wakes a sleeping hall (R12, R309, R397). -/
def requestTest (s0 : State) (u : Nat) (force : Bool) : State :=
  let s := wakeHall s0 (bits u 28 25)
  let ks := unitGals u
  if force then ((ks.map aisleOf).eraseDups).foldl (fun s a => forceAisle s (ks.filter (fun k => aisleOf k == a))) s
  else ks.foldl requestOne s

/-- The identifier names a hall, an aisle or a gallery. -/
def testable (s : State) (u : Nat) : Bool := unitNamed s u && decide (1 ≤ bits u 31 29 ∧ bits u 31 29 ≤ 3)

/-- SELF_TEST (R11, R309). -/
def doSelfTest (s : State) (o : Origin) (u : Nat) (force : Bool) : State :=
  if testable s u then answer (requestTest s u force) o stOk else answer s o stUnitInvalid

/-- A write to SE_TEST: any other value is ignored and logged as UNIT_INVALID (R309, R315). -/
def seTestWrite (s : State) (u : Nat) : State :=
  if testable s u then requestTest s u (fld s pgSilent Reg.SE_TESTOPT 0 0 == 1)
  else logFault s { kind := 11, device := deviceId s, unit := u }

/-- SE_TEST. -/
def execSeTest (x : Word) (s : State) : Host.Outcome State Fault Refusal := .next (seTestWrite s x.toNat)

/-! Hall-edge engines (R310, R316). -/

/-- No active frame lies in a hall. -/
def hallFree_ (s : State) (h : Nat) : Bool :=
  !(s.ctxs.any (fun e => e.2.state == 2 && e.2.frames.any (fun f => f.2.any (fun m => m.hall == h))))

/-- Contexts with frames in a hall. -/
def hallContexts (s : State) (h : Nat) : List Nat :=
  (s.ctxs.filter (fun e => e.2.state == 2 && e.2.frames.any (fun f => f.2.any (fun m => m.hall == h)))).map (·.1)

/-- The class 8 action: the mover is fenced and retired for good, its queue taken by the hall's others, attempts end with cause UNIT
(R310, R316). -/
def retireMover (s : State) (h m ns : Nat) (lease : Bool) : State :=
  let tag := moverTag s h m
  let s1 := fence (beginRecovery s 8 tag (deviceId s) cUnit lease) tag
  let s2 := logFault { s1 with silent := { s1.silent with movers := if s1.silent.movers.contains (h * 8 + m) then s1.silent.movers else s1.silent.movers ++ [h * 8 + m] } }
    { kind := 3, cls := 8, device := deviceId s, unit := tag, d0 := cUnit }
  let hs := hallContexts s2 h
  let s3 := hs.foldl (fun s n => if simCtx s n then s else hitTraining s n cUnit) s2
  settleRecovery (recoveryWaits s3 (interrupted_ s3 hs) ns)

/-- HALL_EDGE_ENGINE_TEST: movers 0 to 7, update engine 8, stack engine 9; tested only while the hall has no active frame (R309,
R310). A failed update engine may have failed its known-answer test (R177). -/
def execHallEdgeEngineTest (hall engine : Nat) (result : EngineResult) (s : State) : Host.Outcome State Fault Refusal :=
  let h := hall % 8
  if !hallFree_ s h || decide (10 ≤ engine) then .next s
  else
    let s1 := { s with silent := { s.silent with suspects := s.silent.suspects.erase (h * 16 + engine) } }
    if result = .pass then .next s1
    else if engine ≤ 7 then .next (retireMover s1 h engine 0 false)
    else
      let s1 := if result = .failKat ∧ engine = 8 then katFail s1 else s1
      let s2 := logFault { s1 with boot := { s1.boot with failedUnit := some (h * 16 + engine) } }
        { kind := 3, cls := 6, device := deviceId s, unit := hallUnit h, d0 := cUnit }
      .next (declareLost s2 (hallUnit h) cUnit)

end Sys2Proof.Machine
end

