-- ==== Sys2Proof/Machine/Faults.lean ====
section
/-! DEFINITION. Faults of galleries, movers and hub blocks, leases, HBM lines that are uncorrectable, scrub, row retirement, retraining
windows (R73, R135, R314, R316, R317, R319, R332-R336, R340). -/

namespace Sys2Proof.Machine

def cMemUe : Nat := 0x16
def cMemLost : Nat := 0x26

/-! Units (R316, R317, R319). -/

/-- SLOT_PAR: with the array's SLOT_PAR_EN set the tile of bay F, X or W is aborted, its error bit set and its gallery faulty (R73, R127,
R128). -/
def execSlotPar (hall aisle : Nat) (at_ : BayOf) (ns : Nat) (s : State) : Host.Outcome State Fault Refusal :=
  let k := galKey (hall % 8) (aisle % 16) (at_.gallery % 68)
  let fault (p : Page) (i : Nat) : State := galleryFault (setErr s p i) k cUnit ns false
  match at_.bay with
  | 0 => if fld s (faPg k) Reg.FA_CTRL 1 1 = 0 then .next s else .next (fault (faPg k) 3)
  | 1 => if fld s (baPg k) Reg.BA_CTRL 0 0 = 0 then .next s else .next (fault (baPg k) 2)
  | _ => if fld s (baPg k) Reg.BA_CTRL 0 0 = 0 then .next s else .next (fault (baPg k) 5)

/-- SRAM_UE: an uncorrectable word in a gallery's SRAM, or in a hub block's (R316, R317, R333). -/
def execSramUe (gallery : Option Nat) (hub ns : Nat) (s : State) : Host.Outcome State Fault Refusal :=
  match gallery with
  | some k => if k < 8704 then .next (galleryFault s k cUnit ns false) else .next s
  | none => .next (declareLost s hub cUnit)

/-- LEASE_EXPIRY: a local unit's lease ran out, a fault of the unit by its owner tag (R316, R319). A tag names a slot, so the fence against the
gallery that left it does not shield the one that came in. -/
def execLeaseExpiry (tag ns : Nat) (s : State) : Host.Outcome State Fault Refusal :=
  let u := bits tag 3 0
  if bits tag 31 20 ≠ deviceId s ∨ bits tag 19 18 ≠ 1 then .next s
  else if 8 ≤ u then .next (retireMover s (bits tag 17 15) (u - 8) ns true)
  else match galAt s (bits tag 17 15) (bits tag 14 11) (bits tag 10 4) with
    | some k => if u ≤ 4 then .next (galleryFault s k cUnit ns true) else .next s
    | none => .next s

/-- MOVER_FAULT (R316). -/
def execMoverFault (hall mover ns : Nat) (s : State) : Host.Outcome State Fault Refusal :=
  .next (retireMover s (hall % 8) (mover % 8) ns false)

/-- HUB_BLOCK_FAULT (R317). -/
def execHubBlockFault (unit : Nat) (s : State) : Host.Outcome State Fault Refusal := .next (declareLost s unit cUnit)

/-! Rows (R335). -/

/-- RETIRE_THR; 0 acts as 1 (R340). -/
def retireThr (s : State) (h : Nat) : Nat := max 1 (fld s (pgMemory h) Reg.MC_CTRL 15 8)

/-- Corrected-symbol events of the row of a line; the row is retired at the threshold (R335). -/
def correctedRow (h : Nat) (s : State) (x : Nat × Nat) : State :=
  let row := Config.rowOf x.1
  let m := getMc s h
  if x.2 = 0 || m.retired.contains row then s
  else
    let n := m.events.get 0 row + x.2
    let s1 := putMc s h { m with events := m.events.insert row n }
    if retireThr s h ≤ n then retireRow s1 h row else s1

/-- SCRUB_PERIOD: one pass over the stack, atomic here: the lines it corrected, by address, with their events; a sleeping hall wakes for
it and returns to sleep (R334; log entry 37). -/
def execScrubPeriod (hall : Nat) (corrected : List (Nat × Nat)) (s : State) : Host.Outcome State Fault Refusal :=
  let h := hall % 8
  if fld s (pgMemory h) Reg.MC_CTRL 0 0 = 0 then .next s
  else
    let n := (corrected.filter (fun x => x.2 != 0)).length
    .next (corrected.foldl (correctedRow h) (bumpSat s (pgMemory h) Reg.MC_CE 31 0 n))

/-! Uncorrectable lines (R135, R333, R336). -/

/-- The values of a lost slice that no twin restores: free values (R336; log entry 6). -/
def lostSlice (s : State) (n tid ord : Nat) : State :=
  let c := getCtx s n
  match c.plan, c.plan.bind (fun p => p.record tid) with
  | some p, some t =>
    let old := oldState c p t ord
    let k := (sliceIdx t ord).length
    let data := old.mapIdx (fun j l => l.mapIdx (fun i _ => (Config.freeWord (s.freeCtr + j * k + i)).toNat % 65536))
    { putCtx s n (restoreSlice c p t ord data) with freeCtr := s.freeCtr + old.length * k }
  | _, _ => s

/-- Contents that only a twin could restore: without an active one the attempt ends ABANDONED, the context is suspended (R336). -/
def memLost (s : State) (n : Nat) : State :=
  endAttempt (modCtx s n (fun c => { c with suspended := true, lastCause := if c.attempt.isNone then cMemLost else c.lastCause })) n cMemLost

/-- Restore a line by what it holds (R336). A live forward copy is rebuilt to what it was; inactive copies go with the attempt. -/
def restoreLine (s : State) (addr : Nat) : LineHolds → State
  | .params n tid ord => if twinActive s then s else memLost (lostSlice s n tid ord) n
  | .journal n tid ord => modCtx s n (fun c => match c.jslots.find (sliceKey tid ord) with
      | some j => { c with jslots := c.jslots.insert (sliceKey tid ord) { j with lost := true } }
      | none => c)
  | .forward _ _ => s
  | .inactive _ => s
  | .residual n tid first =>
    let r := (List.range 16).foldl (fun (m : SMap Nat) i => m.erase (first + i)) ((getCtx s n).residual.get [] tid)
    let s1 := modCtx s n (fun c => { c with residual := c.residual.put [] tid r })
    logFault s1 { kind := 11, device := deviceId s, unit := tid, addr := addr }
  | .gauge n g => if twinActive s then s else modCtx s n (fun c => { c with gauges := c.gauges.put {} g { c.gauges.get {} g with hcount := 0 } })
  | .control n => if twinActive s then s else memLost s n
  | .stack _ => s
  | .record _ => logFault s { kind := 11, device := deviceId s, addr := addr }
  | .simulation n tid off =>
    modCtx (logFault s { kind := 11, device := deviceId s, unit := tid, addr := off }) n (fun c => { c with suspended := true, lastCause := cMemLost })
  | .free => s

/-- The context that a line belongs to. -/
def lineCtx : LineHolds → Option Nat
  | .params n _ _ => some n
  | .journal n _ _ => some n
  | .forward n _ => some n
  | .inactive n => some n
  | .residual n _ _ => some n
  | .gauge n _ => some n
  | .control n => some n
  | .stack n => some n
  | .record n => some n
  | .simulation n _ _ => some n
  | .free => none

/-- A line of a shadow: what it held is fetched again from the member's live state, and no step of the member ends for it (R325). -/
def shadowLine (s : State) (holds : LineHolds) : Bool :=
  match lineCtx holds with
  | some n => (getCtx s n).shadow.held
  | none => false

/-- HBM_UE: the line's attempt ends REPEATED, the line is restored by content, its row retired (R316, R335, R336). -/
def execHbmUe (hall addr : Nat) (holds : LineHolds) (ns : Nat) (s : State) : Host.Outcome State Fault Refusal :=
  let h := hall % 8
  let p := pgMemory h
  let s1 := beginRecovery s 4 (hallUnit h) (deviceId s) cMemUe false addr
  let s2 := regSet (regSet (bumpSat (setErr s1 p 0) p Reg.MC_UE 31 0 1) p Reg.MC_UEADDR_LO addr) p Reg.MC_UEADDR_HI (addr / 2 ^ 32)
  let s3 := match lineCtx holds with
    | some n => if simCtx s2 n || shadowLine s2 holds then s2 else hitTraining s2 n cMemUe
    | none => s2
  let s4 := retireRow (if shadowLine s3 holds then s3 else restoreLine s3 addr holds) h (Config.rowOf addr)
  .next (settleRecovery (recoveryWaits s4 (interrupted_ s4 (lineCtx holds).toList) ns))

/-- ECS_READ: the stacks' error-check-and-scrub counts go into telemetry (R332), one fault-log record per stack with a count. -/
def execEcsRead (counts : List Nat) (s : State) : Host.Outcome State Fault Refusal :=
  .next ((counts.zipIdx).foldl (fun s x => logFault s { kind := 6, device := deviceId s, unit := hallUnit x.2, d0 := sat32 x.1 }) s)

/-! Retraining (R314). -/

/-- RETRAIN: a window falls due; it opens at once where the moment has come, else at the next such boundary. -/
def execRetrain (hall pc : Nat) (s : State) : Host.Outcome State Fault Refusal :=
  let h := hall % 8
  .next (openRetrains (putMc s h { getMc s h with due := some (pc % 32) }))

/-- RETRAIN_FORCE: no moment came within 1 s: the window that is due opens. -/
def execRetrainForce (hall pc : Nat) (s : State) : Host.Outcome State Fault Refusal :=
  let m := getMc s (hall % 8)
  if m.due = some (pc % 32) ∧ m.retrain = none then .next (putMc s (hall % 8) { m with retrain := m.due, due := none }) else .next s

/-- RETRAINING_DONE: the window ends. -/
def execRetrainingDone (hall : Nat) (s : State) : Host.Outcome State Fault Refusal :=
  .next (openRetrains (putMc s (hall % 8) { getMc s (hall % 8) with retrain := none }))

end Sys2Proof.Machine
end

