-- ==== Sys2Proof/Machine/Views.lean ====
section
/-! DEFINITION. What a read of a register returns: the common header and every value computed from the state of its block (R72, R104-R107,
R127, R144, R165, R205, R224, R240, R252, R294, R315, R339, R340, R358, R359, R376, R391, R409, R425, R429, R430, R437). -/

namespace Sys2Proof.Machine

/-! What a unit presents (R6): its SRAM window, its event line, its peg set. -/

/-- The galleries in service of a unit, in slot order: a gallery's own, an aisle's, a hall's, the device's, a logical frame's in member
order; a spare stands in none (R6, R8). -/
def unitMembers (s : State) (u : Nat) : List Nat :=
  let aisle (h a : Nat) : List Nat := (List.range 66).filterMap (galAt s h a)
  match bits u 31 29 with
  | 0 => (List.range 128).flatMap (fun i => aisle (i / 16) (i % 16))
  | 1 => (List.range 16).flatMap (aisle (bits u 28 25))
  | 2 => aisle (bits u 28 25) (bits u 24 21)
  | 3 => (unitGals u).filter (fun k => (getGal s k).state == 0)
  | 7 => ((s.ctxs.filter (fun e => e.2.state == 2)).flatMap (fun e => e.2.frames.map (·.2))).flatMap (fun ms =>
      if frameNamed s u && frameHandle ms == bits u 15 0 then ms.filterMap (fun m => galAt s m.hall m.aisle m.slot) else [])
  | _ => []

/-- The bytes of a unit's SRAM window: 128 KiB of a bay, 896 KiB of every gallery in service (R6). -/
def windowBytes (s : State) (u : Nat) : Nat :=
  if bits u 31 29 = 4 then 128 * 1024 else (unitMembers s u).length * galleryBytes

/-- The line of a gallery: that of its own pages and its bays' (R6). -/
def galleryLine (s : State) (k : Nat) : Bool :=
  let h := keyHall k
  let a := keyAisle k
  [pgFArray h a (k % 68), pgLanding h a (k % 68), pgBArray h a (k % 68)].any (lineLevel s)

/-- The event line of a unit: a bay's own, else the OR of its galleries' lines (R6). -/
def unitLine (s : State) (u : Nat) : Bool :=
  if bits u 31 29 = 4 then
    let f := if bits u 13 12 = 0 then pgFArray else pgBArray
    lineLevel s (f (bits u 28 25) (bits u 24 21) (bits u 20 14))
  else (unitMembers s u).any (galleryLine s)

/-- The bound pegs of a unit: the device's, a hall's, or those of the contexts whose frames hold its galleries (R6, R8). -/
def unitPegs (s : State) (u : Nat) : List Nat :=
  let bound := (s.pegs.filter (fun e => e.2.bound)).map (·.1)
  match bits u 31 29 with
  | 0 => bound
  | 1 => bound.filter (fun k => k / 1024 == bits u 28 25)
  | _ => ((unitMembers s u).filterMap (ownerOf s)).eraseDups.flatMap (fun n => (getCtx s n).pegs.map (·.2))

/-! Staged values (R430, R433). -/

/-- The offsets of a page's RWS registers that have a bank of their own at their address. -/
def rwsOffs (k : Nat) : List Nat :=
  ((((allFields k).filter (fun f => f.acc == .rws)).map (·.off)).eraseDups).filter (fun o =>
    !((k == 0x33 && o == Reg.AI_GCTRL) || (k == 0x10 && (o == Reg.GE_WORD_LO || o == Reg.GE_WORD_HI)) ||
      (k == 0x1B && (o == Reg.RT_ENTRY || o == Reg.RT_TMASK_LO || o == Reg.RT_TMASK_HI))))

/-- The RWS part of a register differs between its banks. -/
def rwsDiffers (s : State) (p : Page) (off : Nat) : Bool :=
  let m := maskAt p.kind off .rws
  (shadowGet s p off) &&& m != (regGet s p off) &&& m

/-- The gallery keys of an aisle page. -/
def pageGals (p : Page) : List Nat := aisleGals (p.inst / 2048) (p.inst / 128 % 16)

/-- Some RWS field of the page has a staged value: BLK_STAT.STAGED. Gauge words are staged apart (R107). -/
def staged (s : State) (p : Page) : Bool :=
  (rwsOffs p.kind).any (rwsDiffers s p) ||
    (p.kind == 0x33 && (pageGals p).any (fun k => (getGal s k).hold != (getGal s k).holdNext)) ||
    (p.kind == 0x1B && (s.router.staged != s.router.entries || s.router.stagedTrunks != s.router.trunks))

/-- BLK_SWING_STAT.STATE (R430). -/
def swingState (s : State) (p : Page) : Nat :=
  let w := getSwing s p
  if w.state = 0 then bnat (staged s p) else w.state

/-! The common header (R430). -/

/-- BLK_CAP0. -/
def blkCap0 (p : Page) : Nat :=
  pageEnd p.kind + bnat ((allFields p.kind).any (fun f => f.acc == .rws)) * 2 ^ 12 + bnat (pageRetains p.kind) * 2 ^ 13 +
    bnat ((ownSource p).isSome || (aisleSource p).isSome) * 2 ^ 14

/-- The gallery of a gallery page, as a key. -/
def pageGal (p : Page) : Option Nat := p.gallery.map (fun x => galKey x.1 x.2.1 x.2.2)

/-- The context and gauge whose history window is ready (R106). -/
def histReady (s : State) : Bool := s.gauge.ready && s.gauge.window == some (geSelected s)

/-- BLK_STAT: a page that is read has its power, since the access waits for it (R428). -/
def blkStat (s : State) (p : Page) : Nat :=
  1 + bnat (p.kind == 0x10 && histReady s) * 2 + bnat (staged s p) * 4 +
    bnat (match pageGal p with
      | some k => (getGal s k).state != 0
      | none => false) * 8 +
    (if p.kind = 0x33 then inService s (p.inst / 2048) (p.inst / 128 % 16) else 0) * 2 ^ 16

/-- BLK_SWING_STAT. -/
def blkSwingStat (s : State) (p : Page) : Nat :=
  let w := getSwing s p
  swingState s p + w.group % 16 * 2 ^ 2 + bnat w.timeout * 2 ^ 6 + bnat w.refused * 2 ^ 7 + w.swings % 65536 * 2 ^ 16

/-- A register of the header. -/
def headerView (s : State) (p : Page) (off : Nat) : Nat :=
  match off with
  | 0x000 => p.kind + p.inst * 2 ^ 16
  | 0x004 => (Config.blockRev p.kind).toNat + 2 * 2 ^ 16
  | 0x008 => blkCap0 p
  | 0x00C => 0
  | 0x014 => blkStat s p
  | 0x01C => blkSwingStat s p
  | _ => regGet s p off

/-! Hub pages. -/

/-- The low or high word of a 64-bit value. -/
def wordOf (v : Nat) (hi : Bool) : Nat := if hi then v / 2 ^ 32 % 2 ^ 32 else v % 2 ^ 32

/-- The selected swing group; 0 acts as 1 (R437). -/
def groupSel (s : State) : Nat := max 1 (fld s pgSwing Reg.SW_GSEL 3 0)

/-- SW_GSTAT (R437). -/
def swGstat (s : State) : Nat :=
  let g := s.regs.groups.get {} (groupSel s)
  let st := if g.members.isEmpty then 0 else if !g.fired then 1 else if g.held.isEmpty then 2 else 3
  st + g.members.length % 2 ^ 15 * 4 + g.count % 2 ^ 15 * 2 ^ 17

/-- The selected gauge word, zero for a context that is not resident (R105, R106). -/
def geWord (s : State) : Nat :=
  let x := geSelected s
  let c := getCtx s x.1
  if c.state = 0 then 0 else (c.gauges.get {} x.2).word

/-- GE_HIST i; before the window is ready a free value, which the read supplies. -/
def geHist (s : State) (i : Nat) : Nat :=
  if (getCtx s (geSelected s).1).state = 0 then 0
  else if histReady s then s.gauge.hist.getD (2 * i) 0 + s.gauge.hist.getD (2 * i + 1) 0 * 2 ^ 16
  else (Config.freeWord s.freeCtr).toNat

/-- GE_STAT (R105). -/
def geStat (s : State) : Nat :=
  let left := (s.ctxs.map (fun e => e.2.closing.length)).sum
  bnat (left != 0) + bnat (!(s.gauge.staged.isEmpty && s.gauge.due.isEmpty)) * 2 + bnat (stageRoom ≤ s.gauge.staged.length + s.gauge.due.length) * 4 + min left 65535 * 2 ^ 16

/-- ST_STAT.PHASE (R224). -/
def phaseCode (c : Ctx) : Nat :=
  match c.attempt, c.evalRun with
  | some a, _ => if a.outcome.isSome then 8 else if a.vote.isSome || a.deciding then 6 else a.phase
  | none, some _ => 9
  | none, none => 0

/-- ST_STAT.SUSPENDED: ADMIT refuses the context (R207, R209, R305). -/
def suspendedNow (c : Ctx) : Bool := c.suspended || !c.vacant.isEmpty

/-- ST_STAT (R224). -/
def stStat (s : State) (c : Ctx) : Nat :=
  phaseCode c + min (match c.attempt with
    | some a => a.number
    | none => c.attemptNo) 15 * 2 ^ 4 + bnat c.journal * 2 ^ 8 + bnat (suspendedNow c) * 2 ^ 9 +
    bnat (s.twin.state == 3 && c.mirrored && !c.unpairing) * 2 ^ 10 + bnat (!c.rollback.isEmpty) * 2 ^ 11 + min c.skips 255 * 2 ^ 16

/-- The step controller's registers that describe the selected context (R224). -/
def stepView (s : State) (off : Nat) : Option Nat :=
  let c := getCtx s (fld s pgStep Reg.ST_SEL 9 0)
  let v (x : Nat) : Option Nat := some (if c.state = 0 then 0 else x)
  match off with
  | 0x088 => v c.step
  | 0x08C => v (stStat s c)
  | 0x090 => v (c.lastOutcome % 4 + c.lastCause % 256 * 2 ^ 8 + c.lastDevice % 4096 * 2 ^ 16)
  | 0x094 => v c.lastStep
  | _ => none

/-- A layer's tread in the current or the last attempt (R240). -/
def shownTread (s : State) (c : Ctx) (p : Plan) (layer half : Nat) : Nat :=
  let pos := positionOf s p
  match c.attempt with
  | some a => treadOf c p layer (if a.split then half else 0) pos
  | none =>
    let base := ((p.layer layer).map (·.fbase)).getD 0
    let f := (c.lastTread.find (layerKey layer 0 pos)).getD base
    if half = 0 || !c.lastSplit then f else (c.lastTread.find (layerKey layer 1 pos)).getD base

/-- A repeat of a layer is running: the layer whose forward work runs in some half was raised (R231, R240). -/
def repeating (c : Ctx) : Bool :=
  match c.attempt with
  | some a => a.outcome.isNone && a.passes.any (fun e => e.2 != 0 && layerRuns c (e.1 % 65536) (e.1 / 65536 % 2) (e.1 / 131072))
  | none => false

/-- The stair controller's registers that describe the selection (R240). -/
def stairView (s : State) (off : Nat) : Option Nat :=
  let c := getCtx s (fld s pgStair Reg.SB_SEL 9 0)
  let i := fld s pgStair Reg.SB_SEL 31 16
  let v (x : Nat) : Option Nat := some (if c.state = 0 then 0 else x)
  match off with
  | 0x090 => v (match c.plan with
    | some p => if p.layers.length ≤ i then 0
      else c.btread.get 0 i % 4 + shownTread s c p i 0 % 8 * 2 ^ 2 + shownTread s c p i 1 % 8 * 2 ^ 5 + c.bquiet.get 0 i % 65536 * 2 ^ 16
    | none => 0)
  | 0x094 => v (min ((c.attempt.map usedTotal).getD c.lastUsed) 127 + bnat (repeating c) * 2 ^ 7 +
      bnat ((c.attempt.map (·.settling)).getD false) * 2 ^ 8 + codeOf 10 c.lossExp * 2 ^ 16)
  | _ => none

/-- The simulation controller's registers that describe the selected context (R252). -/
def simView (s : State) (off : Nat) : Option Nat :=
  let c := getCtx s (fld s pgSimulation Reg.SM_SEL 9 0)
  let v (x : Nat) : Option Nat := some (if c.state = 0 then 0 else x)
  match off with
  | 0x088 => v (bnat c.flags.nv + bnat c.flags.dz * 2 + bnat c.flags.of * 4 + bnat c.flags.uf * 8 + bnat c.flags.nx * 16)
  | 0x08C => v (wordOf c.loose false)
  | 0x090 => v (wordOf c.loose true)
  | 0x094 => v (min c.fallback 0xFFFFFFFF)
  | _ => none

/-- Bytes of a context's resident state (R274). -/
def residentBytes (c : Ctx) : Nat := (c.homeBytes.map (·.2)).sum

/-- The halls whose stack holds resident state of a context, as a mask. -/
def homeMask (c : Ctx) : Nat := ((List.range 8).map (fun h => bnat (c.homeBytes.get 0 h != 0) * 2 ^ h)).sum

/-- PL_CTX (R294). -/
def plCtx (s : State) (c : Ctx) : Nat :=
  c.state % 4 + bnat (suspendedNow c) * 2 ^ 2 + bnat c.noFit * 2 ^ 3 + bnat c.plan.isSome * 2 ^ 4 + bnat c.seed.isSome * 2 ^ 5 +
    bnat (cacheUsable s c (freeSlots s)) * 2 ^ 6 + homeMask c * 2 ^ 8 + (if c.state = 2 then c.slot.getD 0x7F else 0x7F) * 2 ^ 16

/-- The Scribe's computed registers (R294). -/
def scribeView (s : State) (off : Nat) : Option Nat :=
  let c := getCtx s (fld s pgScribe Reg.PL_SEL 9 0)
  match off with
  | 0x084 => some ((activeCtxs s).length % 128 * 2 + ((freeSlots s).map (fun x => x.2.2.length)).sum * 2 ^ 16)
  | 0x08C => some (plCtx s c)
  | 0x090 => some (c.frames.length + ((c.frames.map (fun f => f.2.length)).sum) * 2 ^ 16)
  | 0x094 => some (wordOf (residentBytes c) false)
  | 0x098 => some (wordOf (residentBytes c) true)
  | _ => none

/-- SE_STAT (R315). -/
def seStat (s : State) : Nat :=
  bnat (s.ctxs.any (fun e => !e.2.dups.isEmpty)) + bnat (s.ctxs.any (fun e => e.2.voting)) * 2 +
    bnat (s.host.xfers.any (fun e => match e.2.kind with
      | .rollback _ => true
      | _ => false)) * 4 + bnat (s.gals.any (fun e => e.2.probing.isSome)) * 8 +
    min (s.gals.filter (fun e => e.2.state == 1)).length 256 * 2 ^ 16

/-- The silent-error controller's computed registers (R315). -/
def silentView (s : State) (off : Nat) : Option Nat :=
  match off with
  | 0x084 => some (seStat s)
  | 0x094 =>
    let c := getCtx s (fld s pgSilent Reg.SE_SEL 9 0)
    some (if c.state = 0 then 0xFFFFFFFF else c.agreed.getD 0xFFFFFFFF)
  | _ => none

/-- The fault manager's computed registers (R339). -/
def faultView (s : State) (off : Nat) : Option Nat :=
  match off with
  | 0x084 => some (bnat (recovering s) + ((s.recovery.map (·.cls)).getD 0) % 16 * 2 + min s.fence.length 256 * 2 ^ 16)
  | 0x09C => some (s.fence.getD (fld s pgFault Reg.FM_FSEL 7 0) 0)
  | _ => none

/-- Open buckets that a hub's engines serve: not decided yet (R19, R205). -/
def openBuckets (s : State) (hub : Nat) : List Bucket :=
  s.ctxs.flatMap (fun e => match e.2.plan, e.2.attempt with
    | some p, some a => a.buckets.filterMap (fun x => match p.groups[(bucketParts x.1).1]? with
        | some g => if (servingHubs s e.2 g (bucketParts x.1).2.2).contains hub ∧ x.2.final = false then some x.2 else none
        | none => none)
    | _, _ => [])

/-- The current step number of the context whose groups hold a bucket tag (R183, R205). -/
def tagStep (s : State) (tag : Nat) : Nat :=
  ((s.ctxs.find? (fun e => e.2.state == 2 && (match e.2.plan with
    | some p => p.groups.any (fun g => g.tagGroup % 16 == tag / 256)
    | none => false))).map (fun e => e.2.step)).getD 0

/-- The digest that EX_DSEL selects: step, SENT, RECEIVED (R204, R205). -/
def digestSel (s : State) (hub : Nat) : Option (Nat × Nat × Nat) :=
  let p := pgExchange hub
  let tag := fld s p Reg.EX_DSEL 11 0
  (s.digests.get [] tag).find? (fun x => x.1 + fld s p Reg.EX_DSEL 15 12 == tagStep s tag)

/-- An exchange page's computed registers (R205). -/
def exchangeView (s : State) (hub off : Nat) : Option Nat :=
  let d := digestSel s hub
  let dig := (d.map (fun x => if fld s (pgExchange hub) Reg.EX_DSEL 16 16 = 0 then x.2.1 else x.2.2)).getD 0
  match off with
  | 0x084 =>
    let bs := openBuckets s hub
    some (bnat (!bs.isEmpty) + bnat (bs.any (fun b => b.attempt == 1)) * 2 + min bs.length 4096 * 2 ^ 16)
  | 0x09C => some ((d.map (·.1)).getD 0xFFFFFFFF)
  | 0x0A0 => some (wordOf dig false)
  | 0x0A4 => some (wordOf dig true)
  | _ => none

/-- The twin logic's computed registers (R339). -/
def twinView (s : State) (off : Nat) : Option Nat :=
  match off with
  | 0x084 => some ((if s.twin.serving then 5 else s.twin.state % 8) + s.twin.twin.getD 0 % 4096 * 2 ^ 16)
  | 0x094 => some (min ((s.twin.seedLeft + 2 ^ 20 - 1) / 2 ^ 20) 0xFFFFFFFF)
  | _ => none

/-- LK_STAT (R358). -/
def linkView (s : State) (n off : Nat) : Option Nat :=
  let l := getLink s n
  match off with
  | 0x084 => some (l.state % 8 + l.spare % 8 * 2 ^ 3 + bnat l.cal * 2 ^ 6 + bnat (inBundle s n) * 2 ^ 7 + l.peer % 4096 * 2 ^ 8 +
      l.peerLink % 64 * 2 ^ 20)
  | _ => none

/-- The router's selected entries, applied (R359). -/
def routerView (s : State) (off : Nat) : Option Nat :=
  let m := s.router.trunks.get 0 (fld s pgRouter Reg.RT_TSEL 5 0)
  match off with
  | 0x088 => some (s.router.entries.get 0 (fld s pgRouter Reg.RT_SEL 11 0))
  | 0x090 => some (wordOf m false)
  | 0x094 => some (wordOf m true)
  | _ => none

/-- The host port is up: enabled, and Riendin READY (R376, R415). -/
def portUp (s : State) : Bool := fld s pgHost Reg.HP_CTRL 0 0 == 1 && s.boot.state == 2

/-- The host port's computed registers (R361, R376). -/
def hostView (s : State) (off : Nat) : Option Nat :=
  match off with
  | 0x084 => some (bnat (portUp s) + bnat (s.host.paused != 0) * 2 + s.host.qps.length % 2048 * 2 ^ 8 + s.host.sessions.length % 128 * 2 ^ 19)
  | 0x088 => some (Config.macAddress.toNat % 2 ^ 32)
  | 0x08C => some (Config.macAddress.toNat / 2 ^ 32)
  | _ => none

/-- EC_SCFG of the selected source. -/
def ecScfg (s : State) : Nat :=
  let x := getSrc s (fld s pgEvent Reg.EC_SSEL 9 0)
  x.target % 8 + bnat x.en * 2 ^ 3 + bnat x.pend * 2 ^ 4 + bnat x.level * 2 ^ 5

/-- The event controller's registers (R391). -/
def eventView (s : State) (off : Nat) : Option Nat :=
  if off = 0x084 then some (bnat s.ec.image.isSome)
  else if off = 0x08C then some (ecScfg s)
  else if 0x090 ≤ off ∧ off ≤ 0x0A0 then some (ecNext s ((off - 0x090) / 4))
  else if 0x0A4 ≤ off ∧ off ≤ 0x0B4 then some (s.ec.ppend.get 0 ((off - 0x0A4) / 4))
  else if 0x0B8 ≤ off ∧ off ≤ 0x0C8 then some (s.ec.pen.get 0 ((off - 0x0B8) / 4))
  else none

/-- Halls awake, as a mask. -/
def awakeMask (s : State) : Nat := ((List.range 8).map (fun h => bnat (!bit s.power.asleep h) * 2 ^ h)).sum

/-- The device state: 0 RUN, 1 ASLEEP, 2 DORMANT (R398, R409). -/
def deviceState (s : State) : Nat := if s.power.dormant then 2 else if awakeMask s = 0 then 1 else 0

/-- The power cap in W (R407, R409). -/
def powerCap (s : State) : Nat := max 1200 (min 3600 (fld s pgPower Reg.PW_CAP 15 0))

/-- The cap's duty value of a hall, 4 to 16 (R407). -/
def capValue (s : State) (h : Nat) : Nat := s.power.capValue.get 16 h

/-- The power manager's computed registers (R409). -/
def powerView (s : State) (off : Nat) : Option Nat :=
  match off with
  | 0x08C => some (deviceState s + awakeMask s * 2 ^ 2 + bnat ((List.range 8).any (fun h => capValue s h != 16)) * 2 ^ 10 +
      bnat s.power.mainOk * 2 ^ 11 + bnat s.power.backupOk * 2 ^ 12 + bnat s.power.stbyOk * 2 ^ 13 + min s.power.watts 65535 * 2 ^ 16)
  | 0x090 => some (min (s.power.mainMv / 10) 65535 + min (s.power.backupMv / 10) 65535 * 2 ^ 16)
  | 0x094 => some (wordOf s.power.tick false)
  | 0x098 => some (wordOf s.power.tick true)
  | _ => none

/-- A monitor: halls 0 to 7, 8 hub A, 9 hub B. -/
def getMon (s : State) (u : Nat) : Monitor := s.monitors.get {} u

/-- The monitor of a page. -/
def monitorOf (p : Page) : Nat := if p.base = 0x000B1000 then 8 else if p.base = 0x01052000 then 9 else p.inst / 2048

/-- The valid readings of a monitor. -/
def validTemps (m : Monitor) : List Int := (m.temps.filter (fun e => e.2.2)).map (fun e => e.2.1)

/-- Sensors of a unit: 64 and the stack's in a hall, 16 in a hub (R406). -/
def sensorCount (u : Nat) : Nat := if u < 8 then 65 else 16

/-- A hall has fewer than 56 valid sensors: a sensor counts as valid until a reading says otherwise (R406). -/
def fewSensors (s : State) (u : Nat) : Bool :=
  decide (64 - (((getMon s u).temps.filter (fun e => decide (e.1 < 64) && !e.2.2)).length) < 56)

/-- The issue duty of a hall (R406, R407); 16 in a hub. -/
def dutyOf (s : State) (u : Nat) : Nat :=
  if 8 ≤ u then 16
  else if fewSensors s u then 4
  else min (getMon s u).thermal (capValue s u)

/-- A monitor page's computed registers (R409). -/
def monitorView (s : State) (p : Page) (off : Nat) : Option Nat :=
  let u := monitorOf p
  let m := getMon s u
  let warn : Int := 8 * (fld s p Reg.MN_CTRL 7 0 : Int)
  match off with
  | 0x084 =>
    let tmax := match validTemps m with
      | [] => 0
      | t :: l => l.foldl max t
    some (codeOf 12 tmax + dutyOf s u * 2 ^ 16 + bnat ((validTemps m).any (fun t => decide (warn ≤ t))) * 2 ^ 21 +
      bnat (decide (m.thermal < 16)) * 2 ^ 22)
  | 0x08C =>
    let i := fld s p Reg.MN_TSEL 6 0
    match m.temps.find i with
    | some (t, ok) => some (if i < sensorCount u then codeOf 12 t + bnat ok * 2 ^ 12 else 0)
    | none => some 0
  | 0x094 => some (min (m.volts.get 0 (fld s p Reg.MN_VSEL 7 0)) 65535)
  | 0x098 => some (if m.freqs.isEmpty then 0 else (m.freqs.map (·.2)).sum / m.freqs.length % 65536)
  | _ => none

/-- The measurement of an image: SHA-256 of it as stored (R411). -/
def measure (img : List Byte) : List Byte := sha256 img

/-- Header fields of a Riendin image (R411). -/
def imgSvn (img : List Byte) : Nat := recNat img 6 1
def imgVersion (img : List Byte) : Nat := recNat img 8 4
def imgLength (img : List Byte) : Nat := recNat img 12 4

/-- The running image: none before Riendin starts. -/
def runningImage (s : State) : Option (List Byte) := if s.boot.state = 1 ∨ s.boot.state = 2 then some s.boot.image else none

/-- An FW_UPDATE is in progress: its image is being read or written (R420, R425). -/
def fwBusy (s : State) : Bool :=
  s.boot.updating.isSome || s.host.xfers.any (fun e => match e.2.kind with
    | .firmware _ => true
    | _ => false)

/-- The slot that is PENDING. -/
def pendingSlot (s : State) : Option Nat := (List.range 2).find? (fun k => (s.boot.slots.get {} k).word == 3)

/-- The boot controller's computed registers (R425). -/
def bootView (s : State) (off : Nat) : Option Nat :=
  let img := runningImage s
  let b := s.boot
  match off with
  | 0x080 => some (b.state % 4 + b.slot % 2 * 2 ^ 2 + bnat (pendingSlot s).isSome * 2 ^ 3 + bnat (fwBusy s) * 2 ^ 4)
  | 0x084 => some ((img.map imgVersion).getD 0)
  | 0x088 => some ((img.map imgSvn).getD 0 + b.counter % 256 * 2 ^ 8 + b.revoked % 16 * 2 ^ 16)
  | 0x08C => some (wordOf Config.serialNumber.toNat false)
  | 0x090 => some (wordOf Config.serialNumber.toNat true)
  | _ => if 0x094 ≤ off ∧ off ≤ 0x0B0 then some ((img.map (fun i => recNat (measure i) (off - 0x094) 4)).getD 0) else none

/-! Gallery, aisle and hall pages. -/

/-- Depth of a bay's queue on a gallery in service. -/
def queueDepth (s : State) (k unit : Nat) : Nat :=
  let g := getGal s k
  if g.state ≠ 0 then 0 else (s.queues.get [] (((keyHall k * 16 + keyAisle k) * 68 + g.slot) * 4 + unit)).length

/-- FA_STAT, LD_STAT, BX_STAT and BW_STAT: a work order is one step, so between commands none is in progress (R72, R104, R127). -/
def galleryView (s : State) (p : Page) (k off : Nat) : Option Nat :=
  match p.kind, off with
  | 0x30, 0x084 => some (min (queueDepth s k 0) 16 * 2 ^ 8)
  | 0x31, 0x084 => some (bnat (s.ctxs.any (fun e => e.2.reexec.any (fun x => memberGal s x.2 == k))) * 2 + bnat (getGal s k).suspect * 2 ^ 2)
  | 0x32, 0x084 => some (min (queueDepth s k 1) 16 * 2 ^ 8)
  | 0x32, 0x088 => some (min (queueDepth s k 2) 16 * 2 ^ 8)
  | _, _ => none

/-- The physical gallery selected in AI_GSEL; 68 to 127 select none (R429). -/
def aisleSel (s : State) (p : Page) : Option Nat :=
  let g := fld s p Reg.AI_GSEL 6 0
  if g < 68 then some (galKey (p.inst / 2048) (p.inst / 128 % 16) g) else none

/-- AI_GSTAT and AI_GCTRL (R429). -/
def aisleView (s : State) (p : Page) (off : Nat) : Option Nat :=
  match off, aisleSel s p with
  | 0x084, some k =>
    let g := getGal s k
    some (g.state % 8 + (if g.state = 0 then g.slot else 0x7F) * 2 ^ 3)
  | 0x084, none => some (0x7F * 2 ^ 3)
  | 0x088, some k => some (bnat (getGal s k).hold)
  | 0x088, none => some 0
  | _, _ => none

/-- The selected peg of a hall. -/
def pegSel (s : State) (h : Nat) : Nat := h * 1024 + fld s (pgPeg h) Reg.PG_SEL 9 0

/-- Free pegs of a hall (R391). -/
def freePegs_ (s : State) (h : Nat) : Nat := 1024 - (s.pegs.filter (fun e => e.1 / 1024 == h && e.2.bound)).length

/-- The peg engine's registers (R391). -/
def pegView (s : State) (h off : Nat) : Option Nat :=
  let k := pegSel s h
  let g := getPeg s k
  match off with
  | 0x084 => some (g.count % 2 ^ 32)
  | 0x088 => some (g.target % 2 ^ 32)
  | 0x08C => some (g.owner % 2 ^ 32)
  | 0x090 => some (bnat g.bound + bnat g.reached * 2 + bnat g.evtEn * 4 + bnat (!g.waits.isEmpty) * 8)
  | 0x094 => some (((List.range 32).map (fun i => bnat (getPeg s (k / 32 * 32 + i)).reached * 2 ^ i)).sum)
  | 0x098 => some (freePegs_ s h)
  | _ => none

/-- The context selected at a hall's stack engine has a region there. -/
def hasRegion (s : State) (h : Nat) : Bool := (getCtx s (fld s (pgStack h) Reg.SK_CTX 9 0)).stackPages.get 0 h != 0

/-- The stack engine's registers (R144). DEPTH counts the frames that lie on the stack: records of LENGTH 0, frames popped and held segment
results are not among them (log entry 158). -/
def stackView (s : State) (h off : Nat) : Option Nat :=
  let c := getCtx s (fld s (pgStack h) Reg.SK_CTX 9 0)
  let r := hasRegion s h
  let v (x : Nat) : Option Nat := some (if r then x % 2 ^ 28 else 0)
  match off with
  | 0x084 => some (bnat (s.ctxs.any (fun e => e.2.stack.rerun && e.2.stackPages.get 0 h != 0)) * 4 +
      (if r then min (c.stack.frames.filter (fun f => f.hall == h && f.kind != 2)).length 65535 else 0) * 2 ^ 16)
  | 0x08C => some (if r then c.stackBase.get 0 h % 2 ^ 32 else 0)
  | 0x090 => some (if r then c.stackBase.get 0 h / 2 ^ 32 else 0)
  | 0x094 => v (c.stackPages.get 0 h)
  | 0x098 => v (match c.plan with
      | some p => c.stackTop p h
      | none => 0)
  | 0x09C => v (c.stack.peak.get 0 h)
  | _ => none

/-- An engine of the hall still restores slices of some context. -/
def rollsBack (s : State) (h : Nat) : Bool :=
  s.ctxs.any (fun e => match e.2.plan with
    | some p => e.2.rollback.any (fun k => match p.record (k / 2 ^ 24) with
        | some t => sliceHall e.2 t (k % 2 ^ 24) == h
        | none => false)
    | none => false)

/-- UE_STAT (R165). With slices of several contexts in the buffers CTX shows the lowest context (log entry 162). -/
def updateView (s : State) (h off : Nat) : Option Nat :=
  match off with
  | 0x084 =>
    let hs := heldSlices s h
    some (bnat (!hs.isEmpty) + bnat (rollsBack s h) * 2 + bnat (mirrorStall s h) * 2 ^ 2 + min hs.length 4 * 2 ^ 3 + hs.headD 0 % 1024 * 2 ^ 16)
  | _ => none

/-- MC_STAT (R340): a scrub pass is one step. -/
def memoryView (s : State) (h off : Nat) : Option Nat :=
  match off with
  | 0x084 => some (bnat (getMc s h).retrain.isSome * 2 + min (getMc s h).retired.length 65535 * 2 ^ 16)
  | _ => none

/-! A read (R428, R431). -/

/-- What the block of a page computes for a register; none where the stored word is what it reads. -/
def blockView (s : State) (p : Page) (off : Nat) : Option Nat :=
  let h := p.inst / 2048
  match p.kind with
  | 0x02 => if off = 0x08C then some (swGstat s) else none
  | 0x10 =>
    if off = 0x090 then some (wordOf (geWord s) false)
    else if off = 0x094 then some (wordOf (geWord s) true)
    else if 0x098 ≤ off ∧ off ≤ 0x0B4 then some (geHist s ((off - 0x098) / 4))
    else if off = 0x0B8 then some (geStat s) else none
  | 0x12 => stepView s off
  | 0x13 => stairView s off
  | 0x14 => simView s off
  | 0x15 => scribeView s off
  | 0x16 => silentView s off
  | 0x17 => faultView s off
  | 0x18 => exchangeView s p.inst off
  | 0x19 => twinView s off
  | 0x1A => linkView s p.inst off
  | 0x1B => routerView s off
  | 0x1C => hostView s off
  | 0x1D => eventView s off
  | 0x1E => powerView s off
  | 0x1F => monitorView s p off
  | 0x20 => bootView s off
  | 0x33 => aisleView s p off
  | 0x34 => pegView s h off
  | 0x35 => stackView s h off
  | 0x36 => updateView s h off
  | 0x37 => memoryView s h off
  | _ => match pageGal p with
    | some k => galleryView s p k off
    | none => none

/-- The value a register holds for a reader, high words not latched; reserved offsets read as zero (R428). -/
def regView (s : State) (p : Page) (off : Nat) : Nat :=
  if off < 0x80 then headerView s p off
  else (blockView s p off).getD (regGet s p off)

/-- The registers whose read latches the high word that follows (R72, R104, R127, R144, R165, R205, R252, R294, R339, R340, R358, R409,
R425). -/
def latches (k off : Nat) : Bool :=
  match k with
  | 0x14 => off == 0x08C
  | 0x15 => off == 0x094
  | 0x18 => off == 0x0A0 || off == 0x0A8
  | 0x19 => off == 0x08C
  | 0x1A => off == 0x08C
  | 0x1E => off == 0x094
  | 0x20 => off == 0x08C
  | 0x30 => off == 0x090
  | 0x31 => off == 0x090
  | 0x32 => off == 0x098 || off == 0x0A0
  | 0x35 => off == 0x08C
  | 0x36 => off == 0x090 || off == 0x098
  | 0x37 => off == 0x090
  | _ => false

/-- A read that supplies a free value (log entries 6, 10). -/
def readsFree (s : State) (p : Page) (off : Nat) : Bool :=
  (p.kind == 0x10 && decide (0x098 ≤ off ∧ off ≤ 0x0B4) && !histReady s) || (p.kind == 0x35 && (off == 0x08C || off == 0x090) && hasRegion s (p.inst / 2048))

end Sys2Proof.Machine
end

