-- ==== Sys2Proof/Machine/Boot.lean ====
section
/-! DEFINITION. Boot, firmware and identity: valid images, the order of slots, READY, the watchdog, firmware updates, probe packs,
attestation, the service port (R310, R311, R404, R410-R425, R445). -/

namespace Sys2Proof.Machine

/-! Images (R411, R412). -/

/-- A slice of bytes. -/
def slice (l : List Byte) (off n : Nat) : List Byte := (l.drop off).take n

/-- The header of an image with SIG taken as zero. -/
def unsignedHeader (img : List Byte) : List Byte := slice img 0 80 ++ List.replicate 64 0#8 ++ slice img 144 112

/-- The part of the stored bytes that the header's LENGTH takes. -/
def imgBytes (img : List Byte) : List Byte := img.take (imgLength img)

/-- Every check of R412 but that of SVN. -/
def imgSound (revoked : Nat) (img : List Byte) : Bool :=
  let b := recNat img 7 1
  let slot := b % 4
  let rev := b / 4 % 16
  recNat img 0 4 == 0x4E444952 && recNat img 4 2 == 1 && decide (256 ≤ imgLength img ∧ imgLength img ≤ 33554432 ∧ imgLength img ≤ img.length) &&
    b / 64 == 0 && recNat img 176 80 == 0 && sha256 (slice img 16 64) == Config.keySlot slot && !bit revoked slot && !bit rev slot &&
    Config.ecdsaVerify (slice img 16 64) (sha256 (unsignedHeader img)) (slice img 80 64) &&
    slice img 144 32 == sha256 ((imgBytes img).drop 256)

/-- The verdict on an image: 0 valid, 1 it fails verification, 2 only the SVN check fails (R412). -/
def imgCheck (s : State) (img : List Byte) : Nat :=
  if !imgSound s.boot.revoked img then 1
  else if s.boot.counter ≤ imgSvn img ∧ imgSvn img ≤ 64 then 0 else 2

/-- The probe-pack keys of an image's manifest: a count, then keys of 64 bytes (R411, R424; the layout: log entry 38). -/
def packKeys (img : List Byte) : List (List Byte) := (List.range (min 4 (recNat img 256 4))).map (fun i => slice img (260 + 64 * i) 64)

/-- A probe pack verifies under a key of the running image (R311, R424). -/
def packSound (img pack : List Byte) : Bool :=
  let n := pack.length - 64
  (packKeys img).any (fun k => Config.ecdsaVerify k (sha256 (pack.take n)) (pack.drop n))

/-! Starting Riendin (R412-R414). -/

/-- A flash slot. -/
def getSlot (s : State) (k : Nat) : FwSlot := s.boot.slots.get {} k

/-- Store a flash slot. -/
def putSlot (s : State) (k : Nat) (x : FwSlot) : State := { s with boot := { s.boot with slots := s.boot.slots.put {} k x } }

/-- The slots in the order of R412 that this boot has not tried. -/
def bootOrder (s : State) : List Nat :=
  ([3, 2, 1].flatMap (fun w => (List.range 2).filter (fun k => (getSlot s k).word == w))).filter (fun k => !s.boot.tried.contains k)

/-- No slot boots: the SC halts (R414, R441). -/
def romFail (s : State) : State :=
  { s with boot := { s.boot with state := 3 }, power := { s.power with fault := true, pins := false } }

/-- Riendin starts from a slot; the other pin groups are enabled (R405, R413, R415). -/
def startRiendin (s : State) (k : Nat) : State :=
  { s with boot := { s.boot with state := 1, slot := k, image := imgBytes (getSlot s k).image, tried := s.boot.tried ++ [k] }
           power := { s.power with pins := true } }

/-- Try slots in order: the first valid image runs, each that fails is named and skipped (R412). -/
def trySlots : List Nat → State → State
  | [], s => romFail s
  | k :: t, s =>
    match imgCheck s (getSlot s k).image with
    | 0 => startRiendin s k
    | v => trySlots t (setErr { s with boot := { s.boot with tried := s.boot.tried ++ [k] } } pgBoot (v - 1))

/-- The mask ROM boots the next slot. -/
def bootNext (s : State) : State := trySlots (bootOrder s) s

/-! What a boot restores (R14, R310, R404, R415, R416). -/

/-- A gallery as the persistent fault log restores it: in its slot, failed (under a new test too) or retired as it was, else an untested spare; what lay in
registers and SRAM is gone; on a cold reset the fence entries too (R14, R320). -/
def restoredGal (cold : Bool) (g : Gallery) : Gallery :=
  { state := if g.state = 0 ∨ g.state = 3 ∨ g.state = 5 then g.state else if g.state = 2 ∧ g.fails ≠ 0 then 3 else 2, slot := if g.state = 0 then g.slot else 0x7F, fails := g.fails,
    quar := g.quar, timeOut := g.timeOut, timeIn := g.timeIn, served := g.served, tags := if cold then [] else g.tags }

/-- Every spare restored untested begins its test: its hall is awake (R14). -/
def testSpares (s : State) : State :=
  ((List.range 128).flatMap (fun i => aisleGals (i / 16) (i % 16))).foldl (fun s k =>
    let g := getGal s k
    if g.state = 2 then putGal s k { g with testing := true } else s) s

/-- A resident context after a warm reset: RESIDENT, suspended where it was ACTIVE, an attempt in progress ABANDONED with cause RESET,
what its journal holds of that step put back (R404). -/
def recovered (s : State) (c : Ctx) : Ctx :=
  let c1 := match c.attempt, c.plan with
    | some a, some p =>
      let back : SMap JSlot := if c.journal then c.jslots.filter (fun (e : Nat × JSlot) => e.2.valid && e.2.good && e.2.step == a.step) else []
      let c2 := back.foldl (fun (c : Ctx) (e : Nat × JSlot) => match p.record (e.1 / 2 ^ 24) with
        | some t => restoreSlice c p t (e.1 % 2 ^ 24) e.2.data
        | none => c) c
      { afterOutcome c2 a 3 with lastCause := 0x27, lastDevice := deviceId s }
    | _, _ => c
  let active := c.state == 2
  { c1 with state := min c.state 1, suspended := c1.suspended || active, held := none, queue := [], exporting := false, inactive := [],
            chanNew := [], residualNew := [], made := [], closing := [], reexec := [], kernels := [], sliceAt := [], regionBytes := [], stackPages := [], stackBase := [], frames := [], frameQueues := [],
            pegs := [], commitPegs := [], slot := none, stack := {}, jslots := [], rollback := [], attempt := none, evalRun := none, done := [],
            dups := [], parts := [], voting := false, rollbackDue := false, earlyNotices := [], unpairing := false,
            shadow := {} }

/-- The step record of an attempt that a warm reset ended (R209, R404). -/
def resetRecord (s : State) (n : Nat) (c : Ctx) : State :=
  match c.attempt, c.plan with
  | some a, some p => pushRec s 0 n (stepRecord s c p a 3 0x27 (deviceId s))
  | _, _ => s

/-- An attempt whose commit point has passed is COMMITTED: its CLOSE is made up (R216; log entry 42). -/
def finishClose (s : State) (n : Nat) : State :=
  match (getCtx s n).attempt with
  | some a => if a.outcome = some 0 then closeNow s n true else s
  | none => s

/-- Riendin recovers the resident contexts (R404); what a shadow held beside them is of no use once the member has declared this device
lost (R329). -/
def recoverCtxs (s0 : State) : State :=
  let s := (s0.ctxs.map (·.1)).foldl finishClose s0
  let s1 := s.ctxs.foldl (fun s e => if e.2.shadow.held then s else resetRecord s e.1 e.2) s
  { s1 with ctxs := (s1.ctxs.filter (fun e => !e.2.shadow.held && e.2.state != 0)).map (fun e => (e.1, recovered s1 e.2)) }

/-! READY (R413, R415, R418, R424). -/

/-- Stored packs under the running image's keys: one that no key verifies is deleted and logged (R424). -/
def recheckPacks (s : State) : State :=
  let bad := s.boot.packs.filter (fun x => !packSound s.boot.image x.image)
  let s1 := { s with boot := { s.boot with packs := s.boot.packs.filter (fun x => packSound s.boot.image x.image) } }
  bad.foldl (fun s x => logFault s { kind := 10, device := deviceId s, d0 := x.id }) s1

/-- Slot states, fuses and revocations at READY, in order (R413). -/
def commitSlots (s : State) : State :=
  let k := s.boot.slot
  let o := 1 - k
  let ok := (getSlot s o).word != 0 && imgCheck s (getSlot s o).image == 0
  let s1 := putSlot (putSlot s k { getSlot s k with word := 2 }) o { getSlot s o with word := if ok then 1 else 0 }
  let svn := imgSvn s.boot.image
  let s2 := { s1 with boot := { s1.boot with counter := max s1.boot.counter svn,
                                             revoked := s1.boot.revoked ||| (recNat s.boot.image 7 1 / 4 % 16) } }
  (List.range 2).foldl (fun s j => if imgSvn (getSlot s j).image < s.boot.counter then putSlot s j { getSlot s j with word := 0 } else s) s2

/-- READY: Riendin is up (R310, R413, R415, R416, R424). -/
def execReady (s : State) : Host.Outcome State Fault Refusal :=
  if s.boot.state ≠ 1 then .next s
  else
    let s1 := commitSlots s
    let s2 := { s1 with boot := { s1.boot with state := 2, tried := [], parked := [] } }
    let s3 := layOut <| recheckPacks (if Config.identityOk then s2 else setErr s2 pgBoot 5)
    let s4 := match s3.boot.failedUnit with
      | some u => logFault s3 { kind := 3, cls := 6, device := deviceId s3, unit := hallUnit (u / 16), d0 := cUnit }
      | none => s3
    let s5 := (List.range 8).foldl (fun s h => putMc s h { getMc s h with refresh := false }) <| testSpares <| refillAll (if s.boot.parked.isEmpty then s4 else recoverCtxs { s4 with ctxs := s.boot.parked })
    .next ((List.range 48).foldl (fun s n => if fld s (pgLink n) Reg.LK_CTRL 0 0 = 1 ∧ (getLink s n).state = 0 then trainLink s n else s) s5)

/-! Firmware updates (R420, R421). -/

def stFwInvalid : Nat := 0x4A
def stFwRollback : Nat := 0x4B
def stIdentityLost : Nat := 0x4C

/-- An update is refused. -/
def fwRefuse (s : State) (o : Origin) (st : Nat) : State := answer (setErr s pgBoot 4) o st

/-- FW_UPDATE: step 1, then the image is read. -/
def doFwUpdate (s : State) (o : Origin) (b : BufRef) : State :=
  if fwBusy s then fwRefuse s o stBusy
  else
    let st := bufStatus s b 33554432 false
    if st = stLengthInvalid then fwRefuse s o st else if st ≠ 0 then answer s o st else startRead s b (.firmware o)

/-- Steps 2 and 3: the image is checked, the slot that is not ACTIVE becomes EMPTY and is written. -/
def firmwareArrived (s : State) (o : Origin) (img : List Byte) : State :=
  match imgCheck s img with
  | 0 => { putSlot s (1 - s.boot.slot) { getSlot s (1 - s.boot.slot) with word := 0 } with
           boot := { (putSlot s (1 - s.boot.slot) { getSlot s (1 - s.boot.slot) with word := 0 }).boot with updating := some (o, img) } }
  | 1 => fwRefuse s o stFwInvalid
  | _ => fwRefuse s o stFwRollback

/-- FW_WRITE_DONE: the slot is PENDING, the response is sent (R420). -/
def execFwWriteDone (s : State) : Host.Outcome State Fault Refusal :=
  match s.boot.updating with
  | none => .next s
  | some (o, img) =>
    let s1 := putSlot s (1 - s.boot.slot) { word := 3, image := img }
    .next (answer { s1 with boot := { s1.boot with updating := none } } o stOk)

/-! Probe packs (R311). -/

/-- PROBE_LOAD: the pack is read. -/
def doProbeLoad (s : State) (o : Origin) (b : BufRef) : State :=
  let st := bufStatus s b (16 * 2 ^ 20) false
  if st ≠ 0 then answer s o st else startRead s b (.probe o)

/-- The pack arrives: refused where it does not verify or is older than the last accepted version, else stored, the oldest of eight
giving way; spares take it up (R311, R312). The status of a refusal is not stated: a free value (log entry 39). -/
def probeArrived (s : State) (o : Origin) (pack : List Byte) : State :=
  let id := recNat pack 0 4
  let v := recNat pack 4 4
  if pack.length < 72 ∨ !packSound s.boot.image pack ∨ v < s.boot.versions.get 0 id then
    let f := freeNext s
    answer f.2 o (1 + f.1.toNat % 255)
  else
    let kept := s.boot.packs.filter (fun x => x.id != id)
    let room : List Pack := if 8 ≤ kept.length then kept.drop (kept.length - 7) else kept
    let new : Pack := ⟨id, v, pack⟩
    let s1 : State := { s with boot := { s.boot with packs := room ++ [new], versions := s.boot.versions.insert id v } }
    answer (((s1.gals.filter (fun e => e.2.state == 1)).map (·.1)).foldl startProbe s1) o stOk

/-! Attestation (R418, R419, R422, R423). -/

/-- Every page of the device in increasing address order (R427). -/
def allPages : List Page :=
  let hub := (List.range 0x1078).filterMap hubPage
  hub ++ (List.range 8).flatMap (fun h => (List.range 16).flatMap (fun a =>
    [pgAisle h a] ++ (List.range 68).map (pgFArray h a) ++ (List.range 68).map (pgLanding h a) ++ (List.range 68).map (pgBArray h a) ++
      (if a = 0 then [pgPeg h, pgStack h, pgUpdate h, pgMemory h, pgMonitor h] else [])))

/-- The applied RWS and RWR words of a page, in address order; a register behind a selector counts as it is selected (log entry 40). -/
def configWords (s : State) (p : Page) : List Nat :=
  let offs := ((((allFields p.kind).filter (fun f => f.acc == .rws || f.acc == .rwr)).map (·.off)).eraseDups).mergeSort (fun a b => decide (a ≤ b))
  offs.map (fun o => regView s p o &&& (maskAt p.kind o .rws ||| maskAt p.kind o .rwr))

/-- The NET_CONFIG record as its payload lays it out (R368). -/
def netBytes (c : NetCfg) : List Byte :=
  natLe c.ipv4 4 ++ natLe c.ipv6 16 ++ natLe c.pfx 1 ++ natLe 0 3 ++ (List.range 16).flatMap (fun i => natLe (c.allow.getD i 0) 16)

/-- The configuration digest (R423). -/
def configDigest (s : State) : List Byte :=
  let pair := match s.twin.twin with
    | some d => natLe d 2 ++ natLe s.twin.links 8
    | none => natLe 0 10
  sha256 (netBytes s.host.net ++ pair ++ (allPages.flatMap (configWords s)).flatMap (fun w => natLe w 4))

/-- Bytes 0 to 255 of the report (R422). -/
def reportBody (s : State) (nonce : List Byte) : List Byte :=
  let img := s.boot.image
  let pend := match pendingSlot s with
    | some k => measure (imgBytes (getSlot s k).image)
    | none => List.replicate 32 0#8
  let flags := deviceId s + bnat (idValid s) * 2 ^ 12 + bnat (pendingSlot s).isSome * 2 ^ 13 + bnat s.boot.fallback * 2 ^ 14 +
    s.boot.revoked % 16 * 2 ^ 16 + s.boot.packs.length % 16 * 2 ^ 20
  natLe 0x5454534A 4 ++ natLe 1 2 ++ natLe (imgSvn img) 1 ++ natLe s.boot.counter 1 ++ natLe Config.serialNumber.toNat 8 ++
    natLe (imgVersion img) 4 ++ natLe flags 12 ++ nonce ++ measure img ++ pend ++ configDigest s ++
    (List.range 8).flatMap (fun i => match s.boot.packs[i]? with
      | some x => natLe x.id 4 ++ natLe x.version 4
      | none => natLe 0 8) ++ natLe s.power.tick 8 ++ natLe 0 24

/-- ATTEST: from a ring refused, without a key refused, else the signed report (R370, R418, R420, R422). -/
def doAttest (s : State) (o : Origin) (nonce : List Byte) : State :=
  if o.onRing || nonce.length != 32 then answer s o stLengthInvalid
  else if !Config.identityOk then answer s o stIdentityLost
  else
    let b := reportBody s nonce
    respond { s with freeCtr := s.freeCtr + 1 } o stOk (b ++ Config.ecdsaSign (sha256 b) s.freeCtr)

/-- CERT: both certificates, each behind its length (R419, R420). -/
def doCert (s : State) (o : Origin) : State :=
  if o.onRing then answer s o stLengthInvalid
  else
    let c := Config.certificates
    respond s o stOk (natLe c.1.length 2 ++ c.1 ++ natLe c.2.length 2 ++ c.2)

/-! The service port (R445). -/

/-- Bytes of a firmware slot (R412). -/
def slotBytes : Nat := 33554432

/-- Replace part of a list of bytes that reads 0xFF where nothing was written. -/
def patch (l : List Byte) (off : Nat) (data : List Byte) : List Byte :=
  let m := l ++ List.replicate (off - l.length) 0xFF#8
  m.take off ++ data ++ m.drop (off + data.length)

/-- Put bytes into flash: slot A lies at 0, slot B behind it, the rest above (log entry 41). -/
def flashPut (s : State) (addr : Nat) (data : List Byte) : State :=
  if addr < 2 * slotBytes then
    let k := addr / slotBytes
    let off := addr % slotBytes
    let here := data.take (slotBytes - off)
    let x := getSlot s k
    putSlot s k { word := if x.word = 0 then 1 else x.word, image := patch x.image off here }
  else { s with boot := { s.boot with flash := Mem.writeBytes s.boot.flash addr data } }

/-- FLASH_ERASE: a slot erased whole is EMPTY (R445; log entry 41). -/
def execFlashErase (addr len : Nat) (s : State) : Host.Outcome State Fault Refusal :=
  if !s.boot.service then .next s
  else
    let f (s : State) (k : Nat) : State :=
      let lo := max addr (k * slotBytes)
      let hi := min (addr + len) ((k + 1) * slotBytes)
      let x := getSlot s k
      if hi ≤ lo then s
      else if hi - lo = slotBytes then putSlot s k {}
      else putSlot s k { x with image := patch x.image (lo - k * slotBytes) (List.replicate (min hi (k * slotBytes + x.image.length) - lo) 0xFF#8) }
    let s1 := f (f s 0) 1
    .next { s1 with boot := { s1.boot with flash := s1.boot.flash.filter (fun c => !(decide (addr ≤ c.1 ∧ c.1 < addr + len))) } }

/-- FLASH_WRITE: in service mode only; what is written is still checked at the next boot (R445). -/
def execFlashWrite (addr : Nat) (data : List Byte) (s : State) : Host.Outcome State Fault Refusal :=
  if s.boot.service then .next (flashPut s addr data) else .next s

end Sys2Proof.Machine
end

