-- ==== Sys2Proof/Machine/Power.lean ====
section
/-! DEFINITION. Supplies, resets, sleep states, the clock, the monitors, the thermal trip, the pins they drive (R177, R390, R392-R409,
R441, R447, R448). -/

namespace Sys2Proof.Machine

/-! What is up. -/

/-- A 48 V input is in its window. -/
def has48 (s : State) : Bool := s.power.mainOk || s.power.backupOk

/-- The hubs run: powered, out of reset, not stopped by a trip, not DORMANT. -/
def hubsRun (s : State) : Bool := has48 s && !s.power.poreset && !s.power.warmreset && !s.power.tripped && !s.power.dormant

/-- Riendin is READY and the hubs run. -/
def deviceUp (s : State) : Bool := hubsRun s && s.boot.state == 2

/-- A rising edge of a line that has no level to hold: the source is pending; while the device sleeps it latches into the retention
registers (R390, R393, R400). -/
def raiseSource (s : State) (n : Nat) : State :=
  match s.ec.image with
  | some r => { s with ec := { s.ec with image := some { r with late := r.late ++ [n] } } }
  | none => putSrc s n { getSrc s n with pend := true }

/-- One tick of REFCLK: the monotonic count, 64 bits, advances while the always-on domain is supplied (R402). -/
def tickClock (s : State) : State :=
  if s.power.refclk && (has48 s || s.power.stbyOk) then { s with power := { s.power with tick := (s.power.tick + 1) % 2 ^ 64 } } else s

/-! Pins (R405, R441, R442): none where the output is high-impedance. -/

/-- THERMTRIP_N, open drain. -/
def pinThermtrip (s : State) : Option Bool := if s.power.control && s.power.therm then some false else none

/-- FAULT_N, open drain. -/
def pinFault (s : State) : Option Bool := if s.power.control && s.power.fault then some false else none

/-- READY, push-pull. -/
def pinReady (s : State) : Option Bool := if s.power.control then some (s.boot.state == 2) else none

/-! Registers of a domain that loses power (R431). -/

/-- A word after power-off: RW fields at their reset value, W1C fields cleared; RWS and RWR fields kept. -/
def offWord (p : Page) (off v : Nat) : Nat :=
  let keep := maskAt p.kind off .rws ||| maskAt p.kind off .rwr
  (v &&& keep) + (resetAt p.kind off &&& maskAt p.kind off .rw)

/-- The domain of the pages of a predicate loses power: set W1C bits go to the fault log first (R374 KIND 9, R431). -/
def powerOffPages (s : State) (which : Page → Bool) : State :=
  s.regs.applied.foldl (fun s e =>
    match pageOf e.1 with
    | none => s
    | some p =>
      if !which p then s
      else
        let off := e.1 - p.base
        let w1c := e.2 &&& maskAt p.kind off .w1c
        let s1 := if w1c = 0 || off < 0x80 then s else logFault s { kind := 9, device := deviceId s, d0 := w1c, addr := e.1 }
        regSet s1 p off (offWord p off e.2)) s

/-! Resets (R403, R404, R412-R416). -/

/-- Every gallery as a boot restores it. -/
def restoreGals (cold : Bool) (s : State) : SMap Gallery :=
  ((s.gals.map (·.1)).foldl (fun t k => putGal t k (restoredGal cold (getGal s k))) { s with gals := [] }).gals

/-- A warm reset: hubs, halls and aisles are reset, HBM contents lie in self-refresh, the always-on domain, fuses and flash stay; PW_ERR
keeps REF_LOST (R404, R409, R432). -/
def warmState (s : State) : State :=
  let ref := bit (regGet s pgPower Reg.PW_ERR) 4
  let parked := if s.boot.parked.isEmpty then s.ctxs else s.boot.parked
  let mem := (List.range 8).map (fun h => (h, { getMc s h with events := [], retrain := none, due := none, refresh := true }))
  let s1 : State :=
    { pending := s.pending, freeCtr := s.freeCtr, gals := restoreGals false s, nextRef := s.nextRef, fence := s.fence, lostDevs := s.lostDevs
      host := { net := s.host.net, nextXfer := s.host.nextXfer, devRings := s.host.devRings }
      power := { s.power with dormant := false, asleep := 0, waking := 0, capValue := [], lost := false, control := false, pins := false }
      monitors := s.monitors.map (fun e => (e.1, { e.2 with thermal := 16 }))
      boot := { s.boot with state := 0, image := [], tried := [], updating := none, service := false, fallback := false, resume := none,
                            parked := parked, waitCool := false }
      mem := mem, silent := { movers := s.silent.movers }, out := s.out }
  if ref then regSet s1 pgPower Reg.PW_ERR 16 else s1

/-- A cold reset: besides, HBM contents and fences are gone, soft repairs are hard (R320, R335, R403). -/
def coldState (s : State) : State :=
  let s1 := warmState s
  { s1 with
    regs := {}, gals := restoreGals true s, fence := [], lostDevs := []
    host := { net := s.host.net, nextXfer := s.host.nextXfer }
    boot := { s1.boot with parked := [] }
    mem := (List.range 8).foldl (fun (m : SMap MemCtl) h => m.put {} h { spares := (getMc s h).spares, withdrawn := (getMc s h).withdrawn }) [] }

/-- Some sensor reads above its trip level less 10 °C (R448). -/
def hot (s : State) : Bool :=
  s.monitors.any (fun m => m.2.temps.any (fun e => e.2.2 && decide (e.2.1 > if m.1 < 8 ∧ e.1 = 64 then 760 else 880)))

/-- The SC begins a cold boot; above the trip level less 10 °C it waits, THERMTRIP_N and FAULT_N low again (R415, R448). -/
def coldBoot (s : State) : State :=
  if hot s then { s with power := { s.power with control := true, therm := true, fault := true }, boot := { s.boot with waitCool := true } }
  else bootNext { s with power := { s.power with control := true } }

/-- PORESET_N goes low (R403, R405, R441). -/
def execPoresetNAssert (s : State) : Host.Outcome State Fault Refusal :=
  let s1 := coldState s
  .next { s1 with power := { s1.power with poreset := true, tripped := false, therm := false, fault := false } }

/-- PORESET_N is released: with SVC_EN_N low service mode, else a cold boot, where a 48 V input is present (R394, R405, R415, R445). The
supply and the clock are held to be good at release, as R403 demands (log entry 44). -/
def execPoresetNRelease (svcEnN : Bool) (s : State) : Host.Outcome State Fault Refusal :=
  if !s.power.poreset then .next s
  else
    let s1 := { s with power := { s.power with poreset := false, control := true, refclk := true, stbyOk := true,
                                               stbyMv := if s.power.stbyOk then s.power.stbyMv else 3300 } }
    if !svcEnN then .next { s1 with boot := { s1.boot with service := true } }
    else if has48 s1 then .next (coldBoot s1) else .next s1

/-- The falling edge of a warm reset; ignored while PORESET_N is low, and after a trip (R404, R448). -/
def warmFall (s : State) : State :=
  if s.power.poreset || s.power.tripped || s.power.warmreset then s
  else
    let s1 := warmState s
    { s1 with power := { s1.power with warmreset := true } }

/-- The release of a warm reset: the SC boots from flash again (R404, R416). -/
def warmRise (s : State) : State :=
  if !s.power.warmreset then s
  else
    let s1 := { s with power := { s.power with warmreset := false, control := true } }
    if has48 s1 && !s1.power.tripped then bootNext s1 else s1

/-- WARMRESET_N_FALL. -/
def execWarmresetNFall (s : State) : Host.Outcome State Fault Refusal := .next (warmFall s)

/-- WARMRESET_N_RISE. -/
def execWarmresetNRise (s : State) : Host.Outcome State Fault Refusal := .next (warmRise s)

/-- PW_CTRL.WARM: a falling edge followed by a release (R404). -/
def warmReset (s : State) : State := if hubsRun s then warmRise (warmFall s) else s

/-- WARM. -/
def execWarm (s : State) : Host.Outcome State Fault Refusal := .next (warmReset s)

/-- ROM_WATCHDOG: Riendin did not reach READY in time: the hubs are reset, the next slot is booted, FALLBACK is set (R413). -/
def execRomWatchdog (s : State) : Host.Outcome State Fault Refusal :=
  if s.boot.state ≠ 1 then .next s
  else
    let s1 := { s with regs := { s.regs with applied := s.regs.applied.filter (fun e => decide (0x08000000 ≤ e.1)),
                                             shadow := s.regs.shadow.filter (fun e => decide (0x08000000 ≤ e.1)), latch := [], swings := [], groups := [] }
                       links := [], router := {}, ec := {}
                       power := { s.power with pins := false }
                       boot := { s.boot with state := 0, fallback := true } }
    .next (bootNext (setErr s1 pgBoot 2))

/-! Supplies (R338, R392-R394). -/

/-- A supply event in the fault log (R374 KIND 5): 0 MAIN, 1 BACKUP, 2 STBY, 3 REFCLK. -/
def logSupply (s : State) (input : Nat) : State := logFault s { kind := 5, device := deviceId s, d0 := input }

/-- A stopped device: everything but the always-on domain, the fuses and flash is out of reach, or gone, until a cold boot
(R394, R447; log entry 43). -/
def deadState (s : State) : State :=
  let s1 := coldState s
  { s1 with out := s.out }

/-- Both 48 V inputs are lost: DOWN beats, then every domain but the always-on one loses power; without STBY that one too (R317, R338,
R394, R402). -/
def powerDown (s : State) : State :=
  let s1 := if hubsRun s then declareLost s 0 cUnit else s
  let s2 := deadState s1
  let s3 := { s2 with power := { s2.power with mainOk := false, backupOk := false, watts := 0 } }
  if s3.power.stbyOk then s3 else { s3 with power := { s3.power with tick := 0, therm := false, fault := false } }

/-- An input outside its window (R392, R393). -/
def outside (mv : Nat) : Bool := decide (mv < 40000 ∨ 60000 < mv)

/-- Take the state of an input. -/
def putInput (s : State) (input mv : Nat) (ok : Bool) : State :=
  if input = 0 then { s with power := { s.power with mainOk := ok, mainMv := mv } }
  else { s with power := { s.power with backupOk := ok, backupMv := mv } }

/-- The input is in use. -/
def inputOk (s : State) (input : Nat) : Bool := if input = 0 then s.power.mainOk else s.power.backupOk

/-- Error bits of the power manager that a lost input sets, its source, its log entry, its class 5 recovery, which interrupts nothing
(R316, R338, R393). -/
def noteInput (s : State) (input mv : Nat) : State :=
  let s1 := setErr s pgPower input
  let s2 := if 60000 < mv then setErr s1 pgPower 3 else s1
  settleRecovery (recoveryWaits (beginRecovery (logSupply (raiseSource s2 254) input) 5 0 (deviceId s) cUnit false) [] 0)

/-- SUPPLY_LOST (R338, R393). -/
def execSupplyLost (input mv : Nat) (s : State) : Host.Outcome State Fault Refusal :=
  if 2 ≤ input ∨ !outside mv ∨ !inputOk s input then .next s
  else
    let s1 := putInput s input mv false
    if !has48 s1 then .next (powerDown s1)
    else if hubsRun s1 then .next (noteInput s1 input mv)
    else if s1.power.dormant then .next (raiseSource s1 254)
    else .next s1

/-- A 48 V input comes back: taken into use; where none was, a cold boot follows with PORESET_N high (R393, R394). -/
def inputBack (s : State) (input mv : Nat) : State :=
  if 2 ≤ input ∨ outside mv ∨ inputOk s input then s
  else
    let s1 := putInput s input mv true
    if has48 s || s.power.poreset || s.power.warmreset then s1
    else coldBoot (let t := coldState s1; { t with power := { t.power with tripped := false } })

/-- SUPPLY_RETURN. -/
def execSupplyReturn (input mv : Nat) (s : State) : Host.Outcome State Fault Refusal := .next (inputBack s input mv)

/-- POWER_RETURN: acts where both inputs were lost (R394). -/
def execPowerReturn (input mv : Nat) (s : State) : Host.Outcome State Fault Refusal :=
  if has48 s then .next s else .next (inputBack s input mv)

/-- POWER_LOST (R338, R394). -/
def execPowerLost (s : State) : Host.Outcome State Fault Refusal :=
  if has48 s then .next (powerDown { s with power := { s.power with mainMv := 0, backupMv := 0 } }) else .next s

/-- STBY_LOST: with a 48 V input nothing changes but PW_ERR and source 254; without, the always-on domain is gone (R394, R402). -/
def execStbyLost (mv : Nat) (s : State) : Host.Outcome State Fault Refusal :=
  if !s.power.stbyOk ∨ (3135 ≤ mv ∧ mv ≤ 3465) then .next s
  else
    let s1 := { s with power := { s.power with stbyOk := false, stbyMv := mv } }
    if !has48 s1 then .next (powerDown s1)
    else if hubsRun s1 then .next (logSupply (raiseSource (setErr s1 pgPower 2) 254) 2)
    else if s1.power.dormant then .next (raiseSource s1 254)
    else .next s1

/-- REF_LOST: the device declares itself lost while its PLLs hold (R402). -/
def execRefLost (s : State) : Host.Outcome State Fault Refusal :=
  if !s.power.refclk ∨ s.power.poreset then .next s
  else
    let s1 := { s with power := { s.power with refclk := false } }
    if hubsRun s1 then .next (declareLost (logSupply (setErr s1 pgPower 4) 3) 0 cUnit) else .next (setErr s1 pgPower 4)

/-! DORMANT (R390, R399, R400, R417). -/

/-- Every condition of R399. -/
def mayDormant (s : State) : Bool :=
  deviceUp s && bit (regGet s pgPower Reg.PW_CTRL) 1 && awakeMask s == 0 && (activeCtxs s).isEmpty &&
    (s.twin.state == 0 || s.twin.state == 4) && !s.twin.serving && !(s.ctxs.any (fun e => e.2.shadow.held))

/-- DORMANT_ENTRY: event state retained, the running image's digest and SVN kept, links and host port down, the hubs off (R399, R417,
R431). -/
def execDormantEntry (s : State) : Host.Outcome State Fault Refusal :=
  if !mayDormant s then .next s
  else
    let s1 := powerOffPages (saveRetention s) (fun p => p.hall.isNone)
    .next { s1 with
      links := [], ec := { image := s1.ec.image }
      boot := { s1.boot with resume := some (measure s.boot.image, imgSvn s.boot.image) }
      power := { s1.power with dormant := true, pins := false } }

/-- DORMANT ends: the resume form of verification decides between the reloaded hub state and a cold boot (R400, R417). -/
def wake (s : State) (imageOk : Bool) : State :=
  let s1 := raiseSource s 253
  let ok := imageOk && (match s.boot.resume with
    | some (_, svn) => decide (s.boot.counter ≤ svn)
    | none => false)
  if ok then
    let s2 := restoreRetention { s1 with power := { s1.power with dormant := false, pins := true }, boot := { s1.boot with resume := none } }
    (List.range 48).foldl (fun s n => if fld s (pgLink n) Reg.LK_CTRL 0 0 = 1 then trainLink s n else s) s2
  else
    let s2 := coldState s1
    coldBoot (setErr { s2 with ec := {} } pgBoot 3)

/-- WAKE_N: a rising edge; `imageOk`: the HBM copy's hash equals the retained value. -/
def execWakeN (imageOk : Bool) (s : State) : Host.Outcome State Fault Refusal :=
  if s.power.dormant && !s.power.poreset then .next (wake s imageOk) else .next s

/-- PW_WAKE: the wake timer expires; 0 disables it (R400, R409). -/
def execPwWake (imageOk : Bool) (s : State) : Host.Outcome State Fault Refusal :=
  if s.power.dormant && !s.power.poreset && regGet s pgPower Reg.PW_WAKE != 0 then .next (wake s imageOk) else .next s

/-! Gates and halls (R177, R395-R397, R432). -/

/-- Some page of a kind of place has a swing staged, waiting or draining: it keeps its power (R432). -/
def swingPending (s : State) (which : Page → Bool) : Bool :=
  ((s.regs.shadow.map (·.1) ++ s.regs.swings.map (·.1)).any (fun a => match pageOf a with
    | some p => which p && swingState s p != 0
    | none => false))

/-- A gallery's power gate may close (R396, R432). -/
def mayGate (s : State) (k : Nat) : Bool :=
  let g := getGal s k
  g.powered && (ownerOf s k).isNone && g.state != 1 && !g.testing && g.probing.isNone &&
    !(s.ctxs.any (fun e => e.2.dups.any (fun d => d.gals.contains k))) && !swingPending s (fun p => pageGal p == some k)

/-- GATE_IDLE: the gate closes; the SRAM behind it is lost (R395, R396, R431). -/
def execGateIdle (hall aisle gallery : Nat) (s : State) : Host.Outcome State Fault Refusal :=
  let k := galKey (hall % 8) (aisle % 16) (gallery % 68)
  if deviceUp s && !bit s.power.asleep (hall % 8) && mayGate s k then
    .next (modGal (powerOffPages s (fun p => pageGal p == some k)) k (fun g => { g with powered := false }))
  else .next s

/-- WAKE_KAT: pipelines run the test on wake (R180). -/
def wakeKat (s : State) : Bool := fld s pgReference Reg.RN_CTRL 0 0 == 1

/-- GATE_OPEN: the gallery has power; a failed known-answer test is a gallery fault (R177, R395). -/
def execGateOpen (hall aisle gallery : Nat) (katOk : Bool) (s : State) : Host.Outcome State Fault Refusal :=
  let k := galKey (hall % 8) (aisle % 16) (gallery % 68)
  if !deviceUp s || bit s.power.asleep (hall % 8) then .next s
  else
    let s1 := modGal s k (fun g => { g with powered := true })
    if wakeKat s && !katOk then .next (galleryFaultFree (katFail s1) k cUnit) else .next s1

/-- A hall may sleep (R396, R432). -/
def maySleep (s : State) (h : Nat) : Bool :=
  bit (regGet s pgPower Reg.PW_CTRL) 0 && !bit s.power.asleep h && hallFree_ s h &&
    !(s.ctxs.any (fun e => e.2.state == 2 && e.2.homeBytes.get 0 h != 0)) && !(s.pegs.any (fun e => e.1 / 1024 == h && e.2.bound)) &&
    (getMc s h).retrain.isNone && !(s.gals.any (fun e => keyHall e.1 == h && e.2.testing)) &&
    !((List.range 16).any (fun a => swingState s (pgAisle h a) != 0)) && !swingPending s (fun p => p.hall == some h)

/-- Change the galleries of a hall. -/
def modHallGals (s : State) (h : Nat) (f : Nat → Gallery → Gallery) : State :=
  ((List.range 16).flatMap (aisleGals h)).foldl (fun s k => modGal s k (f k)) s

/-- HALL_IDLE: the stack enters self-refresh, then the hall edge and every aisle lose power (R396, R431). -/
def execHallIdle (hall : Nat) (s : State) : Host.Outcome State Fault Refusal :=
  let h := hall % 8
  if deviceUp s && maySleep s h then
    let s1 := powerOffPages (putMc s h { getMc s h with refresh := true }) (fun p => p.hall == some h)
    let s2 := modHallGals s1 h (fun _ g => { g with powered := false })
    .next { s2 with power := { s2.power with asleep := s2.power.asleep ||| 2 ^ h } }
  else .next s

/-- The cap value that a waking hall starts at: that of the halls awake while the cap is exceeded (R407). -/
def wakeCap (s : State) : Nat :=
  let l := ((List.range 8).filter (fun h => !bit s.power.asleep h)).map (capValue s)
  if powerCap s < s.power.watts then l.foldl min 16 else 16

/-- HALL_WAKE_DONE: the hall is awake, its needed galleries powered; late beyond 60 µs; a failed test of its update engine is that unit's
fault, one of a joiner a gallery fault of its gallery, among those that were given power (R177, R397). -/
def execHallWakeDone (hall ns : Nat) (tests : WakeTests) (s : State) : Host.Outcome State Fault Refusal :=
  let h := hall % 8
  if !deviceUp s || !bit s.power.asleep h || !bit s.power.waking h then .next s
  else
    let cap := wakeCap s
    let s1 := { s with power := { s.power with asleep := setBits s.power.asleep h h 0, waking := setBits s.power.waking h h 0,
                                               capValue := s.power.capValue.put 16 h cap } }
    let s2 := modHallGals (putMc s1 h { getMc s1 h with refresh := false }) h (fun k g =>
      if g.state = 1 ∨ g.testing = true ∨ (ownerOf s1 k).isSome then { g with powered := true } else g)
    let s3 := if 60000 < ns then setErr s2 pgPower 5 else s2
    if !wakeKat s then .next s3
    else
      let woken := (((List.range 16).flatMap (aisleGals h)).filter (fun k => tests.bad.contains k && (getGal s3 k).powered))
      let s4 := woken.foldl (fun s k => galleryFaultFree (katFail s) k cUnit) s3
      .next (if tests.engineOk then s4 else declareLost (katFail s4) (hallUnit h) cUnit)

/-! Monitors (R406, R407). -/

/-- Store a monitor. -/
def putMon (s : State) (u : Nat) (m : Monitor) : State := { s with monitors := s.monitors.put {} u m }

/-- A sensor is ignored: MN_ERR.SENSOR, logged (R374 KIND 6, R406). -/
def sensorBad (s : State) (u i : Nat) (t : Int) : State :=
  let m := getMon s u
  setErr (logFault (putMon s u { m with temps := m.temps.insert i (t, false) }) { kind := 6, device := deviceId s, unit := i, d0 := codeOf 32 t })
    (pgMonitor u) 3

/-- Take a reading in 0.125 °C; outside −40 to +150 °C it is ignored (R406). -/
def takeReading (s : State) (x : Nat × Nat × Int) : State :=
  let u := x.1
  let i := x.2.1
  let t := x.2.2
  if 10 ≤ u ∨ sensorCount u ≤ i then s
  else if t < -320 ∨ 1200 < t then sensorBad s u i t
  else putMon s u { getMon s u with temps := (getMon s u).temps.insert i (t, true) }

/-- WARN on a unit's page (R407). -/
def warnUnit (s : State) (u : Nat) : State :=
  if (validTemps (getMon s u)).any (fun t => decide (8 * (fld s (pgMonitor u) Reg.MN_CTRL 7 0 : Int) ≤ t)) then setErr s (pgMonitor u) 0 else s

/-- The thermal value of a hall, from its 64 sensors (R407). -/
def thermalStep (s : State) (h : Nat) : State :=
  let p := pgMonitor h
  let m := getMon s h
  let ts := validTemps { m with temps := m.temps.filter (fun e => decide (e.1 < 64)) }
  let thr : Int := 8 * (fld s p Reg.MN_CTRL 15 8 : Int)
  let hyst : Int := 8 * (max 1 (fld s p Reg.MN_CTRL 19 16) : Int)
  if ts.any (fun t => decide (thr ≤ t)) then
    let s1 := putMon s h { m with thermal := max 4 (m.thermal - 1) }
    if m.thermal = 16 then setErr s1 p 1 else s1
  else if ts.all (fun t => decide (t < thr - hyst)) then putMon s h { m with thermal := min 16 (m.thermal + 1) }
  else s

/-- The cap value of every awake hall (R407). -/
def capStep (s : State) : State :=
  let cap := powerCap s
  let w := s.power.watts
  (List.range 8).foldl (fun s h =>
    if bit s.power.asleep h then s
    else
      let v := capValue s h
      let n := if cap < w then max 4 (v - 1) else if w * 100 < cap * 98 then min 16 (v + 1) else v
      { s with power := { s.power with capValue := s.power.capValue.put 16 h n } }) s

/-- DUTY_UPDATE: readings, warnings, the issue duty of every hall; a release that waits for cooling goes on once it may (R406, R407,
R448). -/
def execDutyUpdate (temps : List (Nat × Nat × Int)) (watts : Nat) (s : State) : Host.Outcome State Fault Refusal :=
  if s.boot.waitCool then
    let s1 := temps.foldl takeReading s
    .next (if hot s1 then s1 else bootNext { s1 with boot := { s1.boot with waitCool := false } })
  else if !deviceUp s then .next s
  else
    let s1 := temps.foldl takeReading { s with power := { s.power with watts := watts } }
    let s2 := (List.range 10).foldl warnUnit s1
    .next (capStep (((List.range 8).filter (fun h => !bit s.power.asleep h)).foldl thermalStep s2))

/-- SENSOR_STALE (R406). -/
def execSensorStale (unit sensor : Nat) (s : State) : Host.Outcome State Fault Refusal :=
  if !deviceUp s ∨ 10 ≤ unit ∨ sensorCount unit ≤ sensor then .next s
  else .next (sensorBad s unit sensor ((((getMon s unit).temps.find sensor).map (·.1)).getD 0))

/-- RAIL_FAULT: a fault of every block on the rail: a gallery's, class 3; a hub's or a hall edge's, the device's loss (R316, R317,
R406). -/
def execRailFault (unit rail mv : Nat) (gallery : Option Nat) (s : State) : Host.Outcome State Fault Refusal :=
  if !deviceUp s ∨ 10 ≤ unit then .next s
  else
    let m := getMon s unit
    let s1 := putMon s unit { m with volts := m.volts.put 0 (rail % 256) mv }
    let s2 := setErr (logFault s1 { kind := 6, device := deviceId s, unit := rail, d0 := sat32 mv }) (pgMonitor unit) 2
    match gallery with
    | some k => if k < 8704 then .next (galleryFaultFree s2 k cUnit) else .next s2
    | none => .next (declareLost s2 (if unit < 8 then hallUnit unit else 0) cUnit)

/-- A reading as a record gives it: 0x8000 where it is not valid or absent (R374). -/
def tempField (m : Monitor) (i : Nat) : Nat :=
  match m.temps.find i with
  | some (t, true) => codeOf 16 t
  | _ => 0x8000

/-- The body of a monitor record (R374). -/
def monitorBody (s : State) (u : Nat) : List Byte :=
  let m := if u < 8 ∧ bit s.power.asleep u then {} else getMon s u
  natLe u 1 ++ natLe (dutyOf s u) 1 ++ natLe (if u = 8 then s.power.watts else 0) 2 ++ natLe (if u = 8 then s.power.mainMv / 10 else 0) 2 ++
    natLe (if u = 8 then s.power.backupMv / 10 else 0) 2 ++ (List.range 65).flatMap (fun i => natLe (if i < sensorCount u then tempField m i else 0x8000) 2) ++
    natLe m.volts.length 2 ++ (List.range 16).flatMap (fun i => natLe (m.freqs.get 0 i) 2) ++
    m.volts.flatMap (fun e => natLe e.1 2 ++ natLe e.2 2)

/-- Sample the ring oscillators of an awake unit: measured values, so free ones (R406; log entry 45). -/
def sampleRings (s : State) (u : Nat) : State :=
  if u < 8 ∧ bit s.power.asleep u then s
  else
    (List.range (if u < 8 then 16 else 1)).foldl (fun s i =>
      let f := freeNext s
      putMon f.2 u { getMon f.2 u with freqs := (getMon f.2 u).freqs.insert i (f.1.toNat % 65536) }) s

/-- MONITOR_RECORD (R374, R406). -/
def execMonitorRecord (unit : Nat) (s : State) : Host.Outcome State Fault Refusal :=
  if !deviceUp s ∨ 10 ≤ unit then .next s
  else
    let s1 := sampleRings s unit
    .next (pushRec s1 4 0xFFFF (monitorBody s1 unit))

/-! The thermal trip (R447). -/

/-- A sensor at its trip level, among valid readings. -/
def atTrip (unit sensor : Nat) (temp : Int) : Bool :=
  decide (unit < 10 ∧ sensor < sensorCount unit ∧ temp ≤ 1200 ∧ (if unit < 8 ∧ sensor = 64 then 840 else 960) ≤ temp)

/-- THERMAL_TRIP: THERMTRIP_N and FAULT_N low, a DOWN beat, link output stopped, every clock stopped, every stack in self-refresh; it
lasts until PORESET_N (R447, R448). -/
def execThermalTrip (unit sensor : Nat) (temp : Int) (s : State) : Host.Outcome State Fault Refusal :=
  if !atTrip unit sensor temp ∨ !has48 s ∨ s.power.poreset ∨ s.power.dormant ∨ s.power.tripped then .next s
  else
    let s1 := putMon s unit { getMon s unit with temps := (getMon s unit).temps.insert sensor (temp, true) }
    let s2 := deadState (if hubsRun s1 then declareLost s1 0 cUnit else s1)
    .next { s2 with
      power := { s2.power with tripped := true, therm := true, fault := true, control := true }
      mem := (List.range 8).map (fun h => (h, { getMc s2 h with refresh := true })) }

end Sys2Proof.Machine
end

