-- ==== Sys2Proof/Machine/Swing.lean ====
section
/-! DEFINITION. Shadow banks, swings, drains, swing groups and swing pegs (R433-R439). -/

namespace Sys2Proof.Machine

/-! A page's swing. -/

/-- Store the swing of a page. -/
def putSwing (s : State) (p : Page) (w : Swing) : State :=
  { s with regs := { s.regs with swings := s.regs.swings.put {} p.base w } }

/-- A gallery whose staged HOLD takes it out of service. -/
def holdsBack (s : State) (k : Nat) : Bool :=
  let g := getGal s k
  g.holdNext && !g.hold && g.state == 0

/-- The page stages a change of the table of R438. -/
def drainsOn (s : State) (p : Page) : Bool :=
  match p.kind with
  | 0x33 => (pageGals p).any (holdsBack s)
  | 0x1A => bit (regGet s p Reg.LK_CTRL) 0 && !bit (shadowGet s p Reg.LK_CTRL) 0
  | 0x1C => bit (regGet s p Reg.HP_CTRL) 0 && !bit (shadowGet s p Reg.HP_CTRL) 0
  | 0x1B => rwsDiffers s p Reg.RT_ID
  | _ => false

/-- The drain condition of R438; an aisle page's holds once no staged HOLD meets a gallery in service. -/
def drainDone (s : State) (p : Page) : Bool :=
  !drainsOn s p ||
    (match p.kind with
      | 0x1A => !(s.router.trunks.any (fun e => bit e.2 p.inst)) && (getLink s p.inst).retry.isEmpty
      | 0x1C => s.host.qps.isEmpty && s.host.sessions.isEmpty
      | 0x1B => (activeCtxs s).isEmpty && s.twin.state == 0 && !s.twin.serving
      | _ => false)

/-- The state of a pending swing: 3 DRAINING with a drained change, else 2 WAITING. -/
def pendingState (s : State) (p : Page) : Nat := if drainsOn s p then 3 else 2

/-- A staged write joins a pending swing: the drain is judged again (R439). -/
def rejudge (s : State) (p : Page) : State :=
  let w := getSwing s p
  if w.state = 0 then s else putSwing s p { w with state := pendingState s p }

/-- The page stands at its quiet point, and no recovery runs (R434). -/
def atQuiet (s : State) (p : Page) : Bool :=
  !recovering s &&
    (match pageGal p with
      | some k => (match ownerOf s k with
        | some n => quietCtx s n
        | none => true)
      | none => if p.kind = 0x33 then aisleQuiet s (p.inst / 2048) (p.inst / 128 % 16) else true)

/-- The contexts at whose boundary the page's quiet point lies. -/
def quietCtxs (s : State) (p : Page) : List Nat :=
  match pageGal p with
  | some k => (ownerOf s k).toList
  | none => if p.kind = 0x33 then aisleContexts s (p.inst / 2048) (p.inst / 128 % 16) else []

/-! Applying (R433, R438). -/

/-- Copy the RWS fields of a register from one word into another. -/
def mergeRws (p : Page) (off keep take : Nat) : Nat :=
  let m := maskAt p.kind off .rws
  (keep - (keep &&& m)) + (take &&& m)

/-- HOLD of a gallery takes its staged value: a held gallery takes no tests and no probe packs, one that returns is a spare that must
pass its test (R429). A retired gallery stays retired. -/
def applyHold (s : State) (k : Nat) : State :=
  let g := getGal s k
  if g.hold = g.holdNext then s
  else if g.holdNext then
    let s1 := abortProbe s k
    let x := getGal s1 k
    putGal s1 k { x with hold := true, state := if x.state = 5 then 5 else 4, testing := false, testReq := false,
                         slot := if x.state = 0 then 0x7F else x.slot }
  else putGal s k { g with hold := false, state := if g.state = 4 then 2 else g.state, testing := g.testing || g.state == 4, mustPass := g.mustPass || g.state == 4 }

/-- What a block does at once when its fields change: a link's EN, the routing tables, a gallery's HOLD (R357, R359, R429). -/
def applyBlock (s : State) (p : Page) (old : Nat) : State :=
  match p.kind with
  | 0x33 => (pageGals p).foldl applyHold s
  | 0x1A =>
    let new := regGet s p Reg.LK_CTRL
    if bit old 0 && !bit new 0 then noteBundle (stopLink s p.inst 0)
    else if !bit old 0 && bit new 0 then trainLink s p.inst else s
  | 0x1B =>
    let s1 := { s with router := { s.router with entries := s.router.staged, trunks := s.router.stagedTrunks } }
    (List.range 48).foldl (fun s n => modLink s n (fun l => { l with leftOut := false })) s1
  | _ => s

/-- Every staged field of a page is applied together: STATE returns to IDLE, SWINGS counts, EVT_PEND bit 31 (R430, R433). -/
def applyPage (s : State) (p : Page) : State :=
  let old := regGet s p Reg.LK_CTRL
  let s1 := (rwsOffs p.kind).foldl (fun s o => regSet s p o (mergeRws p o (regGet s p o) (shadowGet s p o))) s
  let s2 := applyBlock s1 p old
  let w := getSwing s2 p
  setEvt (putSwing s2 p { swings := (w.swings + 1) % 65536 }) p (2 ^ 31)

/-- The hold swaps of an aisle page at its quiet point: each takes a spare, or the aisle degrades; the gallery is withheld from then on and takes no
test (R15, R438, R439). -/
def holdSwaps (s : State) (p : Page) : State :=
  if p.kind = 0x33 then ((pageGals p).filter (holdsBack s)).foldl (fun s k => swapGallery s k false true) s else s

/-- Contexts that a swing held go on: first the other swaps of an aisle's boundary, then the commands that wait (R439). -/
def releaseCtxs (s : State) (ps : List Page) (ns : List Nat) : State :=
  let s1 := ps.foldl (fun s p => if p.kind = 0x33 then aisleSwaps s (p.inst / 2048) (p.inst / 128 % 16) else s) s
  ns.foldl runQueues s1

/-! GO and CANCEL (R433, R439). -/

/-- The swing group n. -/
def getGroup (s : State) (n : Nat) : SwingGroup := s.regs.groups.get {} n

/-- Store a swing group. -/
def putGroup (s : State) (n : Nat) (g : SwingGroup) : State :=
  { s with regs := { s.regs with groups := s.regs.groups.put {} n g } }

/-- GO: with nothing staged no effect; alone the page waits; with GROUP n it joins, raising the target of a group that has fired (R433,
R436; log entry 46). -/
def swingGo (s : State) (p : Page) (group : Nat) : State :=
  let w := getSwing s p
  let n := group % 16
  if !staged s p then s
  else if w.state ≠ 0 ∧ w.group ≠ 0 then (if n = 0 then s else setErr s pgSwing 1)
  else
    let s1 := putSwing s p { w with state := pendingState s p, group := n, arrived := false }
    if n = 0 then s1
    else
      let g := getGroup s1 n
      putGroup s1 n { g with members := g.members ++ [p.base], target := if g.fired then g.target + 1 else g.target }

/-- The pages of a group. -/
def groupPages (g : SwingGroup) : List Page := g.members.filterMap pageOf

/-- SPn is at its target: every member applies in the same hub cycle and the held contexts are released (R436). -/
def tryGroup (s : State) (n : Nat) : State :=
  let g := getGroup s n
  if g.fired && !g.members.isEmpty && decide (g.target ≤ g.count) && !recovering s then
    let ps := groupPages g
    let s1 := ps.foldl applyPage (putGroup s n {})
    releaseCtxs s1 ps g.held
  else s

/-- CANCEL: the applied values go into the shadow, the pending swing ends, the page leaves its group (R430, R439). -/
def swingCancel (s : State) (p : Page) : State :=
  let ctxs := if (getSwing s p).state = 0 then [] else quietCtxs s p
  let s1 := (rwsOffs p.kind).foldl (fun s o => shadowSet s p o (mergeRws p o (shadowGet s p o) (regGet s p o))) s
  let s2 := if p.kind = 0x33 then (pageGals p).foldl (fun s k => releaseHold (modGal s k (fun g => { g with holdNext := g.hold })) k) s1
    else if p.kind = 0x1B then { s1 with router := { s1.router with staged := s1.router.entries, stagedTrunks := s1.router.trunks } }
    else s1
  let w := getSwing s2 p
  let s3 := putSwing s2 p { w with state := 0, group := 0, arrived := false }
  if w.state ≠ 0 ∧ w.group ≠ 0 then
    let g := getGroup s3 w.group
    let ms := g.members.erase p.base
    let s4 := putGroup s3 w.group (if ms.isEmpty then {} else { g with
      members := ms, target := if g.fired then g.target - 1 else g.target, count := if w.arrived then g.count - 1 else g.count })
    tryGroup (if ms.isEmpty then releaseCtxs s4 [] g.held else s4) w.group
  else releaseCtxs s3 [p] ctxs

/-- A write to BLK_SWING: CANCEL goes before GO (log entry 46). -/
def swingWrite (s : State) (p : Page) (w : Nat) : State :=
  if bit w 1 then swingCancel s p else if bit w 0 then swingGo s p (bits w 11 8) else s

/-! Groups (R436). -/

/-- FIRE of a group: SPn's target is its member count; an empty group has nothing to fire. -/
def swingFire (s : State) (n : Nat) : State :=
  let g := getGroup s n
  if g.members.isEmpty then s else putGroup s n { g with fired := true, target := g.members.length }

/-- A group is aborted: nothing is applied, the contexts are released, the values stay staged, TIMEOUT is set (R436). -/
def swingAbort (s : State) (n : Nat) : State :=
  let g := getGroup s n
  if g.members.isEmpty then s
  else
    let s1 := (groupPages g).foldl (fun s p =>
      setEvt (putSwing s p { getSwing s p with state := 0, group := 0, timeout := true, arrived := false }) p (2 ^ 31)) (putGroup s n {})
    releaseCtxs (setErr s1 pgSwing 0) (groupPages g) g.held

/-- A write to SW_FIRE acts on the group selected (R437). -/
def swFireWrite (s : State) (w : Nat) : State :=
  let n := groupSel s
  if bit w 1 then swingAbort s n else if bit w 0 then swingFire s n else s

/-- Some member of the group still drains. -/
def groupDrains (s : State) (g : SwingGroup) : Bool := (groupPages g).any (fun p => !drainDone s p)

/-- A member arrives on SPn, holding its contexts (R436): a member whose quiet point is a boundary holds none while another drains. -/
def arriveOn (s : State) (p : Page) (n : Nat) : State :=
  let g := getGroup s n
  let cs := quietCtxs s p
  if !drainDone s p || (!cs.isEmpty && groupDrains s g) then s
  else
    let s1 := putSwing s p { getSwing s p with arrived := true }
    tryGroup (putGroup s1 n { g with count := g.count + 1, held := g.held ++ cs.filter (fun c => !g.held.contains c) }) n

/-! The commands. -/

/-- BLK_SWING_GO: GO on a page by its base address. -/
def execBlkSwingGo (page group : Nat) (s : State) : Host.Outcome State Fault Refusal :=
  match pageOf page with
  | some p => .next (if deviceUp s then swingGo s p group else s)
  | none => .next s

/-- BLK_SWING_CANCEL. -/
def execBlkSwingCancel (page : Nat) (s : State) : Host.Outcome State Fault Refusal :=
  match pageOf page with
  | some p => .next (if deviceUp s then swingCancel s p else s)
  | none => .next s

/-- The quiet point of a page that swings alone: hold swaps, then, its drain done, it applies (R434, R438). -/
def swingApply (s : State) (p : Page) : State :=
  let w := getSwing s p
  if w.state = 0 ∨ w.group ≠ 0 ∨ !atQuiet s p then s
  else
    let ns := quietCtxs s p
    let s1 := holdSwaps s p
    if drainDone s1 p then releaseCtxs (applyPage s1 p) [p] ns else s1

/-- SWING_APPLY. -/
def execSwingApply (page : Nat) (s : State) : Host.Outcome State Fault Refusal :=
  match pageOf page with
  | some p => .next (if deviceUp s then swingApply s p else s)
  | none => .next s

/-- SWING_FIRE: FIRE for the selected group. -/
def execSwingFire (s : State) : Host.Outcome State Fault Refusal := .next (if deviceUp s then swingFire s (groupSel s) else s)

/-- SWING_ABORT: ABORT for the selected group. -/
def execSwingAbort (s : State) : Host.Outcome State Fault Refusal := .next (if deviceUp s then swingAbort s (groupSel s) else s)

/-- A member of a fired group at its quiet point: its hold swaps, then its arrival. -/
def pegArrive (s : State) (p : Page) : State :=
  let w := getSwing s p
  let g := getGroup s w.group
  if w.state = 0 ∨ w.group = 0 ∨ !g.fired ∨ !atQuiet s p then s
  else if w.arrived then tryGroup s w.group
  else arriveOn (holdSwaps s p) p w.group

/-- SWING_PEG_ARRIVE. -/
def execSwingPegArrive (page : Nat) (s : State) : Host.Outcome State Fault Refusal :=
  match pageOf page with
  | some p => .next (if deviceUp s then pegArrive s p else s)
  | none => .next s

/-- HOLD_MAX: a context has been held for SW_CTRL.HOLD_MAX ms; 0 acts as 1 (R436, R437). -/
def execHoldMax (group ms : Nat) (s : State) : Host.Outcome State Fault Refusal :=
  if deviceUp s && !(getGroup s group).held.isEmpty && decide (max 1 (fld s pgSwing Reg.SW_CTRL 15 0) ≤ ms) then .next (swingAbort s group)
  else .next s

end Sys2Proof.Machine
end

