-- ==== Sys2Proof/Machine/Registers.lean ====
section
/-! DEFINITION. Register reads and writes (R426-R431, R433), latched high words (R72), the reference generator (R180). -/

namespace Sys2Proof.Machine

/-! Access (R428). -/

/-- An access opens a gated gallery's gate, and wakes a sleeping hall (R428). -/
def touch (s : State) (p : Page) : State :=
  let s1 := match p.hall with
    | some h => wakeHall s h
    | none => s
  match pageGal p with
  | some k => if (getGal s1 k).powered then s1 else modGal s1 k (fun g => { g with powered := true })
  | none => s1

/-- Every word of a range is mapped, from an aligned address (R428). -/
def rangeOk (addr count : Nat) : Bool := addr % 4 == 0 && (List.range count).all (fun i => (pageOf (addr + 4 * i)).isSome)

/-! Reads. -/

/-- Latch the high word of a 64-bit register whose low word is read (R72). -/
def latchHigh (s : State) (p : Page) (off : Nat) : State :=
  if latches p.kind off then
    let s1 := { s with regs := { s.regs with latch := s.regs.latch.insert (p.base + off + 4) (regView s p (off + 4) % 2 ^ 32) } }
    if readsFree s p (off + 4) then { s1 with freeCtr := s1.freeCtr + 1 } else s1
  else s

/-- What a read returns: a high word as it was latched, else what the register holds. -/
def readValue (s : State) (p : Page) (off : Nat) : Nat :=
  (match (if 4 ≤ off ∧ latches p.kind (off - 4) = true then s.regs.latch.find (p.base + off) else none) with
    | some v => v
    | none => regView s p off) % 2 ^ 32

/-- A read of GE_HIST fetches the window (R106). -/
def fetchHist (s : State) (p : Page) (off : Nat) : State :=
  if p.kind = 0x10 ∧ 0x098 ≤ off ∧ off ≤ 0x0B4 ∧ s.gauge.window ≠ some (geSelected s) then
    { s with gauge := { s.gauge with window := some (geSelected s), ready := false, hist := [] } }
  else s

/-- Read one word: its value and what the read leaves behind. -/
def readWord (s : State) (addr : Nat) : Nat × State :=
  match pageOf addr with
  | none => (0, s)
  | some p =>
    let off := addr - p.base
    let s1 := touch s p
    let s2 := if readsFree s1 p off then { s1 with freeCtr := s1.freeCtr + 1 } else s1
    (readValue s1 p off, fetchHist (latchHigh s2 p off) p off)

/-- Read words in rising address order (R426). -/
def readWords : Nat → State → Nat → List Nat × State
  | 0, s, _ => ([], s)
  | n + 1, s, addr =>
    let r := readWord s addr
    let t := readWords n r.2 (addr + 4)
    (r.1 :: t.1, t.2)

/-! Writes (R431). -/

/-- Replace the bits of a mask. -/
def maskIn (m old new : Nat) : Nat := (old - (old &&& m)) + (new &&& m)

/-- The plain effect of a write by the access of each field: RW and RWR at once, RWS into the shadow, W1C clears. -/
def plainWrite (s : State) (p : Page) (off w : Nat) : State :=
  let now := maskAt p.kind off .rw ||| maskAt p.kind off .rwr
  let clr := maskAt p.kind off .w1c &&& w
  let rws := maskAt p.kind off .rws
  let old := regGet s p off
  let v := maskIn now old w
  let s1 := if now = 0 ∧ clr = 0 then s else regSet s p off (v - (v &&& clr))
  if rws = 0 then s1 else rejudge (shadowSet s1 p off (maskIn rws (shadowGet s1 p off) w)) p

/-- EVT_ROUTE: the source it leaves and the source it joins take their levels (R430). -/
def routeWrite (s : State) (p : Page) (w : Nat) : State :=
  let old := lineOf s p
  let s1 := plainWrite s p Reg.EVT_ROUTE w
  updateLine (match old with
    | some n => setLine s1 n (sourceLevel s1 n)
    | none => s1) p

/-- A write into the common header. -/
def headerWrite (s : State) (p : Page) (off w : Nat) : State :=
  if off = Reg.BLK_SWING then swingWrite s p w
  else if off = Reg.EVT_SET then evtSetWrite s p w
  else if off = Reg.EVT_ROUTE then routeWrite s p w
  else if off = Reg.EVT_PEND ∨ off = Reg.EVT_EN then updateLine (plainWrite s p off w) p
  else plainWrite s p off w

/-- SM_FLAGS: ones clear flags of the selected context (R252). -/
def smFlagsWrite (s : State) (w : Nat) : State :=
  let n := fld s pgSimulation Reg.SM_SEL 9 0
  if (getCtx s n).state = 0 then s
  else modCtx s n (fun c => { c with flags := {
    nv := c.flags.nv && !bit w 0, dz := c.flags.dz && !bit w 1, of := c.flags.of && !bit w 2, uf := c.flags.uf && !bit w 3
    nx := c.flags.nx && !bit w 4 } })

/-- RT_ENTRY and RT_TMASK go into the shadow tables (R359). -/
def tableWrite (s : State) (off w : Nat) : State :=
  let e := fld s pgRouter Reg.RT_SEL 11 0
  let t := fld s pgRouter Reg.RT_TSEL 5 0
  let m := s.router.stagedTrunks.get 0 t
  let r := s.router
  let r1 := if off = Reg.RT_ENTRY then { r with staged := r.staged.put 0 e (w % 2 ^ 15) }
    else if off = Reg.RT_TMASK_LO then { r with stagedTrunks := r.stagedTrunks.put 0 t (m / 2 ^ 32 * 2 ^ 32 + w % 2 ^ 32) }
    else { r with stagedTrunks := r.stagedTrunks.put 0 t (m % 2 ^ 32 + w % 2 ^ 16 * 2 ^ 32) }
  rejudge { s with router := r1 } pgRouter

/-- AI_GCTRL: HOLD of the selected gallery is staged (R429). -/
def holdWrite (s : State) (p : Page) (w : Nat) : State :=
  match aisleSel s p with
  | some k => rejudge (releaseHold (modGal s k (fun g => { g with holdNext := bit w 0 })) k) p
  | none => s

/-- PG_FLAGS: REACHED cleared by a one, EVT_EN taken at once (R391). -/
def pgFlagsWrite (s : State) (h w : Nat) : State :=
  let k := pegSel s h
  let g := getPeg s k
  updateGroup (putPeg s k { g with reached := g.reached && !bit w 1, evtEn := bit w 2 }) k

/-- EC_PPEND and EC_PEN (R386, R391). -/
def privateWrite (s : State) (off w : Nat) : State :=
  if 0x0A4 ≤ off ∧ off ≤ 0x0B4 then
    let i := (off - 0x0A4) / 4
    let v := s.ec.ppend.get 0 i
    { s with ec := { s.ec with ppend := s.ec.ppend.put 0 i (v - (v &&& w)) } }
  else { s with ec := { s.ec with pen := s.ec.pen.put 0 ((off - 0x0B8) / 4) (w % 2 ^ 32) } }

/-- The block of the key and counter words in RN_KEY and RN_CTR, first word lowest (R166, R180). -/
def rnPhilox (s : State) : Nat :=
  let g (o : Nat) : Word := BitVec.ofNat 32 (regGet s pgReference o)
  let x := philox (g Reg.RN_KEY_LO) (g Reg.RN_KEY_HI) (g Reg.RN_CTR0) (g Reg.RN_CTR1) (g Reg.RN_CTR2) (g Reg.RN_CTR3)
  x.1.toNat + x.2.1.toNat * 2 ^ 32 + x.2.2.1.toNat * 2 ^ 64 + x.2.2.2.toNat * 2 ^ 96

/-- RN_GO: a block of the operands as they stand is started; DONE is cleared (R180). DESIGN CHOICE: a second GO while BUSY is set starts
over, with the operands of that time (R180 is silent on it). -/
def rnGo (s : State) (w : Nat) : State :=
  if bit w 0 then
    let s1 := { s with regs := { s.regs with rnBlock := rnPhilox s } }
    regSet s1 pgReference Reg.RN_STAT (setBits (regGet s1 pgReference Reg.RN_STAT) 1 0 1)
  else s

/-- The block that the last GO started is placed in RN_OUT (R180). -/
def rnDone (s : State) : State :=
  let p := pgReference
  let x (i : Nat) : Nat := s.regs.rnBlock / 2 ^ (32 * i) % 2 ^ 32
  if bit (regGet s p Reg.RN_STAT) 0 then
    let s1 := regSet (regSet s p Reg.RN_OUT0 (x 0)) p Reg.RN_OUT1 (x 1)
    let s2 := regSet (regSet s1 p Reg.RN_OUT2 (x 2)) p Reg.RN_OUT3 (x 3)
    regSet s2 p Reg.RN_STAT (setBits (regGet s2 p Reg.RN_STAT) 1 0 2)
  else s

/-- PW_CTRL: its fields, then WARM, a falling edge and release of the warm reset (R404, R409). -/
def pwCtrlWrite (s : State) (w : Nat) : State :=
  let s1 := plainWrite s pgPower Reg.PW_CTRL w
  if bit w 2 then warmReset s1 else s1

/-- A write of one word of a block. A write to EC_RING that is not from a processor rings nothing (R386; log entry 47). -/
def blockWrite (s : State) (p : Page) (off w : Nat) : State :=
  match p.kind, off with
  | 0x02, 0x088 => swFireWrite s w
  | 0x10, 0x090 => { s with gauge := { s.gauge with hold := w % 2 ^ 32 } }
  | 0x10, 0x094 => stageWord s w
  | 0x11, 0x09C => rnGo s w
  | 0x14, 0x088 => smFlagsWrite s w
  | 0x16, 0x098 => seTestWrite s w
  | 0x1B, 0x088 => tableWrite s off w
  | 0x1B, 0x090 => tableWrite s off w
  | 0x1B, 0x094 => tableWrite s off w
  | 0x1D, 0x08C => ecScfgWrite s w
  | 0x1D, 0x0CC => s
  | 0x1D, o => if 0x0A4 ≤ o ∧ o ≤ 0x0C8 then privateWrite s o w else plainWrite s p o w
  | 0x1E, 0x080 => pwCtrlWrite s w
  | 0x33, 0x088 => holdWrite s p w
  | 0x34, 0x090 => pgFlagsWrite s (p.inst / 2048) w
  | 0x34, 0x094 => pgGreachWrite s (p.inst / 2048) w
  | _, o => plainWrite s p o w

/-- Write one word. -/
def writeWord (s : State) (addr w : Nat) : State :=
  match pageOf addr with
  | none => s
  | some p =>
    let off := addr - p.base
    let s1 := touch s p
    if off < 0x80 then headerWrite s1 p off w else blockWrite s1 p off w

/-- Write words in rising address order (R426); a warm reset on the way ends the write. -/
def writeWords : List Word → State → Nat → State
  | [], s, _ => s
  | w :: t, s, addr => if deviceUp s then writeWords t (writeWord s addr w.toNat) (addr + 4) else s

/-! The commands. -/

/-- LATCH_HIGH_WORD: a read of the low word of a 64-bit register (R72). -/
def execLatchHighWord (addr : Nat) (s : State) : Host.Outcome State Fault Refusal :=
  if deviceUp s ∧ addr % 4 = 0 then .next (readWord s addr).2 else .next s

/-- RN_GO. -/
def execRnGo (x : Word) (s : State) : Host.Outcome State Fault Refusal := .next (if deviceUp s then rnGo s x.toNat else s)

/-- RN_DONE. -/
def execRnDone (s : State) : Host.Outcome State Fault Refusal := .next (if deviceUp s then rnDone s else s)

end Sys2Proof.Machine
end

