-- ==== Sys2Proof/Machine/HostPort.lean ====
section
/-! DEFINITION. The host port: commands as datagrams and ring entries, transfers, queue pairs, telemetry delivery, the protocols it answers
itself (R360-R376). -/

namespace Sys2Proof.Machine

/-! What the commands share. -/

/-- A field value that the spec gives no meaning is refused, the status a free value from 1 to 255 (log entry 48). -/
def refuseValue (s : State) (o : Origin) : State :=
  let f := freeNext s
  answer f.2 o (1 + f.1.toNat % 255)

/-- The session of a command that came as a datagram. -/
def Origin.session? : Origin → Option Nat
  | .session id _ _ _ => some id
  | _ => none

/-- Count an executed command (R376). -/
def countCmd (s : State) : State := bumpWrap s pgHost Reg.HP_CMDS 1

/-! Registers (R368, R426, R428). -/

/-- REG_READ: 1 to 256 words, at most 7 on a ring (R370). -/
def doRegRead (s : State) (o : Origin) (addr count : Nat) : State :=
  if count = 0 ∨ 256 < count ∨ (o.onRing = true ∧ 7 < count) then answer s o stLengthInvalid
  else if !rangeOk addr count then answer s o stAddrInvalid
  else
    let r := readWords count s addr
    respond r.2 o stOk (r.1.flatMap (fun w => natLe w 4))

/-- REG_WRITE; a write that resets the device gets no response. -/
def doRegWrite (s : State) (o : Origin) (addr : Nat) (ws : List Word) : State :=
  if ws.length = 0 ∨ 256 < ws.length then answer s o stLengthInvalid
  else if !rangeOk addr ws.length then answer s o stAddrInvalid
  else
    let t := writeWords ws s addr
    if deviceUp t then answer t o stOk else t

/-! The network and queue pairs (R361-R363). -/

/-- NET_CONFIG, into flash; from a ring not allowed. -/
def doNetConfig (s : State) (o : Origin) (c : NetCfg) : State :=
  if o.onRing then answer s o stNotAllowed
  else answer { s with host := { s.host with net := { c with allow := c.allow.take 16 } } } o stOk

/-- QP_CONNECT: a queue pair in error, or connected, is connected anew (R363, R365; log entry 49). -/
def doQpConnect (s : State) (o : Origin) (qp : Nat) (c : QpCfg) : State :=
  if 1024 ≤ qp then answer s o stQpInvalid
  else answer { s with host := { s.host with qps := s.host.qps.insert qp { cfg := c } } } o stOk

/-- The buffer references a command carries. -/
def cmdBufs : HostCmd → List BufRef
  | .loadPlan p t => [p, t]
  | .activate t => t.toList
  | .switch _ _ t => t.toList
  | .export_ b => [b]
  | .restore r => r.image :: (r.plan.toList ++ r.table.toList)
  | .exportKj7 b => [b]
  | .setWindow b => [b]
  | _ => []

/-- The buffer references a pending transfer has still to use. -/
def XferKind.bufs : XferKind → List BufRef
  | .plan _ _ t => [t]
  | .image _ _ r => r.plan.toList ++ r.table.toList
  | .imagePlan _ _ r _ => r.table.toList
  | _ => []

/-- Something still names a queue pair: a ring, a transfer window, a telemetry stream, a command in progress (R363). -/
def qpNamed (s : State) (qp : Nat) : Bool :=
  s.host.rings.any (fun e => e.2.qp == qp) || s.host.streams.any (fun e => e.2.mode == 2 && e.2.buf.qp == qp) ||
    s.host.xfers.any (fun e => e.2.qp == qp || e.2.kind.bufs.any (fun b => b.len != 0 && b.qp == qp)) ||
    s.ctxs.any (fun e => (match e.2.window with
      | some b => b.qp == qp
      | none => false) || e.2.queue.any (fun q => (cmdBufs q.cmd).any (fun b => b.len != 0 && b.qp == qp)))

/-- QP_DESTROY. -/
def doQpDestroy (s : State) (o : Origin) (qp : Nat) : State :=
  if (s.host.qps.find qp).isNone then answer s o stQpInvalid
  else if qpNamed s qp then answer s o stQpBusy
  else answer { s with host := { s.host with qps := s.host.qps.erase qp } } o stOk

/-- RING_CONFIG, sent as a datagram: binds a ring to one queue pair and one priority, or unbinds it; the RKEY is the device's to give, a
free value (R369; log entry 50). -/
def doRingConfig (s : State) (o : Origin) (ring prio qp : Nat) (enable : Bool) : State :=
  if o.onRing then answer s o stNotAllowed
  else if 16 ≤ ring ∨ 4 ≤ prio then refuseValue s o
  else if !enable then respond { s with host := { s.host with rings := s.host.rings.erase ring } } o stOk (natLe 0 4)
  else if !qpUp s qp then answer s o stQpInvalid
  else
    let f := freeNext s
    respond { f.2 with host := { f.2.host with rings := f.2.host.rings.insert ring { qp := qp, prio := prio, rkey := f.1.toNat } } } o stOk
      (natLe f.1.toNat 4)

/-! Telemetry streams (R373). -/

/-- TELEM_CONFIG: a stream is off, goes to this session as datagrams, or into a host ring of its 64-byte head and at least one chunk. -/
def doTelemConfig (s : State) (o : Origin) (stream mode : Nat) (b : BufRef) : State :=
  let put (x : Stream) : State := answer { s with host := { s.host with streams := s.host.streams.put {} stream x } } o stOk
  if 6 ≤ stream ∨ 3 ≤ mode then refuseValue s o
  else if mode = 0 then put {}
  else if mode = 1 then match o.session? with
    | some id => put { mode := 1, session := id }
    | none => answer s o stSessionInvalid
  else
    let st := bufStatus s b (2 ^ 64) false
    if st ≠ 0 then answer s o st
    else if b.len < 320 then answer s o stLengthInvalid
    else put { mode := 2, buf := b }

/-! A command by its payload (R368). -/

/-- What a command does, by its payload, once it has reached the dispatcher. Context commands go to their context's queue (R276); a
SWITCH to that of its incoming context. OPEN and CLOSE name no session from a ring (log entry 51). -/
def runCmd (s : State) (o : Origin) (ctx : Nat) (cmd : HostCmd) : State :=
  match cmd with
  | .open_ => answer s o stSessionInvalid
  | .close => answer s o stSessionInvalid
  | .regRead a n => doRegRead s o a n
  | .regWrite a ws => doRegWrite s o a ws
  | .netConfig c => doNetConfig s o c
  | .qpConnect q c => doQpConnect s o q c
  | .qpDestroy q => doQpDestroy s o q
  | .ringConfig r p q e => doRingConfig s o r p q e
  | .selfTest u f => doSelfTest s o u f
  | .pair t l b => doPair s o t l b
  | .probeLoad b => doProbeLoad s o b
  | .fwUpdate b => doFwUpdate s o b
  | .attest n => doAttest s o n
  | .cert => doCert s o
  | .unpair => doUnpair s o
  | .telemConfig st m b => doTelemConfig s o st m b
  | .switch outs inc t => enqueueCmd s o inc (.switch outs inc t)
  | .reserved _ => answer s o stOpcodeInvalid
  | c => enqueueCmd s o ctx c

/-! Datagrams (R361, R366, R367, R371, R372). -/

/-- A datagram's command: the port up, its source on the allow-list, its session's window open; counted, its latency judged, its arrival
logged where another source's command arrived with it (R276). -/
def viaSession (h : Hdr) (payload : Nat) (s : State) (f : State → Origin → State) : State :=
  if !deviceUp s || !portUp s then s
  else if !allowed s h.src then dropFrame (setErr s pgHost 3)
  else match sessionGate h s with
    | .done t => t
    | .run t =>
      let t1 := noteLatency (countCmd t) h payload
      f (if h.tie then logArrival t1 h.seq h.session else t1) (.session h.session h.seq h.src h.prio)

/-- A datagram's command by its payload. -/
def datagram (h : Hdr) (payload : Nat) (cmd : HostCmd) (s : State) : State := viaSession h payload s (fun t o => runCmd t o h.ctx cmd)

/-- The number a new session gets: the lowest that is free (log entry 52). -/
def freeSession (s : State) : Option Nat := (List.range 64).find? (fun i => (s.host.sessions.find i).isNone)

/-- OPEN: a session is created, its number answered; at most 64 at once (R367). -/
def openSession (h : Hdr) (s : State) : State :=
  if !deviceUp s || !portUp s then s
  else if !allowed s h.src then dropFrame (setErr s pgHost 3)
  else
    let s1 := noteLatency (countCmd s) h 0
    match freeSession s1 with
    | none => emit s1 (.resp { session := h.session, seq := h.seq, status := stBusy, src := h.src })
    | some i =>
      emit { s1 with host := { s1.host with sessions := s1.host.sessions.insert i { src := h.src } } }
        (.resp { session := i, seq := h.seq, status := stOk, src := h.src })

/-- A session ends. -/
def endSession (s : State) (id : Nat) : State := { s with host := { s.host with sessions := s.host.sessions.erase id } }

/-- OPEN. -/
def execOpen (h : Hdr) (s : State) : Host.Outcome State Fault Refusal := .next (openSession h s)
/-- CLOSE: answered, then the session is gone (R367). -/
def execClose (h : Hdr) (s : State) : Host.Outcome State Fault Refusal :=
  .next (viaSession h 0 s (fun t o => endSession (answer t o stOk) h.session))
/-- REG_READ. -/
def execRegRead (h : Hdr) (addr count : Nat) (s : State) : Host.Outcome State Fault Refusal := .next (datagram h 6 (.regRead addr count) s)
/-- A write by Riendin itself: no session, no response; the same rules (R426, R428). -/
def ownWrite (s : State) (addr : Nat) (ws : List Word) : State :=
  if deviceUp s && rangeOk addr ws.length then writeWords ws s addr else s

/-- REG_WRITE, by the host as a command or by Riendin. -/
def execRegWrite (riendin : Bool) (h : Hdr) (addr : Nat) (ws : List Word) (s : State) : Host.Outcome State Fault Refusal :=
  .next (if riendin then ownWrite s addr ws else datagram h (8 + 4 * ws.length) (.regWrite addr ws) s)
/-- NET_CONFIG. -/
def execNetConfig (h : Hdr) (c : NetCfg) (s : State) : Host.Outcome State Fault Refusal := .next (datagram h 280 (.netConfig c) s)
/-- QP_CONNECT. -/
def execQpConnect (h : Hdr) (qp : Nat) (c : QpCfg) (s : State) : Host.Outcome State Fault Refusal := .next (datagram h 32 (.qpConnect qp c) s)
/-- QP_DESTROY. -/
def execQpDestroy (h : Hdr) (qp : Nat) (s : State) : Host.Outcome State Fault Refusal := .next (datagram h 2 (.qpDestroy qp) s)
/-- RING_CONFIG. -/
def execRingConfig (h : Hdr) (ring prio qp : Nat) (enable : Bool) (s : State) : Host.Outcome State Fault Refusal :=
  .next (datagram h 5 (.ringConfig ring prio qp enable) s)
/-- CREATE. -/
def execCreate (h : Hdr) (journal : Bool) (seed : Option (BitVec 64)) (s : State) : Host.Outcome State Fault Refusal :=
  .next (datagram h 16 (.create journal seed) s)
/-- LOAD_PLAN. -/
def execLoadPlan (h : Hdr) (plan table : BufRef) (s : State) : Host.Outcome State Fault Refusal := .next (datagram h 48 (.loadPlan plan table) s)
/-- SET_SEED. -/
def execSetSeed (h : Hdr) (seed : BitVec 64) (s : State) : Host.Outcome State Fault Refusal := .next (datagram h 8 (.setSeed seed) s)
/-- ACTIVATE. -/
def execActivate (h : Hdr) (table : Option BufRef) (s : State) : Host.Outcome State Fault Refusal := .next (datagram h 32 (.activate table) s)
/-- DEACTIVATE. -/
def execDeactivate (h : Hdr) (s : State) : Host.Outcome State Fault Refusal := .next (datagram h 0 .deactivate s)
/-- SWITCH. -/
def execSwitch (h : Hdr) (outs : List Nat) (incoming : Nat) (table : Option BufRef) (s : State) : Host.Outcome State Fault Refusal :=
  .next (datagram h 48 (.switch outs incoming table) s)
/-- RESUME. -/
def execResume (h : Hdr) (s : State) : Host.Outcome State Fault Refusal := .next (datagram h 0 .resume s)
/-- EXPORT. -/
def execExport (h : Hdr) (b : BufRef) (s : State) : Host.Outcome State Fault Refusal := .next (datagram h 24 (.export_ b) s)
/-- RESTORE. -/
def execRestore (h : Hdr) (r : RestoreArgs) (s : State) : Host.Outcome State Fault Refusal := .next (datagram h 80 (.restore r) s)
/-- EXPORT_KJ7. -/
def execExportKj7 (h : Hdr) (b : BufRef) (s : State) : Host.Outcome State Fault Refusal := .next (datagram h 24 (.exportKj7 b) s)
/-- DESTROY. -/
def execDestroy (h : Hdr) (s : State) : Host.Outcome State Fault Refusal := .next (datagram h 0 .destroy s)
/-- ADMIT. -/
def execAdmit (h : Hdr) (off len : Nat) (s : State) : Host.Outcome State Fault Refusal := .next (datagram h 16 (.admit_ off len) s)
/-- EVAL. -/
def execEval (h : Hdr) (evalno : Nat) (take : Bool) (off len : Nat) (s : State) : Host.Outcome State Fault Refusal :=
  .next (datagram h 24 (.eval evalno take off len) s)
/-- SET_WINDOW. -/
def execSetWindow (h : Hdr) (b : BufRef) (s : State) : Host.Outcome State Fault Refusal := .next (datagram h 24 (.setWindow b) s)
/-- SELF_TEST. -/
def execSelfTest (h : Hdr) (unit : Nat) (force : Bool) (s : State) : Host.Outcome State Fault Refusal := .next (datagram h 5 (.selfTest unit force) s)
/-- PAIR. -/
def execPair (h : Hdr) (twin links : Nat) (table : BufRef) (s : State) : Host.Outcome State Fault Refusal := .next (datagram h 40 (.pair twin links table) s)
/-- PROBE_LOAD. -/
def execProbeLoad (h : Hdr) (b : BufRef) (s : State) : Host.Outcome State Fault Refusal := .next (datagram h 24 (.probeLoad b) s)
/-- FW_UPDATE. -/
def execFwUpdate (h : Hdr) (b : BufRef) (s : State) : Host.Outcome State Fault Refusal := .next (datagram h 24 (.fwUpdate b) s)
/-- ATTEST. -/
def execAttest (h : Hdr) (nonce : List Byte) (s : State) : Host.Outcome State Fault Refusal := .next (datagram h nonce.length (.attest nonce) s)
/-- CERT. -/
def execCert (h : Hdr) (s : State) : Host.Outcome State Fault Refusal := .next (datagram h 0 .cert s)
/-- UNPAIR. -/
def execUnpair (h : Hdr) (s : State) : Host.Outcome State Fault Refusal := .next (datagram h 0 .unpair s)
/-- TELEM_CONFIG. -/
def execTelemConfig (h : Hdr) (stream mode : Nat) (b : BufRef) (s : State) : Host.Outcome State Fault Refusal :=
  .next (datagram h 32 (.telemConfig stream mode b) s)
/-- SESS_IDLE (R367). -/
def execSessIdle (session : Nat) (s : State) : Host.Outcome State Fault Refusal := .next (if deviceUp s then endSession s session else s)

/-! Rings (R369, R370). -/

/-- A RoCEv2 packet of a queue pair is taken: connected, not in error, from an address on the allow-list. -/
def packetTaken (s : State) (qp : Nat) : Bool :=
  match s.host.qps.find qp with
  | some x => !x.error && (s.host.net.allow.isEmpty || s.host.net.allow.contains x.cfg.gid)
  | none => false

/-- What happens to a packet of a queue pair that is connected but not on the list: discarded and counted (R361). -/
def packetDropped (s : State) (qp : Nat) : State :=
  if qpUp s qp then dropFrame (setErr s pgHost 3) else s

/-- A CE-marked packet is answered with a congestion notification, at most one per queue pair per 50 µs, 1,250 ticks (R364). -/
def noteCe (s : State) (qp : Nat) (ce : Bool) : State :=
  match s.host.qps.find qp with
  | none => s
  | some x =>
    let due := match x.cnpAt with
      | some t => decide (t + 1250 ≤ s.power.tick)
      | none => true
    if ce && due then
      emit { s with host := { s.host with qps := s.host.qps.insert qp { x with cnpAt := some s.power.tick } } } (.cnp qp)
    else s

/-- One entry of a ring: its payload at most 224 bytes (R369). -/
def ringEntry (s : State) (id : Nat) (q : Ring) (e : RingEntry) (lat p0 : Nat) : State :=
  let o : Origin := .ring id e.seq q.prio
  if 224 < e.len then answer s o stLengthInvalid
  else runCmd (noteLatency (countCmd s) { prio := q.prio, lat := lat, p0 := p0 } e.len) o e.ctx e.cmd

/-- Execute the entries of a ring in index order up to its producer index while its queue pair holds; bytes that are no entry are passed
over (R370; log entry 53). -/
def runRing : Nat → State → Nat → Nat → Nat → State
  | 0, s, _, _, _ => s
  | k + 1, s, id, lat, p0 =>
    match s.host.rings.find id with
    | none => s
    | some q =>
      if q.consumer = q.producer || !qpUp s q.qp || !deviceUp s then s
      else
        let i := q.consumer
        let s1 := { s with host := { s.host with rings := s.host.rings.insert id { q with consumer := (i + 1) % 2 ^ 32 } } }
        runRing k (match q.entries.find (i % 256) with
          | some e => ringEntry s1 id q e lat p0
          | none => s1) id lat p0

/-- Every entry of a refused doorbell is answered BUSY: those between the old producer index and the new one, as far as the ring holds
them (R369; log entry 53). -/
def ringBusy (s : State) (id : Nat) (q : Ring) (producer : Nat) : State :=
  let n := min 256 ((producer + 2 ^ 32 - q.producer) % 2 ^ 32)
  (List.range n).foldl (fun s i => match q.entries.find ((q.producer + i) % 256) with
    | some e => answer s (.ring id e.seq q.prio) stBusy
    | none => s) s

/-- A doorbell: a producer index more than 256 ahead of the consumer index is refused (R369). -/
def ringDoorbell (s : State) (id producer lat : Nat) : State :=
  match s.host.rings.find id with
  | none => s
  | some q =>
    let ahead := (producer % 2 ^ 32 + 2 ^ 32 - q.consumer) % 2 ^ 32
    if 256 < ahead then ringBusy s id q (producer % 2 ^ 32)
    else
      let s1 := { s with host := { s.host with rings := s.host.rings.insert id { q with producer := producer % 2 ^ 32 } } }
      runRing 256 s1 id lat (if q.prio = 0 then ahead else 0)

/-- DOORBELL: a WRITE to the doorbell page; a slot of a ring that is not bound gets an invalid-request NAK (R363, R369). -/
def execDoorbell (qp ring producer lat : Nat) (ce : Bool) (s : State) : Host.Outcome State Fault Refusal :=
  if !deviceUp s || !portUp s then .next s
  else if !packetTaken s qp then .next (packetDropped s qp)
  else if (s.host.rings.find ring).isNone then .next (emit (noteCe s qp ce) (.nak qp))
  else .next (ringDoorbell (noteCe s qp ce) ring producer lat)

/-- RDMA_WRITE: places one entry of a bound ring, at index mod 256; anything else gets an invalid-request NAK (R363, R369). -/
def execRdmaWrite (qp ring index : Nat) (entry : Option RingEntry) (ce : Bool) (s : State) : Host.Outcome State Fault Refusal :=
  if !deviceUp s || !portUp s then .next s
  else if !packetTaken s qp then .next (packetDropped s qp)
  else
    let s1 := noteCe s qp ce
    match s1.host.rings.find ring with
    | none => .next (emit s1 (.nak qp))
    | some q =>
      let es := match entry with
        | some e => q.entries.insert (index % 256) e
        | none => q.entries.erase (index % 256)
      .next { s1 with host := { s1.host with rings := s1.host.rings.insert ring { q with entries := es } } }

/-! Transfers (R363, R365). -/

/-- A movement's context, where its work is still live. -/
def moveLive (s : State) (w : WoHdr) : Bool := workLive (getCtx s w.ctx)

/-- The bytes of a transfer are here, or written. -/
def arrived (s : State) (k : XferKind) (data : List Byte) : State :=
  match k with
  | .plan o n t => if t.len = 0 then runQueues (planArrived s o n data none) n else startRead s t (.planTable o n data)
  | .planTable o n img => runQueues (planArrived s o n img (some data)) n
  | .activateTable o n =>
    let d := activate s n (freeSlot s) (some data)
    runQueues (answerDid (if d.status = 0 then { d with s := noteSwitch d.s o n } else d) o) n
  | .switchTable o outs n => (n :: outs).foldl runQueues (answerDid (switchCtxs s o outs n (some data)) o)
  | .image o n r => match r.plan, r.table with
    | some p, _ => startRead s p (.imagePlan o n r data)
    | none, some t => startRead s t (.imageTable o n r data [])
    | none, none => runQueues (restoreCtx s o n r data none none) n
  | .imagePlan o n r img => match r.table with
    | some t => startRead s t (.imageTable o n r img data)
    | none => runQueues (restoreCtx s o n r img (some data) none) n
  | .imageTable o n r img plan => runQueues (restoreCtx s o n r img (if r.plan.isSome then some plan else none) (some data)) n
  | .export_ o n => runQueues (answer (modCtx s n (fun c => { c with exporting := false })) o stOk) n
  | .probe o => probeArrived s o data
  | .firmware o => firmwareArrived s o data
  | .pairTable o t l => pairArrived s o t l data
  | .shadow n => shadowArrived s n data true
  | .rollback n => runQueues (rollbackArrived s n data true) n
  | .moveIn w tid off => if moveLive s w then moveInDone s w tid off data true else s
  | .moveOut w => if moveLive s w then moveOutDone s w true else s
  | .mxIn w a x => if moveLive s w then mxInDone s w a x data true else s
  | .telemetry _ _ => s

/-- A transfer ended without its bytes (R365): a command ends with HOST_IO and no effect, a restore from the twin with NOT_ALLOWED, since
no twin was reached; a movement fails. -/
def failed (s : State) (qp : Nat) (k : XferKind) : State :=
  let io := if qp = 0xFFFF then stNotAllowed else stHostIo
  match k with
  | .plan o n _ => runQueues (refuse s o io []) n
  | .planTable o n _ => runQueues (refuse s o io []) n
  | .activateTable o n => runQueues (refuse s o io []) n
  | .switchTable o outs n => (n :: outs).foldl runQueues (refuse s o io [])
  | .image o n _ => runQueues (refuse s o io []) n
  | .imagePlan o n _ _ => runQueues (refuse s o io []) n
  | .imageTable o n _ _ _ => runQueues (refuse s o io []) n
  | .export_ o n => runQueues (answer (modCtx s n (fun c => { c with exporting := false })) o io) n
  | .probe o => answer s o io
  | .firmware o => fwRefuse s o io
  | .pairTable o _ _ => answer s o io
  | .shadow n => shadowArrived s n [] false
  | .rollback n => runQueues (rollbackArrived s n [] false) n
  | .moveIn w tid off => if moveLive s w then moveInDone s w tid off [] false else s
  | .moveOut w => if moveLive s w then moveOutDone s w false else s
  | .mxIn w a x => if moveLive s w then mxInDone s w a x [] false else s
  | .telemetry _ _ => s

/-- Take a transfer off the list. -/
def dropXfer (s : State) (id : Nat) : State := { s with host := { s.host with xfers := s.host.xfers.erase id } }

/-- End one pending transfer without its bytes, if it is still pending. -/
def failXfer (s : State) (id : Nat) : State :=
  match s.host.xfers.find id with
  | some x => failed (dropXfer s id) x.qp x.kind
  | none => s

/-- A queue pair enters the error state: every transfer pending on it ends (R365). -/
def qpFails (s : State) (qp : Nat) : State :=
  match s.host.qps.find qp with
  | none => s
  | some x =>
    if x.error then s
    else
      let s1 := setErr { s with host := { s.host with qps := s.host.qps.insert qp { x with error := true } } } pgHost 1
      ((s1.host.xfers.filter (fun e => e.2.qp == qp)).map (·.1)).foldl failXfer s1

/-- TRANSFER_DONE: with its bytes, or refused by the host, after which the queue pair is in error (R363). -/
def execTransferDone (id : Nat) (data : List Byte) (ok : Bool) (s : State) : Host.Outcome State Fault Refusal :=
  match s.host.xfers.find id with
  | none => .next s
  | some x =>
    if !deviceUp s then .next s
    else if ok then .next (arrived (dropXfer s id) x.kind data)
    else .next (qpFails (failXfer s id) x.qp)

/-- QP_ERROR (R365). -/
def execQpError (qp : Nat) (s : State) : Host.Outcome State Fault Refusal := .next (if deviceUp s then qpFails s qp else s)

/-! Congestion and flow control (R364). -/

/-- Change a queue pair's rate. -/
def setRate (s : State) (qp : Nat) (f : Nat → Nat) : State :=
  match s.host.qps.find qp with
  | some x => { s with host := { s.host with qps := s.host.qps.insert qp { x with rate := f x.rate } } }
  | none => s

/-- CNP: the rate halves, down to no less than 1 Gbit/s. -/
def execCnp (qp : Nat) (s : State) : Host.Outcome State Fault Refusal := .next (if deviceUp s then setRate s qp (fun r => max 1 (r / 2)) else s)

/-- HP_CC_PERIOD: a period without a notification: the rate rises by STEP up to line rate; 0 acts as 1. -/
def execHpCcPeriod (qp : Nat) (s : State) : Host.Outcome State Fault Refusal :=
  .next (if deviceUp s then setRate s qp (fun r => min 800 (r + max 1 (fld s pgHost Reg.HP_CC 7 0))) else s)

/-- PFC: honoured on the lossless priorities. -/
def execPfc (prio : Nat) (pause : Bool) (s : State) : Host.Outcome State Fault Refusal :=
  if deviceUp s && portUp s && decide (prio < 8) && bit (fld s pgHost Reg.HP_CTRL 15 8) prio then
    .next { s with host := { s.host with paused := setBits s.host.paused prio prio (bnat pause) } }
  else .next s

/-! The protocols the port answers itself, and what it discards (R360, R361). -/

/-- The IPv6 link-local address formed from the MAC address by the modified EUI-64 rule, first octet most significant (R361). -/
def linkLocal : Nat :=
  let m := Config.macAddress.toNat
  0xFE80 * 2 ^ 112 + ((m / 2 ^ 24) ^^^ 0x020000) * 2 ^ 40 + 0xFFFE * 2 ^ 24 + m % 2 ^ 24

/-- The port answers on an IPv6 address: its link-local one, or the one configured. -/
def ownV6 (s : State) (a : Nat) : Bool := a == linkLocal || (s.host.net.ipv6 != 0 && a == s.host.net.ipv6)

/-- The port answers on an IPv4 address: the one configured. -/
def ownV4 (s : State) (a : Nat) : Bool := s.host.net.ipv4 != 0 && a == s.host.net.ipv4

/-- ARP: a request for the port's IPv4 address gets its MAC address; reply kind 0. -/
def execArp (src target : Nat) (s : State) : Host.Outcome State Fault Refusal :=
  .next (if deviceUp s && portUp s && ownV4 s target then emit s (.reply 0 src (natBe Config.macAddress.toNat 6)) else s)

/-- NEIGHBOUR_DISCOVERY: a solicitation for one of the port's IPv6 addresses; reply kind 1. -/
def execNeighbourDiscovery (src target : Nat) (s : State) : Host.Outcome State Fault Refusal :=
  .next (if deviceUp s && portUp s && ownV6 s target then emit s (.reply 1 src (natBe Config.macAddress.toNat 6)) else s)

/-- ICMP_ECHO: the data comes back; reply kind 2 for ICMP, 3 for ICMPv6. -/
def execIcmpEcho (src target : Nat) (v6 : Bool) (data : List Byte) (s : State) : Host.Outcome State Fault Refusal :=
  .next (if deviceUp s && portUp s && (if v6 then ownV6 s target else ownV4 s target) then emit s (.reply (2 + bnat v6) src data) else s)

/-- DISCARDED_FRAME by reason: 0 too long, 1 fragmented, 2 an 802.3x pause, 3 TCP or another protocol, 4 a bad command header, 5 from outside the
allow-list. -/
def execDiscardedFrame (reason : Nat) (s : State) : Host.Outcome State Fault Refusal :=
  .next (if deviceUp s && portUp s then dropFrame (if reason = 5 then setErr s pgHost 3 else s) else s)

/-! Telemetry delivery (R373-R375). -/

/-- A record with its prefix. -/
def recordBytes (r : TelRec) : List Byte :=
  natLe r.stream 1 ++ natLe 0 1 ++ natLe r.ctx 2 ++ natLe (16 + r.body.length) 4 ++ natLe r.tick 8 ++ r.body

/-- The next record of a device ring: a LOST record first where some were dropped. -/
def nextRecord (s : State) (stream : Nat) (d : DevRing) : Option (TelRec × DevRing) :=
  if d.lost ≠ 0 then some (⟨stream, 0xFFFF, natLe d.lost 8, s.power.tick⟩, { d with lost := 0 })
  else match d.recs with
    | [] => none
    | r :: t => some (r, { d with recs := t })

/-- Write a record's chunks into a host ring behind its 64-byte head, around the end, then the producer count (log entry 54). -/
def writeChunks (s : State) (stream ctx : Nat) (x : Stream) (l : List Byte) (n cap : Nat) : State :=
  let pad := l ++ List.replicate (256 * n - l.length) 0#8
  let s1 := (List.range n).foldl (fun s i =>
    startWrite s { x.buf with addr := x.buf.addr + 64 + (x.producer + i) % cap * 256, len := 256 } ((pad.drop (256 * i)).take 256) (.telemetry stream ctx)) s
  startWrite s1 { x.buf with len := 8 } (natLe (x.producer + n) 8) (.telemetry stream ctx)

/-- Deliver the next record of a ring: as a datagram to the stream's session, or into the host ring where the consumer count read leaves
room for its chunks (R373). -/
def deliverRecord (s : State) (stream ctx consumer : Nat) : State :=
  let x := s.host.streams.get {} stream
  let k := ringKey stream ctx
  match nextRecord s stream (s.host.devRings.get {} k) with
  | none => s
  | some (r, d) =>
    let l := recordBytes r
    let s1 := { s with host := { s.host with devRings := s.host.devRings.put {} k d } }
    if x.mode = 1 ∧ (s.host.sessions.find x.session).isSome then emit s1 (.datagram x.session l)
    else if x.mode = 2 ∧ qpUp s x.buf.qp then
      let n := (l.length + 255) / 256
      let cap := (x.buf.len - 64) / 256
      if cap < x.producer + n - consumer then s
      else writeChunks { s1 with host := { s1.host with streams := s1.host.streams.put {} stream { x with producer := x.producer + n } } }
        stream ctx x l n cap
    else s

/-- TELEMETRY_RECORD; `consumer` is the consumer count that the device read (R373). -/
def execTelemetryRecord (stream ctx consumer : Nat) (s : State) : Host.Outcome State Fault Refusal :=
  .next (if deviceUp s && portUp s && decide (stream < 6) then deliverRecord s stream ctx consumer else s)

end Sys2Proof.Machine
end

