-- ==== Sys2Proof/Machine/Joiner.lean ====
section
/-! DEFINITION. IEEE operations, reductions and simulation kernels as work orders of the joiners (R241-R250, R268, R269). -/

namespace Sys2Proof.Machine

/-- An IEEE work order, refused by a reserved RND with RND_INVALID, by a format with OP_INVALID (R241, R268, R269). -/
def ieeeWork (op : Nat) (f : Ctx → WoHdr → EwArgs → Ctx × WoDone) (w : WoHdr) (a : EwArgs) (s : State) : State :=
  ewWork op true (op == 0x54) f w a s

/-- VADD (R48, R241-R243, R269). -/
def execVadd (w : WoHdr) (a : EwArgs) (s : State) : Host.Outcome State Fault Refusal :=
  .next (ieeeWork 0x50 (ieeeRun false 2 (fun f r x y _ => ieeeAdd f r x y)) w a s)
/-- VSUB (R48, R241-R243, R269). -/
def execVsub (w : WoHdr) (a : EwArgs) (s : State) : Host.Outcome State Fault Refusal :=
  .next (ieeeWork 0x51 (ieeeRun false 2 (fun f r x y _ => ieeeSub f r x y)) w a s)
/-- VMUL (R48, R241-R243, R269). -/
def execVmul (w : WoHdr) (a : EwArgs) (s : State) : Host.Outcome State Fault Refusal :=
  .next (ieeeWork 0x52 (ieeeRun false 2 (fun f r x y _ => ieeeMul f r x y)) w a s)
/-- VDIV (R48, R241-R243, R269). -/
def execVdiv (w : WoHdr) (a : EwArgs) (s : State) : Host.Outcome State Fault Refusal :=
  .next (ieeeWork 0x53 (ieeeRun false 2 (fun f r x y _ => ieeeDiv f r x y)) w a s)
/-- VFMA (R48, R241-R243, R269). -/
def execVfma (w : WoHdr) (a : EwArgs) (s : State) : Host.Outcome State Fault Refusal :=
  .next (ieeeWork 0x54 (ieeeRun false 3 ieeeFma) w a s)
/-- VSQRT (R48, R241-R243, R269). -/
def execVsqrt (w : WoHdr) (a : EwArgs) (s : State) : Host.Outcome State Fault Refusal :=
  .next (ieeeWork 0x55 (ieeeRun false 1 (fun f r x _ _ => ieeeSqrt f r x)) w a s)
/-- VMIN (R48, R241-R243, R269). -/
def execVmin (w : WoHdr) (a : EwArgs) (s : State) : Host.Outcome State Fault Refusal :=
  .next (ieeeWork 0x56 (ieeeRun false 2 (fun f _ x y _ => ieeeMin f x y)) w a s)
/-- VMAX (R48, R241-R243, R269). -/
def execVmax (w : WoHdr) (a : EwArgs) (s : State) : Host.Outcome State Fault Refusal :=
  .next (ieeeWork 0x57 (ieeeRun false 2 (fun f _ x y _ => ieeeMax f x y)) w a s)
/-- VCONV (R48, R241-R243, R269). -/
def execVconv (w : WoHdr) (a : EwArgs) (s : State) : Host.Outcome State Fault Refusal :=
  .next (ieeeWork 0x58 (fun c w a => ieeeRun true 1 (fun _ r x _ _ => vconvRes (c.open_ a.in0).d.fmt ((Desc.ofByte a.outFmt).getD ⟨.fp32, 3, false⟩).fmt r x) c w a) w a s)

/-! Reductions (R244, R268). -/

/-- The status a reduction is refused with, or 0: its rounding attribute first (R241, R268). -/
def rdStatus (c : Ctx) (op : RedOp) (w : WoHdr) (a : RdArgs) : Nat :=
  if (Rnd.ofCode w.rnd).isNone then 0x0B
  else rdFmtStatus (Desc.ofByte a.outFmt) (fmtsOf c (if op = .dot then [a.in0, a.in1] else [a.in0]))

/-- What a reduction over tokens covers (R124, R170): the tokens of its half within the device's share; in an evaluation pass the tokens
given. Other lines are whole. -/
def lineSpan (s : State) (w : WoHdr) (a : RdArgs) : Option LineSpan :=
  let c := getCtx s w.ctx
  match c.plan with
  | none => none
  | some p =>
    if a.axis ≠ 0 || !p.isToken a.in0 then none
    else match c.attempt, c.evalRun, p.batchTensor with
      | some b, _, _ =>
        let T := shareTokens s c p w.pos
        some ⟨p.shareOffset w.pos, if b.split && w.half != 0 then halfATokens T else 0, halfTokens b.split w.half T, T⟩
      | none, some e, some t => some ⟨0, 0, e.len / max t.tokenBytes 1, e.len / max t.tokenBytes 1⟩
      | _, _, _ => none

/-- A reduction work order. -/
def rdWork (op : RedOp) (w : WoHdr) (a : RdArgs) (s : State) : State :=
  let st := rdStatus (getCtx s w.ctx) op w a
  if mayWork s w && st != 0 then refuseJoiner s w 2 st
  else runWork 3 2 (fun c => readsOf c a.in0 a.start a.count ++ (if op = .dot then readsOf c a.in1 a.start a.count else [])) [a.out]
    (fun c w => reduceRun op (lineSpan s w a) c w a) w s

/-- SUM (R244, R268). -/
def execSum (w : WoHdr) (a : RdArgs) (s : State) : Host.Outcome State Fault Refusal := .next (rdWork .sum w a s)
/-- SUMSQ (R244, R268). -/
def execSumsq (w : WoHdr) (a : RdArgs) (s : State) : Host.Outcome State Fault Refusal := .next (rdWork .sumsq w a s)
/-- REDUCTION_MAX (R244, R268). -/
def execReductionMax (w : WoHdr) (a : RdArgs) (s : State) : Host.Outcome State Fault Refusal := .next (rdWork .max w a s)
/-- REDUCTION_MIN (R244, R268). -/
def execReductionMin (w : WoHdr) (a : RdArgs) (s : State) : Host.Outcome State Fault Refusal := .next (rdWork .min w a s)
/-- MAXABS (R244, R268). -/
def execMaxabs (w : WoHdr) (a : RdArgs) (s : State) : Host.Outcome State Fault Refusal := .next (rdWork .maxabs w a s)
/-- DOT (R244, R268). -/
def execDot (w : WoHdr) (a : RdArgs) (s : State) : Host.Outcome State Fault Refusal := .next (rdWork .dot w a s)

/-! Simulation kernels (R245-R252). -/

/-- The slice count a kernel runs with: 0 takes the default SM_CTRL held when the product was dispatched (R245, R252). -/
def kernelS (s : State) (w : WoHdr) (a : SkArgs) : Nat :=
  let at_ := (getCtx s w.ctx).sliceAt.get 0 w.template
  let q := if at_ = 0 then fld s pgSimulation Reg.SM_CTRL 7 0 else at_ - 1
  sliceCount a.prec a.s (bits q 3 0) (bits q 7 4)

/-- The digest of what one bay returns for a slice-mode kernel: its INT32 sum of every kept digit pair and part of K, by pair, part, row
and column, then counts the arrays cannot raise (R247, R298; log entry 27). -/
def sliceDigest (c : Ctx) (sc bay : Nat) (a : SkArgs) : Nat :=
  let f : FFmt := if a.prec = 0 then .fp64 else .fp32
  let row (i : Nat) : SplitRow := splitRow sc ((rowCodes (c.open_ a.a) (a.m0 + i) a.k).map (decodeIeee f))
  let col (j : Nat) : SplitRow := splitRow sc ((colCodes (c.open_ a.b) (a.n0 + j) a.k).map (decodeIeee f))
  tileDigest ((keptPairs sc).flatMap (fun pq => ((sliceParts a.k).filter (·.bay == bay)).flatMap (fun x =>
    (List.range a.m).flatMap (fun i => (List.range a.n).map (fun j => codeOf 32 (partSum (row i) (col j) x.lo x.len pq.1 pq.2)))))) {}

/-- A slice-mode kernel's work on the three bays is counted and sampled: for each output tile of up to 64 by 64, each kept pair and each
part of K one tile on the part's bay (R72, R127, R247, R296). -/
def countSlices (c : Ctx) (w : WoHdr) (a : SkArgs) (sc : Nat) (s : State) : State :=
  let tiles := (a.m + 63) / 64 * ((a.n + 63) / 64) * (keptPairs sc).length
  (List.range 3).foldl (fun s bay =>
    let xs := (sliceParts a.k).filter (·.bay == bay)
    if xs.isEmpty then s
    else noteSample (countBay s (memberGal s w) bay (tiles * xs.length) (a.m * a.n * (keptPairs sc).length * (xs.map (·.len)).sum))
      w bay (sliceDigest c sc bay a)) s

/-- A simulation kernel: refused whole under R245 and R241, else run (R244-R250). -/
def skWork (slice : Bool) (w : WoHdr) (a : SkArgs) (s : State) : State :=
  let st := kernelStatus slice w a
  if mayWork s w && st != 0 then
    let q := takeQueued s w 3
    addDone (noteSmErr q.1 st) { w := q.2, kind := 6, status := st, always := true }
  else
    let c := getCtx s w.ctx
    let sc := kernelS s w a
    let s1 := runWork 3 6 (fun _ => []) [a.c] (fun c w => kernelRun slice sc c w a) w s
    if slice && decide (c.done.length < (getCtx s1 w.ctx).done.length) then countSlices c w a sc s1 else s1

/-- SLICE_MODE_PRODUCT (R245-R250). -/
def execSliceModeProduct (w : WoHdr) (a : SkArgs) (s : State) : Host.Outcome State Fault Refusal := .next (skWork true w a s)
/-- JOINER_PRODUCT (R244, R245). -/
def execJoinerProduct (w : WoHdr) (a : SkArgs) (s : State) : Host.Outcome State Fault Refusal := .next (skWork false w a s)

end Sys2Proof.Machine
end

