-- ==== Sys2Proof/Machine/Stair.lean ====
section
/-! DEFINITION. The format stair (R225-R235), survey (R91), the loss (R219, R236), recompute reruns (R137-R139), evaluation passes
(R222, R223) and VERIFY (R97, R215). -/

namespace Sys2Proof.Machine

/-! Thresholds (R96, R258). -/

/-- The thresholds a layer is judged by: its own overrides, else the gauge engine's. -/
structure Thresholds where
  ovf : Nat
  sat : Nat
  bad : Nat

/-- The thresholds in force for a layer. -/
def thresholdsOf (s : State) (l : LayerRec) : Thresholds :=
  { ovf := if bit l.ovr 3 then l.ovfThr else fld s pgGauge Reg.GE_THR1 7 0
    sat := if bit l.ovr 0 then l.satThr else fld s pgGauge Reg.GE_THR0 15 0
    bad := if bit l.ovr 4 then l.badThr else fld s pgGauge Reg.GE_THR1 15 8 }

/-- OVF exceeded. -/
def ovfOver (s : State) (l : LayerRec) (t : Tally) : Bool := exceededAbs t.ovf (thresholdsOf s l).ovf

/-- SAT exceeded. -/
def satOver (s : State) (l : LayerRec) (t : Tally) : Bool := exceededRel t.sat (thresholdsOf s l).sat t.pop

/-- BADCODE exceeded: the layer's weight tensor is named in the fault log (R96). -/
def noteBadcode (s : State) (l : LayerRec) (t : Tally) : State :=
  if exceededAbs t.badcode (thresholdsOf s l).bad then logFault s { kind := 11, device := deviceId s, unit := l.w } else s

/-! Forward decisions (R230-R234). -/

/-- Every report of a layer's work in a phase is in. -/
def reported (c : Ctx) (key : Nat) (backward : Bool) : Bool :=
  c.done.all (fun d => woKey d.w != key || (d.w.phase == 2) != backward)

/-- Request raises on gauges. -/
def requestRaise (s : State) (n : Nat) (gs : List Nat) : State := modAttempt s n (fun a => { a with raises := a.raises ++ gs })

/-- A flat output of the layer is in survey mode and its pass 1 has not been surveyed (R91). -/
def surveyDue (c : Ctx) (p : Plan) (l : LayerRec) (key : Nat) (phases : List Nat) : List (Nat × Nat) :=
  let ts := (p.layerTemplates l).filter (fun t => phases.contains (bits (tw t 0) 7 4))
  let w : WoHdr := { layer := key % 65536, half := key / 65536 % 2, pos := key / 131072, phase := phases.headD 0 }
  ((ts.flatMap tOuts).eraseDups).filterMap (fun i => match p.gaugeOf 0 i with
    | some g => if (c.view w i (c.open_ i)).survey then some (g, i) else none
    | none => none)

/-- Skip the step on the stair's account. -/
def stairSkip (s : State) (n : Nat) : State := endAttempt s n cStair

/-- Repeat a layer one tread up (R231): tallies of the pass become prior ones, PEND and TRIP return to what they were, the stack to
its mark; the made copy is built and the layer's templates for the new tread are dispatched, uncapped. -/
def repeatLayer (s : State) (n : Nat) (p : Plan) (l : LayerRec) (i half pos : Nat) (next why : Nat) : State :=
  let k := layerKey i half pos
  let c := getCtx s n
  let a := c.attempt.getD { step := 0 }
  let old := treadOf c p i half pos
  let used := a.used.get 0 pos + 1
  let c1 := toMark c i half pos
  let gs := (a.saved.get [] k).foldl (fun (m : SMap Gauge) x => m.put {} x.1 { m.get {} x.1 with pend := x.2.1, trip := x.2.2 }) c1.gauges
  let a1 := { a with
    used := a.used.insert pos used, treads := a.treads.insert k next, passes := a.passes.put 0 k (a.passes.get 0 k + 1),
    prior := a.prior.put .zero k ((a.prior.get .zero k).add (a.tally.get .zero k)), tally := a.tally.put .zero k .zero,
    survey := a.survey.filter (· != k * 2) }
  let made := match p.paramOf l with
    | some t => c1.made.put {} (madeKey l.w next) (madeCopy c1 t next)
    | none => c1.made
  let s1 := putCtx s n (Ctx.clearParts { c1 with gauges := gs, attempt := some a1, made := made } k 0)
  let s2 := bumpSat (logEvent s1 n (stairEvent i half 0 old next why used pos)) pgStair Reg.SB_REPEATS 31 0 1
  let ts := layerTs p l 0 next
  dispatch (resetDone s2 n ts) n ts

/-- What the tallies of a forward layer decide (R230). -/
def judgeForward (s : State) (n : Nat) (p : Plan) (l : LayerRec) (i half pos : Nat) : State :=
  let k := layerKey i half pos
  let c := getCtx s n
  let a := c.attempt.getD { step := 0 }
  let t := a.tally.get .zero k
  let old := treadOf c p i half pos
  let used := a.used.get 0 pos
  let why := if ovfOver s l t then 0 else 1
  let af8 := match p.fmtOf l.x with
    | some d => d.fmt == .af8
    | none => false
  let s0 := noteBadcode s l t
  if t.nan ≠ 0 then stairSkip (requestRaise s0 n (outGauges p l)) n
  else if !ovfOver s l t && !satOver s l t then startLayer (modCtx s0 n (fun c => dropInterior c i l)) n (i + 1) half pos
  else match (if l.fceil ≤ old then none else nextTread af8 old) with
    | none =>
      let s1 := requestRaise s0 n ((outGauges p l).filter (a.tripSet.contains ·))
      stairSkip (logEvent (setErr s1 pgStair 1) n (stairEvent i half 1 old old why used pos)) n
    | some next =>
      if a.limits.budget ≤ used then
        let s1 := bumpSat (setErr (requestRaise s0 n a.tripSet) pgStair 0) pgStair Reg.SB_ABORTS 31 0 1
        stairSkip (logEvent s1 n (stairEvent i half 2 old old why used pos)) n
      else repeatLayer s0 n p l i half pos next why

/-- The plan and record of a layer whose attempt is live. -/
def liveLayer (c : Ctx) (i : Nat) : Option (Plan × LayerRec) :=
  if c.attempt.isSome && workLive c then c.plan.bind (fun p => (p.layer i).map (fun l => (p, l))) else none

/-- LAYER_END (R230): a pass 1 in survey mode is judged by SURVEY instead; a NaN in it ends the layer with the NaN path (R91). -/
def execLayerEnd (ctx layer half pos : Nat) (s : State) : Host.Outcome State Fault Refusal :=
  let c := getCtx s ctx
  let k := layerKey layer half pos
  match liveLayer c layer with
  | some (p, l) =>
    if l.kind = 2 || !layerRuns c layer half pos || !reported c k false then .next s
    else if !(surveyDue c p l k [0]).isEmpty then .next s
    else .next (judgeForward s ctx p l layer half pos)
  | none => .next s

/-! Survey (R91). -/

/-- Set the exponents from pass 1, keep NAN of its tallies, and run pass 2, whose first store counts an exponent's clamp (R35); every
template has run on every frame. -/
def surveyPass (s : State) (n : Nat) (p : Plan) (l : LayerRec) (k i half pos : Nat) (back : Bool) (gs : List (Nat × Nat)) : State :=
  let c := getCtx s n
  let a := c.attempt.getD { step := 0 }
  let set_ (c : Ctx) (x : Nat × Nat) : Ctx :=
    let g := c.gauges.get {} x.1
    let t := c.open_ x.2
    let e := fitCode g.pend (fmaxOf t.d) + (g.margin : Int) - 2
    { c with gauges := c.gauges.put {} x.1 { g with gexp := e, survey := false }, tensors := c.tensors.put {} x.2 { t with et := (e8m0 e).1 } }
  let c1 := gs.foldl set_ c
  let a1 := { a with survey := a.survey ++ [k * 2 + bnat back], surveyed := true,
                     tally := if back then a.tally else a.tally.put .zero k .zero,
                     btally := if back then a.btally.put .zero k .zero else a.btally }
  let s1 := putCtx s n (Ctx.clearParts { c1 with attempt := some a1 } k (if back then 2 else if l.kind = 2 then 1 else 0))
  let ts := if back then backTs c p i else layerTs p l (if l.kind = 2 then 1 else 0) (treadOf c p i half pos)
  dispatch (resetDone s1 n ts) n ts

/-- SURVEY (R91): pass 1 of a forward, loss or backward layer has completed on every frame. -/
def execSurvey (ctx layer half pos : Nat) (s : State) : Host.Outcome State Fault Refusal :=
  let c := getCtx s ctx
  let k := layerKey layer half pos
  match liveLayer c layer, c.attempt with
  | some (p, l), some a =>
    let back := a.back.get 0 (pos * 2 + half) == layer + 1
    let gs := surveyDue c p l k (if back then [2] else [0, 1])
    if gs.isEmpty || !(back || layerRuns c layer half pos) || !reported c k back then .next s
    else
      let t := if back then a.btally.get .zero k else a.tally.get .zero k
      if t.nan ≠ 0 then
        (if back then .next (endAttempt (modAttempt s ctx (fun a => { a with lower := a.lower.or (some 2) })) ctx cNanGrad)
         else .next (stairSkip (requestRaise s ctx (outGauges p l)) ctx))
      else .next (surveyPass s ctx p l k layer half pos back gs)
  | _, _ => .next s

/-! The loss (R219, R236). -/

/-- The loss of a half is known: a NaN or infinite one skips the step, else its backward begins, and in a split step half B's
forward (R124, R219). -/
def lossKnown (s : State) (n : Nat) (p : Plan) (half pos code : Nat) : State :=
  let s1 := modAttempt s n (fun a => { a with losses := a.losses ++ [(pos * 2 + half, code)] })
  if (fp32V code).nonFinite then
    endAttempt (modAttempt s1 n (fun a => { a with lower := a.lower.or (some 2) })) n cNanLoss
  else
    let s2 := modAttempt s1 n (fun a => { a with phase := 4 })
    let s3 := startBackward s2 n (p.layers.length - 1) half pos
    match (getCtx s3 n).attempt with
    | some a => if a.split ∧ half = 0 then startLayer s3 n 0 1 pos else s3
    | none => s3

/-- LOSS: the reduced loss stands as FP32 in a tensor; in an evaluation pass it goes to the report (R222, R223). -/
def execLoss (ctx half pos tid : Nat) (s : State) : Host.Outcome State Fault Refusal :=
  let c := getCtx s ctx
  let code := (c.open_ tid).codeAt 0 0 % 2 ^ 32
  match c.plan, c.attempt with
  | some p, some a =>
    let i := p.layers.length - 1
    let k := layerKey i half pos
    let twice := a.losses.any (fun x => x.1 == pos * 2 + half)
    match p.layer i with
    | some l =>
      if !workLive c || l.kind != 2 || twice || !layerRuns c i half pos || !reported c k false || !(surveyDue c p l k [1]).isEmpty then .next s
      else .next (lossKnown s ctx p half pos code)
    | none => .next s
  | _, none => match c.evalRun with
    | some e => .next (putCtx s ctx { c with evalRun := some { e with loss := code } })
    | none => .next s
  | none, _ => .next s

/-! Backward (R235). -/

/-- BACKWARD_LAYER_END: the tallies of a layer's backward may skip the step; the frame it consumed is freed and the next layer
down begins (R133, R235). -/
def execBackwardLayerEnd (ctx layer half pos : Nat) (s : State) : Host.Outcome State Fault Refusal :=
  let c := getCtx s ctx
  let k := layerKey layer half pos
  match liveLayer c layer, c.attempt with
  | some (p, l), some a =>
    if a.back.get 0 (pos * 2 + half) ≠ layer + 1 || !reported c k true || !(surveyDue c p l k [2]).isEmpty then .next s
    else
      let t := a.btally.get .zero k
      let s1 := noteBadcode s l t
      if t.nan ≠ 0 then
        .next (endAttempt (modAttempt s1 ctx (fun a => { a with lower := a.lower.or (some 2) })) ctx cNanGrad)
      else if ovfOver s l t || satOver s l t then
        let why := if ovfOver s l t then 0 else 1
        .next (endAttempt (modAttempt s1 ctx (fun a => { a with
          lower := some (if a.lower = none ∨ a.lower = some 1 then why else a.lower.getD why), braises := a.braises ++ [k],
          bover := if why = 0 then a.bover ++ [k] else a.bover })) ctx cStair)
      else .next (nextBackward (layerConsumed s1 ctx p layer l half pos) ctx layer half pos)
  | _, _ => .next s

/-! Recompute reruns (R136-R139). -/

/-- An element-wise work order by its opcode (R268). -/
def ewByOp (op : Nat) (w : WoHdr) (a : EwArgs) (s : State) : Host.Outcome State Fault Refusal :=
  match op with
  | 0x00 => execAdd w a s
  | 0x01 => execSub w a s
  | 0x02 => execMul w a s
  | 0x03 => execDiv w a s
  | 0x04 => execFma w a s
  | 0x05 => execMin w a s
  | 0x06 => execMax w a s
  | 0x07 => execNeg w a s
  | 0x08 => execAbs w a s
  | 0x09 => execSqrt w a s
  | 0x0A => execRsqrt w a s
  | 0x0B => execRecip w a s
  | 0x0C => execClamp w a s
  | 0x10 => execRelu w a s
  | 0x11 => execLeaky w a s
  | 0x12 => execGeluTanh w a s
  | 0x13 => execGeluErf w a s
  | 0x14 => execSilu w a s
  | 0x15 => execSigmoid w a s
  | 0x16 => execTanh w a s
  | 0x17 => execSoftplus w a s
  | 0x18 => execExp w a s
  | 0x19 => execLog w a s
  | 0x1A => execGluSilu w a s
  | 0x1B => execGluGelu w a s
  | 0x20 => execReluDerivative w a s
  | 0x21 => execLeakyDerivative w a s
  | 0x22 => execGeluTanhDerivative w a s
  | 0x23 => execGeluErfDerivative w a s
  | 0x24 => execSiluDerivative w a s
  | 0x25 => execSigmoidDerivative w a s
  | 0x26 => execTanhDerivative w a s
  | 0x27 => execSoftplusDerivative w a s
  | 0x28 => execExpDerivative w a s
  | 0x29 => execLogDerivative w a s
  | 0x2A => execGluSiluDerivative w a s
  | 0x2B => execGluGeluDerivative w a s
  | 0x30 => execLayernorm w a s
  | 0x31 => execRmsnorm w a s
  | 0x32 => execLayernormB w a s
  | 0x33 => execRmsnormB w a s
  | 0x34 => execSoftmax w a s
  | 0x35 => execLogsoftmax w a s
  | 0x36 => execSoftmaxB w a s
  | 0x37 => execXent w a s
  | 0x38 => execXentB w a s
  | 0x39 => execMse w a s
  | 0x3A => execMseB w a s
  | 0x3B => execDropout w a s
  | 0x3C => execDropoutB w a s
  | 0x3D => execGather w a s
  | 0x3E => execScatterAdd w a s
  | 0x3F => execSample w a s
  | 0x40 => execInitUniform w a s
  | 0x41 => execInitNormal w a s
  | 0x42 => execConvert w a s
  | 0x50 => execVadd w a s
  | 0x51 => execVsub w a s
  | 0x52 => execVmul w a s
  | 0x53 => execVdiv w a s
  | 0x54 => execVfma w a s
  | 0x55 => execVsqrt w a s
  | 0x56 => execVmin w a s
  | 0x57 => execVmax w a s
  | 0x58 => execVconv w a s
  | _ => .next s

/-- A reduction by its opcode (R266). -/
def rdByOp (op : Nat) (w : WoHdr) (a : RdArgs) (s : State) : Host.Outcome State Fault Refusal :=
  match op with
  | 0 => execSum w a s
  | 1 => execSumsq w a s
  | 2 => execReductionMax w a s
  | 3 => execReductionMin w a s
  | 4 => execMaxabs w a s
  | _ => execDot w a s

/-- A range of rows of `len` cut to those of a half. -/
def cutRange (start n lo cnt : Nat) : Nat × Nat :=
  let a := max start lo
  let b := min (start + n) (lo + cnt)
  (a, b - a)

/-- Run a template's whole extent for a half in a rerun, on one member of its frame; transfers with the window and peg operations
are not part of it (R137, R265, R266). -/
def rerunOne (s : State) (n ti tread half pos : Nat) : State :=
  let c := getCtx s n
  match c.plan with
  | none => s
  | some p =>
    let t := p.templates.getD ti ⟨[]⟩
    match (c.frames.get [] (tFrame t)).head? with
    | none => s
    | some m =>
      let w : WoHdr := { instHdr p n ti m with tread := tread, half := half, pos := pos, waitPeg := 0xFFFF, donePeg := 0xFFFF }
      let rows (tid : Nat) : Nat × Nat := match p.record tid with
        | some r => if r.token then halfRows s c p half pos true (r.dims.headD 1) else (0, r.dims.headD 1)
        | none => (0, 2 ^ 48)
      let len (tid : Nat) : Nat := match p.record tid with
        | some r => (r.dims.drop 1).foldl (· * ·) 1
        | none => 1
      let out (o : Host.Outcome State Fault Refusal) : State := match o with
        | .next x => x
        | _ => s
      match bits (tw t 0) 3 0 with
      | 0 =>
        let y := tTid t 24
        let q := cutRange (tw t 8) (tw t 11) (rows y).1 (rows y).2
        out (execMatrixTile w { w := tTid t 16, wFmt := tByte t 19, a := tTid t 20, aFmt := tByte t 23, y := y, yFmt := tByte t 27,
                                bay := bits (tByte t 28) 1 0, run := bits (tByte t 28) 3 2, plumb := bit (tByte t 28) 4,
                                int32 := bit (tByte t 28) 5, fp32Out := bit (tByte t 28) 6, m0 := q.1, n0 := tw t 9, k0 := tw t 10,
                                m := q.2, n := tw t 12, k := tw t 13 } s)
      | 1 =>
        let o := tTid t 29
        let q := cutRange (tw t 12 + 2 ^ 32 * tw t 13) (tw t 14) ((rows o).1 * len o) ((rows o).2 * len o)
        out (ewByOp (tByte t 16) w { outFmt := tByte t 17, in0 := tTid t 20, in1 := tTid t 23, in2 := tTid t 26, out := o,
                                     aux := tTid t 32, p0 := tw t 9, p1 := tw t 10, rowLen := tw t 11, start := q.1, count := q.2 } s)
      | 2 => out (rdByOp (tByte t 16) w { outFmt := tByte t 17, in0 := tTid t 20, in1 := tTid t 23, out := tTid t 26, axis := tByte t 29,
                                          start := tw t 8 + 2 ^ 32 * tw t 9, count := tw t 10 } s)
      | 3 =>
        if tTid t 16 = noTid ∨ tTid t 20 = noTid ∨ tByte t 19 ≠ 0 then s
        else out (execMovement w { src := tTid t 16, dst := tTid t 20, srcOff := tw t 6 + 2 ^ 32 * tw t 7, dstOff := tw t 8 + 2 ^ 32 * tw t 9,
                                   len := tw t 10 + 2 ^ 32 * tw t 11 } s)
      | _ => s

/-- The first layer of the recompute block that a layer ends, where it ends one. -/
def blockStart (p : Plan) (e : Nat) : Option Nat :=
  let inBlock (i : Nat) : Bool := match p.layer i with
    | some l => l.recomp
    | none => false
  let starts (i : Nat) : Bool := match p.layer i with
    | some l => l.recomp && l.rbstart
    | none => false
  if inBlock e && !starts e && (!inBlock (e + 1) || starts (e + 1)) then (List.range e).reverse.find? starts else none

/-- Put back the rows of a half of a tensor from a copy of it (R136, R137). -/
def restoreRows (t x : Tensor) (first n : Nat) : Tensor :=
  if first = 0 ∧ x.rows ≤ n then x
  else
    let rb := x.d.fmt.rowBytes x.rowLen
    moveScales x { t with codes := t.codes.writeBytes (first * rb) (x.codes.readBytes (first * rb) (n * rb)) } (first * rb) (first * rb) (n * rb)

/-- Put the regenerated copy of an interior layer into the scratch of every hall that runs its bay W work; a write past a region's end is
dropped (R137, R139, R143). -/
def scratchLayer (s : State) (n : Nat) (p : Plan) (i : Nat) (l : LayerRec) (half pos : Nat) : State :=
  (layerHalls (getCtx s n) p l).foldl (fun s e =>
    let c := getCtx s n
    let f : StackFrame := { hallFrame s c p i l 0 half pos e.1 with kind := 2, offset := scratchBase s c p e.1 }
    if f.rows = 0 then s
    else if passesEnd c f then boundFault s n e.1
    else putCtx s n (notePeak p { c with stack := { c.stack with scratch := c.stack.scratch ++ [f] } })) s

/-- The gallery that wrote a regenerated copy: the first member of the frame of the last template that writes its input. -/
def rerunWriter (s : State) (c : Ctx) (p : Plan) (tid : Nat) : Nat :=
  match (p.templates.filter (fun t => bits (tw t 0) 7 4 == 0 && (tOuts t).contains tid)).getLast? with
  | some t => match (c.frames.get [] (tFrame t)).head? with
    | some m => (galAt s m.hall m.aisle m.slot).getD (galKey m.hall m.aisle m.slot)
    | none => 0
  | none => 0

/-- The frames of layers b + 1 to e that a rerun regenerated, written to the scratch (R137, R139). -/
def scratchBlock (s : State) (n : Nat) (p : Plan) (b e half pos : Nat) : State :=
  ((List.range (e - b)).map (b + 1 + ·)).foldl (fun s i => match p.layer i with
    | some l => scratchLayer s n p i l half pos
    | none => s) s

/-- The rerun of a block's layers b to e - 1 from its KIND 1 frame; tallies, maxima, trips and reports of it are discarded (R137). The
galleries in whose work a NaN appeared are answered (R138). -/
def rerunBlock (s : State) (n : Nat) (p : Plan) (b e half pos : Nat) (fr : StackFrame) : State × List Nat :=
  let c := getCtx s n
  let x := (p.layer b).map (·.x)
  let c1 := match x, fr.input with
    | some tid, some inp =>
      let r := halfRows s c p half pos (p.isToken tid) inp.rows
      { c with tensors := c.tensors.put {} tid (restoreRows (c.open_ tid) inp r.1 r.2) }
    | _, _ => c
  let s1 := putCtx s n { c1 with stack := { c1.stack with rerun := true }, parts := [] }
  let s2 := (List.range (e - b)).foldl (fun s j =>
    match p.layer (b + j) with
    | some l =>
      let tr := treadOf (getCtx s n) p (b + j) half pos
      let ts := layerTs p l 0 tr
      ts.foldl (fun s ti => rerunOne s n ti tr half pos) (resetDone s n ts)
    | none => s) s1
  let bad := ((((getCtx s2 n).done.drop c.done.length).filter (fun d => d.tally.nan != 0)).map (fun d => memberGal s2 d.w)).eraseDups
  let s3 := modCtx s2 n (fun d => { d with done := c.done, parts := c.parts, stack := { d.stack with rerun := false } })
  (scratchBlock s3 n p b e half pos, bad)

/-- RECHK_EN of a hall's stack engine (R144). -/
def rechecks (s : State) (h : Nat) : Bool := fld s (pgStack h) Reg.SK_CTRL 0 0 == 1

/-- Each hall's regenerated frames against its KIND 2 records: a mismatch sets SK_ERR.RECHK and is a fault of the gallery that wrote the
copy; so is a NaN that the forward pass had not (R138). -/
def recheck (s : State) (n : Nat) (p : Plan) (half pos : Nat) (old : List StackFrame) (nans : List Nat) : State :=
  let c := getCtx s n
  let fs := c.stack.scratch.filter (fun f => f.half == half && f.pos == pos)
  let wrong := fs.filter (fun f => rechecks s f.hall && (match old.find? (fun g => f.same g && g.kind == 2) with
    | some g => g.crc != f.crc
    | none => false))
  let s1 := wrong.foldl (fun s f => setErr s (pgStack f.hall) 2) s
  let writers := wrong.map (fun f => rerunWriter s c p ((p.layer f.layer).map (·.x) |>.getD noTid))
  let nanHalls := if nans.isEmpty then [] else ((fs.map (·.hall)).eraseDups).filter (rechecks s)
  let s2 := nanHalls.foldl (fun s h => setErr s (pgStack h) 2) s1
  (writers ++ (if nanHalls.isEmpty then [] else nans)).eraseDups.foldl (fun s k => galleryFaultFree s k cUnit) s2

/-- The members that a block's rerun works on. -/
def rerunMembers (c : Ctx) (p : Plan) (b e half pos : Nat) : List Slot :=
  ((List.range (e - b)).flatMap (fun j => match p.layer (b + j) with
    | some l => (layerTs p l 0 (treadOf c p (b + j) half pos)).filterMap (fun ti => (c.frames.get [] (tFrame (p.templates.getD ti ⟨[]⟩))).head?)
    | none => [])).eraseDups

/-- The members of a rerun that have no power yet, as work headers (R395, R397). -/
def rerunUnpowered (s : State) (n : Nat) (p : Plan) (b e half pos : Nat) : List WoHdr :=
  ((rerunMembers (getCtx s n) p b e half pos).map (fun m =>
    ({ ctx := n, hall := m.hall, aisle := m.aisle, slot := m.slot } : WoHdr))).filter (fun w => !memberPowered s w)

/-- RECOMPUTE_RERUN (R137-R139): backward has reached the last layer of a block and the scratch is empty;
work for members without power waits. -/
def execRecomputeRerun (ctx layer half pos : Nat) (s : State) : Host.Outcome State Fault Refusal :=
  let c := getCtx s ctx
  match liveLayer c layer, c.attempt with
  | some (p, _), some a =>
    match (if a.back.get 0 (pos * 2 + half) = layer + 1 ∧ c.stack.scratch.isEmpty = true then blockStart p layer else none) with
    | some b =>
      let all := c.stack.frames ++ c.stack.popped
      (match all.find? (fun f => f.layer == b && f.kind == 1 && f.half == half && f.pos == pos) with
        | some fr =>
          let off := rerunUnpowered s ctx p b layer half pos
          let r := rerunBlock s ctx p b layer half pos fr
          if off.isEmpty then .next (recheck r.1 ctx p half pos all r.2)
          else .next (off.foldl askPower s)
        | none => .next s)
    | none => .next s
  | _, _ => .next s

/-! Evaluation passes (R222, R223). -/

/-- The forward templates of a range of layers at the treads of the live copies, the loss layer's where the range holds it. -/
def evalTemplates (p : Plan) (first last : Nat) : List Nat :=
  ((List.range p.layers.length).filter (fun i => decide (first ≤ i ∧ i ≤ last))).flatMap (fun i => match p.layer i with
    | some l => layerTs p l (if l.kind = 2 then 1 else 0) l.fbase
    | none => [])

/-- EVALUATION_PASS: the layers of the pass that EVAL started run at the treads of their live copies (R222, R265). The pass keeps
the number EVAL gave it. -/
def execEvaluationPass (w : WoHdr) (a : EvArgs) (s : State) : Host.Outcome State Fault Refusal :=
  let c := getCtx s w.ctx
  if !mayWork s w then .next s
  else match c.plan, c.evalRun with
    | some p, some e =>
      if c.attempt.isSome || e.wo.isSome then .next s
      else match startWork s w 3 5 with
        | .stop s => .next s
        | .go s w =>
          let e1 := { e with lfirst := a.lfirst, llast := a.llast, report := a.report, wo := some w }
          .next (dispatch (modCtx s w.ctx (fun c => { c with evalRun := some e1 })) w.ctx (evalTemplates p a.lfirst a.llast))
    | _, _ => .next s

/-- The body of an evaluation report (R374). -/
def evalReport (p : Plan) (e : EvalRun) : List Byte :=
  let ls := (List.range p.layers.length).filter (fun i => decide (e.lfirst ≤ i ∧ i ≤ e.llast))
  natLe e.number 4 ++ natLe (bnat e.failed) 1 ++ natLe 0 1 ++ natLe e.lfirst 2 ++ natLe e.llast 2 ++ natLe ls.length 2 ++ natLe e.loss 4 ++
    ls.flatMap (fun i => natLe i 2 ++ natLe ((p.layer i).map (·.fbase) |>.getD 0) 1 ++ natLe 0 1 ++
      (e.tally.get .zero i).toList.flatMap (fun x => natLe (sat32 x) 4))

/-- End a pass: its report as a record and in its report tensor, its work order's completion, the boundary (R222, R223, R267). -/
def endEval (s : State) (n : Nat) : State :=
  let c := getCtx s n
  match c.plan, c.evalRun with
  | some p, some e =>
    let body := evalReport p e
    let s1 := pushRec s 5 n body
    let s2 := if e.report = noTid then s1 else modCtx s1 n (fun c =>
      let t := c.open_ e.report
      c.putTensor e.report { t with codes := t.codes.writeBytes 0 body })
    let s3 := match e.wo with
      | some w => reportWork s2 { w := w, kind := 5, status := if e.failed then 0x20 else 0, always := true }
      | none => s2
    let s4 := modCtx s3 n (fun c => { c with evalRun := none, frameQueues := [], parts := [], reexec := [], dups := [] })
    let s5 := if p.cls = 0 then { s4 with queues := (s4.queues.map (fun e => (e.1, e.2.filter (fun q => q.ctx != n)))).filter (fun e => !e.2.isEmpty) }
      else s4
    stepBoundary s5 n
  | _, _ => s

/-- EVAL_PASS_END (R223): a pass that has not failed ends when every report and every comparison is in. -/
def execEvalPassEnd (ctx : Nat) (s : State) : Host.Outcome State Fault Refusal :=
  let c := getCtx s ctx
  match c.evalRun with
  | some e => if !e.failed && (!c.done.isEmpty || !c.dups.isEmpty) then .next s else .next (endEval s ctx)
  | none => .next s

/-! VERIFY (R97, R215). -/

/-- Every half of every position that runs here has ended its backward. -/
def backwardEnded (s : State) (c : Ctx) (p : Plan) (a : Attempt) : Bool :=
  (positionsHere s c p).all (fun q => a.back.get 0 (q * 2) == 0x10000 && (!a.split || a.back.get 0 (q * 2 + 1) == 0x10000))

/-- Every slice of every updated parameter is written, with its journal entry where there is a journal (R147, R215). -/
def slicesWritten (c : Ctx) (p : Plan) (a : Attempt) : Bool :=
  (updatedLayers c p).all (fun x => (List.range (sliceCountOf x.2.2)).all (fun o =>
    (match a.slices.find (sliceKey x.2.2.tid o) with
      | some y => y.stage == 3
      | none => false) &&
    (!c.journal || (match c.jslots.find (sliceKey x.2.2.tid o) with
      | some j => j.valid && j.step == a.step
      | none => false))))

/-- The layers whose updates overflowed past their threshold (R96, R236). -/
def updateOver (s : State) (p : Plan) (a : Attempt) : Bool :=
  (p.layers.zipIdx).any (fun x => exceededAbs (a.xovf.get 0 x.2) (thresholdsOf s x.1).ovf)

/-- What the member tells its twin (R215). -/
def summaryOf (s : State) (n : Nat) (c : Ctx) (p : Plan) (a : Attempt) : StepSummary :=
  { ctx := n, step := a.step, pend := c.gauges.map (fun e => (e.1, e.2.pend)), trips := (c.gauges.filter (fun e => e.2.trip)).map (·.1),
    tallies := (List.range p.layers.length).map (fun i => (i, ((layerSum a.tally i).add (layerSum a.btally i)).toList)),
    raises := a.raises.eraseDups, counters := optUsed p a,
    parties := (deviceId s :: peersOf s c p) ++ a.notices.filterMap (fun e => e.2.twin) ++ s.twin.twin.toList }

/-- VERIFY: everything of the member's share is gathered; update overflow skips the step; a clean VERIFY sends the step summary to
the twin and lets the member arrive on COMMIT (R96, R97, R215). -/
def execVerify (ctx : Nat) (s : State) : Host.Outcome State Fault Refusal :=
  let c := getCtx s ctx
  match c.plan, c.attempt with
  | some p, some a =>
    if !workLive c || a.ready || !a.causes.isEmpty || !backwardEnded s c p a || !c.done.isEmpty || !c.dups.isEmpty ||
        !(a.buckets.all (fun e => e.2.final)) then .next s
    else if updateOver s p a then
      .next (endAttempt (modAttempt s ctx (fun a => { a with phase := 5, lower := some (if a.lower = some 2 then 2 else 0) })) ctx cOvfExch)
    else if !slicesWritten c p a then .next (modAttempt s ctx (fun a => { a with phase := 5 }))
    else
      let s1 := modAttempt s ctx (fun a => { a with ready := true, phase := 6 })
      let s2 := match (if a.twinParty then s.twin.twin else none) with
        | some d => sendBundle (modAttempt s1 ctx (fun a => { a with summarySent := true })) d 2 2 0 (.summary (summaryOf s ctx c p a))
        | none => s1
      .next (progress s2 ctx)
  | _, _ => .next s

end Sys2Proof.Machine
end

