-- ==== Sys2Proof/Machine/Dispatch.lean ====
section
/-! DEFINITION. The dispatch of a command to its meaning: one arm per constructor of Instr. -/

namespace Sys2Proof.Machine

/-- What a command does to everything but the queue. -/
def exec (i : Instr) (s : State) : Host.Outcome State Fault Refusal :=
  match i with
  | .open_ h => Sys2Proof.Machine.execOpen h s
  | .close h => Sys2Proof.Machine.execClose h s
  | .regRead h addr count => Sys2Proof.Machine.execRegRead h addr count s
  | .regWrite riendin h addr ws => Sys2Proof.Machine.execRegWrite riendin h addr ws s
  | .netConfig h c => Sys2Proof.Machine.execNetConfig h c s
  | .qpConnect h qp c => Sys2Proof.Machine.execQpConnect h qp c s
  | .qpDestroy h qp => Sys2Proof.Machine.execQpDestroy h qp s
  | .ringConfig h ring prio qp enable => Sys2Proof.Machine.execRingConfig h ring prio qp enable s
  | .create h journal seed => Sys2Proof.Machine.execCreate h journal seed s
  | .loadPlan h plan table => Sys2Proof.Machine.execLoadPlan h plan table s
  | .setSeed h seed => Sys2Proof.Machine.execSetSeed h seed s
  | .activate h table => Sys2Proof.Machine.execActivate h table s
  | .deactivate h => Sys2Proof.Machine.execDeactivate h s
  | .switch h outs incoming table => Sys2Proof.Machine.execSwitch h outs incoming table s
  | .resume h => Sys2Proof.Machine.execResume h s
  | .export_ h b => Sys2Proof.Machine.execExport h b s
  | .restore h r => Sys2Proof.Machine.execRestore h r s
  | .exportKj7 h b => Sys2Proof.Machine.execExportKj7 h b s
  | .destroy h => Sys2Proof.Machine.execDestroy h s
  | .admit_ h off len => Sys2Proof.Machine.execAdmit h off len s
  | .eval h evalno take off len => Sys2Proof.Machine.execEval h evalno take off len s
  | .setWindow h b => Sys2Proof.Machine.execSetWindow h b s
  | .selfTest h unit force => Sys2Proof.Machine.execSelfTest h unit force s
  | .pair h twin links table => Sys2Proof.Machine.execPair h twin links table s
  | .probeLoad h b => Sys2Proof.Machine.execProbeLoad h b s
  | .fwUpdate h b => Sys2Proof.Machine.execFwUpdate h b s
  | .attest h nonce => Sys2Proof.Machine.execAttest h nonce s
  | .cert h => Sys2Proof.Machine.execCert h s
  | .unpair h => Sys2Proof.Machine.execUnpair h s
  | .telemConfig h stream mode b => Sys2Proof.Machine.execTelemConfig h stream mode b s
  | .doorbell qp ring producer lat ce => Sys2Proof.Machine.execDoorbell qp ring producer lat ce s
  | .rdmaWrite qp ring index entry ce => Sys2Proof.Machine.execRdmaWrite qp ring index entry ce s
  | .transferDone id data ok => Sys2Proof.Machine.execTransferDone id data ok s
  | .qpError qp => Sys2Proof.Machine.execQpError qp s
  | .cnp qp => Sys2Proof.Machine.execCnp qp s
  | .hpCcPeriod qp => Sys2Proof.Machine.execHpCcPeriod qp s
  | .pfc prio pause => Sys2Proof.Machine.execPfc prio pause s
  | .arp src target => Sys2Proof.Machine.execArp src target s
  | .neighbourDiscovery src target => Sys2Proof.Machine.execNeighbourDiscovery src target s
  | .icmpEcho src target v6 data => Sys2Proof.Machine.execIcmpEcho src target v6 data s
  | .sessIdle session => Sys2Proof.Machine.execSessIdle session s
  | .telemetryRecord stream ctx consumer => Sys2Proof.Machine.execTelemetryRecord stream ctx consumer s
  | .blkSwingGo page group => Sys2Proof.Machine.execBlkSwingGo page group s
  | .blkSwingCancel page => Sys2Proof.Machine.execBlkSwingCancel page s
  | .swingApply page => Sys2Proof.Machine.execSwingApply page s
  | .swingFire => Sys2Proof.Machine.execSwingFire s
  | .swingAbort => Sys2Proof.Machine.execSwingAbort s
  | .swingPegArrive page => Sys2Proof.Machine.execSwingPegArrive page s
  | .holdMax group ms => Sys2Proof.Machine.execHoldMax group ms s
  | .geWordLo x => Sys2Proof.Machine.execGeWordLo x s
  | .geWordHi x => Sys2Proof.Machine.execGeWordHi x s
  | .geHistFetch slot => Sys2Proof.Machine.execGeHistFetch slot s
  | .geHistReady => Sys2Proof.Machine.execGeHistReady s
  | .latchHighWord addr => Sys2Proof.Machine.execLatchHighWord addr s
  | .rnGo x => Sys2Proof.Machine.execRnGo x s
  | .rnDone => Sys2Proof.Machine.execRnDone s
  | .seTest x => Sys2Proof.Machine.execSeTest x s
  | .warm => Sys2Proof.Machine.execWarm s
  | .ecRing writer target => Sys2Proof.Machine.execEcRing writer target s
  | .ecScfg x => Sys2Proof.Machine.execEcScfg x s
  | .pgGreach hall x => Sys2Proof.Machine.execPgGreach hall x s
  | .evtSet page x => Sys2Proof.Machine.execEvtSet page x s
  | .poresetNAssert => Sys2Proof.Machine.execPoresetNAssert s
  | .poresetNRelease svcEnN => Sys2Proof.Machine.execPoresetNRelease svcEnN s
  | .flashErase addr len => Sys2Proof.Machine.execFlashErase addr len s
  | .flashWrite addr data => Sys2Proof.Machine.execFlashWrite addr data s
  | .warmresetNFall => Sys2Proof.Machine.execWarmresetNFall s
  | .warmresetNRise => Sys2Proof.Machine.execWarmresetNRise s
  | .ready => Sys2Proof.Machine.execReady s
  | .romWatchdog => Sys2Proof.Machine.execRomWatchdog s
  | .fwWriteDone => Sys2Proof.Machine.execFwWriteDone s
  | .wakeN imageOk => Sys2Proof.Machine.execWakeN imageOk s
  | .pwWake imageOk => Sys2Proof.Machine.execPwWake imageOk s
  | .dormantEntry => Sys2Proof.Machine.execDormantEntry s
  | .refLost => Sys2Proof.Machine.execRefLost s
  | .supplyLost input mv => Sys2Proof.Machine.execSupplyLost input mv s
  | .supplyReturn input mv => Sys2Proof.Machine.execSupplyReturn input mv s
  | .stbyLost mv => Sys2Proof.Machine.execStbyLost mv s
  | .powerLost => Sys2Proof.Machine.execPowerLost s
  | .powerReturn input mv => Sys2Proof.Machine.execPowerReturn input mv s
  | .thermalTrip unit sensor temp => Sys2Proof.Machine.execThermalTrip unit sensor temp s
  | .dutyUpdate temps watts => Sys2Proof.Machine.execDutyUpdate temps watts s
  | .sensorStale unit sensor => Sys2Proof.Machine.execSensorStale unit sensor s
  | .railFault unit rail mv gallery => Sys2Proof.Machine.execRailFault unit rail mv gallery s
  | .monitorRecord unit => Sys2Proof.Machine.execMonitorRecord unit s
  | .ecsRead counts => Sys2Proof.Machine.execEcsRead counts s
  | .gateIdle hall aisle gallery => Sys2Proof.Machine.execGateIdle hall aisle gallery s
  | .gateOpen hall aisle gallery katOk => Sys2Proof.Machine.execGateOpen hall aisle gallery katOk s
  | .hallIdle hall => Sys2Proof.Machine.execHallIdle hall s
  | .hallWakeDone hall ns tests => Sys2Proof.Machine.execHallWakeDone hall ns tests s
  | .frameQueueAccept ctx frame => Sys2Proof.Machine.execFrameQueueAccept ctx frame s
  | .matrixTile w a => Sys2Proof.Machine.execMatrixTile w a s
  | .add w a => Sys2Proof.Machine.execAdd w a s
  | .sub w a => Sys2Proof.Machine.execSub w a s
  | .mul w a => Sys2Proof.Machine.execMul w a s
  | .div w a => Sys2Proof.Machine.execDiv w a s
  | .fma w a => Sys2Proof.Machine.execFma w a s
  | .min w a => Sys2Proof.Machine.execMin w a s
  | .max w a => Sys2Proof.Machine.execMax w a s
  | .neg w a => Sys2Proof.Machine.execNeg w a s
  | .abs w a => Sys2Proof.Machine.execAbs w a s
  | .sqrt w a => Sys2Proof.Machine.execSqrt w a s
  | .rsqrt w a => Sys2Proof.Machine.execRsqrt w a s
  | .recip w a => Sys2Proof.Machine.execRecip w a s
  | .clamp w a => Sys2Proof.Machine.execClamp w a s
  | .relu w a => Sys2Proof.Machine.execRelu w a s
  | .leaky w a => Sys2Proof.Machine.execLeaky w a s
  | .geluTanh w a => Sys2Proof.Machine.execGeluTanh w a s
  | .geluErf w a => Sys2Proof.Machine.execGeluErf w a s
  | .silu w a => Sys2Proof.Machine.execSilu w a s
  | .sigmoid w a => Sys2Proof.Machine.execSigmoid w a s
  | .tanh w a => Sys2Proof.Machine.execTanh w a s
  | .softplus w a => Sys2Proof.Machine.execSoftplus w a s
  | .exp w a => Sys2Proof.Machine.execExp w a s
  | .log w a => Sys2Proof.Machine.execLog w a s
  | .gluSilu w a => Sys2Proof.Machine.execGluSilu w a s
  | .gluGelu w a => Sys2Proof.Machine.execGluGelu w a s
  | .reluDerivative w a => Sys2Proof.Machine.execReluDerivative w a s
  | .leakyDerivative w a => Sys2Proof.Machine.execLeakyDerivative w a s
  | .geluTanhDerivative w a => Sys2Proof.Machine.execGeluTanhDerivative w a s
  | .geluErfDerivative w a => Sys2Proof.Machine.execGeluErfDerivative w a s
  | .siluDerivative w a => Sys2Proof.Machine.execSiluDerivative w a s
  | .sigmoidDerivative w a => Sys2Proof.Machine.execSigmoidDerivative w a s
  | .tanhDerivative w a => Sys2Proof.Machine.execTanhDerivative w a s
  | .softplusDerivative w a => Sys2Proof.Machine.execSoftplusDerivative w a s
  | .expDerivative w a => Sys2Proof.Machine.execExpDerivative w a s
  | .logDerivative w a => Sys2Proof.Machine.execLogDerivative w a s
  | .gluSiluDerivative w a => Sys2Proof.Machine.execGluSiluDerivative w a s
  | .gluGeluDerivative w a => Sys2Proof.Machine.execGluGeluDerivative w a s
  | .layernorm w a => Sys2Proof.Machine.execLayernorm w a s
  | .rmsnorm w a => Sys2Proof.Machine.execRmsnorm w a s
  | .layernormB w a => Sys2Proof.Machine.execLayernormB w a s
  | .rmsnormB w a => Sys2Proof.Machine.execRmsnormB w a s
  | .softmax w a => Sys2Proof.Machine.execSoftmax w a s
  | .logsoftmax w a => Sys2Proof.Machine.execLogsoftmax w a s
  | .softmaxB w a => Sys2Proof.Machine.execSoftmaxB w a s
  | .xent w a => Sys2Proof.Machine.execXent w a s
  | .xentB w a => Sys2Proof.Machine.execXentB w a s
  | .mse w a => Sys2Proof.Machine.execMse w a s
  | .mseB w a => Sys2Proof.Machine.execMseB w a s
  | .dropout w a => Sys2Proof.Machine.execDropout w a s
  | .dropoutB w a => Sys2Proof.Machine.execDropoutB w a s
  | .gather w a => Sys2Proof.Machine.execGather w a s
  | .scatterAdd w a => Sys2Proof.Machine.execScatterAdd w a s
  | .sample w a => Sys2Proof.Machine.execSample w a s
  | .initUniform w a => Sys2Proof.Machine.execInitUniform w a s
  | .initNormal w a => Sys2Proof.Machine.execInitNormal w a s
  | .convert w a => Sys2Proof.Machine.execConvert w a s
  | .vadd w a => Sys2Proof.Machine.execVadd w a s
  | .vsub w a => Sys2Proof.Machine.execVsub w a s
  | .vmul w a => Sys2Proof.Machine.execVmul w a s
  | .vdiv w a => Sys2Proof.Machine.execVdiv w a s
  | .vfma w a => Sys2Proof.Machine.execVfma w a s
  | .vsqrt w a => Sys2Proof.Machine.execVsqrt w a s
  | .vmin w a => Sys2Proof.Machine.execVmin w a s
  | .vmax w a => Sys2Proof.Machine.execVmax w a s
  | .vconv w a => Sys2Proof.Machine.execVconv w a s
  | .sum w a => Sys2Proof.Machine.execSum w a s
  | .sumsq w a => Sys2Proof.Machine.execSumsq w a s
  | .reductionMax w a => Sys2Proof.Machine.execReductionMax w a s
  | .reductionMin w a => Sys2Proof.Machine.execReductionMin w a s
  | .maxabs w a => Sys2Proof.Machine.execMaxabs w a s
  | .dot w a => Sys2Proof.Machine.execDot w a s
  | .movement w a => Sys2Proof.Machine.execMovement w a s
  | .mxImport w a x => Sys2Proof.Machine.execMxImport w a x s
  | .mxExport w a x => Sys2Proof.Machine.execMxExport w a x s
  | .arrive w p => Sys2Proof.Machine.execArrive w p s
  | .wait w p => Sys2Proof.Machine.execWait w p s
  | .set w p => Sys2Proof.Machine.execSet w p s
  | .reset_ w p => Sys2Proof.Machine.execReset w p s
  | .query w p => Sys2Proof.Machine.execQuery w p s
  | .remotePegOp m => Sys2Proof.Machine.execRemotePegOp m s
  | .pegAck ref status count target => Sys2Proof.Machine.execPegAck ref status count target s
  | .waitRelease ref status => Sys2Proof.Machine.execWaitRelease ref status s
  | .evaluationPass w a => Sys2Proof.Machine.execEvaluationPass w a s
  | .evalPassEnd ctx => Sys2Proof.Machine.execEvalPassEnd ctx s
  | .sliceModeProduct w a => Sys2Proof.Machine.execSliceModeProduct w a s
  | .joinerProduct w a => Sys2Proof.Machine.execJoinerProduct w a s
  | .workOrderComplete ctx => Sys2Proof.Machine.execWorkOrderComplete ctx s
  | .layerEnd ctx layer half pos => Sys2Proof.Machine.execLayerEnd ctx layer half pos s
  | .survey ctx layer half pos => Sys2Proof.Machine.execSurvey ctx layer half pos s
  | .loss ctx half pos tid => Sys2Proof.Machine.execLoss ctx half pos tid s
  | .backwardLayerEnd ctx layer half pos => Sys2Proof.Machine.execBackwardLayerEnd ctx layer half pos s
  | .recomputeRerun ctx layer half pos => Sys2Proof.Machine.execRecomputeRerun ctx layer half pos s
  | .stackPop ctx hall => Sys2Proof.Machine.execStackPop ctx hall s
  | .sliceComplete ctx layer ord pos => Sys2Proof.Machine.execSliceComplete ctx layer ord pos s
  | .bucketOpen ctx group ordinal pos => Sys2Proof.Machine.execBucketOpen ctx group ordinal pos s
  | .reducePacket p => Sys2Proof.Machine.execReducePacket p s
  | .gatherPacket p => Sys2Proof.Machine.execGatherPacket p s
  | .agreePacket p => Sys2Proof.Machine.execAgreePacket p s
  | .treeUp p => Sys2Proof.Machine.execTreeUp p s
  | .treeDown p => Sys2Proof.Machine.execTreeDown p s
  | .bucketComplete ctx group ordinal pos => Sys2Proof.Machine.execBucketComplete ctx group ordinal pos s
  | .bucketDeadline ctx group ordinal pos => Sys2Proof.Machine.execBucketDeadline ctx group ordinal pos s
  | .sliceAccept ctx tid ord => Sys2Proof.Machine.execSliceAccept ctx tid ord s
  | .journalAck ctx tid ord => Sys2Proof.Machine.execJournalAck ctx tid ord s
  | .jwrite ctx tid ord => Sys2Proof.Machine.execJwrite ctx tid ord s
  | .mirrorQueueReady cycles => Sys2Proof.Machine.execMirrorQueueReady cycles s
  | .verify ctx => Sys2Proof.Machine.execVerify ctx s
  | .admissionNotice src ctx step attempt twin active => Sys2Proof.Machine.execAdmissionNotice src ctx step attempt twin active s
  | .commitTimeout ctx => Sys2Proof.Machine.execCommitTimeout ctx s
  | .closePhase ctx => Sys2Proof.Machine.execClosePhase ctx s
  | .repeatAdmit ctx ns => Sys2Proof.Machine.execRepeatAdmit ctx ns s
  | .settleRound src ctx step lower raises => Sys2Proof.Machine.execSettleRound src ctx step lower raises s
  | .settleTimeout ctx => Sys2Proof.Machine.execSettleTimeout ctx s
  | .journalRollback ctx tid ord lineOk => Sys2Proof.Machine.execJournalRollback ctx tid ord lineOk s
  | .digestRoot ctx => Sys2Proof.Machine.execDigestRoot ctx s
  | .rootVote src ctx step interval root => Sys2Proof.Machine.execRootVote src ctx step interval root s
  | .duplicateExecution ctx index digest => Sys2Proof.Machine.execDuplicateExecution ctx index digest s
  | .thirdExecution ctx index digest => Sys2Proof.Machine.execThirdExecution ctx index digest s
  | .rotatePeriod => Sys2Proof.Machine.execRotatePeriod s
  | .galleryTest hall aisle gallery pass_ test => Sys2Proof.Machine.execGalleryTest hall aisle gallery pass_ test s
  | .probeResult hall aisle gallery pack result firstFail => Sys2Proof.Machine.execProbeResult hall aisle gallery pack result firstFail s
  | .slotPar hall aisle at_ ns => Sys2Proof.Machine.execSlotPar hall aisle at_ ns s
  | .sramUe gallery hub ns => Sys2Proof.Machine.execSramUe gallery hub ns s
  | .leaseExpiry tag ns => Sys2Proof.Machine.execLeaseExpiry tag ns s
  | .moverFault hall mover ns => Sys2Proof.Machine.execMoverFault hall mover ns s
  | .hubBlockFault unit => Sys2Proof.Machine.execHubBlockFault unit s
  | .hbmUe hall addr holds ns => Sys2Proof.Machine.execHbmUe hall addr holds ns s
  | .scrubPeriod hall corrected => Sys2Proof.Machine.execScrubPeriod hall corrected s
  | .retrain hall pc => Sys2Proof.Machine.execRetrain hall pc s
  | .retrainForce hall pc => Sys2Proof.Machine.execRetrainForce hall pc s
  | .heartbeatPeriod => Sys2Proof.Machine.execHeartbeatPeriod s
  | .heartbeat src seq down => Sys2Proof.Machine.execHeartbeat src seq down s
  | .heartbeatMiss ns => Sys2Proof.Machine.execHeartbeatMiss ns s
  | .lost src device ns => Sys2Proof.Machine.execLost src device ns s
  | .mirrorRecord m => Sys2Proof.Machine.execMirrorRecord m s
  | .stepSummary m => Sys2Proof.Machine.execStepSummary m s
  | .seedingDone => Sys2Proof.Machine.execSeedingDone s
  | .linkUp link peer peerLink lanes => Sys2Proof.Machine.execLinkUp link peer peerLink lanes s
  | .linkRetrain link => Sys2Proof.Machine.execLinkRetrain link s
  | .flit link bytes => Sys2Proof.Machine.execFlit link bytes s
  | .nak link seq => Sys2Proof.Machine.execNak link seq s
  | .idleFlit link => Sys2Proof.Machine.execIdleFlit link s
  | .retryExh link ns => Sys2Proof.Machine.execRetryExh link ns s
  | .laneFault link lane ns => Sys2Proof.Machine.execLaneFault link lane ns s
  | .laneSwap link lane => Sys2Proof.Machine.execLaneSwap link lane s
  | .linkFault link ns => Sys2Proof.Machine.execLinkFault link ns s
  | .reorderTimeout src tc => Sys2Proof.Machine.execReorderTimeout src tc s
  | .mirrorAcknowledgement ctx summary => Sys2Proof.Machine.execMirrorAcknowledgement ctx summary s
  | .closeUpdateDone ctx gauge => Sys2Proof.Machine.execCloseUpdateDone ctx gauge s
  | .retrainingDone hall => Sys2Proof.Machine.execRetrainingDone hall s
  | .hallEdgeEngineTest hall engine result => Sys2Proof.Machine.execHallEdgeEngineTest hall engine result s
  | .discardedFrame reason => Sys2Proof.Machine.execDiscardedFrame reason s
  | .localTimer proc => Sys2Proof.Machine.execLocalTimer proc s
  | .watchdogWarning proc => Sys2Proof.Machine.execWatchdogWarning proc s
  | .cacheError proc corrected => Sys2Proof.Machine.execCacheError proc corrected s

end Sys2Proof.Machine
end

