-- ==== Sys2Proof/Safety.lean ====
section
/-! DEFINITION. The words of the statements: a step that stops, a command taken up, a response sent, a context left alone. -/

namespace Sys2Proof.Machine

/-- A step that stops: none does. -/
def stops (s : State) : Bool :=
  match step s with
  | .next _ => false
  | _ => true

/-- The origin of a datagram's command. -/
def originOf (h : Hdr) : Origin := .session h.session h.seq h.src h.prio

/-- A datagram's command is executed (R361, R366, R367): the device and its port up, the source allowed, the session open, the sequence number
new, inside the window and not in progress, room for one more. -/
def taken (h : Hdr) (s : State) : Bool :=
  deviceUp s && portUp s && allowed s h.src && (match s.host.sessions.find h.session with
    | some x => !(x.answers.any (fun r => r.seq == h.seq)) && !x.open_.contains h.seq && decide (x.high < h.seq + 64) && h.seq != 0 &&
        decide (x.open_.length < 64)
    | none => false)

/-- The response that a datagram's command gets. -/
def respOf (h : Hdr) (status : Nat) (payload : List Byte) : Out :=
  .resp { session := h.session, seq := h.seq, status := status, payload := payload, src := h.src }

/-- What dispatch itself may change besides the command: the port's counters and latency registers, its event line, its fault-log ring,
the session's window; and what leaves the block. `s` is the state with the command's own effect. -/
def dispatched (o : List Out) (s t : State) : Prop :=
  t.out = s.out ++ o ∧
  t = { s with regs := t.regs, ec := t.ec, out := t.out, host := { s.host with sessions := t.host.sessions, devRings := t.host.devRings } }

/-- The same, for a command that acts on contexts: those of the list may have changed, no other. -/
def dispatchedOn (o : List Out) (ns : List Nat) (s t : State) : Prop :=
  (∀ m, m ∉ ns → getCtx t m = getCtx s m) ∧ dispatched o { s with ctxs := t.ctxs } t

/-- A read of host memory has begun (R363): the RDMA READ has left, its completion is awaited. -/
def readBegun (b : BufRef) (k : XferKind) (s t : State) : Prop :=
  dispatchedOn [.read s.host.nextXfer b] [] { s with host := { s.host with
    xfers := s.host.xfers.insert s.host.nextXfer ⟨b.qp, k⟩, nextXfer := s.host.nextXfer + 1 } } t

/-- A context's queue is empty and nothing of an earlier command of it is under way: the next one is acted on when it comes (R276). -/
def queueFree (s : State) (n : Nat) : Bool := (getCtx s n).queue.isEmpty && !fetching s n

/-- No command waits in any context's queue. -/
def queuesEmpty (s : State) : Prop := ∀ e, e ∈ s.ctxs → e.2.queue = []

/-- An error is recorded and nothing else happens: registers, event lines, the device rings. -/
def recorded (s t : State) : Prop := t = { s with regs := t.regs, ec := t.ec, host := { s.host with devRings := t.host.devRings } }

/-- The newest record of a device ring (R373). -/
def lastRec (s : State) (stream ctx : Nat) : Option TelRec := (s.host.devRings.get {} (ringKey stream ctx)).recs.getLast?

/-- What a boot of the slots comes to (R412, R413, R414): the first slot in order runs where its image is valid; where none is, the SC halts with
FAULT_N low. `s` is the state before. -/
def booted (s t : State) : Prop :=
  (∀ k rest, bootOrder s = k :: rest → imgCheck s (getSlot s k).image = 0 →
    t.boot.state = 1 ∧ t.boot.slot = k ∧ t.boot.image = imgBytes (getSlot s k).image ∧ t.power.pins = true) ∧
  ((∀ k, k ∈ bootOrder s → imgCheck s (getSlot s k).image ≠ 0) → t.boot.state = 3 ∧ t.power.fault = true ∧ t.power.pins = false)

/-- The element-wise work order of a command: its operation code (R269, R270), header and operands. -/
def ewOrder : Instr → Option (Nat × WoHdr × EwArgs)
  | .add w a => some (0x00, w, a)
  | .sub w a => some (0x01, w, a)
  | .mul w a => some (0x02, w, a)
  | .div w a => some (0x03, w, a)
  | .fma w a => some (0x04, w, a)
  | .min w a => some (0x05, w, a)
  | .max w a => some (0x06, w, a)
  | .neg w a => some (0x07, w, a)
  | .abs w a => some (0x08, w, a)
  | .sqrt w a => some (0x09, w, a)
  | .rsqrt w a => some (0x0A, w, a)
  | .recip w a => some (0x0B, w, a)
  | .clamp w a => some (0x0C, w, a)
  | .relu w a => some (0x10, w, a)
  | .leaky w a => some (0x11, w, a)
  | .geluTanh w a => some (0x12, w, a)
  | .geluErf w a => some (0x13, w, a)
  | .silu w a => some (0x14, w, a)
  | .sigmoid w a => some (0x15, w, a)
  | .tanh w a => some (0x16, w, a)
  | .softplus w a => some (0x17, w, a)
  | .exp w a => some (0x18, w, a)
  | .log w a => some (0x19, w, a)
  | .gluSilu w a => some (0x1A, w, a)
  | .gluGelu w a => some (0x1B, w, a)
  | .reluDerivative w a => some (0x20, w, a)
  | .leakyDerivative w a => some (0x21, w, a)
  | .geluTanhDerivative w a => some (0x22, w, a)
  | .geluErfDerivative w a => some (0x23, w, a)
  | .siluDerivative w a => some (0x24, w, a)
  | .sigmoidDerivative w a => some (0x25, w, a)
  | .tanhDerivative w a => some (0x26, w, a)
  | .softplusDerivative w a => some (0x27, w, a)
  | .expDerivative w a => some (0x28, w, a)
  | .logDerivative w a => some (0x29, w, a)
  | .gluSiluDerivative w a => some (0x2A, w, a)
  | .gluGeluDerivative w a => some (0x2B, w, a)
  | .layernorm w a => some (0x30, w, a)
  | .rmsnorm w a => some (0x31, w, a)
  | .layernormB w a => some (0x32, w, a)
  | .rmsnormB w a => some (0x33, w, a)
  | .softmax w a => some (0x34, w, a)
  | .logsoftmax w a => some (0x35, w, a)
  | .softmaxB w a => some (0x36, w, a)
  | .xent w a => some (0x37, w, a)
  | .xentB w a => some (0x38, w, a)
  | .mse w a => some (0x39, w, a)
  | .mseB w a => some (0x3A, w, a)
  | .dropout w a => some (0x3B, w, a)
  | .dropoutB w a => some (0x3C, w, a)
  | .gather w a => some (0x3D, w, a)
  | .scatterAdd w a => some (0x3E, w, a)
  | .sample w a => some (0x3F, w, a)
  | .initUniform w a => some (0x40, w, a)
  | .initNormal w a => some (0x41, w, a)
  | .convert w a => some (0x42, w, a)
  | .vadd w a => some (0x50, w, a)
  | .vsub w a => some (0x51, w, a)
  | .vmul w a => some (0x52, w, a)
  | .vdiv w a => some (0x53, w, a)
  | .vfma w a => some (0x54, w, a)
  | .vsqrt w a => some (0x55, w, a)
  | .vmin w a => some (0x56, w, a)
  | .vmax w a => some (0x57, w, a)
  | .vconv w a => some (0x58, w, a)
  | _ => none

/-- The reduction of a command (R244, R268). -/
def rdOrder : Instr → Option (RedOp × WoHdr × RdArgs)
  | .sum w a => some (.sum, w, a)
  | .sumsq w a => some (.sumsq, w, a)
  | .reductionMax w a => some (.max, w, a)
  | .reductionMin w a => some (.min, w, a)
  | .maxabs w a => some (.maxabs, w, a)
  | .dot w a => some (.dot, w, a)
  | _ => none

/-- What an element-wise operation computes exactly of one FP32 element (R154, R269); P0 and P1 its parameters. -/
def ewUnary (p0 p1 : Nat) : Instr → Option (Nat → Nat)
  | .neg _ _ => some (fun x => x ^^^ 2 ^ 31)
  | .abs _ _ => some (fun x => x % 2 ^ 31)
  | .sqrt _ _ => some (fun x => (ieeeSqrt .fp32 .rne x).1)
  | .clamp _ _ => some (fun x => (ieeeMin .fp32 (ieeeMax .fp32 x p0).1 p1).1)
  | .relu _ _ => some (fun x => if (fp32V x).isNan then x else if (fp32V x).sign then 0 else x)
  | .leaky _ _ => some (fun x => if (fp32V x).isNan then x else if (fp32V x).sign then f32mul x p0 else x)
  | _ => none

/-- Of two FP32 elements (R154, R269). -/
def ewBinary : Instr → Option (Nat → Nat → Nat)
  | .add _ _ => some (fun x y => (ieeeAdd .fp32 .rne x y).1)
  | .sub _ _ => some (fun x y => (ieeeSub .fp32 .rne x y).1)
  | .mul _ _ => some (fun x y => (ieeeMul .fp32 .rne x y).1)
  | .div _ _ => some (fun x y => (ieeeDiv .fp32 .rne x y).1)
  | .min _ _ => some (fun x y => (ieeeMin .fp32 x y).1)
  | .max _ _ => some (fun x y => (ieeeMax .fp32 x y).1)
  | .mse _ _ => some (fun x y => f32mul (f32sub x y) (f32sub x y))
  | _ => none

/-- Of IEEE operands in a binary format under a rounding attribute (R241, R242, R269). -/
def ewIeee : Instr → Option (FFmt → Rnd → Nat → Nat → Nat → Res)
  | .vadd _ _ => some (fun f r x y _ => ieeeAdd f r x y)
  | .vsub _ _ => some (fun f r x y _ => ieeeSub f r x y)
  | .vmul _ _ => some (fun f r x y _ => ieeeMul f r x y)
  | .vdiv _ _ => some (fun f r x y _ => ieeeDiv f r x y)
  | .vfma _ _ => some ieeeFma
  | .vsqrt _ _ => some (fun f r x _ _ => ieeeSqrt f r x)
  | .vmin _ _ => some (fun f _ x y _ => ieeeMin f x y)
  | .vmax _ _ => some (fun f _ x y _ => ieeeMax f x y)
  | _ => none

/-- How many operands an IEEE work order has (R269). -/
def ieeeOperands : Instr → Nat
  | .vsqrt _ _ => 1
  | .vfma _ _ => 3
  | _ => 2

/-- Element i of a tensor in row-major order, as a code. -/
def elemCode (t : Tensor) (i : Nat) : Nat := t.codeAt (i / max t.rowLen 1) (i % max t.rowLen 1)

/-- A work order is sent for the first time, outside a recompute rerun: no first slip has stopped it before (R100, R137). -/
def firstSent (s : State) (w : WoHdr) : Prop :=
  (getCtx s w.ctx).stack.rerun = false ∧ ∀ e, e ∈ (getCtx s w.ctx).reexec → e.1 ≠ w

/-- A work order may start and runs as it stands: its context's work is live, its member in service and powered, nothing ahead of it in its queue,
no WAITPEG, sent for the first time, no gauge of its context delayed, tag checks off, and it keeps no stack copy (R6, R7, R99, R100, R108, R118,
R132, R379, R395). -/
def readyWork (s : State) (w : WoHdr) (unit : Nat) : Prop :=
  mayWork s w = true ∧ memberPowered s w = true ∧ queuedBehind s w unit = false ∧ w.waitPeg = 0xFFFF ∧ firstSent s w ∧ (getCtx s w.ctx).closing = [] ∧
    fld s (landPg (memberGal s w)) Reg.LD_CTRL 0 0 = 0 ∧ (w.phase ≠ 0 ∨ (getCtx s w.ctx).attempt = none)

/-- A work order has run and waits to report (R267): its context has one more finished work order, of a kind and status; of its tensors only those
of the list may have changed; its queue entry is gone; nothing else has changed. -/
def ranWork (w : WoHdr) (unit kind status : Nat) (outs : List Nat) (s t : State) : Prop :=
  (∃ d, (getCtx t w.ctx).done = (getCtx s w.ctx).done ++ [d] ∧ d.w = (takeQueued s w unit).2 ∧ d.kind = kind ∧ d.status = status) ∧
  (∀ tid, tid ∉ outs → (getCtx t w.ctx).tensors.find tid = (getCtx s w.ctx).tensors.find tid) ∧
  (∀ m, m ≠ w.ctx → getCtx t m = getCtx s m) ∧ t.queues = (takeQueued s w unit).1.queues ∧
  t = { s with ctxs := t.ctxs, queues := t.queues, ran := t.ran, regs := t.regs, ec := t.ec, host := { s.host with devRings := t.host.devRings } }

/-- A register page of a hub: no hall's power and no boundary of a context stand before an access or a swing (R427, R428, R434). -/
def onHub (p : Page) : Bool := decide (p.base < 0x08000000) && decide (p.kind < 0x30)

/-- A register of a hub's block whose write has an effect of its own, by the page's kind and the offset; every other takes the plain effect of its
fields' access codes (R431). -/
def ownEffect (kind off : Nat) : Bool :=
  [(0x02, 0x088), (0x10, 0x090), (0x10, 0x094), (0x11, 0x09C), (0x14, 0x088), (0x16, 0x098), (0x1B, 0x088), (0x1B, 0x090), (0x1B, 0x094),
   (0x1D, 0x08C), (0x1D, 0x0CC), (0x1E, 0x080)].contains (kind, off) || (kind == 0x1D && decide (0x0A4 ≤ off ∧ off ≤ 0x0C8))

/-- The peg operation of a work order (R379). -/
def pegOrder : Instr → Option (PegOp × WoHdr × PegArgs)
  | .arrive w a => some (.arrive, w, a)
  | .wait w a => some (.wait, w, a)
  | .set w a => some (.set, w, a)
  | .reset_ w a => some (.reset, w, a)
  | .query w a => some (.query, w, a)
  | _ => none

/-- What the three tests of R382 answer for a peg and an owner tag, in their order; 0 where all pass. -/
def pegStatus (s : State) (k tag : Nat) : Nat :=
  if s.fence.contains tag then 0x21
  else if (getPeg s k).bound = false then 0x1A
  else if (getPeg s k).owner % 2 ^ 20 ≠ tag % 2 ^ 20 then 0x19
  else 0

/-- What follows a peg operation: an arrive may decide the attempt of its context (R216, R217). -/
def pegThen (op : PegOp) (t : State) (n : Nat) : State := if op = .arrive then commitWatch t n else t

/-- What follows a command: an arrive may decide the attempt of its context (R216, R217), another nothing. -/
def thenWatch (i : Instr) (t : State) (n : Nat) : State :=
  match i with
  | .arrive _ _ => commitWatch t n
  | _ => t

/-- What an operation does to its peg and to no other (R379, R380, R217). -/
def pegEffect (s t : State) (k : Nat) (op : PegOp) (v : Nat) (x : PegWait) : Prop :=
  (∀ j, j ≠ k → getPeg t j = getPeg s j) ∧ (getPeg t k).owner = (getPeg s k).owner ∧ (getPeg t k).bound = (getPeg s k).bound ∧
  ((getPeg s k).reached = false → (getPeg t k).reached = true → (getPeg t k).waits = []) ∧
  match op with
  | .arrive => ((getPeg s k).closed = true → getPeg t k = getPeg s k) ∧
      ((getPeg s k).closed = false → (getPeg t k).count = min ((getPeg s k).count + (if v = 0 then 1 else v)) (2 ^ 32 - 1) ∧
        (getPeg t k).target = (getPeg s k).target ∧
        (getPeg t k).reached = ((getPeg s k).reached || decide ((getPeg s k).target ≤ (getPeg t k).count)))
  | .wait => ((getPeg s k).target ≤ (getPeg s k).count → getPeg t k = getPeg s k) ∧
      ((getPeg s k).count < (getPeg s k).target → getPeg t k = { getPeg s k with waits := (getPeg s k).waits ++ [x] })
  | .set => (getPeg t k).count = (getPeg s k).count ∧ (getPeg t k).target = v ∧ (getPeg t k).reached = decide (v ≤ (getPeg s k).count)
  | .reset => (getPeg t k).count = 0 ∧ (getPeg t k).target = (getPeg s k).target ∧ (getPeg t k).closed = false ∧
      (getPeg t k).reached = decide ((getPeg s k).target = 0)
  | .query => getPeg t k = getPeg s k

/-- The exchange packet of a command, its kind set (R191, R194, R195). -/
def exchangePacket : Instr → Option ExPkt
  | .reducePacket p => some { p with kind := 0 }
  | .gatherPacket p => some { p with kind := 1 }
  | .agreePacket p => some { p with kind := 2 }
  | .treeUp p => some { p with kind := 3 }
  | .treeDown p => some { p with kind := 4 }
  | _ => none

/-- The fence table holds at most 256 tags, none twice (R320); the flash's bytes stand in canonical form. -/
def tablesSound (s : State) : Prop := s.fence.length ≤ 256 ∧ s.fence.Nodup ∧ Mem.wf s.boot.flash = true

/-- The commands of a step's own work: peg operations, reports, judgements, slices, the exchange, notices. -/
def stepWork : Instr → Bool
  | .arrive _ _ => true
  | .wait _ _ => true
  | .set _ _ => true
  | .reset_ _ _ => true
  | .query _ _ => true
  | .waitRelease _ _ => true
  | .workOrderComplete _ => true
  | .frameQueueAccept _ _ => true
  | .evaluationPass _ _ => true
  | .layerEnd _ _ _ _ => true
  | .survey _ _ _ _ => true
  | .loss _ _ _ _ => true
  | .backwardLayerEnd _ _ _ _ => true
  | .verify _ => true
  | .stackPop _ _ => true
  | .sliceComplete _ _ _ _ => true
  | .sliceAccept _ _ _ => true
  | .journalAck _ _ _ => true
  | .jwrite _ _ _ => true
  | .mirrorQueueReady _ => true
  | .bucketOpen _ _ _ _ => true
  | .bucketComplete _ _ _ _ => true
  | .bucketDeadline _ _ _ _ => true
  | .reducePacket _ => true
  | .gatherPacket _ => true
  | .agreePacket _ => true
  | .treeUp _ => true
  | .treeDown _ => true
  | .admissionNotice _ _ _ _ _ _ => true
  | .mirrorAcknowledgement _ _ => true
  | _ => false

/-- No context of the device is a shadow (R325). -/
def noShadows (s : State) : Prop := ∀ e, e ∈ s.ctxs → e.2.shadow.held = false

end Sys2Proof.Machine
end

