-- ==== Sys2Proof/Certificates/Slice0/Obligations.lean ====
section
/-! DEFINITION. The statements for the provers. -/

open Sys2Proof Sys2Proof.Machine

/-- A step takes the command at the front of the queue and answers what exec answers on the rest of the queue (log entry 1). -/
def Obligations.StepTakesFront : Prop :=
  ∀ (c : Instr) (s : State) (rest : List Instr), step { s with pending := c :: rest } = exec c { s with pending := rest }

/-- With nothing waiting one tick of REFCLK passes: the monotonic count of R402 advances while the clock runs and the domain is supplied,
nothing else changes (the model's choice, log entry 2). -/
def Obligations.IdleStepTicks : Prop :=
  ∀ s : State, s.pending = [] →
    step s = .next (if s.power.refclk = true ∧ (s.power.mainOk = true ∨ s.power.backupOk = true ∨ s.power.stbyOk = true)
      then { s with power := { s.power with tick := (s.power.tick + 1) % 2 ^ 64 } } else s)

/-- OPEN, CLOSE and SESS_IDLE (R367): a session gets the lowest free number and the response carries it; with 64 open OPEN is refused BUSY;
CLOSE answers, then the session is gone; an idle session ends. The session window (R367), shown on CERT and CLOSE, which need nothing else: a command without its session is refused SESSION_INVALID; one
whose SEQ was answered gets the stored response again; one 64 or more below the highest answered is refused STALE_SEQ; one in progress is
not executed a second time. -/
def Obligations.Sessions : Prop :=
  (∀ (h : Hdr) (s : State) (i : Nat), deviceUp s = true → portUp s = true → allowed s h.src = true → i < 64 → s.host.sessions.find i = none →
    (∀ j, j < i → (s.host.sessions.find j).isSome = true) →
    ∃ t, exec (.open_ h) s = .next t ∧
      dispatched [.resp { session := i, seq := h.seq, status := 0, src := h.src }] s t ∧
      t.host.sessions = s.host.sessions.insert i { src := h.src }) ∧
  (∀ (h : Hdr) (s : State), deviceUp s = true → portUp s = true → allowed s h.src = true →
    (∀ j, j < 64 → (s.host.sessions.find j).isSome = true) →
    ∃ t, exec (.open_ h) s = .next t ∧ dispatched [respOf h 0x45 []] s t ∧ t.host.sessions = s.host.sessions) ∧
  (∀ (h : Hdr) (s : State), taken h s = true →
    ∃ t, exec (.close h) s = .next t ∧ dispatched [respOf h 0 []] s t ∧ t.host.sessions.find h.session = none ∧
      ∀ j, j ≠ h.session → t.host.sessions.find j = s.host.sessions.find j) ∧
  (∀ (i : Nat) (s : State), deviceUp s = true →
    exec (.sessIdle i) s = .next { s with host := { s.host with sessions := s.host.sessions.erase i } }) ∧
  (∀ (h : Hdr) (s : State) (c : Instr), (c = .cert h ∨ c = .close h) → deviceUp s = true → portUp s = true → allowed s h.src = true →
    (s.host.sessions.find h.session = none → exec c s = .next (emit s (respOf h 0x40 []))) ∧
    (∀ x, s.host.sessions.find h.session = some x →
      (∀ r, x.answers.find? (fun r => r.seq == h.seq) = some r → exec c s = .next (emit s (.resp { r with src := h.src }))) ∧
      (x.answers.find? (fun r => r.seq == h.seq) = none → h.seq ∈ x.open_ → exec c s = .next s) ∧
      (x.answers.find? (fun r => r.seq == h.seq) = none → h.seq ∉ x.open_ → h.seq + 64 ≤ x.high →
        exec c s = .next (emit s (respOf h 0x41 []))) ∧
      (x.answers.find? (fun r => r.seq == h.seq) = none → h.seq ∉ x.open_ → x.high < h.seq + 64 → h.seq ≠ 0 → 64 ≤ x.open_.length →
        exec c s = .next (emit s (respOf h 0x45 [])))))

/-- A datagram from outside the allow-list is discarded, counted in HP_DROP and flagged in HP_ERR.ACL (R361); nothing is answered. The commands of the network and its queue pairs (R361, R363, R369, R373): NET_CONFIG, QP_CONNECT, QP_DESTROY, RING_CONFIG and
TELEM_CONFIG. -/
def Obligations.Network : Prop :=
  (∀ (h : Hdr) (s : State) (c : Instr), (c = .open_ h ∨ c = .cert h ∨ c = .close h) → deviceUp s = true → portUp s = true →
    allowed s h.src = false →
    ∃ t, exec c s = .next t ∧ t.out = s.out ∧ bit (regGet t pgHost (errOff 0x1C)) 3 = true ∧
      t = { s with regs := t.regs, ec := t.ec, host := { s.host with devRings := t.host.devRings } } ∧
      (cntHold s pgHost = false → fld t pgHost Reg.HP_DROP 31 0 = min (fld s pgHost Reg.HP_DROP 31 0 + 1) (2 ^ 32 - 1))) ∧
  (∀ (h : Hdr) (c : NetCfg) (s : State), taken h s = true →
    ∃ t, exec (.netConfig h c) s = .next t ∧
      dispatched [respOf h 0 []] { s with host := { s.host with net := { c with allow := c.allow.take 16 } } } t) ∧
  (∀ (h : Hdr) (qp : Nat) (c : QpCfg) (s : State), taken h s = true → qp < 1024 →
    ∃ t, exec (.qpConnect h qp c) s = .next t ∧
      dispatched [respOf h 0 []] { s with host := { s.host with qps := s.host.qps.insert qp { cfg := c } } } t) ∧
  (∀ (h : Hdr) (qp : Nat) (c : QpCfg) (s : State), taken h s = true → 1024 ≤ qp →
    ∃ t, exec (.qpConnect h qp c) s = .next t ∧ dispatched [respOf h 0x43 []] s t) ∧
  (∀ (h : Hdr) (qp : Nat) (s : State), taken h s = true → (s.host.qps.find qp).isSome = true → qpNamed s qp = false →
    ∃ t, exec (.qpDestroy h qp) s = .next t ∧
      dispatched [respOf h 0 []] { s with host := { s.host with qps := s.host.qps.erase qp } } t) ∧
  (∀ (h : Hdr) (qp : Nat) (s : State), taken h s = true → (s.host.qps.find qp).isSome = true → qpNamed s qp = true →
    ∃ t, exec (.qpDestroy h qp) s = .next t ∧ dispatched [respOf h 0x44 []] s t) ∧
  (∀ (h : Hdr) (ring prio qp : Nat) (s : State), taken h s = true → ring < 16 → prio < 4 → qpUp s qp = true →
    ∃ t k, exec (.ringConfig h ring prio qp true) s = .next t ∧
      dispatched [respOf h 0 (natLe k 4)] { s with freeCtr := s.freeCtr + 1, host := { s.host with rings := s.host.rings.insert ring { qp := qp, prio := prio, rkey := k } } } t) ∧
  (∀ (h : Hdr) (ring prio qp : Nat) (s : State), taken h s = true → ring < 16 → prio < 4 →
    ∃ t, exec (.ringConfig h ring prio qp false) s = .next t ∧
      dispatched [respOf h 0 (natLe 0 4)] { s with host := { s.host with rings := s.host.rings.erase ring } } t) ∧
  (∀ (h : Hdr) (stream mode : Nat) (b : BufRef) (s : State), taken h s = true → stream < 6 → mode < 3 →
    (mode = 2 → qpUp s b.qp = true ∧ 320 ≤ b.len ∧ b.len ≤ 2 ^ 64) →
    ∃ t, exec (.telemConfig h stream mode b) s = .next t ∧
      dispatched [respOf h 0 []] { s with host := { s.host with streams := s.host.streams.put {} stream (if mode = 0 then {} else if mode = 1 then { mode := 1, session := h.session } else { mode := 2, buf := b }) } } t)

/-- CERT returns both certificates, each behind its length (R419); ATTEST returns a report over the nonce with a signature over its SHA-256
(R422), where the identity key is good (R418). -/
def Obligations.IdentityCommands : Prop :=
  (∀ (h : Hdr) (s : State), taken h s = true →
    ∃ t, exec (.cert h) s = .next t ∧
      dispatched [respOf h 0 (natLe Config.certificates.1.length 2 ++ Config.certificates.1 ++ natLe Config.certificates.2.length 2 ++
        Config.certificates.2)] s t) ∧
  (∀ (h : Hdr) (nonce : List Byte) (s : State), taken h s = true → nonce.length = 32 →
    ∃ t, exec (.attest h nonce) s = .next t ∧
      (Config.identityOk = true → ∃ b : List Byte,
        dispatched [respOf h 0 (b ++ Config.ecdsaSign (sha256 b) s.freeCtr)] { s with freeCtr := s.freeCtr + 1 } t ∧
        (b.drop 32).take 32 = nonce) ∧
      (Config.identityOk = false → dispatched [respOf h 0x4C []] s t))

/-- REG_READ and REG_WRITE are refused whole with ADDR_INVALID, and have no effect, where ADDR is not a multiple of 4 or a word of the range is
unmapped (R428); a write by Riendin there has no effect. -/
def Obligations.RegisterRangeRefused : Prop :=
  ∀ (h : Hdr) (addr n : Nat) (ws : List Word) (s : State), 1 ≤ n → n ≤ 256 → ws.length = n →
    (addr % 4 ≠ 0 ∨ ∃ i, i < n ∧ pageOf (addr + 4 * i) = none) →
    (taken h s = true →
      (∃ t, exec (.regRead h addr n) s = .next t ∧ dispatched [respOf h 0x47 []] s t) ∧
      (∃ t, exec (.regWrite false h addr ws) s = .next t ∧ dispatched [respOf h 0x47 []] s t)) ∧
    exec (.regWrite true h addr ws) s = .next s

/-- What a write does to a register that its block gives no effect of its own, bit by bit and by access (R431, R433): RW and RWR bits take the
written value in the applied bank, ones clear W1C bits, RWS bits go to the shadow bank alone, every other bit stays; no other register changes.
By Riendin; and by a host's REG_WRITE, which is answered OK and may change, besides, only registers of the host port's page. -/
def Obligations.RegisterWriteByAccess : Prop :=
  ∀ (h : Hdr) (p : Page) (off : Nat) (w : Word) (s : State), deviceUp s = true → pageOf (p.base + off) = some p → (p.base + off) % 4 = 0 →
    0x80 ≤ off → onHub p = true → ownEffect p.kind off = false →
    let written (t : State) : Prop := ∀ i, i < 32 →
      bit (regGet t p off) i = ((if bit (maskAt p.kind off .rw ||| maskAt p.kind off .rwr) i then w.getLsbD i else bit (regGet s p off) i) &&
        !(bit (maskAt p.kind off .w1c) i && w.getLsbD i)) ∧
      bit (shadowGet t p off) i = (if bit (maskAt p.kind off .rws) i then w.getLsbD i else bit (shadowGet s p off) i)
    (∃ t, exec (.regWrite true h (p.base + off) [w]) s = .next t ∧ t = { s with regs := t.regs } ∧ written t ∧
      (∀ (q : Page) (u : Nat), q.base + u ≠ p.base + off → regGet t q u = regGet s q u ∧ shadowGet t q u = shadowGet s q u)) ∧
    (taken h s = true → p.base ≠ pgHost.base → ∃ t, exec (.regWrite false h (p.base + off) [w]) s = .next t ∧
      dispatched [respOf h 0 []] s t ∧ written t ∧
      (∀ (q : Page) (u : Nat), q.base + u ≠ p.base + off → (q.base + u < pgHost.base ∨ pgHost.base + 0x1000 ≤ q.base + u) →
        regGet t q u = regGet s q u ∧ shadowGet t q u = shadowGet s q u))

/-- A read returns the stored word where the block computes none (R428), and a read of the low word of a 64-bit register latches the high
word, which a later read of it returns (R72): REG_READ and LATCH_HIGH_WORD. A register page's addresses (R427): an address lies in the 4 KiB of its page, and every address of those belongs to that page. -/
def Obligations.RegistersReadAndPaged : Prop :=
  (∀ (h : Hdr) (p : Page) (off : Nat) (s : State), taken h s = true → pageOf (p.base + off) = some p → (p.base + off) % 4 = 0 → 0x80 ≤ off →
    onHub p = true → p.kind ≠ 0x1C → p.kind ≠ 0x10 → latches p.kind off = false → latches p.kind (off - 4) = false →
    (∀ u : State, blockView u p off = none) → p.base + off < pgHost.base ∨ pgHost.base + 0x1000 ≤ p.base + off →
    ∃ t, exec (.regRead h (p.base + off) 1) s = .next t ∧ dispatched [respOf h 0 (natLe (regGet s p off % 2 ^ 32) 4)] s t) ∧
  (∀ (p : Page) (off : Nat) (s : State), deviceUp s = true → pageOf (p.base + off) = some p → (p.base + off) % 4 = 0 →
    onHub p = true → p.kind ≠ 0x10 → latches p.kind off = true →
    ∃ t, exec (.latchHighWord (p.base + off)) s = .next t ∧
      t = { s with regs := { s.regs with latch := s.regs.latch.insert (p.base + off + 4) (regView s p (off + 4) % 2 ^ 32) } } ∧
      readValue t p (off + 4) = regView s p (off + 4) % 2 ^ 32) ∧
  (∀ (a : Nat) (p : Page), pageOf a = some p → p.base ≤ a ∧ a < p.base + 0x1000 ∧ p.base % 0x1000 = 0 ∧
    ∀ off, off < 0x1000 → pageOf (p.base + off) = some p)

/-- The private sources (R386): EC_RING raises the writer's number at the target, never at itself nor at a target above 4; a local timer raises
source 5, a watchdog warning 6, a cache error 7 or 8. Nothing else changes. EC_NEXT and the interrupt input (R388): the lowest pending and enabled private source of the processor, reported as 640 + i; without one
the lowest pending and enabled shared source routed to it; the input is asserted exactly while there is one. EC_SCFG, EVT_SET and PG_GREACH (R388, R389, R391, R430): a route, an enable and a clear of the selected source, a reserved target kept out
and flagged; pending bits set; reached bits of the selected peg's group cleared, the line dropping for good or rising anew. -/
def Obligations.Events : Prop :=
  (let raised (s : State) (p i : Nat) : State := { s with ec := { s.ec with ppend := s.ec.ppend.put 0 p (s.ec.ppend.get 0 p ||| 2 ^ i) } }
  (∀ (w t : Nat) (s : State), w ≤ 4 → t ≤ 4 → t ≠ w → exec (.ecRing w t) s = .next (raised s t w)) ∧
  (∀ (w t : Nat) (s : State), (4 < t ∨ t = w) → exec (.ecRing w t) s = .next s) ∧
  (∀ (p : Nat) (s : State), p ≤ 4 → exec (.localTimer p) s = .next (raised s p 5) ∧ exec (.watchdogWarning p) s = .next (raised s p 6) ∧
    exec (.cacheError p true) s = .next (raised s p 7) ∧ exec (.cacheError p false) s = .next (raised s p 8))) ∧
  (∀ (s : State) (proc : Nat),
    let priv (i : Nat) : Bool := decide (i < 9) && bit (s.ec.ppend.get 0 proc) i && bit (s.ec.pen.get 0 proc) i
    let shared (n : Nat) : Prop := (getSrc s n).pend = true ∧ (getSrc s n).en = true ∧ (getSrc s n).target = proc
    SMap.sorted s.ec.shared = true →
    (∀ i, priv i = true → (∀ j, j < i → priv j = false) → ecNext s proc = 640 + i + 2 ^ 15) ∧
    ((∀ i, priv i = false) → ∀ n, shared n → (∀ m, m < n → ¬ shared m) → ecNext s proc = n + 2 ^ 15) ∧
    ((∀ i, priv i = false) → (∀ n, ¬ shared n) → ecNext s proc = 0) ∧
    (interrupted s proc = true ↔ ((∃ i, priv i = true) ∨ ∃ n, shared n))) ∧
  (∀ (x : Word) (s : State), bits x.toNat 2 0 ≤ 4 →
    let n := fld s pgEvent Reg.EC_SSEL 9 0
    let new : Source := { getSrc s n with target := bits x.toNat 2 0, en := x.getLsbD 3, pend := (getSrc s n).pend && !x.getLsbD 4 }
    exec (.ecScfg x) s = .next { s with ec := { s.ec with shared := s.ec.shared.put {} n new } }) ∧
  (∀ (x : Word) (s : State), 4 < bits x.toNat 2 0 →
    let n := fld s pgEvent Reg.EC_SSEL 9 0
    ∃ t, exec (.ecScfg x) s = .next t ∧ bit (regGet t pgEvent 0x0D0) 0 = true ∧
      (∀ m, m ≠ 240 → getSrc t m = if m = n then { getSrc s n with en := x.getLsbD 3, pend := (getSrc s n).pend && !x.getLsbD 4 } else getSrc s m)) ∧
  (∀ (page : Nat) (p : Page) (x : Word) (s : State), pageOf page = some p →
    ∃ t, exec (.evtSet page x) s = .next t ∧ t = { s with regs := t.regs, ec := t.ec } ∧
      (∀ i, i < 32 → bit (regGet t p Reg.EVT_PEND) i = (bit (regGet s p Reg.EVT_PEND) i || x.getLsbD i)) ∧
      (∀ (q : Page) (u : Nat), q.base + u ≠ p.base + Reg.EVT_PEND → regGet t q u = regGet s q u)) ∧
  (∀ (hall : Nat) (x : Word) (s : State), hall < 8 →
    let k0 := hall * 1024 + fld s (pgPeg hall) Reg.PG_SEL 9 0 / 32 * 32
    ∃ t, exec (.pgGreach hall x) s = .next t ∧ t = { s with pegs := t.pegs, ec := t.ec } ∧
      (∀ i, i < 32 → getPeg t (k0 + i) = { getPeg s (k0 + i) with reached := (getPeg s (k0 + i)).reached && !x.getLsbD i }) ∧
      (∀ k, k < k0 ∨ k0 + 32 ≤ k → getPeg t k = getPeg s k) ∧
      (getSrc t (272 + k0 / 32)).level = groupLevel t k0 ∧
      (groupLevel t k0 = true → (getSrc t (272 + k0 / 32)).pend = true))

/-- The reference generator (R166, R180): a write of GO starts a block of RN_KEY and RN_CTR0 to 3 as they stand, DONE reads 0, no register but
RN_STAT changes; when it has finished RN_OUT0 to 3 hold the four words of the block that the last GO started, and DONE reads 1. -/
def Obligations.ReferenceGenerator : Prop :=
  let g (s : State) (o : Nat) : Word := BitVec.ofNat 32 (regGet s pgReference o)
  let block (s : State) : Word × Word × Word × Word :=
    philox (g s Reg.RN_KEY_LO) (g s Reg.RN_KEY_HI) (g s Reg.RN_CTR0) (g s Reg.RN_CTR1) (g s Reg.RN_CTR2) (g s Reg.RN_CTR3)
  let packed (b : Word × Word × Word × Word) : Nat :=
    b.1.toNat + b.2.1.toNat * 2 ^ 32 + b.2.2.1.toNat * 2 ^ 64 + b.2.2.2.toNat * 2 ^ 96
  (∀ (x : Word) (s : State), deviceUp s = true → x.getLsbD 0 = true →
    ∃ t, exec (.rnGo x) s = .next t ∧ t = { s with regs := t.regs } ∧ bits (regGet t pgReference Reg.RN_STAT) 1 0 = 1 ∧
      t.regs.rnBlock = packed (block s) ∧
      ∀ (q : Page) (u : Nat), q.base + u ≠ pgReference.base + Reg.RN_STAT → regGet t q u = regGet s q u) ∧
  (∀ (b : Word × Word × Word × Word) (s : State), deviceUp s = true → bit (regGet s pgReference Reg.RN_STAT) 0 = true →
    s.regs.rnBlock = packed b →
    ∃ t, exec .rnDone s = .next t ∧ t = { s with regs := t.regs } ∧ bits (regGet t pgReference Reg.RN_STAT) 1 0 = 2 ∧
      regGet t pgReference Reg.RN_OUT0 = b.1.toNat ∧ regGet t pgReference Reg.RN_OUT1 = b.2.1.toNat ∧
      regGet t pgReference Reg.RN_OUT2 = b.2.2.1.toNat ∧ regGet t pgReference Reg.RN_OUT3 = b.2.2.2.toNat)

/-- Gauge words (R106, R107, R108): GE_WORD_LO sets the holding register alone; GE_WORD_HI stages one word for the pair selected in GE_WIN, unless
the context is not resident or the store is full for a new pair; where the context stands at its boundary the word applies at once, or waits for the
CLOSE update of its gauge; GE_HIST_FETCH empties the window for another gauge, GE_HIST_READY fills it; CLOSE_UPDATE_DONE ends the update of the gauge
whose turn it is, and the word that waits for it applies. -/
def Obligations.GaugeWords : Prop :=
  (∀ (x : Word) (s : State), exec (.geWordLo x) s = .next { s with gauge := { s.gauge with hold := x.toNat } }) ∧
  (∀ (x : Word) (s : State), (getCtx s (geSelected s).1).state ≠ 0 → (getCtx s (geSelected s).1).atBoundary = false →
    ((s.gauge.staged.find (stageKey (geSelected s).1 (geSelected s).2)).isSome = true ∨ s.gauge.staged.length + s.gauge.due.length < 4096) →
    let k := stageKey (geSelected s).1 (geSelected s).2
    exec (.geWordHi x) s = .next { s with gauge := { s.gauge with staged := s.gauge.staged.insert k (s.gauge.hold + x.toNat * 2 ^ 32) } }) ∧
  (∀ (x : Word) (s : State), (getCtx s (geSelected s).1).state ≠ 0 → (getCtx s (geSelected s).1).atBoundary = true →
    s.gauge.staged.length + s.gauge.due.length < 4096 →
    let n := (geSelected s).1
    let g := (geSelected s).2
    let w := s.gauge.hold + x.toNat * 2 ^ 32
    ∃ t, exec (.geWordHi x) s = .next t ∧ t = { s with ctxs := t.ctxs, gauge := t.gauge } ∧ t.gauge.staged.find (stageKey n g) = none ∧
      (g ∈ (getCtx s n).closing → t.ctxs = s.ctxs ∧ t.gauge.due.find (stageKey n g) = some w) ∧
      (g ∉ (getCtx s n).closing → t.gauge.due.find (stageKey n g) = none ∧ (∀ m, m ≠ n → getCtx t m = getCtx s m) ∧
        getCtx t n = { getCtx s n with gauges := (getCtx s n).gauges.put {} g (applyWord ((getCtx s n).gauges.get {} g) w) })) ∧
  (∀ (x : Word) (s : State), ((getCtx s (geSelected s).1).state = 0 ∨
      ((s.gauge.staged.find (stageKey (geSelected s).1 (geSelected s).2)) = none ∧ 4096 ≤ s.gauge.staged.length + s.gauge.due.length)) →
    exec (.geWordHi x) s = .next s) ∧
  (∀ (i : Nat) (s : State), s.gauge.window ≠ some (geSelected s) →
    exec (.geHistFetch i) s = .next { s with gauge := { s.gauge with window := some (geSelected s), ready := false, hist := [] } }) ∧
  (∀ (i : Nat) (s : State), s.gauge.window = some (geSelected s) → exec (.geHistFetch i) s = .next s) ∧
  (∀ (n g : Nat) (s : State), s.gauge.window = some (n, g) →
    exec .geHistReady s = .next { s with gauge := { s.gauge with ready := true, hist := ((getCtx s n).gauges.get {} g).hist } }) ∧
  (∀ (n g : Nat) (rest : List Nat) (s : State), (getCtx s n).closing = g :: rest →
    ∃ t, exec (.closeUpdateDone n g) s = .next t ∧ t = { s with ctxs := t.ctxs, gauge := t.gauge } ∧
      (getCtx t n).closing = rest ∧
      (s.gauge.due.find (stageKey n g) = none → t.gauge = s.gauge ∧ (getCtx t n).gauges = (getCtx s n).gauges) ∧
      (∀ w, s.gauge.due.find (stageKey n g) = some w → t.gauge.due.find (stageKey n g) = none ∧
        (getCtx t n).gauges.get {} g = applyWord ((getCtx s n).gauges.get {} g) w) ∧
      ∀ m, m ≠ n → getCtx t m = getCtx s m) ∧
  (∀ (n g : Nat) (s : State), (getCtx s n).closing.head? ≠ some g → exec (.closeUpdateDone n g) s = .next s)

/-- fit(h, F) of R81 is the smallest exponent e with h ≤ F × 2^e, and 0 for h = 0; F is 127 for a bucket gauge, else its tensor's format's (which magnitude
a signed integer format gives: the model's reading). -/
def Obligations.FitIsSmallest : Prop :=
  (∀ (m : Nat) (e : Int) (f : Nat × Int), 0 < f.1 →
    (m = 0 → fit m e f = 0) ∧
    (m ≠ 0 → magGt m e f.1 (f.2 + fit m e f) = false ∧ ∀ x, x < fit m e f → magGt m e f.1 (f.2 + x) = true)) ∧
  (∀ (p : Plan) (g : Nat) (b : BindRec) (d : Desc), p.gauges.find? (fun b => b.gauge == g) = some b →
    (b.kind = 2 → gaugeF p g = (127, 0)) ∧ (b.kind ≠ 2 → p.fmtOf b.tid = some d → gaugeF p g = fmaxOf d)) ∧
  fmaxOf ⟨.f4, 0, false⟩ = (3, 1) ∧ fmaxOf ⟨.af8, 0, false⟩ = (14, 5) ∧ fmaxOf ⟨.g8, 0, false⟩ = (7, 13) ∧ fmaxOf ⟨.a8, 0, false⟩ = (255, 0) ∧
  fmaxOf ⟨.wt, 0, false⟩ = (1, 0) ∧ fmaxOf ⟨.bf16, 0, false⟩ = (255, 120)

/-- BLK_SWING GO (R433, R436): with nothing staged no effect; alone, the page waits, or drains where it stages a drained change; with a group
number it joins that group, if it has not fired, as well. BLK_SWING CANCEL on a page that swings alone or not at all (R430, R439): every RWS bit of the shadow takes the applied value, STATE returns
to IDLE, nothing applied changes. Pages of the hub but the router's, whose tables are staged apart. -/
def Obligations.SwingsStartAndStop : Prop :=
  (∀ (page group : Nat) (p : Page) (s : State), deviceUp s = true → pageOf page = some p →
    let w := getSwing s p
    let waiting (n : Nat) : Swing := { w with state := if drainsOn s p then 3 else 2, group := n, arrived := false }
    (staged s p = false → exec (.blkSwingGo page group) s = .next s) ∧
    (staged s p = true → (w.state = 0 ∨ w.group = 0) → group % 16 = 0 → exec (.blkSwingGo page group) s = .next (putSwing s p (waiting 0))) ∧
    (staged s p = true → (w.state = 0 ∨ w.group = 0) → group % 16 ≠ 0 → (getGroup s (group % 16)).fired = false →
      exec (.blkSwingGo page group) s = .next (putGroup (putSwing s p (waiting (group % 16))) (group % 16)
        { getGroup s (group % 16) with members := (getGroup s (group % 16)).members ++ [p.base] })) ∧
    (staged s p = true → w.state ≠ 0 → w.group ≠ 0 → group % 16 = 0 → exec (.blkSwingGo page group) s = .next s)) ∧
  (∀ (page : Nat) (p : Page) (s : State), deviceUp s = true → pageOf page = some p → onHub p = true → p.kind ≠ 0x1B →
    ((getSwing s p).state = 0 ∨ (getSwing s p).group = 0) →
    ∃ t, exec (.blkSwingCancel page) s = .next t ∧ t = { s with regs := t.regs } ∧ t.regs.applied = s.regs.applied ∧
      t.regs.groups = s.regs.groups ∧ getSwing t p = { getSwing s p with state := 0, group := 0, arrived := false } ∧
      (∀ o, o ∈ rwsOffs p.kind → ∀ i, i < 32 →
        bit (shadowGet t p o) i = if bit (maskAt p.kind o .rws) i then bit (regGet s p o) i else bit (shadowGet s p o) i))

/-- SWING_APPLY (R433, R434): the quiet point of a hub page that swings alone, with nothing to drain: every staged RWS bit is applied, every
other bit of those registers stays, STATE returns to IDLE, SWINGS counts, EVT_PEND bit 31 is set. A drained change holds everything back (R438). -/
def Obligations.SwingApplies : Prop :=
  ∀ (page : Nat) (p : Page) (s : State), deviceUp s = true → pageOf page = some p → onHub p = true →
    (getSwing s p).state ≠ 0 → (getSwing s p).group = 0 → recovering s = false →
    (drainDone s p = false → exec (.swingApply page) s = .next s) ∧
    (p.kind ≠ 0x1A → p.kind ≠ 0x1B → drainDone s p = true →
      ∃ t, exec (.swingApply page) s = .next t ∧ t = { s with regs := t.regs, ec := t.ec } ∧
        getSwing t p = { swings := ((getSwing s p).swings + 1) % 65536 } ∧ bit (regGet t p Reg.EVT_PEND) 31 = true ∧
        t.regs.shadow = s.regs.shadow ∧ t.regs.groups = s.regs.groups ∧
        (∀ o, o ∈ rwsOffs p.kind → o ≠ Reg.EVT_PEND → ∀ i, i < 32 →
          bit (regGet t p o) i = if bit (maskAt p.kind o .rws) i then bit (shadowGet s p o) i else bit (regGet s p o) i) ∧
        (∀ (q : Page) (u : Nat), q.base + u ≠ p.base + Reg.EVT_PEND → (∀ o, o ∈ rwsOffs p.kind → q.base + u ≠ p.base + o) →
          regGet t q u = regGet s q u))

/-- Swing groups (R436, R437), on pages of the hub: FIRE sets the swing peg's target to the member count, and fires nothing on an empty group; a
member at its quiet point arrives; when the peg reaches its target every member applies its staged fields, and the group is free; ABORT, and a
hold of HOLD_MAX, return every member to IDLE with TIMEOUT and leave its staged values staged. No command waits in a context's queue. -/
def Obligations.SwingGroups : Prop :=
  (∀ s : State, deviceUp s = true → (getGroup s (groupSel s)).members ≠ [] →
    exec .swingFire s = .next (putGroup s (groupSel s) { getGroup s (groupSel s) with
      fired := true, target := (getGroup s (groupSel s)).members.length })) ∧
  (∀ s : State, deviceUp s = true → (getGroup s (groupSel s)).members = [] → exec .swingFire s = .next s ∧ exec .swingAbort s = .next s) ∧
  (∀ (page : Nat) (p : Page) (s : State), deviceUp s = true → pageOf page = some p → onHub p = true →
    let w := getSwing s p
    let g := getGroup s w.group
    w.state ≠ 0 → w.group ≠ 0 → g.fired = true → w.arrived = false → recovering s = false → drainDone s p = true →
    (g.count + 1 < g.target → exec (.swingPegArrive page) s =
      .next (putGroup (putSwing s p { w with arrived := true }) w.group { g with count := g.count + 1 })) ∧
    (g.target ≤ g.count + 1 → g.held = [] → p.base ∈ g.members → g.members.Nodup →
      (∀ b, b ∈ g.members → ∃ q, pageOf b = some q ∧ q.base = b ∧ onHub q = true ∧ q.kind ≠ 0x1A ∧ q.kind ≠ 0x1B) →
      ∃ t, exec (.swingPegArrive page) s = .next t ∧ t = { s with regs := t.regs, ec := t.ec } ∧ getGroup t w.group = {} ∧
        ∀ b q, b ∈ g.members → pageOf b = some q →
          (getSwing t q).state = 0 ∧ (getSwing t q).swings = ((getSwing s q).swings + 1) % 65536 ∧ bit (regGet t q Reg.EVT_PEND) 31 = true ∧
          ∀ o, o ∈ rwsOffs q.kind → o ≠ Reg.EVT_PEND → ∀ i, i < 32 →
            bit (regGet t q o) i = if bit (maskAt q.kind o .rws) i then bit (shadowGet s q o) i else bit (regGet s q o) i)) ∧
  (∀ (s : State) (n : Nat) (c : Instr), deviceUp s = true →
    ((c = .swingAbort ∧ n = groupSel s) ∨
      (∃ ms, c = .holdMax n ms ∧ (getGroup s n).held ≠ [] ∧ max 1 (fld s pgSwing Reg.SW_CTRL 15 0) ≤ ms)) →
    (getGroup s n).members ≠ [] → (∀ b p, b ∈ (getGroup s n).members → pageOf b = some p → onHub p = true) → (∀ e, e ∈ s.ctxs → e.2.queue = []) →
    ∃ t, exec c s = .next t ∧ t = { s with regs := t.regs, ec := t.ec, host := { s.host with devRings := t.host.devRings } } ∧
      getGroup t n = {} ∧ bit (regGet t pgSwing 0x090) 0 = true ∧ t.regs.shadow = s.regs.shadow ∧
      (∀ b p, b ∈ (getGroup s n).members → pageOf b = some p → (getSwing t p).state = 0 ∧ (getSwing t p).timeout = true))

/-- The rings (R361, R363, R369, R370): RDMA_WRITE places an entry at its index mod 256, or clears the place; a doorbell makes the device execute
the new entries, here one, answered by a SEND that carries the consumer index; a producer index more than 256 ahead is refused and each entry
between the old and the new index is answered BUSY; a slot of a ring that is not bound gets a NAK. A packet of a queue pair whose peer is not
on the allow-list is discarded, counted and flagged; one of a queue pair that is not connected has no effect. -/
def Obligations.Rings : Prop :=
  (∀ (qp ring : Nat) (s : State), deviceUp s = true → portUp s = true → packetTaken s qp = true →
    (∀ (index : Nat) (e : RingEntry) (q : Ring), s.host.rings.find ring = some q →
      exec (.rdmaWrite qp ring index (some e) false) s = .next { s with host := { s.host with
        rings := s.host.rings.insert ring { q with entries := q.entries.insert (index % 256) e } } } ∧
      exec (.rdmaWrite qp ring index none false) s = .next { s with host := { s.host with
        rings := s.host.rings.insert ring { q with entries := q.entries.erase (index % 256) } } }) ∧
    (∀ (index producer lat : Nat) (e : Option RingEntry), s.host.rings.find ring = none →
      exec (.rdmaWrite qp ring index e false) s = .next (emit s (.nak qp)) ∧
      exec (.doorbell qp ring producer lat false) s = .next (emit s (.nak qp))) ∧
    (∀ (lat : Nat) (q : Ring) (e : RingEntry), s.host.rings.find ring = some q → q.prio ≠ 0 → qpUp s q.qp = true → q.consumer + 1 < 2 ^ 32 →
      q.entries.find (q.consumer % 256) = some e → e.len ≤ 224 →
      let done (status : Nat) (streams : SMap Stream) (t : State) : Prop :=
        t.out = s.out ++ [.send { session := ring, seq := e.seq, status := status, ring := some ring, consumer := q.consumer + 1 }] ∧
        t.host.rings.find ring = some { q with producer := q.consumer + 1, consumer := q.consumer + 1 } ∧
        (cntHold s pgHost = false → regGet t pgHost Reg.HP_CMDS = (regGet s pgHost Reg.HP_CMDS + 1) % 2 ^ 32) ∧
        t = { s with regs := t.regs, out := t.out, host := { s.host with rings := t.host.rings, streams := streams } }
      (∀ stream b, e.cmd = .telemConfig stream 0 b → stream < 6 → ∃ t, exec (.doorbell qp ring (q.consumer + 1) lat false) s = .next t ∧
        done 0 (s.host.streams.put {} stream {}) t) ∧
      (∀ k, e.cmd = .reserved k → ∃ t, exec (.doorbell qp ring (q.consumer + 1) lat false) s = .next t ∧ done 0x42 s.host.streams t)) ∧
    (∀ (producer lat : Nat) (q : Ring), s.host.rings.find ring = some q → producer < 2 ^ 32 → q.consumer < 2 ^ 32 →
      256 < (producer + 2 ^ 32 - q.consumer) % 2 ^ 32 →
      exec (.doorbell qp ring producer lat false) s = .next { s with out := s.out ++
        (List.range (min 256 ((producer + 2 ^ 32 - q.producer) % 2 ^ 32))).filterMap (fun i =>
          (q.entries.find ((q.producer + i) % 256)).map (fun e =>
            .send { session := ring, seq := e.seq, status := 0x45, ring := some ring, consumer := q.consumer })) })) ∧
  (∀ (qp ring x lat : Nat) (e : Option RingEntry) (ce : Bool) (s : State) (c : Instr),
    (c = .doorbell qp ring x lat ce ∨ c = .rdmaWrite qp ring x e ce) → deviceUp s = true → portUp s = true →
    (qpUp s qp = false → exec c s = .next s) ∧
    (qpUp s qp = true → packetTaken s qp = false → ∃ t, exec c s = .next t ∧ t.out = s.out ∧ t.host.rings = s.host.rings ∧
      (cntHold s pgHost = false → fld t pgHost Reg.HP_DROP 31 0 = min (fld s pgHost Reg.HP_DROP 31 0 + 1) (2 ^ 32 - 1)) ∧
      bit (regGet t pgHost (errOff 0x1C)) 3 = true))

/-- Transfers (R363, R365): bytes for a plan make its table be read next; an export that is written is answered OK; a transfer the host refused, or
one pending on a queue pair that fails, ends its command with HOST_IO and puts the queue pair in error, shown on PROBE_LOAD's, the only one pending; a completion nobody waits for has no
effect. -/
def Obligations.TransfersEnd : Prop :=
  (∀ (id : Nat) (data : List Byte) (ok : Bool) (s : State), s.host.xfers.find id = none → exec (.transferDone id data ok) s = .next s) ∧
  (∀ (id qp n : Nat) (o : Origin) (b : BufRef) (data : List Byte) (s : State), deviceUp s = true → b.len ≠ 0 →
    s.host.xfers.find id = some ⟨qp, .plan o n b⟩ →
    exec (.transferDone id data true) s = .next { s with
      host := { s.host with xfers := (s.host.xfers.erase id).insert s.host.nextXfer ⟨b.qp, .planTable o n data⟩, nextXfer := s.host.nextXfer + 1 }
      out := s.out ++ [.read s.host.nextXfer b] }) ∧
  (∀ (id qp n x y z p : Nat) (data : List Byte) (s : State), deviceUp s = true → (∀ e, e ∈ s.ctxs → e.2.queue = []) → (getCtx s n).state ≠ 0 →
    s.host.xfers.find id = some ⟨qp, .export_ (.session x y z p) n⟩ →
    ∃ t, exec (.transferDone id data true) s = .next t ∧ getCtx t n = { getCtx s n with exporting := false } ∧
      (∀ m, m ≠ n → getCtx t m = getCtx s m) ∧
      t.out = s.out ++ [.resp { session := x, seq := y, status := 0, src := z }] ∧
      t = { s with ctxs := t.ctxs, out := t.out, host := { s.host with xfers := s.host.xfers.erase id, sessions := t.host.sessions } }) ∧
  (∀ (id qp x y z p : Nat) (k : Qp) (data : List Byte) (s : State) (c : Instr), (c = .transferDone id data false ∨ c = .qpError qp) → deviceUp s = true →
    qp ≠ 0xFFFF → s.host.qps.find qp = some k → k.error = false → s.host.xfers = [(id, ⟨qp, .probe (.session x y z p)⟩)] →
    ∃ t, exec c s = .next t ∧ t.host.xfers = [] ∧ t.host.qps = s.host.qps.insert qp { k with error := true } ∧
      bit (regGet t pgHost (errOff 0x1C)) 1 = true ∧ t.out = s.out ++ [.resp { session := x, seq := y, status := 0x46, src := z }] ∧
      t = { s with regs := t.regs, ec := t.ec, out := t.out,
                   host := { s.host with xfers := [], qps := t.host.qps, sessions := t.host.sessions, devRings := t.host.devRings } })

/-- Congestion and flow control (R364): a notification halves the rate, not below 1 Gbit/s; a quiet period raises it by STEP up to line rate; a
priority-flow-control frame pauses or resumes its priority where that is lossless, else nothing. The protocols the port answers by itself, and what it discards (R360, R361): ARP, neighbour discovery and echo requests for its own addresses
are answered, others not; a frame it does not accept is counted, one from outside the allow-list flagged as well. -/
def Obligations.PortAndCongestion : Prop :=
  (∀ (qp : Nat) (x : Qp) (s : State), deviceUp s = true → s.host.qps.find qp = some x →
    exec (.cnp qp) s = .next { s with host := { s.host with qps := s.host.qps.insert qp { x with rate := max 1 (x.rate / 2) } } } ∧
    exec (.hpCcPeriod qp) s = .next { s with host := { s.host with qps := s.host.qps.insert qp { x with
      rate := min 800 (x.rate + max 1 (fld s pgHost Reg.HP_CC 7 0)) } } }) ∧
  (∀ (prio : Nat) (pause : Bool) (s : State), deviceUp s = true → portUp s = true → prio < 8 →
    (bit (fld s pgHost Reg.HP_CTRL 15 8) prio = true →
      ∃ t, exec (.pfc prio pause) s = .next t ∧ t = { s with host := { s.host with paused := t.host.paused } } ∧
        ∀ i, bit t.host.paused i = if i = prio then pause else bit s.host.paused i) ∧
    (bit (fld s pgHost Reg.HP_CTRL 15 8) prio = false → exec (.pfc prio pause) s = .next s)) ∧
  (∀ (src a : Nat) (data : List Byte) (s : State), deviceUp s = true → portUp s = true →
    (ownV4 s a = true →
      exec (.arp src a) s = .next (emit s (.reply 0 src (natBe Config.macAddress.toNat 6))) ∧
      exec (.icmpEcho src a false data) s = .next (emit s (.reply 2 src data))) ∧
    (ownV4 s a = false → exec (.arp src a) s = .next s ∧ exec (.icmpEcho src a false data) s = .next s) ∧
    (ownV6 s a = true →
      exec (.neighbourDiscovery src a) s = .next (emit s (.reply 1 src (natBe Config.macAddress.toNat 6))) ∧
      exec (.icmpEcho src a true data) s = .next (emit s (.reply 3 src data))) ∧
    (ownV6 s a = false → exec (.neighbourDiscovery src a) s = .next s ∧ exec (.icmpEcho src a true data) s = .next s) ∧
    (∀ r, r ≤ 5 → ∃ t, exec (.discardedFrame r) s = .next t ∧ t.out = s.out ∧
      t = { s with regs := t.regs, ec := t.ec, host := { s.host with devRings := t.host.devRings } } ∧
      (cntHold s pgHost = false → fld t pgHost Reg.HP_DROP 31 0 = min (fld s pgHost Reg.HP_DROP 31 0 + 1) (2 ^ 32 - 1)) ∧
      (r = 5 → bit (regGet t pgHost (errOff 0x1C)) 3 = true)))

/-- TELEMETRY_RECORD (R373, R375): the oldest record of the device ring goes to the stream's session as one datagram, or into its host ring where
the consumer count leaves room: its 256-byte chunks at their places behind the 64-byte head, then the producer count; a full host ring keeps it
waiting; a ring that lost records sends a LOST record first. -/
def Obligations.TelemetryDelivered : Prop :=
  ∀ (stream ctx consumer : Nat) (r : TelRec) (rest : List TelRec) (s : State), deviceUp s = true → portUp s = true → stream < 6 →
    (s.host.devRings.get {} (ringKey stream ctx)).recs = r :: rest →
    let d := s.host.devRings.get {} (ringKey stream ctx)
    let x := s.host.streams.get {} stream
    let rec_ : TelRec := if d.lost = 0 then r else ⟨stream, 0xFFFF, natLe d.lost 8, s.power.tick⟩
    let left : DevRing := if d.lost = 0 then { recs := rest, lost := 0 } else { d with lost := 0 }
    let l := recordBytes rec_
    let n := (l.length + 255) / 256
    let cap := (x.buf.len - 64) / 256
    let chunk (i : Nat) : List Byte := (l.drop (256 * i)).take 256 ++ List.replicate (256 - ((l.drop (256 * i)).take 256).length) 0
    (x.mode = 1 → (s.host.sessions.find x.session).isSome = true →
      exec (.telemetryRecord stream ctx consumer) s = .next { s with
        host := { s.host with devRings := s.host.devRings.put {} (ringKey stream ctx) left }
        out := s.out ++ [.datagram x.session l] }) ∧
    (x.mode = 2 → qpUp s x.buf.qp = true → cap < x.producer + n - consumer → exec (.telemetryRecord stream ctx consumer) s = .next s) ∧
    (x.mode = 2 → qpUp s x.buf.qp = true → x.producer + n - consumer ≤ cap →
      ∃ t, exec (.telemetryRecord stream ctx consumer) s = .next t ∧
        t = { s with host := { s.host with devRings := t.host.devRings, streams := t.host.streams, xfers := t.host.xfers, nextXfer := t.host.nextXfer }, out := t.out } ∧
        t.host.devRings = s.host.devRings.put {} (ringKey stream ctx) left ∧
        t.host.streams = s.host.streams.put {} stream { x with producer := x.producer + n } ∧
        t.out = s.out ++ (List.range n).map (fun i =>
          .write { x.buf with addr := x.buf.addr + 64 + (x.producer + i) % cap * 256, len := 256 } (chunk i)) ++
          [.write { x.buf with len := 8 } (natLe (x.producer + n) 8)])

/-- A context's life (R179, R275): CREATE makes a number that holds nothing RESIDENT, else it is refused CTX_INVALID; DESTROY of a RESIDENT context
leaves nothing of it; SET_SEED, SET_WINDOW and RESUME set what they name; DEACTIVATE releases frames, pegs, slot and regions and keeps the
placement. Each on a context whose queue is empty, at a boundary where the command waits for one (a new seed waits for a pending repeat too, R179); no other context changes. A command that waits stays in its context's queue (R276): with an attempt, a pass or an export under way SET_SEED joins the queue and is not
answered; the ninth is refused CTX_BUSY. -/
def Obligations.ContextLifeAndQueue : Prop :=
  (∀ (h : Hdr) (s : State), taken h s = true → queueFree s h.ctx = true →
    let c := getCtx s h.ctx
    let ok := [respOf h 0 []]
    let bad := [respOf h 0x30 []]
    (∀ j sd, c.state = 0 → h.ctx < 1024 → ∃ t, exec (.create h j sd) s = .next t ∧ dispatchedOn ok [h.ctx] s t ∧
      getCtx t h.ctx = { c with state := 1, journal := j, seed := sd }) ∧
    (∀ j sd, (c.state ≠ 0 ∨ 1024 ≤ h.ctx) → ∃ t, exec (.create h j sd) s = .next t ∧ dispatchedOn bad [] s t) ∧
    (c.state = 1 → ∃ t, exec (.destroy h) s = .next t ∧ dispatchedOn ok [h.ctx] s t ∧ getCtx t h.ctx = {}) ∧
    (c.state ≠ 1 → ∃ t, exec (.destroy h) s = .next t ∧ dispatchedOn bad [] s t) ∧
    (∀ x, c.state ≠ 0 → mayAct s h.ctx (.setSeed x) = true → ∃ t, exec (.setSeed h x) s = .next t ∧ dispatchedOn ok [h.ctx] s t ∧
      getCtx t h.ctx = { c with seed := some x }) ∧
    (∀ b, c.state ≠ 0 → cmdBoundary s h.ctx = true → qpUp s b.qp = true → 0 < b.len → b.len ≤ 2 ^ 64 →
      ∃ t, exec (.setWindow h b) s = .next t ∧ dispatchedOn ok [h.ctx] s t ∧ getCtx t h.ctx = { c with window := some b }) ∧
    (c.suspended = true → ∃ t, exec (.resume h) s = .next t ∧ dispatchedOn ok [h.ctx] s t ∧
      getCtx t h.ctx = { c with suspended := false, noFit := false, skips := 0 }) ∧
    (c.suspended = false → ∃ t, exec (.resume h) s = .next t ∧ dispatchedOn bad [] s t) ∧
    (c.state = 2 → cmdBoundary s h.ctx = true → (∀ k, (getPeg s k).waits = []) →
      ∃ t, exec (.deactivate h) s = .next t ∧ dispatchedOn ok [h.ctx] { s with gals := t.gals, pegs := t.pegs } t ∧
        getCtx t h.ctx = { c with state := 1, cached := c.frames, frames := [], frameQueues := [], pegs := [], commitPegs := [], slot := none, regionBytes := [], stackPages := [], stackBase := [], stack := {}, jslots := [] } ∧
        ∀ k, getPeg t k = if k ∈ c.pegs.map (·.2) ++ c.commitPegs then {} else getPeg s k) ∧
    (c.state ≠ 2 → cmdBoundary s h.ctx = true → ∃ t, exec (.deactivate h) s = .next t ∧ dispatchedOn bad [] s t)) ∧
  (∀ (h : Hdr) (x : BitVec 64) (s : State), taken h s = true → (getCtx s h.ctx).state ≠ 0 → mayAct s h.ctx (.setSeed x) = false →
    ((getCtx s h.ctx).queue = [] → ∃ t, exec (.setSeed h x) s = .next t ∧ dispatchedOn [] [h.ctx] s t ∧
      getCtx t h.ctx = { getCtx s h.ctx with queue := [⟨originOf h, .setSeed x⟩] }) ∧
    (8 ≤ (getCtx s h.ctx).queue.length → ∃ t, exec (.setSeed h x) s = .next t ∧ dispatchedOn [respOf h 0x31 []] [] s t))

/-- ACTIVATE and SWITCH (R275, R279, R282, R284): where the placement succeeds, the context is ACTIVE with its frames, pegs and regions and in a
gauge slot, the outgoing ones are RESIDENT; the answer is OK. With a hall-edge engine that failed its test neither is allowed (R310). -/
def Obligations.ActivateAndSwitch : Prop :=
  ∀ (h : Hdr) (n : Nat) (outs : List Nat) (s : State), taken h s = true → queueFree s n = true → SMap.wf {} s.ctxs = true →
    let d := activate s n (freeSlot s) none
    let e := switchCtxs s (originOf h) outs n none
    (s.boot.failedUnit = none → h.ctx = n → d.status = 0 →
      ∃ t, exec (.activate h none) s = .next t ∧ t.out = d.s.out ++ [respOf h 0 []] ∧ (∀ m, getCtx t m = getCtx d.s m) ∧ t.pegs = d.s.pegs ∧
        (getCtx t n).state = 2 ∧ (getCtx t n).slot = some (freeSlot s) ∧ (∀ m, m ≠ n → getCtx t m = getCtx s m) ∧
        t.host.qps = s.host.qps ∧ t.mem = s.mem ∧ t.boot = s.boot) ∧
    (s.boot.failedUnit = none → h.ctx = n → d.status ≠ 0 →
      ∃ t, exec (.activate h none) s = .next t ∧ dispatchedOn [respOf h d.status []] [] s t) ∧
    (s.boot.failedUnit = none → (∀ k, k ∈ outs → cmdBoundary s k = true) → e.status = 0 →
      ∃ t, exec (.switch h outs n none) s = .next t ∧ t.out = e.s.out ++ [respOf h 0 []] ∧ (∀ m, getCtx t m = getCtx e.s m) ∧
        t.pegs = e.s.pegs ∧ (getCtx t n).state = 2 ∧ (∀ k, k ∈ outs → k ≠ n → (getCtx t k).state = 1) ∧
        (∀ k, k ∈ outs → (getCtx s k).state = 2)) ∧
    (s.boot.failedUnit.isSome = true → (h.ctx = n → ∃ t, exec (.activate h none) s = .next t ∧ dispatchedOn [respOf h 0x3C []] [] s t) ∧
      ((∀ k, k ∈ outs → cmdBoundary s k = true) → ∃ t, exec (.switch h outs n none) s = .next t ∧ dispatchedOn [respOf h 0x3C []] [] s t))

/-- Commands that read host memory first (R271, R284, R291, R311, R324, R363, R420): LOAD_PLAN, ACTIVATE and SWITCH with a table, RESTORE, PROBE_LOAD,
FW_UPDATE and PAIR send the RDMA READ and are not answered yet; a buffer on a queue pair that is not connected is refused QP_INVALID, one of
no bytes LENGTH_INVALID. -/
def Obligations.ReadsBegin : Prop :=
  ∀ (h : Hdr) (b : BufRef) (s : State), taken h s = true → qpUp s b.qp = true → 0 < b.len → b.len ≤ 8 * 4096 →
    (∀ tb : BufRef, (tb.len = 0 ∨ (qpUp s tb.qp = true ∧ tb.len ≤ 8 * 4096)) → queueFree s h.ctx = true → (getCtx s h.ctx).state ≠ 0 →
      ∃ t, exec (.loadPlan h b tb) s = .next t ∧ readBegun b (.plan (originOf h) h.ctx tb) s t) ∧
    (queueFree s h.ctx = true → s.boot.failedUnit = none →
      ∃ t, exec (.activate h (some b)) s = .next t ∧ readBegun b (.activateTable (originOf h) h.ctx) s t) ∧
    (∀ outs n, queueFree s n = true → s.boot.failedUnit = none → (∀ k, k ∈ outs → cmdBoundary s k = true) →
      ∃ t, exec (.switch h outs n (some b)) s = .next t ∧ readBegun b (.switchTable (originOf h) outs n) s t) ∧
    (∀ j, queueFree s h.ctx = true → s.boot.failedUnit = none → cmdBoundary s h.ctx = true →
      let r : RestoreArgs := { image := b, setJournal := j }
      ∃ t, exec (.restore h r) s = .next t ∧ readBegun b (.image (originOf h) h.ctx r) s t) ∧
    (∃ t, exec (.probeLoad h b) s = .next t ∧ readBegun b (.probe (originOf h)) s t) ∧
    (fwBusy s = false → ∃ t, exec (.fwUpdate h b) s = .next t ∧ readBegun b (.firmware (originOf h)) s t) ∧
    (∀ twin links, pairBarred s twin links = false →
      ∃ t, exec (.pair h twin links b) s = .next t ∧ readBegun b (.pairTable (originOf h) twin links) s t) ∧
    (∀ twin links, pairBarred s twin links = true →
      ∃ t, exec (.pair h twin links b) s = .next t ∧ dispatched [respOf h 0x49 []] s t) ∧
    (∀ u : BufRef, (qpUp s u.qp = false → ∃ t, exec (.probeLoad h u) s = .next t ∧ dispatched [respOf h 0x43 []] s t) ∧
      (qpUp s u.qp = true → u.len = 0 → ∃ t, exec (.probeLoad h u) s = .next t ∧ dispatched [respOf h 0x48 []] s t))

/-- EXPORT and EXPORT_KJ7 (R275, R289, R293, R397): the sections leave in order, then the directory, the header last; the halls whose stacks hold its state are woken; the
context is EXPORTING until that write is acknowledged; a buffer that is too short is refused LENGTH_INVALID. -/
def Obligations.ExportWritesHeaderLast : Prop :=
  ∀ (h : Hdr) (b : BufRef) (s : State), taken h s = true → queueFree s h.ctx = true → cmdBoundary s h.ctx = true →
    (getCtx s h.ctx).state ≠ 0 → qpUp s b.qp = true → 0 < b.len → b.len ≤ 2 ^ 64 →
    ∀ (c : Instr) (x : ImageParts), ((c = .export_ h b ∧ x = contextImage s (getCtx s h.ctx)) ∨
        (∃ p, c = .exportKj7 h b ∧ (getCtx s h.ctx).plan = some p ∧ x = kj7Image (getCtx s h.ctx) p)) →
      let piece (off : Nat) (d : List Byte) : Out := .write { b with addr := b.addr + off, len := d.length } d
      (x.len ≤ b.len → ∃ t, exec c s = .next t ∧
        dispatchedOn (x.secs.map (fun e => piece e.1 e.2) ++ [piece x.header.length x.dir, piece 0 x.header]) [h.ctx]
          { s with power := { s.power with waking := t.power.waking }, host := { s.host with xfers := s.host.xfers.insert s.host.nextXfer ⟨b.qp, .export_ (originOf h) h.ctx⟩, nextXfer := s.host.nextXfer + 1 } } t ∧
        getCtx t h.ctx = { getCtx s h.ctx with exporting := true } ∧
        ∀ i, bit t.power.waking i = (bit s.power.waking i || (bit s.power.asleep i && (homeHalls (getCtx s h.ctx)).contains i))) ∧
      (b.len < x.len → ∃ t, exec c s = .next t ∧ dispatchedOn [respOf h 0x48 []] [] s t)

/-- ADMIT (R207, R209): the checks are answered with the status of the first that fails, STEP and, for the activation stack, hall and shortfall,
and no attempt begins; where all pass an attempt of the next step begins with the batch and the limits that stand now, and every bound peg
counts from 0 again. The order of ADMIT's checks (R207): no active training context CTX_INVALID; SUSPENDED; SEED_MISSING; LENGTH_INVALID; the
last step number STEP_LIMIT; then what the activation stack lacks. EVAL (R207, R222): it takes the number given or, where asked, the context's own and steps it; the pass begins with the
evaluation templates in their frames' queues; CTX_INVALID and SEED_MISSING refuse it. -/
def Obligations.Admissions : Prop :=
  (∀ (h : Hdr) (off len : Nat) (s : State), taken h s = true → queueFree s h.ctx = true → mayAct s h.ctx (.admit_ off len) = true →
    let c := getCtx s h.ctx
    (∀ st hall short, admitCheck s h.ctx len = .refused st hall short →
      ∃ t, exec (.admit_ h off len) s = .next t ∧ dispatchedOn [respOf h st (admitPayload c.step false hall short)] [h.ctx] s t ∧
        (getCtx t h.ctx).attempt = none) ∧
    (∀ split halfOff, admitCheck s h.ctx len = .go split halfOff →
      ∃ t l a, exec (.admit_ h off len) s = .next t ∧ t.out = s.out ++ l ++ [respOf h 0 (admitPayload c.step halfOff 0 0)] ∧
        (getCtx t h.ctx).attempt = some a ∧ a.step = c.step ∧ a.number = c.attemptNo ∧ a.split = split ∧ a.halfOff = halfOff ∧
        a.batchOff = off ∧ a.batchLen = len ∧ a.limits = limitsNow s ∧ a.repeats = c.repeats ∧
        (getCtx t h.ctx).batch = some (off, len) ∧ (getCtx t h.ctx).step = c.step ∧ (getCtx t h.ctx).tensors = c.tensors ∧
        (∀ e, e ∈ c.pegs → (getPeg t e.2).count = 0 ∧ (getPeg t e.2).closed = false) ∧ t.gals = s.gals ∧ t.power = s.power ∧ t.boot = s.boot ∧ t.mem = s.mem)) ∧
  (∀ (s : State) (n len : Nat) (p : Plan), let c := getCtx s n
    (c.plan = none → admitCheck s n len = .refused 0x30 0 0) ∧
    (c.plan = some p →
      ((c.state ≠ 2 ∨ p.cls ≠ 0) → admitCheck s n len = .refused 0x30 0 0) ∧
      (c.state = 2 → p.cls = 0 → c.suspended = true → admitCheck s n len = .refused 0x3B 0 0) ∧
      (c.state = 2 → p.cls = 0 → c.suspended = false → c.configBad = false → c.vacant = [] →
        (c.seed = none → admitCheck s n len = .refused 0x38 0 0) ∧
        (c.seed.isSome = true →
          (batchTokens s c p len = none → admitCheck s n len = .refused 0x48 0 0) ∧
          (∀ T, batchTokens s c p len = some T → c.step = 2 ^ 32 - 1 → admitCheck s n len = .refused 0x3A 0 0))))) ∧
  (∀ (h : Hdr) (no off len : Nat) (take : Bool) (s : State), taken h s = true → queueFree s h.ctx = true →
      mayAct s h.ctx (.eval no take off len) = true →
      let c := getCtx s h.ctx
      (∀ p sd, c.plan = some p → c.state = 2 → c.seed = some sd →
        ∃ t, exec (.eval h no take off len) s = .next t ∧ (getCtx t h.ctx).evalRun = some { number := if take then c.evalno else no, off := off, len := len } ∧
          (getCtx t h.ctx).evalno = (if take then (c.evalno + 1) % 2 ^ 32 else c.evalno) ∧ (∀ m, m ≠ h.ctx → getCtx t m = getCtx s m) ∧
          (getCtx t h.ctx).frameQueues = ((List.range p.templates.length).filter (fun i =>
            let ph := bits (tw (p.templates.getD i ⟨[]⟩) 0) 7 4
            ph == 3 || (p.cls != 0 && ph == 4))).foldl (fun q i =>
              let f := tFrame (p.templates.getD i ⟨[]⟩)
              q.put [] f (q.get [] f ++ [i])) c.frameQueues ∧
          dispatchedOn [respOf h 0 (natLe (if take then c.evalno else no) 4)] [h.ctx] { s with pegs := t.pegs } t) ∧
      (c.state ≠ 2 → ∃ t, exec (.eval h no take off len) s = .next t ∧ dispatchedOn [respOf h 0x30 (natLe no 4)] [] s t) ∧
      (c.plan.isSome = true → c.state = 2 → c.seed = none →
        ∃ t, exec (.eval h no take off len) s = .next t ∧ dispatchedOn [respOf h 0x38 (natLe no 4)] [] s t))

/-- SELF_TEST and a write of SE_TEST (R309): a spare begins its test at once; a gallery in service whose aisle is busy is put on the list of
requests; an identifier that names no hall, aisle or gallery is refused UNIT_INVALID, at SE_TEST ignored and logged. UNPAIR (R331): a device that serves a lost member stops; a DEGRADED pairing ends at once and the command is answered; with steps under way it waits for
their end, unanswered, and a second one is NOT_ALLOWED; an unpaired device answers OK. -/
def Obligations.SelfTestAndUnpair : Prop :=
  (∀ (h : Hdr) (hall aisle g : Nat) (s : State), hall < 8 → aisle < 16 → g < 68 → bit s.power.asleep hall = false →
    let k := galKey hall aisle g
    let u := unitOf hall aisle g
    let tested : State := putGal s k { getGal s k with state := 2, testing := true, testReq := true }
    let asked : State := { s with silent := { s.silent with requests := s.silent.requests ++ [k] } }
    (((getGal s k).state = 1 ∨ (getGal s k).state = 3) → (getGal s k).probing = none →
      (taken h s = true → ∃ t, exec (.selfTest h u false) s = .next t ∧ dispatched [respOf h 0 []] tested t) ∧
      (fld s pgSilent Reg.SE_TESTOPT 0 0 = 0 → exec (.seTest (BitVec.ofNat 32 u)) s = .next tested)) ∧
    ((getGal s k).state = 0 → k ∉ s.silent.requests → aisleQuiet s hall aisle = false →
      (taken h s = true → ∃ t, exec (.selfTest h u false) s = .next t ∧ dispatched [respOf h 0 []] asked t) ∧
      (fld s pgSilent Reg.SE_TESTOPT 0 0 = 0 → exec (.seTest (BitVec.ofNat 32 u)) s = .next asked)) ∧
    (∀ (v : Nat) (f : Bool), v < 2 ^ 32 → testable s v = false →
      (taken h s = true → ∃ t, exec (.selfTest h v f) s = .next t ∧ dispatched [respOf h 1 []] s t) ∧
      (∃ t, exec (.seTest (BitVec.ofNat 32 v)) s = .next t ∧ t = { s with regs := t.regs, ec := t.ec, host := { s.host with devRings := t.host.devRings } } ∧
        lastRec t 2 0xFFFF = some ⟨2, 0xFFFF, faultBody s { kind := 11, device := deviceId s, unit := v }, s.power.tick⟩))) ∧
  (∀ (h : Hdr) (s : State), taken h s = true →
    (s.twin.serving = true → ∃ t, exec (.unpair h) s = .next t ∧
      dispatched [respOf h 0 []] { s with twin := { s.twin with serving := false, member := none } } t) ∧
    (s.twin.serving = false → s.twin.twin = none → s.twin.member = none → ∃ t, exec (.unpair h) s = .next t ∧ dispatched [respOf h 0 []] s t) ∧
    (s.twin.serving = false → s.twin.twin.isSome = true → s.twin.unpair.isSome = true →
      ∃ t, exec (.unpair h) s = .next t ∧ dispatched [respOf h 0x49 []] s t) ∧
    (∀ n, s.twin.serving = false → s.twin.twin.isSome = true → s.twin.unpair = none → s.twin.state ≠ 4 →
      (getCtx s n).mirrored = true → (getCtx s n).unpairPoint = false → (getCtx s n).unpairing = false → SMap.sorted s.ctxs = true →
      ∃ t, exec (.unpair h) s = .next t ∧ dispatched [] { s with ctxs := t.ctxs, twin := { s.twin with unpair := some (originOf h) } } t ∧
        (getCtx t n) = getCtx s n) ∧
    (∀ tw, s.twin.serving = false → s.twin.twin = some tw → s.twin.unpair = none → s.twin.state = 4 →
      ∃ t l, exec (.unpair h) s = .next t ∧ t.out = s.out ++ l ++ [respOf h 0 []] ∧ t.twin.twin = none ∧ t.twin.state = 0 ∧ t.twin.unpair = none))

/-- PORESET_N (R403, R405, R415, R431, R445): while it is low every register is at its reset value, contexts, pegs, links, queues, fences and volatile
state are gone; fuses, flash and the galleries' history stay. At release the slots are booted, with SVC_EN_N low service mode is entered instead,
and a device that is too hot waits with THERMTRIP_N and FAULT_N low (R448). -/
def Obligations.ColdReset : Prop :=
  (∀ s : State, ∃ t, exec .poresetNAssert s = .next t ∧ t.regs = {} ∧ t.ec = {} ∧ t.pegs = [] ∧ t.ctxs = [] ∧ t.links = [] ∧ t.router = {} ∧
    t.queues = [] ∧ t.twin = {} ∧ t.gauge = {} ∧ t.recovery = none ∧ t.fence = [] ∧ t.lostDevs = [] ∧ t.digests = [] ∧ t.early = [] ∧ t.update = {} ∧ t.pegRefs = [] ∧ t.ran = [] ∧
    t.host = { net := s.host.net, nextXfer := s.host.nextXfer } ∧
    t.boot = { s.boot with state := 0, image := [], tried := [], updating := none, service := false, fallback := false, resume := none, parked := [], waitCool := false } ∧
    t.power = { s.power with poreset := true, tripped := false, therm := false, fault := false, dormant := false, asleep := 0, waking := 0, capValue := [], lost := false, control := false, pins := false } ∧
    (∀ k, getGal t k = restoredGal true (getGal s k)) ∧ t.silent = { movers := s.silent.movers } ∧ t.out = s.out ∧ t.pending = s.pending) ∧
  (∀ (b : Bool) (s : State), s.power.poreset = false → exec (.poresetNRelease b) s = .next s) ∧
  (∀ s : State, s.power.poreset = true →
    (∃ t, exec (.poresetNRelease false) s = .next t ∧ t = { s with power := t.power, boot := { s.boot with service := true } } ∧
      t.power.poreset = false ∧ t.power.control = true) ∧
    (has48 s = false → ∃ t, exec (.poresetNRelease true) s = .next t ∧ t = { s with power := t.power } ∧ t.power.poreset = false) ∧
    (has48 s = true → hot s = true → ∃ t, exec (.poresetNRelease true) s = .next t ∧
      t = { s with power := t.power, boot := { s.boot with waitCool := true } } ∧ pinThermtrip t = some false ∧ pinFault t = some false) ∧
    (has48 s = true → hot s = false → ∃ t, exec (.poresetNRelease true) s = .next t ∧ t.power.poreset = false ∧ t.power.control = true ∧
      booted s t ∧ t.ctxs = s.ctxs))

/-- A warm reset (R404, R409, R416, R432): HBM contents and what lies in them, the always-on domain, fuses and flash stay; registers, links, pegs and
event lines are reset, PW_ERR keeps REF_LOST; at its release the slots are booted. PW_CTRL.WARM is such an edge followed by its release. -/
def Obligations.WarmReset : Prop :=
  (∀ s : State, s.power.poreset = false → s.power.tripped = false → s.power.warmreset = false →
    ∃ t, exec .warmresetNFall s = .next t ∧ t.ctxs = [] ∧ t.ec = {} ∧ t.pegs = [] ∧ t.links = [] ∧ t.router = {} ∧ t.queues = [] ∧ t.twin = {} ∧ t.update = {} ∧
      t.fence = s.fence ∧ t.lostDevs = s.lostDevs ∧
      t.host = { net := s.host.net, nextXfer := s.host.nextXfer, devRings := s.host.devRings } ∧
      t.boot = { s.boot with state := 0, image := [], tried := [], updating := none, service := false, fallback := false, resume := none, waitCool := false, parked := if s.boot.parked = [] then s.ctxs else s.boot.parked } ∧
      t.power = { s.power with warmreset := true, dormant := false, asleep := 0, waking := 0, capValue := [], lost := false, control := false, pins := false } ∧
      (∀ k, getGal t k = restoredGal false (getGal s k)) ∧ (∀ h, h < 8 → (getMc t h).refresh = true) ∧
      (bit (regGet s pgPower Reg.PW_ERR) 4 = false → t.regs = {}) ∧
      (bit (regGet s pgPower Reg.PW_ERR) 4 = true → t.regs = { applied := [(pgPower.base + Reg.PW_ERR, 16)] })) ∧
  (∀ s : State, (s.power.poreset = true ∨ s.power.tripped = true ∨ s.power.warmreset = true) → exec .warmresetNFall s = .next s) ∧
  (∀ s : State, s.power.warmreset = false → exec .warmresetNRise s = .next s) ∧
  (∀ s : State, s.power.warmreset = true → has48 s = true → s.power.tripped = false →
    ∃ t, exec .warmresetNRise s = .next t ∧ t.power.warmreset = false ∧ booted s t ∧ t.boot.parked = s.boot.parked ∧ t.ctxs = s.ctxs) ∧
  (∀ s : State, hubsRun s = true →
    ∃ u t, exec .warmresetNFall s = .next u ∧ exec .warm s = .next t ∧ exec .warmresetNRise u = .next t ∧ t.power.warmreset = false) ∧
  (∀ s : State, hubsRun s = false → exec .warm s = .next s)

/-- READY (R404, R413, R415): Riendin is up; the rollback counter takes the running image's SVN where that is higher, its revocations are burnt, the
running slot is ACTIVE, the other INACTIVE where its image is valid, and a slot whose SVN is below the counter EMPTY; a context that lay in HBM
is RESIDENT again, suspended where it was ACTIVE (shown on one without an attempt under way, with no other beside it). -/
def Obligations.ReadyCommitsSlots : Prop :=
  ∀ s : State, s.boot.state = 1 → s.boot.slot ≤ 1 →
    let svn (k : Nat) : Nat := imgSvn (getSlot s k).image
    let c := max s.boot.counter (imgSvn s.boot.image)
    let k := s.boot.slot
    (s.boot.parked = [] → ∃ t, exec .ready s = .next t ∧ t.boot.state = 2 ∧ t.boot.counter = c ∧ t.boot.tried = [] ∧ t.boot.image = s.boot.image ∧
      (∀ i, bit t.boot.revoked i = (bit s.boot.revoked i || bit (recNat s.boot.image 7 1 / 4 % 16) i)) ∧
      (∀ j, (getSlot t j).image = (getSlot s j).image) ∧ (c ≤ svn k → (getSlot t k).word = 2) ∧ (svn k < c → (getSlot t k).word = 0) ∧
      (svn (1 - k) < c → (getSlot t (1 - k)).word = 0) ∧
      (c ≤ svn (1 - k) → (getSlot t (1 - k)).word =
        if (getSlot s (1 - k)).word ≠ 0 ∧ imgCheck s (getSlot s (1 - k)).image = 0 then 1 else 0) ∧
      t.ctxs = s.ctxs ∧ t.host.net = s.host.net ∧ ∀ h, h < 8 → (getMc t h).refresh = false) ∧
    (∀ n x, s.boot.parked = [(n, x)] → x.attempt = none → x.shadow.held = false → x.state ≠ 0 →
      ∃ t, exec .ready s = .next t ∧ t.boot.state = 2 ∧ t.boot.parked = [] ∧ (getCtx t n).state = 1 ∧
        (getCtx t n).suspended = (x.suspended || x.state == 2) ∧ (getCtx t n).tensors = x.tensors ∧ (getCtx t n).plan = x.plan ∧
        (getCtx t n).step = x.step ∧ ∀ m, m ≠ n → getCtx t m = {})

/-- The watchdog, the update's end and the service port (R413, R420, R445): a Riendin that is not READY in time gives way to the next slot, FALLBACK
set; a written image is PENDING and its command answered; FLASH_WRITE and FLASH_ERASE act in service mode only. -/
def Obligations.FirmwareAndFlash : Prop :=
  (∀ s : State, s.boot.state = 1 → ∃ t, exec .romWatchdog s = .next t ∧ t.boot.fallback = true ∧ t.links = [] ∧ t.router = {} ∧ booted s t ∧
    t.ctxs = s.ctxs ∧ t.boot.counter = s.boot.counter ∧ t.boot.slots = s.boot.slots) ∧
  (∀ s : State, s.boot.state ≠ 1 → exec .ready s = .next s ∧ exec .romWatchdog s = .next s) ∧
  (∀ (s : State) (x y z p : Nat) (img : List Byte), s.boot.updating = some (.session x y z p, img) → s.boot.slot ≤ 1 →
    ∃ t, exec .fwWriteDone s = .next t ∧ getSlot t (1 - s.boot.slot) = { word := 3, image := img } ∧ getSlot t s.boot.slot = getSlot s s.boot.slot ∧
      t.boot.updating = none ∧ t.out = s.out ++ [.resp { session := x, seq := y, status := 0, src := z }] ∧
      t = { s with boot := { s.boot with slots := t.boot.slots, updating := none }, host := { s.host with sessions := t.host.sessions }, out := t.out }) ∧
  (∀ (addr len : Nat) (data : List Byte) (s : State), s.boot.service = false →
    exec (.flashErase addr len) s = .next s ∧ exec (.flashWrite addr data) s = .next s) ∧
  (∀ (addr : Nat) (data : List Byte) (s : State), s.boot.service = true → 2 * slotBytes ≤ addr →
    ∃ t, exec (.flashWrite addr data) s = .next t ∧ t = { s with boot := { s.boot with flash := t.boot.flash } } ∧
      ∀ a, t.boot.flash.readByte a = if addr ≤ a ∧ a < addr + data.length then data.getD (a - addr) 0 else s.boot.flash.readByte a) ∧
  (∀ (k off : Nat) (data : List Byte) (s : State), s.boot.service = true → k < 2 → off + data.length ≤ (getSlot s k).image.length →
    off < slotBytes → off + data.length ≤ slotBytes →
    ∃ t, exec (.flashWrite (k * slotBytes + off) data) s = .next t ∧ t = { s with boot := { s.boot with slots := t.boot.slots } } ∧
      (getSlot t k).image = (getSlot s k).image.take off ++ data ++ (getSlot s k).image.drop (off + data.length) ∧
      ∀ j, j ≠ k → getSlot t j = getSlot s j) ∧
  (∀ (k : Nat) (s : State), s.boot.service = true → k < 2 →
    ∃ t, exec (.flashErase (k * slotBytes) slotBytes) s = .next t ∧ getSlot t k = {} ∧ (∀ j, j ≠ k → getSlot t j = getSlot s j) ∧
      ∀ a, 2 * slotBytes ≤ a → t.boot.flash.readByte a = s.boot.flash.readByte a) ∧
  (∀ (addr len : Nat) (s : State), s.boot.service = true → 2 * slotBytes ≤ addr →
    ∃ t, exec (.flashErase addr len) s = .next t ∧ t = { s with boot := { s.boot with flash := t.boot.flash } } ∧
      (∀ a, addr ≤ a → a < addr + len → SMap.find a t.boot.flash = none) ∧
      ∀ a, (a < addr ∨ addr + len ≤ a) → t.boot.flash.readByte a = s.boot.flash.readByte a)

/-- Supplies and the clock (R338, R393, R394, R402): one lost input of two sets its error bit and source 254 and interrupts nothing; with the last one
the registers, contexts and volatile state are gone, and without STBY the monotonic count too; an input that comes back is taken into use, and
where none was, a cold boot follows; a lost reference clock makes the device declare itself lost. -/
def Obligations.SuppliesAndClock : Prop :=
  let put (s : State) (input mv : Nat) (ok : Bool) : Power :=
    if input = 0 then { s.power with mainOk := ok, mainMv := mv } else { s.power with backupOk := ok, backupMv := mv }
  (∀ (input mv : Nat) (s : State), input < 2 → outside mv = true → s.power.mainOk = true → s.power.backupOk = true → hubsRun s = true →
    s.ec.image = none → s.recovery = none →
    ∃ t, exec (.supplyLost input mv) s = .next t ∧ recorded { s with power := put s input mv false } t ∧
      bit (regGet t pgPower Reg.PW_ERR) input = true ∧ (60000 < mv → bit (regGet t pgPower Reg.PW_ERR) 3 = true) ∧ (getSrc t 254).pend = true) ∧
  (∀ (input mv : Nat) (s : State), (2 ≤ input ∨ outside mv = false ∨ inputOk s input = false) → exec (.supplyLost input mv) s = .next s) ∧
  (∀ (input mv : Nat) (s : State) (c : Instr), ((c = .powerLost ∧ has48 s = true) ∨
      (c = .supplyLost input mv ∧ input < 2 ∧ outside mv = true ∧ inputOk s input = true ∧ inputOk s (1 - input) = false)) →
    ∃ t, exec c s = .next t ∧ t.power.mainOk = false ∧ t.power.backupOk = false ∧ t.regs = {} ∧ t.ctxs = [] ∧ t.pegs = [] ∧ t.ec = {} ∧
      t.boot.state = 0 ∧ t.boot.slots = s.boot.slots ∧ t.boot.counter = s.boot.counter ∧ t.boot.revoked = s.boot.revoked ∧
      t.host.net = s.host.net ∧ t.power.tick = if s.power.stbyOk then s.power.tick else 0) ∧
  (∀ s : State, has48 s = false → exec .powerLost s = .next s) ∧
  (∀ (input mv : Nat) (s : State), input < 2 → outside mv = false → inputOk s input = false →
    ((has48 s = true ∨ s.power.poreset = true ∨ s.power.warmreset = true) →
      exec (.supplyReturn input mv) s = .next { s with power := put s input mv true }) ∧
    (∀ c, (c = .supplyReturn input mv ∨ c = .powerReturn input mv) → has48 s = false → s.power.poreset = false → s.power.warmreset = false →
      hot s = false → ∃ t, exec c s = .next t ∧ has48 t = true ∧ t.power.control = true ∧ t.power.tripped = false ∧ t.ctxs = [] ∧
        booted { s with boot := { s.boot with tried := [] } } t)) ∧
  (∀ (input mv : Nat) (s : State), has48 s = true → exec (.powerReturn input mv) s = .next s) ∧
  (∀ (mv : Nat) (s : State), s.power.stbyOk = true → (mv < 3135 ∨ 3465 < mv) →
    (hubsRun s = true → s.ec.image = none → ∃ t, exec (.stbyLost mv) s = .next t ∧
      recorded { s with power := { s.power with stbyOk := false, stbyMv := mv } } t ∧ bit (regGet t pgPower Reg.PW_ERR) 2 = true ∧
      (getSrc t 254).pend = true) ∧
    (has48 s = false → ∃ t, exec (.stbyLost mv) s = .next t ∧ t.power.stbyOk = false ∧ t.power.tick = 0)) ∧
  (∀ s : State, s.power.refclk = true → s.power.poreset = false →
    (hubsRun s = true → s.power.lost = false → ∃ t, exec .refLost s = .next t ∧ t.power.refclk = false ∧ t.power.lost = true ∧
      t.power.fault = true ∧ bit (regGet t pgPower Reg.PW_ERR) 4 = true ∧ t.ctxs = s.ctxs ∧ t.gals = s.gals ∧ t.pegs = s.pegs) ∧
    (hubsRun s = false → ∃ t, exec .refLost s = .next t ∧ recorded { s with power := { s.power with refclk := false } } t ∧
      bit (regGet t pgPower Reg.PW_ERR) 4 = true))

/-- DORMANT and the thermal trip (R390, R399, R400, R417, R447, R448): DORMANT_ENTRY saves the event state where EC_CTRL asks for it, keeps the image's
digest and drops the links; a wake with a good image restores the sources' enables, routes and pending bits and what latched meanwhile; a bad
one is a cold boot. A sensor at its trip level pulls THERMTRIP_N and FAULT_N low and stops everything until PORESET_N. -/
def Obligations.SleepAndTrip : Prop :=
  (∀ s : State, mayDormant s = true → ∃ t, exec .dormantEntry s = .next t ∧ t.power = { s.power with dormant := true, pins := false } ∧
    t.links = [] ∧ t.ctxs = s.ctxs ∧ t.gals = s.gals ∧ t.pegs = s.pegs ∧ t.ec = { image := t.ec.image } ∧
    (bit (regGet s pgEvent Reg.EC_CTRL) 0 = true → t.ec.image = some { shared := s.ec.shared, ppend := s.ec.ppend, pen := s.ec.pen }) ∧
    t.boot = { s.boot with resume := some (measure s.boot.image, imgSvn s.boot.image) }) ∧
  (∀ s : State, mayDormant s = false → exec .dormantEntry s = .next s) ∧
  (∀ (ok : Bool) (c : Instr) (s : State), (c = .wakeN ok ∨ (c = .pwWake ok ∧ regGet s pgPower Reg.PW_WAKE ≠ 0)) → s.power.dormant = true →
    s.power.poreset = false →
    (∀ m svn r, ok = true → s.boot.resume = some (m, svn) → s.boot.counter ≤ svn → s.ec.image = some r → r.crcOk = true →
      SMap.sorted r.shared = true →
      ∃ t, exec c s = .next t ∧ t.power.dormant = false ∧ t.boot.resume = none ∧ t.ctxs = s.ctxs ∧ t.gals = s.gals ∧ t.ec.image = none ∧
        (getSrc t 253).pend = true ∧ (∀ n, n ∈ r.late → (getSrc t n).pend = true) ∧
        ∀ n, (getSrc t n).en = (r.shared.get {} n).en ∧ (getSrc t n).target = (r.shared.get {} n).target ∧
          ((r.shared.get {} n).pend = true → (getSrc t n).pend = true)) ∧
    (ok = false → hot s = false → ∃ t, exec c s = .next t ∧ t.ctxs = [] ∧ t.power.dormant = false ∧
      booted { s with boot := { s.boot with tried := [] } } t)) ∧
  (∀ (ok : Bool) (s : State), (s.power.dormant = false ∨ s.power.poreset = true) → exec (.wakeN ok) s = .next s ∧ exec (.pwWake ok) s = .next s) ∧
  (∀ (u i : Nat) (x : Int) (s : State), atTrip u i x = true → has48 s = true → s.power.poreset = false → s.power.dormant = false →
    s.power.tripped = false →
    ∃ t, exec (.thermalTrip u i x) s = .next t ∧ t.power.tripped = true ∧ pinThermtrip t = some false ∧ pinFault t = some false ∧
      hubsRun t = false ∧ t.ctxs = [] ∧ ∀ h, h < 8 → (getMc t h).refresh = true) ∧
  (∀ (u i : Nat) (x : Int) (s : State), (atTrip u i x = false ∨ has48 s = false ∨ s.power.poreset = true ∨ s.power.dormant = true ∨
    s.power.tripped = true) → exec (.thermalTrip u i x) s = .next s)

/-- The issue duty (R406, R407): a reading in range is taken, one outside or a stale one is ignored and flagged; a hall with a sensor at THR issues
one sixteenth less, not below four, one whose sensors are all below THR less HYST one more; the power cap moves every awake hall likewise. -/
def Obligations.IssueDuty : Prop :=
  (∀ (temps : List (Nat × Nat × Int)) (watts : Nat) (s : State), deviceUp s = true → s.boot.waitCool = false →
    ∃ t, exec (.dutyUpdate temps watts) s = .next t ∧
      recorded { s with monitors := t.monitors, power := { s.power with watts := watts, capValue := t.power.capValue } } t ∧
      (∀ h, h < 8 → bit s.power.asleep h = false →
        let hot := validTemps { getMon t h with temps := (getMon t h).temps.filter (fun e => decide (e.1 < 64)) }
        let thr : Int := 8 * (fld s (pgMonitor h) Reg.MN_CTRL 15 8 : Int)
        let hyst : Int := 8 * (max 1 (fld s (pgMonitor h) Reg.MN_CTRL 19 16) : Int)
        ((∃ x, x ∈ hot ∧ thr ≤ x) → (getMon t h).thermal = max 4 ((getMon s h).thermal - 1)) ∧
        ((∀ x, x ∈ hot → x < thr - hyst) → (getMon t h).thermal = min 16 ((getMon s h).thermal + 1)) ∧
        ((∀ x, x ∈ hot → x < thr) → (∃ x, x ∈ hot ∧ thr - hyst ≤ x) → (getMon t h).thermal = (getMon s h).thermal) ∧
        capValue t h = (if powerCap s < watts then max 4 (capValue s h - 1)
          else if watts * 100 < powerCap s * 98 then min 16 (capValue s h + 1) else capValue s h)) ∧
      (∀ u i x, temps = [(u, i, x)] → u < 10 → i < sensorCount u → (getMon t u).temps.find i = some (x, decide (-320 ≤ x ∧ x ≤ 1200)) ∧
        ((x < -320 ∨ 1200 < x) → bit (regGet t (pgMonitor u) (errOff 0x1F)) 3 = true))) ∧
  (∀ (temps : List (Nat × Nat × Int)) (watts : Nat) (s : State), deviceUp s = false → s.boot.waitCool = false →
    exec (.dutyUpdate temps watts) s = .next s) ∧
  (∀ (u i : Nat) (s : State), deviceUp s = true → u < 10 → i < sensorCount u →
    ∃ t, exec (.sensorStale u i) s = .next t ∧ recorded { s with monitors := t.monitors } t ∧
      ((getMon t u).temps.find i).map (·.2) = some false ∧ bit (regGet t (pgMonitor u) (errOff 0x1F)) 3 = true)

/-- Rails and records (R316, R317, R332, R374, R406): a rail outside its band keeps its voltage and sets its error bit; of a spare gallery it is that
one's fault, at a hub or a hall edge it is the device's
loss; MONITOR_RECORD writes a record to stream 4; ECS_READ one fault-log record for each stack's count. -/
def Obligations.MonitorsReport : Prop :=
  (∀ (u rail mv : Nat) (s : State), deviceUp s = true → u < 10 → s.power.lost = false →
    ∃ t, exec (.railFault u rail mv none) s = .next t ∧ (getMon t u).volts.get 0 (rail % 256) = mv ∧
      bit (regGet t (pgMonitor u) (errOff 0x1F)) 2 = true ∧ t.power.lost = true ∧ t.power.fault = true ∧ t.ctxs = s.ctxs ∧ t.gals = s.gals) ∧
  (∀ (u rail mv k : Nat) (s : State), deviceUp s = true → u < 10 → k < 8704 → (getGal s k).state = 1 →
    ∃ t, exec (.railFault u rail mv (some k)) s = .next t ∧ (getMon t u).volts.get 0 (rail % 256) = mv ∧
      bit (regGet t (pgMonitor u) (errOff 0x1F)) 2 = true ∧ (getGal t k).state = (if 3 ≤ (getGal s k).fails + 1 then 5 else 3) ∧ (getGal t k).quar = true ∧ t.ctxs = s.ctxs ∧
      ∀ j, j ≠ k → getGal t j = getGal s j) ∧
  (∀ (u : Nat) (s : State), deviceUp s = true → u < 10 →
    ∃ t, exec (.monitorRecord u) s = .next t ∧ recorded { s with freeCtr := t.freeCtr, monitors := t.monitors } t ∧
      (∀ v, v ≠ u → getMon t v = getMon s v) ∧ (getMon t u).temps = (getMon s u).temps ∧ (getMon t u).volts = (getMon s u).volts ∧
      ((getMon s u).volts.length ≤ 256 →
        lastRec t 4 0xFFFF = some ⟨4, 0xFFFF, monitorBody { s with monitors := t.monitors } u, s.power.tick⟩)) ∧
  (∀ (cs : List Nat) (x : Nat) (s : State), exec (.ecsRead []) s = .next s ∧ ∃ u t, exec (.ecsRead cs) s = .next u ∧
    exec (.ecsRead (cs ++ [x])) s = .next t ∧ t = logFault u { kind := 6, device := deviceId u, unit := hallUnit cs.length, d0 := sat32 x } ∧ recorded s t ∧
    lastRec t 2 0xFFFF = some ⟨2, 0xFFFF, faultBody s { kind := 6, device := deviceId s, unit := hallUnit cs.length, d0 := sat32 x }, s.power.tick⟩)

/-- Gates and halls (R395, R396, R397, R432): an idle gallery's gate closes and opens again; a hall that may sleep goes into self-refresh with its
galleries dark; a hall that has woken is awake. -/
def Obligations.GatesAndHalls : Prop :=
  (∀ (h a g : Nat) (s : State), h < 8 → a < 16 → g < 68 → deviceUp s = true → bit s.power.asleep h = false →
    let k := galKey h a g
    (mayGate s k = true → ∃ t, exec (.gateIdle h a g) s = .next t ∧ recorded { s with gals := t.gals } t ∧
      getGal t k = { getGal s k with powered := false } ∧ ∀ j, j ≠ k → getGal t j = getGal s j) ∧
    (mayGate s k = false → exec (.gateIdle h a g) s = .next s) ∧
    (∀ ok, (ok = true ∨ wakeKat s = false) → exec (.gateOpen h a g ok) s = .next (putGal s k { getGal s k with powered := true })) ∧
    (wakeKat s = true → ∃ t, exec (.gateOpen h a g false) s = .next t ∧ bit (regGet t pgReference Reg.RN_ERR) 0 = true)) ∧
  (∀ (h : Nat) (s : State), h < 8 → deviceUp s = true →
    (maySleep s h = true → ∃ t, exec (.hallIdle h) s = .next t ∧
      recorded { s with gals := t.gals, mem := t.mem, power := { s.power with asleep := t.power.asleep } } t ∧
      (∀ i, bit t.power.asleep i = (bit s.power.asleep i || i == h)) ∧ getMc t h = { getMc s h with refresh := true } ∧
      ∀ k, k < 8704 → getGal t k = if keyHall k = h then { getGal s k with powered := false } else getGal s k) ∧
    (maySleep s h = false → exec (.hallIdle h) s = .next s) ∧
    (∀ ns x, bit s.power.asleep h = true → bit s.power.waking h = true → ((x.engineOk = true ∧ x.bad = []) ∨ wakeKat s = false) →
      ∃ t, exec (.hallWakeDone h ns x) s = .next t ∧
        recorded { s with gals := t.gals, mem := t.mem, power := { s.power with asleep := t.power.asleep, waking := t.power.waking, capValue := t.power.capValue } } t ∧
        bit t.power.asleep h = false ∧ bit t.power.waking h = false ∧ getMc t h = { getMc s h with refresh := false } ∧
        (60000 < ns → bit (regGet t pgPower Reg.PW_ERR) 5 = true)) ∧
    (∀ ns x, (bit s.power.asleep h = false ∨ bit s.power.waking h = false) → exec (.hallWakeDone h ns x) s = .next s))

/-- R7: the work order at the head of a frame's queue goes to the end of every addressed member's queue, when every one has room; a full member queue
stalls the whole frame queue, and nothing is reordered or dropped. -/
def Obligations.FrameQueueDelivers : Prop :=
  ∀ (n f ti : Nat) (rest : List Nat) (p : Plan) (s : State), (getCtx s n).frameQueues.get [] f = ti :: rest → (getCtx s n).plan = some p →
    let u := templateUnit (p.templates.getD ti ⟨[]⟩)
    let ks := ((getCtx s n).frames.get [] f).map (fun m => ((m.hall * 16 + m.aisle) * 68 + m.slot) * 4 + u)
    ((∀ k, k ∈ ks → (s.queues.get [] k).length < queueRoom u) →
      ∃ t, exec (.frameQueueAccept n f) s = .next t ∧ t = { s with queues := t.queues, ctxs := t.ctxs } ∧
        getCtx t n = { getCtx s n with frameQueues := (getCtx s n).frameQueues.put [] f rest } ∧ (∀ m, m ≠ n → getCtx t m = getCtx s m) ∧
        ∀ k, t.queues.get [] k = s.queues.get [] k ++ List.replicate (ks.count k) { ctx := n, template := ti }) ∧
    ((∃ k, k ∈ ks ∧ queueRoom u ≤ (s.queues.get [] k).length) → exec (.frameQueueAccept n f) s = .next s)

/-- Training and faults of links (R313, R316, R337, R357): a TRAINING link comes up with its lanes, numbered afresh, or fails with fewer than three; a
changed far device is flagged and keeps it out of every trunk; a lost lane is replaced by the spare, or leaves three lanes, or fails the link; a
failed link gives up its buffers and trains again where it is enabled. -/
def Obligations.LinkStates : Prop :=
  ∀ (n : Nat) (s : State),
    let l := getLink s n
    let p := pgLink n
    let err (t : State) (i : Nat) : Bool := bit (regGet t p (errOff p.kind)) i
    (∀ peer far lanes, n < 48 → l.state = 1 →
      let up : Link := { l with state := if lanes = 3 then 3 else 2, noSpare := decide (lanes < 5), cal := decide (5 ≤ lanes) && fld s p Reg.LK_CTRL 1 1 == 1, peer := peer % 4096, peerLink := far % 64, seen := some peer, tx := 0, rx := 0, discarding := false, replays := 0, used := [], owed := [] }
      (lanes < 3 → exec (.linkUp n peer far lanes) s = .next (putLink s n { l with state := 4 })) ∧
      (3 ≤ lanes → (l.seen = none ∨ l.seen = some peer) → l.retry = [] → l.queue = [] →
        exec (.linkUp n peer far lanes) s = .next (putLink s n up)) ∧
      (∀ d, 3 ≤ lanes → l.seen = some d → d ≠ peer → l.retry = [] → l.queue = [] →
        ∃ t, exec (.linkUp n peer far lanes) s = .next t ∧ recorded (putLink s n { up with leftOut := true }) t ∧ err t 5 = true)) ∧
    (∀ peer far lanes, (l.state ≠ 1 ∨ 48 ≤ n) → exec (.linkUp n peer far lanes) s = .next s) ∧
    (l.state = 4 → n < 48 → fld s p Reg.LK_CTRL 0 0 = 1 →
      exec (.linkRetrain n) s = .next (emit (putLink s n { l with state := 1, cal := false }) (.training n))) ∧
    ((l.state ≠ 4 ∨ fld s p Reg.LK_CTRL 0 0 ≠ 1) → exec (.linkRetrain n) s = .next s) ∧
    (∀ lane ns, l.state = 2 → s.recovery = none →
      (lane = l.spare → ∃ t, exec (.laneFault n lane ns) s = .next t ∧ recorded (putLink s n { l with noSpare := true, cal := false }) t) ∧
      (lane ≠ l.spare → l.noSpare = true →
        ∃ t, exec (.laneFault n lane ns) s = .next t ∧ recorded (putLink s n { l with state := 3, cal := false }) t) ∧
      (lane ≠ l.spare → l.noSpare = false → ∃ t, exec (.laneFault n lane ns) s = .next t ∧
        recorded (putLink s n { l with spare := lane % 5, noSpare := true, cal := false }) t ∧ err t 2 = true)) ∧
    (∀ lane, l.state = 2 → l.cal = true → l.noSpare = false → lane < 5 → lane ≠ l.spare →
      ∃ t, exec (.laneSwap n lane) s = .next t ∧
        recorded (putLink s n { l with spare := lane, cal := fld s p Reg.LK_CTRL 1 1 == 1 }) t ∧ err t 2 = true) ∧
    (∀ lane, (l.state ≠ 2 ∨ l.cal = false ∨ l.noSpare = true ∨ lane = l.spare) → exec (.laneSwap n lane) s = .next s) ∧
    (∀ c lane ns, (c = .linkFault n ns ∨ (c = .retryExh n ns ∧ retryMax s n ≤ l.replays) ∨ (c = .laneFault n lane ns ∧ l.state = 3)) →
      linkRuns s n = true → s.recovery = none →
      ∃ t, exec c s = .next t ∧ t.ctxs = s.ctxs ∧ t.gals = s.gals ∧ t.recovery = none ∧ (∀ m, m ≠ n → (getLink t m).state = (getLink s m).state) ∧
        getLink t n = { l with state := 4, cal := false, retry := [], queue := [], used := [], owed := [], discarding := false, replays := 0, turn := 0, share := 0 } ∧
        (c = .retryExh n ns → err t 1 = true)) ∧
    (∀ lane ns, linkRuns s n = false → exec (.linkFault n ns) s = .next s ∧ exec (.retryExh n ns) s = .next s ∧ exec (.laneFault n lane ns) s = .next s)

/-- Flits and acknowledgement (R343, R346, R350, R351, R352, R354): a bad CRC and a gap discard the flit and name the SEQ expected; a good one frees what it
acknowledges; for this device it is passed on in ESEQ order, ahead of it held, and one that begins a pairing makes its sender the member served
(R324; the message is the model's choice, log entry 177); for another it goes on, unless its hops are spent or no route
leads there. -/
def Obligations.FlitsReceived : Prop :=
  ∀ (n : Nat) (bytes : List Byte) (s : State),
    let l := getLink s n
    let held (b : Bool) : Link := { l with discarding := b }
    (linkRuns s n = false → exec (.flit n bytes) s = .next s) ∧
    (linkRuns s n = true → readFlit bytes = none → ∃ t, exec (.flit n bytes) s = .next t ∧
      recorded (emit (putLink s n (held true)) (.nakFlit n l.rx)) t ∧ bit (regGet t (pgLink n) (errOff 0x1A)) 0 = true) ∧
    (∀ f, linkRuns s n = true → readFlit bytes = some f → l.queue = [] →
      let got : Link := { takeHeader l f with rx := (l.rx + 1) % 4096, discarding := false }
      let owed : Link := { got with owed := got.owed.put 0 (f.tc * 2 + f.vc) (got.owed.get 0 (f.tc * 2 + f.vc) + 1) }
      let key := f.src * 4 + f.tc
      (f.fkind = 0 → exec (.flit n bytes) s = .next (putLink s n (takeHeader l f))) ∧
      (f.fkind ≠ 0 → f.seq ≠ l.rx → exec (.flit n bytes) s = .next (if l.discarding then s else emit (putLink s n (held true)) (.nakFlit n l.rx))) ∧
      (f.fkind = 3 → f.seq = l.rx → exec (.flit n bytes) s = .next (putLink s n got)) ∧
      ((f.fkind = 1 ∨ f.fkind = 2) → f.seq = l.rx → noCredit s n l f = true →
        ∃ t, exec (.flit n bytes) s = .next t ∧ (getLink t n).state = 1 ∧ bit (regGet t (pgLink n) (errOff 0x1A)) 3 = true ∧ t.router = s.router) ∧
      ((f.fkind = 1 ∨ f.fkind = 2) → f.seq = l.rx → noCredit s n l f = false → idValid s = true → f.dst = deviceId s →
        (f.eseq = s.router.next.get 0 key → s.router.held.get [] key = [] → (f.fkind = 2 ∨ f.proto ≠ 4) →
          ∃ t, exec (.flit n bytes) s = .next t ∧ t = { s with links := t.links, router := t.router } ∧ getLink t n = owed ∧
            (∀ m, m ≠ n → getLink t m = getLink s m) ∧ t.router = { s.router with next := s.router.next.put 0 key ((f.eseq + 1) % 4096) }) ∧
        (f.eseq = s.router.next.get 0 key → s.router.held.get [] key = [] → f.fkind = 1 → f.proto = 4 → (f.data.head?.map (·.toNat)) = some 0xF0 →
          s.twin.member = none → f.src ∉ s.lostDevs → ∃ t, exec (.flit n bytes) s = .next t ∧ t.twin = { s.twin with member := some f.src } ∧
            t = { s with links := t.links, router := t.router, twin := t.twin } ∧ getLink t n = owed) ∧
        (f.eseq ≠ s.router.next.get 0 key → (f.eseq + 4096 - s.router.next.get 0 key) % 4096 < 2048 → heldAll s < 8192 →
          ∃ t, exec (.flit n bytes) s = .next t ∧ t = { s with links := t.links, router := t.router } ∧ getLink t n = owed ∧
            t.router = { s.router with held := s.router.held.put [] key (s.router.held.get [] key ++ [{ f := f }]) })) ∧
      ((f.fkind = 1 ∨ f.fkind = 2) → f.seq = l.rx → noCredit s n l f = false → idValid s = true → f.dst ≠ deviceId s →
        (hopMax s < f.hops + 1 → ∃ t, exec (.flit n bytes) s = .next t ∧ recorded { s with links := t.links } t ∧ getLink t n = owed ∧
          bit (regGet t pgRouter (errOff 0x1B)) 1 = true) ∧
        (f.hops + 1 ≤ hopMax s → routeOf s f.src f.dst f.tc = none → ∃ t, exec (.flit n bytes) s = .next t ∧
          recorded { s with links := t.links } t ∧ getLink t n = owed ∧ bit (regGet t pgRouter (errOff 0x1B)) 0 = true) ∧
        (∀ m d, f.hops + 1 ≤ hopMax s → routeOf s f.src f.dst f.tc = some (m, d) → m ≠ n → (getLink s m).retry.length < 512 → s.power.lost = false →
          (getLink s m).queue = [] → (getLink s m).used = [] → ∃ t g, exec (.flit n bytes) s = .next t ∧ t.out = s.out ++ [.flit m g] ∧
            g.hops = f.hops + 1 ∧ g.data = f.data ∧ g.dst = f.dst ∧ g.src = f.src ∧ g.eseq = f.eseq ∧ g.seq = (getLink s m).tx % 4096 ∧
            (getLink t m).retry = (getLink s m).retry ++ [g])))

/-- Replay, idle flits and the reorder store (R343, R346, R352): a NAK sends again what is still held from the SEQ named, unless its retry is exhausted; an idle
flit carries acknowledgement and credits and takes no number; a gap that stays unfilled gives up the flits held behind it. -/
def Obligations.ReplayAndReorder : Prop :=
  ∀ (n : Nat) (s : State),
    let l := getLink s n
    (∀ seq, let r := unacked l ((seq % 4096 + 4095) % 4096)
      let again := if l.replayed = seq % 4096 ∧ l.replays ≠ 0 then l.replays else 0
      ((r = [] ∨ linkRuns s n = false ∨ retryMax s n ≤ again) → exec (.nak n seq) s = .next (putLink s n { l with retry := r })) ∧
      (r ≠ [] → linkRuns s n = true → again < retryMax s n → s.power.lost = false →
        ∃ t, exec (.nak n seq) s = .next t ∧ t = { s with links := t.links, regs := t.regs, out := t.out } ∧
          getLink t n = { l with retry := r, replayed := seq % 4096, replays := again + 1 } ∧ (∀ m, m ≠ n → getLink t m = getLink s m) ∧
          t.out = s.out ++ r.map (fun f => .flit n { f with ack := (l.rx + 4095) % 4096, credit := 0, ctc := 0 }))) ∧
    (linkRuns s n = true → nextFlit s n l = none → s.power.lost = false →
      let f : Flit := { seq := l.tx % 4096, ack := (l.rx + 4095) % 4096, src := deviceId s }
      (creditBack s n l = none → exec (.idleFlit n) s = .next (emit (putLink s n l) (.flit n f))) ∧
      (∀ k c, creditBack s n l = some (k, c) → exec (.idleFlit n) s =
        .next (emit (putLink s n { l with owed := l.owed.put 0 k (l.owed.get 0 k - c) }) (.flit n { f with credit := c, ctc := k / 2 })))) ∧
    ((linkRuns s n = false ∨ (nextFlit s n l).isSome = true ∨ s.power.lost = true) → exec (.idleFlit n) s = .next s) ∧
    (∀ src tc, tc < 4 →
      let key := src * 4 + tc
      let hs := s.router.held.get [] key
      (hs = [] → exec (.reorderTimeout src tc) s = .next s) ∧
      (∀ h, hs = [h] → ∃ t, exec (.reorderTimeout src tc) s = .next t ∧ recorded { s with links := t.links, router := t.router } t ∧
        t.router.held.get [] key = [] ∧ (t.router.next.get 0 key) % 4096 = (s.router.next.get 0 key + (h.f.eseq + 4096 - s.router.next.get 0 key) % 4096 + 1) % 4096 ∧
        bit (regGet t pgRouter (errOff 0x1B)) 2 = true ∧
        ∀ m, getLink t m = if h.link = some m then { getLink s m with owed := (getLink s m).owed.put 0 (h.f.tc * 2 + h.f.vc) ((getLink s m).owed.get 0 (h.f.tc * 2 + h.f.vc) + 1) } else getLink s m))

/-- The 256 bytes of a flit say all of it (R342): whatever its fields, as wide as the header gives them, and its 240 data bytes, what is read back
from its bytes is that flit. -/
def Obligations.FlitRoundTrip : Prop :=
  ∀ f : Flit, f.tc < 4 → f.fkind < 4 → f.vc < 2 → f.seq < 4096 → f.ack < 4096 → f.dst < 4096 → f.src < 4096 → f.len < 256 → f.credit < 128 →
    f.ctc < 4 → f.proto < 16 → f.eseq < 4096 → f.hops < 128 → f.data.length = 240 →
    (flitBytes f).length = 256 ∧ readFlit (flitBytes f) = some f

/-- Every element-wise work order, reduction and simulation kernel that may start runs and waits to report with status OK; one that its checks refuse
waits to report with that status, without a result: a reserved rounding attribute RND_INVALID first, then formats and parameters (R241, R244, R245,
R255, R267, R268). Of the tensors only its outputs may change. -/
def Obligations.JoinerWorkRuns : Prop :=
  ∀ (i : Instr) (w : WoHdr) (s : State), readyWork s w 3 →
    (∀ op a, ewOrder i = some (op, w, a) →
      let st := if Rnd.ofCode w.rnd = none then 0x0B else ewStatus (getCtx s w.ctx) op a
      (st = 0 → ∃ t, exec i s = .next t ∧ ranWork w 3 1 0 (a.aux :: ewOuts op a) s t) ∧
      (st ≠ 0 → ∃ t, exec i s = .next t ∧ ranWork w 3 1 st [] s t)) ∧
    (∀ op a, rdOrder i = some (op, w, a) →
      let st := rdStatus (getCtx s w.ctx) op w a
      (Rnd.ofCode w.rnd = none → st = 0x0B) ∧
      (st = 0 → ∃ t, exec i s = .next t ∧ ranWork w 3 2 0 [a.out] s t) ∧
      (st ≠ 0 → ∃ t, exec i s = .next t ∧ ranWork w 3 2 st [] s t)) ∧
    (∀ a slice, i = (if slice then .sliceModeProduct w a else .joinerProduct w a) →
      (kernelStatus slice w a = 0 → ∃ t, exec i s = .next t ∧ ranWork w 3 6 0 [a.c] s t) ∧
      (kernelStatus slice w a ≠ 0 → ∃ t, exec i s = .next t ∧ ranWork w 3 6 (kernelStatus slice w a) [] s t))

/-- A work order that may not start changes nothing but what it waits for (R7, R395, R397): out of service or with its context's work dead it has
no effect; on a member without power it changes nothing either, but on a sleeping hall it asks for the wake; behind another in its queue it stays
there. Element-wise work, reductions and kernels that no check refuses, movements, peg operations, and tiles in their bay's queue. What an arrive
means for the attempt is looked at even so. -/
def Obligations.WorkWaits : Prop :=
  ∀ (i : Instr) (w : WoHdr) (unit : Nat) (s : State),
    ((unit = 3 ∧ ((∃ op a, ewOrder i = some (op, w, a) ∧ ewStatus (getCtx s w.ctx) op a = 0 ∧ (Rnd.ofCode w.rnd).isSome = true) ∨
        (∃ op a, rdOrder i = some (op, w, a) ∧ rdStatus (getCtx s w.ctx) op w a = 0) ∨
        (∃ a slice, i = (if slice then .sliceModeProduct w a else .joinerProduct w a) ∧ kernelStatus slice w a = 0) ∨
        (∃ a, i = .movement w a) ∨ (∃ a x, i = .mxImport w a x ∨ i = .mxExport w a x) ∨ (∃ op a, pegOrder i = some (op, w, a)))) ∨
      (∃ a, i = .matrixTile w a ∧ unit = (if isB2 w ∧ a.bay ≠ 0 then 3 else min a.bay 2) ∧
        tileStatus a.bay (isB2 w) (Desc.ofByte a.wFmt) (Desc.ofByte a.aFmt) (Desc.ofByte a.yFmt)
          (runLen a.run ((((getCtx s w.ctx).plan.bind (fun p => p.layer w.layer)).map (·.runlen)).getD 0)) a.int32 a.k = 0)) →
    (mayWork s w = false → exec i s = .next (thenWatch i s w.ctx)) ∧
    (mayWork s w = true → memberPowered s w = false → bit s.power.asleep w.hall = false → exec i s = .next (thenWatch i s w.ctx)) ∧
    (mayWork s w = true → memberPowered s w = false → bit s.power.asleep w.hall = true → ∃ t, exec i s = .next (thenWatch i t w.ctx) ∧
      t = { s with power := { s.power with waking := t.power.waking } } ∧ ∀ h, bit t.power.waking h = (bit s.power.waking h || h == w.hall)) ∧
    (mayWork s w = true → memberPowered s w = true → firstSent s w → queuedBehind s w unit = true → exec i s = .next (thenWatch i s w.ctx))

/-- What the exact element-wise operations compute on FP32 tensors (R154, R268, R269): element by element, any NaN made canonical, from START on and
for COUNT elements; an absent IN1 is P0. What the IEEE work orders compute (R241, R242, R269): each element of OUT is the operation's result on the
operands as the joiner reads them, under the work order's rounding attribute; the flags of the operation and of widening its operands are gathered
in the report. -/
def Obligations.ElementwiseWork : Prop :=
  (∀ (i : Instr) (op : Nat) (w : WoHdr) (a : EwArgs) (s : State), readyWork s w 3 → ewOrder i = some (op, w, a) → (Rnd.ofCode w.rnd).isSome = true →
    let c := getCtx s w.ctx
    let fp32 : Desc := ⟨.fp32, 3, false⟩
    let x (j : Nat) : Nat := canon32 (elemCode (c.open_ a.in0) (a.start + j))
    ewStatus c op a = 0 → a.outFmt = fp32.toByte → (c.open_ a.in0).d = fp32 → (c.open_ a.in0).ext = [] → 0 < (c.open_ a.out).rowLen →
    a.aux ≠ a.out →
    (∀ f, ewUnary a.p0 a.p1 i = some f → ∃ t, exec i s = .next t ∧
      ∀ j, j < a.count → elemCode ((getCtx t w.ctx).open_ a.out) (a.start + j) = canon32 (f (x j)) % 2 ^ 32) ∧
    (∀ f, ewBinary i = some f → ((a.in1 = noTid) ∨ ((c.open_ a.in1).d = fp32 ∧ (c.open_ a.in1).ext = [])) → ∃ t, exec i s = .next t ∧
      ∀ j, j < a.count → elemCode ((getCtx t w.ctx).open_ a.out) (a.start + j) =
        canon32 (f (x j) (if a.in1 = noTid then a.p0 else canon32 (elemCode (c.open_ a.in1) (a.start + j)))) % 2 ^ 32)) ∧
  (∀ (i : Instr) (op : Nat) (w : WoHdr) (a : EwArgs) (f : FFmt → Rnd → Nat → Nat → Nat → Res) (r : Rnd) (d : Desc) (s : State),
    readyWork s w 3 → ewOrder i = some (op, w, a) → ewIeee i = some f → Rnd.ofCode w.rnd = some r → Desc.ofByte a.outFmt = some d →
    let c := getCtx s w.ctx
    let ff : FFmt := if d.fmt = .fp64 then .fp64 else if d.fmt = .fp16 then .fp16 else .fp32
    let operand (tid p0 j : Nat) : Res := (ieeeInput ff c tid p0 a.start a.count).getD j (0, {})
    let x (j : Nat) : Res := operand a.in0 a.p0 j
    let y (j : Nat) : Res := if ieeeOperands i < 2 then x j else operand a.in1 a.p0 j
    let z (j : Nat) : Res := if ieeeOperands i < 3 then x j else operand a.in2 0 j
    let res (j : Nat) : Res := f ff r (x j).1 (y j).1 (z j).1
    ewStatus c op a = 0 → (d.fmt = .fp64 ∨ d.fmt = .fp16 ∨ d.fmt = .fp32) → 0 < (c.open_ a.out).rowLen →
    ∃ t q, exec i s = .next t ∧ (getCtx t w.ctx).done = c.done ++ [q] ∧
      (∀ j, j < a.count → elemCode ((getCtx t w.ctx).open_ a.out) (a.start + j) = (res j).1 % 2 ^ ff.width) ∧
      q.flags = (List.range a.count).foldl (fun g j => g.or ((((res j).2.or (x j).2).or (y j).2).or (z j).2)) ({} : IFlags))

/-- MATRIX_TILE (R51, R52, R62, R72, R109, R116, R127): a tile that passes its checks runs and reports OK, only its Y may change of the tensors, and
its gallery counts it in the registers of its bay; a refused one reports its status and sets the error bit of its bay and reason. JOINER_PRODUCT
(R244, R245): element (i, j) of C is the dot product of row i of A and column j of B by fused multiply-adds in the order of R244, under the work
order's rounding attribute. -/
def Obligations.MatrixWork : Prop :=
  (∀ (w : WoHdr) (a : MtArgs) (s : State), let c := getCtx s w.ctx
    let rl := ((c.plan.bind (fun p => p.layer w.layer)).map (·.runlen)).getD 0
    let status (int32 : Bool) (k : Nat) : Nat :=
      tileStatus a.bay (isB2 w) (Desc.ofByte a.wFmt) (Desc.ofByte a.aFmt) (Desc.ofByte a.yFmt) (runLen a.run rl) int32 k
    let st := status a.int32 a.k
    let unit := if isB2 w ∧ a.bay ≠ 0 then 3 else min a.bay 2
    let k := memberGal s w
    let counted (p : Page) (tiles macs : Nat) (t : State) : Prop := cntHold s p = false →
      regGet t p tiles = (regGet s p tiles + 1) % 2 ^ 32 ∧
      regGet t p macs = (regGet s p macs + a.m * a.n * a.k) % 2 ^ 32 ∧
      regGet t p (macs + 4) = (regGet s p macs + 2 ^ 32 * regGet s p (macs + 4) + a.m * a.n * a.k) / 2 ^ 32 % 2 ^ 32
    readyWork s w unit →
    (st = 0 → ∃ t, exec (.matrixTile w a) s = .next t ∧ ranWork w unit 0 0 [a.y] s t ∧
      (a.bay = 0 → counted (faPg k) Reg.FA_TILES Reg.FA_MACS_LO t) ∧
      (isB2 w = false → a.bay = 1 → counted (baPg k) Reg.BX_TILES Reg.BX_MACS_LO t) ∧
      (isB2 w = false → 2 ≤ a.bay → counted (baPg k) Reg.BW_TILES Reg.BW_MACS_LO t)) ∧
    (st ≠ 0 → ∃ t, exec (.matrixTile w a) s = .next t ∧ ranWork w unit 0 st [] s t ∧
      ((isB2 w = false ∨ a.bay = 0) →
        bit (regGet t (if a.bay = 0 then faPg k else baPg k) (errOff (if a.bay = 0 then faPg k else baPg k).kind))
          (refuseBit a.bay st (status false 0 == st)) = true))) ∧
  (∀ (w : WoHdr) (a : SkArgs) (r : Rnd) (s : State), readyWork s w 3 → kernelStatus false w a = 0 → Rnd.ofCode w.rnd = some r →
    let c := getCtx s w.ctx
    let f : FFmt := if a.prec = 0 then .fp64 else .fp32
    a.n0 + a.n ≤ (c.open_ a.c).rowLen →
    ∃ t, exec (.joinerProduct w a) s = .next t ∧ ∀ i j, i < a.m → j < a.n →
      ((getCtx t w.ctx).open_ a.c).codeAt (a.m0 + i) (a.n0 + j) =
        (joinerDot f r (nth (rowCodes (c.open_ a.a) (a.m0 + i) a.k)) (nth (colCodes (c.open_ a.b) (a.n0 + j) a.k)) a.k).1 % 2 ^ f.width)

/-- Movements (R45, R47, R98, R266, R363): between two tensors the bytes land at their place; with the transfer window an RDMA READ or WRITE leaves for the
window's place; without a window, or with one on a queue pair that is not connected, the movement and its pass end FAILED; an unknown MX element
code is refused, and so is an export whose stream cannot be formed. -/
def Obligations.MovementsRun : Prop :=
  ∀ (w : WoHdr) (a : MvArgs) (s : State), readyWork s w 3 →
    let c := getCtx s w.ctx
    let q := takeQueued s w 3
    (a.src ≠ noTid → a.dst ≠ noTid → ∃ t, exec (.movement w a) s = .next t ∧ ranWork w 3 3 0 [a.dst] s t ∧
      ∀ k, ((getCtx t w.ctx).open_ a.dst).codes.readByte k = if a.dstOff ≤ k ∧ k < a.dstOff + a.len
        then (c.open_ a.src).codes.readByte (a.srcOff + (k - a.dstOff)) else (c.open_ a.dst).codes.readByte k) ∧
    (∀ b, a.src = noTid → windowRef c a.srcOff a.len true = some b → qpUp s b.qp = true →
      exec (.movement w a) s = .next (startRead q.1 b (.moveIn q.2 a.dst a.dstOff)) ∧
      (∀ x, mxStatus x = 0 → exec (.mxImport w a x) s = .next (startRead q.1 b (.mxIn q.2 a x)))) ∧
    (∀ b, a.src ≠ noTid → a.dst = noTid → windowRef c a.dstOff a.len false = some b → qpUp s b.qp = true →
      exec (.movement w a) s = .next (startWrite q.1 b (tensorBytes (c.open_ a.src) a.srcOff a.len) (.moveOut q.2))) ∧
    (∀ b x, mxStatus x = 0 → (mxStream (c.open_ a.src) a x).1 = 0 → a.dst = noTid → qpUp s b.qp = true →
      windowRef c a.dstOff (mxStream (c.open_ a.src) a x).2.length false = some b →
      exec (.mxExport w a x) s = .next (startWrite q.1 b (mxStream (c.open_ a.src) a x).2 (.moveOut q.2))) ∧
    (a.src = noTid → (∀ b, windowRef c a.srcOff a.len true = some b → qpUp s b.qp = false) → c.attempt = none → simCtx s w.ctx = false →
      ∃ t, exec (.movement w a) s = .next t ∧ ranWork w 3 3 0x20 [] s t ∧
        (getCtx t w.ctx).evalRun = c.evalRun.map (fun e => { e with failed := true })) ∧
    (∀ x, mxStatus x ≠ 0 → (∃ t, exec (.mxImport w a x) s = .next t ∧ ranWork w 3 3 (mxStatus x) [] s t) ∧
      (∃ t, exec (.mxExport w a x) s = .next t ∧ ranWork w 3 3 (mxStatus x) [] s t)) ∧
    (∀ x, mxStatus x = 0 → a.src ≠ noTid → ∃ t, exec (.mxImport w a x) s = .next t ∧ ranWork w 3 3 0 [a.dst] s t) ∧
    (∀ x, mxStatus x = 0 → a.dst ≠ noTid → (mxStream (c.open_ a.src) a x).1 = 0 → ∃ t, exec (.mxExport w a x) s = .next t ∧ ranWork w 3 3 0 [a.dst] s t ∧
      ∀ k, k < (mxStream (c.open_ a.src) a x).2.length →
        ((getCtx t w.ctx).open_ a.dst).codes.readByte (a.dstOff + k) = (mxStream (c.open_ a.src) a x).2.getD k 0) ∧
    (∀ x, mxStatus x = 0 → (mxStream (c.open_ a.src) a x).1 ≠ 0 →
      ∃ t, exec (.mxExport w a x) s = .next t ∧ ranWork w 3 3 (mxStream (c.open_ a.src) a x).1 [] s t)

/-- The peg operations ARRIVE, WAIT, SET, RESET and QUERY (R379, R380, R382, R383): a work order whose member may run it operates on its peg, which
the tests of R382 pass or refuse in their order, the error bit of the first that fails set, and completes; a wait on a peg short of its target is held. One whose peg lies on another device
leaves as a message and awaits its answer; one to a lost device ends FAILED. -/
def Obligations.PegOperations : Prop :=
  ∀ (c : Instr) (op : PegOp) (w : WoHdr) (a : PegArgs) (s : State), pegOrder c = some (op, w, a) →
    mayWork s w = true → memberPowered s w = true → queuedBehind s w 3 = false → w.waitPeg = 0xFFFF →
    (∀ k, a.device = 0xFFFF → pegKeyOf (getCtx s w.ctx) a.peg = some k → pegStatus s k (ctxTag s w.ctx) = 0 →
      ∃ t, exec c s = .next (pegThen op t w.ctx) ∧
        pegEffect s t k op a.value { ctx := w.ctx, op := true, w := (takeQueued s w 3).2 } ∧
        (op ≠ .wait ∨ (getPeg s k).target ≤ (getPeg s k).count →
          (getCtx t w.ctx).done.getLast? = some { w := (takeQueued s w 3).2, kind := 4, always := op == .query, c0 := if op = .query then (getPeg s k).count else 0, c1 := if op = .query then (getPeg s k).target else 0 })) ∧
    (∀ k, a.device = 0xFFFF → pegKeyOf (getCtx s w.ctx) a.peg = some k → pegStatus s k (ctxTag s w.ctx) ≠ 0 →
      ∃ t d, exec c s = .next (pegThen op t w.ctx) ∧ t.pegs = s.pegs ∧ (getCtx t w.ctx).done.getLast? = some d ∧
        d.w = (takeQueued s w 3).2 ∧ d.kind = 4 ∧ d.status = pegStatus s k (ctxTag s w.ctx) ∧
        bit (regGet t (pegPg k) (errOff (pegPg k).kind)) (if d.status = 0x21 then 2 else if d.status = 0x1A then 3 else 0) = true) ∧
    (a.device ≠ 0xFFFF → a.device ∉ s.lostDevs →
      ∃ t u, exec c s = .next (pegThen op t w.ctx) ∧ t.pegs = s.pegs ∧ t.nextRef = s.nextRef + 1 ∧
        (∃ d, t.pegRefs.find s.nextRef = some d ∧ d.w = (takeQueued s w 3).2 ∧ d.kind = 4) ∧
        t = sendRouted u a.device 0 1 0 (.pegOp { src := deviceId s, ref := s.nextRef, ctx := w.ctx, peg := a.peg, op := op.code, value := a.value, tag := ctxTag s w.ctx })) ∧
    (a.device ≠ 0xFFFF → a.device ∈ s.lostDevs →
      ∃ t d, exec c s = .next (pegThen op t w.ctx) ∧ t.pegs = s.pegs ∧ (getCtx t w.ctx).done.getLast? = some d ∧ d.status = 0x20)

/-- The messages of peg operations (R383, R217). REMOTE_PEG_OP: one from a device that has no business with the context is refused OWNER_MISMATCH,
another is applied to the peg of the same number and acknowledged. PEG_ACK completes its sender's work order, but for a wait that was accepted; the
answer to a closing query joins the decision's answers. WAIT_RELEASE ends a remote wait. -/
def Obligations.RemotePegOperations : Prop :=
  (∀ (m : PegMsg) (s : State), (getCtx s m.ctx).attempt = none → noShadows s → mayOperate s m.ctx m.src = false →
    exec (.remotePegOp m) s = .next (sendRouted s m.src 0 1 0 (.pegAck m.ref 0x19 0 0))) ∧
  (∀ (m : PegMsg) (op : PegOp) (k : Nat) (s : State), (getCtx s m.ctx).attempt = none → noShadows s → mayOperate s m.ctx m.src = true →
    pegKeyOf (getCtx s m.ctx) m.peg = some k → PegOp.ofCode m.op = some op →
    m.cause ≠ cNoJournal →
    (pegStatus s k m.tag = 0 → ∃ t u, exec (.remotePegOp m) s = .next t ∧
      pegEffect s t k op m.value { ctx := m.ctx, device := some m.src, ref := m.ref } ∧
      t = sendRouted u m.src 0 1 0 (.pegAck m.ref 0 (if op = .query then (getPeg s k).count else 0) (if op = .query then (getPeg s k).target else 0))) ∧
    (pegStatus s k m.tag ≠ 0 → ∃ t u x y, exec (.remotePegOp m) s = .next t ∧ t.pegs = s.pegs ∧
      t = sendRouted u m.src 0 1 0 (.pegAck m.ref (pegStatus s k m.tag) x y))) ∧
  (∀ (ref status count target : Nat) (d : WoDone) (s : State), s.pegRefs.find ref = some d → d.kind ≠ 14 →
    (d.c2 = 1 ∧ status = 0 → exec (.pegAck ref status count target) s = .next s) ∧
    (d.c2 ≠ 1 ∨ status ≠ 0 → ∃ t, exec (.pegAck ref status count target) s = .next t ∧ t.pegRefs.find ref = none ∧
      (getCtx t d.w.ctx).done = (getCtx s d.w.ctx).done ++ [{ d with status := status, c0 := count, c1 := target, c2 := 0 }])) ∧
  (∀ (ref status count target : Nat) (d : WoDone) (a : Attempt) (s : State), s.pegRefs.find ref = some d → d.kind = 14 → noShadows s →
    (getCtx s d.w.ctx).attempt = some a → (∃ r, r ∈ a.asked ∧ r ≠ ref) →
    ∃ t, exec (.pegAck ref status count target) s = .next t ∧ t.pegRefs.find ref = none ∧ t.pegs = s.pegs ∧
      (getCtx t d.w.ctx).attempt = some { a with asked := a.asked.erase ref, answers := if status = 0 then a.answers ++ [(count, target)] else a.answers }) ∧
  (∀ (ref status : Nat) (d : WoDone) (s : State), s.pegRefs.find ref = some d →
    ∃ t, exec (.waitRelease ref status) s = .next t ∧ t.pegRefs.find ref = none ∧ t.pegs = s.pegs ∧
      (getCtx t d.w.ctx).done = (getCtx s d.w.ctx).done ++ [{ d with status := status, c1 := 0, c2 := 0 }])

/-- Reports and evaluation passes (R222, R223, R267, R379, R380). WORK_ORDER_COMPLETE: the oldest finished work order of a context reports: its flags
join the context's, its DONEPEG gets one arrive, a completion record follows where R267 asks for one. EVALUATION_PASS puts the evaluation templates of its
layers into their frames' queues for the pass that EVAL began;
LOSS gives such a pass its loss; EVAL_PASS_END writes its report and ends it. -/
def Obligations.ReportsAndPasses : Prop :=
  (∀ (ctx : Nat) (d : WoDone) (rest : List WoDone) (s : State), (getCtx s ctx).done = d :: rest → d.w.ctx = ctx → d.w.donePeg = 0xFFFF →
    ∃ t, exec (.workOrderComplete ctx) s = .next t ∧ (getCtx t ctx).done = rest ∧ t.pegs = s.pegs ∧
      (getCtx t ctx).flags = (getCtx s ctx).flags.or d.flags ∧
      (wantsRecord d = true → ∃ r, lastRec t 1 ctx = some r ∧ r.body = completionBody s d) ∧
      (wantsRecord d = false → t.host = s.host)) ∧
  (∀ (ctx k : Nat) (d : WoDone) (rest : List WoDone) (s : State), (getCtx s ctx).done = d :: rest → d.w.ctx = ctx → d.w.donePeg ≠ 0xFFFF →
    pegKeyOf (getCtx s ctx) d.w.donePeg = some k → pegStatus (bayEvent s d) k (ctxTag (bayEvent s d) ctx) = 0 →
    ∃ t, exec (.workOrderComplete ctx) s = .next t ∧ pegEffect s t k .arrive 1 { ctx := ctx }) ∧
  (∀ (w : WoHdr) (a : EvArgs) (p : Plan) (e : EvalRun) (s : State), mayWork s w = true → (getCtx s w.ctx).plan = some p →
    (getCtx s w.ctx).evalRun = some e → (getCtx s w.ctx).attempt = none → e.wo = none → queuedBehind s w 3 = false → w.waitPeg = 0xFFFF →
    ∃ t, exec (.evaluationPass w a) s = .next t ∧ t.queues = (takeQueued s w 3).1.queues ∧
      (getCtx t w.ctx).evalRun = some { e with lfirst := a.lfirst, llast := a.llast, report := a.report, wo := some (takeQueued s w 3).2 } ∧
      (getCtx t w.ctx).frameQueues = (evalTemplates p a.lfirst a.llast).foldl (fun q i =>
        let f := tFrame (p.templates.getD i ⟨[]⟩)
        q.put [] f (q.get [] f ++ [i])) (getCtx s w.ctx).frameQueues) ∧
  (∀ (ctx half pos tid : Nat) (e : EvalRun) (s : State), (getCtx s ctx).attempt = none → (getCtx s ctx).evalRun = some e →
    ∃ t, exec (.loss ctx half pos tid) s = .next t ∧
      (getCtx t ctx).evalRun = some { e with loss := ((getCtx s ctx).open_ tid).codeAt 0 0 % 2 ^ 32 }) ∧
  (∀ (ctx : Nat) (p : Plan) (e : EvalRun) (s : State), (getCtx s ctx).plan = some p → (getCtx s ctx).evalRun = some e → p.layers.length ≤ 4096 →
    (e.failed = true ∨ ((getCtx s ctx).done = [] ∧ (getCtx s ctx).dups = [])) →
    ∃ u r, exec (.evalPassEnd ctx) s = .next (stepBoundary u ctx) ∧ (getCtx u ctx).evalRun = none ∧ lastRec u 5 ctx = some r ∧
      r.body = evalReport p e)

/-- The judgements of a step (R91, R96, R215, R219, R230-R235). LAYER_END: NaN skips the step, a clean layer starts the next, a layer over a threshold
is repeated one tread up where its ceiling and the budget allow. SURVEY sets the exponents from pass 1. LOSS starts the backward, a NaN or infinite
one skips the step. BACKWARD_LAYER_END goes on below, or skips the step. VERIFY makes a clean share ready. -/
def Obligations.LayersJudged : Prop :=
  (∀ (ctx layer half pos : Nat) (p : Plan) (l : LayerRec) (a : Attempt) (s : State), liveLayer (getCtx s ctx) layer = some (p, l) →
    (getCtx s ctx).attempt = some a → l.kind ≠ 2 → layerRuns (getCtx s ctx) layer half pos = true →
    reported (getCtx s ctx) (layerKey layer half pos) false = true → surveyDue (getCtx s ctx) p l (layerKey layer half pos) [0] = [] →
    let k := layerKey layer half pos
    let t := a.tally.get .zero k
    let old := treadOf (getCtx s ctx) p layer half pos
    let af8 := (match p.fmtOf l.x with
      | some d => d.fmt == .af8
      | none => false)
    (t.nan ≠ 0 → exec (.layerEnd ctx layer half pos) s = .next (stairSkip (requestRaise (noteBadcode s l t) ctx (outGauges p l)) ctx)) ∧
    (t.nan = 0 → ovfOver s l t = false → satOver s l t = false → exec (.layerEnd ctx layer half pos) s =
      .next (startLayer (modCtx (noteBadcode s l t) ctx (fun c => dropInterior c layer l)) ctx (layer + 1) half pos)) ∧
    (t.nan = 0 → (ovfOver s l t = true ∨ satOver s l t = true) → (l.fceil ≤ old ∨ nextTread af8 old = none) →
      ∃ u, exec (.layerEnd ctx layer half pos) s = .next (stairSkip u ctx) ∧ bit (regGet u pgStair (errOff pgStair.kind)) 1 = true) ∧
    (t.nan = 0 → (ovfOver s l t = true ∨ satOver s l t = true) → old < l.fceil → ∀ next, nextTread af8 old = some next →
      (a.limits.budget ≤ a.used.get 0 pos →
        ∃ u, exec (.layerEnd ctx layer half pos) s = .next (stairSkip u ctx) ∧ bit (regGet u pgStair (errOff pgStair.kind)) 0 = true) ∧
      (a.used.get 0 pos < a.limits.budget → ∃ u b, exec (.layerEnd ctx layer half pos) s = .next u ∧ (getCtx u ctx).attempt = some b ∧
        b.used.find pos = some (a.used.get 0 pos + 1) ∧ b.treads.find k = some next ∧ b.tally.get .zero k = .zero ∧
        b.prior.get .zero k = (a.prior.get .zero k).add t))) ∧
  (∀ (ctx layer half pos : Nat) (p : Plan) (l : LayerRec) (a : Attempt) (s : State), liveLayer (getCtx s ctx) layer = some (p, l) →
    (getCtx s ctx).attempt = some a → a.back.get 0 (pos * 2 + half) ≠ layer + 1 → layerRuns (getCtx s ctx) layer half pos = true →
    reported (getCtx s ctx) (layerKey layer half pos) false = true → surveyDue (getCtx s ctx) p l (layerKey layer half pos) [0, 1] ≠ [] →
    (a.tally.get .zero (layerKey layer half pos)).nan = 0 →
    ∃ t b, exec (.survey ctx layer half pos) s = .next t ∧ (getCtx t ctx).attempt = some b ∧ b.surveyed = true ∧
      b.tally.get .zero (layerKey layer half pos) = .zero ∧
      ∀ x, x ∈ surveyDue (getCtx s ctx) p l (layerKey layer half pos) [0, 1] → ((getCtx t ctx).gauges.get {} x.1).survey = false ∧
        (((surveyDue (getCtx s ctx) p l (layerKey layer half pos) [0, 1]).map (·.1)).Nodup → ((getCtx t ctx).gauges.get {} x.1).gexp =
          fitCode ((getCtx s ctx).gauges.get {} x.1).pend (fmaxOf ((getCtx s ctx).open_ x.2).d) + (((getCtx s ctx).gauges.get {} x.1).margin : Int) - 2)) ∧
  (∀ (ctx half pos tid : Nat) (p : Plan) (l : LayerRec) (a : Attempt) (s : State), (getCtx s ctx).plan = some p →
    (getCtx s ctx).attempt = some a → p.layer (p.layers.length - 1) = some l → workLive (getCtx s ctx) = true → l.kind = 2 →
    (∀ x, x ∈ a.losses → x.1 ≠ pos * 2 + half) → layerRuns (getCtx s ctx) (p.layers.length - 1) half pos = true →
    reported (getCtx s ctx) (layerKey (p.layers.length - 1) half pos) false = true →
    surveyDue (getCtx s ctx) p l (layerKey (p.layers.length - 1) half pos) [1] = [] →
    let code := ((getCtx s ctx).open_ tid).codeAt 0 0 % 2 ^ 32
    ((fp32V code).nonFinite = true → ∃ u b, exec (.loss ctx half pos tid) s = .next (endAttempt u ctx cNanLoss) ∧
      (getCtx u ctx).attempt = some b ∧ b.losses = a.losses ++ [(pos * 2 + half, code)] ∧ b.lower = a.lower.or (some 2)) ∧
    ((fp32V code).nonFinite = false → ∃ t b, exec (.loss ctx half pos tid) s = .next t ∧ (getCtx t ctx).attempt = some b ∧
      b.losses = a.losses ++ [(pos * 2 + half, code)] ∧ (b.back.find (pos * 2 + half)).isSome = true)) ∧
  (∀ (ctx layer half pos : Nat) (p : Plan) (l : LayerRec) (a : Attempt) (s : State), liveLayer (getCtx s ctx) layer = some (p, l) →
    (getCtx s ctx).attempt = some a → a.back.get 0 (pos * 2 + half) = layer + 1 →
    reported (getCtx s ctx) (layerKey layer half pos) true = true → surveyDue (getCtx s ctx) p l (layerKey layer half pos) [2] = [] →
    let t := a.btally.get .zero (layerKey layer half pos)
    (t.nan ≠ 0 → ∃ u b, exec (.backwardLayerEnd ctx layer half pos) s = .next (endAttempt u ctx cNanGrad) ∧
      (getCtx u ctx).attempt = some b ∧ b.lower = a.lower.or (some 2)) ∧
    (t.nan = 0 → (ovfOver s l t = true ∨ satOver s l t = true) → ∃ u b,
      exec (.backwardLayerEnd ctx layer half pos) s = .next (endAttempt u ctx cStair) ∧ (getCtx u ctx).attempt = some b ∧
      b.braises = a.braises ++ [layerKey layer half pos] ∧
      b.bover = if ovfOver s l t then a.bover ++ [layerKey layer half pos] else a.bover) ∧
    (t.nan = 0 → ovfOver s l t = false → satOver s l t = false → exec (.backwardLayerEnd ctx layer half pos) s =
      .next (nextBackward (layerConsumed (noteBadcode s l t) ctx p layer l half pos) ctx layer half pos))) ∧
  (∀ (ctx : Nat) (p : Plan) (a : Attempt) (s : State), (getCtx s ctx).plan = some p → (getCtx s ctx).attempt = some a →
    workLive (getCtx s ctx) = true → a.ready = false → a.causes = [] → backwardEnded s (getCtx s ctx) p a = true → (getCtx s ctx).done = [] →
    (getCtx s ctx).dups = [] → (∀ e, e ∈ a.buckets → e.2.final = true) →
    (updateOver s p a = true → ∃ u, exec (.verify ctx) s = .next (endAttempt u ctx cOvfExch)) ∧
    (updateOver s p a = false → slicesWritten (getCtx s ctx) p a = false →
      exec (.verify ctx) s = .next (modAttempt s ctx (fun b => { b with phase := 5 }))) ∧
    (updateOver s p a = false → slicesWritten (getCtx s ctx) p a = true → ∃ u b, exec (.verify ctx) s = .next (progress u ctx) ∧
      (getCtx u ctx).attempt = some b ∧ b.ready = true ∧ b.phase = 6 ∧ b.summarySent = (a.summarySent || (a.twinParty && s.twin.twin.isSome))))

/-- The activation stack and the slices of a step (R120, R133, R137, R145-R149, R160-R162, R211-R213). STACK_POP moves a hall's newest frame of a
half whose backward runs to those popped. RECOMPUTE_RERUN leaves no report of its own, and asks for the power it lacks. SLICE_COMPLETE makes a slice
final or leaves it for its bucket. SLICE_ACCEPT queues at the hall's port; a ready engine takes the slice: it writes the journal entry before the
slice, refuses a NaN, consumes a frozen layer's. JOURNAL_ACK writes the slice; JWRITE ends the attempt and retires the row; MIRROR_QUEUE_READY counts
a stall and sends the record that waited; JOURNAL_ROLLBACK restores a slice or reports that none can. -/
def Obligations.StackAndSlices : Prop :=
  (∀ (ctx hall : Nat) (s : State),
    let st := (getCtx s ctx).stack
    let newest := st.frames.find? (fun g => g.hall == hall % 8 && g.kind != 2 && backRuns (getCtx s ctx) g.half g.pos)
    (∀ f, (st.popped.filter (fun g => g.hall == hall % 8)).length < max 1 (fld s (pgStack (hall % 8)) Reg.SK_CTRL 3 1) → newest = some f →
      exec (.stackPop ctx hall) s = .next (putCtx s ctx { getCtx s ctx with
        stack := { st with frames := st.frames.filter (fun g => !f.same g), popped := st.popped ++ [f] } })) ∧
    (max 1 (fld s (pgStack (hall % 8)) Reg.SK_CTRL 3 1) ≤ (st.popped.filter (fun g => g.hall == hall % 8)).length ∨ newest = none →
      exec (.stackPop ctx hall) s = .next s)) ∧
  (∀ (ctx layer half pos b : Nat) (p : Plan) (l : LayerRec) (a : Attempt) (fr : StackFrame) (s : State),
    liveLayer (getCtx s ctx) layer = some (p, l) → (getCtx s ctx).attempt = some a → a.back.get 0 (pos * 2 + half) = layer + 1 →
    (getCtx s ctx).stack.scratch = [] → blockStart p layer = some b →
    ((getCtx s ctx).stack.frames ++ (getCtx s ctx).stack.popped).find? (fun f => f.layer == b && f.kind == 1 && f.half == half && f.pos == pos) = some fr →
    (rerunUnpowered s ctx p b layer half pos = [] → ∃ v nans, exec (.recomputeRerun ctx layer half pos) s =
        .next (recheck (scratchBlock v ctx p b layer half pos) ctx p half pos ((getCtx s ctx).stack.frames ++ (getCtx s ctx).stack.popped) nans) ∧
      (getCtx v ctx).done = (getCtx s ctx).done ∧ (getCtx v ctx).parts = (getCtx s ctx).parts ∧ (getCtx v ctx).stack.rerun = false) ∧
    (rerunUnpowered s ctx p b layer half pos ≠ [] → exec (.recomputeRerun ctx layer half pos) s =
      .next ((rerunUnpowered s ctx p b layer half pos).foldl askPower s))) ∧
  (∀ (ctx layer ord pos : Nat) (p : Plan) (l : LayerRec) (t : TensorRec) (a : Attempt) (vs : List Acc32) (s : State),
    (getCtx s ctx).attempt = some a → (getCtx s ctx).plan = some p → p.layer layer = some l → p.paramOf l = some t → a.outcome = none →
    ord < sliceCountOf t → sliceValues a t pos ord (segmentsOf (shareTokens s (getCtx s ctx) p pos)) = some vs →
    (l.exch = true → p.groups ≠ [] → a.own.find (ownKey pos t.tid ord) = none →
      ∃ u b, exec (.sliceComplete ctx layer ord pos) s = .next u ∧ (getCtx u ctx).attempt = some b ∧
        b.own.find (ownKey pos t.tid ord) = some (vs.map (·.code)) ∧ b.slices = a.slices) ∧
    ((l.exch = false ∨ p.groups = []) → a.slices.find (sliceKey t.tid ord) = none →
      ∃ u b, exec (.sliceComplete ctx layer ord pos) s = .next u ∧ (getCtx u ctx).attempt = some b ∧
        b.slices.find (sliceKey t.tid ord) = some { layer := layer, stage := 1, vals := vs.map (·.code) } ∧ b.own = a.own)) ∧
  (∀ (ctx tid ord : Nat) (p : Plan) (l : LayerRec) (t : TensorRec) (a : Attempt) (x : Slice) (s : State),
    (getCtx s ctx).plan = some p → (getCtx s ctx).attempt = some a → a.slices.find (sliceKey tid ord) = some x → p.record tid = some t →
    p.layer x.layer = some l → x.stage = 1 → a.outcome ≠ some 0 → ord < 2 ^ 24 →
    let hall := sliceHall (getCtx s ctx) t ord
    let old := oldState (getCtx s ctx) p t ord
    (∀ e rest, s.update.ports.get [] hall = e :: rest → engineReady s hall e = false → (ctx, sliceKey tid ord) ∉ e :: rest →
      exec (.sliceAccept ctx tid ord) s = .next { s with update := { s.update with
        ports := s.update.ports.put [] hall (e :: rest ++ [(ctx, sliceKey tid ord)]) } }) ∧
    (s.update.ports.get [] hall = [] → engineReady s hall (ctx, sliceKey tid ord) = true → t.tid = tid → (getCtx s ctx).closing = [] →
      (l.frozen = true ∨ a.discard = true ∨ a.outcome.isSome = true ∨ optOfLayer (getCtx s ctx) p l = none →
        ∃ u b, exec (.sliceAccept ctx tid ord) s = .next u ∧ (getCtx u ctx).attempt = some b ∧
          b.slices.find (sliceKey tid ord) = some { x with stage := 4 }) ∧
      (∀ o, l.frozen = false → a.discard = false → a.outcome = none → optOfLayer (getCtx s ctx) p l = some o →
        let k := sliceCalc o.1 o.2 (getCtx s ctx).lossExp old x.vals
        (k.bad = true → ∃ u b, exec (.sliceAccept ctx tid ord) s = .next (endAttempt u ctx cNanGrad) ∧ (getCtx u ctx).attempt = some b ∧
          b.slices.find (sliceKey tid ord) = some { x with stage := 4 } ∧ b.discard = true ∧ b.lower = a.lower.or (some 2)) ∧
        (k.bad = false → (getCtx s ctx).journal = true → ∃ u b, exec (.sliceAccept ctx tid ord) s = .next u ∧ (getCtx u ctx).attempt = some b ∧
          b.slices.find (sliceKey tid ord) = some { x with stage := 2, grad := k.grad, news := k.news } ∧
          (getCtx u ctx).jslots.find (sliceKey tid ord) = some (newSlot a.step old) ∧ (getCtx u ctx).tensors = (getCtx s ctx).tensors) ∧
        (k.bad = false → (getCtx s ctx).journal = false → ∃ u b, exec (.sliceAccept ctx tid ord) s = .next u ∧
          (getCtx u ctx).attempt = some b ∧ b.slices.find (sliceKey tid ord) = some { x with stage := 3, grad := k.grad, news := k.news })))) ∧
  (∀ (ctx tid ord : Nat) (p : Plan) (t : TensorRec) (a : Attempt) (x : Slice) (j : JSlot) (s : State), (getCtx s ctx).plan = some p →
    (getCtx s ctx).attempt = some a → p.record tid = some t → t.tid = tid → a.slices.find (sliceKey tid ord) = some x →
    (getCtx s ctx).jslots.find (sliceKey tid ord) = some j → x.stage = 2 → j.valid = false → a.discard = false → a.outcome = none →
    s.update.ports.get [] (sliceHall (getCtx s ctx) t ord) = [] →
    (∃ u b, exec (.journalAck ctx tid ord) s = .next u ∧ (getCtx u ctx).attempt = some b ∧
      b.slices.find (sliceKey tid ord) = some { x with stage := 3 } ∧
      (getCtx u ctx).jslots.find (sliceKey tid ord) = some { j with valid := true }) ∧
    (∃ u b, exec (.jwrite ctx tid ord) s = .next (endAttempt u ctx cJwrite) ∧ (getCtx u ctx).attempt = some b ∧
      b.slices.find (sliceKey tid ord) = some { x with stage := 4 } ∧ b.discard = true ∧ (getCtx u ctx).jslots.find (sliceKey tid ord) = none ∧
      Config.rowOf (Config.journalAddr ctx (sliceKey tid ord)) ∈ (getMc u (sliceHall (getCtx s ctx) t ord)).retired)) ∧
  (∀ (cycles : Nat) (s : State),
    (s.update.full = false → exec (.mirrorQueueReady cycles) s = .next s) ∧
    (∀ h m d, s.update.full = true → s.update.ports = [] → s.update.waiting = [(h, m)] → s.twin.twin = some d →
      cntHold s (pgUpdate h) = false → ∃ u, exec (.mirrorQueueReady cycles) s = .next u ∧ u.update.waiting = [] ∧ u.ctxs = s.ctxs ∧
        fld u (pgUpdate h) Reg.UE_MSTALL 31 0 = min (fld s (pgUpdate h) Reg.UE_MSTALL 31 0 + cycles) (2 ^ 32 - 1))) ∧
  (∀ (ctx tid ord : Nat) (lineOk : Bool) (p : Plan) (t : TensorRec) (j : JSlot) (s : State), (getCtx s ctx).plan = some p → p.record tid = some t →
    (getCtx s ctx).jslots.find (sliceKey tid ord) = some j → sliceKey tid ord ∈ (getCtx s ctx).rollback →
    let c1 : Ctx := { getCtx s ctx with rollback := (getCtx s ctx).rollback.erase (sliceKey tid ord), jslots := (getCtx s ctx).jslots.erase (sliceKey tid ord) }
    ((lineOk = true ∧ j.good = true) ∨ twinActive s = true → exec (.journalRollback ctx tid ord lineOk) s =
      .next (drainHalls (runQueues (putCtx s ctx (restoreSlice c1 p t ord j.data)) ctx))) ∧
    ((lineOk = false ∨ j.good = false) → twinActive s = false → exec (.journalRollback ctx tid ord lineOk) s =
      .next (drainHalls (runQueues (notRestored (putCtx s ctx c1) ctx tid ord) ctx))))

/-- R190: the residue of a block is the weighted sum of its mantissas mod 255, from 0 to 254; 0xFF marks a poisoned block; the residue of a sum of blocks
is the sum of their residues mod 255, where no element is the mark of a poisoned block; a fault in one element changes it unless the error is a multiple of 255. -/
def Obligations.BlockResidues : Prop :=
  (∀ (g : GroupRec) (a : List Int), poisoned g a = false → residueOf g a < 255 ∧
    (255 : Int) ∣ (residueOf g a : Int) - ((a.zipIdx).map (fun x => ((2 ^ (x.2 % 8) : Nat) : Int) * x.1)).sum) ∧
  (∀ (g : GroupRec) (a : List Int), poisoned g a = true → residueOf g a = 0xFF) ∧
  (∀ (g : GroupRec) (a b : List Int), a.length = b.length → poisonVal g ∉ a → poisonVal g ∉ b → poisoned g (addBlocks g a b) = false →
    residueOf g (addBlocks g a b) = (residueOf g a + residueOf g b) % 255 ∧ addResidues (residueOf g a) (residueOf g b) = residueOf g (addBlocks g a b)) ∧
  (∀ (g : GroupRec) (a : List Int) (j : Nat) (x e : Int), a[j]? = some x → ¬ (255 : Int) ∣ e → poisoned g a = false →
    residueOf g (a.set j (x + e)) ≠ residueOf g a)

/-- The buckets of the exchange (R183-R187, R94, R198-R203). BUCKET_OPEN takes the contributions of a complete bucket and selects its blocks;
BUCKET_COMPLETE delivers its slices as final, skips the step on poison, reduces it again at a higher exponent on the first breach where one up to 127 serves, ends the attempt on a result that fails its residue;
BUCKET_DEADLINE ends the attempt. -/
def Obligations.ExchangeBuckets : Prop :=
  (∀ (ctx gi ord pos i b : Nat) (p : Plan) (g : GroupRec) (t : TensorRec) (a : Attempt) (s : State), (getCtx s ctx).attempt = some a →
    (getCtx s ctx).plan = some p → p.groups[gi]? = some g → (bucketList p gi)[ord]? = some (i, t, b) →
    (∀ j, j < min g.slices (sliceCountOf t - b * g.slices) → (a.own.find (ownKey pos t.tid (b * g.slices + j))).isSome = true) →
    (ord = 0 ∨ (a.buckets.find (bucketKey gi (ord - 1) pos)).isSome = true) →
    (ord < 256 ∨ ∃ x, a.buckets.find (bucketKey gi (ord - 256) pos) = some x ∧ x.final = true) → a.outcome = none →
    a.buckets.find (bucketKey gi ord pos) = none → pos ∈ positionsHere s (getCtx s ctx) p →
    ∃ u x, exec (.bucketOpen ctx gi ord pos) s = .next (runEarly earlyFuel u) ∧ getBucket u ctx (bucketKey gi ord pos) = some x ∧
      x.tid = t.tid ∧ x.layer = i ∧ x.first = b * g.slices ∧ x.count = min g.slices (sliceCountOf t - b * g.slices) ∧ x.final = false ∧
      x.vals = contributions (getCtx s ctx) a g t pos x.first x.count (residualKey s (getCtx s ctx) p t.tid pos) ∧ x.sel = selectBlocks g x.vals) ∧
  (∀ (ctx gi ord pos : Nat) (g : GroupRec) (t : TensorRec) (a : Attempt) (x : Bucket) (s : State), (getCtx s ctx).attempt = some a →
    bucketGroup (getCtx s ctx) (bucketKey gi ord pos) = some g → getBucket s ctx (bucketKey gi ord pos) = some x →
    (getCtx s ctx).plan.bind (fun p => p.record x.tid) = some t → x.final = false →
    (x.fault ≠ 0 → ∃ u y, exec (.bucketComplete ctx gi ord pos) s = .next (runEarly earlyFuel u) ∧
      getBucket u ctx (bucketKey gi ord pos) = some y ∧ y.final = true) ∧
    (x.fault = 0 → x.stage = 5 →
      (x.chunks.any (fun e => e.2.poison) = true → ∃ u y, exec (.bucketComplete ctx gi ord pos) s = .next (runEarly earlyFuel (endAttempt u ctx cNanGrad)) ∧
        getBucket u ctx (bucketKey gi ord pos) = some y ∧ y.final = true) ∧
      (x.chunks.any (fun e => e.2.poison) = false → x.chunks.any (fun e => e.2.breach) = true → x.attempt = 0 →
        x.a + ((x.chunks.map (fun e => e.2.bump)).foldl max 0 : Nat) ≤ 127 →
        ∃ u y, exec (.bucketComplete ctx gi ord pos) s = .next (runEarly earlyFuel u) ∧ getBucket u ctx (bucketKey gi ord pos) = some y ∧
          y.attempt = 1 ∧ y.a = x.a + ((x.chunks.map (fun e => e.2.bump)).foldl max 0 : Nat) ∧ y.final = false) ∧
      (x.chunks.any (fun e => e.2.poison) = false → x.chunks.any (fun e => e.2.breach) = true → x.attempt = 0 →
        127 < x.a + ((x.chunks.map (fun e => e.2.bump)).foldl max 0 : Nat) →
        ∃ u, exec (.bucketComplete ctx gi ord pos) s = .next (runEarly earlyFuel (endAttempt u ctx cOvfExch))) ∧
      (x.chunks.any (fun e => e.2.poison) = false → x.chunks.any (fun e => e.2.breach) = true → x.attempt ≠ 0 →
        ∃ u, exec (.bucketComplete ctx gi ord pos) s = .next (runEarly earlyFuel (endAttempt u ctx cResidue))) ∧
      (x.chunks.any (fun e => e.2.poison) = false → x.chunks.any (fun e => e.2.breach) = false →
        resChk s (min g.hub 1) = true → finalOk g x = false → exec (.bucketComplete ctx gi ord pos) s =
          .next (residueFault s ctx (bucketKey gi ord pos) g (min g.hub 1) (deviceId s) (hopsGather g (ringSize g - 1)))) ∧
      (x.chunks.any (fun e => e.2.poison) = false → x.chunks.any (fun e => e.2.breach) = false →
        (resChk s (min g.hub 1) = false ∨ finalOk g x = true) → (delivered x).2 ≠ 0 →
        ∃ u, exec (.bucketComplete ctx gi ord pos) s = .next (runEarly earlyFuel (endAttempt u ctx cOvfExch))) ∧
      (x.chunks.any (fun e => e.2.poison) = false → x.chunks.any (fun e => e.2.breach) = false →
        (resChk s (min g.hub 1) = false ∨ finalOk g x = true) → (delivered x).2 = 0 → a.noMore = false →
        ∃ u b y, exec (.bucketComplete ctx gi ord pos) s = .next (runEarly earlyFuel u) ∧ (getCtx u ctx).attempt = some b ∧
          getBucket u ctx (bucketKey gi ord pos) = some y ∧ y.final = true ∧
          ∀ j, j < x.count → (b.slices.find (sliceKey t.tid (x.first + j))).isSome = true))) ∧
  (∀ (ctx gi ord pos : Nat) (g : GroupRec) (x : Bucket) (s : State), bucketGroup (getCtx s ctx) (bucketKey gi ord pos) = some g →
    getBucket s ctx (bucketKey gi ord pos) = some x → x.final = false → x.stage ≠ 5 → x.fault = 0 →
    ∃ u, exec (.bucketDeadline ctx gi ord pos) s = .next (endAttempt u ctx cDeadline) ∧
      getBucket u ctx (bucketKey gi ord pos) = some { x with fault := cDeadline })

/-- The packets of the exchange (R94, R184, R192-R195). With no packet held back one that fits no bucket yet is held, one that fits none is discarded
with EX_ERR.SEQ, one that fits is used: a REDUCE packet is added to the own part and sent on or kept at the last hop, a GATHER packet kept and sent on,
TREE_UP added to the own chunk, TREE_DOWN kept as final; an AGREE packet raises the exponent or settles it. A block that fails its residue ends it. -/
def Obligations.ExchangePackets : Prop :=
  ∀ (c : Instr) (p : ExPkt) (s : State), exchangePacket c = some p → s.early = [] → noShadows s →
    (planPkt s p = .hold → exec c s = .next { s with early := [p] }) ∧
    (∀ n key g, planPkt s p = .drop n key (some g) → ∃ t, exec c s = .next t ∧ bit (regGet t (pgExchange (hubTo s g key p.src)) (errOff 0x18)) 0 = true ∧ t.early = []) ∧
    (∀ n key, planPkt s p = .drop n key none → ∃ t, exec c s = .next t ∧ bit (regGet t (pgExchange (hubFrom s p.src)) (errOff 0x18)) 0 = true ∧
      t.early = []) ∧
    (∀ n key g b, planPkt s p = .use n key g → bucketGroup (getCtx s n) key = some g → getBucket s n key = some b →
      ∃ u, exec c s = .next (runEarly 65535 u) ∧
      (p.kind ≠ 2 → resChk s (hubTo s g key p.src) = true → residuesOk g p = false →
        u = residueFault s n key g (hubTo s g key p.src) p.src p.hops) ∧
      (p.kind = 2 → ∀ r, agreeRole (getCtx s n) g b (bucketParts key).2.2 p.src = some r →
        ∃ y, getBucket u n key = some y ∧ y.agree = (if r = 8 ∨ r = 9 then p.agree else max b.agree p.agree)) ∧
      (p.kind ≠ 2 → resChk s (hubTo s g key p.src) = false ∨ residuesOk g p = true →
        (p.kind = 0 → b.hop + 1 < ringSize g - 1 → ∃ y u0 q, getBucket u n key = some y ∧ y.hop = b.hop + 1 ∧ y.stage = b.stage ∧
          y.chunks = b.chunks ∧ u = sendPkt u0 n key g (nextPos g (bucketParts key).2.2) q ∧ q.kind = 0 ∧ q.chunk = p.chunk ∧
          q.blocks = (addChunks g (pktChunk p) (ownPart g b p.chunk)).blocks.map (·.2)) ∧
        (p.kind = 0 → ringSize g - 1 ≤ b.hop + 1 → ∃ y, getBucket u n key = some y ∧ y.hop = b.hop + 1 ∧ 2 ≤ y.stage ∧
          y.chunks.find p.chunk = some (addChunks g (pktChunk p) (ownPart g b p.chunk))) ∧
        (p.kind = 1 → ∃ y, getBucket u n key = some y ∧ y.hop = b.hop + 1 ∧ y.chunks.find p.chunk = some (pktChunk p) ∧
          y.stage = if b.hop + 1 = 2 * (ringSize g - 1) then 5 else b.stage) ∧
        (p.kind = 3 → ∀ k, (List.range (treeKids g (bucketParts key).2.2).length).find? (fun k => !bit b.ups k &&
            devAt (getCtx s n) g ((treeKids g (bucketParts key).2.2).getD k 0) == p.src) = some k →
          ∃ y, getBucket u n key = some y ∧ bit y.ups k = true ∧
            y.chunks.find p.chunk = some (addChunks g (pktChunk p) (b.chunks.get {} p.chunk))) ∧
        (p.kind = 4 → ∃ y, getBucket u n key = some y ∧ y.chunks.find p.chunk = some (pktChunk p) ∧ 4 ≤ y.stage)))

/-- How an attempt ends (R86, R206-R209, R214-R217, R238, R450). ADMISSION_NOTICE: a peer's notice is held, or kept for the attempt that it names. The
arrive that reaches the own COMMIT instance is the commit point. COMMIT_TIMEOUT decides: REPEATED, or ABANDONED at the repeat limit. CLOSE_PHASE ends a
decided attempt, after a settle round where members are told; SETTLE_ROUND takes the message of the device before on the ring, the last one of a single
ring completes it; SETTLE_TIMEOUT gives it up. REPEAT_ADMIT admits a repeat. -/
def Obligations.AttemptsEnd : Prop :=
  (∀ (src ctx step number : Nat) (twin : Option Nat) (active : Bool) (p : Plan) (s : State), (getCtx s ctx).plan = some p →
    src ∈ peersOf s (getCtx s ctx) p →
    ((getCtx s ctx).attempt = none → ¬ (standsIn s (getCtx s ctx) = true ∧ step = (getCtx s ctx).step ∧ (getCtx s ctx).attemptNo < number) →
      exec (.admissionNotice src ctx step number twin active) s = .next (putCtx s ctx { getCtx s ctx with earlyNotices := (getCtx s ctx).earlyNotices ++ [(src, step, number, ⟨twin, active⟩)] })) ∧
    ((getCtx s ctx).attempt = none → standsIn s (getCtx s ctx) = true → step = (getCtx s ctx).step → (getCtx s ctx).attemptNo < number →
      ∃ t, exec (.admissionNotice src ctx step number twin active) s = .next t ∧ (getCtx t ctx).repeatPending = true ∧
        (getCtx t ctx).attemptNo = number ∧ (getCtx t ctx).earlyNotices = (getCtx s ctx).earlyNotices ++ [(src, step, number, ⟨twin, active⟩)]) ∧
    (∀ a, (getCtx s ctx).attempt = some a → a.step = step → a.number = number → a.outcome = none → ∃ u b,
      exec (.admissionNotice src ctx step number twin active) s = .next (progress u ctx) ∧ (getCtx u ctx).attempt = some b ∧
      b.notices = a.notices.insert src ⟨twin, active⟩)) ∧
  (∀ (m : PegMsg) (k : Nat) (p : Plan) (a : Attempt) (s : State), noShadows s → (getCtx s m.ctx).plan = some p → (getCtx s m.ctx).attempt = some a →
    a.outcome = none → mayOperate s m.ctx m.src = true → m.op = 0 → m.cause = 0 → m.peg = commitPlanPeg 0 → commitKey (getCtx s m.ctx) 0 = some k →
    pegStatus s k m.tag = 0 → (getPeg s k).closed = false → (getPeg s k).target ≤ (getPeg s k).count + 1 → (getPeg s k).target < 2 ^ 32 →
    ∃ t b, exec (.remotePegOp m) s = .next t ∧ (getCtx t m.ctx).step = ((getCtx s m.ctx).step + 1) % 2 ^ 32 ∧ (getCtx t m.ctx).jslots = (getCtx s m.ctx).jslots.filter (fun e => (getCtx s m.ctx).rollback.contains e.1) ∧
      (getCtx t m.ctx).attempt = some b ∧ b.outcome = some 0 ∧ b.phase = 8) ∧
  (∀ (ctx : Nat) (p : Plan) (a : Attempt) (s : State), noShadows s → (getCtx s ctx).plan = some p → (getCtx s ctx).attempt = some a →
    a.outcome = none → (a.vote.isSome = true ∨ a.ready = true) → a.deciding = false → a.asked = [] → a.answers = [] → a.causes = [] → a.told = [] →
    a.lostParties = [] → instances s (getCtx s ctx) p a = [] → (getCtx s ctx).journal = true →
    (∀ k, commitKey (getCtx s ctx) 0 = some k → (getPeg s k).reached = false ∧ (getPeg s k).count < (getPeg s k).target) →
    ∃ t b, exec (.commitTimeout ctx) s = .next t ∧ (getCtx t ctx).attempt = some b ∧
      b.outcome = some (if a.limits.repeatMax ≤ a.repeats then 3 else 2) ∧
      (getCtx t ctx).lastCause = (if a.limits.repeatMax ≤ a.repeats then cRepeatLimit else cTimeout)) ∧
  (∀ (ctx oc : Nat) (p : Plan) (a : Attempt) (s : State), (getCtx s ctx).plan = some p → (getCtx s ctx).attempt = some a → a.outcome = some oc →
    (oc = 0 ∨ peersOf s (getCtx s ctx) p = [] → ∃ u, exec (.closePhase ctx) s = .next (afterClose u ctx) ∧ (getCtx u ctx).attempt = none ∧
      (getCtx u ctx).lastOutcome = oc ∧ (getCtx u ctx).batch = (if oc = 2 then (getCtx s ctx).batch else none) ∧
      (oc = 2 → (getCtx u ctx).repeatPending = true ∧ (getCtx u ctx).repeats = (getCtx s ctx).repeats + 1) ∧
      (3 ≤ oc → (getCtx u ctx).suspended = true)) ∧
    (∀ r i, oc ≠ 0 → peersOf s (getCtx s ctx) p ≠ [] → a.settling = false → a.settleIn = [] → a.settleHop = 0 → a.settleDone = false →
      settlePlace s (roundRings s (getCtx s ctx) p) = some (r, i) → 1 < ((roundRings s (getCtx s ctx) p).getD r []).length →
      ∃ u, exec (.closePhase ctx) s = .next u ∧ (getCtx u ctx).attempt = some { a with
        settling := true, settleIn := [], settleLower := (a.settleLower || (settleOwn p a).1), settleRaises := (a.settleRaises ++ (settleOwn p a).2).eraseDups })) ∧
  (∀ (src ctx step : Nat) (lower : Bool) (raises : List Nat) (p : Plan) (a : Attempt) (s : State), (getCtx s ctx).plan = some p →
    (getCtx s ctx).attempt = some a → src ∈ peersOf s (getCtx s ctx) p → a.step = step → a.outcome ≠ some 0 →
    (a.settling = false → exec (.settleRound src ctx step lower raises) s =
      .next (modAttempt s ctx (fun b => { b with settleIn := b.settleIn ++ [(src, lower, raises)] }))) ∧
    (∀ r i, a.settling = true → settlePlace s (roundRings s (getCtx s ctx) p) = some (r, i) →
      src = settlePrev ((roundRings s (getCtx s ctx) p).getD r []) i →
      (a.settleDone = false → a.settleHop + 2 < ((roundRings s (getCtx s ctx) p).getD r []).length →
        ∃ u, exec (.settleRound src ctx step lower raises) s = .next u ∧ (getCtx u ctx).attempt = some { a with
          settleHop := a.settleHop + 1, settleLower := (a.settleLower || lower), settleRaises := (a.settleRaises ++ raises).eraseDups }) ∧
      (a.settleDone = false → a.settleUp = false → (roundRings s (getCtx s ctx) p).length = 1 →
        a.settleHop + 2 = ((roundRings s (getCtx s ctx) p).getD r []).length → ∃ u,
        exec (.settleRound src ctx step lower raises) s = .next (afterClose u ctx) ∧ (getCtx u ctx).attempt = none ∧
        (getCtx u ctx).lastOutcome = a.outcome.getD 2))) ∧
  (∀ (ctx : Nat) (p : Plan) (a : Attempt) (s : State), (getCtx s ctx).plan = some p → (getCtx s ctx).attempt = some a → a.settling = true →
    a.outcome ≠ some 0 → peersOf s (getCtx s ctx) p ≠ [] → ∃ u, exec (.settleTimeout ctx) s = .next (afterClose u ctx) ∧
      (getCtx u ctx).attempt = none ∧ (getCtx u ctx).suspended = true) ∧
  (∀ (ctx ns : Nat) (b : Nat × Nat) (p : Plan) (s : State), (getCtx s ctx).batch = some b → (getCtx s ctx).plan = some p →
    (getCtx s ctx).repeatPending = true → (getCtx s ctx).suspended = false → (getCtx s ctx).state = 2 → (getCtx s ctx).attempt = none →
    (getCtx s ctx).evalRun = none → (getCtx s ctx).exporting = false → heldBySwing s ctx = false →
    (∀ split halfOff, admitCheck s ctx b.2 = .go split halfOff → ∃ u a, exec (.repeatAdmit ctx ns) s = .next (recoveryEnds u ctx ns) ∧
      (getCtx u ctx).attempt = some a ∧ a.step = (getCtx s ctx).step ∧ a.number = (getCtx s ctx).attemptNo ∧ a.repeats = (getCtx s ctx).repeats ∧
      a.batchOff = b.1 ∧ a.batchLen = b.2) ∧
    (∀ st h x, admitCheck s ctx b.2 = .refused st h x → ∃ t, exec (.repeatAdmit ctx ns) s = .next t ∧ (getCtx t ctx).suspended = true ∧
      (getCtx t ctx).batch = some b))

/-- Silent errors (R297-R302, R307-R312). DIGEST_ROOT puts the own root to the vote; ROOT_VOTE takes a member's: equal roots agree on the step, another
digest interval ends the vote. DUPLICATE_EXECUTION and THIRD_EXECUTION compare a sampled tile. ROTATE_PERIOD makes every rotation due and tests again
what failed. GALLERY_TEST, PROBE_RESULT and HALL_EDGE_ENGINE_TEST give their units back or take them out. -/
def Obligations.SilentErrors : Prop :=
  (∀ (ctx step : Nat) (root : List Byte) (p : Plan) (s : State), (getCtx s ctx).plan = some p → (getCtx s ctx).digest = some (step, root) →
    (getCtx s ctx).voting = true → (∀ v, v ∈ votes (getCtx s ctx) step → v.1 ≠ deviceId s) →
    ∃ u, exec (.digestRoot ctx) s = .next (decideVote u ctx) ∧ (getCtx u ctx).roots = (getCtx s ctx).roots.insert (deviceId s) (step, root)) ∧
  (∀ (src ctx step interval : Nat) (root : List Byte) (p : Plan) (s : State), (getCtx s ctx).plan = some p → src ∈ peersOf s (getCtx s ctx) p →
    (interval ≠ digestD s → ∃ u, exec (.rootVote src ctx step interval root) s = .next (progress u ctx) ∧ (getCtx u ctx).configBad = true ∧
      (getCtx u ctx).voting = false ∧ bit (regGet u pgSilent (errOff pgSilent.kind)) 7 = true) ∧
    (interval = digestD s → exec (.rootVote src ctx step interval root) s =
      .next (decideVote (putCtx s ctx { getCtx s ctx with roots := (getCtx s ctx).roots.insert src (step, root) }) ctx)) ∧
    (interval = digestD s → (getCtx s ctx).voting = true → (getCtx s ctx).roots = [(deviceId s, (step, root))] → (getCtx s ctx).digest = some (step, root) →
      (peersOf s (getCtx s ctx) p).filter (fun d => !s.lostDevs.contains d) = [src] → ∃ u,
      exec (.rootVote src ctx step interval root) s = .next (progress u ctx) ∧ (getCtx u ctx).agreed = some step ∧ (getCtx u ctx).voting = false)) ∧
  (∀ (ctx index digest x : Nat) (d : DupExec) (s : State), (getCtx s ctx).dups[index]? = some d → d.digests = [x] →
    (digest = x → ∃ u, exec (.duplicateExecution ctx index digest) s = .next (progress u ctx) ∧
      (getCtx u ctx).dups = (getCtx s ctx).dups.eraseIdx index) ∧
    (digest ≠ x → ∀ k, dupGallery s (getCtx s ctx) d.w (d.gals.map aisleIdx) = some k → ∃ u, exec (.duplicateExecution ctx index digest) s = .next u ∧
      (getCtx u ctx).dups[index]? = some { d with gals := d.gals ++ [k], digests := [x, digest] })) ∧
  (∀ (ctx index digest x y g0 g1 g2 : Nat) (d : DupExec) (s : State), (getCtx s ctx).dups[index]? = some d → d.digests = [x, y] → d.gals = [g0, g1, g2] →
    (digest = x → exec (.thirdExecution ctx index digest) s = .next (dupLoser (dupEnds (setErr (setDup s ctx index none) pgSilent 0) d.w) ctx g1)) ∧
    (digest ≠ x → digest = y →
      exec (.thirdExecution ctx index digest) s = .next (dupLoser (dupEnds (setErr (setDup s ctx index none) pgSilent 0) d.w) ctx g0)) ∧
    (digest ≠ x → digest ≠ y → x ≠ y → exec (.thirdExecution ctx index digest) s =
      .next ([g0, g1, g2].foldl suspectGal (dupEnds (setErr (setDup s ctx index none) pgSilent 1) d.w)))) ∧
  (∀ s : State, ((∀ h a, eligible s h a = none) ∨ (fld s pgSilent Reg.SE_CTRL 31 16 = 0 ∧ s.silent.due = [])) → ∃ t, exec .rotatePeriod s = .next t ∧
    t.silent.due = (if fld s pgSilent Reg.SE_CTRL 31 16 = 0 then s.silent.due else List.range 128) ∧
    ∀ k g, s.gals.find k = some g → g.state = 3 → (getGal t k).state = 2 ∧ (getGal t k).testing = true ∧ (getGal t k).testReq = false) ∧
  (∀ (hall aisle gallery test : Nat) (pass_ : Bool) (s : State),
    let k := galKey (hall % 8) (aisle % 16) (gallery % 68)
    (getGal s k).state = 2 → (getGal s k).testing = true → (getGal s k).blame = none → 66 ≤ inService s (hall % 8) (aisle % 16) →
    s.silent.due = [] → s.silent.requests = [] → ∃ t, exec (.galleryTest hall aisle gallery pass_ test) s = .next t ∧
      (pass_ = true → (getGal t k).state = 1 ∧ (getGal t k).testing = false ∧ (getGal t k).fails = 0 ∧ (getGal t k).quar = false ∧
        t.fence = s.fence.filter (fun x => !(getGal s k).tags.contains x)) ∧
      (pass_ = false → (getGal t k).state = (if 3 ≤ (getGal s k).fails + 1 then 5 else 3) ∧ (getGal t k).fails = (getGal s k).fails + 1 ∧
        bit (regGet t pgSilent (errOff pgSilent.kind)) 6 = true)) ∧
  (∀ (hall aisle gallery pack result firstFail : Nat) (s : State),
    let k := galKey (hall % 8) (aisle % 16) (gallery % 68)
    (getGal s k).state = 1 → (getGal s k).probing = some pack → result ≤ 1 →
    ∃ t r, exec (.probeResult hall aisle gallery pack result firstFail) s = .next t ∧ lastRec t 3 0xFFFF = some r ∧
      r.body.take 8 = natLe (unitOfKey k) 4 ++ natLe pack 4 ∧
      (result = 0 → (getGal t k).state = 1) ∧ (result = 1 → (getGal t k).state = (if 3 ≤ (getGal s k).fails + 1 then 5 else 3))) ∧
  (∀ (hall engine : Nat) (result : EngineResult) (s : State), hallFree_ s (hall % 8) = true → engine < 10 →
    let s1 : State := { s with silent := { s.silent with suspects := s.silent.suspects.erase (hall % 8 * 16 + engine) } }
    (result = .pass → exec (.hallEdgeEngineTest hall engine result) s = .next s1) ∧
    (result ≠ .pass → engine ≤ 7 → exec (.hallEdgeEngineTest hall engine result) s = .next (retireMover s1 (hall % 8) engine 0 false)) ∧
    (result ≠ .pass → 8 ≤ engine → ∃ t, exec (.hallEdgeEngineTest hall engine result) s = .next t ∧ t.power.lost = true ∧
      t.boot.failedUnit = some (hall % 8 * 16 + engine) ∧ (result = .failKat → engine = 8 → bit (regGet t pgReference Reg.RN_ERR) 0 = true)))

/-- Faults of units and of memory (R73, R314, R316, R317, R319, R332-R336). SLOT_PAR with the bay's check enabled sets the array's error bit
and is a gallery fault; SRAM_UE quarantines a gallery; LEASE_EXPIRY and MOVER_FAULT retire a
mover; a hub block's fault loses the device. HBM_UE retires the row and restores what the line held; SCRUB_PERIOD counts events of rows and retires at
the threshold; RETRAIN, RETRAIN_FORCE and RETRAINING_DONE open and end a stack's window. -/
def Obligations.FaultsHandled : Prop :=
  (∀ (hall aisle gallery bay ns : Nat) (s : State),
    let k := galKey (hall % 8) (aisle % 16) (gallery % 68)
    let enabled := if bay = 0 then fld s (faPg k) Reg.FA_CTRL 1 1 else fld s (baPg k) Reg.BA_CTRL 0 0
    (enabled = 0 → exec (.slotPar hall aisle ⟨gallery, bay⟩ ns) s = .next s) ∧
    (enabled ≠ 0 → ∃ u, exec (.slotPar hall aisle ⟨gallery, bay⟩ ns) s = .next (galleryFault u k cUnit ns false) ∧ recorded s u ∧
      bit (regGet u (if bay = 0 then faPg k else baPg k) (errOff (if bay = 0 then 0x30 else 0x32)))
        (if bay = 0 then 3 else if bay = 1 then 2 else 5) = true)) ∧
  (∀ (k hub ns : Nat) (s : State), k < 8704 → s.recovery = none →
    ((getGal s k).state = 1 ∨ (getGal s k).state = 2 → ∃ t, exec (.sramUe (some k) hub ns) s = .next t ∧ (getGal t k).state = (if 3 ≤ (getGal s k).fails + 1 then 5 else 3) ∧
      (getGal t k).quar = true ∧ (getGal t k).testing = false ∧ (getGal t k).fails = (getGal s k).fails + 1 ∧ t.ctxs = s.ctxs ∧ t.recovery = none) ∧
    ((getGal s k).state = 0 → holdersOf s (keyHall k) (keyAisle k) (getGal s k).slot = [] → ∃ t, exec (.sramUe (some k) hub ns) s = .next t ∧
      (getGal t k).state = 2 ∧ (getGal t k).quar = true ∧ (getGal t k).tags = slotTags s (keyHall k) (keyAisle k) (getGal s k).slot)) ∧
  (∀ (unit ns : Nat) (c : Instr) (s : State), (c = .hubBlockFault unit ∨ c = .sramUe none unit ns) →
    (s.power.lost = true → exec c s = .next s) ∧
    (s.power.lost = false → ∃ t, exec c s = .next t ∧ t.power.lost = true ∧ t.power.fault = true)) ∧
  (∀ (hall mover ns : Nat) (s : State), hallContexts s (hall % 8) = [] → s.fence.length < 256 → ∃ t, exec (.moverFault hall mover ns) s = .next t ∧
    moverTag s (hall % 8) (mover % 8) ∈ t.fence ∧ (hall % 8 * 8 + mover % 8) ∈ t.silent.movers ∧ t.ctxs = s.ctxs) ∧
  (∀ (tag ns : Nat) (s : State), bits tag 31 20 = deviceId s → bits tag 19 18 = 1 →
    (8 ≤ bits tag 3 0 → exec (.leaseExpiry tag ns) s = .next (retireMover s (bits tag 17 15) (bits tag 3 0 - 8) ns true)) ∧
    (∀ k, bits tag 3 0 ≤ 4 → galAt s (bits tag 17 15) (bits tag 14 11) (bits tag 10 4) = some k →
      exec (.leaseExpiry tag ns) s = .next (galleryFault s k cUnit ns true))) ∧
  (∀ (hall addr ns : Nat) (holds : LineHolds) (s : State), (∀ n, lineCtx holds = some n → (getCtx s n).attempt = none ∧ (getCtx s n).evalRun = none ∧
      (getCtx s n).shadow.held = false) →
    ∃ t, exec (.hbmUe hall addr holds ns) s = .next t ∧ Config.rowOf addr ∈ (getMc t (hall % 8)).retired ∧
      (∀ n g, holds = .gauge n g → twinActive s = false → ((getCtx t n).gauges.get {} g).hcount = 0) ∧
      (∀ n tid ord j, holds = .journal n tid ord → (getCtx s n).jslots.find (sliceKey tid ord) = some j →
        (getCtx t n).jslots.find (sliceKey tid ord) = some { j with lost := true }) ∧
      (∀ n tid first i, holds = .residual n tid first → i < 16 → SMap.find (first + i) ((getCtx t n).residual.get [] tid) = none) ∧
      (∀ n tid off, holds = .simulation n tid off → (getCtx t n).suspended = true ∧ (getCtx t n).lastCause = cMemLost)) ∧
  (∀ (hall addr n : Nat) (s : State), fld s (pgMemory (hall % 8)) Reg.MC_CTRL 0 0 = 1 → n ≠ 0 →
    Config.rowOf addr ∉ (getMc s (hall % 8)).retired →
    ((getMc s (hall % 8)).events.get 0 (Config.rowOf addr) + n < retireThr s (hall % 8) → ∃ t, exec (.scrubPeriod hall [(addr, n)]) s = .next t ∧
      (getMc t (hall % 8)).events.get 0 (Config.rowOf addr) = (getMc s (hall % 8)).events.get 0 (Config.rowOf addr) + n ∧
      (getMc t (hall % 8)).retired = (getMc s (hall % 8)).retired) ∧
    (retireThr s (hall % 8) ≤ (getMc s (hall % 8)).events.get 0 (Config.rowOf addr) + n → ∃ t, exec (.scrubPeriod hall [(addr, n)]) s = .next t ∧
      (getMc t (hall % 8)).retired = (getMc s (hall % 8)).retired ++ [Config.rowOf addr])) ∧
  (∀ (hall pc : Nat) (s : State), (getMc s (hall % 8)).retrain = none → ∃ t, exec (.retrain hall pc) s = .next t ∧
    (retrainQuiet s (hall % 8) = true → (getMc t (hall % 8)).retrain = some (pc % 32) ∧ (getMc t (hall % 8)).due = none) ∧
    (retrainQuiet s (hall % 8) = false → (getMc t (hall % 8)).retrain = none ∧ (getMc t (hall % 8)).due = some (pc % 32))) ∧
  (∀ (hall pc : Nat) (s : State), (getMc s (hall % 8)).due = some (pc % 32) → (getMc s (hall % 8)).retrain = none →
    ∃ t, exec (.retrainForce hall pc) s = .next t ∧ (getMc t (hall % 8)).retrain = some (pc % 32) ∧ (getMc t (hall % 8)).due = none) ∧
  (∀ (hall : Nat) (s : State), (getMc s (hall % 8)).due = none → ∃ t, exec (.retrainingDone hall) s = .next t ∧ (getMc t (hall % 8)).retrain = none)

/-- The twin and the loss of a device (R159, R214, R215, R320, R325-R329). Heartbeats are counted, sent and heard; a peer of which three periods brought
none, or that says it is down, is declared lost; LOST enters the loss. MIRROR_RECORD saves the old slice before it writes the new; STEP_SUMMARY makes
the twin a ready party once it holds every record; SEEDING_DONE and MIRROR_ACKNOWLEDGEMENT tell the member how far its twin is. -/
def Obligations.TwinsAndLoss : Prop :=
  (∀ s : State, ∃ t, exec .heartbeatPeriod s = .next t ∧ t.twin.heard = [] ∧
    (∀ d, d ∈ beatPeers s → t.twin.missed.get 0 d = if d ∈ s.twin.heard then 0 else s.twin.missed.get 0 d + 1) ∧
    t.twin.beat = (if s.power.lost then s.twin.beat else (s.twin.beat + 1) % 2 ^ 32)) ∧
  (∀ (src seq : Nat) (s : State), src ∉ s.lostDevs → (s.twin.twin = some src ∨ s.twin.member = some src) →
    (∃ t, exec (.heartbeat src seq false) s = .next t ∧ src ∈ t.twin.heard ∧ t.twin.member = s.twin.member ∧ t = { s with twin := t.twin }) ∧
    exec (.heartbeat src seq true) s = .next (declare s src 0)) ∧
  (∀ (ns d : Nat) (s : State), beatPeers s = [d] → 3 ≤ s.twin.missed.get 0 d → exec (.heartbeatMiss ns) s = .next (declare s d ns)) ∧
  (∀ (src d ns : Nat) (s : State), d ∉ s.lostDevs → d ≠ deviceId s → s.twin.twin ≠ some d → s.twin.member ≠ some d →
    (∀ e, e ∈ s.ctxs → e.2.attempt = none ∧ e.2.shadow.held = false ∧ inGroup e.2 d = false ∧ e.2.voting = false) →
    ∃ t, exec (.lost src d ns) s = .next t ∧ t.lostDevs = s.lostDevs ++ [d]) ∧
  (∀ (m : MirrorRec) (d : Nat) (p : Plan) (r : TensorRec) (s : State), s.twin.member = some d → d ∉ s.lostDevs → ownShare (getCtx s m.ctx) d = false →
    (getCtx s m.ctx).state ≠ 0 → (getCtx s m.ctx).shadow.held = true → (getCtx s m.ctx).plan = some p → p.record m.tid = some r → m.grad ≠ [] →
    (getCtx s m.ctx).step ≤ m.step → (getCtx s m.ctx).shadow.pre.find (sliceKey m.tid m.slice) = none →
    (getCtx s m.ctx).shadow.summary = none →
    ∃ u, exec (.mirrorRecord m) s = .next (sendBundle u d 2 2 0 (.mirrorAck m.ctx false)) ∧
      (getCtx u m.ctx).shadow.pre.find (sliceKey m.tid m.slice) = some (oldState (getCtx s m.ctx) p r m.slice)) ∧
  (∀ (m : StepSummary) (d : Nat) (p : Plan) (s : State), s.twin.member = some d → d ∉ s.lostDevs → ownShare (getCtx s m.ctx) d = false →
    (getCtx s m.ctx).shadow.held = true → (getCtx s m.ctx).plan = some p → (getCtx s m.ctx).attempt = none →
    (holdsRecords (getCtx s m.ctx) = true →
      ∃ u a, exec (.stepSummary m) s = .next (takeovers (progress u m.ctx)) ∧ (getCtx u m.ctx).attempt = some a ∧ a.step = m.step ∧ a.ready = true ∧
        (getCtx u m.ctx).shadow.summary = some m) ∧
    (holdsRecords (getCtx s m.ctx) = false → exec (.stepSummary m) s = .next (ackMirror (putCtx s m.ctx { getCtx s m.ctx with
      shadow := { (getCtx s m.ctx).shadow with summary := some m } }) d m.ctx true))) ∧
  (∀ s : State, s.twin.state = 1 → exec .seedingDone s = .next { s with twin := { s.twin with state := 2, seedLeft := 0 } }) ∧
  (∀ (ctx : Nat) (summary : Bool) (a : Attempt) (s : State), (getCtx s ctx).attempt = some a →
    ∃ u, exec (.mirrorAcknowledgement ctx summary) s = .next (progress u ctx) ∧ (getCtx u ctx).attempt = some (if summary then
      { a with summaryAcked := a.summarySent } else { a with mirrorLeft := a.mirrorLeft - 1 }))

/-- What the commands of a step's own work leave alone (the frame of R7, R91, R94, R120, R145-R149, R183-R205, R215, R267, R379): the waiting queue, boot state and
flash, sensors, galleries, memory controllers (but JWRITE), the fence and the list of lost devices, self-test state, the gauge engine's
window and staged words; of the power state
they change only the halls asked to wake. -/
def Obligations.StepWorkFrame : Prop :=
  ∀ (c : Instr) (s t : State), stepWork c = true → exec c s = .next t →
    t.pending = s.pending ∧ t.boot = s.boot ∧ t.monitors = s.monitors ∧ t.gals = s.gals ∧ (t.mem = s.mem ∨ ∃ n tid ord, c = .jwrite n tid ord) ∧ t.fence = s.fence ∧
      t.lostDevs = s.lostDevs ∧ t.silent = s.silent ∧ t.gauge = { s.gauge with due := t.gauge.due } ∧ t.power = { s.power with waking := t.power.waking }

/-- No command stops the block: every one of them completes, in every state and on every operand. What the spec refuses it refuses in the command's
answer or by leaving the state as it is, and an undefined value is a free one, so that no fault and no refusal ends a run (R2, R290, R292). -/
def Obligations.NoCommandStops : Prop := ∀ (c : Instr) (s : State), ∃ t, exec c s = .next t

/-- Right after reset (R431, R315, R339, R340, log entries 12-16): every register reads its reset value, three of them as their tables give it;
nothing waits; no context, peg, session, fence entry or error stands; flash is blank. -/
def Obligations.ResetState : Prop :=
  (∀ (p : Page) (off : Nat), regGet State.reset p off = resetAt p.kind off ∧ shadowGet State.reset p off = resetAt p.kind off) ∧
  fld State.reset pgSilent Reg.SE_CTRL 4 0 = 6 ∧ fld State.reset pgSilent Reg.SE_CTRL 11 5 = 4 ∧ fld State.reset pgSilent Reg.SE_CTRL 31 16 = 600 ∧
  regGet State.reset pgFault Reg.FM_CTRL = 10 ∧ (∀ h, h < 8 → regGet State.reset (pgMemory h) Reg.MC_CTRL = 1 + 8 * 2 ^ 8 + 120 * 2 ^ 16) ∧
  State.reset.pending = [] ∧ State.reset.ctxs = [] ∧ State.reset.pegs = [] ∧ State.reset.host.sessions = [] ∧ State.reset.fence = [] ∧
  State.reset.lostDevs = [] ∧ State.reset.queues = [] ∧ State.reset.update = {} ∧ State.reset.silent = {} ∧ State.reset.digests = [] ∧ State.reset.out = [] ∧ tablesSound State.reset

/-- Every step keeps the fence table of R320 within 256 different tags, and the flash's bytes in their one canonical form, from every state that has
them so. -/
def Obligations.StepKeepsTables : Prop :=
  ∀ s t : State, tablesSound s → step s = .next t → tablesSound t
end

