-- ==== Sys2Proof/Laws/Maps.lean ====
section
/-! SUPPORT. Laws of the finite maps and of addressed bytes: what a write leaves at its key and at every other, and that the canonical
form is kept. -/

namespace Sys2Proof.Machine

namespace SMap

variable {α : Type}

@[simp] theorem find_nil (k : Nat) : find k ([] : SMap α) = none := rfl

@[simp] theorem find_insert_same (k : Nat) (v : α) : ∀ m : SMap α, find k (insert k v m) = some v
  | [] => by simp [insert, find]
  | (j, w) :: t => by
    unfold insert
    split
    · simp [find]
    · split
      · simp [find]
      · have : j ≠ k := fun h => by omega
        simp [find, this, find_insert_same k v t]

theorem find_insert_ne {j k : Nat} (h : j ≠ k) (v : α) : ∀ m : SMap α, find j (insert k v m) = find j m
  | [] => by simp [insert, find, Ne.symm h]
  | (i, w) :: t => by
    unfold insert
    split
    · simp [find, Ne.symm h]
    · split
      · next hk => subst hk; simp [find, Ne.symm h]
      · simp [find, find_insert_ne h v t]

@[simp] theorem find_erase_same (k : Nat) : ∀ m : SMap α, find k (erase k m) = none
  | [] => rfl
  | (j, w) :: t => by
    unfold erase
    split
    · exact find_erase_same k t
    · next h => simp [find, h, find_erase_same k t]

theorem find_erase_ne {j k : Nat} (h : j ≠ k) : ∀ m : SMap α, find j (erase k m) = find j m
  | [] => rfl
  | (i, w) :: t => by
    unfold erase
    split
    · next hi => subst hi; simp [find, Ne.symm h, find_erase_ne h t]
    · simp [find, find_erase_ne h t]

theorem find_insert (j k : Nat) (v : α) (m : SMap α) : find j (insert k v m) = if j = k then some v else find j m := by
  split
  · next h => subst h; simp
  · next h => exact find_insert_ne h v m

theorem find_erase (j k : Nat) (m : SMap α) : find j (erase k m) = if j = k then none else find j m := by
  split
  · next h => subst h; simp
  · next h => exact find_erase_ne h m

@[simp] theorem get_put_same [DecidableEq α] (d : α) (k : Nat) (v : α) (m : SMap α) : get d k (put d k v m) = v := by
  unfold get put
  split
  · next h => simp [h]
  · simp

theorem get_put_ne [DecidableEq α] (d : α) {j k : Nat} (h : j ≠ k) (v : α) (m : SMap α) : get d j (put d k v m) = get d j m := by
  unfold get put
  split
  · rw [find_erase_ne h]
  · rw [find_insert_ne h]

theorem get_put [DecidableEq α] (d : α) (j k : Nat) (v : α) (m : SMap α) :
    get d j (put d k v m) = if j = k then v else get d j m := by
  split
  · next h => subst h; simp
  · next h => exact get_put_ne d h v m

theorem get_insert (d : α) (j k : Nat) (v : α) (m : SMap α) : get d j (insert k v m) = if j = k then v else get d j m := by
  unfold get
  rw [find_insert]
  split <;> rfl

/-! The canonical form. -/

theorem sortedFrom_mono {lo hi : Nat} (h : lo ≤ hi) : ∀ m : SMap α, sortedFrom hi m = true → sortedFrom lo m = true
  | [], _ => rfl
  | (j, _) :: t, hs => by
    simp only [sortedFrom, Bool.and_eq_true, decide_eq_true_eq] at hs ⊢
    exact ⟨by omega, hs.2⟩

theorem sortedFrom_insert (k : Nat) (v : α) : ∀ (lo : Nat) (m : SMap α), lo ≤ k → sortedFrom lo m = true → sortedFrom lo (insert k v m) = true
  | lo, [], h, _ => by simp [insert, sortedFrom, h]
  | lo, (j, w) :: t, h, hs => by
    simp only [sortedFrom, Bool.and_eq_true, decide_eq_true_eq] at hs
    unfold insert
    split
    · next hk => simp only [sortedFrom, Bool.and_eq_true, decide_eq_true_eq]; exact ⟨h, by omega, hs.2⟩
    · split
      · next hk => simp only [sortedFrom, Bool.and_eq_true, decide_eq_true_eq]; exact ⟨h, by rw [hk]; exact hs.2⟩
      · simp only [sortedFrom, Bool.and_eq_true, decide_eq_true_eq]
        exact ⟨hs.1, sortedFrom_insert k v (j + 1) t (by omega) hs.2⟩

theorem sortedFrom_erase (k : Nat) : ∀ (lo : Nat) (m : SMap α), sortedFrom lo m = true → sortedFrom lo (erase k m) = true
  | _, [], _ => rfl
  | lo, (j, w) :: t, hs => by
    simp only [sortedFrom, Bool.and_eq_true, decide_eq_true_eq] at hs
    unfold erase
    split
    · exact sortedFrom_mono (show lo ≤ j + 1 by omega) _ (sortedFrom_erase k (j + 1) t hs.2)
    · simp only [sortedFrom, Bool.and_eq_true, decide_eq_true_eq]
      exact ⟨hs.1, sortedFrom_erase k (j + 1) t hs.2⟩

theorem sorted_filter (p : Nat × α → Bool) : ∀ (lo : Nat) (m : SMap α), sortedFrom lo m = true → sortedFrom lo (m.filter p) = true
  | _, [], _ => rfl
  | lo, (j, w) :: t, hs => by
    simp only [sortedFrom, Bool.and_eq_true, decide_eq_true_eq] at hs
    have ht := sorted_filter p (j + 1) t hs.2
    by_cases hp : p (j, w) = true
    · simp only [List.filter_cons, hp, if_true, sortedFrom, Bool.and_eq_true, decide_eq_true_eq]
      exact ⟨hs.1, ht⟩
    · simp only [List.filter_cons, hp]
      exact sortedFrom_mono (show lo ≤ j + 1 by omega) _ ht

theorem mem_of_mem_erase {k : Nat} {e : Nat × α} : ∀ {m : SMap α}, e ∈ erase k m → e ∈ m
  | [], h => by simp [erase] at h
  | (j, w) :: t, h => by
    unfold erase at h
    split at h
    · exact List.mem_cons_of_mem _ (mem_of_mem_erase h)
    · rcases List.mem_cons.mp h with h | h
      · exact h ▸ List.mem_cons_self
      · exact List.mem_cons_of_mem _ (mem_of_mem_erase h)

theorem mem_of_mem_insert {k : Nat} {v : α} {e : Nat × α} : ∀ {m : SMap α}, e ∈ insert k v m → e = (k, v) ∨ e ∈ m
  | [], h => by simp [insert] at h; exact .inl h
  | (j, w) :: t, h => by
    unfold insert at h
    split at h
    · simpa using h
    · split at h
      · rcases List.mem_cons.mp h with h | h
        · exact .inl h
        · exact .inr (List.mem_cons_of_mem _ h)
      · rcases List.mem_cons.mp h with h | h
        · exact .inr (h ▸ List.mem_cons_self)
        · rcases mem_of_mem_insert h with h | h
          · exact .inl h
          · exact .inr (List.mem_cons_of_mem _ h)

theorem lean_iff [DecidableEq α] (d : α) (m : SMap α) : lean d m = true ↔ ∀ e ∈ m, e.2 ≠ d := by
  simp [lean, List.all_eq_true]

theorem wf_put [DecidableEq α] (d : α) (k : Nat) (v : α) (m : SMap α) (h : wf d m = true) : wf d (put d k v m) = true := by
  simp only [wf, Bool.and_eq_true, lean_iff] at h ⊢
  unfold put
  split
  · exact ⟨sortedFrom_erase k 0 m h.1, fun e he => h.2 e (mem_of_mem_erase he)⟩
  · next hv =>
    refine ⟨sortedFrom_insert k v 0 m (Nat.zero_le _) h.1, fun e he => ?_⟩
    rcases mem_of_mem_insert he with he | he
    · exact he ▸ hv
    · exact h.2 e he

theorem wf_filter [DecidableEq α] (d : α) (p : Nat × α → Bool) (m : SMap α) (h : wf d m = true) : wf d (m.filter p) = true := by
  simp only [wf, Bool.and_eq_true, lean_iff] at h ⊢
  exact ⟨sorted_filter p 0 m h.1, fun e he => h.2 e (List.mem_filter.mp he).1⟩

theorem find_filter_key (p : Nat → Bool) (k : Nat) : ∀ m : SMap α,
    find k (m.filter (fun e => p e.1)) = if p k then find k m else none
  | [] => by simp
  | (j, w) :: t => by
    have ih := find_filter_key p k t
    by_cases hj : p j = true
    · simp only [List.filter_cons, hj, if_true, find, ih]
      by_cases h : j = k
      · subst h; simp [hj]
      · simp [h]
    · by_cases h : j = k
      · subst h; simp [hj, ih]
      · simp [hj, find, h, ih]

end SMap

namespace Mem

/-- Reading back a byte written. -/
@[simp] theorem readByte_writeByte_same (m : Mem) (a : Nat) (b : BitVec 8) : (m.writeByte a b).readByte a = b := SMap.get_put_same _ _ _ _

/-- A byte written leaves every other one. -/
theorem readByte_writeByte_ne (m : Mem) {a c : Nat} (h : c ≠ a) (b : BitVec 8) : (m.writeByte a b).readByte c = m.readByte c :=
  SMap.get_put_ne _ h _ _

/-- The canonical form is kept by a write of one byte. -/
theorem wf_writeByte (m : Mem) (a : Nat) (b : BitVec 8) (h : m.wf = true) : (m.writeByte a b).wf = true := SMap.wf_put _ _ _ _ h

/-- The canonical form is kept by a write of bytes. -/
theorem wf_writeBytes : ∀ (l : List (BitVec 8)) (m : Mem) (a : Nat), m.wf = true → (m.writeBytes a l).wf = true
  | [], _, _, h => h
  | b :: t, m, a, h => wf_writeBytes t (m.writeByte a b) (a + 1) (wf_writeByte m a b h)

/-- A write of bytes leaves what lies below it. -/
theorem readByte_writeBytes_lt : ∀ (l : List (BitVec 8)) (m : Mem) (a c : Nat), c < a → (m.writeBytes a l).readByte c = m.readByte c
  | [], _, _, _, _ => rfl
  | b :: t, m, a, c, h => by
    rw [writeBytes, readByte_writeBytes_lt t _ (a + 1) c (by omega), readByte_writeByte_ne m (by omega)]

/-- A write of bytes puts each at its place and leaves what lies above it. -/
theorem readByte_writeBytes : ∀ (l : List (BitVec 8)) (m : Mem) (a c : Nat), a ≤ c →
    (m.writeBytes a l).readByte c = (l[c - a]?).getD (m.readByte c)
  | [], _, _, _, _ => by simp [writeBytes]
  | b :: t, m, a, c, h => by
    by_cases hc : c = a
    · subst hc; rw [writeBytes, readByte_writeBytes_lt t _ (c + 1) c (by omega)]; simp
    · rw [writeBytes, readByte_writeBytes t _ (a + 1) c (by omega), readByte_writeByte_ne m hc]
      have : c - a = (c - (a + 1)) + 1 := by omega
      rw [this, List.getElem?_cons_succ]

end Mem

end Sys2Proof.Machine
end

