-- ==== Sys2Proof/Laws/State.lean ====
section
/-! SUPPORT. What each small update of State leaves as it was, one lemma per field per update, and what it writes. -/

namespace Sys2Proof.Machine

@[simp] theorem freeNext_pending (s : State) : (freeNext s).2.pending = s.pending := rfl
@[simp] theorem freeNext_regs (s : State) : (freeNext s).2.regs = s.regs := rfl
@[simp] theorem freeNext_gals (s : State) : (freeNext s).2.gals = s.gals := rfl
@[simp] theorem freeNext_queues (s : State) : (freeNext s).2.queues = s.queues := rfl
@[simp] theorem freeNext_ran (s : State) : (freeNext s).2.ran = s.ran := rfl
@[simp] theorem freeNext_pegs (s : State) : (freeNext s).2.pegs = s.pegs := rfl
@[simp] theorem freeNext_pegRefs (s : State) : (freeNext s).2.pegRefs = s.pegRefs := rfl
@[simp] theorem freeNext_nextRef (s : State) : (freeNext s).2.nextRef = s.nextRef := rfl
@[simp] theorem freeNext_fence (s : State) : (freeNext s).2.fence = s.fence := rfl
@[simp] theorem freeNext_lostDevs (s : State) : (freeNext s).2.lostDevs = s.lostDevs := rfl
@[simp] theorem freeNext_recovery (s : State) : (freeNext s).2.recovery = s.recovery := rfl
@[simp] theorem freeNext_twin (s : State) : (freeNext s).2.twin = s.twin := rfl
@[simp] theorem freeNext_ec (s : State) : (freeNext s).2.ec = s.ec := rfl
@[simp] theorem freeNext_host (s : State) : (freeNext s).2.host = s.host := rfl
@[simp] theorem freeNext_ctxs (s : State) : (freeNext s).2.ctxs = s.ctxs := rfl
@[simp] theorem freeNext_links (s : State) : (freeNext s).2.links = s.links := rfl
@[simp] theorem freeNext_router (s : State) : (freeNext s).2.router = s.router := rfl
@[simp] theorem freeNext_power (s : State) : (freeNext s).2.power = s.power := rfl
@[simp] theorem freeNext_monitors (s : State) : (freeNext s).2.monitors = s.monitors := rfl
@[simp] theorem freeNext_boot (s : State) : (freeNext s).2.boot = s.boot := rfl
@[simp] theorem freeNext_mem (s : State) : (freeNext s).2.mem = s.mem := rfl
@[simp] theorem freeNext_gauge (s : State) : (freeNext s).2.gauge = s.gauge := rfl
@[simp] theorem freeNext_silent (s : State) : (freeNext s).2.silent = s.silent := rfl
@[simp] theorem freeNext_digests (s : State) : (freeNext s).2.digests = s.digests := rfl
@[simp] theorem freeNext_early (s : State) : (freeNext s).2.early = s.early := rfl
@[simp] theorem freeNext_update (s : State) : (freeNext s).2.update = s.update := rfl
@[simp] theorem freeNext_out (s : State) : (freeNext s).2.out = s.out := rfl

@[simp] theorem putCtx_pending (s : State) (n : Nat) (c : Ctx) : (putCtx s n c).pending = s.pending := rfl
@[simp] theorem putCtx_freeCtr (s : State) (n : Nat) (c : Ctx) : (putCtx s n c).freeCtr = s.freeCtr := rfl
@[simp] theorem putCtx_regs (s : State) (n : Nat) (c : Ctx) : (putCtx s n c).regs = s.regs := rfl
@[simp] theorem putCtx_gals (s : State) (n : Nat) (c : Ctx) : (putCtx s n c).gals = s.gals := rfl
@[simp] theorem putCtx_queues (s : State) (n : Nat) (c : Ctx) : (putCtx s n c).queues = s.queues := rfl
@[simp] theorem putCtx_ran (s : State) (n : Nat) (c : Ctx) : (putCtx s n c).ran = s.ran := rfl
@[simp] theorem putCtx_pegs (s : State) (n : Nat) (c : Ctx) : (putCtx s n c).pegs = s.pegs := rfl
@[simp] theorem putCtx_pegRefs (s : State) (n : Nat) (c : Ctx) : (putCtx s n c).pegRefs = s.pegRefs := rfl
@[simp] theorem putCtx_nextRef (s : State) (n : Nat) (c : Ctx) : (putCtx s n c).nextRef = s.nextRef := rfl
@[simp] theorem putCtx_fence (s : State) (n : Nat) (c : Ctx) : (putCtx s n c).fence = s.fence := rfl
@[simp] theorem putCtx_lostDevs (s : State) (n : Nat) (c : Ctx) : (putCtx s n c).lostDevs = s.lostDevs := rfl
@[simp] theorem putCtx_recovery (s : State) (n : Nat) (c : Ctx) : (putCtx s n c).recovery = s.recovery := rfl
@[simp] theorem putCtx_twin (s : State) (n : Nat) (c : Ctx) : (putCtx s n c).twin = s.twin := rfl
@[simp] theorem putCtx_ec (s : State) (n : Nat) (c : Ctx) : (putCtx s n c).ec = s.ec := rfl
@[simp] theorem putCtx_host (s : State) (n : Nat) (c : Ctx) : (putCtx s n c).host = s.host := rfl
@[simp] theorem putCtx_links (s : State) (n : Nat) (c : Ctx) : (putCtx s n c).links = s.links := rfl
@[simp] theorem putCtx_router (s : State) (n : Nat) (c : Ctx) : (putCtx s n c).router = s.router := rfl
@[simp] theorem putCtx_power (s : State) (n : Nat) (c : Ctx) : (putCtx s n c).power = s.power := rfl
@[simp] theorem putCtx_monitors (s : State) (n : Nat) (c : Ctx) : (putCtx s n c).monitors = s.monitors := rfl
@[simp] theorem putCtx_boot (s : State) (n : Nat) (c : Ctx) : (putCtx s n c).boot = s.boot := rfl
@[simp] theorem putCtx_mem (s : State) (n : Nat) (c : Ctx) : (putCtx s n c).mem = s.mem := rfl
@[simp] theorem putCtx_gauge (s : State) (n : Nat) (c : Ctx) : (putCtx s n c).gauge = s.gauge := rfl
@[simp] theorem putCtx_silent (s : State) (n : Nat) (c : Ctx) : (putCtx s n c).silent = s.silent := rfl
@[simp] theorem putCtx_digests (s : State) (n : Nat) (c : Ctx) : (putCtx s n c).digests = s.digests := rfl
@[simp] theorem putCtx_early (s : State) (n : Nat) (c : Ctx) : (putCtx s n c).early = s.early := rfl
@[simp] theorem putCtx_update (s : State) (n : Nat) (c : Ctx) : (putCtx s n c).update = s.update := rfl
@[simp] theorem putCtx_out (s : State) (n : Nat) (c : Ctx) : (putCtx s n c).out = s.out := rfl

@[simp] theorem modCtx_pending (s : State) (n : Nat) (f : Ctx → Ctx) : (modCtx s n f).pending = s.pending := rfl
@[simp] theorem modCtx_freeCtr (s : State) (n : Nat) (f : Ctx → Ctx) : (modCtx s n f).freeCtr = s.freeCtr := rfl
@[simp] theorem modCtx_regs (s : State) (n : Nat) (f : Ctx → Ctx) : (modCtx s n f).regs = s.regs := rfl
@[simp] theorem modCtx_gals (s : State) (n : Nat) (f : Ctx → Ctx) : (modCtx s n f).gals = s.gals := rfl
@[simp] theorem modCtx_queues (s : State) (n : Nat) (f : Ctx → Ctx) : (modCtx s n f).queues = s.queues := rfl
@[simp] theorem modCtx_ran (s : State) (n : Nat) (f : Ctx → Ctx) : (modCtx s n f).ran = s.ran := rfl
@[simp] theorem modCtx_pegs (s : State) (n : Nat) (f : Ctx → Ctx) : (modCtx s n f).pegs = s.pegs := rfl
@[simp] theorem modCtx_pegRefs (s : State) (n : Nat) (f : Ctx → Ctx) : (modCtx s n f).pegRefs = s.pegRefs := rfl
@[simp] theorem modCtx_nextRef (s : State) (n : Nat) (f : Ctx → Ctx) : (modCtx s n f).nextRef = s.nextRef := rfl
@[simp] theorem modCtx_fence (s : State) (n : Nat) (f : Ctx → Ctx) : (modCtx s n f).fence = s.fence := rfl
@[simp] theorem modCtx_lostDevs (s : State) (n : Nat) (f : Ctx → Ctx) : (modCtx s n f).lostDevs = s.lostDevs := rfl
@[simp] theorem modCtx_recovery (s : State) (n : Nat) (f : Ctx → Ctx) : (modCtx s n f).recovery = s.recovery := rfl
@[simp] theorem modCtx_twin (s : State) (n : Nat) (f : Ctx → Ctx) : (modCtx s n f).twin = s.twin := rfl
@[simp] theorem modCtx_ec (s : State) (n : Nat) (f : Ctx → Ctx) : (modCtx s n f).ec = s.ec := rfl
@[simp] theorem modCtx_host (s : State) (n : Nat) (f : Ctx → Ctx) : (modCtx s n f).host = s.host := rfl
@[simp] theorem modCtx_links (s : State) (n : Nat) (f : Ctx → Ctx) : (modCtx s n f).links = s.links := rfl
@[simp] theorem modCtx_router (s : State) (n : Nat) (f : Ctx → Ctx) : (modCtx s n f).router = s.router := rfl
@[simp] theorem modCtx_power (s : State) (n : Nat) (f : Ctx → Ctx) : (modCtx s n f).power = s.power := rfl
@[simp] theorem modCtx_monitors (s : State) (n : Nat) (f : Ctx → Ctx) : (modCtx s n f).monitors = s.monitors := rfl
@[simp] theorem modCtx_boot (s : State) (n : Nat) (f : Ctx → Ctx) : (modCtx s n f).boot = s.boot := rfl
@[simp] theorem modCtx_mem (s : State) (n : Nat) (f : Ctx → Ctx) : (modCtx s n f).mem = s.mem := rfl
@[simp] theorem modCtx_gauge (s : State) (n : Nat) (f : Ctx → Ctx) : (modCtx s n f).gauge = s.gauge := rfl
@[simp] theorem modCtx_silent (s : State) (n : Nat) (f : Ctx → Ctx) : (modCtx s n f).silent = s.silent := rfl
@[simp] theorem modCtx_digests (s : State) (n : Nat) (f : Ctx → Ctx) : (modCtx s n f).digests = s.digests := rfl
@[simp] theorem modCtx_early (s : State) (n : Nat) (f : Ctx → Ctx) : (modCtx s n f).early = s.early := rfl
@[simp] theorem modCtx_update (s : State) (n : Nat) (f : Ctx → Ctx) : (modCtx s n f).update = s.update := rfl
@[simp] theorem modCtx_out (s : State) (n : Nat) (f : Ctx → Ctx) : (modCtx s n f).out = s.out := rfl

@[simp] theorem putGal_pending (s : State) (k : Nat) (g : Gallery) : (putGal s k g).pending = s.pending := rfl
@[simp] theorem putGal_freeCtr (s : State) (k : Nat) (g : Gallery) : (putGal s k g).freeCtr = s.freeCtr := rfl
@[simp] theorem putGal_regs (s : State) (k : Nat) (g : Gallery) : (putGal s k g).regs = s.regs := rfl
@[simp] theorem putGal_queues (s : State) (k : Nat) (g : Gallery) : (putGal s k g).queues = s.queues := rfl
@[simp] theorem putGal_ran (s : State) (k : Nat) (g : Gallery) : (putGal s k g).ran = s.ran := rfl
@[simp] theorem putGal_pegs (s : State) (k : Nat) (g : Gallery) : (putGal s k g).pegs = s.pegs := rfl
@[simp] theorem putGal_pegRefs (s : State) (k : Nat) (g : Gallery) : (putGal s k g).pegRefs = s.pegRefs := rfl
@[simp] theorem putGal_nextRef (s : State) (k : Nat) (g : Gallery) : (putGal s k g).nextRef = s.nextRef := rfl
@[simp] theorem putGal_fence (s : State) (k : Nat) (g : Gallery) : (putGal s k g).fence = s.fence := rfl
@[simp] theorem putGal_lostDevs (s : State) (k : Nat) (g : Gallery) : (putGal s k g).lostDevs = s.lostDevs := rfl
@[simp] theorem putGal_recovery (s : State) (k : Nat) (g : Gallery) : (putGal s k g).recovery = s.recovery := rfl
@[simp] theorem putGal_twin (s : State) (k : Nat) (g : Gallery) : (putGal s k g).twin = s.twin := rfl
@[simp] theorem putGal_ec (s : State) (k : Nat) (g : Gallery) : (putGal s k g).ec = s.ec := rfl
@[simp] theorem putGal_host (s : State) (k : Nat) (g : Gallery) : (putGal s k g).host = s.host := rfl
@[simp] theorem putGal_ctxs (s : State) (k : Nat) (g : Gallery) : (putGal s k g).ctxs = s.ctxs := rfl
@[simp] theorem putGal_links (s : State) (k : Nat) (g : Gallery) : (putGal s k g).links = s.links := rfl
@[simp] theorem putGal_router (s : State) (k : Nat) (g : Gallery) : (putGal s k g).router = s.router := rfl
@[simp] theorem putGal_power (s : State) (k : Nat) (g : Gallery) : (putGal s k g).power = s.power := rfl
@[simp] theorem putGal_monitors (s : State) (k : Nat) (g : Gallery) : (putGal s k g).monitors = s.monitors := rfl
@[simp] theorem putGal_boot (s : State) (k : Nat) (g : Gallery) : (putGal s k g).boot = s.boot := rfl
@[simp] theorem putGal_mem (s : State) (k : Nat) (g : Gallery) : (putGal s k g).mem = s.mem := rfl
@[simp] theorem putGal_gauge (s : State) (k : Nat) (g : Gallery) : (putGal s k g).gauge = s.gauge := rfl
@[simp] theorem putGal_silent (s : State) (k : Nat) (g : Gallery) : (putGal s k g).silent = s.silent := rfl
@[simp] theorem putGal_digests (s : State) (k : Nat) (g : Gallery) : (putGal s k g).digests = s.digests := rfl
@[simp] theorem putGal_early (s : State) (k : Nat) (g : Gallery) : (putGal s k g).early = s.early := rfl
@[simp] theorem putGal_update (s : State) (k : Nat) (g : Gallery) : (putGal s k g).update = s.update := rfl
@[simp] theorem putGal_out (s : State) (k : Nat) (g : Gallery) : (putGal s k g).out = s.out := rfl

@[simp] theorem modGal_pending (s : State) (k : Nat) (f : Gallery → Gallery) : (modGal s k f).pending = s.pending := rfl
@[simp] theorem modGal_freeCtr (s : State) (k : Nat) (f : Gallery → Gallery) : (modGal s k f).freeCtr = s.freeCtr := rfl
@[simp] theorem modGal_regs (s : State) (k : Nat) (f : Gallery → Gallery) : (modGal s k f).regs = s.regs := rfl
@[simp] theorem modGal_queues (s : State) (k : Nat) (f : Gallery → Gallery) : (modGal s k f).queues = s.queues := rfl
@[simp] theorem modGal_ran (s : State) (k : Nat) (f : Gallery → Gallery) : (modGal s k f).ran = s.ran := rfl
@[simp] theorem modGal_pegs (s : State) (k : Nat) (f : Gallery → Gallery) : (modGal s k f).pegs = s.pegs := rfl
@[simp] theorem modGal_pegRefs (s : State) (k : Nat) (f : Gallery → Gallery) : (modGal s k f).pegRefs = s.pegRefs := rfl
@[simp] theorem modGal_nextRef (s : State) (k : Nat) (f : Gallery → Gallery) : (modGal s k f).nextRef = s.nextRef := rfl
@[simp] theorem modGal_fence (s : State) (k : Nat) (f : Gallery → Gallery) : (modGal s k f).fence = s.fence := rfl
@[simp] theorem modGal_lostDevs (s : State) (k : Nat) (f : Gallery → Gallery) : (modGal s k f).lostDevs = s.lostDevs := rfl
@[simp] theorem modGal_recovery (s : State) (k : Nat) (f : Gallery → Gallery) : (modGal s k f).recovery = s.recovery := rfl
@[simp] theorem modGal_twin (s : State) (k : Nat) (f : Gallery → Gallery) : (modGal s k f).twin = s.twin := rfl
@[simp] theorem modGal_ec (s : State) (k : Nat) (f : Gallery → Gallery) : (modGal s k f).ec = s.ec := rfl
@[simp] theorem modGal_host (s : State) (k : Nat) (f : Gallery → Gallery) : (modGal s k f).host = s.host := rfl
@[simp] theorem modGal_ctxs (s : State) (k : Nat) (f : Gallery → Gallery) : (modGal s k f).ctxs = s.ctxs := rfl
@[simp] theorem modGal_links (s : State) (k : Nat) (f : Gallery → Gallery) : (modGal s k f).links = s.links := rfl
@[simp] theorem modGal_router (s : State) (k : Nat) (f : Gallery → Gallery) : (modGal s k f).router = s.router := rfl
@[simp] theorem modGal_power (s : State) (k : Nat) (f : Gallery → Gallery) : (modGal s k f).power = s.power := rfl
@[simp] theorem modGal_monitors (s : State) (k : Nat) (f : Gallery → Gallery) : (modGal s k f).monitors = s.monitors := rfl
@[simp] theorem modGal_boot (s : State) (k : Nat) (f : Gallery → Gallery) : (modGal s k f).boot = s.boot := rfl
@[simp] theorem modGal_mem (s : State) (k : Nat) (f : Gallery → Gallery) : (modGal s k f).mem = s.mem := rfl
@[simp] theorem modGal_gauge (s : State) (k : Nat) (f : Gallery → Gallery) : (modGal s k f).gauge = s.gauge := rfl
@[simp] theorem modGal_silent (s : State) (k : Nat) (f : Gallery → Gallery) : (modGal s k f).silent = s.silent := rfl
@[simp] theorem modGal_digests (s : State) (k : Nat) (f : Gallery → Gallery) : (modGal s k f).digests = s.digests := rfl
@[simp] theorem modGal_early (s : State) (k : Nat) (f : Gallery → Gallery) : (modGal s k f).early = s.early := rfl
@[simp] theorem modGal_update (s : State) (k : Nat) (f : Gallery → Gallery) : (modGal s k f).update = s.update := rfl
@[simp] theorem modGal_out (s : State) (k : Nat) (f : Gallery → Gallery) : (modGal s k f).out = s.out := rfl

@[simp] theorem regSet_pending (s : State) (p : Page) (o v : Nat) : (regSet s p o v).pending = s.pending := rfl
@[simp] theorem regSet_freeCtr (s : State) (p : Page) (o v : Nat) : (regSet s p o v).freeCtr = s.freeCtr := rfl
@[simp] theorem regSet_gals (s : State) (p : Page) (o v : Nat) : (regSet s p o v).gals = s.gals := rfl
@[simp] theorem regSet_queues (s : State) (p : Page) (o v : Nat) : (regSet s p o v).queues = s.queues := rfl
@[simp] theorem regSet_ran (s : State) (p : Page) (o v : Nat) : (regSet s p o v).ran = s.ran := rfl
@[simp] theorem regSet_pegs (s : State) (p : Page) (o v : Nat) : (regSet s p o v).pegs = s.pegs := rfl
@[simp] theorem regSet_pegRefs (s : State) (p : Page) (o v : Nat) : (regSet s p o v).pegRefs = s.pegRefs := rfl
@[simp] theorem regSet_nextRef (s : State) (p : Page) (o v : Nat) : (regSet s p o v).nextRef = s.nextRef := rfl
@[simp] theorem regSet_fence (s : State) (p : Page) (o v : Nat) : (regSet s p o v).fence = s.fence := rfl
@[simp] theorem regSet_lostDevs (s : State) (p : Page) (o v : Nat) : (regSet s p o v).lostDevs = s.lostDevs := rfl
@[simp] theorem regSet_recovery (s : State) (p : Page) (o v : Nat) : (regSet s p o v).recovery = s.recovery := rfl
@[simp] theorem regSet_twin (s : State) (p : Page) (o v : Nat) : (regSet s p o v).twin = s.twin := rfl
@[simp] theorem regSet_ec (s : State) (p : Page) (o v : Nat) : (regSet s p o v).ec = s.ec := rfl
@[simp] theorem regSet_host (s : State) (p : Page) (o v : Nat) : (regSet s p o v).host = s.host := rfl
@[simp] theorem regSet_ctxs (s : State) (p : Page) (o v : Nat) : (regSet s p o v).ctxs = s.ctxs := rfl
@[simp] theorem regSet_links (s : State) (p : Page) (o v : Nat) : (regSet s p o v).links = s.links := rfl
@[simp] theorem regSet_router (s : State) (p : Page) (o v : Nat) : (regSet s p o v).router = s.router := rfl
@[simp] theorem regSet_power (s : State) (p : Page) (o v : Nat) : (regSet s p o v).power = s.power := rfl
@[simp] theorem regSet_monitors (s : State) (p : Page) (o v : Nat) : (regSet s p o v).monitors = s.monitors := rfl
@[simp] theorem regSet_boot (s : State) (p : Page) (o v : Nat) : (regSet s p o v).boot = s.boot := rfl
@[simp] theorem regSet_mem (s : State) (p : Page) (o v : Nat) : (regSet s p o v).mem = s.mem := rfl
@[simp] theorem regSet_gauge (s : State) (p : Page) (o v : Nat) : (regSet s p o v).gauge = s.gauge := rfl
@[simp] theorem regSet_silent (s : State) (p : Page) (o v : Nat) : (regSet s p o v).silent = s.silent := rfl
@[simp] theorem regSet_digests (s : State) (p : Page) (o v : Nat) : (regSet s p o v).digests = s.digests := rfl
@[simp] theorem regSet_early (s : State) (p : Page) (o v : Nat) : (regSet s p o v).early = s.early := rfl
@[simp] theorem regSet_update (s : State) (p : Page) (o v : Nat) : (regSet s p o v).update = s.update := rfl
@[simp] theorem regSet_out (s : State) (p : Page) (o v : Nat) : (regSet s p o v).out = s.out := rfl

@[simp] theorem shadowSet_pending (s : State) (p : Page) (o v : Nat) : (shadowSet s p o v).pending = s.pending := rfl
@[simp] theorem shadowSet_freeCtr (s : State) (p : Page) (o v : Nat) : (shadowSet s p o v).freeCtr = s.freeCtr := rfl
@[simp] theorem shadowSet_gals (s : State) (p : Page) (o v : Nat) : (shadowSet s p o v).gals = s.gals := rfl
@[simp] theorem shadowSet_queues (s : State) (p : Page) (o v : Nat) : (shadowSet s p o v).queues = s.queues := rfl
@[simp] theorem shadowSet_ran (s : State) (p : Page) (o v : Nat) : (shadowSet s p o v).ran = s.ran := rfl
@[simp] theorem shadowSet_pegs (s : State) (p : Page) (o v : Nat) : (shadowSet s p o v).pegs = s.pegs := rfl
@[simp] theorem shadowSet_pegRefs (s : State) (p : Page) (o v : Nat) : (shadowSet s p o v).pegRefs = s.pegRefs := rfl
@[simp] theorem shadowSet_nextRef (s : State) (p : Page) (o v : Nat) : (shadowSet s p o v).nextRef = s.nextRef := rfl
@[simp] theorem shadowSet_fence (s : State) (p : Page) (o v : Nat) : (shadowSet s p o v).fence = s.fence := rfl
@[simp] theorem shadowSet_lostDevs (s : State) (p : Page) (o v : Nat) : (shadowSet s p o v).lostDevs = s.lostDevs := rfl
@[simp] theorem shadowSet_recovery (s : State) (p : Page) (o v : Nat) : (shadowSet s p o v).recovery = s.recovery := rfl
@[simp] theorem shadowSet_twin (s : State) (p : Page) (o v : Nat) : (shadowSet s p o v).twin = s.twin := rfl
@[simp] theorem shadowSet_ec (s : State) (p : Page) (o v : Nat) : (shadowSet s p o v).ec = s.ec := rfl
@[simp] theorem shadowSet_host (s : State) (p : Page) (o v : Nat) : (shadowSet s p o v).host = s.host := rfl
@[simp] theorem shadowSet_ctxs (s : State) (p : Page) (o v : Nat) : (shadowSet s p o v).ctxs = s.ctxs := rfl
@[simp] theorem shadowSet_links (s : State) (p : Page) (o v : Nat) : (shadowSet s p o v).links = s.links := rfl
@[simp] theorem shadowSet_router (s : State) (p : Page) (o v : Nat) : (shadowSet s p o v).router = s.router := rfl
@[simp] theorem shadowSet_power (s : State) (p : Page) (o v : Nat) : (shadowSet s p o v).power = s.power := rfl
@[simp] theorem shadowSet_monitors (s : State) (p : Page) (o v : Nat) : (shadowSet s p o v).monitors = s.monitors := rfl
@[simp] theorem shadowSet_boot (s : State) (p : Page) (o v : Nat) : (shadowSet s p o v).boot = s.boot := rfl
@[simp] theorem shadowSet_mem (s : State) (p : Page) (o v : Nat) : (shadowSet s p o v).mem = s.mem := rfl
@[simp] theorem shadowSet_gauge (s : State) (p : Page) (o v : Nat) : (shadowSet s p o v).gauge = s.gauge := rfl
@[simp] theorem shadowSet_silent (s : State) (p : Page) (o v : Nat) : (shadowSet s p o v).silent = s.silent := rfl
@[simp] theorem shadowSet_digests (s : State) (p : Page) (o v : Nat) : (shadowSet s p o v).digests = s.digests := rfl
@[simp] theorem shadowSet_early (s : State) (p : Page) (o v : Nat) : (shadowSet s p o v).early = s.early := rfl
@[simp] theorem shadowSet_update (s : State) (p : Page) (o v : Nat) : (shadowSet s p o v).update = s.update := rfl
@[simp] theorem shadowSet_out (s : State) (p : Page) (o v : Nat) : (shadowSet s p o v).out = s.out := rfl

@[simp] theorem setFld_pending (s : State) (p : Page) (o hi lo v : Nat) : (setFld s p o hi lo v).pending = s.pending := rfl
@[simp] theorem setFld_freeCtr (s : State) (p : Page) (o hi lo v : Nat) : (setFld s p o hi lo v).freeCtr = s.freeCtr := rfl
@[simp] theorem setFld_gals (s : State) (p : Page) (o hi lo v : Nat) : (setFld s p o hi lo v).gals = s.gals := rfl
@[simp] theorem setFld_queues (s : State) (p : Page) (o hi lo v : Nat) : (setFld s p o hi lo v).queues = s.queues := rfl
@[simp] theorem setFld_ran (s : State) (p : Page) (o hi lo v : Nat) : (setFld s p o hi lo v).ran = s.ran := rfl
@[simp] theorem setFld_pegs (s : State) (p : Page) (o hi lo v : Nat) : (setFld s p o hi lo v).pegs = s.pegs := rfl
@[simp] theorem setFld_pegRefs (s : State) (p : Page) (o hi lo v : Nat) : (setFld s p o hi lo v).pegRefs = s.pegRefs := rfl
@[simp] theorem setFld_nextRef (s : State) (p : Page) (o hi lo v : Nat) : (setFld s p o hi lo v).nextRef = s.nextRef := rfl
@[simp] theorem setFld_fence (s : State) (p : Page) (o hi lo v : Nat) : (setFld s p o hi lo v).fence = s.fence := rfl
@[simp] theorem setFld_lostDevs (s : State) (p : Page) (o hi lo v : Nat) : (setFld s p o hi lo v).lostDevs = s.lostDevs := rfl
@[simp] theorem setFld_recovery (s : State) (p : Page) (o hi lo v : Nat) : (setFld s p o hi lo v).recovery = s.recovery := rfl
@[simp] theorem setFld_twin (s : State) (p : Page) (o hi lo v : Nat) : (setFld s p o hi lo v).twin = s.twin := rfl
@[simp] theorem setFld_ec (s : State) (p : Page) (o hi lo v : Nat) : (setFld s p o hi lo v).ec = s.ec := rfl
@[simp] theorem setFld_host (s : State) (p : Page) (o hi lo v : Nat) : (setFld s p o hi lo v).host = s.host := rfl
@[simp] theorem setFld_ctxs (s : State) (p : Page) (o hi lo v : Nat) : (setFld s p o hi lo v).ctxs = s.ctxs := rfl
@[simp] theorem setFld_links (s : State) (p : Page) (o hi lo v : Nat) : (setFld s p o hi lo v).links = s.links := rfl
@[simp] theorem setFld_router (s : State) (p : Page) (o hi lo v : Nat) : (setFld s p o hi lo v).router = s.router := rfl
@[simp] theorem setFld_power (s : State) (p : Page) (o hi lo v : Nat) : (setFld s p o hi lo v).power = s.power := rfl
@[simp] theorem setFld_monitors (s : State) (p : Page) (o hi lo v : Nat) : (setFld s p o hi lo v).monitors = s.monitors := rfl
@[simp] theorem setFld_boot (s : State) (p : Page) (o hi lo v : Nat) : (setFld s p o hi lo v).boot = s.boot := rfl
@[simp] theorem setFld_mem (s : State) (p : Page) (o hi lo v : Nat) : (setFld s p o hi lo v).mem = s.mem := rfl
@[simp] theorem setFld_gauge (s : State) (p : Page) (o hi lo v : Nat) : (setFld s p o hi lo v).gauge = s.gauge := rfl
@[simp] theorem setFld_silent (s : State) (p : Page) (o hi lo v : Nat) : (setFld s p o hi lo v).silent = s.silent := rfl
@[simp] theorem setFld_digests (s : State) (p : Page) (o hi lo v : Nat) : (setFld s p o hi lo v).digests = s.digests := rfl
@[simp] theorem setFld_early (s : State) (p : Page) (o hi lo v : Nat) : (setFld s p o hi lo v).early = s.early := rfl
@[simp] theorem setFld_update (s : State) (p : Page) (o hi lo v : Nat) : (setFld s p o hi lo v).update = s.update := rfl
@[simp] theorem setFld_out (s : State) (p : Page) (o hi lo v : Nat) : (setFld s p o hi lo v).out = s.out := rfl

@[simp] theorem putSwing_pending (s : State) (p : Page) (w : Swing) : (putSwing s p w).pending = s.pending := rfl
@[simp] theorem putSwing_freeCtr (s : State) (p : Page) (w : Swing) : (putSwing s p w).freeCtr = s.freeCtr := rfl
@[simp] theorem putSwing_gals (s : State) (p : Page) (w : Swing) : (putSwing s p w).gals = s.gals := rfl
@[simp] theorem putSwing_queues (s : State) (p : Page) (w : Swing) : (putSwing s p w).queues = s.queues := rfl
@[simp] theorem putSwing_ran (s : State) (p : Page) (w : Swing) : (putSwing s p w).ran = s.ran := rfl
@[simp] theorem putSwing_pegs (s : State) (p : Page) (w : Swing) : (putSwing s p w).pegs = s.pegs := rfl
@[simp] theorem putSwing_pegRefs (s : State) (p : Page) (w : Swing) : (putSwing s p w).pegRefs = s.pegRefs := rfl
@[simp] theorem putSwing_nextRef (s : State) (p : Page) (w : Swing) : (putSwing s p w).nextRef = s.nextRef := rfl
@[simp] theorem putSwing_fence (s : State) (p : Page) (w : Swing) : (putSwing s p w).fence = s.fence := rfl
@[simp] theorem putSwing_lostDevs (s : State) (p : Page) (w : Swing) : (putSwing s p w).lostDevs = s.lostDevs := rfl
@[simp] theorem putSwing_recovery (s : State) (p : Page) (w : Swing) : (putSwing s p w).recovery = s.recovery := rfl
@[simp] theorem putSwing_twin (s : State) (p : Page) (w : Swing) : (putSwing s p w).twin = s.twin := rfl
@[simp] theorem putSwing_ec (s : State) (p : Page) (w : Swing) : (putSwing s p w).ec = s.ec := rfl
@[simp] theorem putSwing_host (s : State) (p : Page) (w : Swing) : (putSwing s p w).host = s.host := rfl
@[simp] theorem putSwing_ctxs (s : State) (p : Page) (w : Swing) : (putSwing s p w).ctxs = s.ctxs := rfl
@[simp] theorem putSwing_links (s : State) (p : Page) (w : Swing) : (putSwing s p w).links = s.links := rfl
@[simp] theorem putSwing_router (s : State) (p : Page) (w : Swing) : (putSwing s p w).router = s.router := rfl
@[simp] theorem putSwing_power (s : State) (p : Page) (w : Swing) : (putSwing s p w).power = s.power := rfl
@[simp] theorem putSwing_monitors (s : State) (p : Page) (w : Swing) : (putSwing s p w).monitors = s.monitors := rfl
@[simp] theorem putSwing_boot (s : State) (p : Page) (w : Swing) : (putSwing s p w).boot = s.boot := rfl
@[simp] theorem putSwing_mem (s : State) (p : Page) (w : Swing) : (putSwing s p w).mem = s.mem := rfl
@[simp] theorem putSwing_gauge (s : State) (p : Page) (w : Swing) : (putSwing s p w).gauge = s.gauge := rfl
@[simp] theorem putSwing_silent (s : State) (p : Page) (w : Swing) : (putSwing s p w).silent = s.silent := rfl
@[simp] theorem putSwing_digests (s : State) (p : Page) (w : Swing) : (putSwing s p w).digests = s.digests := rfl
@[simp] theorem putSwing_early (s : State) (p : Page) (w : Swing) : (putSwing s p w).early = s.early := rfl
@[simp] theorem putSwing_update (s : State) (p : Page) (w : Swing) : (putSwing s p w).update = s.update := rfl
@[simp] theorem putSwing_out (s : State) (p : Page) (w : Swing) : (putSwing s p w).out = s.out := rfl

@[simp] theorem putGroup_pending (s : State) (n : Nat) (g : SwingGroup) : (putGroup s n g).pending = s.pending := rfl
@[simp] theorem putGroup_freeCtr (s : State) (n : Nat) (g : SwingGroup) : (putGroup s n g).freeCtr = s.freeCtr := rfl
@[simp] theorem putGroup_gals (s : State) (n : Nat) (g : SwingGroup) : (putGroup s n g).gals = s.gals := rfl
@[simp] theorem putGroup_queues (s : State) (n : Nat) (g : SwingGroup) : (putGroup s n g).queues = s.queues := rfl
@[simp] theorem putGroup_ran (s : State) (n : Nat) (g : SwingGroup) : (putGroup s n g).ran = s.ran := rfl
@[simp] theorem putGroup_pegs (s : State) (n : Nat) (g : SwingGroup) : (putGroup s n g).pegs = s.pegs := rfl
@[simp] theorem putGroup_pegRefs (s : State) (n : Nat) (g : SwingGroup) : (putGroup s n g).pegRefs = s.pegRefs := rfl
@[simp] theorem putGroup_nextRef (s : State) (n : Nat) (g : SwingGroup) : (putGroup s n g).nextRef = s.nextRef := rfl
@[simp] theorem putGroup_fence (s : State) (n : Nat) (g : SwingGroup) : (putGroup s n g).fence = s.fence := rfl
@[simp] theorem putGroup_lostDevs (s : State) (n : Nat) (g : SwingGroup) : (putGroup s n g).lostDevs = s.lostDevs := rfl
@[simp] theorem putGroup_recovery (s : State) (n : Nat) (g : SwingGroup) : (putGroup s n g).recovery = s.recovery := rfl
@[simp] theorem putGroup_twin (s : State) (n : Nat) (g : SwingGroup) : (putGroup s n g).twin = s.twin := rfl
@[simp] theorem putGroup_ec (s : State) (n : Nat) (g : SwingGroup) : (putGroup s n g).ec = s.ec := rfl
@[simp] theorem putGroup_host (s : State) (n : Nat) (g : SwingGroup) : (putGroup s n g).host = s.host := rfl
@[simp] theorem putGroup_ctxs (s : State) (n : Nat) (g : SwingGroup) : (putGroup s n g).ctxs = s.ctxs := rfl
@[simp] theorem putGroup_links (s : State) (n : Nat) (g : SwingGroup) : (putGroup s n g).links = s.links := rfl
@[simp] theorem putGroup_router (s : State) (n : Nat) (g : SwingGroup) : (putGroup s n g).router = s.router := rfl
@[simp] theorem putGroup_power (s : State) (n : Nat) (g : SwingGroup) : (putGroup s n g).power = s.power := rfl
@[simp] theorem putGroup_monitors (s : State) (n : Nat) (g : SwingGroup) : (putGroup s n g).monitors = s.monitors := rfl
@[simp] theorem putGroup_boot (s : State) (n : Nat) (g : SwingGroup) : (putGroup s n g).boot = s.boot := rfl
@[simp] theorem putGroup_mem (s : State) (n : Nat) (g : SwingGroup) : (putGroup s n g).mem = s.mem := rfl
@[simp] theorem putGroup_gauge (s : State) (n : Nat) (g : SwingGroup) : (putGroup s n g).gauge = s.gauge := rfl
@[simp] theorem putGroup_silent (s : State) (n : Nat) (g : SwingGroup) : (putGroup s n g).silent = s.silent := rfl
@[simp] theorem putGroup_digests (s : State) (n : Nat) (g : SwingGroup) : (putGroup s n g).digests = s.digests := rfl
@[simp] theorem putGroup_early (s : State) (n : Nat) (g : SwingGroup) : (putGroup s n g).early = s.early := rfl
@[simp] theorem putGroup_update (s : State) (n : Nat) (g : SwingGroup) : (putGroup s n g).update = s.update := rfl
@[simp] theorem putGroup_out (s : State) (n : Nat) (g : SwingGroup) : (putGroup s n g).out = s.out := rfl

@[simp] theorem putSrc_pending (s : State) (n : Nat) (x : Source) : (putSrc s n x).pending = s.pending := rfl
@[simp] theorem putSrc_freeCtr (s : State) (n : Nat) (x : Source) : (putSrc s n x).freeCtr = s.freeCtr := rfl
@[simp] theorem putSrc_regs (s : State) (n : Nat) (x : Source) : (putSrc s n x).regs = s.regs := rfl
@[simp] theorem putSrc_gals (s : State) (n : Nat) (x : Source) : (putSrc s n x).gals = s.gals := rfl
@[simp] theorem putSrc_queues (s : State) (n : Nat) (x : Source) : (putSrc s n x).queues = s.queues := rfl
@[simp] theorem putSrc_ran (s : State) (n : Nat) (x : Source) : (putSrc s n x).ran = s.ran := rfl
@[simp] theorem putSrc_pegs (s : State) (n : Nat) (x : Source) : (putSrc s n x).pegs = s.pegs := rfl
@[simp] theorem putSrc_pegRefs (s : State) (n : Nat) (x : Source) : (putSrc s n x).pegRefs = s.pegRefs := rfl
@[simp] theorem putSrc_nextRef (s : State) (n : Nat) (x : Source) : (putSrc s n x).nextRef = s.nextRef := rfl
@[simp] theorem putSrc_fence (s : State) (n : Nat) (x : Source) : (putSrc s n x).fence = s.fence := rfl
@[simp] theorem putSrc_lostDevs (s : State) (n : Nat) (x : Source) : (putSrc s n x).lostDevs = s.lostDevs := rfl
@[simp] theorem putSrc_recovery (s : State) (n : Nat) (x : Source) : (putSrc s n x).recovery = s.recovery := rfl
@[simp] theorem putSrc_twin (s : State) (n : Nat) (x : Source) : (putSrc s n x).twin = s.twin := rfl
@[simp] theorem putSrc_host (s : State) (n : Nat) (x : Source) : (putSrc s n x).host = s.host := rfl
@[simp] theorem putSrc_ctxs (s : State) (n : Nat) (x : Source) : (putSrc s n x).ctxs = s.ctxs := rfl
@[simp] theorem putSrc_links (s : State) (n : Nat) (x : Source) : (putSrc s n x).links = s.links := rfl
@[simp] theorem putSrc_router (s : State) (n : Nat) (x : Source) : (putSrc s n x).router = s.router := rfl
@[simp] theorem putSrc_power (s : State) (n : Nat) (x : Source) : (putSrc s n x).power = s.power := rfl
@[simp] theorem putSrc_monitors (s : State) (n : Nat) (x : Source) : (putSrc s n x).monitors = s.monitors := rfl
@[simp] theorem putSrc_boot (s : State) (n : Nat) (x : Source) : (putSrc s n x).boot = s.boot := rfl
@[simp] theorem putSrc_mem (s : State) (n : Nat) (x : Source) : (putSrc s n x).mem = s.mem := rfl
@[simp] theorem putSrc_gauge (s : State) (n : Nat) (x : Source) : (putSrc s n x).gauge = s.gauge := rfl
@[simp] theorem putSrc_silent (s : State) (n : Nat) (x : Source) : (putSrc s n x).silent = s.silent := rfl
@[simp] theorem putSrc_digests (s : State) (n : Nat) (x : Source) : (putSrc s n x).digests = s.digests := rfl
@[simp] theorem putSrc_early (s : State) (n : Nat) (x : Source) : (putSrc s n x).early = s.early := rfl
@[simp] theorem putSrc_update (s : State) (n : Nat) (x : Source) : (putSrc s n x).update = s.update := rfl
@[simp] theorem putSrc_out (s : State) (n : Nat) (x : Source) : (putSrc s n x).out = s.out := rfl

@[simp] theorem setLine_pending (s : State) (n : Nat) (b : Bool) : (setLine s n b).pending = s.pending := rfl
@[simp] theorem setLine_freeCtr (s : State) (n : Nat) (b : Bool) : (setLine s n b).freeCtr = s.freeCtr := rfl
@[simp] theorem setLine_regs (s : State) (n : Nat) (b : Bool) : (setLine s n b).regs = s.regs := rfl
@[simp] theorem setLine_gals (s : State) (n : Nat) (b : Bool) : (setLine s n b).gals = s.gals := rfl
@[simp] theorem setLine_queues (s : State) (n : Nat) (b : Bool) : (setLine s n b).queues = s.queues := rfl
@[simp] theorem setLine_ran (s : State) (n : Nat) (b : Bool) : (setLine s n b).ran = s.ran := rfl
@[simp] theorem setLine_pegs (s : State) (n : Nat) (b : Bool) : (setLine s n b).pegs = s.pegs := rfl
@[simp] theorem setLine_pegRefs (s : State) (n : Nat) (b : Bool) : (setLine s n b).pegRefs = s.pegRefs := rfl
@[simp] theorem setLine_nextRef (s : State) (n : Nat) (b : Bool) : (setLine s n b).nextRef = s.nextRef := rfl
@[simp] theorem setLine_fence (s : State) (n : Nat) (b : Bool) : (setLine s n b).fence = s.fence := rfl
@[simp] theorem setLine_lostDevs (s : State) (n : Nat) (b : Bool) : (setLine s n b).lostDevs = s.lostDevs := rfl
@[simp] theorem setLine_recovery (s : State) (n : Nat) (b : Bool) : (setLine s n b).recovery = s.recovery := rfl
@[simp] theorem setLine_twin (s : State) (n : Nat) (b : Bool) : (setLine s n b).twin = s.twin := rfl
@[simp] theorem setLine_host (s : State) (n : Nat) (b : Bool) : (setLine s n b).host = s.host := rfl
@[simp] theorem setLine_ctxs (s : State) (n : Nat) (b : Bool) : (setLine s n b).ctxs = s.ctxs := rfl
@[simp] theorem setLine_links (s : State) (n : Nat) (b : Bool) : (setLine s n b).links = s.links := rfl
@[simp] theorem setLine_router (s : State) (n : Nat) (b : Bool) : (setLine s n b).router = s.router := rfl
@[simp] theorem setLine_power (s : State) (n : Nat) (b : Bool) : (setLine s n b).power = s.power := rfl
@[simp] theorem setLine_monitors (s : State) (n : Nat) (b : Bool) : (setLine s n b).monitors = s.monitors := rfl
@[simp] theorem setLine_boot (s : State) (n : Nat) (b : Bool) : (setLine s n b).boot = s.boot := rfl
@[simp] theorem setLine_mem (s : State) (n : Nat) (b : Bool) : (setLine s n b).mem = s.mem := rfl
@[simp] theorem setLine_gauge (s : State) (n : Nat) (b : Bool) : (setLine s n b).gauge = s.gauge := rfl
@[simp] theorem setLine_silent (s : State) (n : Nat) (b : Bool) : (setLine s n b).silent = s.silent := rfl
@[simp] theorem setLine_digests (s : State) (n : Nat) (b : Bool) : (setLine s n b).digests = s.digests := rfl
@[simp] theorem setLine_early (s : State) (n : Nat) (b : Bool) : (setLine s n b).early = s.early := rfl
@[simp] theorem setLine_update (s : State) (n : Nat) (b : Bool) : (setLine s n b).update = s.update := rfl
@[simp] theorem setLine_out (s : State) (n : Nat) (b : Bool) : (setLine s n b).out = s.out := rfl

@[simp] theorem pulseLine_pending (s : State) (n : Nat) : (pulseLine s n).pending = s.pending := rfl
@[simp] theorem pulseLine_freeCtr (s : State) (n : Nat) : (pulseLine s n).freeCtr = s.freeCtr := rfl
@[simp] theorem pulseLine_regs (s : State) (n : Nat) : (pulseLine s n).regs = s.regs := rfl
@[simp] theorem pulseLine_gals (s : State) (n : Nat) : (pulseLine s n).gals = s.gals := rfl
@[simp] theorem pulseLine_queues (s : State) (n : Nat) : (pulseLine s n).queues = s.queues := rfl
@[simp] theorem pulseLine_ran (s : State) (n : Nat) : (pulseLine s n).ran = s.ran := rfl
@[simp] theorem pulseLine_pegs (s : State) (n : Nat) : (pulseLine s n).pegs = s.pegs := rfl
@[simp] theorem pulseLine_pegRefs (s : State) (n : Nat) : (pulseLine s n).pegRefs = s.pegRefs := rfl
@[simp] theorem pulseLine_nextRef (s : State) (n : Nat) : (pulseLine s n).nextRef = s.nextRef := rfl
@[simp] theorem pulseLine_fence (s : State) (n : Nat) : (pulseLine s n).fence = s.fence := rfl
@[simp] theorem pulseLine_lostDevs (s : State) (n : Nat) : (pulseLine s n).lostDevs = s.lostDevs := rfl
@[simp] theorem pulseLine_recovery (s : State) (n : Nat) : (pulseLine s n).recovery = s.recovery := rfl
@[simp] theorem pulseLine_twin (s : State) (n : Nat) : (pulseLine s n).twin = s.twin := rfl
@[simp] theorem pulseLine_host (s : State) (n : Nat) : (pulseLine s n).host = s.host := rfl
@[simp] theorem pulseLine_ctxs (s : State) (n : Nat) : (pulseLine s n).ctxs = s.ctxs := rfl
@[simp] theorem pulseLine_links (s : State) (n : Nat) : (pulseLine s n).links = s.links := rfl
@[simp] theorem pulseLine_router (s : State) (n : Nat) : (pulseLine s n).router = s.router := rfl
@[simp] theorem pulseLine_power (s : State) (n : Nat) : (pulseLine s n).power = s.power := rfl
@[simp] theorem pulseLine_monitors (s : State) (n : Nat) : (pulseLine s n).monitors = s.monitors := rfl
@[simp] theorem pulseLine_boot (s : State) (n : Nat) : (pulseLine s n).boot = s.boot := rfl
@[simp] theorem pulseLine_mem (s : State) (n : Nat) : (pulseLine s n).mem = s.mem := rfl
@[simp] theorem pulseLine_gauge (s : State) (n : Nat) : (pulseLine s n).gauge = s.gauge := rfl
@[simp] theorem pulseLine_silent (s : State) (n : Nat) : (pulseLine s n).silent = s.silent := rfl
@[simp] theorem pulseLine_digests (s : State) (n : Nat) : (pulseLine s n).digests = s.digests := rfl
@[simp] theorem pulseLine_early (s : State) (n : Nat) : (pulseLine s n).early = s.early := rfl
@[simp] theorem pulseLine_update (s : State) (n : Nat) : (pulseLine s n).update = s.update := rfl
@[simp] theorem pulseLine_out (s : State) (n : Nat) : (pulseLine s n).out = s.out := rfl

@[simp] theorem emit_pending (s : State) (o : Out) : (emit s o).pending = s.pending := rfl
@[simp] theorem emit_freeCtr (s : State) (o : Out) : (emit s o).freeCtr = s.freeCtr := rfl
@[simp] theorem emit_regs (s : State) (o : Out) : (emit s o).regs = s.regs := rfl
@[simp] theorem emit_gals (s : State) (o : Out) : (emit s o).gals = s.gals := rfl
@[simp] theorem emit_queues (s : State) (o : Out) : (emit s o).queues = s.queues := rfl
@[simp] theorem emit_ran (s : State) (o : Out) : (emit s o).ran = s.ran := rfl
@[simp] theorem emit_pegs (s : State) (o : Out) : (emit s o).pegs = s.pegs := rfl
@[simp] theorem emit_pegRefs (s : State) (o : Out) : (emit s o).pegRefs = s.pegRefs := rfl
@[simp] theorem emit_nextRef (s : State) (o : Out) : (emit s o).nextRef = s.nextRef := rfl
@[simp] theorem emit_fence (s : State) (o : Out) : (emit s o).fence = s.fence := rfl
@[simp] theorem emit_lostDevs (s : State) (o : Out) : (emit s o).lostDevs = s.lostDevs := rfl
@[simp] theorem emit_recovery (s : State) (o : Out) : (emit s o).recovery = s.recovery := rfl
@[simp] theorem emit_twin (s : State) (o : Out) : (emit s o).twin = s.twin := rfl
@[simp] theorem emit_ec (s : State) (o : Out) : (emit s o).ec = s.ec := rfl
@[simp] theorem emit_host (s : State) (o : Out) : (emit s o).host = s.host := rfl
@[simp] theorem emit_ctxs (s : State) (o : Out) : (emit s o).ctxs = s.ctxs := rfl
@[simp] theorem emit_links (s : State) (o : Out) : (emit s o).links = s.links := rfl
@[simp] theorem emit_router (s : State) (o : Out) : (emit s o).router = s.router := rfl
@[simp] theorem emit_power (s : State) (o : Out) : (emit s o).power = s.power := rfl
@[simp] theorem emit_monitors (s : State) (o : Out) : (emit s o).monitors = s.monitors := rfl
@[simp] theorem emit_boot (s : State) (o : Out) : (emit s o).boot = s.boot := rfl
@[simp] theorem emit_mem (s : State) (o : Out) : (emit s o).mem = s.mem := rfl
@[simp] theorem emit_gauge (s : State) (o : Out) : (emit s o).gauge = s.gauge := rfl
@[simp] theorem emit_silent (s : State) (o : Out) : (emit s o).silent = s.silent := rfl
@[simp] theorem emit_digests (s : State) (o : Out) : (emit s o).digests = s.digests := rfl
@[simp] theorem emit_early (s : State) (o : Out) : (emit s o).early = s.early := rfl
@[simp] theorem emit_update (s : State) (o : Out) : (emit s o).update = s.update := rfl

@[simp] theorem putPeg_pending (s : State) (k : Nat) (p : Peg) : (putPeg s k p).pending = s.pending := rfl
@[simp] theorem putPeg_freeCtr (s : State) (k : Nat) (p : Peg) : (putPeg s k p).freeCtr = s.freeCtr := rfl
@[simp] theorem putPeg_regs (s : State) (k : Nat) (p : Peg) : (putPeg s k p).regs = s.regs := rfl
@[simp] theorem putPeg_gals (s : State) (k : Nat) (p : Peg) : (putPeg s k p).gals = s.gals := rfl
@[simp] theorem putPeg_queues (s : State) (k : Nat) (p : Peg) : (putPeg s k p).queues = s.queues := rfl
@[simp] theorem putPeg_ran (s : State) (k : Nat) (p : Peg) : (putPeg s k p).ran = s.ran := rfl
@[simp] theorem putPeg_pegRefs (s : State) (k : Nat) (p : Peg) : (putPeg s k p).pegRefs = s.pegRefs := rfl
@[simp] theorem putPeg_nextRef (s : State) (k : Nat) (p : Peg) : (putPeg s k p).nextRef = s.nextRef := rfl
@[simp] theorem putPeg_fence (s : State) (k : Nat) (p : Peg) : (putPeg s k p).fence = s.fence := rfl
@[simp] theorem putPeg_lostDevs (s : State) (k : Nat) (p : Peg) : (putPeg s k p).lostDevs = s.lostDevs := rfl
@[simp] theorem putPeg_recovery (s : State) (k : Nat) (p : Peg) : (putPeg s k p).recovery = s.recovery := rfl
@[simp] theorem putPeg_twin (s : State) (k : Nat) (p : Peg) : (putPeg s k p).twin = s.twin := rfl
@[simp] theorem putPeg_ec (s : State) (k : Nat) (p : Peg) : (putPeg s k p).ec = s.ec := rfl
@[simp] theorem putPeg_host (s : State) (k : Nat) (p : Peg) : (putPeg s k p).host = s.host := rfl
@[simp] theorem putPeg_ctxs (s : State) (k : Nat) (p : Peg) : (putPeg s k p).ctxs = s.ctxs := rfl
@[simp] theorem putPeg_links (s : State) (k : Nat) (p : Peg) : (putPeg s k p).links = s.links := rfl
@[simp] theorem putPeg_router (s : State) (k : Nat) (p : Peg) : (putPeg s k p).router = s.router := rfl
@[simp] theorem putPeg_power (s : State) (k : Nat) (p : Peg) : (putPeg s k p).power = s.power := rfl
@[simp] theorem putPeg_monitors (s : State) (k : Nat) (p : Peg) : (putPeg s k p).monitors = s.monitors := rfl
@[simp] theorem putPeg_boot (s : State) (k : Nat) (p : Peg) : (putPeg s k p).boot = s.boot := rfl
@[simp] theorem putPeg_mem (s : State) (k : Nat) (p : Peg) : (putPeg s k p).mem = s.mem := rfl
@[simp] theorem putPeg_gauge (s : State) (k : Nat) (p : Peg) : (putPeg s k p).gauge = s.gauge := rfl
@[simp] theorem putPeg_silent (s : State) (k : Nat) (p : Peg) : (putPeg s k p).silent = s.silent := rfl
@[simp] theorem putPeg_digests (s : State) (k : Nat) (p : Peg) : (putPeg s k p).digests = s.digests := rfl
@[simp] theorem putPeg_early (s : State) (k : Nat) (p : Peg) : (putPeg s k p).early = s.early := rfl
@[simp] theorem putPeg_update (s : State) (k : Nat) (p : Peg) : (putPeg s k p).update = s.update := rfl
@[simp] theorem putPeg_out (s : State) (k : Nat) (p : Peg) : (putPeg s k p).out = s.out := rfl

@[simp] theorem putLink_pending (s : State) (n : Nat) (l : Link) : (putLink s n l).pending = s.pending := rfl
@[simp] theorem putLink_freeCtr (s : State) (n : Nat) (l : Link) : (putLink s n l).freeCtr = s.freeCtr := rfl
@[simp] theorem putLink_regs (s : State) (n : Nat) (l : Link) : (putLink s n l).regs = s.regs := rfl
@[simp] theorem putLink_gals (s : State) (n : Nat) (l : Link) : (putLink s n l).gals = s.gals := rfl
@[simp] theorem putLink_queues (s : State) (n : Nat) (l : Link) : (putLink s n l).queues = s.queues := rfl
@[simp] theorem putLink_ran (s : State) (n : Nat) (l : Link) : (putLink s n l).ran = s.ran := rfl
@[simp] theorem putLink_pegs (s : State) (n : Nat) (l : Link) : (putLink s n l).pegs = s.pegs := rfl
@[simp] theorem putLink_pegRefs (s : State) (n : Nat) (l : Link) : (putLink s n l).pegRefs = s.pegRefs := rfl
@[simp] theorem putLink_nextRef (s : State) (n : Nat) (l : Link) : (putLink s n l).nextRef = s.nextRef := rfl
@[simp] theorem putLink_fence (s : State) (n : Nat) (l : Link) : (putLink s n l).fence = s.fence := rfl
@[simp] theorem putLink_lostDevs (s : State) (n : Nat) (l : Link) : (putLink s n l).lostDevs = s.lostDevs := rfl
@[simp] theorem putLink_recovery (s : State) (n : Nat) (l : Link) : (putLink s n l).recovery = s.recovery := rfl
@[simp] theorem putLink_twin (s : State) (n : Nat) (l : Link) : (putLink s n l).twin = s.twin := rfl
@[simp] theorem putLink_ec (s : State) (n : Nat) (l : Link) : (putLink s n l).ec = s.ec := rfl
@[simp] theorem putLink_host (s : State) (n : Nat) (l : Link) : (putLink s n l).host = s.host := rfl
@[simp] theorem putLink_ctxs (s : State) (n : Nat) (l : Link) : (putLink s n l).ctxs = s.ctxs := rfl
@[simp] theorem putLink_router (s : State) (n : Nat) (l : Link) : (putLink s n l).router = s.router := rfl
@[simp] theorem putLink_power (s : State) (n : Nat) (l : Link) : (putLink s n l).power = s.power := rfl
@[simp] theorem putLink_monitors (s : State) (n : Nat) (l : Link) : (putLink s n l).monitors = s.monitors := rfl
@[simp] theorem putLink_boot (s : State) (n : Nat) (l : Link) : (putLink s n l).boot = s.boot := rfl
@[simp] theorem putLink_mem (s : State) (n : Nat) (l : Link) : (putLink s n l).mem = s.mem := rfl
@[simp] theorem putLink_gauge (s : State) (n : Nat) (l : Link) : (putLink s n l).gauge = s.gauge := rfl
@[simp] theorem putLink_silent (s : State) (n : Nat) (l : Link) : (putLink s n l).silent = s.silent := rfl
@[simp] theorem putLink_digests (s : State) (n : Nat) (l : Link) : (putLink s n l).digests = s.digests := rfl
@[simp] theorem putLink_early (s : State) (n : Nat) (l : Link) : (putLink s n l).early = s.early := rfl
@[simp] theorem putLink_update (s : State) (n : Nat) (l : Link) : (putLink s n l).update = s.update := rfl
@[simp] theorem putLink_out (s : State) (n : Nat) (l : Link) : (putLink s n l).out = s.out := rfl

@[simp] theorem modLink_pending (s : State) (n : Nat) (f : Link → Link) : (modLink s n f).pending = s.pending := rfl
@[simp] theorem modLink_freeCtr (s : State) (n : Nat) (f : Link → Link) : (modLink s n f).freeCtr = s.freeCtr := rfl
@[simp] theorem modLink_regs (s : State) (n : Nat) (f : Link → Link) : (modLink s n f).regs = s.regs := rfl
@[simp] theorem modLink_gals (s : State) (n : Nat) (f : Link → Link) : (modLink s n f).gals = s.gals := rfl
@[simp] theorem modLink_queues (s : State) (n : Nat) (f : Link → Link) : (modLink s n f).queues = s.queues := rfl
@[simp] theorem modLink_ran (s : State) (n : Nat) (f : Link → Link) : (modLink s n f).ran = s.ran := rfl
@[simp] theorem modLink_pegs (s : State) (n : Nat) (f : Link → Link) : (modLink s n f).pegs = s.pegs := rfl
@[simp] theorem modLink_pegRefs (s : State) (n : Nat) (f : Link → Link) : (modLink s n f).pegRefs = s.pegRefs := rfl
@[simp] theorem modLink_nextRef (s : State) (n : Nat) (f : Link → Link) : (modLink s n f).nextRef = s.nextRef := rfl
@[simp] theorem modLink_fence (s : State) (n : Nat) (f : Link → Link) : (modLink s n f).fence = s.fence := rfl
@[simp] theorem modLink_lostDevs (s : State) (n : Nat) (f : Link → Link) : (modLink s n f).lostDevs = s.lostDevs := rfl
@[simp] theorem modLink_recovery (s : State) (n : Nat) (f : Link → Link) : (modLink s n f).recovery = s.recovery := rfl
@[simp] theorem modLink_twin (s : State) (n : Nat) (f : Link → Link) : (modLink s n f).twin = s.twin := rfl
@[simp] theorem modLink_ec (s : State) (n : Nat) (f : Link → Link) : (modLink s n f).ec = s.ec := rfl
@[simp] theorem modLink_host (s : State) (n : Nat) (f : Link → Link) : (modLink s n f).host = s.host := rfl
@[simp] theorem modLink_ctxs (s : State) (n : Nat) (f : Link → Link) : (modLink s n f).ctxs = s.ctxs := rfl
@[simp] theorem modLink_router (s : State) (n : Nat) (f : Link → Link) : (modLink s n f).router = s.router := rfl
@[simp] theorem modLink_power (s : State) (n : Nat) (f : Link → Link) : (modLink s n f).power = s.power := rfl
@[simp] theorem modLink_monitors (s : State) (n : Nat) (f : Link → Link) : (modLink s n f).monitors = s.monitors := rfl
@[simp] theorem modLink_boot (s : State) (n : Nat) (f : Link → Link) : (modLink s n f).boot = s.boot := rfl
@[simp] theorem modLink_mem (s : State) (n : Nat) (f : Link → Link) : (modLink s n f).mem = s.mem := rfl
@[simp] theorem modLink_gauge (s : State) (n : Nat) (f : Link → Link) : (modLink s n f).gauge = s.gauge := rfl
@[simp] theorem modLink_silent (s : State) (n : Nat) (f : Link → Link) : (modLink s n f).silent = s.silent := rfl
@[simp] theorem modLink_digests (s : State) (n : Nat) (f : Link → Link) : (modLink s n f).digests = s.digests := rfl
@[simp] theorem modLink_early (s : State) (n : Nat) (f : Link → Link) : (modLink s n f).early = s.early := rfl
@[simp] theorem modLink_update (s : State) (n : Nat) (f : Link → Link) : (modLink s n f).update = s.update := rfl
@[simp] theorem modLink_out (s : State) (n : Nat) (f : Link → Link) : (modLink s n f).out = s.out := rfl

@[simp] theorem putMc_pending (s : State) (h : Nat) (m : MemCtl) : (putMc s h m).pending = s.pending := rfl
@[simp] theorem putMc_freeCtr (s : State) (h : Nat) (m : MemCtl) : (putMc s h m).freeCtr = s.freeCtr := rfl
@[simp] theorem putMc_regs (s : State) (h : Nat) (m : MemCtl) : (putMc s h m).regs = s.regs := rfl
@[simp] theorem putMc_gals (s : State) (h : Nat) (m : MemCtl) : (putMc s h m).gals = s.gals := rfl
@[simp] theorem putMc_queues (s : State) (h : Nat) (m : MemCtl) : (putMc s h m).queues = s.queues := rfl
@[simp] theorem putMc_ran (s : State) (h : Nat) (m : MemCtl) : (putMc s h m).ran = s.ran := rfl
@[simp] theorem putMc_pegs (s : State) (h : Nat) (m : MemCtl) : (putMc s h m).pegs = s.pegs := rfl
@[simp] theorem putMc_pegRefs (s : State) (h : Nat) (m : MemCtl) : (putMc s h m).pegRefs = s.pegRefs := rfl
@[simp] theorem putMc_nextRef (s : State) (h : Nat) (m : MemCtl) : (putMc s h m).nextRef = s.nextRef := rfl
@[simp] theorem putMc_fence (s : State) (h : Nat) (m : MemCtl) : (putMc s h m).fence = s.fence := rfl
@[simp] theorem putMc_lostDevs (s : State) (h : Nat) (m : MemCtl) : (putMc s h m).lostDevs = s.lostDevs := rfl
@[simp] theorem putMc_recovery (s : State) (h : Nat) (m : MemCtl) : (putMc s h m).recovery = s.recovery := rfl
@[simp] theorem putMc_twin (s : State) (h : Nat) (m : MemCtl) : (putMc s h m).twin = s.twin := rfl
@[simp] theorem putMc_ec (s : State) (h : Nat) (m : MemCtl) : (putMc s h m).ec = s.ec := rfl
@[simp] theorem putMc_host (s : State) (h : Nat) (m : MemCtl) : (putMc s h m).host = s.host := rfl
@[simp] theorem putMc_ctxs (s : State) (h : Nat) (m : MemCtl) : (putMc s h m).ctxs = s.ctxs := rfl
@[simp] theorem putMc_links (s : State) (h : Nat) (m : MemCtl) : (putMc s h m).links = s.links := rfl
@[simp] theorem putMc_router (s : State) (h : Nat) (m : MemCtl) : (putMc s h m).router = s.router := rfl
@[simp] theorem putMc_power (s : State) (h : Nat) (m : MemCtl) : (putMc s h m).power = s.power := rfl
@[simp] theorem putMc_monitors (s : State) (h : Nat) (m : MemCtl) : (putMc s h m).monitors = s.monitors := rfl
@[simp] theorem putMc_boot (s : State) (h : Nat) (m : MemCtl) : (putMc s h m).boot = s.boot := rfl
@[simp] theorem putMc_gauge (s : State) (h : Nat) (m : MemCtl) : (putMc s h m).gauge = s.gauge := rfl
@[simp] theorem putMc_silent (s : State) (h : Nat) (m : MemCtl) : (putMc s h m).silent = s.silent := rfl
@[simp] theorem putMc_digests (s : State) (h : Nat) (m : MemCtl) : (putMc s h m).digests = s.digests := rfl
@[simp] theorem putMc_early (s : State) (h : Nat) (m : MemCtl) : (putMc s h m).early = s.early := rfl
@[simp] theorem putMc_update (s : State) (h : Nat) (m : MemCtl) : (putMc s h m).update = s.update := rfl
@[simp] theorem putMc_out (s : State) (h : Nat) (m : MemCtl) : (putMc s h m).out = s.out := rfl

@[simp] theorem putMon_pending (s : State) (u : Nat) (m : Monitor) : (putMon s u m).pending = s.pending := rfl
@[simp] theorem putMon_freeCtr (s : State) (u : Nat) (m : Monitor) : (putMon s u m).freeCtr = s.freeCtr := rfl
@[simp] theorem putMon_regs (s : State) (u : Nat) (m : Monitor) : (putMon s u m).regs = s.regs := rfl
@[simp] theorem putMon_gals (s : State) (u : Nat) (m : Monitor) : (putMon s u m).gals = s.gals := rfl
@[simp] theorem putMon_queues (s : State) (u : Nat) (m : Monitor) : (putMon s u m).queues = s.queues := rfl
@[simp] theorem putMon_ran (s : State) (u : Nat) (m : Monitor) : (putMon s u m).ran = s.ran := rfl
@[simp] theorem putMon_pegs (s : State) (u : Nat) (m : Monitor) : (putMon s u m).pegs = s.pegs := rfl
@[simp] theorem putMon_pegRefs (s : State) (u : Nat) (m : Monitor) : (putMon s u m).pegRefs = s.pegRefs := rfl
@[simp] theorem putMon_nextRef (s : State) (u : Nat) (m : Monitor) : (putMon s u m).nextRef = s.nextRef := rfl
@[simp] theorem putMon_fence (s : State) (u : Nat) (m : Monitor) : (putMon s u m).fence = s.fence := rfl
@[simp] theorem putMon_lostDevs (s : State) (u : Nat) (m : Monitor) : (putMon s u m).lostDevs = s.lostDevs := rfl
@[simp] theorem putMon_recovery (s : State) (u : Nat) (m : Monitor) : (putMon s u m).recovery = s.recovery := rfl
@[simp] theorem putMon_twin (s : State) (u : Nat) (m : Monitor) : (putMon s u m).twin = s.twin := rfl
@[simp] theorem putMon_ec (s : State) (u : Nat) (m : Monitor) : (putMon s u m).ec = s.ec := rfl
@[simp] theorem putMon_host (s : State) (u : Nat) (m : Monitor) : (putMon s u m).host = s.host := rfl
@[simp] theorem putMon_ctxs (s : State) (u : Nat) (m : Monitor) : (putMon s u m).ctxs = s.ctxs := rfl
@[simp] theorem putMon_links (s : State) (u : Nat) (m : Monitor) : (putMon s u m).links = s.links := rfl
@[simp] theorem putMon_router (s : State) (u : Nat) (m : Monitor) : (putMon s u m).router = s.router := rfl
@[simp] theorem putMon_power (s : State) (u : Nat) (m : Monitor) : (putMon s u m).power = s.power := rfl
@[simp] theorem putMon_boot (s : State) (u : Nat) (m : Monitor) : (putMon s u m).boot = s.boot := rfl
@[simp] theorem putMon_mem (s : State) (u : Nat) (m : Monitor) : (putMon s u m).mem = s.mem := rfl
@[simp] theorem putMon_gauge (s : State) (u : Nat) (m : Monitor) : (putMon s u m).gauge = s.gauge := rfl
@[simp] theorem putMon_silent (s : State) (u : Nat) (m : Monitor) : (putMon s u m).silent = s.silent := rfl
@[simp] theorem putMon_digests (s : State) (u : Nat) (m : Monitor) : (putMon s u m).digests = s.digests := rfl
@[simp] theorem putMon_early (s : State) (u : Nat) (m : Monitor) : (putMon s u m).early = s.early := rfl
@[simp] theorem putMon_update (s : State) (u : Nat) (m : Monitor) : (putMon s u m).update = s.update := rfl
@[simp] theorem putMon_out (s : State) (u : Nat) (m : Monitor) : (putMon s u m).out = s.out := rfl

@[simp] theorem putSlot_pending (s : State) (k : Nat) (x : FwSlot) : (putSlot s k x).pending = s.pending := rfl
@[simp] theorem putSlot_freeCtr (s : State) (k : Nat) (x : FwSlot) : (putSlot s k x).freeCtr = s.freeCtr := rfl
@[simp] theorem putSlot_regs (s : State) (k : Nat) (x : FwSlot) : (putSlot s k x).regs = s.regs := rfl
@[simp] theorem putSlot_gals (s : State) (k : Nat) (x : FwSlot) : (putSlot s k x).gals = s.gals := rfl
@[simp] theorem putSlot_queues (s : State) (k : Nat) (x : FwSlot) : (putSlot s k x).queues = s.queues := rfl
@[simp] theorem putSlot_ran (s : State) (k : Nat) (x : FwSlot) : (putSlot s k x).ran = s.ran := rfl
@[simp] theorem putSlot_pegs (s : State) (k : Nat) (x : FwSlot) : (putSlot s k x).pegs = s.pegs := rfl
@[simp] theorem putSlot_pegRefs (s : State) (k : Nat) (x : FwSlot) : (putSlot s k x).pegRefs = s.pegRefs := rfl
@[simp] theorem putSlot_nextRef (s : State) (k : Nat) (x : FwSlot) : (putSlot s k x).nextRef = s.nextRef := rfl
@[simp] theorem putSlot_fence (s : State) (k : Nat) (x : FwSlot) : (putSlot s k x).fence = s.fence := rfl
@[simp] theorem putSlot_lostDevs (s : State) (k : Nat) (x : FwSlot) : (putSlot s k x).lostDevs = s.lostDevs := rfl
@[simp] theorem putSlot_recovery (s : State) (k : Nat) (x : FwSlot) : (putSlot s k x).recovery = s.recovery := rfl
@[simp] theorem putSlot_twin (s : State) (k : Nat) (x : FwSlot) : (putSlot s k x).twin = s.twin := rfl
@[simp] theorem putSlot_ec (s : State) (k : Nat) (x : FwSlot) : (putSlot s k x).ec = s.ec := rfl
@[simp] theorem putSlot_host (s : State) (k : Nat) (x : FwSlot) : (putSlot s k x).host = s.host := rfl
@[simp] theorem putSlot_ctxs (s : State) (k : Nat) (x : FwSlot) : (putSlot s k x).ctxs = s.ctxs := rfl
@[simp] theorem putSlot_links (s : State) (k : Nat) (x : FwSlot) : (putSlot s k x).links = s.links := rfl
@[simp] theorem putSlot_router (s : State) (k : Nat) (x : FwSlot) : (putSlot s k x).router = s.router := rfl
@[simp] theorem putSlot_power (s : State) (k : Nat) (x : FwSlot) : (putSlot s k x).power = s.power := rfl
@[simp] theorem putSlot_monitors (s : State) (k : Nat) (x : FwSlot) : (putSlot s k x).monitors = s.monitors := rfl
@[simp] theorem putSlot_mem (s : State) (k : Nat) (x : FwSlot) : (putSlot s k x).mem = s.mem := rfl
@[simp] theorem putSlot_gauge (s : State) (k : Nat) (x : FwSlot) : (putSlot s k x).gauge = s.gauge := rfl
@[simp] theorem putSlot_silent (s : State) (k : Nat) (x : FwSlot) : (putSlot s k x).silent = s.silent := rfl
@[simp] theorem putSlot_digests (s : State) (k : Nat) (x : FwSlot) : (putSlot s k x).digests = s.digests := rfl
@[simp] theorem putSlot_early (s : State) (k : Nat) (x : FwSlot) : (putSlot s k x).early = s.early := rfl
@[simp] theorem putSlot_update (s : State) (k : Nat) (x : FwSlot) : (putSlot s k x).update = s.update := rfl
@[simp] theorem putSlot_out (s : State) (k : Nat) (x : FwSlot) : (putSlot s k x).out = s.out := rfl

@[simp] theorem startXfer_pending (s : State) (q : Nat) (k : XferKind) : (startXfer s q k).2.pending = s.pending := rfl
@[simp] theorem startXfer_freeCtr (s : State) (q : Nat) (k : XferKind) : (startXfer s q k).2.freeCtr = s.freeCtr := rfl
@[simp] theorem startXfer_regs (s : State) (q : Nat) (k : XferKind) : (startXfer s q k).2.regs = s.regs := rfl
@[simp] theorem startXfer_gals (s : State) (q : Nat) (k : XferKind) : (startXfer s q k).2.gals = s.gals := rfl
@[simp] theorem startXfer_queues (s : State) (q : Nat) (k : XferKind) : (startXfer s q k).2.queues = s.queues := rfl
@[simp] theorem startXfer_ran (s : State) (q : Nat) (k : XferKind) : (startXfer s q k).2.ran = s.ran := rfl
@[simp] theorem startXfer_pegs (s : State) (q : Nat) (k : XferKind) : (startXfer s q k).2.pegs = s.pegs := rfl
@[simp] theorem startXfer_pegRefs (s : State) (q : Nat) (k : XferKind) : (startXfer s q k).2.pegRefs = s.pegRefs := rfl
@[simp] theorem startXfer_nextRef (s : State) (q : Nat) (k : XferKind) : (startXfer s q k).2.nextRef = s.nextRef := rfl
@[simp] theorem startXfer_fence (s : State) (q : Nat) (k : XferKind) : (startXfer s q k).2.fence = s.fence := rfl
@[simp] theorem startXfer_lostDevs (s : State) (q : Nat) (k : XferKind) : (startXfer s q k).2.lostDevs = s.lostDevs := rfl
@[simp] theorem startXfer_recovery (s : State) (q : Nat) (k : XferKind) : (startXfer s q k).2.recovery = s.recovery := rfl
@[simp] theorem startXfer_twin (s : State) (q : Nat) (k : XferKind) : (startXfer s q k).2.twin = s.twin := rfl
@[simp] theorem startXfer_ec (s : State) (q : Nat) (k : XferKind) : (startXfer s q k).2.ec = s.ec := rfl
@[simp] theorem startXfer_ctxs (s : State) (q : Nat) (k : XferKind) : (startXfer s q k).2.ctxs = s.ctxs := rfl
@[simp] theorem startXfer_links (s : State) (q : Nat) (k : XferKind) : (startXfer s q k).2.links = s.links := rfl
@[simp] theorem startXfer_router (s : State) (q : Nat) (k : XferKind) : (startXfer s q k).2.router = s.router := rfl
@[simp] theorem startXfer_power (s : State) (q : Nat) (k : XferKind) : (startXfer s q k).2.power = s.power := rfl
@[simp] theorem startXfer_monitors (s : State) (q : Nat) (k : XferKind) : (startXfer s q k).2.monitors = s.monitors := rfl
@[simp] theorem startXfer_boot (s : State) (q : Nat) (k : XferKind) : (startXfer s q k).2.boot = s.boot := rfl
@[simp] theorem startXfer_mem (s : State) (q : Nat) (k : XferKind) : (startXfer s q k).2.mem = s.mem := rfl
@[simp] theorem startXfer_gauge (s : State) (q : Nat) (k : XferKind) : (startXfer s q k).2.gauge = s.gauge := rfl
@[simp] theorem startXfer_silent (s : State) (q : Nat) (k : XferKind) : (startXfer s q k).2.silent = s.silent := rfl
@[simp] theorem startXfer_digests (s : State) (q : Nat) (k : XferKind) : (startXfer s q k).2.digests = s.digests := rfl
@[simp] theorem startXfer_early (s : State) (q : Nat) (k : XferKind) : (startXfer s q k).2.early = s.early := rfl
@[simp] theorem startXfer_update (s : State) (q : Nat) (k : XferKind) : (startXfer s q k).2.update = s.update := rfl
@[simp] theorem startXfer_out (s : State) (q : Nat) (k : XferKind) : (startXfer s q k).2.out = s.out := rfl

@[simp] theorem dropXfer_pending (s : State) (i : Nat) : (dropXfer s i).pending = s.pending := rfl
@[simp] theorem dropXfer_freeCtr (s : State) (i : Nat) : (dropXfer s i).freeCtr = s.freeCtr := rfl
@[simp] theorem dropXfer_regs (s : State) (i : Nat) : (dropXfer s i).regs = s.regs := rfl
@[simp] theorem dropXfer_gals (s : State) (i : Nat) : (dropXfer s i).gals = s.gals := rfl
@[simp] theorem dropXfer_queues (s : State) (i : Nat) : (dropXfer s i).queues = s.queues := rfl
@[simp] theorem dropXfer_ran (s : State) (i : Nat) : (dropXfer s i).ran = s.ran := rfl
@[simp] theorem dropXfer_pegs (s : State) (i : Nat) : (dropXfer s i).pegs = s.pegs := rfl
@[simp] theorem dropXfer_pegRefs (s : State) (i : Nat) : (dropXfer s i).pegRefs = s.pegRefs := rfl
@[simp] theorem dropXfer_nextRef (s : State) (i : Nat) : (dropXfer s i).nextRef = s.nextRef := rfl
@[simp] theorem dropXfer_fence (s : State) (i : Nat) : (dropXfer s i).fence = s.fence := rfl
@[simp] theorem dropXfer_lostDevs (s : State) (i : Nat) : (dropXfer s i).lostDevs = s.lostDevs := rfl
@[simp] theorem dropXfer_recovery (s : State) (i : Nat) : (dropXfer s i).recovery = s.recovery := rfl
@[simp] theorem dropXfer_twin (s : State) (i : Nat) : (dropXfer s i).twin = s.twin := rfl
@[simp] theorem dropXfer_ec (s : State) (i : Nat) : (dropXfer s i).ec = s.ec := rfl
@[simp] theorem dropXfer_ctxs (s : State) (i : Nat) : (dropXfer s i).ctxs = s.ctxs := rfl
@[simp] theorem dropXfer_links (s : State) (i : Nat) : (dropXfer s i).links = s.links := rfl
@[simp] theorem dropXfer_router (s : State) (i : Nat) : (dropXfer s i).router = s.router := rfl
@[simp] theorem dropXfer_power (s : State) (i : Nat) : (dropXfer s i).power = s.power := rfl
@[simp] theorem dropXfer_monitors (s : State) (i : Nat) : (dropXfer s i).monitors = s.monitors := rfl
@[simp] theorem dropXfer_boot (s : State) (i : Nat) : (dropXfer s i).boot = s.boot := rfl
@[simp] theorem dropXfer_mem (s : State) (i : Nat) : (dropXfer s i).mem = s.mem := rfl
@[simp] theorem dropXfer_gauge (s : State) (i : Nat) : (dropXfer s i).gauge = s.gauge := rfl
@[simp] theorem dropXfer_silent (s : State) (i : Nat) : (dropXfer s i).silent = s.silent := rfl
@[simp] theorem dropXfer_digests (s : State) (i : Nat) : (dropXfer s i).digests = s.digests := rfl
@[simp] theorem dropXfer_early (s : State) (i : Nat) : (dropXfer s i).early = s.early := rfl
@[simp] theorem dropXfer_update (s : State) (i : Nat) : (dropXfer s i).update = s.update := rfl
@[simp] theorem dropXfer_out (s : State) (i : Nat) : (dropXfer s i).out = s.out := rfl

@[simp] theorem endSession_pending (s : State) (i : Nat) : (endSession s i).pending = s.pending := rfl
@[simp] theorem endSession_freeCtr (s : State) (i : Nat) : (endSession s i).freeCtr = s.freeCtr := rfl
@[simp] theorem endSession_regs (s : State) (i : Nat) : (endSession s i).regs = s.regs := rfl
@[simp] theorem endSession_gals (s : State) (i : Nat) : (endSession s i).gals = s.gals := rfl
@[simp] theorem endSession_queues (s : State) (i : Nat) : (endSession s i).queues = s.queues := rfl
@[simp] theorem endSession_ran (s : State) (i : Nat) : (endSession s i).ran = s.ran := rfl
@[simp] theorem endSession_pegs (s : State) (i : Nat) : (endSession s i).pegs = s.pegs := rfl
@[simp] theorem endSession_pegRefs (s : State) (i : Nat) : (endSession s i).pegRefs = s.pegRefs := rfl
@[simp] theorem endSession_nextRef (s : State) (i : Nat) : (endSession s i).nextRef = s.nextRef := rfl
@[simp] theorem endSession_fence (s : State) (i : Nat) : (endSession s i).fence = s.fence := rfl
@[simp] theorem endSession_lostDevs (s : State) (i : Nat) : (endSession s i).lostDevs = s.lostDevs := rfl
@[simp] theorem endSession_recovery (s : State) (i : Nat) : (endSession s i).recovery = s.recovery := rfl
@[simp] theorem endSession_twin (s : State) (i : Nat) : (endSession s i).twin = s.twin := rfl
@[simp] theorem endSession_ec (s : State) (i : Nat) : (endSession s i).ec = s.ec := rfl
@[simp] theorem endSession_ctxs (s : State) (i : Nat) : (endSession s i).ctxs = s.ctxs := rfl
@[simp] theorem endSession_links (s : State) (i : Nat) : (endSession s i).links = s.links := rfl
@[simp] theorem endSession_router (s : State) (i : Nat) : (endSession s i).router = s.router := rfl
@[simp] theorem endSession_power (s : State) (i : Nat) : (endSession s i).power = s.power := rfl
@[simp] theorem endSession_monitors (s : State) (i : Nat) : (endSession s i).monitors = s.monitors := rfl
@[simp] theorem endSession_boot (s : State) (i : Nat) : (endSession s i).boot = s.boot := rfl
@[simp] theorem endSession_mem (s : State) (i : Nat) : (endSession s i).mem = s.mem := rfl
@[simp] theorem endSession_gauge (s : State) (i : Nat) : (endSession s i).gauge = s.gauge := rfl
@[simp] theorem endSession_silent (s : State) (i : Nat) : (endSession s i).silent = s.silent := rfl
@[simp] theorem endSession_digests (s : State) (i : Nat) : (endSession s i).digests = s.digests := rfl
@[simp] theorem endSession_early (s : State) (i : Nat) : (endSession s i).early = s.early := rfl
@[simp] theorem endSession_update (s : State) (i : Nat) : (endSession s i).update = s.update := rfl
@[simp] theorem endSession_out (s : State) (i : Nat) : (endSession s i).out = s.out := rfl

/-! What is read back. -/

@[simp] theorem getCtx_putCtx (s : State) (n : Nat) (c : Ctx) : getCtx (putCtx s n c) n = c := SMap.get_put_same _ _ _ _

theorem getCtx_putCtx_ne (s : State) {m n : Nat} (h : m ≠ n) (c : Ctx) : getCtx (putCtx s n c) m = getCtx s m := SMap.get_put_ne _ h _ _

@[simp] theorem getCtx_modCtx (s : State) (n : Nat) (f : Ctx → Ctx) : getCtx (modCtx s n f) n = f (getCtx s n) := getCtx_putCtx _ _ _

theorem getCtx_modCtx_ne (s : State) {m n : Nat} (h : m ≠ n) (f : Ctx → Ctx) : getCtx (modCtx s n f) m = getCtx s m :=
  getCtx_putCtx_ne s h _

theorem getCtx_congr {s t : State} (h : t.ctxs = s.ctxs) (n : Nat) : getCtx t n = getCtx s n := by simp [getCtx, h]

@[simp] theorem getGal_putGal (s : State) (k : Nat) (g : Gallery) : getGal (putGal s k g) k = g := by
  unfold getGal putGal
  dsimp only
  split
  · next h => simp [h]
  · simp

theorem getGal_putGal_ne (s : State) {j k : Nat} (h : j ≠ k) (g : Gallery) : getGal (putGal s k g) j = getGal s j := by
  unfold getGal putGal
  dsimp only
  split
  · rw [SMap.find_erase_ne h]
  · rw [SMap.find_insert_ne h]

@[simp] theorem getGal_modGal (s : State) (k : Nat) (f : Gallery → Gallery) : getGal (modGal s k f) k = f (getGal s k) := getGal_putGal _ _ _

theorem getGal_modGal_ne (s : State) {j k : Nat} (h : j ≠ k) (f : Gallery → Gallery) : getGal (modGal s k f) j = getGal s j :=
  getGal_putGal_ne s h _

@[simp] theorem getPeg_putPeg (s : State) (k : Nat) (p : Peg) : getPeg (putPeg s k p) k = p := SMap.get_put_same _ _ _ _

theorem getPeg_putPeg_ne (s : State) {j k : Nat} (h : j ≠ k) (p : Peg) : getPeg (putPeg s k p) j = getPeg s j := SMap.get_put_ne _ h _ _

@[simp] theorem getSrc_putSrc (s : State) (n : Nat) (x : Source) : getSrc (putSrc s n x) n = x := SMap.get_put_same _ _ _ _

theorem getSrc_putSrc_ne (s : State) {m n : Nat} (h : m ≠ n) (x : Source) : getSrc (putSrc s n x) m = getSrc s m := SMap.get_put_ne _ h _ _

@[simp] theorem getLink_putLink (s : State) (n : Nat) (l : Link) : getLink (putLink s n l) n = l := SMap.get_put_same _ _ _ _

theorem getLink_putLink_ne (s : State) {m n : Nat} (h : m ≠ n) (l : Link) : getLink (putLink s n l) m = getLink s m := SMap.get_put_ne _ h _ _

@[simp] theorem getMc_putMc (s : State) (h : Nat) (m : MemCtl) : getMc (putMc s h m) h = m := SMap.get_put_same _ _ _ _

theorem getMc_putMc_ne (s : State) {i h : Nat} (hi : i ≠ h) (m : MemCtl) : getMc (putMc s h m) i = getMc s i := SMap.get_put_ne _ hi _ _

@[simp] theorem getMon_putMon (s : State) (u : Nat) (m : Monitor) : getMon (putMon s u m) u = m := SMap.get_put_same _ _ _ _

@[simp] theorem getSlot_putSlot (s : State) (k : Nat) (x : FwSlot) : getSlot (putSlot s k x) k = x := SMap.get_put_same _ _ _ _

theorem getSlot_putSlot_ne (s : State) {j k : Nat} (h : j ≠ k) (x : FwSlot) : getSlot (putSlot s k x) j = getSlot s j := SMap.get_put_ne _ h _ _

@[simp] theorem getSwing_putSwing (s : State) (p : Page) (w : Swing) : getSwing (putSwing s p w) p = w := SMap.get_put_same _ _ _ _

@[simp] theorem getGroup_putGroup (s : State) (n : Nat) (g : SwingGroup) : getGroup (putGroup s n g) n = g := SMap.get_put_same _ _ _ _

/-- An applied word read back: 32 bits of what was stored. -/
@[simp] theorem regGet_regSet (s : State) (p : Page) (o v : Nat) : regGet (regSet s p o v) p o = v % 2 ^ 32 := SMap.get_put_same _ _ _ _

@[simp] theorem regSet_regs_shadow (s : State) (p : Page) (o v : Nat) : (regSet s p o v).regs.shadow = s.regs.shadow := rfl
@[simp] theorem regSet_regs_latch (s : State) (p : Page) (o v : Nat) : (regSet s p o v).regs.latch = s.regs.latch := rfl
@[simp] theorem regSet_regs_swings (s : State) (p : Page) (o v : Nat) : (regSet s p o v).regs.swings = s.regs.swings := rfl
@[simp] theorem regSet_regs_groups (s : State) (p : Page) (o v : Nat) : (regSet s p o v).regs.groups = s.regs.groups := rfl
@[simp] theorem regSet_regs_rnBlock (s : State) (p : Page) (o v : Nat) : (regSet s p o v).regs.rnBlock = s.regs.rnBlock := rfl

/-- An applied word at another address is left. -/
theorem regGet_regSet_ne (s : State) (p q : Page) (o u v : Nat) (h : q.base + u ≠ p.base + o) : regGet (regSet s p o v) q u = regGet s q u := by
  unfold regGet regSet SMap.get SMap.put
  dsimp only
  split
  · rw [SMap.find_erase_ne h]
  · rw [SMap.find_insert_ne h]

@[simp] theorem shadowGet_shadowSet (s : State) (p : Page) (o v : Nat) : shadowGet (shadowSet s p o v) p o = v % 2 ^ 32 := SMap.get_put_same _ _ _ _

@[simp] theorem regGet_shadowSet (s : State) (p q : Page) (o u v : Nat) : regGet (shadowSet s p o v) q u = regGet s q u := rfl

@[simp] theorem shadowGet_regSet (s : State) (p q : Page) (o u v : Nat) : shadowGet (regSet s p o v) q u = shadowGet s q u := rfl

theorem regGet_congr {s t : State} (h : t.regs.applied = s.regs.applied) (p : Page) (o : Nat) : regGet t p o = regGet s p o := by
  simp [regGet, h]

end Sys2Proof.Machine
end

