-- ==== Sys2Proof/Laws/Shared.lean ====
section
/-! SUPPORT. Everything the shared operations can do, each said once: an operation is the state with a few parts replaced. -/

namespace Sys2Proof.Machine

theorem updateLine_only (s : State) (p : Page) : ∃ e, updateLine s p = { s with ec := e } := by
  unfold updateLine
  split
  · exact ⟨_, rfl⟩
  · exact ⟨s.ec, rfl⟩

theorem setEvt_only (s : State) (p : Page) (m : Nat) : ∃ r e, setEvt s p m = { s with regs := r, ec := e } := by
  unfold setEvt
  obtain ⟨e, he⟩ := updateLine_only (regSet s p Reg.EVT_PEND (regGet s p Reg.EVT_PEND ||| m)) p
  exact ⟨_, e, he⟩

theorem setErrBit_only (s : State) (p : Page) (i : Nat) : ∃ r e, setErrBit s p i = { s with regs := r, ec := e } := by
  unfold setErrBit
  dsimp only
  split
  · exact ⟨s.regs, s.ec, rfl⟩
  · obtain ⟨r, e, h⟩ := setEvt_only (regSet s p (errOff p.kind) (regGet s p (errOff p.kind) ||| 2 ^ i)) p (2 ^ i)
    exact ⟨r, e, h⟩

theorem pushRec_only (s : State) (k n : Nat) (b : List Byte) :
    ∃ r e d, pushRec s k n b = { s with regs := r, ec := e, host := { s.host with devRings := d } } := by
  unfold pushRec
  dsimp only
  split
  · exact ⟨s.regs, s.ec, _, rfl⟩
  · exact (setErrBit_only _ pgHost 2).elim fun r h => h.elim fun e h => ⟨r, e, _, h⟩

theorem logFault_only (s : State) (f : FaultRec) :
    ∃ r e d, logFault s f = { s with regs := r, ec := e, host := { s.host with devRings := d } } := pushRec_only _ _ _ _

theorem setErr_only (s : State) (p : Page) (i : Nat) :
    ∃ r e d, setErr s p i = { s with regs := r, ec := e, host := { s.host with devRings := d } } := by
  unfold setErr
  split
  · exact ⟨s.regs, s.ec, s.host.devRings, rfl⟩
  · obtain ⟨r, e, h⟩ := setErrBit_only s p i
    dsimp only
    split
    · obtain ⟨r2, e2, d2, h2⟩ := logFault_only (setErrBit s p i) { kind := 9, d0 := 2 ^ i, addr := p.base + errOff p.kind }
      rw [h2, h]
      exact ⟨r2, e2, d2, rfl⟩
    · rw [h]; exact ⟨r, e, s.host.devRings, rfl⟩

theorem bumpWrap_only (s : State) (p : Page) (o n : Nat) : ∃ r, bumpWrap s p o n = { s with regs := r } := by
  unfold bumpWrap
  split
  · exact ⟨s.regs, rfl⟩
  · exact ⟨_, rfl⟩

theorem bumpSat_only (s : State) (p : Page) (o hi lo n : Nat) : ∃ r, bumpSat s p o hi lo n = { s with regs := r } := by
  unfold bumpSat
  split
  · exact ⟨s.regs, rfl⟩
  · exact ⟨_, rfl⟩

theorem dropFrame_only (s : State) : ∃ r, dropFrame s = { s with regs := r } := bumpSat_only _ _ _ _ _ _

theorem countCmd_only (s : State) : ∃ r, countCmd s = { s with regs := r } := bumpWrap_only _ _ _ _

theorem noteLatency_only (s : State) (h : Hdr) (n : Nat) :
    ∃ r e d, noteLatency s h n = { s with regs := r, ec := e, host := { s.host with devRings := d } } := by
  unfold noteLatency
  split
  · exact ⟨s.regs, s.ec, s.host.devRings, rfl⟩
  · dsimp only
    split
    · obtain ⟨r, e, d, h1⟩ := setErr_only (keepMax (regSet s pgHost Reg.HP_P0_LAST_NS (min h.lat 0xFFFFFFFF)) pgHost Reg.HP_P0_MAX_NS h.lat) pgHost 0
      obtain ⟨r2, e2, d2, h2⟩ := logFault_only (setErr (keepMax (regSet s pgHost Reg.HP_P0_LAST_NS (min h.lat 0xFFFFFFFF)) pgHost Reg.HP_P0_MAX_NS h.lat) pgHost 0) { kind := 8, d0 := 0 }
      rw [h2, h1]
      exact ⟨r2, e2, d2, rfl⟩
    · exact ⟨_, s.ec, s.host.devRings, rfl⟩

theorem logArrival_only (s : State) (q i : Nat) :
    ∃ r e d, logArrival s q i = { s with regs := r, ec := e, host := { s.host with devRings := d } } := logFault_only _ _

/-- A response puts one message out and takes its place in its session's window. -/
theorem respond_session (s : State) (id q src p st : Nat) (b : List Byte) :
    ∃ z, respond s (.session id q src p) st b =
      emit { s with host := { s.host with sessions := z } } (.resp { session := id, seq := q, status := st, payload := b, src := src }) := ⟨_, rfl⟩

theorem raisePrivate_only (s : State) (p i : Nat) : ∃ e, raisePrivate s p i = { s with ec := e } := by
  unfold raisePrivate
  split
  · exact ⟨_, rfl⟩
  · exact ⟨s.ec, rfl⟩

/-- Setting an error bit leaves every context. -/
theorem setErr_same_ctxs (s : State) (p : Page) (i : Nat) : (setErr s p i).ctxs = s.ctxs := by
  obtain ⟨r, e, d, h⟩ := setErr_only s p i; rw [h]

end Sys2Proof.Machine
end

