-- ==== Sys2Proof/Laws/Dispatch.lean ====
section
/-! SUPPORT. What dispatch does before a datagram's command runs, said once. -/

namespace Sys2Proof.Machine

/-- A state that differs from another in what dispatch itself may change. -/
def portOnly (s u : State) : Prop :=
  ∃ r e z d, u = { s with regs := r, ec := e, host := { s.host with sessions := z, devRings := d } }

theorem portOnly_refl (s : State) : portOnly s s := ⟨s.regs, s.ec, s.host.sessions, s.host.devRings, rfl⟩

theorem portOnly_trans {s u v : State} (a : portOnly s u) (b : portOnly u v) : portOnly s v := by
  obtain ⟨r, e, z, d, rfl⟩ := a
  obtain ⟨r2, e2, z2, d2, rfl⟩ := b
  exact ⟨r2, e2, z2, d2, rfl⟩

theorem noteLatency_sessions (s : State) (h : Hdr) (n : Nat) : (noteLatency s h n).host.sessions = s.host.sessions := by
  obtain ⟨r, e, d, x⟩ := noteLatency_only s h n; rw [x]

theorem countCmd_host (s : State) : (countCmd s).host = s.host := by obtain ⟨r, x⟩ := countCmd_only s; rw [x]

theorem portOnly_count (s : State) (h : Hdr) (n : Nat) : portOnly s (noteLatency (countCmd s) h n) := by
  obtain ⟨r, hr⟩ := countCmd_only s
  obtain ⟨r2, e, d, hn⟩ := noteLatency_only (countCmd s) h n
  exact ⟨r2, e, s.host.sessions, d, by rw [hn, hr]⟩

theorem portOnly_arrival (s : State) (q i : Nat) : portOnly s (logArrival s q i) := by
  obtain ⟨r, e, d, hn⟩ := logArrival_only s q i
  exact ⟨r, e, s.host.sessions, d, hn⟩

/-- A command that is taken up runs on the state as it was but for what dispatch itself changes; its session is open. -/
theorem viaSession_taken (h : Hdr) (n : Nat) (s : State) (f : State → Origin → State) (ht : taken h s = true) :
    ∃ u, portOnly s u ∧ (∀ j, j ≠ h.session → u.host.sessions.find j = s.host.sessions.find j) ∧ viaSession h n s f = f u (originOf h) := by
  simp only [taken, Bool.and_eq_true] at ht
  obtain ⟨⟨⟨h1, h2⟩, h3⟩, h4⟩ := ht
  split at h4
  · next x hx =>
    simp only [Bool.and_eq_true, Bool.not_eq_true', decide_eq_true_eq, bne_iff_ne, ne_eq] at h4
    obtain ⟨⟨⟨⟨a, b⟩, c⟩, d⟩, e⟩ := h4
    have hf : x.answers.find? (fun r => r.seq == h.seq) = none := by
      rw [List.find?_eq_none]
      intro r hr hq
      rw [List.any_eq_false] at a
      exact a r hr hq
    have hg : sessionGate h s = .run { s with host := { s.host with sessions := s.host.sessions.insert h.session { x with open_ := x.open_ ++ [h.seq] } } } := by
      unfold sessionGate
      simp only [hx, hf, b]
      have e1 : ¬ (h.seq + 64 ≤ x.high) := by omega
      have e2 : ¬ (x.open_.length ≥ 64) := by omega
      simp [e1, d, e2]
    unfold viaSession
    simp only [h1, h2, h3, hg, Bool.not_true, Bool.or_self, Bool.false_eq_true, if_false]
    have p0 : portOnly s { s with host := { s.host with sessions := s.host.sessions.insert h.session { x with open_ := x.open_ ++ [h.seq] } } } :=
      ⟨s.regs, s.ec, _, s.host.devRings, rfl⟩
    have p1 := portOnly_trans p0 (portOnly_count _ h n)
    have hs : ∀ j, j ≠ h.session → (SMap.insert h.session { x with open_ := x.open_ ++ [h.seq] } s.host.sessions).find j = s.host.sessions.find j :=
      fun j hj => SMap.find_insert_ne hj _ _
    split
    · refine ⟨_, portOnly_trans p1 (portOnly_arrival _ h.seq h.session), ?_, rfl⟩
      obtain ⟨r, e, d, hn⟩ := logArrival_only (noteLatency (countCmd { s with host := { s.host with sessions := s.host.sessions.insert h.session { x with open_ := x.open_ ++ [h.seq] } } }) h n) h.seq h.session
      rw [hn]
      intro j hj
      simp only [noteLatency_sessions, countCmd_host]
      exact hs j hj
    · refine ⟨_, p1, ?_, rfl⟩
      intro j hj
      simp only [noteLatency_sessions, countCmd_host]
      exact hs j hj
  · simp at h4

/-- A datagram's command that is taken up. -/
theorem datagram_taken (h : Hdr) (n : Nat) (cmd : HostCmd) (s : State) (ht : taken h s = true) :
    ∃ u, portOnly s u ∧ datagram h n cmd s = runCmd u (originOf h) h.ctx cmd := by
  obtain ⟨u, a, _, b⟩ := viaSession_taken h n s (fun t o => runCmd t o h.ctx cmd) ht
  exact ⟨u, a, b⟩

/-- A response ends a dispatch. -/
theorem dispatched_respond (h : Hdr) {s u : State} (st : Nat) (b : List Byte) (p : portOnly s u) :
    dispatched [respOf h st b] s (respond u (originOf h) st b) := by
  obtain ⟨r, e, z, d, rfl⟩ := p
  exact ⟨rfl, rfl⟩

end Sys2Proof.Machine
end

