-- ==== Sys2Proof/Laws/Registers.lean ====
section
/-! SUPPORT. Bits of registers: an error bit that is set reads one and stays, whatever the fault log then does. -/

namespace Sys2Proof.Machine

theorem bit_eq_testBit (x i : Nat) : bit x i = x.testBit i := by
  unfold bit bits
  rw [show i + 1 - i = 1 by omega, Nat.testBit_eq_decide_div_mod_eq, Nat.shiftRight_eq_div_pow]
  rfl

theorem bit_mod (x i : Nat) (h : i < 32) : bit (x % 2 ^ 32) i = bit x i := by
  rw [bit_eq_testBit, bit_eq_testBit, Nat.testBit_mod_two_pow]; simp [h]

theorem bit_or_two_pow (x i : Nat) : bit (x ||| 2 ^ i) i = true := by simp [bit_eq_testBit]

theorem bit_or_left (x y i : Nat) (h : bit x i = true) : bit (x ||| y) i = true := by
  simp only [bit_eq_testBit, Nat.testBit_or] at h ⊢; simp [h]

theorem updateLine_regs (s : State) (p : Page) : (updateLine s p).regs = s.regs := by
  obtain ⟨e, h⟩ := updateLine_only s p; rw [h]

theorem setEvt_regGet (s : State) (p q : Page) (m o : Nat) (h : q.base + o ≠ p.base + Reg.EVT_PEND) :
    regGet (setEvt s p m) q o = regGet s q o := by
  unfold setEvt
  rw [regGet_congr (congrArg RegBank.applied (updateLine_regs _ p)), regGet_regSet_ne _ _ _ _ _ _ h]

/-- A register of another address is left by an error bit. -/
theorem setErrBit_regGet_ne (s : State) (p q : Page) (i o : Nat) (h1 : q.base + o ≠ p.base + errOff p.kind)
    (h2 : q.base + o ≠ p.base + Reg.EVT_PEND) : regGet (setErrBit s p i) q o = regGet s q o := by
  unfold setErrBit
  dsimp only
  split
  · rfl
  · rw [setEvt_regGet _ _ _ _ _ h2, regGet_regSet_ne _ _ _ _ _ _ h1]

/-- A set error bit reads one. -/
theorem setErrBit_bit (s : State) (p : Page) (i : Nat) (hi : i < 32) (ho : errOff p.kind ≠ Reg.EVT_PEND) :
    bit (regGet (setErrBit s p i) p (errOff p.kind)) i = true := by
  unfold setErrBit
  dsimp only
  split
  · next h => exact h
  · rw [setEvt_regGet _ _ _ _ _ (by omega), regGet_regSet, bit_mod _ _ hi]
    exact bit_or_two_pow _ _

/-- An error bit that is set stays when another is set. -/
theorem setErrBit_keeps (s : State) (p : Page) (i j : Nat) (hi : i < 32) (ho : errOff p.kind ≠ Reg.EVT_PEND)
    (h : bit (regGet s p (errOff p.kind)) i = true) : bit (regGet (setErrBit s p j) p (errOff p.kind)) i = true := by
  unfold setErrBit
  dsimp only
  split
  · exact h
  · rw [setEvt_regGet _ _ _ _ _ (by omega), regGet_regSet, bit_mod _ _ hi]
    exact bit_or_left _ _ _ h

theorem pushRec_regGet (s : State) (k n : Nat) (b : List Byte) (q : Page) (o : Nat) (h1 : q.base + o ≠ pgHost.base + 0x0A4)
    (h2 : q.base + o ≠ pgHost.base + Reg.EVT_PEND) : regGet (pushRec s k n b) q o = regGet s q o := by
  unfold pushRec
  dsimp only
  split
  · rfl
  · exact setErrBit_regGet_ne _ pgHost q 2 o h1 h2

theorem pushRec_keeps (s : State) (k n : Nat) (b : List Byte) (i : Nat) (hi : i < 32) (h : bit (regGet s pgHost (errOff pgHost.kind)) i = true) :
    bit (regGet (pushRec s k n b) pgHost (errOff pgHost.kind)) i = true := by
  unfold pushRec
  dsimp only
  split
  · exact h
  · exact setErrBit_keeps _ pgHost i 2 hi (by decide) h

@[simp] theorem natLe_length : ∀ (n x : Nat), (natLe x n).length = n
  | 0, _ => rfl
  | n + 1, x => by simp [natLe, natLe_length n]

@[simp] theorem natBe_length (x n : Nat) : (natBe x n).length = n := by simp [natBe]

/-- A register outside the host port's error and event registers is left by the fault log. -/
theorem logFault_regGet (s : State) (f : FaultRec) (q : Page) (o : Nat) (h1 : q.base + o ≠ pgHost.base + 0x0A4)
    (h2 : q.base + o ≠ pgHost.base + Reg.EVT_PEND) : regGet (logFault s f) q o = regGet s q o := pushRec_regGet _ _ _ _ _ _ h1 h2

/-- A register away from the page's error and event registers, and from the host port's, is left by an error. -/
theorem setErr_regGet (s : State) (p q : Page) (i o : Nat) (h1 : q.base + o ≠ p.base + errOff p.kind) (h2 : q.base + o ≠ p.base + Reg.EVT_PEND)
    (h3 : q.base + o ≠ pgHost.base + 0x0A4) (h4 : q.base + o ≠ pgHost.base + Reg.EVT_PEND) : regGet (setErr s p i) q o = regGet s q o := by
  unfold setErr
  split
  · rfl
  · dsimp only
    split
    · rw [logFault_regGet _ _ _ _ h3 h4, setErrBit_regGet_ne _ _ _ _ _ h1 h2]
    · rw [setErrBit_regGet_ne _ _ _ _ _ h1 h2]

/-- An error of a page is flagged in its error register (R430). -/
theorem setErr_bit (s : State) (p : Page) (i : Nat) (hi : i < 32) (ho : errOff p.kind ≠ Reg.EVT_PEND)
    (hp : p = pgHost ∨ (p.base + errOff p.kind ≠ pgHost.base + 0x0A4 ∧ p.base + errOff p.kind ≠ pgHost.base + Reg.EVT_PEND)) :
    bit (regGet (setErr s p i) p (errOff p.kind)) i = true := by
  unfold setErr
  split
  · next h => exact h
  · dsimp only
    split
    · rcases hp with rfl | ⟨h1, h2⟩
      · exact pushRec_keeps _ _ _ _ _ hi (setErrBit_bit _ _ _ hi ho)
      · rw [logFault_regGet _ _ _ _ h1 h2]; exact setErrBit_bit _ _ _ hi ho
    · exact setErrBit_bit _ _ _ hi ho

end Sys2Proof.Machine
end

