-- ==== Sys2Proof/Laws/Swings.lean ====
section
/-! SUPPORT. Pages of a hub, the copies between the register banks, swings. -/

namespace Sys2Proof.Machine

theorem onHub_iff (p : Page) : onHub p = true ↔ p.base < 0x08000000 ∧ p.kind < 0x30 := by simp [onHub]

theorem onHub_hall {p : Page} (h : onHub p = true) : p.hall = none := by
  have := (onHub_iff p).mp h
  unfold Page.hall; rw [if_neg]; omega

theorem onHub_gal {p : Page} (h : onHub p = true) : pageGal p = none := by
  have := (onHub_iff p).mp h
  unfold pageGal Page.gallery; rw [if_neg (by omega)]; rfl

theorem onHub_aisle {p : Page} (h : onHub p = true) : p.kind ≠ 0x33 := by
  have := (onHub_iff p).mp h; omega

/-- An access to a page of a hub opens no gate. -/
theorem touch_hub (s : State) {p : Page} (h : onHub p = true) : touch s p = s := by
  unfold touch; rw [onHub_hall h, onHub_gal h]

theorem quietCtxs_hub (s : State) {p : Page} (h : onHub p = true) : quietCtxs s p = [] := by
  unfold quietCtxs; rw [onHub_gal h]; simp [onHub_aisle h]

theorem atQuiet_hub (s : State) {p : Page} (h : onHub p = true) : atQuiet s p = !recovering s := by
  unfold atQuiet; rw [onHub_gal h]; simp [onHub_aisle h]

theorem holdSwaps_hub (s : State) {p : Page} (h : onHub p = true) : holdSwaps s p = s := by
  unfold holdSwaps; rw [if_neg (onHub_aisle h)]

theorem releaseCtxs_hub (s : State) {p : Page} (h : onHub p = true) : releaseCtxs s [p] [] = s := by
  unfold releaseCtxs; simp [onHub_aisle h]

theorem bit_and (x y i : Nat) : bit (x &&& y) i = (bit x i && bit y i) := by simp [bit_eq_testBit]

/-- Numbers without a common bit add without a carry. -/
theorem add_eq_or (x y : Nat) (h : x &&& y = 0) : x + y = x ||| y := by
  have hw : x + y < 2 ^ (x + y) := Nat.lt_two_pow_self
  have hx : x < 2 ^ (x + y) := by omega
  have hy : y < 2 ^ (x + y) := by omega
  have e := BitVec.add_eq_or_of_and_eq_zero (BitVec.ofNat (x + y) x) (BitVec.ofNat (x + y) y) (by
    apply BitVec.eq_of_toNat_eq
    rw [BitVec.toNat_and, BitVec.toNat_ofNat, BitVec.toNat_ofNat, Nat.mod_eq_of_lt hx, Nat.mod_eq_of_lt hy, h]; rfl)
  have e2 := congrArg BitVec.toNat e
  rw [BitVec.toNat_add, BitVec.toNat_or, BitVec.toNat_ofNat, BitVec.toNat_ofNat, Nat.mod_eq_of_lt hx, Nat.mod_eq_of_lt hy, Nat.mod_eq_of_lt hw] at e2
  exact e2

theorem sub_and (a m : Nat) : a - (a &&& m) = a ^^^ (a &&& m) := by
  have h : (a &&& m) &&& (a ^^^ (a &&& m)) = 0 := by
    apply Nat.eq_of_testBit_eq; intro i; simp only [Nat.testBit_and, Nat.testBit_xor, Nat.zero_testBit]
    cases a.testBit i <;> cases m.testBit i <;> rfl
  have h2 := add_eq_or (a &&& m) (a ^^^ (a &&& m)) h
  have h3 : (a &&& m) ||| (a ^^^ (a &&& m)) = a := by
    apply Nat.eq_of_testBit_eq; intro i; simp only [Nat.testBit_and, Nat.testBit_xor, Nat.testBit_or]
    cases a.testBit i <;> cases m.testBit i <;> rfl
  omega

/-- Bits outside a mask are kept by a difference. -/
theorem bit_sub_and (a m i : Nat) : bit (a - (a &&& m)) i = (bit a i && !bit m i) := by
  rw [sub_and]; simp only [bit_eq_testBit, Nat.testBit_xor, Nat.testBit_and]
  cases a.testBit i <;> cases m.testBit i <;> rfl

/-- A word with the bits of a mask replaced. -/
theorem bit_mix (m a b i : Nat) : bit ((a - (a &&& m)) + (b &&& m)) i = if bit m i then bit b i else bit a i := by
  have h : (a - (a &&& m)) &&& (b &&& m) = 0 := by
    rw [sub_and]; apply Nat.eq_of_testBit_eq; intro i; simp only [Nat.testBit_and, Nat.testBit_xor, Nat.zero_testBit]
    cases a.testBit i <;> cases m.testBit i <;> cases b.testBit i <;> rfl
  rw [add_eq_or _ _ h]
  simp only [bit_eq_testBit, Nat.testBit_or, Nat.testBit_and]
  have := bit_sub_and a m i
  simp only [bit_eq_testBit] at this
  rw [this]
  cases a.testBit i <;> cases m.testBit i <;> cases b.testBit i <;> rfl

/-- What a plain write leaves, bit by bit and by access, in both banks; every other address stays (R431, R433). -/
theorem plainWrite_spec (s : State) (p : Page) (off x : Nat) :
   ∃ r, plainWrite s p off x = { s with regs := r } ∧
    (∀ i, i < 32 → bit (regGet (plainWrite s p off x) p off) i =
      ((if bit (maskAt p.kind off .rw ||| maskAt p.kind off .rwr) i then bit x i else bit (regGet s p off) i) && !(bit (maskAt p.kind off .w1c) i && bit x i)) ∧
      bit (shadowGet (plainWrite s p off x) p off) i = (if bit (maskAt p.kind off .rws) i then bit x i else bit (shadowGet s p off) i)) ∧
    (∀ (q : Page) (u : Nat), q.base + u ≠ p.base + off → regGet (plainWrite s p off x) q u = regGet s q u ∧ shadowGet (plainWrite s p off x) q u = shadowGet s q u) := by
  have hs1 : ∀ s1 : State, (∃ a, s1 = { s with regs := { s.regs with applied := a } }) →
      ∃ r, (if maskAt p.kind off .rws = 0 then s1 else rejudge (shadowSet s1 p off (maskIn (maskAt p.kind off .rws) (shadowGet s1 p off) x)) p) = { s with regs := r } ∧
        r.applied = s1.regs.applied ∧ (∀ i, i < 32 → bit (SMap.get (resetAt p.kind off) (p.base + off) r.shadow) i = (if bit (maskAt p.kind off .rws) i then bit x i else bit (shadowGet s p off) i)) ∧
        (∀ (q : Page) (u : Nat), q.base + u ≠ p.base + off → SMap.get (resetAt q.kind u) (q.base + u) r.shadow = shadowGet s q u) := by
    rintro s1 ⟨a, rfl⟩
    split
    · next h => 
      refine ⟨_, rfl, rfl, ?_, fun q u _ => rfl⟩
      intro i _; simp [h, bit, bits]; rfl
    · have hm : ∀ i, i < 32 → bit (SMap.get (resetAt p.kind off) (p.base + off) (shadowSet { s with regs := { s.regs with applied := a } } p off (maskIn (maskAt p.kind off .rws) (shadowGet { s with regs := { s.regs with applied := a } } p off) x)).regs.shadow) i = (if bit (maskAt p.kind off .rws) i then bit x i else bit (shadowGet s p off) i) := by
        intro i hi
        show bit (shadowGet (shadowSet _ p off _) p off) i = _
        rw [shadowGet_shadowSet, bit_mod _ _ hi]; exact bit_mix _ _ _ _
      have hn : ∀ (q : Page) (u : Nat), q.base + u ≠ p.base + off → SMap.get (resetAt q.kind u) (q.base + u) (shadowSet { s with regs := { s.regs with applied := a } } p off (maskIn (maskAt p.kind off .rws) (shadowGet { s with regs := { s.regs with applied := a } } p off) x)).regs.shadow = shadowGet s q u := by
        intro q u h
        unfold shadowSet SMap.get SMap.put shadowGet SMap.get
        dsimp only
        split
        · rw [SMap.find_erase_ne h]
        · rw [SMap.find_insert_ne h]
      unfold rejudge
      dsimp only
      split
      · exact ⟨_, rfl, rfl, hm, hn⟩
      · exact ⟨_, rfl, rfl, hm, hn⟩
  have h1 : ∃ a, (if maskAt p.kind off .rw ||| maskAt p.kind off .rwr = 0 ∧ maskAt p.kind off .w1c &&& x = 0 then s else regSet s p off
      (maskIn (maskAt p.kind off .rw ||| maskAt p.kind off .rwr) (regGet s p off) x - (maskIn (maskAt p.kind off .rw ||| maskAt p.kind off .rwr) (regGet s p off) x &&& (maskAt p.kind off .w1c &&& x)))) = { s with regs := { s.regs with applied := a } } := by
    split
    · exact ⟨_, rfl⟩
    · exact ⟨_, rfl⟩
  have h2 : (∀ i, i < 32 → bit (regGet (if maskAt p.kind off .rw ||| maskAt p.kind off .rwr = 0 ∧ maskAt p.kind off .w1c &&& x = 0 then s else regSet s p off
      (maskIn (maskAt p.kind off .rw ||| maskAt p.kind off .rwr) (regGet s p off) x - (maskIn (maskAt p.kind off .rw ||| maskAt p.kind off .rwr) (regGet s p off) x &&& (maskAt p.kind off .w1c &&& x)))) p off) i =
      ((if bit (maskAt p.kind off .rw ||| maskAt p.kind off .rwr) i then bit x i else bit (regGet s p off) i) && !(bit (maskAt p.kind off .w1c) i && bit x i))) := by
    intro i hi
    split
    · next h =>
      have e2 := congrArg (fun v => bit v i) h.2
      simp only [bit_and] at e2
      have z : bit 0 i = false := by simp [bit, bits]
      rw [z] at e2
      rw [h.1, z, e2]; simp
    · rw [regGet_regSet, bit_mod _ _ hi, bit_sub_and, bit_and]
      unfold maskIn
      rw [bit_mix]
  have h3 : ∀ (q : Page) (u : Nat), q.base + u ≠ p.base + off → regGet (if maskAt p.kind off .rw ||| maskAt p.kind off .rwr = 0 ∧ maskAt p.kind off .w1c &&& x = 0 then s else regSet s p off
      (maskIn (maskAt p.kind off .rw ||| maskAt p.kind off .rwr) (regGet s p off) x - (maskIn (maskAt p.kind off .rw ||| maskAt p.kind off .rwr) (regGet s p off) x &&& (maskAt p.kind off .w1c &&& x)))) q u = regGet s q u := by
    intro q u h
    split
    · rfl
    · exact regGet_regSet_ne _ _ _ _ _ _ h
  obtain ⟨r, e, ha, hb, hc⟩ := hs1 _ h1
  have e' : plainWrite s p off x = { s with regs := r } := e
  refine ⟨r, e', ?_, ?_⟩
  · intro i hi
    rw [e']
    refine ⟨?_, hb i hi⟩
    rw [← h2 i hi]
    exact congrArg (fun v => bit v i) (regGet_congr (by rw [ha]) p off)
  · intro q u h
    rw [e']
    refine ⟨?_, hc q u h⟩
    rw [← h3 q u h]
    exact regGet_congr (by rw [ha]) q u

/-- The copy of staged fields into the applied bank, register by register: each takes its mix, every other address stays. -/
theorem applyRws_regGet (p : Page) : ∀ (l : List Nat) (s : State) (q : Page) (u : Nat), l.Nodup →
    (∀ o, o ∈ l → q = p ∧ u = o ∨ q.base + u ≠ p.base + o) →
    regGet (l.foldl (fun s o => regSet s p o (mergeRws p o (regGet s p o) (shadowGet s p o))) s) q u =
      if q = p ∧ u ∈ l then mergeRws p u (regGet s p u) (shadowGet s p u) % 2 ^ 32 else regGet s q u
  | [], s, q, u, _, _ => by simp
  | o :: t, s, q, u, hn, hd => by
    have hn' := List.nodup_cons.mp hn
    rw [List.foldl_cons, applyRws_regGet p t _ q u hn'.2 (fun x hx => hd x (List.mem_cons_of_mem _ hx))]
    rcases hd o List.mem_cons_self with ⟨rfl, rfl⟩ | hne
    · simp [hn'.1]
    · have hqu : ¬ (q = p ∧ u = o) := fun h => hne (by rw [h.1, h.2])
      by_cases hm : q = p ∧ u ∈ t
      · have hm2 : q = p ∧ u ∈ o :: t := ⟨hm.1, List.mem_cons_of_mem _ hm.2⟩
        rw [if_pos hm, if_pos hm2]
        obtain ⟨rfl, hm3⟩ := hm
        rw [shadowGet_regSet, regGet_regSet_ne _ _ _ _ _ _ hne]
      · have hm2 : ¬ (q = p ∧ u ∈ o :: t) := fun h => by
          rcases List.mem_cons.mp h.2 with h2 | h2
          · exact hqu ⟨h.1, h2⟩
          · exact hm ⟨h.1, h2⟩
        rw [if_neg hm, if_neg hm2, regGet_regSet_ne _ _ _ _ _ _ hne]

theorem applyRws_only (p : Page) : ∀ (l : List Nat) (s : State), ∃ a,
    l.foldl (fun s o => regSet s p o (mergeRws p o (regGet s p o) (shadowGet s p o))) s = { s with regs := { s.regs with applied := a } }
  | [], s => ⟨s.regs.applied, rfl⟩
  | o :: t, s => by
    obtain ⟨a, h⟩ := applyRws_only p t (regSet s p o (mergeRws p o (regGet s p o) (shadowGet s p o)))
    exact ⟨a, by rw [List.foldl_cons, h]; rfl⟩

theorem nodup_eraseDups : ∀ (n : Nat) (l : List Nat), l.length ≤ n → l.eraseDups.Nodup
  | _, [], _ => by simp
  | n + 1, a :: t, h => by
    rw [List.eraseDups_cons, List.nodup_cons]
    refine ⟨?_, nodup_eraseDups n _ ?_⟩
    · rw [List.mem_eraseDups]; simp
    · have := List.length_filter_le (fun b => !b == a) t
      simp at h; omega

theorem rwsOffs_nodup (k : Nat) : (rwsOffs k).Nodup := by
  unfold rwsOffs
  exact List.Nodup.filter _ (nodup_eraseDups _ _ (Nat.le_refl _))

end Sys2Proof.Machine
end

