-- ==== Sys2Proof/Laws/Work.lean ====
section
/-! SUPPORT. What the operations of a step's work can do, each said once: attempts, counters, recoveries, rows, the update engines' ports. -/

namespace Sys2Proof.Machine

/-! Attempts. -/

/-- Changing an attempt changes no more of its context. -/
@[simp] theorem getCtx_modAttempt (s : State) (n : Nat) (f : Attempt → Attempt) :
    getCtx (modAttempt s n f) n = { getCtx s n with attempt := (getCtx s n).attempt.map f } := by simp [modAttempt]

theorem getCtx_modAttempt_ne (s : State) {m n : Nat} (h : m ≠ n) (f : Attempt → Attempt) : getCtx (modAttempt s n f) m = getCtx s m :=
  getCtx_modCtx_ne s h _

/-- Nothing outside the contexts changes. -/
theorem modAttempt_only (s : State) (n : Nat) (f : Attempt → Attempt) : ∃ c, modAttempt s n f = { s with ctxs := c } := ⟨_, rfl⟩

/-! Counters. -/

theorem bump64_only (s : State) (p : Page) (lo n : Nat) : ∃ r, bump64 s p lo n = { s with regs := r } := by
  unfold bump64
  split
  · exact ⟨s.regs, rfl⟩
  · exact ⟨_, rfl⟩

/-- A 64-bit counter that is not held takes the sum, word by word. -/
theorem bump64_words (s : State) (p : Page) (lo n : Nat) (h : cntHold s p = false) :
    regGet (bump64 s p lo n) p lo = (regGet s p lo + 2 ^ 32 * regGet s p (lo + 4) + n) % 2 ^ 32 ∧
    regGet (bump64 s p lo n) p (lo + 4) = (regGet s p lo + 2 ^ 32 * regGet s p (lo + 4) + n) / 2 ^ 32 % 2 ^ 32 := by
  unfold bump64
  simp only [h, Bool.false_eq_true, if_false]
  constructor
  · rw [regGet_regSet_ne _ _ _ _ _ _ (by omega), regGet_regSet]
  · rw [regGet_regSet]

theorem keepMax_only (s : State) (p : Page) (o n : Nat) : ∃ r, keepMax s p o n = { s with regs := r } := ⟨_, rfl⟩

/-! Recoveries (R316, R318). -/

theorem beginRecovery_only (s : State) (cls unit dev code : Nat) (lease : Bool) (addr : Nat) :
    ∃ r e d x, beginRecovery s cls unit dev code lease addr =
      { s with regs := r, ec := e, recovery := some x, host := { s.host with devRings := d } } := by
  unfold beginRecovery
  obtain ⟨r, e, d, h⟩ := logFault_only s { kind := 0, cls := cls, device := dev, unit := unit, d0 := code, addr := addr }
  rw [h]
  dsimp only
  split
  · next x hx =>
    obtain ⟨r2, e2, d2, h2⟩ := setErr_only (regSet (regSet { s with regs := r, ec := e, host := { s.host with devRings := d } } pgFault Reg.FM_LAST
      (cls % 16 + dev % 4096 * 16)) pgFault Reg.FM_LAST_UNIT (lastUnit cls unit)) pgFault 1
    rw [h2]
    exact ⟨_, _, _, _, rfl⟩
  · exact ⟨_, _, _, _, rfl⟩

theorem recoveryWaits_only (s : State) (ns : List Nat) (t : Nat) : ∃ x, recoveryWaits s ns t = { s with recovery := x } := ⟨_, rfl⟩

theorem settleRecovery_only (s : State) :
    ∃ r e d x, settleRecovery s = { s with regs := r, ec := e, recovery := x, host := { s.host with devRings := d } } := by
  unfold settleRecovery
  split
  · exact ⟨s.regs, s.ec, s.host.devRings, s.recovery, rfl⟩
  · next q hq =>
    split
    · exact ⟨s.regs, s.ec, s.host.devRings, s.recovery, rfl⟩
    · dsimp only
      obtain ⟨r, e, d, h⟩ := logFault_only (keepMax (regSet { s with recovery := none } pgFault Reg.FM_LAST_NS (min q.ns 0xFFFFFFFF)) pgFault Reg.FM_MAX_NS q.ns)
        { kind := 1, cls := q.cls, device := deviceId s, unit := q.unit, ns := min q.ns 0xFFFFFFFF }
      rw [h]
      split
      · obtain ⟨r1, e1, d1, h1⟩ := setErr_only { keepMax (regSet { s with recovery := none } pgFault Reg.FM_LAST_NS (min q.ns 0xFFFFFFFF)) pgFault Reg.FM_MAX_NS q.ns with
          regs := r, ec := e, host := { s.host with devRings := d } } pgFault 0
        obtain ⟨r2, e2, d2, h2⟩ := logFault_only { keepMax (regSet { s with recovery := none } pgFault Reg.FM_LAST_NS (min q.ns 0xFFFFFFFF)) pgFault Reg.FM_MAX_NS q.ns with
          regs := r1, ec := e1, host := { s.host with devRings := d1 } } { kind := 8, cls := q.cls, device := deviceId s, unit := q.unit, d0 := q.cls }
        exact ⟨r2, e2, d2, none, by
          refine Eq.trans (congrArg (fun z => logFault z _) ?_) h2
          exact h1⟩
      · exact ⟨r, e, d, none, rfl⟩

/-! Rows (R335). -/

/-- A retired row is on its stack's list. -/
theorem retireRow_mem (s : State) (h row : Nat) : row ∈ (getMc (retireRow s h row) h).retired := by
  unfold retireRow
  dsimp only
  split
  · next k => simpa using k
  · split
    · obtain ⟨r, e, d, q⟩ := setErr_only (putMc s h { { getMc s h with retired := (getMc s h).retired ++ [row], events := (getMc s h).events.erase row } with
        spares := (getMc s h).spares.put 0 (Config.bankOf row) ((getMc s h).spares.get 0 (Config.bankOf row) + 1) }) (pgMemory h) 1
      rw [q]
      change row ∈ (getMc (putMc s h _) h).retired
      simp
    · obtain ⟨r, e, d, q⟩ := setErr_only (putMc s h { { getMc s h with retired := (getMc s h).retired ++ [row], events := (getMc s h).events.erase row } with
        withdrawn := (getMc s h).withdrawn + Config.rowBytes }) (pgMemory h) 1
      rw [q]
      obtain ⟨r2, e2, d2, q2⟩ := setErr_only { putMc s h { { getMc s h with retired := (getMc s h).retired ++ [row], events := (getMc s h).events.erase row } with
        withdrawn := (getMc s h).withdrawn + Config.rowBytes } with regs := r, ec := e, host := { s.host with devRings := d } } (pgMemory h) 2
      refine Eq.mp (congrArg (fun z => row ∈ (getMc z h).retired) q2.symm) ?_
      change row ∈ (getMc (putMc s h _) h).retired
      simp

/-! The update engines' ports (R145). -/

/-- An empty port has nothing to take. -/
@[simp] theorem drainHall_empty (s : State) (h : Nat) (e : s.update.ports.get [] h = []) : drainHall s h = s := by
  simp [drainHall, e, drainPort]

/-- A port whose head the engine cannot take yet stands still (R145). -/
theorem drainHall_blocked (s : State) (h : Nat) (x : Nat × Nat) (l : List (Nat × Nat)) (e : s.update.ports.get [] h = x :: l)
    (b : engineReady s h x = false) : drainHall s h = s := by
  simp [drainHall, e, drainPort, b]

end Sys2Proof.Machine
end

