-- ==== Sys2Proof/WellFormed.lean ====
section
/-! DEFINITION. When a command is well formed: every field lies in the range that the spec's encodings and layouts give it (R9, R173, R191, R264,
R266, R342, R363, R366, R368, R369, R383, R427). -/

namespace Sys2Proof

/-- A command's header: PRIO of 2 bits, SESSION of 16, SEQ of 32, CTX of 10 (R366). -/
def Hdr.ok (h : Hdr) : Bool := decide (h.prio < 4) && decide (h.session < 65536) && decide (h.seq < 4294967296) && decide (h.ctx < 1024)

/-- A buffer reference (R363). -/
def BufRef.ok (b : BufRef) : Bool := decide (b.qp < 65536) && decide (b.rkey < 4294967296) && decide (b.addr < 2 ^ 64) && decide (b.len < 2 ^ 64)

/-- NET_CONFIG: addresses of their widths, at most sixteen entries (R361, R368). -/
def NetCfg.ok (c : NetCfg) : Bool :=
  decide (c.ipv4 < 4294967296) && decide (c.ipv6 < 2 ^ 128) && decide (c.pfx < 256) && decide (c.allow.length ≤ 16) && c.allow.all (fun a => decide (a < 2 ^ 128))

/-- QP_CONNECT (R362, R368). -/
def QpCfg.ok (c : QpCfg) : Bool :=
  decide (c.pmtu < 256) && decide (c.retry < 8) && decide (c.rnr < 8) && decide (c.rqpn < 4294967296) && decide (c.gid < 2 ^ 128) &&
    decide (c.sqPsn < 4294967296) && decide (c.rqPsn < 4294967296)

/-- RESTORE (R368). -/
def RestoreArgs.ok (r : RestoreArgs) : Bool := r.image.ok && r.plan.all BufRef.ok && r.table.all BufRef.ok

/-- A ring entry (R369). -/
def RingEntry.ok (e : RingEntry) : Bool := decide (e.seq < 4294967296) && decide (e.ctx < 1024) && decide (e.len ≤ 8192)

/-- A work order's header: a member slot, a phase of 4 bits, a tread of the stair, five rounding attributes (R264, R265). -/
def WoHdr.ok (w : WoHdr) : Bool :=
  decide (w.ctx < 1024) && decide (w.hall < 8) && decide (w.aisle < 16) && decide (w.slot < 66) && decide (w.layer < 65536) && decide (w.phase < 16) &&
    decide (w.tread < 8) && decide (w.half < 2) && decide (w.waitPeg < 65536) && decide (w.donePeg < 65536) && decide (w.rnd < 5)

/-- A tensor identifier of 24 bits (R256). -/
def tidOk (t : Nat) : Bool := decide (t < 16777216)

/-- A format byte. -/
def fmtOk (f : Nat) : Bool := decide (f < 256)

/-- A matrix tile: its bay is F, X or W (R266). -/
def MtArgs.ok (a : MtArgs) : Bool :=
  tidOk a.w && tidOk a.a && tidOk a.y && fmtOk a.wFmt && fmtOk a.aFmt && fmtOk a.yFmt && decide (a.bay < 3) && decide (1 ≤ a.m) && decide (1 ≤ a.n) && decide (1 ≤ a.k)

/-- An element-wise work order (R266). -/
def EwArgs.ok (a : EwArgs) : Bool :=
  fmtOk a.outFmt && tidOk a.in0 && tidOk a.in1 && tidOk a.in2 && tidOk a.out && tidOk a.aux && decide (a.p0 < 4294967296) && decide (a.p1 < 4294967296)

/-- A reduction (R266). -/
def RdArgs.ok (a : RdArgs) : Bool := fmtOk a.outFmt && tidOk a.in0 && tidOk a.in1 && tidOk a.out

/-- A movement (R266). -/
def MvArgs.ok (a : MvArgs) : Bool := tidOk a.src && tidOk a.dst && decide (a.srcOff < 2 ^ 64) && decide (a.dstOff < 2 ^ 64) && decide (a.len < 2 ^ 64)

/-- An MX option: an element code and a block code (R266). -/
def MxArgs.ok (a : MxArgs) : Bool := decide (a.elem < 4) && decide (a.block < 4)

/-- A peg operation (R266). -/
def PegArgs.ok (a : PegArgs) : Bool := decide (a.peg < 65536) && decide (a.device < 65536) && decide (a.value < 4294967296)

/-- An evaluation pass (R266). -/
def EvArgs.ok (a : EvArgs) : Bool := decide (a.evalno < 4294967296) && tidOk a.input && tidOk a.report && decide (a.lfirst < 65536) && decide (a.llast < 65536)

/-- A simulation kernel (R266). -/
def SkArgs.ok (a : SkArgs) : Bool := decide (a.prec < 16) && tidOk a.a && tidOk a.b && tidOk a.c && decide (1 ≤ a.m) && decide (1 ≤ a.n) && decide (1 ≤ a.k)

/-- A peg operation on the fabric (R383). -/
def PegMsg.ok (m : PegMsg) : Bool :=
  decide (m.src < 4096) && decide (m.ctx < 1024) && decide (m.peg < 65536) && decide (m.op < 8) && decide (m.value < 4294967296) && decide (m.tag < 4294967296)

/-- An exchange packet: a bucket tag of 12 bits, hops and chunk in their fields (R191). -/
def ExPkt.ok (p : ExPkt) : Bool := decide (p.tag < 4096) && decide (p.step < 4294967296) && decide (p.src < 4096) && decide (p.bump < 255) && decide (p.gmax < 65536)

/-- A mirror record (R162). -/
def MirrorRec.ok (m : MirrorRec) : Bool := decide (m.ctx < 1024) && tidOk m.tid && decide (m.step < 4294967296)

/-- A step summary (R215). -/
def StepSummary.ok (m : StepSummary) : Bool := decide (m.ctx < 1024) && decide (m.step < 4294967296)

/-- A page's address: a multiple of 4 KiB in the register space (R427). -/
def pageAddr (a : Nat) : Bool := a % 4096 == 0 && decide (a < 268435456)

/-- Every field of a command in its range. -/
def Instr.ok : Instr → Bool
  | .open_ h => h.ok
  | .close h => h.ok
  | .regRead h addr count => h.ok && decide (addr < 4294967296) && decide (1 ≤ count ∧ count ≤ 256)
  | .regWrite _ h addr ws => h.ok && decide (addr < 4294967296) && decide (1 ≤ ws.length ∧ ws.length ≤ 256)
  | .netConfig h c => h.ok && c.ok
  | .qpConnect h qp c => h.ok && decide (qp < 65536) && c.ok
  | .qpDestroy h qp => h.ok && decide (qp < 65536)
  | .ringConfig h ring prio qp _ => h.ok && decide (ring < 256) && decide (prio < 256) && decide (qp < 65536)
  | .create h _ _ => h.ok
  | .loadPlan h plan table => h.ok && plan.ok && table.ok
  | .setSeed h _ => h.ok
  | .activate h table => h.ok && table.all BufRef.ok
  | .deactivate h => h.ok
  | .switch h outs incoming table => h.ok && decide (outs.length ≤ 8) && outs.all (fun x => decide (x < 1024)) && decide (incoming < 1024) && table.all BufRef.ok
  | .resume h => h.ok
  | .export_ h b => h.ok && b.ok
  | .restore h r => h.ok && r.ok
  | .exportKj7 h b => h.ok && b.ok
  | .destroy h => h.ok
  | .admit_ h off len => h.ok && decide (off < 2 ^ 64) && decide (len < 2 ^ 64)
  | .eval h evalno _ off len => h.ok && decide (evalno < 4294967296) && decide (off < 2 ^ 64) && decide (len < 2 ^ 64)
  | .setWindow h b => h.ok && b.ok
  | .selfTest h unit _ => h.ok && decide (unit < 4294967296)
  | .pair h twin links table => h.ok && decide (twin < 4096) && decide (links < 2 ^ 48) && table.ok
  | .probeLoad h b => h.ok && b.ok
  | .fwUpdate h b => h.ok && b.ok
  | .attest h nonce => h.ok && nonce.length == 32
  | .cert h => h.ok
  | .unpair h => h.ok
  | .telemConfig h stream mode b => h.ok && decide (stream < 256) && decide (mode < 256) && b.ok
  | .doorbell qp ring producer lat _ => decide (qp < 65536) && decide (ring < 256) && decide (producer < 4294967296) && decide (lat < 2 ^ 64)
  | .rdmaWrite qp ring index entry _ => decide (qp < 65536) && decide (ring < 256) && decide (index < 4294967296) && entry.all RingEntry.ok
  | .transferDone id _ _ => decide (id < 2 ^ 64)
  | .qpError qp => decide (qp < 65536)
  | .cnp qp => decide (qp < 65536)
  | .hpCcPeriod qp => decide (qp < 65536)
  | .pfc prio _ => decide (prio < 8)
  | .arp src target => decide (src < 2 ^ 48) && decide (target < 4294967296)
  | .neighbourDiscovery src target => decide (src < 2 ^ 128) && decide (target < 2 ^ 128)
  | .icmpEcho src target _ _ => decide (src < 2 ^ 128) && decide (target < 2 ^ 128)
  | .sessIdle session => decide (session < 65536)
  | .telemetryRecord stream ctx consumer => decide (stream < 6) && decide (ctx < 1024) && decide (consumer < 2 ^ 64)
  | .blkSwingGo page group => pageAddr page && decide (group < 16)
  | .blkSwingCancel page => pageAddr page
  | .swingApply page => pageAddr page
  | .swingFire => true
  | .swingAbort => true
  | .swingPegArrive page => pageAddr page
  | .holdMax group ms => decide (group < 16) && decide (ms < 4294967296)
  | .geWordLo _ => true
  | .geWordHi _ => true
  | .geHistFetch slot => decide (slot < 16)
  | .geHistReady => true
  | .latchHighWord addr => decide (addr < 4294967296)
  | .rnGo _ => true
  | .rnDone => true
  | .seTest _ => true
  | .warm => true
  | .ecRing writer target => decide (writer < 5) && decide (target < 8)
  | .ecScfg _ => true
  | .pgGreach hall _ => decide (hall < 8)
  | .evtSet page _ => pageAddr page
  | .poresetNAssert => true
  | .poresetNRelease _ => true
  | .flashErase addr len => decide (addr < 4294967296) && decide (len < 2 ^ 64)
  | .flashWrite addr _ => decide (addr < 4294967296)
  | .warmresetNFall => true
  | .warmresetNRise => true
  | .ready => true
  | .romWatchdog => true
  | .fwWriteDone => true
  | .wakeN _ => true
  | .pwWake _ => true
  | .dormantEntry => true
  | .refLost => true
  | .supplyLost input mv => decide (input < 2) && decide (mv < 4294967296)
  | .supplyReturn input mv => decide (input < 2) && decide (mv < 4294967296)
  | .stbyLost mv => decide (mv < 4294967296)
  | .powerLost => true
  | .powerReturn input mv => decide (input < 2) && decide (mv < 4294967296)
  | .thermalTrip unit sensor _ => decide (unit < 10) && decide (sensor < 65)
  | .dutyUpdate _ watts => decide (watts < 4294967296)
  | .sensorStale unit sensor => decide (unit < 10) && decide (sensor < 65)
  | .railFault unit rail mv gallery => decide (unit < 10) && decide (rail < 65536) && decide (mv < 4294967296) && gallery.all (fun x => decide (x < 8704))
  | .monitorRecord unit => decide (unit < 10)
  | .ecsRead _ => true
  | .gateIdle hall aisle gallery => decide (hall < 8) && decide (aisle < 16) && decide (gallery < 68)
  | .gateOpen hall aisle gallery _ => decide (hall < 8) && decide (aisle < 16) && decide (gallery < 68)
  | .hallIdle hall => decide (hall < 8)
  | .hallWakeDone hall ns tests => decide (hall < 8) && decide (ns < 2 ^ 64) && tests.bad.all (fun k => decide (k < 8704))
  | .frameQueueAccept ctx frame => decide (ctx < 1024) && decide (frame < 65536)
  | .matrixTile w a => w.ok && a.ok
  | .add w a => w.ok && a.ok
  | .sub w a => w.ok && a.ok
  | .mul w a => w.ok && a.ok
  | .div w a => w.ok && a.ok
  | .fma w a => w.ok && a.ok
  | .min w a => w.ok && a.ok
  | .max w a => w.ok && a.ok
  | .neg w a => w.ok && a.ok
  | .abs w a => w.ok && a.ok
  | .sqrt w a => w.ok && a.ok
  | .rsqrt w a => w.ok && a.ok
  | .recip w a => w.ok && a.ok
  | .clamp w a => w.ok && a.ok
  | .relu w a => w.ok && a.ok
  | .leaky w a => w.ok && a.ok
  | .geluTanh w a => w.ok && a.ok
  | .geluErf w a => w.ok && a.ok
  | .silu w a => w.ok && a.ok
  | .sigmoid w a => w.ok && a.ok
  | .tanh w a => w.ok && a.ok
  | .softplus w a => w.ok && a.ok
  | .exp w a => w.ok && a.ok
  | .log w a => w.ok && a.ok
  | .gluSilu w a => w.ok && a.ok
  | .gluGelu w a => w.ok && a.ok
  | .reluDerivative w a => w.ok && a.ok
  | .leakyDerivative w a => w.ok && a.ok
  | .geluTanhDerivative w a => w.ok && a.ok
  | .geluErfDerivative w a => w.ok && a.ok
  | .siluDerivative w a => w.ok && a.ok
  | .sigmoidDerivative w a => w.ok && a.ok
  | .tanhDerivative w a => w.ok && a.ok
  | .softplusDerivative w a => w.ok && a.ok
  | .expDerivative w a => w.ok && a.ok
  | .logDerivative w a => w.ok && a.ok
  | .gluSiluDerivative w a => w.ok && a.ok
  | .gluGeluDerivative w a => w.ok && a.ok
  | .layernorm w a => w.ok && a.ok
  | .rmsnorm w a => w.ok && a.ok
  | .layernormB w a => w.ok && a.ok
  | .rmsnormB w a => w.ok && a.ok
  | .softmax w a => w.ok && a.ok
  | .logsoftmax w a => w.ok && a.ok
  | .softmaxB w a => w.ok && a.ok
  | .xent w a => w.ok && a.ok
  | .xentB w a => w.ok && a.ok
  | .mse w a => w.ok && a.ok
  | .mseB w a => w.ok && a.ok
  | .dropout w a => w.ok && a.ok
  | .dropoutB w a => w.ok && a.ok
  | .gather w a => w.ok && a.ok
  | .scatterAdd w a => w.ok && a.ok
  | .sample w a => w.ok && a.ok
  | .initUniform w a => w.ok && a.ok
  | .initNormal w a => w.ok && a.ok
  | .convert w a => w.ok && a.ok
  | .vadd w a => w.ok && a.ok
  | .vsub w a => w.ok && a.ok
  | .vmul w a => w.ok && a.ok
  | .vdiv w a => w.ok && a.ok
  | .vfma w a => w.ok && a.ok
  | .vsqrt w a => w.ok && a.ok
  | .vmin w a => w.ok && a.ok
  | .vmax w a => w.ok && a.ok
  | .vconv w a => w.ok && a.ok
  | .sum w a => w.ok && a.ok
  | .sumsq w a => w.ok && a.ok
  | .reductionMax w a => w.ok && a.ok
  | .reductionMin w a => w.ok && a.ok
  | .maxabs w a => w.ok && a.ok
  | .dot w a => w.ok && a.ok
  | .movement w a => w.ok && a.ok
  | .mxImport w a x => w.ok && a.ok && x.ok
  | .mxExport w a x => w.ok && a.ok && x.ok
  | .arrive w p => w.ok && p.ok
  | .wait w p => w.ok && p.ok
  | .set w p => w.ok && p.ok
  | .reset_ w p => w.ok && p.ok
  | .query w p => w.ok && p.ok
  | .remotePegOp m => m.ok
  | .pegAck ref status count target => decide (ref < 4294967296) && decide (status < 256) && decide (count < 4294967296) && decide (target < 4294967296)
  | .waitRelease ref status => decide (ref < 4294967296) && decide (status < 256)
  | .evaluationPass w a => w.ok && a.ok
  | .evalPassEnd ctx => decide (ctx < 1024)
  | .sliceModeProduct w a => w.ok && a.ok
  | .joinerProduct w a => w.ok && a.ok
  | .workOrderComplete ctx => decide (ctx < 1024)
  | .layerEnd ctx layer half pos => decide (ctx < 1024) && decide (layer < 65536) && decide (half < 2) && decide (pos < 4096)
  | .survey ctx layer half pos => decide (ctx < 1024) && decide (layer < 65536) && decide (half < 2) && decide (pos < 4096)
  | .loss ctx half pos tid => decide (ctx < 1024) && decide (half < 2) && decide (pos < 4096) && decide (tid < 16777215)
  | .backwardLayerEnd ctx layer half pos => decide (ctx < 1024) && decide (layer < 65536) && decide (half < 2) && decide (pos < 4096)
  | .recomputeRerun ctx layer half pos => decide (ctx < 1024) && decide (layer < 65536) && decide (half < 2) && decide (pos < 4096)
  | .stackPop ctx hall => decide (ctx < 1024) && decide (hall < 8)
  | .sliceComplete ctx layer ord pos => decide (ctx < 1024) && decide (layer < 65536) && decide (ord < 16777216) && decide (pos < 4096)
  | .bucketOpen ctx group ordinal pos => decide (ctx < 1024) && decide (group < 65536) && decide (ordinal < 65536) && decide (pos < 4096)
  | .reducePacket p => p.ok
  | .gatherPacket p => p.ok
  | .agreePacket p => p.ok
  | .treeUp p => p.ok
  | .treeDown p => p.ok
  | .bucketComplete ctx group ordinal pos => decide (ctx < 1024) && decide (group < 65536) && decide (ordinal < 65536) && decide (pos < 4096)
  | .bucketDeadline ctx group ordinal pos => decide (ctx < 1024) && decide (group < 65536) && decide (ordinal < 65536) && decide (pos < 4096)
  | .sliceAccept ctx tid ord => decide (ctx < 1024) && decide (tid < 16777215) && decide (ord < 16777216)
  | .journalAck ctx tid ord => decide (ctx < 1024) && decide (tid < 16777215) && decide (ord < 16777216)
  | .jwrite ctx tid ord => decide (ctx < 1024) && decide (tid < 16777215) && decide (ord < 16777216)
  | .mirrorQueueReady cycles => decide (cycles < 2 ^ 64)
  | .verify ctx => decide (ctx < 1024)
  | .admissionNotice src ctx step attempt twin _ => decide (src < 4096) && decide (ctx < 1024) && decide (step < 4294967296) && decide (attempt < 256) && twin.all (fun x => decide (x < 4096))
  | .commitTimeout ctx => decide (ctx < 1024)
  | .closePhase ctx => decide (ctx < 1024)
  | .repeatAdmit ctx ns => decide (ctx < 1024) && decide (ns < 2 ^ 64)
  | .settleRound src ctx step _ raises => decide (src < 4096) && decide (ctx < 1024) && decide (step < 4294967296) && raises.all (fun x => decide (x < 65536))
  | .settleTimeout ctx => decide (ctx < 1024)
  | .journalRollback ctx tid ord _ => decide (ctx < 1024) && decide (tid < 16777215) && decide (ord < 16777216)
  | .digestRoot ctx => decide (ctx < 1024)
  | .rootVote src ctx step interval root => decide (src < 4096) && decide (ctx < 1024) && decide (step < 4294967296) && decide (interval < 65) && root.length == 32
  | .duplicateExecution ctx index digest => decide (ctx < 1024) && decide (index < 4294967296) && decide (digest < 2 ^ 64)
  | .thirdExecution ctx index digest => decide (ctx < 1024) && decide (index < 4294967296) && decide (digest < 2 ^ 64)
  | .rotatePeriod => true
  | .galleryTest hall aisle gallery _ test => decide (hall < 8) && decide (aisle < 16) && decide (gallery < 68) && decide (test < 4294967296)
  | .probeResult hall aisle gallery pack result firstFail => decide (hall < 8) && decide (aisle < 16) && decide (gallery < 68) && decide (pack < 4294967296) && decide (result < 3) && decide (firstFail < 4294967296)
  | .slotPar hall aisle at_ ns => decide (hall < 8) && decide (aisle < 16) && decide (at_.gallery < 68) && decide (at_.bay < 3) && decide (ns < 2 ^ 64)
  | .sramUe gallery hub ns => gallery.all (fun x => decide (x < 8704)) && decide (hub < 2) && decide (ns < 2 ^ 64)
  | .leaseExpiry tag ns => decide (tag < 4294967296) && decide (ns < 2 ^ 64)
  | .moverFault hall mover ns => decide (hall < 8) && decide (mover < 8) && decide (ns < 2 ^ 64)
  | .hubBlockFault unit => decide (unit < 4294967296)
  | .hbmUe hall addr _ ns => decide (hall < 8) && decide (addr < 2 ^ 64) && decide (ns < 2 ^ 64)
  | .scrubPeriod hall _ => decide (hall < 8)
  | .retrain hall pc => decide (hall < 8) && decide (pc < 64)
  | .retrainForce hall pc => decide (hall < 8) && decide (pc < 64)
  | .heartbeatPeriod => true
  | .heartbeat src seq _ => decide (src < 4096) && decide (seq < 4294967296)
  | .heartbeatMiss ns => decide (ns < 2 ^ 64)
  | .lost src device ns => decide (src < 4096) && decide (device < 4096) && decide (ns < 2 ^ 64)
  | .mirrorRecord m => m.ok
  | .stepSummary m => m.ok
  | .seedingDone => true
  | .linkUp link peer peerLink lanes => decide (link < 48) && decide (peer < 4096) && decide (peerLink < 64) && decide (lanes < 6)
  | .linkRetrain link => decide (link < 48)
  | .flit link bytes => decide (link < 48) && bytes.length == 256
  | .nak link seq => decide (link < 48) && decide (seq < 4096)
  | .idleFlit link => decide (link < 48)
  | .retryExh link ns => decide (link < 48) && decide (ns < 2 ^ 64)
  | .laneFault link lane ns => decide (link < 48) && decide (lane < 5) && decide (ns < 2 ^ 64)
  | .laneSwap link lane => decide (link < 48) && decide (lane < 5)
  | .linkFault link ns => decide (link < 48) && decide (ns < 2 ^ 64)
  | .reorderTimeout src tc => decide (src < 4096) && decide (tc < 4)
  | .mirrorAcknowledgement ctx _ => decide (ctx < 1024)
  | .closeUpdateDone ctx gauge => decide (ctx < 1024) && decide (gauge < 65536)
  | .retrainingDone hall => decide (hall < 8)
  | .hallEdgeEngineTest hall engine _ => decide (hall < 8) && decide (engine < 16)
  | .discardedFrame reason => decide (reason < 6)
  | .localTimer proc => decide (proc < 5)
  | .watchdogWarning proc => decide (proc < 5)
  | .cacheError proc _ => decide (proc < 5)

/-- A well-formed command. -/
abbrev Instr.WellFormed (i : Instr) : Prop := i.ok = true

end Sys2Proof
end

