-- ==== Sys2Proof/Tests/Slice0.lean ====
section
/-! SUPPORT. Tests: well-formedness, the worked examples of the spec, and for each statement a state that meets its hypotheses. -/

open Sys2Proof Sys2Proof.Machine

namespace Sys2Proof.Tests

set_option Elab.async false

theorem test_reset_queue : Machine.State.reset.pending = [] := by decide

/-! Small states. -/

/-- The device up: Riendin READY, nothing configured. -/
def up : State := { boot := { state := 2 }, power := { poreset := false, control := true, pins := true } }

/-- Registers as written, by page and offset. -/
def withReg (s : State) (p : Page) (off v : Nat) : State := { s with regs := { s.regs with applied := s.regs.applied.insert (p.base + off) v } }

/-- Staged values of registers, by page and offset. -/
def withShadow (s : State) (p : Page) (off v : Nat) : State := { s with regs := { s.regs with shadow := s.regs.shadow.insert (p.base + off) v } }

/-- The host port up too, session 0 open. -/
def dev : State := { withReg up pgHost Reg.HP_CTRL 1 with host := { sessions := [(0, {})] } }

/-- A connected queue pair 5. -/
def devQp : State := { dev with host := { dev.host with qps := [(5, { cfg := {} })] } }

/-- Context 1 as given, on the device with a session and a queue pair. -/
def withCtx (s : State) (c : Ctx) : State := { s with ctxs := [(1, c)] }

/-- A header for context 1. -/
def hd : Hdr := { ctx := 1 }

/-- The byte of the plain FP32 format. -/
def fp32B : Nat := Desc.toByte ⟨.fp32, 3, false⟩

/-- A tensor of one element in FP32. -/
def ten (tid role parent : Nat) : TensorRec := ⟨tid, fp32B, 0, 2, 0, false, role, [1, 1], parent, 0⟩

/-- A layer of a kind: weights' copy 2, activations 4. -/
def lay (kind : Nat) (exch recomp start : Bool) (opt : Nat) : LayerRec :=
  ⟨kind, 0, 4, 0, 1, 32, false, false, recomp, start, exch, 0, 0, 2, 4, noTid, opt, 0, 0, 0, 0, 0, 0, 0, 0, 0⟩

/-- A plan of one layer and the loss: parameter 1 with its copy 2, tensors 4, 5 and 6. -/
def pl : Plan :=
  { tensors := [ten 1 1 0, ten 2 3 1, ten 4 0 0, ten 5 0 0, ten 6 0 0], layers := [lay 0 false false false 0xFFF, lay 2 false false false 0xFFF] }

/-- A tensor that holds zeros. -/
def zeros : Tensor := { desc := fp32B, rowLen := 8, rows := 1 }

/-- Context 1 runs an evaluation pass of the plan. -/
def evc : Ctx := { state := 2, plan := some pl, evalRun := some { number := 0 }, tensors := [(4, zeros), (5, zeros), (6, zeros)] }

/-- The same with tag checks of its member off. -/
def wk (c : Ctx) : State := withCtx (withReg devQp (landPg 0) Reg.LD_CTRL 0) c

/-- A work order of context 1 on the first gallery. -/
def wo : WoHdr := { ctx := 1 }

/-- A plan whose layer exchanges its gradients in a group of four devices, device 0 first. -/
def gp (topo q : Nat) (ms : List Nat) : Plan :=
  { pl with layers := [lay 0 true false false 0, lay 2 false false false 0xFFF],
            groups := [⟨4, topo, false, false, 0, 1, 0, 0, q, 0, 0, 400, ms.zipIdx.map (fun m => (m.1, m.2 * 100))⟩] }

/-- An optimizer record of plain descent. -/
def sgd : OptRec := ⟨0, 0, 0, List.replicate 16 0, 0, 0, 0, 0, []⟩

/-- Context 1 as given, its plan the group's. -/
def grpCtx (p : Plan) (a : Attempt) : Ctx := { state := 2, plan := some p, attempt := some a, tensors := [(4, zeros)], scalars := [(0, List.replicate 8 0)] }

/-- Context 1 in a step of the plan, forward of layer 0. -/
def atp (a : Attempt) : State := wk { state := 2, plan := some pl, attempt := some a, stack := { marks := [(0, 0)] }, tensors := [(4, zeros)] }

/-- The group's record. -/
def g4 : GroupRec := ((gp 0 4 [0, 1, 2, 3]).groups).headD ⟨0, 0, false, false, 0, 0, 0, 0, 0, 0, 0, 0, []⟩

/-! Well-formedness: one well-formed command of every row, and for each check a term that it refuses. -/

def mt : MtArgs := { w := 0, wFmt := 0, a := 0, aFmt := 0, y := 0, yFmt := 0 }
def ew : EwArgs := { outFmt := 0, in0 := 0, out := 0 }
def rd : RdArgs := { outFmt := 0, in0 := 0, out := 0 }
def mv : MvArgs := { src := 0, dst := 0 }
def sk : SkArgs := { prec := 0, a := 0, b := 0, c := 0 }
def pm : PegMsg := { src := 0, ref := 0, ctx := 0, peg := 0, op := 0, value := 0, tag := 0 }
def mr : MirrorRec := { ctx := 0, step := 0, tid := 0, slice := 0 }
def sm : StepSummary := { ctx := 0, step := 0 }

theorem test_well_formed_0 : ((
  [.open_ {}, .close {}, .regRead {} 0 1, .regWrite false {} 0 [0], .netConfig {} {}, .qpConnect {} 0 {}, .qpDestroy {} 0,
   .ringConfig {} 0 0 0 false, .create {} false none, .loadPlan {} {} {}, .setSeed {} 0, .activate {} none, .deactivate {}, .switch {} [] 0 none,
   .resume {}, .export_ {} {}, .restore {} {}, .exportKj7 {} {}, .destroy {}, .admit_ {} 0 0, .eval {} 0 false 0 0, .setWindow {} {},
   .selfTest {} 0 false, .pair {} 0 0 {}, .probeLoad {} {}, .fwUpdate {} {}, .attest {} (List.replicate 32 0), .cert {}, .unpair {},
   .telemConfig {} 0 0 {}] : List Instr).all (fun i => i.ok)) = true := by
  decide +kernel

theorem test_well_formed_1 : ((
  [.doorbell 0 0 0 0 false, .rdmaWrite 0 0 0 none false, .transferDone 0 [] false, .qpError 0, .cnp 0, .hpCcPeriod 0, .pfc 0 false, .arp 0 0,
   .neighbourDiscovery 0 0, .icmpEcho 0 0 false [], .sessIdle 0, .telemetryRecord 0 0 0, .blkSwingGo 0 0, .blkSwingCancel 0, .swingApply 0,
   .swingFire, .swingAbort, .swingPegArrive 0, .holdMax 0 0, .geWordLo 0, .geWordHi 0, .geHistFetch 0, .geHistReady, .latchHighWord 0, .rnGo 0,
   .rnDone, .seTest 0, .warm, .ecRing 0 0, .ecScfg 0] : List Instr).all (fun i => i.ok)) = true := by
  decide +kernel

theorem test_well_formed_2 : ((
  [.pgGreach 0 0, .evtSet 0 0, .poresetNAssert, .poresetNRelease false, .flashErase 0 0, .flashWrite 0 [], .warmresetNFall, .warmresetNRise, .ready,
   .romWatchdog, .fwWriteDone, .wakeN false, .pwWake false, .dormantEntry, .refLost, .supplyLost 0 0, .supplyReturn 0 0, .stbyLost 0, .powerLost,
   .powerReturn 0 0, .thermalTrip 0 0 0, .dutyUpdate [] 0, .sensorStale 0 0, .railFault 0 0 0 none, .monitorRecord 0, .ecsRead [], .gateIdle 0 0 0,
   .gateOpen 0 0 0 false, .hallIdle 0, .hallWakeDone 0 0 {}] : List Instr).all (fun i => i.ok)) = true := by
  decide +kernel

theorem test_well_formed_3 : ((
  [.frameQueueAccept 0 0, .matrixTile {} mt, .add {} ew, .sub {} ew, .mul {} ew, .div {} ew, .fma {} ew, .min {} ew, .max {} ew, .neg {} ew,
   .abs {} ew, .sqrt {} ew, .rsqrt {} ew, .recip {} ew, .clamp {} ew, .relu {} ew, .leaky {} ew, .geluTanh {} ew, .geluErf {} ew, .silu {} ew,
   .sigmoid {} ew, .tanh {} ew, .softplus {} ew, .exp {} ew, .log {} ew, .gluSilu {} ew, .gluGelu {} ew, .reluDerivative {} ew,
   .leakyDerivative {} ew, .geluTanhDerivative {} ew] : List Instr).all (fun i => i.ok)) = true := by
  decide +kernel

theorem test_well_formed_4 : ((
  [.geluErfDerivative {} ew, .siluDerivative {} ew, .sigmoidDerivative {} ew, .tanhDerivative {} ew, .softplusDerivative {} ew, .expDerivative {} ew,
   .logDerivative {} ew, .gluSiluDerivative {} ew, .gluGeluDerivative {} ew, .layernorm {} ew, .rmsnorm {} ew, .layernormB {} ew, .rmsnormB {} ew,
   .softmax {} ew, .logsoftmax {} ew, .softmaxB {} ew, .xent {} ew, .xentB {} ew, .mse {} ew, .mseB {} ew, .dropout {} ew, .dropoutB {} ew,
   .gather {} ew, .scatterAdd {} ew, .sample {} ew, .initUniform {} ew, .initNormal {} ew, .convert {} ew, .vadd {} ew, .vsub {} ew] : List Instr).all (fun i => i.ok)) = true := by
  decide +kernel

theorem test_well_formed_5 : ((
  [.vmul {} ew, .vdiv {} ew, .vfma {} ew, .vsqrt {} ew, .vmin {} ew, .vmax {} ew, .vconv {} ew, .sum {} rd, .sumsq {} rd, .reductionMax {} rd,
   .reductionMin {} rd, .maxabs {} rd, .dot {} rd, .movement {} mv, .mxImport {} mv { elem := 0 }, .mxExport {} mv { elem := 0 },
   .arrive {} { peg := 0 }, .wait {} { peg := 0 }, .set {} { peg := 0 }, .reset_ {} { peg := 0 }, .query {} { peg := 0 }, .remotePegOp pm,
   .pegAck 0 0 0 0, .waitRelease 0 0, .evaluationPass {} {}, .evalPassEnd 0, .sliceModeProduct {} sk, .joinerProduct {} sk, .workOrderComplete 0,
   .layerEnd 0 0 0 0] : List Instr).all (fun i => i.ok)) = true := by
  decide +kernel

theorem test_well_formed_6 : ((
  [.survey 0 0 0 0, .loss 0 0 0 0, .backwardLayerEnd 0 0 0 0, .recomputeRerun 0 0 0 0, .stackPop 0 0, .sliceComplete 0 0 0 0, .bucketOpen 0 0 0 0,
   .reducePacket {}, .gatherPacket {}, .agreePacket {}, .treeUp {}, .treeDown {}, .bucketComplete 0 0 0 0, .bucketDeadline 0 0 0 0,
   .sliceAccept 0 0 0, .journalAck 0 0 0, .jwrite 0 0 0, .mirrorQueueReady 0, .verify 0, .admissionNotice 0 0 0 0 none false, .commitTimeout 0,
   .closePhase 0, .repeatAdmit 0 0, .settleRound 0 0 0 false [], .settleTimeout 0, .journalRollback 0 0 0 false, .digestRoot 0,
   .rootVote 0 0 0 0 (List.replicate 32 0), .duplicateExecution 0 0 0, .thirdExecution 0 0 0] : List Instr).all (fun i => i.ok)) = true := by
  decide +kernel

theorem test_well_formed_7 : ((
  [.rotatePeriod, .galleryTest 0 0 0 false 0, .probeResult 0 0 0 0 0 0, .slotPar 0 0 ⟨0, 0⟩ 0, .sramUe none 0 0, .leaseExpiry 0 0, .moverFault 0 0 0,
   .hubBlockFault 0, .hbmUe 0 0 .free 0, .scrubPeriod 0 [], .retrain 0 0, .retrainForce 0 0, .heartbeatPeriod, .heartbeat 0 0 false,
   .heartbeatMiss 0, .lost 0 0 0, .mirrorRecord mr, .stepSummary sm, .seedingDone, .linkUp 0 0 0 0, .linkRetrain 0, .flit 0 (List.replicate 256 0),
   .nak 0 0, .idleFlit 0, .retryExh 0 0, .laneFault 0 0 0, .laneSwap 0 0, .linkFault 0 0, .reorderTimeout 0 0, .mirrorAcknowledgement 0 false] : List Instr).all (fun i => i.ok)) = true := by
  decide +kernel

theorem test_well_formed_8 : ((
  [.closeUpdateDone 0 0, .retrainingDone 0, .hallEdgeEngineTest 0 0 .fail, .discardedFrame 0, .localTimer 0, .watchdogWarning 0, .cacheError 0 false] : List Instr).all (fun i => i.ok)) = true := by
  decide +kernel

theorem test_check_refuses_0 : ((
  [.open_ { ctx := 1024 }, .close { ctx := 1024 }, .regRead { ctx := 1024 } 0 1, .regRead {} 4294967296 1, .regRead {} 0 0, .regRead {} 0 257,
   .regWrite false { ctx := 1024 } 0 [0], .regWrite false {} 4294967296 [0], .regWrite false {} 0 [], .regWrite false {} 0 (List.replicate 257 0),
   .netConfig { ctx := 1024 } {}, .netConfig {} { pfx := 256 }, .qpConnect { ctx := 1024 } 0 {}, .qpConnect {} 65536 {},
   .qpConnect {} 0 { retry := 8 }, .qpDestroy { ctx := 1024 } 0, .qpDestroy {} 65536, .ringConfig { ctx := 1024 } 0 0 0 false,
   .ringConfig {} 256 0 0 false, .ringConfig {} 0 256 0 false, .ringConfig {} 0 0 65536 false, .create { ctx := 1024 } false none,
   .loadPlan { ctx := 1024 } {} {}, .loadPlan {} { qp := 65536 } {}, .loadPlan {} {} { qp := 65536 }, .setSeed { ctx := 1024 } 0,
   .activate { ctx := 1024 } none, .activate {} (some { qp := 65536 }), .deactivate { ctx := 1024 }, .switch { ctx := 1024 } [] 0 none] : List Instr).all (fun i => !i.ok)) = true := by
  decide +kernel

theorem test_check_refuses_1 : ((
  [.switch {} (List.replicate 9 0) 0 none, .switch {} [1024] 0 none, .switch {} [] 1024 none, .switch {} [] 0 (some { qp := 65536 }),
   .resume { ctx := 1024 }, .export_ { ctx := 1024 } {}, .export_ {} { qp := 65536 }, .restore { ctx := 1024 } {},
   .restore {} { image := { qp := 65536 } }, .exportKj7 { ctx := 1024 } {}, .exportKj7 {} { qp := 65536 }, .destroy { ctx := 1024 },
   .admit_ { ctx := 1024 } 0 0, .admit_ {} (2 ^ 64) 0, .admit_ {} 0 (2 ^ 64), .eval { ctx := 1024 } 0 false 0 0, .eval {} 4294967296 false 0 0,
   .eval {} 0 false (2 ^ 64) 0, .eval {} 0 false 0 (2 ^ 64), .setWindow { ctx := 1024 } {}, .setWindow {} { qp := 65536 },
   .selfTest { ctx := 1024 } 0 false, .selfTest {} 4294967296 false, .pair { ctx := 1024 } 0 0 {}, .pair {} 4096 0 {}, .pair {} 0 (2 ^ 48) {},
   .pair {} 0 0 { qp := 65536 }, .probeLoad { ctx := 1024 } {}, .probeLoad {} { qp := 65536 }, .fwUpdate { ctx := 1024 } {}] : List Instr).all (fun i => !i.ok)) = true := by
  decide +kernel

theorem test_check_refuses_2 : ((
  [.fwUpdate {} { qp := 65536 }, .attest { ctx := 1024 } (List.replicate 32 0), .attest {} [], .cert { ctx := 1024 }, .unpair { ctx := 1024 },
   .telemConfig { ctx := 1024 } 0 0 {}, .telemConfig {} 256 0 {}, .telemConfig {} 0 256 {}, .telemConfig {} 0 0 { qp := 65536 },
   .doorbell 65536 0 0 0 false, .doorbell 0 256 0 0 false, .doorbell 0 0 4294967296 0 false, .doorbell 0 0 0 (2 ^ 64) false,
   .rdmaWrite 65536 0 0 none false, .rdmaWrite 0 256 0 none false, .rdmaWrite 0 0 4294967296 none false,
   .rdmaWrite 0 0 0 (some { len := 8193 }) false, .transferDone (2 ^ 64) [] false, .qpError 65536, .cnp 65536, .hpCcPeriod 65536, .pfc 8 false,
   .arp (2 ^ 48) 0, .arp 0 4294967296, .neighbourDiscovery (2 ^ 128) 0, .neighbourDiscovery 0 (2 ^ 128), .icmpEcho (2 ^ 128) 0 false [],
   .icmpEcho 0 (2 ^ 128) false [], .sessIdle 65536, .telemetryRecord 6 0 0] : List Instr).all (fun i => !i.ok)) = true := by
  decide +kernel

theorem test_check_refuses_3 : ((
  [.telemetryRecord 0 1024 0, .telemetryRecord 0 0 (2 ^ 64), .blkSwingGo 1 0, .blkSwingGo 268435456 0, .blkSwingGo 0 16, .blkSwingCancel 1,
   .blkSwingCancel 268435456, .swingApply 1, .swingApply 268435456, .swingPegArrive 1, .swingPegArrive 268435456, .holdMax 16 0,
   .holdMax 0 4294967296, .geHistFetch 16, .latchHighWord 4294967296, .ecRing 5 0, .ecRing 0 8, .pgGreach 8 0, .evtSet 1 0, .evtSet 268435456 0,
   .flashErase 4294967296 0, .flashErase 0 (2 ^ 64), .flashWrite 4294967296 [], .supplyLost 2 0, .supplyLost 0 4294967296, .supplyReturn 2 0,
   .supplyReturn 0 4294967296, .stbyLost 4294967296, .powerReturn 2 0, .powerReturn 0 4294967296] : List Instr).all (fun i => !i.ok)) = true := by
  decide +kernel

theorem test_check_refuses_4 : ((
  [.thermalTrip 10 0 0, .thermalTrip 0 65 0, .dutyUpdate [] 4294967296, .sensorStale 10 0, .sensorStale 0 65, .railFault 10 0 0 none,
   .railFault 0 65536 0 none, .railFault 0 0 4294967296 none, .railFault 0 0 0 (some 8704), .monitorRecord 10, .gateIdle 8 0 0, .gateIdle 0 16 0,
   .gateIdle 0 0 68, .gateOpen 8 0 0 false, .gateOpen 0 16 0 false, .gateOpen 0 0 68 false, .hallIdle 8, .hallWakeDone 8 0 {},
   .hallWakeDone 0 (2 ^ 64) {}, .hallWakeDone 0 0 { bad := [8704] }, .frameQueueAccept 1024 0, .frameQueueAccept 0 65536, .matrixTile { slot := 66 } mt,
   .matrixTile {} { mt with bay := 3 }, .add { slot := 66 } ew, .add {} { ew with out := 16777216 }, .sum { slot := 66 } rd,
   .sum {} { rd with outFmt := 256 }, .movement { slot := 66 } mv, .movement {} { mv with dst := 16777216 },
   .mxImport { slot := 66 } mv { elem := 0 }] : List Instr).all (fun i => !i.ok)) = true := by
  decide +kernel

theorem test_check_refuses_5 : ((
  [.mxImport {} { mv with dst := 16777216 } { elem := 0 }, .mxImport {} mv { elem := 4 }, .mxExport { slot := 66 } mv { elem := 0 },
   .mxExport {} { mv with dst := 16777216 } { elem := 0 }, .mxExport {} mv { elem := 4 }, .arrive { slot := 66 } { peg := 0 },
   .arrive {} { peg := 65536 }, .remotePegOp { pm with op := 8 }, .pegAck 4294967296 0 0 0, .pegAck 0 256 0 0, .pegAck 0 0 4294967296 0,
   .pegAck 0 0 0 4294967296, .waitRelease 4294967296 0, .waitRelease 0 256, .evaluationPass { slot := 66 } {},
   .evaluationPass {} { lfirst := 65536 }, .evalPassEnd 1024, .sliceModeProduct { slot := 66 } sk, .sliceModeProduct {} { sk with k := 0 },
   .workOrderComplete 1024, .layerEnd 1024 0 0 0, .layerEnd 0 65536 0 0, .layerEnd 0 0 2 0, .layerEnd 0 0 0 4096, .survey 1024 0 0 0,
   .survey 0 65536 0 0, .survey 0 0 2 0, .survey 0 0 0 4096, .loss 1024 0 0 0, .loss 0 2 0 0] : List Instr).all (fun i => !i.ok)) = true := by
  decide +kernel

theorem test_check_refuses_6 : ((
  [.loss 0 0 4096 0, .loss 0 0 0 16777215, .backwardLayerEnd 1024 0 0 0, .backwardLayerEnd 0 65536 0 0, .backwardLayerEnd 0 0 2 0,
   .backwardLayerEnd 0 0 0 4096, .recomputeRerun 1024 0 0 0, .recomputeRerun 0 65536 0 0, .recomputeRerun 0 0 2 0, .recomputeRerun 0 0 0 4096,
   .stackPop 1024 0, .stackPop 0 8, .sliceComplete 1024 0 0 0, .sliceComplete 0 65536 0 0, .sliceComplete 0 0 16777216 0, .sliceComplete 0 0 0 4096,
   .bucketOpen 1024 0 0 0, .bucketOpen 0 65536 0 0, .bucketOpen 0 0 65536 0, .bucketOpen 0 0 0 4096, .reducePacket { tag := 4096 },
   .bucketComplete 1024 0 0 0, .bucketComplete 0 65536 0 0, .bucketComplete 0 0 65536 0, .bucketComplete 0 0 0 4096, .bucketDeadline 1024 0 0 0,
   .bucketDeadline 0 65536 0 0, .bucketDeadline 0 0 65536 0, .bucketDeadline 0 0 0 4096, .sliceAccept 1024 0 0] : List Instr).all (fun i => !i.ok)) = true := by
  decide +kernel

theorem test_check_refuses_7 : ((
  [.sliceAccept 0 16777215 0, .sliceAccept 0 0 16777216, .journalAck 1024 0 0, .journalAck 0 16777215 0, .journalAck 0 0 16777216, .jwrite 1024 0 0,
   .jwrite 0 16777215 0, .jwrite 0 0 16777216, .mirrorQueueReady (2 ^ 64), .verify 1024, .admissionNotice 4096 0 0 0 none false,
   .admissionNotice 0 1024 0 0 none false, .admissionNotice 0 0 4294967296 0 none false, .admissionNotice 0 0 0 256 none false,
   .admissionNotice 0 0 0 0 (some 4096) false, .commitTimeout 1024, .closePhase 1024, .repeatAdmit 1024 0, .repeatAdmit 0 (2 ^ 64),
   .settleRound 4096 0 0 false [], .settleRound 0 1024 0 false [], .settleRound 0 0 4294967296 false [], .settleRound 0 0 0 false [65536],
   .settleTimeout 1024, .journalRollback 1024 0 0 false, .journalRollback 0 16777215 0 false, .journalRollback 0 0 16777216 false, .digestRoot 1024,
   .rootVote 4096 0 0 0 (List.replicate 32 0), .rootVote 0 1024 0 0 (List.replicate 32 0)] : List Instr).all (fun i => !i.ok)) = true := by
  decide +kernel

theorem test_check_refuses_8 : ((
  [.rootVote 0 0 4294967296 0 (List.replicate 32 0), .rootVote 0 0 0 65 (List.replicate 32 0), .rootVote 0 0 0 0 [], .duplicateExecution 1024 0 0,
   .duplicateExecution 0 4294967296 0, .duplicateExecution 0 0 (2 ^ 64), .thirdExecution 1024 0 0, .thirdExecution 0 4294967296 0,
   .thirdExecution 0 0 (2 ^ 64), .galleryTest 8 0 0 false 0, .galleryTest 0 16 0 false 0, .galleryTest 0 0 68 false 0,
   .galleryTest 0 0 0 false 4294967296, .probeResult 8 0 0 0 0 0, .probeResult 0 16 0 0 0 0, .probeResult 0 0 68 0 0 0,
   .probeResult 0 0 0 4294967296 0 0, .probeResult 0 0 0 0 3 0, .probeResult 0 0 0 0 0 4294967296, .slotPar 8 0 ⟨0, 0⟩ 0, .slotPar 0 16 ⟨0, 0⟩ 0,
   .slotPar 0 0 ⟨68, 0⟩ 0, .slotPar 0 0 ⟨0, 3⟩ 0, .slotPar 0 0 ⟨0, 0⟩ (2 ^ 64), .sramUe (some 8704) 0 0, .sramUe none 2 0, .sramUe none 0 (2 ^ 64), .leaseExpiry 4294967296 0,
   .leaseExpiry 0 (2 ^ 64), .moverFault 8 0 0, .moverFault 0 8 0] : List Instr).all (fun i => !i.ok)) = true := by
  decide +kernel

theorem test_check_refuses_9 : ((
  [.moverFault 0 0 (2 ^ 64), .hubBlockFault 4294967296, .hbmUe 8 0 .free 0, .hbmUe 0 (2 ^ 64) .free 0, .hbmUe 0 0 .free (2 ^ 64), .scrubPeriod 8 [],
   .retrain 8 0, .retrain 0 64, .retrainForce 8 0, .retrainForce 0 64, .heartbeat 4096 0 false, .heartbeat 0 4294967296 false,
   .heartbeatMiss (2 ^ 64), .lost 4096 0 0, .lost 0 4096 0, .lost 0 0 (2 ^ 64), .mirrorRecord { mr with tid := 16777216 },
   .stepSummary { sm with ctx := 1024 }, .linkUp 48 0 0 0, .linkUp 0 4096 0 0, .linkUp 0 0 64 0, .linkUp 0 0 0 6, .linkRetrain 48,
   .flit 48 (List.replicate 256 0), .flit 0 [], .nak 48 0, .nak 0 4096, .idleFlit 48, .retryExh 48 0, .retryExh 0 (2 ^ 64)] : List Instr).all (fun i => !i.ok)) = true := by
  decide +kernel

theorem test_check_refuses_10 : ((
  [.laneFault 48 0 0, .laneFault 0 5 0, .laneFault 0 0 (2 ^ 64), .laneSwap 48 0, .laneSwap 0 5, .linkFault 48 0, .linkFault 0 (2 ^ 64),
   .reorderTimeout 4096 0, .reorderTimeout 0 4, .mirrorAcknowledgement 1024 false, .closeUpdateDone 1024 0, .closeUpdateDone 0 65536,
   .retrainingDone 8, .hallEdgeEngineTest 8 0 .fail, .hallEdgeEngineTest 0 16 .fail, .discardedFrame 6, .localTimer 5, .watchdogWarning 5,
   .cacheError 5 false] : List Instr).all (fun i => !i.ok)) = true := by
  decide +kernel

theorem test_field_refuses_0 : ((
  [.open_ { prio := 4 }, .open_ { session := 65536 }, .open_ { seq := 4294967296 }, .open_ { ctx := 1024 }, .fwUpdate {} { qp := 65536 },
   .fwUpdate {} { rkey := 4294967296 }, .fwUpdate {} { addr := 2 ^ 64 }, .fwUpdate {} { len := 2 ^ 64 }, .netConfig {} { ipv4 := 4294967296 },
   .netConfig {} { ipv6 := 2 ^ 128 }, .netConfig {} { pfx := 256 }, .netConfig {} { allow := List.replicate 17 0 },
   .netConfig {} { allow := [2 ^ 128] }, .qpConnect {} 0 { pmtu := 256 }, .qpConnect {} 0 { retry := 8 }, .qpConnect {} 0 { rnr := 8 },
   .qpConnect {} 0 { rqpn := 4294967296 }, .qpConnect {} 0 { gid := 2 ^ 128 }, .qpConnect {} 0 { sqPsn := 4294967296 },
   .qpConnect {} 0 { rqPsn := 4294967296 }, .restore {} { image := { len := 2 ^ 64 } }, .restore {} { plan := some { len := 2 ^ 64 } },
   .restore {} { table := some { len := 2 ^ 64 } }, .rdmaWrite 0 0 0 (some { seq := 4294967296 }) false,
   .rdmaWrite 0 0 0 (some { ctx := 1024 }) false, .rdmaWrite 0 0 0 (some { len := 8193 }) false, .add { ctx := 1024 } ew, .add { hall := 8 } ew,
   .add { aisle := 16 } ew, .add { slot := 66 } ew] : List Instr).all (fun i => !i.ok)) = true := by
  decide +kernel

theorem test_field_refuses_1 : ((
  [.add { layer := 65536 } ew, .add { phase := 16 } ew, .add { tread := 8 } ew, .add { half := 2 } ew, .add { waitPeg := 65536 } ew,
   .add { donePeg := 65536 } ew, .add { rnd := 5 } ew, .matrixTile {} { mt with w := 16777216 }, .matrixTile {} { mt with a := 16777216 },
   .matrixTile {} { mt with y := 16777216 }, .matrixTile {} { mt with wFmt := 256 }, .matrixTile {} { mt with aFmt := 256 },
   .matrixTile {} { mt with yFmt := 256 }, .matrixTile {} { mt with bay := 3 }, .matrixTile {} { mt with m := 0 }, .matrixTile {} { mt with n := 0 },
   .matrixTile {} { mt with k := 0 }, .add {} { ew with outFmt := 256 }, .add {} { ew with in0 := 16777216 }, .add {} { ew with in1 := 16777216 },
   .add {} { ew with in2 := 16777216 }, .add {} { ew with out := 16777216 }, .add {} { ew with aux := 16777216 },
   .add {} { ew with p0 := 4294967296 }, .add {} { ew with p1 := 4294967296 }, .sum {} { rd with outFmt := 256 },
   .sum {} { rd with in0 := 16777216 }, .sum {} { rd with in1 := 16777216 }, .sum {} { rd with out := 16777216 },
   .movement {} { mv with src := 16777216 }] : List Instr).all (fun i => !i.ok)) = true := by
  decide +kernel

theorem test_field_refuses_2 : ((
  [.movement {} { mv with dst := 16777216 }, .movement {} { mv with srcOff := 2 ^ 64 }, .movement {} { mv with dstOff := 2 ^ 64 },
   .movement {} { mv with len := 2 ^ 64 }, .mxImport {} mv { elem := 4 }, .mxImport {} mv { elem := 0, block := 4 }, .arrive {} { peg := 65536 },
   .arrive {} { peg := 0, device := 65536 }, .arrive {} { peg := 0, value := 4294967296 }, .evaluationPass {} { evalno := 4294967296 },
   .evaluationPass {} { input := 16777216 }, .evaluationPass {} { report := 16777216 }, .evaluationPass {} { lfirst := 65536 },
   .evaluationPass {} { llast := 65536 }, .joinerProduct {} { sk with prec := 16 }, .joinerProduct {} { sk with a := 16777216 },
   .joinerProduct {} { sk with b := 16777216 }, .joinerProduct {} { sk with c := 16777216 }, .joinerProduct {} { sk with m := 0 },
   .joinerProduct {} { sk with n := 0 }, .joinerProduct {} { sk with k := 0 }, .remotePegOp { pm with src := 4096 },
   .remotePegOp { pm with ctx := 1024 }, .remotePegOp { pm with peg := 65536 }, .remotePegOp { pm with op := 8 },
   .remotePegOp { pm with value := 4294967296 }, .remotePegOp { pm with tag := 4294967296 }, .reducePacket { tag := 4096 },
   .reducePacket { step := 4294967296 }, .reducePacket { src := 4096 }] : List Instr).all (fun i => !i.ok)) = true := by
  decide +kernel

theorem test_field_refuses_3 : ((
  [.reducePacket { bump := 255 }, .reducePacket { gmax := 65536 }, .mirrorRecord { mr with ctx := 1024 }, .mirrorRecord { mr with tid := 16777216 },
   .mirrorRecord { mr with step := 4294967296 }, .stepSummary { sm with ctx := 1024 }, .stepSummary { sm with step := 4294967296 }] : List Instr).all (fun i => !i.ok)) = true := by
  decide +kernel

/-- A property of the next state that an outcome answers. -/
def after (o : Host.Outcome State Fault Refusal) (f : State → Bool) : Bool :=
  match o with
  | .next t => f t
  | _ => false

/-! Worked examples of the spec: expected values from its text. -/

/-- R9, the encoding of H5.A03.G41.X and of H2; DEPTH 5 names nothing. -/
theorem test_unit_identifiers :
    unitOf 5 3 41 + 2 ^ 29 + 2 ^ 12 = 0x8A6A5000 ∧ unitValid 0x8A6A5000 = true ∧ hallUnit 2 = 0x24000000 ∧ unitValid 0xA0000000 = false := by
  decide +kernel

/-- R27: the trits +1, −1, 0, 0, +1 pack to 0x58, a row of 1000 takes 200 bytes. -/
theorem test_trits_pack :
    ((((Tensor.blank (Desc.toByte ⟨.wt, 1, false⟩) 1 5).putCode 0 0 1).putCode 0 1 2).putCode 0 4 1).codes.readByte 0 = 0x58 ∧
      Fmt.rowBytes .wt 1000 = 200 := by
  decide +kernel

/-- R42: the AF8 block of "Number formats and scales" at s = −3. -/
theorem test_af8_block :
    ((convert ⟨.af8, 2, true⟩ (-3) (fp32V 0x3C54FDF4)).code, (convert ⟨.af8, 2, true⟩ (-3) (fp32V 0x4214CCCD)).code) = (0x1D, 0x79) ∧
      ((convert ⟨.af8, 2, true⟩ (-3) (fp32V 0xC2700000)).code, (convert ⟨.af8, 2, true⟩ (-3) (fp32V 0xC2700000)).sat) = (0xFE, true) ∧
      (convert ⟨.af8, 2, true⟩ (-3) (fp32V 0x3727C5AC)).code = 0 := by
  decide +kernel

/-- R56, R59: the float run 362 with offset 3, its promotion 45.25, and a promotion beyond FP32. -/
theorem test_float_run :
    floatRun [(codeVal .f4 true 0x7, codeVal .af8 true 0x7E), (codeVal .f4 true 0x7, codeVal .af8 true 0x62),
      (codeVal .f4 true 0xB, codeVal .af8 true 0x5B), (codeVal .f4 true 0x1, codeVal .af8 true 0x38)] = (362, 3) ∧
      (promote (362, -3)).1 = 0x42350000 ∧ ((promote (362, 497)).1, (promote (362, 497)).2.1) = (0x7F7FFFFF, true) := by
  decide +kernel

/-- R113: cancellation inside a B-array run leaves 32 quanta of 2^−15. -/
theorem test_bay_run :
    bRun [(bf16V 0x4980, bf16V 0x4980), (bf16V 0x4980, bf16V 0xC980), (bf16V 0x3A81, bf16V 0x3F80)] = (32, -15) := by
  decide +kernel

/-- R81: fit(52.5, 448) = −3, fit(60, 448) = −2, fit(0.9, 448) = −8, fit(1, 7) = −2. -/
theorem test_gauge_fit :
    fit 105 (-1) (14, 5) = -3 ∧ fit 60 0 (14, 5) = -2 ∧ fit 15099494 (-24) (14, 5) = -8 ∧ fit 1 0 (7, 0) = -2 := by
  decide +kernel

/-- R153: the Adam element of "Update engines". -/
theorem test_adam_element :
    (elementStep ⟨2, 2, 0, [], 0, 0, 0, 0, []⟩ ⟨[0x3A83126F, 0x3F600000, 0x3E000000, 0x3F7E0000, 0x3C000000, 0x322BCC77, 0, 0x41000000, 0x43000000]⟩
      0x3F800000 0 0 0x3F000000).news = [0x3F7FBE77, 0x3D800000, 0x3B000000] ∧
      (stochastic 0x3F7FBE77 0x2A5C).1 = 0x3F7F ∧ (stochastic 0x3F7FBE77 0x9001).1 = 0x3F80 ∧
      (convert ⟨.w4, 1, true⟩ (-2) (bf16V 0x3F7F)).code = 4 := by
  decide +kernel

/-- R171: the threshold of dropout at p = 0.1. -/
theorem test_dropout_threshold : dropThreshold 0x3DCCCCCD = 0x199999A0 := by decide +kernel

/-- R190, R193: the residues of block 5 of the four-device ring, first attempt and retry. -/
theorem test_ring_residues :
    (let e (a b : Int) : List Int := [a, 0, 0, 0, 0, 0, 0, 0, 0, b];
      (residueOf g4 (e 51 (-20)), residueOf g4 (e 113 (-17)), residueOf g4 (e 154 (-68)), residueOf g4 (e 267 (-58))) = (11, 79, 18, 151) ∧
        addBlocks g4 (e 51 (-20)) (e 62 3) = e 113 (-17) ∧ addResidues 21 239 = 5 ∧ residueOf g4 (e 67 (-14)) = 39) := by
  decide +kernel

/-- R246: the digits of −1/3 in a row with 3.0, at seven slices and at eight. -/
theorem test_slice_digits :
    (let r (s : Nat) : SplitRow := splitRow s [decodeIeee .fp64 0x4008000000000000, decodeIeee .fp64 0xBFD5555555555555];
      ((r 7).e, (r 7).exact, (r 7).digits) = (2, false, [[96, 0, 0, 0, 0, 0, 0], [-11, 85, 85, 85, 85, 85, 86]]) ∧
        ((r 8).e, (r 8).exact, (r 8).digits) = (2, true, [[96, 0, 0, 0, 0, 0, 0, 0], [-11, 85, 85, 85, 85, 85, 86, -128]])) := by
  decide +kernel

/-- R264, R266: the forward template at F1, its tensors, formats and the pair's check. -/
theorem test_forward_template :
    (let t : Template := ⟨[0x000C0200, 0xE0000003, 0x00060005, 0, 0xA2000C01, 0xC5000C10, 0x46000C20, 0, 0, 0, 0, 0x2000, 0xC00, 0xC00, 0, 0]⟩;
      (tFrame t, tTid t 16, tByte t 19, tTid t 20, tByte t 23, tTid t 24, tByte t 27) = (3, 0xC01, 0xA2, 0xC10, 0xC5, 0xC20, 0x46) ∧
        fwdTile t 1 = true ∧ fwdTile t 2 = false ∧ fArrayStatus (Desc.ofByte 0xA2) (Desc.ofByte 0xC5) 32 false 3072 = 0) := by
  decide +kernel

/-- R389: pegs 517 and 530 of H2 share source 352; taking the first of them makes the line rise anew for the second. -/
theorem test_group_line_rises_again :
    (let g : Peg := { bound := true, reached := true, evtEn := true };
      let s : State := { withReg up (pgPeg 2) Reg.PG_SEL 517 with pegs := [(2565, g), (2578, g)], ec := { shared := [(352, { level := true })] } };
      after (exec (.pgGreach 2 0x20) s) (fun t => !(getPeg t 2565).reached && (getPeg t 2578).reached && (getSrc t 352).pend && (getSrc t 352).level) = true) := by
  decide +kernel

/-- R430: an aisle window's address, and a swing of its page by GO. -/
theorem test_aisle_page : pageOf 0x0A500080 = some (pgAisle 2 5) := by decide +kernel

/-- R367: OPEN answers the lowest free session number. -/
theorem test_open_answers :
    after (exec (.open_ { seq := 7 }) dev) (fun t => t.out == [.resp { session := 1, seq := 7, status := 0 }] && (t.host.sessions.find 1).isSome) = true := by
  decide +kernel

/-- R402: a tick of REFCLK. -/
theorem test_idle_ticks : after (step State.reset) (fun t => t.power.tick == 1) = true := by decide +kernel

/-- R166: the generator's known answer, as GO and DONE leave it in RN_OUT0 to RN_OUT3. -/
theorem test_generator_known_answer :
    after (exec (.rnGo 1) up) (fun u => after (exec .rnDone u) fun t =>
      [Reg.RN_OUT0, Reg.RN_OUT1, Reg.RN_OUT2, Reg.RN_OUT3].map (regGet t pgReference) == [0x6627E8D5, 0xE169C58D, 0xBC57AC4C, 0x9B00DBD8]) = true := by
  decide +kernel

/-! The hypotheses of each statement are met: one theorem for each, its clauses in the statement's order. -/

theorem wit_IdleStepTicks : up.pending = [] := rfl

theorem wit_Sessions :
    (deviceUp dev = true ∧ portUp dev = true ∧ allowed dev hd.src = true ∧ 1 < 64 ∧ dev.host.sessions.find 1 = none ∧
      (∀ j, j < 1 → (dev.host.sessions.find j).isSome = true)) ∧
    (let full : State := { dev with host := { sessions := (List.range 64).map (fun i => (i, {})) } };
      deviceUp full = true ∧ portUp full = true ∧ allowed full hd.src = true ∧ ∀ j, j < 64 → (full.host.sessions.find j).isSome = true) ∧
    taken hd dev = true ∧ deviceUp dev = true ∧
    (let open_ (x : Session) : State := { dev with host := { sessions := [(0, x)] } };
      (deviceUp dev = true ∧ portUp dev = true ∧ allowed dev hd.src = true ∧ dev.host.sessions.find 63 = none) ∧
      (∀ x : Session, (open_ x).host.sessions.find 0 = some x) ∧
      (let x : Session := { answers := [⟨0, 1, 0, [], 0, none, 0⟩] };
        deviceUp (open_ x) = true ∧ portUp (open_ x) = true ∧ (x.answers.find? (fun r => r.seq == 1)).isSome = true) ∧
      (1 ∈ ({ open_ := [1] } : Session).open_) ∧ (1 ∉ ({ high := 65 } : Session).open_ ∧ 1 + 64 ≤ ({ high := 65 } : Session).high) ∧
      (let x : Session := { high := 64, open_ := List.range' 2 64 };
        1 ∉ x.open_ ∧ x.high < 1 + 64 ∧ 64 ≤ x.open_.length)) := by
  refine ⟨by decide +kernel, by decide +kernel, by decide +kernel, by decide +kernel, by decide +kernel, fun _ => rfl, ?_⟩
  decide +kernel

theorem wit_Network :
    (let s : State := { dev with host := { dev.host with net := { allow := [7] } } };
      deviceUp s = true ∧ portUp s = true ∧ allowed s hd.src = false ∧ cntHold s pgHost = false) ∧
    taken hd dev = true ∧ (taken hd dev = true ∧ 1023 < 1024) ∧ (taken hd dev = true ∧ 1024 ≤ 1024) ∧
    (taken hd devQp = true ∧ (devQp.host.qps.find 5).isSome = true ∧ qpNamed devQp 5 = false) ∧
    (let s : State := { devQp with host := { devQp.host with rings := [(0, ⟨5, 1, 0, 0, 0, []⟩)] } };
      taken hd s = true ∧ (s.host.qps.find 5).isSome = true ∧ qpNamed s 5 = true) ∧
    (taken hd devQp = true ∧ 15 < 16 ∧ 3 < 4 ∧ qpUp devQp 5 = true) ∧ (taken hd dev = true ∧ 15 < 16 ∧ 3 < 4) ∧
    (taken hd devQp = true ∧ 5 < 6 ∧ 2 < 3 ∧ qpUp devQp 5 = true ∧ 320 ≤ 320 ∧ 320 ≤ 2 ^ 64) ∧ (taken hd dev = true ∧ 0 < 3) := by
  decide +kernel

theorem wit_IdentityCommands : taken hd dev = true ∧ (List.replicate 32 (0 : Byte)).length = 32 := by decide +kernel

theorem wit_RegisterRangeRefused :
    (1 ≤ 1 ∧ 1 ≤ 256 ∧ [(0 : Word)].length = 1 ∧ (2 % 4 ≠ 0 ∨ ∃ i, i < 1 ∧ pageOf (2 + 4 * i) = none) ∧ taken hd dev = true) ∧
    (1 ≤ 256 ∧ (List.replicate 256 (0 : Word)).length = 256 ∧ ∃ i, i < 256 ∧ pageOf (0x1FFC + 4 * i) = none) := by
  refine ⟨by decide +kernel, by decide, by decide +kernel, 1, by decide, by decide +kernel⟩

theorem wit_RegisterWriteByAccess :
    deviceUp dev = true ∧ taken hd dev = true ∧ pageOf (pgPower.base + 0xFFC) = some pgPower ∧ (pgPower.base + 0xFFC) % 4 = 0 ∧ 0x80 ≤ 0xFFC ∧
      onHub pgPower = true ∧ ownEffect pgPower.kind 0xFFC = false ∧ pgPower.base ≠ pgHost.base := by
  decide +kernel

/-- A bit of zero. -/
theorem bit_zero (i : Nat) : bit 0 i = false := by
  simp [bit, bits]

theorem wit_RegistersReadAndPaged :
    (taken hd dev = true ∧ pageOf (pgPower.base + 0xFFC) = some pgPower ∧ (pgPower.base + 0xFFC) % 4 = 0 ∧ 0x80 ≤ 0xFFC ∧ onHub pgPower = true ∧
      pgPower.kind ≠ 0x1C ∧ pgPower.kind ≠ 0x10 ∧ latches pgPower.kind 0xFFC = false ∧ latches pgPower.kind (0xFFC - 4) = false ∧
      (∀ u : State, blockView u pgPower 0xFFC = none) ∧ pgHost.base + 0x1000 ≤ pgPower.base + 0xFFC) ∧
    (deviceUp dev = true ∧ pageOf (pgSimulation.base + 0x08C) = some pgSimulation ∧ (pgSimulation.base + 0x08C) % 4 = 0 ∧
      onHub pgSimulation = true ∧ pgSimulation.kind ≠ 0x10 ∧ latches pgSimulation.kind 0x08C = true) ∧
    (pageOf 0 = some pgDevice ∧ pageOf 0x0F0FFFFF = some (pgMonitor 7) ∧ 0xFFF < 0x1000) := by
  refine ⟨⟨?_, ?_, ?_, ?_, ?_, ?_, ?_, ?_, ?_, fun _ => rfl, ?_⟩, ?_, ?_⟩ <;> decide +kernel

theorem wit_Events :
    (0 ≤ 4 ∧ 4 ≤ 4 ∧ 4 ≠ 0) ∧ (4 < 5 ∧ (3 : Nat) = 3) ∧
    (let s : State := { up with ec := { ppend := [(4, 256)], pen := [(4, 511)] } };
      SMap.sorted s.ec.shared = true ∧ (bit (s.ec.ppend.get 0 4) 8 && bit (s.ec.pen.get 0 4) 8) = true ∧
        ∀ j, j < 8 → (decide (j < 9) && bit (s.ec.ppend.get 0 4) j && bit (s.ec.pen.get 0 4) j) = false) ∧
    (let s : State := { up with ec := { shared := [(639, { pend := true, en := true })] } };
      SMap.sorted s.ec.shared = true ∧ (∀ i, (decide (i < 9) && bit (s.ec.ppend.get 0 4) i && bit (s.ec.pen.get 0 4) i) = false) ∧
        ((getSrc s 639).pend = true ∧ (getSrc s 639).en = true ∧ (getSrc s 639).target = 4) ∧
        ∀ m, m < 639 → ¬ ((getSrc s m).pend = true ∧ (getSrc s m).en = true ∧ (getSrc s m).target = 4)) ∧
    ((∀ i, (decide (i < 9) && bit (up.ec.ppend.get 0 0) i && bit (up.ec.pen.get 0 0) i) = false) ∧
      ∀ n, ¬ ((getSrc up n).pend = true ∧ (getSrc up n).en = true ∧ (getSrc up n).target = 0)) ∧
    bits (4 : Word).toNat 2 0 ≤ 4 ∧ 4 < bits (5 : Word).toNat 2 0 ∧ pageOf pgEvent.base = some pgEvent ∧ 7 < 8 := by
  refine ⟨by decide, by decide, by decide +kernel, ⟨by decide, ?_, by decide, by decide +kernel⟩, ⟨?_, ?_⟩, by decide, by decide,
    by decide +kernel, by decide⟩
  · intro i
    have h : bit (SMap.get 0 4 ([] : SMap Nat)) i = false := bit_zero i
    simp [h]
  · intro i
    have h : bit (SMap.get 0 0 ([] : SMap Nat)) i = false := bit_zero i
    simp [up, h]
  · intro n h
    simp [show (getSrc up n).pend = false from rfl] at h

theorem wit_ReferenceGenerator :
    (deviceUp dev = true ∧ (1 : Word).getLsbD 0 = true) ∧
    (let s : State := withReg dev pgReference Reg.RN_STAT 1;
      deviceUp s = true ∧ bit (regGet s pgReference Reg.RN_STAT) 0 = true ∧
        s.regs.rnBlock = (0 : Word).toNat + (0 : Word).toNat * 2 ^ 32 + (0 : Word).toNat * 2 ^ 64 + (0 : Word).toNat * 2 ^ 96) := by
  decide +kernel

theorem wit_GaugeWords :
    (let s : State := withReg (withCtx up { state := 1, exporting := true }) pgGauge Reg.GE_WIN 65536;
      geSelected s = (1, 0) ∧ (getCtx s (geSelected s).1).state ≠ 0 ∧ (getCtx s (geSelected s).1).atBoundary = false ∧
        s.gauge.staged.length + s.gauge.due.length < 4096) ∧
    (let s (cl : List Nat) : State := withReg (withCtx up { state := 1, closing := cl }) pgGauge Reg.GE_WIN 65536;
      geSelected (s [0]) = (1, 0) ∧ (getCtx (s [0]) 1).state ≠ 0 ∧ (getCtx (s [0]) 1).atBoundary = true ∧ (getCtx (s []) 1).atBoundary = true ∧
        (s [0]).gauge.staged.length + (s [0]).gauge.due.length < 4096 ∧ 0 ∈ (getCtx (s [0]) 1).closing ∧ 0 ∉ (getCtx (s []) 1).closing) ∧
    (let s : State := { up with gauge := { staged := (List.range 4096).map (fun i => (stageKey 2 i, 0)) } };
      s.gauge.staged.find (stageKey (geSelected s).1 (geSelected s).2) = none ∧ 4096 ≤ s.gauge.staged.length + s.gauge.due.length) ∧
    (getCtx up (geSelected up).1).state = 0 ∧ up.gauge.window ≠ some (geSelected up) ∧
    (let s : State := { up with gauge := { window := some (0, 0) } };
      s.gauge.window = some (geSelected s)) ∧
    ((getCtx (withCtx up { closing := [0] }) 1).closing = 0 :: [] ∧ up.gauge.due.find (stageKey 1 0) = none ∧
      ({ up with gauge := { due := [(stageKey 1 0, 5)] } } : State).gauge.due.find (stageKey 1 0) = some 5) ∧
    (getCtx up 1).closing.head? ≠ some 0 := by
  decide +kernel

theorem wit_FitIsSmallest :
    0 < (127, (0 : Int)).1 ∧
    (let b (k : Nat) : BindRec := ⟨3, 0, k, 2, 4, 0⟩;
      let p (k : Nat) : Plan := { gauges := [b k], tensors := [⟨0, Desc.toByte ⟨.fp32, 3, false⟩, 0, 2, 0, true, 0, [1, 1], 0, 0⟩] };
      (p 2).gauges.find? (fun b => b.gauge == 3) = some (b 2) ∧ (b 2).kind = 2 ∧
        (p 0).gauges.find? (fun b => b.gauge == 3) = some (b 0) ∧ (b 0).kind ≠ 2 ∧ ((p 0).fmtOf (b 0).tid).isSome = true) := by
  decide +kernel

/-- A staged register of the fault manager's page. -/
def stg : State := withShadow dev pgFault Reg.FM_CTRL 11

/-- The same, its swing waiting alone. -/
def swg : State := { stg with regs := { stg.regs with swings := [(pgFault.base, { state := 2 })] } }

/-- The same, its swing a member of a fired group 1. -/
def grp (target : Nat) : State :=
  { stg with regs := { stg.regs with swings := [(pgFault.base, { state := 2, group := 1 })], groups := [(1, { members := [pgFault.base], fired := true, target := target })] } }

theorem wit_SwingsStartAndStop :
    (deviceUp dev = true ∧ pageOf pgFault.base = some pgFault ∧ staged dev pgFault = false) ∧
    (deviceUp stg = true ∧ staged stg pgFault = true ∧ (getSwing stg pgFault).state = 0 ∧ 16 % 16 = 0) ∧
    (1 % 16 ≠ 0 ∧ (getGroup stg (1 % 16)).fired = false) ∧
    (staged (grp 1) pgFault = true ∧ (getSwing (grp 1) pgFault).state ≠ 0 ∧ (getSwing (grp 1) pgFault).group ≠ 0 ∧ deviceUp (grp 1) = true) ∧
    (deviceUp swg = true ∧ onHub pgFault = true ∧ pgFault.kind ≠ 0x1B ∧ (getSwing swg pgFault).group = 0) := by
  decide +kernel

theorem wit_SwingApplies :
    (deviceUp swg = true ∧ pageOf pgFault.base = some pgFault ∧ onHub pgFault = true ∧ (getSwing swg pgFault).state ≠ 0 ∧
      (getSwing swg pgFault).group = 0 ∧ recovering swg = false ∧ drainDone swg pgFault = true ∧ pgFault.kind ≠ 0x1A ∧ pgFault.kind ≠ 0x1B) ∧
    (let s0 : State := withShadow dev pgHost Reg.HP_CTRL 0;
      let s : State := { s0 with regs := { s0.regs with swings := [(pgHost.base, { state := 3 })] } };
      deviceUp s = true ∧ pageOf pgHost.base = some pgHost ∧ onHub pgHost = true ∧ (getSwing s pgHost).state ≠ 0 ∧
        (getSwing s pgHost).group = 0 ∧ recovering s = false ∧ drainDone s pgHost = false) := by
  decide +kernel

theorem wit_SwingGroups :
    (deviceUp (grp 1) = true ∧ (getGroup (grp 1) (groupSel (grp 1))).members ≠ []) ∧
    (getGroup up (groupSel up)).members = [] ∧
    (∀ x, x = 1 ∨ x = 2 → let s := grp x
      deviceUp s = true ∧ pageOf pgFault.base = some pgFault ∧ onHub pgFault = true ∧ (getSwing s pgFault).state ≠ 0 ∧
        (getSwing s pgFault).group = 1 ∧ (getGroup s 1).fired = true ∧ (getSwing s pgFault).arrived = false ∧ recovering s = false ∧
        drainDone s pgFault = true ∧ (getGroup s 1).count = 0 ∧ (getGroup s 1).target = x ∧ (getGroup s 1).held = [] ∧
        (getGroup s 1).members = [pgFault.base] ∧ (getGroup s 1).members.Nodup ∧ pgFault.kind ≠ 0x1A ∧ pgFault.kind ≠ 0x1B) ∧
    ((∀ b p, b ∈ (getGroup (grp 1) 1).members → pageOf b = some p → onHub p = true) ∧ (∀ e, e ∈ (grp 1).ctxs → e.2.queue = [])) ∧
    (let s : State := { grp 1 with regs := { (grp 1).regs with groups := [(1, { members := [pgFault.base], held := [1] })] } };
      (getGroup s 1).held ≠ [] ∧ max 1 (fld s pgSwing Reg.SW_CTRL 15 0) ≤ 65535 ∧ deviceUp s = true) := by
  refine ⟨by decide +kernel, by decide, ?_, ⟨?_, ?_⟩, by decide +kernel⟩
  · intro x hx
    rcases hx with rfl | rfl <;> decide +kernel
  · intro b p hb hp
    rw [show (getGroup (grp 1) 1).members = [pgFault.base] from by decide +kernel] at hb
    rw [List.mem_singleton.mp hb, show pageOf pgFault.base = some pgFault from by decide +kernel] at hp
    cases hp
    decide +kernel
  · intro e he
    cases he

theorem wit_Rings :
    (let q : Ring := ⟨5, 1, 0, 0, 0, [(0, { seq := 1, len := 224, cmd := .reserved 200 })]⟩;
      let s : State := { devQp with host := { devQp.host with rings := [(0, q)] } };
      (deviceUp s = true ∧ portUp s = true ∧ packetTaken s 5 = true) ∧ s.host.rings.find 0 = some q ∧
        (q.prio ≠ 0 ∧ qpUp s q.qp = true ∧ q.consumer + 1 < 2 ^ 32 ∧
          q.entries.find (q.consumer % 256) = some { seq := 1, len := 224, cmd := .reserved 200 } ∧ 224 ≤ 224) ∧
        (257 < 2 ^ 32 ∧ q.consumer < 2 ^ 32 ∧ 256 < (257 + 2 ^ 32 - q.consumer) % 2 ^ 32)) ∧
    (let e : RingEntry := { seq := 1, len := 224, cmd := .telemConfig 5 0 {} };
      e.cmd = .telemConfig 5 0 {} ∧ 5 < 6 ∧ e.len ≤ 224) ∧
    (deviceUp devQp = true ∧ portUp devQp = true ∧ packetTaken devQp 5 = true ∧ devQp.host.rings.find 0 = none) ∧
    (deviceUp dev = true ∧ portUp dev = true ∧ qpUp dev 5 = false) ∧
    (let s : State := { devQp with host := { devQp.host with net := { allow := [7] } } };
      deviceUp s = true ∧ portUp s = true ∧ qpUp s 5 = true ∧ packetTaken s 5 = false) := by
  decide +kernel

/-- One transfer is pending on queue pair 5. -/
def xf (k : XferKind) : State := { devQp with host := { devQp.host with xfers := [(0, ⟨5, k⟩)], nextXfer := 1 } }

theorem wit_TransfersEnd :
    devQp.host.xfers.find 0 = none ∧
    (let b : BufRef := { qp := 5, len := 8 };
      let s := xf (.plan (.session 0 1 0 0) 1 b);
      deviceUp s = true ∧ b.len ≠ 0 ∧ s.host.xfers.find 0 = some ⟨5, .plan (.session 0 1 0 0) 1 b⟩) ∧
    (let s := withCtx (xf (.export_ (.session 0 1 0 0) 1)) { state := 1, exporting := true };
      deviceUp s = true ∧ (∀ e, e ∈ s.ctxs → e.2.queue = []) ∧ (getCtx s 1).state ≠ 0 ∧
        s.host.xfers.find 0 = some ⟨5, .export_ (.session 0 1 0 0) 1⟩) ∧
    (let s := xf (.probe (.session 0 1 0 0));
      deviceUp s = true ∧ 5 ≠ 0xFFFF ∧ s.host.qps.find 5 = some { cfg := {} } ∧ ({ cfg := {} } : Qp).error = false ∧
        s.host.xfers = [(0, ⟨5, .probe (.session 0 1 0 0)⟩)]) := by
  decide +kernel

/-- The device with addresses of its own. -/
def addressed : State := { dev with host := { dev.host with net := { ipv4 := 9, ipv6 := 10 } } }

theorem wit_PortAndCongestion :
    (deviceUp devQp = true ∧ devQp.host.qps.find 5 = some { cfg := {} }) ∧
    (let s := withReg dev pgHost Reg.HP_CTRL (1 + 2 ^ 15);
      deviceUp s = true ∧ portUp s = true ∧ 7 < 8 ∧ bit (fld s pgHost Reg.HP_CTRL 15 8) 7 = true) ∧
    (deviceUp dev = true ∧ portUp dev = true ∧ 0 < 8 ∧ bit (fld dev pgHost Reg.HP_CTRL 15 8) 0 = false) ∧
    (deviceUp addressed = true ∧ portUp addressed = true ∧ ownV4 addressed 9 = true ∧ ownV4 addressed 8 = false ∧ 5 ≤ 5 ∧ cntHold addressed pgHost = false) ∧
    ownV6 addressed 10 = true ∧ ownV6 addressed (linkLocal + 11) = false := by
  refine ⟨by decide +kernel, by decide +kernel, by decide +kernel, by decide +kernel, ?_, ?_⟩
  · simp [ownV6, addressed]
  · simp [ownV6, addressed]

/-- Stream 5 in a mode, one record waiting in its device ring, so many lost. -/
def tel (x : Stream) (lost : Nat) : State :=
  { devQp with host := { devQp.host with streams := [(5, x)], devRings := [(2053, { recs := [⟨5, 0, [1], 0⟩], lost := lost })] } }

theorem wit_TelemetryDelivered :
    (∀ l, l ∈ [0, 7] → deviceUp (tel { mode := 1 } l) = true ∧ portUp (tel { mode := 1 } l) = true ∧ 5 < 6 ∧
      ((tel { mode := 1 } l).host.devRings.get {} (ringKey 5 0)).recs = ⟨5, 0, [1], 0⟩ :: [] ∧
      ((tel { mode := 1 } l).host.devRings.get {} (ringKey 5 0)).lost = l ∧ ((tel { mode := 1 } l).host.streams.get {} 5).mode = 1 ∧
      ((tel { mode := 1 } l).host.sessions.find 0).isSome = true) ∧
    (∀ n, n ∈ [0, 1] → let x : Stream := { mode := 2, buf := { qp := 5, len := 320 }, producer := n }
      deviceUp (tel x 0) = true ∧ portUp (tel x 0) = true ∧ ((tel x 0).host.devRings.get {} (ringKey 5 0)).recs = ⟨5, 0, [1], 0⟩ :: [] ∧
      ((tel x 0).host.devRings.get {} (ringKey 5 0)).lost = 0 ∧ ((tel x 0).host.streams.get {} 5) = x ∧ qpUp (tel x 0) 5 = true) ∧
    (let k := ((recordBytes ⟨5, 0, [1], 0⟩).length + 255) / 256;
      (320 - 64) / 256 < 1 + k - 0 ∧ 0 + k - 0 ≤ (320 - 64) / 256) := by
  refine ⟨by decide +kernel, by decide +kernel, by decide +kernel⟩

theorem wit_ContextLifeAndQueue :
    (taken hd dev = true ∧ queueFree dev hd.ctx = true ∧ (getCtx dev hd.ctx).state = 0 ∧ hd.ctx < 1024 ∧ (getCtx dev hd.ctx).suspended = false ∧
      (getCtx dev hd.ctx).state ≠ 2 ∧ cmdBoundary dev hd.ctx = true ∧ (getCtx dev hd.ctx).state ≠ 1) ∧
    (taken { hd with ctx := 1024 } dev = true ∧ queueFree dev 1024 = true ∧ 1024 ≤ 1024) ∧
    (let s := withCtx devQp { state := 1 };
      taken hd s = true ∧ queueFree s hd.ctx = true ∧ (getCtx s hd.ctx).state = 1 ∧ cmdBoundary s hd.ctx = true ∧ mayAct s hd.ctx (.setSeed 0) = true ∧ qpUp s 5 = true ∧
        0 < 2 ^ 64 ∧ 2 ^ 64 ≤ 2 ^ 64) ∧
    (let s := withCtx devQp { state := 2, suspended := true };
      taken hd s = true ∧ queueFree s hd.ctx = true ∧ (getCtx s hd.ctx).state = 2 ∧ cmdBoundary s hd.ctx = true ∧ (getCtx s hd.ctx).suspended = true) ∧
    (∀ k, (getPeg (withCtx devQp { state := 2, suspended := true }) k).waits = []) ∧
    (let s := withCtx dev { state := 1, exporting := true };
      taken hd s = true ∧ (getCtx s hd.ctx).state ≠ 0 ∧ mayAct s hd.ctx (.setSeed 0) = false ∧ (getCtx s hd.ctx).queue = []) ∧
    (let s := withCtx dev { state := 1, exporting := true, queue := List.replicate 8 ⟨.session 0 1 0 0, .resume⟩ };
      taken hd s = true ∧ (getCtx s hd.ctx).state ≠ 0 ∧ mayAct s hd.ctx (.setSeed 0) = false ∧ 8 ≤ (getCtx s hd.ctx).queue.length) := by
  refine ⟨?_, ?_, ?_, ?_, fun _ => rfl, ?_, ?_⟩ <;> decide +kernel

theorem wit_ActivateAndSwitch :
    (let s := withCtx dev { state := 1, plan := some { cls := 1 } };
      taken hd s = true ∧ queueFree s 1 = true ∧ SMap.wf {} s.ctxs = true ∧ s.boot.failedUnit = none ∧ hd.ctx = 1 ∧
        (activate s 1 (freeSlot s) none).status = 0 ∧ (∀ k, k ∈ ([] : List Nat) → cmdBoundary s k = true)) ∧
    (taken hd dev = true ∧ queueFree dev 1 = true ∧ SMap.wf {} dev.ctxs = true ∧ dev.boot.failedUnit = none ∧
      (activate dev 1 (freeSlot dev) none).status ≠ 0) ∧
    (let s : State := { dev with ctxs := [(1, { state := 1, plan := some { cls := 1 } }), (2, { state := 2, slot := some 3 })] };
      taken hd s = true ∧ queueFree s 1 = true ∧ SMap.wf {} s.ctxs = true ∧ s.boot.failedUnit = none ∧ cmdBoundary s 2 = true ∧
        (switchCtxs s (originOf hd) [2] 1 none).status = 0) ∧
    (let s : State := { dev with boot := { dev.boot with failedUnit := some 8 } };
      taken hd s = true ∧ queueFree s 1 = true ∧ SMap.wf {} s.ctxs = true ∧ s.boot.failedUnit.isSome = true) := by
  decide +kernel

theorem wit_ReadsBegin :
    (let s := withCtx devQp { state := 1 };
      taken hd s = true ∧ qpUp s 5 = true ∧ 0 < 8 * 4096 ∧ 8 * 4096 ≤ 8 * 4096 ∧ queueFree s hd.ctx = true ∧ (getCtx s hd.ctx).state ≠ 0 ∧
        s.boot.failedUnit = none ∧ cmdBoundary s hd.ctx = true ∧ fwBusy s = false ∧ pairBarred s 4095 1 = false ∧ pairBarred s 4096 1 = true ∧
        qpUp s 6 = false) ∧
    (∀ k, k ∈ [1] → cmdBoundary (withCtx devQp { state := 1 }) k = true) := by
  decide +kernel

theorem wit_ExportWritesHeaderLast :
    let s := withCtx devQp { state := 1, plan := some {} };
    taken hd s = true ∧ queueFree s hd.ctx = true ∧ cmdBoundary s hd.ctx = true ∧ (getCtx s hd.ctx).state ≠ 0 ∧ qpUp s 5 = true ∧ 0 < 2 ^ 64 ∧
      (getCtx s hd.ctx).plan = some {} ∧ (contextImage s (getCtx s hd.ctx)).len ≤ 2 ^ 64 ∧ (kj7Image (getCtx s hd.ctx) {}).len ≤ 2 ^ 64 ∧
      1 < (contextImage s (getCtx s hd.ctx)).len ∧ 1 < (kj7Image (getCtx s hd.ctx) {}).len := by
  decide +kernel

/-- Context 1 active with a plan of no layers. -/
def act : State := withCtx devQp { state := 2, plan := some {}, seed := some 0 }

theorem wit_Admissions :
    (taken hd act = true ∧ queueFree act hd.ctx = true ∧ mayAct act hd.ctx (.admit_ 0 0) = true ∧ admitCheck act hd.ctx 0 = .go false false) ∧
    (let s := withCtx devQp { state := 2, plan := some {} };
      taken hd s = true ∧ queueFree s hd.ctx = true ∧ mayAct s hd.ctx (.admit_ 0 0) = true ∧ admitCheck s hd.ctx 0 = .refused 0x38 0 0) ∧
    (getCtx dev 1).plan = none ∧
    (let c (x : Ctx) : Ctx := getCtx (withCtx dev x) 1;
      ((c { state := 1, plan := some {} }).state ≠ 2 ∧ (c { state := 2, plan := some {}, suspended := true }).suspended = true) ∧
      (let x := c { state := 2, plan := some {} };
        x.state = 2 ∧ ({} : Plan).cls = 0 ∧ x.suspended = false ∧ x.configBad = false ∧ x.vacant = [] ∧ x.seed = none)) ∧
    (batchTokens act (getCtx act 1) {} 0).isSome = true ∧
    (getCtx (withCtx dev { state := 2, plan := some {}, seed := some 0, step := 2 ^ 32 - 1 }) 1).step = 2 ^ 32 - 1 ∧
    (let p : Plan := { tensors := [⟨4, Desc.toByte ⟨.fp32, 3, false⟩, 0, 2, 0, true, 4, [8, 1], 0, 0⟩], templates := [⟨[3, 0, 0, 0, 0xFFFFFF, 4]⟩] };
      batchTokens act (getCtx act 1) p 1 = none) := by
  decide +kernel

theorem wit_Admissions_eval :
    (taken hd act = true ∧ queueFree act hd.ctx = true ∧ mayAct act hd.ctx (.eval 0 true 0 0) = true ∧ (getCtx act hd.ctx).plan = some {} ∧
      (getCtx act hd.ctx).state = 2 ∧ (getCtx act hd.ctx).seed = some 0) ∧
    (taken hd dev = true ∧ queueFree dev hd.ctx = true ∧ mayAct dev hd.ctx (.eval 0 true 0 0) = true ∧ (getCtx dev hd.ctx).state ≠ 2) ∧
    (let s := withCtx devQp { state := 2, plan := some {} };
      taken hd s = true ∧ queueFree s hd.ctx = true ∧ mayAct s hd.ctx (.eval 0 true 0 0) = true ∧ (getCtx s hd.ctx).plan.isSome = true ∧
        (getCtx s hd.ctx).state = 2 ∧ (getCtx s hd.ctx).seed = none) := by
  decide +kernel

theorem wit_SelfTestAndUnpair :
    (7 < 8 ∧ 15 < 16 ∧ 67 < 68 ∧ bit dev.power.asleep 7 = false ∧ (getGal (putGal dev (galKey 7 15 67) { state := 3 }) (galKey 7 15 67)).state = 3 ∧
      taken hd dev = true ∧ fld dev pgSilent Reg.SE_TESTOPT 0 0 = 0) ∧
    (let c : Ctx := { state := 2, plan := some {}, frames := [(1, [⟨0, 0, 0⟩])], evalRun := some { number := 0 } };
      let s := withCtx dev c;
      taken hd s = true ∧ (getGal s (galKey 0 0 0)).state = 0 ∧ galKey 0 0 0 ∉ s.silent.requests ∧ aisleQuiet s 0 0 = false) ∧
    (0 < 2 ^ 32 ∧ testable State.reset 0 = false) ∧
    (let s (w : TwinSt) : State := { withCtx dev { state := 2, shadow := {} } with twin := w };
      (taken hd (s {}) = true ∧ (s {}).twin.serving = false ∧ (s {}).twin.twin = none ∧ (s {}).twin.member = none) ∧
      (taken hd (s { serving := true, member := some 3 }) = true ∧ (s { serving := true }).twin.serving = true) ∧
      (let u : TwinSt := { twin := some 3, state := 3, unpair := some .device };
        taken hd (s u) = true ∧ u.serving = false ∧ u.twin.isSome = true ∧ u.unpair.isSome = true) ∧
      (let u : State := { withCtx dev { state := 2, plan := some {}, attempt := some { step := 0 } } with twin := { twin := some 3, state := 3 } };
        taken hd u = true ∧ u.twin.serving = false ∧ u.twin.twin.isSome = true ∧ u.twin.unpair = none ∧ u.twin.state ≠ 4 ∧
          (getCtx u 1).mirrored = true ∧ (getCtx u 1).unpairPoint = false ∧ (getCtx u 1).unpairing = false ∧ SMap.sorted u.ctxs = true) ∧
      (let u : TwinSt := { twin := some 3, state := 4 };
        taken hd (s u) = true ∧ u.serving = false ∧ u.twin = some 3 ∧ u.unpair = none ∧ u.state = 4)) := by
  decide +kernel

theorem wit_ColdReset :
    ({ up with power := { up.power with poreset := false } } : State).power.poreset = false ∧
    (∀ o, o ∈ [true, false] → let s : State := { power := { mainOk := o, backupOk := false, poreset := true } }
      s.power.poreset = true ∧ has48 s = o ∧ hot s = false) ∧
    (let s : State := { power := { poreset := true }, monitors := [(8, { temps := [(0, (881, true))] })] };
      s.power.poreset = true ∧ has48 s = true ∧ hot s = true) := by
  decide +kernel

theorem wit_WarmReset :
    (up.power.poreset = false ∧ up.power.tripped = false ∧ up.power.warmreset = false ∧ hubsRun up = true) ∧
    ({ power := { poreset := true } } : State).power.poreset = true ∧
    (let s : State := { up with power := { up.power with warmreset := true } };
      s.power.warmreset = true ∧ has48 s = true ∧ s.power.tripped = false ∧ hubsRun s = false) := by
  decide +kernel

theorem wit_ReadyCommitsSlots :
    (let s : State := { up with boot := { state := 1, slot := 1 } };
      s.boot.state = 1 ∧ s.boot.slot ≤ 1 ∧ s.boot.parked = []) ∧
    (let x : Ctx := { state := 2, step := 9 };
      let s : State := { up with boot := { state := 1, parked := [(1, x)] } };
      s.boot.state = 1 ∧ s.boot.slot ≤ 1 ∧ s.boot.parked = [(1, x)] ∧ x.attempt = none ∧ x.shadow.held = false ∧ x.state ≠ 0) := by
  decide +kernel

/-- The device in service mode, an image of two bytes in slot 0. -/
def svc : State := { boot := { service := true, slots := [(0, { word := 2, image := [1, 2] })] } }

theorem wit_FirmwareAndFlash :
    ({ up with boot := { state := 1 } } : State).boot.state = 1 ∧ up.boot.state ≠ 1 ∧
    (let s : State := { up with boot := { state := 2, slot := 1, updating := some (.session 0 1 0 0, [1]) } };
      s.boot.updating = some (.session 0 1 0 0, [1]) ∧ s.boot.slot ≤ 1) ∧
    up.boot.service = false ∧ (svc.boot.service = true ∧ 2 * slotBytes ≤ 2 * slotBytes) ∧
    (svc.boot.service = true ∧ 0 < 2 ∧ 1 + [(7 : Byte)].length ≤ (getSlot svc 0).image.length ∧ 1 < slotBytes ∧ 1 + [(7 : Byte)].length ≤ slotBytes) ∧
    (svc.boot.service = true ∧ 1 < 2) := by
  decide +kernel

theorem wit_SuppliesAndClock :
    (∀ i, i < 2 → outside 60001 = true ∧ outside 39999 = true ∧ up.power.mainOk = true ∧ up.power.backupOk = true ∧ hubsRun up = true ∧
      up.ec.image = none ∧ up.recovery = none) ∧
    (2 ≤ 2 ∧ outside 40000 = false ∧ outside 60000 = false) ∧
    (let s : State := { up with power := { up.power with backupOk := false } };
      has48 s = true ∧ inputOk s 0 = true ∧ inputOk s (1 - 0) = false ∧ outside 0 = true ∧ inputOk s 1 = false) ∧
    (∀ b, b ∈ [true, false] → let s : State := { power := { mainOk := false, backupOk := false, poreset := b } }
      has48 s = false ∧ inputOk s 1 = false ∧ outside 48000 = false ∧ s.power.poreset = b ∧ s.power.warmreset = false ∧ hot s = false) ∧
    (up.power.stbyOk = true ∧ 3134 < 3135 ∧ 3465 < 3466 ∧ hubsRun up = true ∧ up.ec.image = none) ∧
    (let s : State := { power := { mainOk := false, backupOk := false } };
      s.power.stbyOk = true ∧ has48 s = false) ∧
    (up.power.refclk = true ∧ up.power.poreset = false ∧ hubsRun up = true ∧ up.power.lost = false) ∧
    (let s : State := { up with power := { up.power with tripped := true } };
      s.power.refclk = true ∧ s.power.poreset = false ∧ hubsRun s = false) := by
  decide +kernel

/-- Every hall asleep, DORMANT allowed. -/
def asleep : State := { withReg up pgPower Reg.PW_CTRL 3 with power := { up.power with asleep := 255 } }

theorem wit_SleepAndTrip :
    (mayDormant asleep = true ∧ mayDormant up = false) ∧
    (let r : Retention := { late := [5] };
      let s : State := { withReg asleep pgPower Reg.PW_WAKE 1 with power := { asleep.power with dormant := true }, ec := { image := some r }, boot := { state := 2, resume := some ([], 0) } };
      regGet s pgPower Reg.PW_WAKE ≠ 0 ∧ s.power.dormant = true ∧ s.power.poreset = false ∧ s.boot.resume = some ([], 0) ∧ s.boot.counter ≤ 0 ∧
        s.ec.image = some r ∧ r.crcOk = true ∧ SMap.sorted r.shared = true ∧ hot s = false) ∧
    up.power.dormant = false ∧
    (atTrip 7 64 840 = true ∧ atTrip 9 15 960 = true ∧ has48 up = true ∧ up.power.poreset = false ∧ up.power.dormant = false ∧ up.power.tripped = false) ∧
    (atTrip 7 64 839 = false ∧ atTrip 10 0 960 = false) := by
  decide +kernel

theorem wit_IssueDuty :
    (deviceUp up = true ∧ up.boot.waitCool = false ∧ 7 < 8 ∧ bit up.power.asleep 7 = false ∧ 9 < 10 ∧ 15 < sensorCount 9 ∧ 64 < sensorCount 0) ∧
    ((∃ x, x ∈ validTemps { temps := [(0, (105 * 8, true))] } ∧ 840 ≤ x) ∧ (∀ x, x ∈ validTemps { temps := [(0, (0, true))] } → x < 840 - 24)) ∧
    (let s : State := { power := { poreset := true } };
      deviceUp s = false ∧ s.boot.waitCool = false) := by
  decide +kernel

theorem wit_MonitorsReport :
    (deviceUp up = true ∧ 9 < 10 ∧ up.power.lost = false) ∧
    (let s : State := { up with gals := [(8703, { state := 1 })] };
      deviceUp s = true ∧ 8703 < 8704 ∧ (getGal s 8703).state = 1) ∧
    (getMon up 9).volts.length ≤ 256 := by
  decide +kernel

theorem wit_GatesAndHalls :
    (7 < 8 ∧ 15 < 16 ∧ 67 < 68 ∧ deviceUp up = true ∧ bit up.power.asleep 7 = false ∧ mayGate up (galKey 7 15 67) = true) ∧
    (mayGate { up with gals := [(galKey 7 15 67, { powered := false })] } (galKey 7 15 67) = false) ∧
    (wakeKat up = true ∧ wakeKat (withReg up pgReference Reg.RN_CTRL 0) = false) ∧
    (let s := withReg up pgPower Reg.PW_CTRL 1;
      deviceUp s = true ∧ maySleep s 7 = true) ∧
    maySleep (withReg up pgPower Reg.PW_CTRL 0) 0 = false ∧
    (let s : State := { up with power := { up.power with asleep := 128, waking := 128 } };
      deviceUp s = true ∧ bit s.power.asleep 7 = true ∧ bit s.power.waking 7 = true ∧ bit s.power.asleep 0 = false) := by
  decide +kernel

theorem wit_FrameQueueDelivers :
    let p : Plan := { templates := [⟨[3]⟩] };
    let s : State := withCtx up { state := 2, plan := some p, frames := [(1, [⟨0, 0, 5⟩])], frameQueues := [(1, [0])] };
    let ks := ((getCtx s 1).frames.get [] 1).map (fun m => ((m.hall * 16 + m.aisle) * 68 + m.slot) * 4 + templateUnit (p.templates.getD 0 ⟨[]⟩));
    ((getCtx s 1).frameQueues.get [] 1 = 0 :: [] ∧ (getCtx s 1).plan = some p ∧
      ∀ k, k ∈ ks → (s.queues.get [] k).length < queueRoom (templateUnit (p.templates.getD 0 ⟨[]⟩))) ∧
    (let r : State := { s with queues := ks.map (fun k => (k, List.replicate (queueRoom (templateUnit (p.templates.getD 0 ⟨[]⟩))) ⟨1, 0, false⟩)) };
      (getCtx r 1).frameQueues.get [] 1 = 0 :: [] ∧ (getCtx r 1).plan = some p ∧
        ∃ k, k ∈ ks ∧ queueRoom (templateUnit (p.templates.getD 0 ⟨[]⟩)) ≤ (r.queues.get [] k).length) := by
  decide +kernel

/-- Link 0 as given. -/
def lnk (l : Link) : State := { withReg up (pgLink 0) Reg.LK_CTRL (1 + 8 * 256) with links := [(0, l)] }

theorem wit_LinkStates :
    (let l : Link := { state := 1, seen := some 3 };
      getLink (lnk l) 0 = l ∧ 0 < 48 ∧ 2 < 3 ∧ 3 ≤ 3 ∧ l.seen = some 3 ∧ 3 ≠ 4 ∧ l.retry = [] ∧ l.queue = []) ∧
    (getLink (lnk { state := 4 }) 0).state = 4 ∧ fld (lnk { state := 4 }) (pgLink 0) Reg.LK_CTRL 0 0 = 1 ∧ (getLink (lnk {}) 0).state ≠ 4 ∧
    (let l : Link := { state := 2, cal := true };
      (getLink (lnk l) 0).state = 2 ∧ (lnk l).recovery = none ∧ 4 = l.spare ∧ 0 ≠ l.spare ∧ l.noSpare = false ∧ l.cal = true ∧ 3 < 5) ∧
    (let l : Link := { state := 2, noSpare := true };
      (getLink (lnk l) 0).state = 2 ∧ l.noSpare = true ∧ l.cal = false) ∧
    (let l : Link := { state := 3, replays := 8 };
      linkRuns (lnk l) 0 = true ∧ l.state = 3 ∧ (lnk l).recovery = none ∧ retryMax (lnk l) 0 ≤ l.replays) ∧
    linkRuns (lnk {}) 0 = false := by
  decide +kernel

/-- Two links up, device 1, a route to device 4095 over link 1. -/
def net2 (l : Link) : State :=
  { withReg (withReg up pgRouter Reg.RT_ID (2 ^ 31 + 1)) pgRouter 0x098 (20 + 64 * 65536) with links := [(0, l), (1, { state := 2 })], router := { entries := [(4095, 2 ^ 12)], trunks := [(0, 2)] } }

/-- A flit of zeros but for what is given. -/
def flt (k dst hops eseq seq : Nat) : Flit := { fkind := k, dst := dst, src := 9, hops := hops, eseq := eseq, seq := seq, data := List.replicate 240 0 }

theorem reads_data : readFlit (flitBytes (flt 1 1 0 0 0)) = some (flt 1 1 0 0 0) := by decide +kernel
theorem reads_ahead : readFlit (flitBytes (flt 2 1 0 2047 0)) = some (flt 2 1 0 2047 0) := by decide +kernel
theorem reads_through : readFlit (flitBytes (flt 1 4095 0 0 0)) = some (flt 1 4095 0 0 0) := by decide +kernel
theorem reads_nowhere : readFlit (flitBytes (flt 1 5 0 0 0)) = some (flt 1 5 0 0 0) := by decide +kernel
theorem reads_spent : readFlit (flitBytes (flt 1 5 127 0 0)) = some (flt 1 5 127 0 0) := by decide +kernel
theorem reads_idle : readFlit (flitBytes (flt 0 1 0 0 1)) = some (flt 0 1 0 0 1) := by decide +kernel
theorem reads_gap : readFlit (flitBytes (flt 3 1 0 0 1)) = some (flt 3 1 0 0 1) := by decide +kernel

/-- A flit that begins a pairing. -/
def pairFlit : Flit := { flt 1 1 0 0 0 with proto := 4, data := 0xF0 :: List.replicate 239 0 }

theorem reads_pairing : readFlit (flitBytes pairFlit) = some pairFlit := by decide +kernel

theorem wit_FlitsReceived_pairing :
    let s := net2 { state := 2 };
    pairFlit.fkind = 1 ∧ pairFlit.proto = 4 ∧ (pairFlit.data.head?.map (·.toNat)) = some 0xF0 ∧ s.twin.member = none ∧ pairFlit.src ∉ s.lostDevs ∧
      noCredit s 0 { state := 2 } pairFlit = false ∧ pairFlit.dst = deviceId s ∧ (flt 1 1 0 0 0).proto ≠ 4 := by
  decide +kernel

theorem wit_FlitsReceived :
    linkRuns (net2 {}) 0 = false ∧
    (let l : Link := { state := 2 };
      let s := net2 l;
      (linkRuns s 0 = true ∧ readFlit [] = none ∧ getLink s 0 = l ∧ l.queue = []) ∧
      (flt 0 1 0 0 1).fkind = 0 ∧ (flt 3 1 0 0 1).fkind ≠ 0 ∧ (flt 3 1 0 0 1).seq ≠ l.rx ∧ ({ l with rx := 1 } : Link).rx = (flt 3 1 0 0 1).seq ∧
      ((flt 1 1 0 0 0).fkind = 1 ∧ (flt 1 1 0 0 0).seq = l.rx ∧ noCredit s 0 l (flt 1 1 0 0 0) = false ∧ idValid s = true ∧
        (flt 1 1 0 0 0).dst = deviceId s ∧ (flt 1 1 0 0 0).eseq = s.router.next.get 0 36 ∧ s.router.held.get [] 36 = []) ∧
      ((flt 2 1 0 2047 0).eseq ≠ s.router.next.get 0 36 ∧ (2047 + 4096 - s.router.next.get 0 36) % 4096 < 2048 ∧ heldAll s < 8192) ∧
      ((flt 1 5 0 0 0).dst ≠ deviceId s ∧ hopMax s < 127 + 1 ∧ 0 + 1 ≤ hopMax s ∧ routeOf s 9 5 0 = none) ∧
      (routeOf s 9 4095 0 = some (1, false) ∧ 1 ≠ 0 ∧ (getLink s 1).retry.length < 512 ∧ s.power.lost = false ∧ (getLink s 1).queue = [] ∧
        (getLink s 1).used = [])) ∧
    (let l : Link := { state := 2, owed := [(0, 65535)] };
      linkRuns (net2 l) 0 = true ∧ noCredit (net2 l) 0 l (flt 1 1 0 0 0) = true) := by
  decide +kernel

theorem wit_ReplayAndReorder :
    (let l : Link := { state := 2, retry := [flt 1 1 0 0 0], tx := 1 };
      let s := net2 l;
      (unacked l ((0 % 4096 + 4095) % 4096) ≠ [] ∧ linkRuns s 0 = true ∧ 0 < retryMax s 0 ∧ s.power.lost = false) ∧
      unacked l ((1 + 4095) % 4096) = []) ∧
    (let l : Link := { state := 2 };
      linkRuns (net2 l) 0 = true ∧ nextFlit (net2 l) 0 l = none ∧ (net2 l).power.lost = false ∧ creditBack (net2 l) 0 l = none) ∧
    (creditBack (net2 { state := 2, owed := [(7, 128)] }) 0 { state := 2, owed := [(7, 128)] } = some (7, 127) ∧ nextFlit (net2 { state := 2, owed := [(7, 128)] }) 0 { state := 2, owed := [(7, 128)] } = none) ∧
    linkRuns (net2 {}) 0 = false ∧ 3 < 4 ∧ ((net2 {}).router.held.get [] 39 = []) ∧
    (let s : State := { net2 {} with router := { held := [(39, [{ f := flt 1 1 0 5 0, link := some 0 }])] } };
      s.router.held.get [] (9 * 4 + 3) = [{ f := flt 1 1 0 5 0, link := some 0 }]) := by
  decide +kernel

theorem wit_FlitRoundTrip :
    let f : Flit := { tc := 3, fkind := 3, vc := 1, seq := 4095, ack := 4095, dst := 4095, src := 4095, len := 255, credit := 127, ctc := 3, proto := 15, eseq := 4095, hops := 127, data := List.replicate 240 255 };
    f.tc < 4 ∧ f.fkind < 4 ∧ f.vc < 2 ∧ f.seq < 4096 ∧ f.ack < 4096 ∧ f.dst < 4096 ∧ f.src < 4096 ∧ f.len < 256 ∧ f.credit < 128 ∧
      f.ctc < 4 ∧ f.proto < 16 ∧ f.eseq < 4096 ∧ f.hops < 128 ∧ f.data.length = 240 := by
  decide +kernel

theorem ready_eval : readyWork (wk evc) wo 3 := by
  refine ⟨?_, ?_, ?_, ?_, ⟨?_, ?_⟩, ?_, ?_, Or.inr ?_⟩ <;> decide +kernel

theorem wit_JoinerWorkRuns :
    readyWork (wk evc) wo 3 ∧
    (let a : EwArgs := { outFmt := fp32B, in0 := 4, in1 := 5, out := 6 };
      ewOrder (.add wo a) = some (0, wo, a) ∧ ewOrder (.vadd wo a) = some (0x50, wo, a) ∧ (Rnd.ofCode wo.rnd).isSome = true ∧
        ewStatus (getCtx (wk evc) wo.ctx) 0 a = 0 ∧ ewStatus (getCtx (wk evc) wo.ctx) 0x50 a = 0 ∧
        ewStatus (getCtx (wk evc) wo.ctx) 0 { a with outFmt := 255 } ≠ 0) ∧
    (let w : WoHdr := { wo with rnd := 5 };
      (mayWork (wk evc) w = true ∧ memberPowered (wk evc) w = true ∧ queuedBehind (wk evc) w 3 = false) ∧ Rnd.ofCode w.rnd = none) ∧
    (let a : RdArgs := { outFmt := fp32B, in0 := 4, out := 6 };
      rdOrder (.sum wo a) = some (.sum, wo, a) ∧ rdStatus (getCtx (wk evc) wo.ctx) .sum wo a = 0 ∧
        rdStatus (getCtx (wk evc) wo.ctx) .sum wo { a with outFmt := 255 } ≠ 0) ∧
    (let a : SkArgs := { prec := 1, a := 4, b := 5, c := 6, k := 1 };
      kernelStatus false wo a = 0 ∧ kernelStatus true wo a = 0 ∧ kernelStatus true wo { a with k := 0 } ≠ 0) := by
  exact ⟨ready_eval, by decide +kernel⟩

theorem wit_WorkWaits :
    (let a : EwArgs := { outFmt := fp32B, in0 := 4, in1 := 5, out := 6 };
      ewOrder (.add wo a) = some (0, wo, a) ∧ ewStatus (getCtx (wk evc) wo.ctx) 0 a = 0 ∧ (Rnd.ofCode wo.rnd).isSome = true ∧ mayWork (wk {}) wo = false) ∧
    (let a : RdArgs := { outFmt := fp32B, in0 := 4, out := 6 };
      rdOrder (.sum wo a) = some (.sum, wo, a) ∧ rdStatus (getCtx (wk evc) wo.ctx) .sum wo a = 0) ∧
    (kernelStatus true wo { prec := 1, a := 4, b := 5, c := 6, k := 1 } = 0 ∧ (pegOrder (.arrive wo { peg := 0, value := 1 })).isSome = true) ∧
    (tileStatus 0 (isB2 wo) (Desc.ofByte 35) (Desc.ofByte 5) (Desc.ofByte 5) (runLen 0 32) false 1 = 0 ∧
      (if isB2 wo ∧ (0 : Nat) ≠ 0 then 3 else min 0 2) = 0) ∧
    (let s : State := { wk evc with power := { up.power with asleep := 1 } };
      mayWork s wo = true ∧ memberPowered s wo = false ∧ wo.hall < 8 ∧ bit s.power.asleep wo.hall = true) ∧
    (let s : State := { wk evc with gals := [(0, { slot := 0, powered := false })] };
      mayWork s wo = true ∧ memberPowered s wo = false ∧ bit s.power.asleep wo.hall = false) ∧
    (let s : State := { wk evc with queues := [(queueKey wo 3, [⟨2, 9, false⟩, ⟨1, 0, false⟩])] };
      mayWork s wo = true ∧ memberPowered s wo = true ∧ (getCtx s wo.ctx).stack.rerun = false ∧ (∀ e, e ∈ (getCtx s wo.ctx).reexec → e.1 ≠ wo) ∧
        queuedBehind s wo 3 = true) := by
  decide +kernel

theorem wit_ElementwiseWork :
    readyWork (wk evc) wo 3 ∧
    (let a : EwArgs := { outFmt := fp32B, in0 := 4, in1 := 5, out := 6 };
      let c := getCtx (wk evc) wo.ctx;
      ewOrder (.add wo a) = some (0, wo, a) ∧ ewStatus c 0 a = 0 ∧ a.outFmt = (Desc.mk .fp32 3 false).toByte ∧ (c.open_ a.in0).d = ⟨.fp32, 3, false⟩ ∧
        (c.open_ a.in0).ext = [] ∧ 0 < (c.open_ a.out).rowLen ∧ a.aux ≠ a.out ∧ (ewUnary 0 0 (.neg wo a)).isSome = true ∧
        (ewBinary (.add wo a)).isSome = true ∧ (c.open_ a.in1).d = ⟨.fp32, 3, false⟩ ∧ (c.open_ a.in1).ext = [] ∧ ({ a with in1 := noTid } : EwArgs).in1 = noTid) ∧
    (let a : EwArgs := { outFmt := fp32B, in0 := 4, in1 := 5, out := 6 };
      let c := getCtx (wk evc) wo.ctx;
      ewOrder (.vsub wo a) = some (0x51, wo, a) ∧ (ewIeee (.vsub wo a)).isSome = true ∧ Rnd.ofCode wo.rnd = some .rne ∧
        Desc.ofByte a.outFmt = some ⟨.fp32, 3, false⟩ ∧ ewStatus c 0x51 a = 0 ∧ 0 < (c.open_ a.out).rowLen) := by
  exact ⟨ready_eval, by decide +kernel⟩

theorem wit_MatrixWork :
    readyWork (wk evc) wo 0 ∧ readyWork (wk evc) wo 3 ∧
    (let st (b f y k : Nat) : Nat := tileStatus b (isB2 wo) (Desc.ofByte f) (Desc.ofByte 5) (Desc.ofByte y) (runLen 0 32) false k;
      st 0 35 5 1 = 0 ∧ st 0 5 5 1 = 3 ∧ st 0 35 255 1 = 2) ∧
    cntHold (wk evc) (faPg (memberGal (wk evc) wo)) = false ∧
    (let a : SkArgs := { prec := 1, a := 4, b := 5, c := 6, n := 8, k := 1 };
      kernelStatus false wo a = 0 ∧ Rnd.ofCode wo.rnd = some .rne ∧ a.n0 + a.n ≤ ((getCtx (wk evc) wo.ctx).open_ a.c).rowLen ∧ 0 < a.m ∧ 7 < a.n) := by
  refine ⟨⟨?_, ?_, ?_, ?_, ⟨?_, ?_⟩, ?_, ?_, Or.inr ?_⟩, ready_eval, ?_⟩ <;> decide +kernel

theorem wit_MovementsRun :
    readyWork (wk evc) wo 3 ∧ (4 ≠ noTid ∧ 5 ≠ noTid ∧ (mxStatus { elem := 3 } = 0 ∧ mxStatus { elem := 4 } ≠ 0)) ∧
    (let b : BufRef := { qp := 5, len := 64 };
      let s := wk { evc with window := some b };
      (mayWork s wo = true ∧ memberPowered s wo = true ∧ queuedBehind s wo 3 = false ∧ (getCtx s wo.ctx).closing = []) ∧
      windowRef (getCtx s 1) 0 64 true = some b ∧ windowRef (getCtx s 1) 0 64 false = some b ∧ qpUp s b.qp = true) ∧
    (windowRef (getCtx (wk evc) 1) 0 64 true = none ∧ (getCtx (wk evc) wo.ctx).attempt = none ∧ simCtx (wk evc) 1 = false) ∧
    ((mxStream { zeros with desc := Desc.toByte ⟨.af8, 2, false⟩ } { src := 4, dst := 5, len := 33 } { elem := 0 }).1 = 0 ∧
      (mxStream zeros { src := 4, dst := 5, len := 33 } { elem := 0 }).1 ≠ 0) := by
  exact ⟨ready_eval, by decide +kernel⟩

/-- The same context with plan pegs 0 and 1 on pegs 3 and 4 of the device. -/
def pgs (p3 : Peg) : State := { wk { evc with pegs := [(0, 3), (1, 4)] } with pegs := [(3, p3)] }

theorem wit_PegOperations :
    (let s := pgs { bound := true, owner := 1, target := 2 };
      let a : PegArgs := { peg := 0, value := 1 };
      pegOrder (.wait wo a) = some (.wait, wo, a) ∧ mayWork s wo = true ∧ memberPowered s wo = true ∧ queuedBehind s wo 3 = false ∧
        wo.waitPeg = 0xFFFF ∧ a.device = 0xFFFF ∧ pegKeyOf (getCtx s wo.ctx) 0 = some 3 ∧ pegStatus s 3 (ctxTag s wo.ctx) = 0 ∧
        pegKeyOf (getCtx s wo.ctx) 1 = some 4 ∧ pegStatus s 4 (ctxTag s wo.ctx) ≠ 0) ∧
    ((4095 : Nat) ≠ 0xFFFF ∧ 4095 ∉ (pgs {}).lostDevs) ∧ 7 ∈ ({ pgs {} with lostDevs := [7] } : State).lostDevs := by
  decide +kernel

theorem wit_RemotePegOperations :
    (let s := pgs { bound := true, owner := 1, target := 2 };
      let t : State := { s with twin := { twin := some 9 } };
      (getCtx s 1).attempt = none ∧ (∀ e, e ∈ s.ctxs → e.2.shadow.held = false) ∧ mayOperate s 1 9 = false ∧ mayOperate t 1 9 = true ∧
        pegKeyOf (getCtx t 1) 0 = some 3 ∧ PegOp.ofCode 4 = some .query ∧ 0 ≠ cNoJournal ∧ pegStatus t 3 1 = 0 ∧ pegStatus t 3 2 ≠ 0) ∧
    (let s (k c2 : Nat) : State := { wk evc with pegRefs := [(0, { w := wo, kind := k, c2 := c2 })] };
      ((s 4 1).pegRefs.find 0 = some { w := wo, kind := 4, c2 := 1 } ∧ 4 ≠ 14) ∧ (s 4 0).pegRefs.find 0 = some { w := wo, kind := 4 }) ∧
    (let a : Attempt := { step := 0, asked := [0, 1], deciding := true };
      let s : State := { withCtx up { state := 2, plan := some pl, attempt := some a } with pegRefs := [(0, { w := wo, kind := 14 })] };
      s.pegRefs.find 0 = some { w := wo, kind := 14 } ∧ (∀ e, e ∈ s.ctxs → e.2.shadow.held = false) ∧ (getCtx s wo.ctx).attempt = some a ∧
        1 ∈ a.asked ∧ 1 ≠ 0) := by
  decide +kernel

theorem wit_ReportsAndPasses :
    (let d (k dp : Nat) : WoDone := { w := { wo with donePeg := dp }, kind := k };
      let s (x : WoDone) : State := { pgs { bound := true, owner := 1, target := 1 } with ctxs := [(1, { evc with pegs := [(0, 3)], done := [x] })] };
      ((getCtx (s (d 0 0xFFFF)) 1).done = d 0 0xFFFF :: [] ∧ (d 0 0xFFFF).w.ctx = 1 ∧ wantsRecord (d 0 0xFFFF) = false ∧
        wantsRecord { d 4 0xFFFF with always := true } = true) ∧
      ((getCtx (s (d 0 0)) 1).done = d 0 0 :: [] ∧ (d 0 0).w.donePeg ≠ 0xFFFF ∧ pegKeyOf (getCtx (s (d 0 0)) 1) 0 = some 3 ∧
        pegStatus (bayEvent (s (d 0 0)) (d 0 0)) 3 (ctxTag (bayEvent (s (d 0 0)) (d 0 0)) 1) = 0)) ∧
    (mayWork (wk evc) wo = true ∧ (getCtx (wk evc) 1).plan = some pl ∧ (getCtx (wk evc) 1).evalRun = some { number := 0 } ∧
      (getCtx (wk evc) 1).attempt = none ∧ ({ number := 0 } : EvalRun).wo = none ∧ queuedBehind (wk evc) wo 3 = false ∧ wo.waitPeg = 0xFFFF ∧
      pl.layers.length ≤ 4096 ∧ (getCtx (wk evc) 1).done = [] ∧ (getCtx (wk evc) 1).dups = []) ∧
    ({ number := 0, failed := true } : EvalRun).failed = true := by
  decide +kernel

theorem wit_LayersJudged :
    (let key := layerKey 0 0 0;
      let l := lay 0 false false false 0xFFF;
      let st (t : Tally) : State := atp { step := 0, tally := [(0, t)] };
      (liveLayer (getCtx (st {}) 1) 0 = some (pl, l) ∧ (getCtx (st {}) 1).attempt = some { step := 0, tally := [(0, {})] } ∧ l.kind ≠ 2 ∧
        layerRuns (getCtx (st {}) 1) 0 0 0 = true ∧ reported (getCtx (st {}) 1) key false = true ∧ surveyDue (getCtx (st {}) 1) pl l key [0] = []) ∧
      (ovfOver (st {}) l {} = false ∧ satOver (st {}) l {} = false) ∧ ovfOver (st {}) l { ovf := 256 } = true ∧
      (l.fceil ≤ 4 ∧ 0 < l.fceil ∧ nextTread false 0 = some 1) ∧ (4 : Nat) ≤ ({ step := 0, used := [(0, 4)] } : Attempt).used.get 0 0 ∧
      ({ step := 0 } : Attempt).used.get 0 0 < ({ step := 0 } : Attempt).limits.budget) ∧
    (let q : Plan := { pl with layers := [{ lay 0 false false false 0xFFF with tcount := 1 }], templates := [⟨[1, 0, 0, 0, 0, 0, 0, 4 * 2 ^ 8]⟩], gauges := [⟨0, 4, 0, 2, 4, 0⟩] };
      let s := wk { state := 2, plan := some q, attempt := some { step := 0 }, stack := { marks := [(0, 0)] }, tensors := [(4, { zeros with desc := 5 })], gauges := [(0, { survey := true, bound := true })] };
      (liveLayer (getCtx s 1) 0).isSome = true ∧ ({ step := 0 } : Attempt).back.get 0 0 ≠ 1 ∧ layerRuns (getCtx s 1) 0 0 0 = true ∧
        reported (getCtx s 1) (layerKey 0 0 0) false = true ∧
        surveyDue (getCtx s 1) q { lay 0 false false false 0xFFF with tcount := 1 } (layerKey 0 0 0) [0, 1] ≠ []) ∧
    (let s := wk { state := 2, plan := some pl, attempt := some { step := 0 }, stack := { marks := [(1, 0)] }, tensors := [(4, zeros)] };
      (getCtx s 1).plan = some pl ∧ (getCtx s 1).attempt = some { step := 0 } ∧ pl.layer (pl.layers.length - 1) = some (lay 2 false false false 0xFFF) ∧
        workLive (getCtx s 1) = true ∧ (∀ x, x ∈ ({ step := 0 } : Attempt).losses → x.1 ≠ 0) ∧ layerRuns (getCtx s 1) 1 0 0 = true ∧
        reported (getCtx s 1) (layerKey 1 0 0) false = true ∧ surveyDue (getCtx s 1) pl (lay 2 false false false 0xFFF) (layerKey 1 0 0) [1] = [] ∧
        (fp32V (((getCtx s 1).open_ 4).codeAt 0 0 % 2 ^ 32)).nonFinite = false ∧ (fp32V 0x7F800000).nonFinite = true) ∧
    (let a : Attempt := { step := 0, back := [(0, 1)] };
      liveLayer (getCtx (atp a) 1) 0 = some (pl, lay 0 false false false 0xFFF) ∧ (getCtx (atp a) 1).attempt = some a ∧ a.back.get 0 0 = 0 + 1 ∧
        reported (getCtx (atp a) 1) (layerKey 0 0 0) true = true ∧ surveyDue (getCtx (atp a) 1) pl (lay 0 false false false 0xFFF) (layerKey 0 0 0) [2] = []) ∧
    (let a : Attempt := { step := 0, back := [(0, 0x10000)] };
      let c := getCtx (atp a) 1;
      c.plan = some pl ∧ c.attempt = some a ∧ workLive c = true ∧ a.ready = false ∧ a.causes = [] ∧ backwardEnded (atp a) c pl a = true ∧ c.done = [] ∧
        c.dups = [] ∧ (∀ e, e ∈ a.buckets → e.2.final = true) ∧ updateOver (atp a) pl a = false ∧ slicesWritten c pl a = true) ∧
    updateOver (atp { step := 0, xovf := [(0, 65536)] }) pl { step := 0, xovf := [(0, 65536)] } = true ∧
    (let q : Plan := { pl with layers := [{ lay 0 false false false 0 with tcount := 1 }], templates := [⟨[32 + 8192, 0, 0, 0, 0, 0, 0, 2]⟩] };
      slicesWritten { state := 2, plan := some q } q { step := 0 } = false) := by
  decide +kernel

theorem wit_StackAndSlices :
    (let f : StackFrame := { layer := 0, kind := 0, half := 0, pos := 0, hall := 7 };
      let s (l : List StackFrame) : State := wk { state := 2, plan := some pl, attempt := some { step := 0, back := [(0, 1)] }, stack := { frames := [f], popped := l } };
      (((getCtx (s []) 1).stack.popped.filter (fun g => g.hall == 7 % 8)).length < max 1 (fld (s []) (pgStack (7 % 8)) Reg.SK_CTRL 3 1) ∧
        (getCtx (s []) 1).stack.frames.find? (fun g => g.hall == 7 % 8 && g.kind != 2 && backRuns (getCtx (s []) 1) g.half g.pos) = some f) ∧
      (max 1 (fld (s (List.replicate 7 f)) (pgStack (7 % 8)) Reg.SK_CTRL 3 1) ≤ ((getCtx (s (List.replicate 7 f)) 1).stack.popped.filter (fun g => g.hall == 7 % 8)).length ∧
        (getCtx (s []) 1).stack.frames.find? (fun g => g.hall == 6 % 8 && g.kind != 2 && backRuns (getCtx (s []) 1) g.half g.pos) = none)) ∧
    (let q : Plan := { pl with layers := [lay 0 false true true 0xFFF, lay 0 false true false 0xFFF, lay 2 false false false 0xFFF] };
      let f : StackFrame := { layer := 0, kind := 1, half := 0, pos := 0, hall := 0, input := some zeros };
      let s := wk { state := 2, plan := some q, attempt := some { step := 0, back := [(0, 2)] }, stack := { frames := [f] } };
      liveLayer (getCtx s 1) 1 = some (q, lay 0 false true false 0xFFF) ∧ ({ step := 0, back := [(0, 2)] } : Attempt).back.get 0 0 = 1 + 1 ∧
        (getCtx s 1).stack.scratch = [] ∧ blockStart q 1 = some 0 ∧
        ((getCtx s 1).stack.frames ++ (getCtx s 1).stack.popped).find? (fun f => f.layer == 0 && f.kind == 1 && f.half == 0 && f.pos == 0) = some f ∧
        rerunUnpowered s 1 q 0 1 0 0 = []) ∧
    (let q : Plan := { pl with layers := [{ lay 0 false true true 0xFFF with tcount := 1 }, lay 0 false true false 0xFFF, lay 2 false false false 0xFFF], templates := [⟨[1 + 256, 2 ^ 16, 0xFFFFFFFF, 0, 0, 0, 0, 4 * 2 ^ 8]⟩] };
      let s : State := { wk { state := 2, plan := some q, frames := [(1, [⟨0, 0, 0⟩]), (0, [⟨0, 0, 0⟩])], attempt := some { step := 0, back := [(0, 2)] } } with power := { up.power with asleep := 1 } };
      rerunUnpowered s 1 q 0 1 0 0 ≠ []) ∧
    (let seg : Attempt := { step := 0, segs := [(1, [(0, [0])])] };
      let c := grpCtx (gp 0 4 [0, 1, 2, 3]) seg;
      c.attempt = some seg ∧ c.plan = some (gp 0 4 [0, 1, 2, 3]) ∧ (gp 0 4 [0, 1, 2, 3]).layer 0 = some (lay 0 true false false 0) ∧
        (gp 0 4 [0, 1, 2, 3]).paramOf (lay 0 true false false 0) = some (ten 1 1 0) ∧ seg.outcome = none ∧ 0 < sliceCountOf (ten 1 1 0) ∧
        (sliceValues seg (ten 1 1 0) 0 0 (segmentsOf (shareTokens (wk c) c (gp 0 4 [0, 1, 2, 3]) 0))).isSome = true ∧
        (gp 0 4 [0, 1, 2, 3]).groups ≠ [] ∧ seg.own.find (ownKey 0 1 0) = none ∧ seg.slices.find (sliceKey 1 0) = none ∧
        (lay 0 false false false 0).exch = false) ∧
    (let x : Slice := { layer := 0, stage := 1, vals := [0] };
      let a : Attempt := { step := 0, slices := [(sliceKey 1 0, x)] };
      let q (fr : Bool) : Plan := { pl with layers := [{ lay 0 false false false 0 with frozen := fr }, lay 2 false false false 0xFFF], opts := [sgd] };
      let s (fr j : Bool) : State := wk { grpCtx (q fr) a with journal := j };
      (∀ fr, fr ∈ [true, false] → ∀ j, j ∈ [true, false] → (getCtx (s fr j) 1).plan = some (q fr) ∧ (getCtx (s fr j) 1).attempt = some a ∧
        a.slices.find (sliceKey 1 0) = some x ∧ (q fr).record 1 = some (ten 1 1 0) ∧ ((q fr).layer 0).isSome = true ∧ x.stage = 1 ∧
        a.outcome = none ∧ 0 < 2 ^ 24 ∧ (s fr j).update.ports.get [] (sliceHall (getCtx (s fr j) 1) (ten 1 1 0) 0) = [] ∧
        engineReady (s fr j) (sliceHall (getCtx (s fr j) 1) (ten 1 1 0) 0) (1, sliceKey 1 0) = true ∧ (ten 1 1 0).tid = 1 ∧
        (getCtx (s fr j) 1).closing = []) ∧
      (let h := sliceHall (getCtx (s true true) 1) (ten 1 1 0) 0;
        let b : State := { wk { grpCtx (q true) a with rollback := [99] } with update := { ports := [(h, [(1, 99)])] } };
        b.update.ports.get [] h = (1, 99) :: [] ∧ engineReady b h (1, 99) = false ∧ (1, sliceKey 1 0) ∉ [(1, 99)]) ∧
      ((optOfLayer (getCtx (s false true) 1) (q false) (lay 0 false false false 0)).map (fun o =>
          ((sliceCalc o.1 o.2 (getCtx (s false true) 1).lossExp (oldState (getCtx (s false true) 1) (q false) (ten 1 1 0) 0) [0]).bad,
            (sliceCalc o.1 o.2 (getCtx (s false true) 1).lossExp (oldState (getCtx (s false true) 1) (q false) (ten 1 1 0) 0) [0x7F800000]).bad)) =
        some (false, true))) ∧
    (let x : Slice := { layer := 0, stage := 2 };
      let a : Attempt := { step := 0, slices := [(sliceKey 1 0, x)] };
      let c : Ctx := { grpCtx pl a with jslots := [(sliceKey 1 0, { step := 0 })] };
      let s : State := { wk c with twin := { twin := some 9, state := 1 } };
      c.plan = some pl ∧ c.attempt = some a ∧ pl.record 1 = some (ten 1 1 0) ∧ a.slices.find (sliceKey 1 0) = some x ∧
        c.jslots.find (sliceKey 1 0) = some { step := 0 } ∧ x.stage = 2 ∧ ({ step := 0 } : JSlot).valid = false ∧ a.discard = false ∧ a.outcome = none ∧
        s.update.ports.get [] (sliceHall c (ten 1 1 0) 0) = []) ∧
    (let m : MirrorRec := { ctx := 1, step := 0, tid := 1, slice := 0, grad := [0], params := [0] };
      let s : State := { wk {} with twin := { twin := some 9, state := 1 }, update := { full := true, waiting := [(7, m)] } };
      up.update.full = false ∧ s.update.full = true ∧ s.update.ports = [] ∧ s.update.waiting = [(7, m)] ∧ s.twin.twin = some 9 ∧
        cntHold s (pgUpdate 7) = false) ∧
    (let c : Ctx := { grpCtx pl { step := 0 } with jslots := [(sliceKey 1 0, newSlot 0 [[1]])], rollback := [sliceKey 1 0] };
      (getCtx (wk c) 1).jslots.find (sliceKey 1 0) = some (newSlot 0 [[1]]) ∧ sliceKey 1 0 ∈ (getCtx (wk c) 1).rollback ∧
        (newSlot 0 [[1]]).good = true ∧ twinActive (wk c) = false ∧ ({ newSlot 0 [[1]] with lost := true } : JSlot).good = false) := by
  refine ⟨?_, ?_, ?_, ?_, ?_, ?_, ?_, ?_⟩ <;> decide +kernel

theorem wit_BlockResidues :
    poisoned g4 [1, -3, 5] = false ∧ (poisoned g4 [poisonVal g4] = true) ∧
    ([1, -3, 5].length = [254, 0, 1].length ∧ poisonVal g4 ∉ [1, -3, 5] ∧ poisonVal g4 ∉ [254, 0, 1] ∧ poisoned g4 (addBlocks g4 [1, -3, 5] [254, 0, 1]) = false) ∧
    ([1, -3, 5][1]? = some (-3 : Int) ∧ ¬ (255 : Int) ∣ 254) := by
  decide +kernel

theorem wit_ExchangeBuckets :
    (let p := gp 0 4 [0, 1, 2, 3];
      let a : Attempt := { step := 0, own := [(ownKey 0 1 0, [0])] };
      let s := wk (grpCtx p a);
      (getCtx s 1).attempt = some a ∧ (getCtx s 1).plan = some p ∧ p.groups[0]? = some g4 ∧ (bucketList p 0)[0]? = some (0, ten 1 1 0, 0) ∧
        (∀ j, j < min g4.slices (sliceCountOf (ten 1 1 0) - 0 * g4.slices) → (a.own.find (ownKey 0 1 (0 * g4.slices + j))).isSome = true) ∧
        a.outcome = none ∧ a.buckets.find (bucketKey 0 0 0) = none ∧ 0 ∈ positionsHere s (getCtx s 1) p) ∧
    (let p := gp 0 4 [0, 1, 2, 3];
      let s (x : Bucket) : State := wk (grpCtx p { step := 0, buckets := [(0, x)] });
      let x (st f at_ : Nat) (c : Chunk) : Bucket := { tid := 1, first := 0, count := 1, layer := 0, gauge := 0, stage := st, fault := f, attempt := at_, chunks := [(0, c)] };
      (∀ b, b ∈ [x 5 0 0 {}, x 5 0 1 {}, x 1 0 0 {}, x 5 0 0 { poison := true }, x 5 0 0 { breach := true, bump := 127 }, x 5 0 1 { breach := true }, x 1 9 0 {}] →
        (getCtx (s b) 1).attempt.isSome = true ∧ bucketGroup (getCtx (s b) 1) (bucketKey 0 0 0) = some g4 ∧ getBucket (s b) 1 (bucketKey 0 0 0) = some b ∧
          (getCtx (s b) 1).plan.bind (fun p => p.record b.tid) = some (ten 1 1 0) ∧ b.final = false) ∧
      ((x 5 0 0 {}).chunks.any (fun e => e.2.poison) = false ∧ (x 5 0 0 {}).chunks.any (fun e => e.2.breach) = false ∧ (delivered (x 5 0 0 {})).2 = 0 ∧
        (x 5 0 0 { poison := true }).chunks.any (fun e => e.2.poison) = true ∧ (x 5 0 0 { breach := true, bump := 127 }).chunks.any (fun e => e.2.breach) = true ∧
        (0 : Int) + (127 : Nat) ≤ 127 ∧ ({ step := 0 } : Attempt).noMore = false) ∧
      ((0 : Int) + (127 : Nat) ≤ 127 ∧ (127 : Int) < 1 + (127 : Nat)) ∧
      (resChk (s (x 5 0 0 {})) (min g4.hub 1) = true ∧ finalOk g4 (x 5 0 0 {}) = true ∧
        finalOk g4 (x 5 0 0 { blocks := [(0, [1])], residues := [(0, 2)] }) = false) ∧
      (let y : Bucket := { x 5 0 0 { blocks := [(0, List.replicate 32 127)], residues := [] } with a := 130, vals := List.replicate 32 0 };
        (delivered y).2 ≠ 0 ∧ finalOk g4 y = true)) := by
  decide +kernel

/-- A bucket at a stage and hop, one block long. -/
def bkt (st hop : Nat) : Bucket :=
  { tid := 1, first := 0, count := 1, layer := 0, gauge := 0, stage := st, hop := hop, vals := List.replicate 128 0, own := [(0, List.replicate 32 1)] }

/-- It stands open at a position. -/
def bs (p : Plan) (pos : Nat) (b : Bucket) : State := wk (grpCtx p { step := 0, buckets := [(bucketKey 0 0 pos, b)] })

theorem wit_ExchangePackets :
    (let s := wk { grpCtx (gp 0 4 [0, 1, 2, 3]) { step := 0 } with attempt := none };
      let p : ExPkt := { kind := 0, src := 3 };
      exchangePacket (.reducePacket p) = some p ∧ s.early = [] ∧ (∀ e, e ∈ s.ctxs → e.2.shadow.held = false) ∧ planPkt s p = .hold ∧
        planPkt devQp p = .drop 0 0 none) ∧
    (let s := bs (gp 0 4 [0, 1, 2, 3]) 0 (bkt 1 0);
      planPkt s { kind := 0, src := 2, chunk := 3, seq := 3 } = .drop 1 0 (some g4) ∧
      planPkt s { kind := 0, src := 3, chunk := 3, seq := 3 } = .use 1 0 g4 ∧ bucketGroup (getCtx s 1) 0 = some g4 ∧ getBucket s 1 0 = some (bkt 1 0) ∧
        (bkt 1 0).hop + 1 < ringSize g4 - 1 ∧ resChk s (hubTo s g4 0 3) = true ∧
        residuesOk g4 { kind := 0, src := 3, chunk := 3, seq := 3, blocks := [[1]], residues := [1] } = true ∧
        residuesOk g4 { kind := 0, src := 3, chunk := 3, seq := 3, blocks := [[1]], residues := [2] } = false) ∧
    (let s := bs (gp 0 4 [0, 1, 2, 3]) 0 (bkt 1 2);
      planPkt s { kind := 0, src := 3, chunk := 1, seq := 1 } = .use 1 0 g4 ∧ ringSize g4 - 1 ≤ 2 + 1) ∧
    (let s := bs (gp 0 4 [0, 1, 2, 3]) 0 (bkt 4 5);
      planPkt s { kind := 1, src := 3, chunk := 2, seq := 2 } = .use 1 0 g4 ∧ 5 + 1 = 2 * (ringSize g4 - 1)) ∧
    (let s := bs (gp 0 4 [0, 1, 2, 3]) 0 (bkt 0 1);
      planPkt s { kind := 2, src := 3, agree := 5 } = .use 1 0 g4 ∧ (agreeRole (getCtx s 1) g4 (bkt 0 1) 0 3).isSome = true) ∧
    (let p := gp 1 2 [0, 1, 2, 3];
      let g := p.groups.headD g4;
      let s := bs p 0 (bkt 2 1);
      planPkt s { kind := 3, src := 2, chunk := ownChunk g 0, seq := ownChunk g 0 } = .use 1 0 g ∧
        ((List.range (treeKids g 0).length).find? (fun k => !bit (bkt 2 1).ups k && devAt (getCtx s 1) g ((treeKids g 0).getD k 0) == 2)).isSome = true) ∧
    (let p := gp 1 2 [1, 2, 0, 3];
      let g := p.groups.headD g4;
      planPkt (bs p 2 (bkt 3 1)) { kind := 4, src := 1, chunk := ownChunk g 2, seq := ownChunk g 2 } = .use 1 (bucketKey 0 0 2) g) := by
  decide +kernel

/-- A device ID of its own keeps the commit pegs of context 1. -/
def att (a : Attempt) (c : Nat) : State :=
  { wk { grpCtx (gp 0 4 [0, 1, 2, 3]) a with commitPegs := [5, 6, 7], journal := true, seed := some 0 } with pegs := [(5, { bound := true, owner := 1, target := 4, count := c })] }

/-- The same without a group. -/
def alone (a : Attempt) : State :=
  { wk { grpCtx pl a with commitPegs := [5, 6, 7], journal := true, seed := some 0 } with pegs := [(5, { bound := true, owner := 1, target := 2, count := 1 })] }

theorem wit_AttemptsEnd :
    (let a : Attempt := { step := 0 };
      let s := att a 0;
      (getCtx s 1).plan = some (gp 0 4 [0, 1, 2, 3]) ∧ 3 ∈ peersOf s (getCtx s 1) (gp 0 4 [0, 1, 2, 3]) ∧ (getCtx s 1).attempt = some a ∧ a.step = 0 ∧
        a.number = 0 ∧ a.outcome = none) ∧
    (let p := gp 0 4 [0, 1, 2, 3];
      let s (l : SMap Nat) : State := wk { state := 2, plan := some p, moved := l };
      (getCtx (s []) 1).attempt = none ∧ standsIn (s []) (getCtx (s []) 1) = false ∧ 3 ∈ peersOf (s []) (getCtx (s []) 1) p ∧
        standsIn (s [(1, 0)]) (getCtx (s [(1, 0)]) 1) = true ∧ 3 ∈ peersOf (s [(1, 0)]) (getCtx (s [(1, 0)]) 1) p ∧
        (getCtx (s [(1, 0)]) 1).attemptNo < 1 ∧ (getCtx (s [(1, 0)]) 1).step = 0) ∧
    (let a : Attempt := { step := 0 };
      let s := att a 3;
      let m : PegMsg := { src := 3, ref := 0, ctx := 1, peg := commitPlanPeg 0, op := 0, value := 1, tag := 1 };
      (∀ e, e ∈ s.ctxs → e.2.shadow.held = false) ∧ (getCtx s m.ctx).attempt = some a ∧ mayOperate s m.ctx m.src = true ∧
        commitKey (getCtx s m.ctx) 0 = some 5 ∧ pegStatus s 5 m.tag = 0 ∧ (getPeg s 5).closed = false ∧ (getPeg s 5).target ≤ (getPeg s 5).count + 1 ∧
        (getPeg s 5).target < 2 ^ 32) ∧
    (∀ r, r ∈ [0, 3] → let a : Attempt := { step := 0, ready := true, repeats := r }
      let s := alone a;
      (∀ e, e ∈ s.ctxs → e.2.shadow.held = false) ∧ (getCtx s 1).plan = some pl ∧ (getCtx s 1).attempt = some a ∧ a.outcome = none ∧ a.ready = true ∧
        a.deciding = false ∧ a.asked = [] ∧ a.answers = [] ∧ a.causes = [] ∧ a.told = [] ∧ a.lostParties = [] ∧ instances s (getCtx s 1) pl a = [] ∧
        (getCtx s 1).journal = true ∧ commitKey (getCtx s 1) 0 = some 5 ∧ (getPeg s 5).reached = false ∧ (getPeg s 5).count < (getPeg s 5).target) ∧
    (∀ oc, oc ∈ [0, 2, 4] → let a : Attempt := { step := 0, outcome := some oc }
      (getCtx (alone a) 1).plan = some pl ∧ (getCtx (alone a) 1).attempt = some a ∧ peersOf (alone a) (getCtx (alone a) 1) pl = []) ∧
    (let p := gp 0 4 [0, 1, 2, 3];
      let a (x : Bool) (h : Nat) : Attempt := { step := 0, outcome := some 1, settling := x, settleHop := h };
      ∀ x, x ∈ [true, false] → ∀ h, h ∈ [0, 2] →
        (getCtx (att (a x h) 0) 1).attempt = some (a x h) ∧ settlePlace (att (a x h) 0) (roundRings (att (a x h) 0) (getCtx (att (a x h) 0) 1) p) = some (0, 0) ∧
          ((roundRings (att (a x h) 0) (getCtx (att (a x h) 0) 1) p).getD 0 []) = [0, 1, 2, 3] ∧ settlePrev [0, 1, 2, 3] 0 = 3 ∧
          (roundRings (att (a x h) 0) (getCtx (att (a x h) 0) 1) p).length = 1 ∧ 3 ∈ peersOf (att (a x h) 0) (getCtx (att (a x h) 0) 1) p ∧
          (a x h).settleIn = [] ∧ (a x h).settleDone = false ∧ (a x h).settleUp = false ∧ (0 + 2 < 4 ∧ 2 + 2 = 4)) ∧
    (let s := wk { state := 2, plan := some {}, seed := some 0, batch := some (0, 0), repeatPending := true };
      (getCtx s 1).batch = some (0, 0) ∧ (getCtx s 1).plan = some {} ∧ (getCtx s 1).repeatPending = true ∧ (getCtx s 1).suspended = false ∧
        (getCtx s 1).state = 2 ∧ (getCtx s 1).attempt = none ∧ (getCtx s 1).evalRun = none ∧ (getCtx s 1).exporting = false ∧ heldBySwing s 1 = false ∧
        admitCheck s 1 0 = .go false false) ∧
    (let s := wk { state := 2, plan := some {}, batch := some (0, 0), repeatPending := true };
      heldBySwing s 1 = false ∧ admitCheck s 1 0 = .refused 0x38 0 0) := by
  refine ⟨?_, ?_, ?_, ?_, ?_, ?_, ?_, ?_⟩ <;> decide +kernel

theorem wit_SilentErrors :
    (let p := gp 0 4 [0, 1, 2, 3];
      let c : Ctx := { state := 2, plan := some p, digest := some (5, [1]), voting := true };
      let s := wk c;
      (getCtx s 1).plan = some p ∧ (getCtx s 1).digest = some (5, [1]) ∧ (getCtx s 1).voting = true ∧ (∀ v, v ∈ votes (getCtx s 1) 5 → v.1 ≠ deviceId s) ∧
        3 ∈ peersOf s (getCtx s 1) p ∧ digestD s = 4) ∧
    (let p := gp 0 4 [0, 1];
      let s := wk { state := 2, plan := some p, digest := some (5, [1]), voting := true, roots := [(0, (5, [1]))] };
      (getCtx s 1).voting = true ∧ (getCtx s 1).roots = [(deviceId s, (5, [1]))] ∧ (getCtx s 1).digest = some (5, [1]) ∧
        (peersOf s (getCtx s 1) p).filter (fun d => !s.lostDevs.contains d) = [1]) ∧
    (let d : DupExec := { w := wo, gals := [0], digests := [7] };
      let s := wk { evc with dups := [d], frames := [(0, [⟨0, 0, 0⟩, ⟨0, 1, 0⟩])] };
      (getCtx s 1).dups[0]? = some d ∧ d.digests = [7] ∧ 8 ≠ 7 ∧ (dupGallery s (getCtx s 1) d.w (d.gals.map aisleIdx)).isSome = true) ∧
    (let d : DupExec := { w := wo, gals := [0, 68, 136], digests := [7, 8] };
      (getCtx (wk { evc with dups := [d] }) 1).dups[0]? = some d ∧ d.digests = [7, 8] ∧ d.gals = [0, 68, 136] ∧ (9 : Nat) ≠ 7 ∧ (9 : Nat) ≠ 8 ∧ (7 : Nat) ≠ 8) ∧
    (let s : State := { withReg up pgSilent Reg.SE_CTRL 6 with gals := [(66, { state := 3, fails := 1 })] };
      fld s pgSilent Reg.SE_CTRL 31 16 = 0 ∧ s.silent.due = [] ∧ s.gals.find 66 = some { state := 3, fails := 1 }) ∧
    (∀ f, f ∈ [0, 2] → let s : State := { up with gals := [(galKey 7 15 67, { state := 2, testing := true, fails := f })] }
      (getGal s (galKey 7 15 67)).state = 2 ∧ (getGal s (galKey 7 15 67)).testing = true ∧ (getGal s (galKey 7 15 67)).blame = none ∧
        66 ≤ inService s 7 15 ∧ s.silent.due = [] ∧ s.silent.requests = []) ∧
    (let s : State := { up with gals := [(galKey 7 15 67, { state := 1, probing := some 3 })] };
      (getGal s (galKey 7 15 67)).state = 1 ∧ (getGal s (galKey 7 15 67)).probing = some 3) ∧
    (hallFree_ up 7 = true ∧ 9 < 10) := by
  refine ⟨?_, ?_, ?_, ?_, ?_, ?_, ?_, ?_⟩ <;> decide +kernel

theorem wit_FaultsHandled :
    (fld up (faPg 8703) Reg.FA_CTRL 1 1 = 1 ∧ fld (withReg up (faPg 0) Reg.FA_CTRL 0) (faPg 0) Reg.FA_CTRL 1 1 = 0 ∧
      fld (withReg up (baPg 0) Reg.BA_CTRL 1) (baPg 0) Reg.BA_CTRL 0 0 = 1 ∧ fld (withReg up (baPg 0) Reg.BA_CTRL 0) (baPg 0) Reg.BA_CTRL 0 0 = 0) ∧
    (let s : State := { up with gals := [(8703, { state := 2 })] };
      8703 < 8704 ∧ s.recovery = none ∧ (getGal s 8703).state = 2 ∧ (getGal s 0).state = 0 ∧ holdersOf s (keyHall 0) (keyAisle 0) (getGal s 0).slot = []) ∧
    (up.power.lost = false ∧ ({ up with power := { up.power with lost := true } } : State).power.lost = true) ∧
    (hallContexts up (7 % 8) = [] ∧ (List.range 255).length < 256) ∧
    (bits (2 ^ 18 + 8) 31 20 = deviceId up ∧ bits (2 ^ 18 + 8) 19 18 = 1 ∧ 8 ≤ bits (2 ^ 18 + 8) 3 0 ∧
      (bits (2 ^ 18) 3 0 ≤ 4 ∧ bits (2 ^ 18) 31 20 = deviceId up ∧ bits (2 ^ 18) 19 18 = 1 ∧ galAt up 0 0 0 = some 0)) ∧
    (let c : Ctx := { state := 1, gauges := [(0, { hcount := 3 })], jslots := [(sliceKey 1 0, {})], residual := [(1, [(15, 5)])] };
      let s := wk c;
      (∀ x, x ∈ [LineHolds.gauge 1 0, .journal 1 1 0, .residual 1 1 0, .simulation 1 4 0] → ∀ n, n ∈ (lineCtx x).toList →
        (getCtx s n).attempt = none ∧ (getCtx s n).evalRun = none ∧ (getCtx s n).shadow.held = false) ∧
      twinActive s = false ∧ (getCtx s 1).jslots.find (sliceKey 1 0) = some {} ∧ 15 < 16) ∧
    (fld up (pgMemory 7) Reg.MC_CTRL 0 0 = 1 ∧ 1 ≠ 0 ∧ (getMc up 7).retired = [] ∧ (getMc up 7).events = [] ∧ 0 + 7 < retireThr up 7 ∧ retireThr up 7 ≤ 0 + 8) ∧
    ((getMc up 7).retrain = none ∧ retrainQuiet up 7 = true ∧ (getMc up 7).due = none) ∧
    (let s : State := { up with mem := [(0, { due := some 31 })] };
      (getMc s 0).due = some (31 % 32) ∧ (getMc s 0).retrain = none) := by
  refine ⟨?_, ?_, ?_, ?_, ?_, ?_, ?_, ?_, ?_⟩ <;> decide +kernel

/-- A twin's shadow of member 3's context. -/
def shd (x : Shadow) : State := { wk { state := 1, plan := some pl, shadow := x, tensors := [(1, { zeros with desc := 0 })] } with twin := { member := some 3 } }

theorem wit_TwinsAndLoss :
    (let s : State := { up with twin := { twin := some 9, missed := [(9, 3)] } };
      (9 ∈ beatPeers s ∧ 9 ∉ s.twin.heard) ∧ (9 ∉ s.lostDevs ∧ s.twin.twin = some 9) ∧ (beatPeers s = [9] ∧ 3 ≤ s.twin.missed.get 0 9)) ∧
    (7 ∉ (wk evc).lostDevs ∧ 7 ≠ deviceId (wk evc) ∧ (wk evc).twin.twin ≠ some 7 ∧ (wk evc).twin.member ≠ some 7 ∧
      ∀ e, e ∈ (wk evc).ctxs → e.2.attempt = none ∧ e.2.shadow.held = false ∧ inGroup e.2 7 = false ∧ e.2.voting = false) ∧
    (let s := shd { held := true, member := 3 };
      let m : MirrorRec := { ctx := 1, step := 0, tid := 1, slice := 0, grad := [0], params := [0] };
      s.twin.member = some 3 ∧ 3 ∉ s.lostDevs ∧ ownShare (getCtx s m.ctx) 3 = false ∧ (getCtx s m.ctx).state ≠ 0 ∧ (getCtx s m.ctx).shadow.held = true ∧
        (getCtx s m.ctx).plan = some pl ∧ pl.record m.tid = some (ten 1 1 0) ∧ m.grad ≠ [] ∧ (getCtx s m.ctx).step ≤ m.step ∧
        (getCtx s m.ctx).shadow.pre.find (sliceKey m.tid m.slice) = none ∧ (getCtx s m.ctx).attempt = none ∧
        (getCtx s m.ctx).shadow.summary = none ∧ holdsRecords (getCtx s m.ctx) = true) ∧
    (let q : Plan := { pl with layers := [{ lay 0 false false false 0 with tcount := 1 }], templates := [⟨[32 + 8192, 0, 0, 0, 0, 0, 0, 2]⟩] };
      holdsRecords { state := 1, plan := some q, shadow := { held := true, member := 3 } } = false) ∧
    ({ up with twin := { twin := some 9, state := 1 } } : State).twin.state = 1 ∧
    (getCtx (atp { step := 0, mirrorLeft := 1 }) 1).attempt = some { step := 0, mirrorLeft := 1 } := by
  decide +kernel

theorem wit_StepWorkFrame : stepWork (.verify 1) = true ∧ ∃ t, exec (.verify 1) up = .next t := ⟨rfl, _, rfl⟩

theorem wit_StepKeepsTables :
    tablesSound { up with fence := [1, 2], pending := [.ecRing 0 4] } ∧ ∃ t, step { up with fence := [1, 2], pending := [.ecRing 0 4] } = .next t :=
  ⟨⟨by decide, by decide, by decide⟩, _, rfl⟩

end Sys2Proof.Tests
end

section
/-! O58: no command stops. Every answer that a meaning ends in is a next state, whatever its guards and its lookups come to (log entries 3 and 4). -/

namespace Sys2Proof.Machine

/-- The outcome is a next state: neither a fault nor a refusal. -/
def Completes (o : Host.Outcome State Fault Refusal) : Prop := ∃ t, o = .next t

theorem completes_next (s : State) : Completes (.next s) := ⟨s, rfl⟩

/-- A guarded meaning completes where each branch does under what the guard says of it. -/
theorem completes_ite {p : Prop} [Decidable p] {a b : Host.Outcome State Fault Refusal} :
    Completes (if p then a else b) ↔ (p → Completes a) ∧ (¬p → Completes b) := by
  by_cases h : p <;> simp [h]

/-! The meanings that look something up below a guard or below another lookup. -/

theorem execRdmaWrite_completes (qp ring index : Nat) (entry : Option RingEntry) (ce : Bool) (s : State) :
    Completes (execRdmaWrite qp ring index entry ce s) := by
  simp only [execRdmaWrite, completes_ite, completes_next, implies_true, true_and]
  intro _ _
  split <;> exact completes_next _

theorem execFlit_completes (link : Nat) (bytes : List Byte) (s : State) : Completes (execFlit link bytes s) := by
  simp only [execFlit, completes_ite, completes_next, implies_true, true_and]
  intro _
  split <;> simp only [completes_ite, completes_next, implies_true, and_self]

theorem execRailFault_completes (unit rail mv : Nat) (gallery : Option Nat) (s : State) :
    Completes (execRailFault unit rail mv gallery s) := by
  simp only [execRailFault, completes_ite, completes_next, implies_true, true_and]
  intro _
  split <;> simp only [completes_ite, completes_next, implies_true, and_self]

theorem execLeaseExpiry_completes (tag ns : Nat) (s : State) : Completes (execLeaseExpiry tag ns s) := by
  simp only [execLeaseExpiry, completes_ite, completes_next, implies_true, true_and]
  intro _ _
  split <;> simp only [completes_ite, completes_next, implies_true, and_self]

theorem execRepeatAdmit_completes (ctx ns : Nat) (s : State) : Completes (execRepeatAdmit ctx ns s) := by
  dsimp only [execRepeatAdmit]
  split
  · exact completes_next s
  · simp only [completes_ite, completes_next, implies_true, true_and]
    intro _
    split <;> exact completes_next _

theorem execDuplicateExecution_completes (ctx index digest : Nat) (s : State) : Completes (execDuplicateExecution ctx index digest s) := by
  dsimp only [execDuplicateExecution]
  split
  · exact completes_next s
  · simp only [completes_ite, completes_next, implies_true, true_and]
    intro _ _
    split <;> exact completes_next _

theorem execThirdExecution_completes (ctx index digest : Nat) (s : State) : Completes (execThirdExecution ctx index digest s) := by
  dsimp only [execThirdExecution]
  split
  · exact completes_next s
  · split <;> simp only [completes_ite, completes_next, implies_true, and_self]

theorem execSliceComplete_completes (ctx layer ord pos : Nat) (s : State) : Completes (execSliceComplete ctx layer ord pos s) := by
  dsimp only [execSliceComplete]
  split
  · simp only [completes_ite, completes_next, implies_true, true_and]
    intro _
    split <;> simp only [completes_ite, completes_next, implies_true, and_self]
  · exact completes_next s

theorem execBucketComplete_completes (ctx group ordinal pos : Nat) (s : State) :
    Completes (execBucketComplete ctx group ordinal pos s) := by
  dsimp only [execBucketComplete]
  split
  · split <;> simp only [completes_ite, completes_next, implies_true, and_self]
  · exact completes_next s

/-- A loss of an attempt or of an evaluation, or of neither. -/
theorem execLoss_completes (ctx half pos tid : Nat) (s : State) : Completes (execLoss ctx half pos tid s) := by
  dsimp only [execLoss]
  split
  · split <;> simp only [completes_ite, completes_next, implies_true, and_self]
  · split <;> exact completes_next _
  · exact completes_next s

/-- Work that `startWork` stops leaves its state to the step just as work that goes on does. -/
theorem execEvaluationPass_completes (w : WoHdr) (a : EvArgs) (s : State) : Completes (execEvaluationPass w a s) := by
  simp only [execEvaluationPass, completes_ite, completes_next, implies_true, true_and]
  intro _
  split
  · simp only [completes_ite, completes_next, implies_true, true_and]
    intro _
    split <;> exact completes_next _
  · exact completes_next s

theorem execRecomputeRerun_completes (ctx layer half pos : Nat) (s : State) : Completes (execRecomputeRerun ctx layer half pos s) := by
  dsimp only [execRecomputeRerun]
  split
  · split
    · split <;> simp only [completes_ite, completes_next, implies_true, and_self]
    · exact completes_next s
  · exact completes_next s

/-- Every command's meaning completes: its guards and lookups choose among next states only. The commands stand by how their meaning chooses. -/
theorem exec_completes (c : Instr) (s : State) : Completes (exec c s) := by
  cases c with
  -- Guards alone.
  | doorbell | pfc | holdMax | geHistFetch | latchHighWord | poresetNRelease | flashErase | flashWrite | ready | romWatchdog | wakeN
  | pwWake | dormantEntry | refLost | supplyLost | stbyLost | powerLost | powerReturn | thermalTrip | dutyUpdate | sensorStale | monitorRecord
  | gateIdle | gateOpen | hallIdle | hallWakeDone | matrixTile | mirrorQueueReady | galleryTest | probeResult | scrubPeriod | retrainForce
  | seedingDone | linkUp | linkRetrain | idleFlit | retryExh | laneFault | laneSwap | linkFault | reorderTimeout | closeUpdateDone
  | hallEdgeEngineTest =>
    simp only [exec, execDoorbell, execPfc, execHoldMax, execGeHistFetch, execLatchHighWord, execPoresetNRelease, execFlashErase,
      execFlashWrite, execReady, execRomWatchdog, execWakeN, execPwWake, execDormantEntry, execRefLost, execSupplyLost, execStbyLost,
      execPowerLost, execPowerReturn, execThermalTrip, execDutyUpdate, execSensorStale, execMonitorRecord, execGateIdle, execGateOpen,
      execHallIdle, execHallWakeDone, execMatrixTile, execMirrorQueueReady, execGalleryTest, execProbeResult, execScrubPeriod,
      execRetrainForce, execSeedingDone, execLinkUp, execLinkRetrain, execIdleFlit, execRetryExh, execLaneFault, execLaneSwap,
      execLinkFault, execReorderTimeout, execCloseUpdateDone, execHallEdgeEngineTest, completes_ite, completes_next, implies_true, and_self]
  -- One lookup.
  | blkSwingGo | blkSwingCancel | swingApply | swingPegArrive | geHistReady | evtSet | fwWriteDone | waitRelease | workOrderComplete
  | stackPop =>
    dsimp only [exec, execBlkSwingGo, execBlkSwingCancel, execSwingApply, execSwingPegArrive, execGeHistReady, execEvtSet, execFwWriteDone,
      execWaitRelease, execWorkOrderComplete, execStackPop]
    split <;> exact completes_next _
  -- One lookup and guards under it.
  | transferDone | frameQueueAccept | pegAck | evalPassEnd | layerEnd | survey | backwardLayerEnd | bucketOpen | bucketDeadline
  | sliceAccept | journalAck | jwrite | verify | admissionNotice | commitTimeout | settleRound | settleTimeout | journalRollback | digestRoot
  | rootVote | slotPar | sramUe | mirrorRecord | stepSummary =>
    dsimp only [exec, execTransferDone, execFrameQueueAccept, execPegAck, execEvalPassEnd, execLayerEnd, execSurvey, execBackwardLayerEnd,
      execBucketOpen, execBucketDeadline, execSliceAccept, execJournalAck, execJwrite, execVerify, execAdmissionNotice, execCommitTimeout,
      execSettleRound, execSettleTimeout, execJournalRollback, execDigestRoot, execRootVote, execSlotPar, execSramUe, execMirrorRecord,
      execStepSummary]
    split <;> simp only [completes_ite, completes_next, implies_true, and_self]
  -- Nested lookups.
  | rdmaWrite => exact execRdmaWrite_completes ..
  | railFault => exact execRailFault_completes ..
  | evaluationPass => exact execEvaluationPass_completes ..
  | loss => exact execLoss_completes ..
  | recomputeRerun => exact execRecomputeRerun_completes ..
  | sliceComplete => exact execSliceComplete_completes ..
  | bucketComplete => exact execBucketComplete_completes ..
  | repeatAdmit => exact execRepeatAdmit_completes ..
  | duplicateExecution => exact execDuplicateExecution_completes ..
  | thirdExecution => exact execThirdExecution_completes ..
  | leaseExpiry => exact execLeaseExpiry_completes ..
  | flit => exact execFlit_completes ..
  -- No choice at all.
  | _ => exact completes_next _

/-- Settles O58: a command that is not defined for its operands answers or leaves the state, it never ends the run (log entries 3 and 4). -/
theorem noCommandStops : Obligations.NoCommandStops := exec_completes

end Sys2Proof.Machine
end

section
/-! O35: how the head of a frame's queue reaches the queues of the frame's members (R7). -/

namespace Sys2Proof.Machine

/-- One entry goes to the end of each queue of a list of members, in their order: what FRAME_QUEUE_ACCEPT leaves in the queues. -/
def appendEach (e : QEntry) (q : SMap (List QEntry)) (ks : List Nat) : SMap (List QEntry) :=
  ks.foldl (fun q k => q.put [] k (q.get [] k ++ [e])) q

/-- A queue grows by one entry for each time its member stands in the list. -/
theorem get_appendEach (e : QEntry) (k : Nat) (ks : List Nat) (q : SMap (List QEntry)) :
    (appendEach e q ks).get [] k = q.get [] k ++ List.replicate (ks.count k) e := by
  induction ks generalizing q with
  | nil => simp [appendEach]
  | cons j ks ih =>
    have step : appendEach e q (j :: ks) = appendEach e (q.put [] j (q.get [] j ++ [e])) ks := rfl
    rw [step, ih]
    by_cases hk : k = j
    · subst hk
      simp [SMap.get_put_same, List.replicate_succ]
    · simp [SMap.get_put_ne _ hk, List.count_cons_of_ne (Ne.symm hk)]

/-- The queues a frame's template goes to, by key: its members', of the template's unit (R6, R7). -/
def frameKeys (c : Ctx) (f u : Nat) : List Nat := (c.frames.get [] f).map (fun m => ((m.hall * 16 + m.aisle) * 68 + m.slot) * 4 + u)

/-- A frame's queue with a head: it is delivered exactly when every addressed queue has room. -/
theorem execFrameQueueAccept_eq {n f ti : Nat} {rest : List Nat} {p : Plan} {s : State}
    (hq : (getCtx s n).frameQueues.get [] f = ti :: rest) (hp : (getCtx s n).plan = some p) :
    let u := templateUnit (p.templates.getD ti ⟨[]⟩)
    let ks := frameKeys (getCtx s n) f u
    execFrameQueueAccept n f s =
      if ks.all (fun k => decide ((s.queues.get [] k).length < queueRoom u)) then
        .next (putCtx { s with queues := appendEach { ctx := n, template := ti } s.queues ks } n
          { getCtx s n with frameQueues := (getCtx s n).frameQueues.put [] f rest })
      else .next s := by
  simp only [execFrameQueueAccept, hq, hp]
  rfl

/-- Settles O35: with room everywhere the head goes to every member's queue; one full queue stalls the frame (R7). -/
theorem frameQueueDelivers : Obligations.FrameQueueDelivers := by
  intro n f ti rest p s hq hp u ks
  have eq := execFrameQueueAccept_eq hq hp
  constructor
  · intro room
    have all : ks.all (fun k => decide ((s.queues.get [] k).length < queueRoom u)) = true := by simpa using room
    refine ⟨_, eq.trans (if_pos all), rfl, getCtx_putCtx _ _ _, fun m hm => getCtx_putCtx_ne _ hm _, fun k => ?_⟩
    exact get_appendEach _ k ks s.queues
  · rintro ⟨k, hk, full⟩
    have notAll : ¬ ks.all (fun k => decide ((s.queues.get [] k).length < queueRoom u)) = true := by
      simp only [List.all_eq_true, decide_eq_true_eq, not_forall]
      exact ⟨k, hk, by omega⟩
    exact eq.trans (if_neg notAll)

end Sys2Proof.Machine
end

section
/-! O41: what holds a work order back (R7, R379, R395, R397). Every unit's meaning passes the same three gates: live work, power, its turn. -/

namespace Sys2Proof.Machine

/-! The wake of a hall. -/

/-- Setting one bit sets that bit and leaves the others. -/
theorem bit_setBits_one (x h i : Nat) : bit (setBits x h h 1) i = (bit x i || i == h) := by
  have hr : x % 2 ^ h < 2 ^ h := Nat.mod_lt _ (Nat.two_pow_pos h)
  have hx : x = 2 ^ h * (x / 2 ^ h) + x % 2 ^ h := (Nat.div_add_mod x (2 ^ h)).symm
  have set_eq : setBits x h h 1 = 2 ^ h * (2 * (x / 2 ^ h / 2) + 1) + x % 2 ^ h := by
    have hb : bits x h h = x / 2 ^ h % 2 := by
      rw [bits, Nat.shiftRight_eq_div_pow, show h + 1 - h = 1 by omega]; rfl
    have split : 2 ^ h * (x / 2 ^ h) = 2 ^ h * (2 * (x / 2 ^ h / 2)) + x / 2 ^ h % 2 * 2 ^ h := by
      rw [Nat.mul_comm (_ % 2), ← Nat.mul_add, Nat.div_add_mod]
    rw [setBits, hb, show h + 1 - h = 1 by omega, Nat.mul_add]
    omega
  rw [bit_eq_testBit, bit_eq_testBit, set_eq, Nat.testBit_two_pow_mul_add _ hr]
  conv_rhs => rw [hx, Nat.testBit_two_pow_mul_add _ hr]
  split
  · next lt => simp [Nat.ne_of_lt lt]
  · next ge =>
    obtain ⟨j, rfl⟩ : ∃ j, i = h + j := ⟨i - h, by omega⟩
    rw [Nat.add_sub_cancel_left]
    cases j with
    | zero => simp
    | succ j =>
      rw [Nat.testBit_succ, Nat.testBit_succ, show (2 * (x / 2 ^ h / 2) + 1) / 2 = x / 2 ^ h / 2 by omega]
      simp

/-- Asking a sleeping hall for power marks the hall as asked, and that is all (R397). -/
theorem askPower_asleep {s : State} {w : WoHdr} (h : bit s.power.asleep w.hall = true) :
    askPower s w = { s with power := { s.power with waking := setBits s.power.waking w.hall w.hall 1 } } := by simp [askPower, h]

/-- An awake hall is asked for nothing: its gallery's gate opens by itself (R395). -/
theorem askPower_awake {s : State} {w : WoHdr} (h : bit s.power.asleep w.hall = false) : askPower s w = s := by simp [askPower, h]

/-! The three gates. -/

/-- What a work order's command leaves where a gate is closed: nothing done, but for the wake a member without power asks for. -/
structure HeldBack (w : WoHdr) (unit : Nat) (s t : State) : Prop where
  dead : mayWork s w = false → t = s
  dark : mayWork s w = true → memberPowered s w = false → t = askPower s w
  behind : mayWork s w = true → memberPowered s w = true → firstSent s w → queuedBehind s w unit = true → t = s

/-- The gates as every unit has them, before what follows them. -/
theorem heldBack_gates {w : WoHdr} {unit : Nat} {s t : State} (turn : firstSent s w → queuedBehind s w unit = true → t = s) :
    HeldBack w unit s (if !mayWork s w then s else if !memberPowered s w then askPower s w else t) where
  dead h := by simp [h]
  dark h hp := by simp [h, hp]
  behind h hp hf hb := by simp [h, hp, turn hf hb]

theorem startWork_behind {s : State} {w : WoHdr} {unit : Nat} (kind : Nat) (h : queuedBehind s w unit = true) :
    startWork s w unit kind = .stop s := by simp [startWork, h]

/-- Outside a rerun and with no first slip behind it, a work order starts by its queue. -/
theorem startAgain_firstSent {s : State} {w : WoHdr} (unit kind : Nat) (h : firstSent s w) : startAgain s w unit kind = startWork s w unit kind := by
  obtain ⟨notRerun, notStopped⟩ := h
  have none_found : (getCtx s w.ctx).reexec.find? (fun e => e.1 == w) = none := by simpa using notStopped
  simp [startAgain, notRerun, none_found]

theorem startAgain_behind {s : State} {w : WoHdr} {unit : Nat} (kind : Nat) (hf : firstSent s w) (hb : queuedBehind s w unit = true) :
    startAgain s w unit kind = .stop s := by rw [startAgain_firstSent _ _ hf, startWork_behind _ hb]

theorem runWork_heldBack (unit kind : Nat) (reads : Ctx → List ReadSet) (outs : List Nat) (f : WorkFn) (w : WoHdr) (s : State) :
    HeldBack w unit s (runWork unit kind reads outs f w s) :=
  heldBack_gates (fun hf hb => by rw [startAgain_behind kind hf hb])

theorem moveStart_heldBack (w : WoHdr) (s : State) (go : State → WoHdr → State) : HeldBack w 3 s (moveStart w s go) :=
  heldBack_gates (fun hf hb => by rw [startAgain_behind 3 hf hb])

theorem pegWork_heldBack (op : PegOp) (w : WoHdr) (a : PegArgs) (s : State) : HeldBack w 3 s (pegWork op w a s) :=
  heldBack_gates (fun _ hb => by rw [startWork_behind 4 hb])

/-! The units. -/

theorem ewWork_heldBack {op : Nat} (two three : Bool) (f : Ctx → WoHdr → EwArgs → Ctx × WoDone) {w : WoHdr} {a : EwArgs} {s : State}
    (hst : ewStatus (getCtx s w.ctx) op a = 0) (hr : (Rnd.ofCode w.rnd).isSome = true) : HeldBack w 3 s (ewWork op two three f w a s) := by
  have accepted : (if (Rnd.ofCode w.rnd).isNone then 0x0B else ewStatus (getCtx s w.ctx) op a) = 0 := by
    rw [← Option.not_isSome, hr, hst]; rfl
  simp only [ewWork, accepted, bne_self_eq_false, Bool.and_false, Bool.false_eq_true, if_false]
  exact runWork_heldBack ..

theorem rdWork_heldBack {op : RedOp} {w : WoHdr} {a : RdArgs} {s : State} (hst : rdStatus (getCtx s w.ctx) op w a = 0) :
    HeldBack w 3 s (rdWork op w a s) := by
  simp only [rdWork, hst, bne_self_eq_false, Bool.and_false, Bool.false_eq_true, if_false]
  exact runWork_heldBack ..

theorem askPower_ctxs (s : State) (w : WoHdr) : (askPower s w).ctxs = s.ctxs := by
  unfold askPower; split <;> rfl

/-- What is held back has finished no work order. -/
theorem HeldBack.same_ctxs {w : WoHdr} {unit : Nat} {s t : State} (h : HeldBack w unit s t)
    (closed : mayWork s w = false ∨ memberPowered s w = false ∨ (firstSent s w ∧ queuedBehind s w unit = true)) : t.ctxs = s.ctxs := by
  cases hm : mayWork s w with
  | false => rw [h.dead hm]
  | true => cases hp : memberPowered s w with
    | false => rw [h.dark hm hp, askPower_ctxs]
    | true =>
      obtain ⟨hf, hb⟩ : firstSent s w ∧ queuedBehind s w unit = true := by simpa [hm, hp] using closed
      rw [h.behind hm hp hf hb]

/-- What follows only a run that has finished a work order does not follow one that is held back. -/
theorem HeldBack.until_reported {w : WoHdr} {unit : Nat} {s t : State} (h : HeldBack w unit s t) (u : State) :
    HeldBack w unit s (if (getCtx t w.ctx).done.length ≤ (getCtx s w.ctx).done.length then t else u) := by
  have stays (closed : mayWork s w = false ∨ memberPowered s w = false ∨ (firstSent s w ∧ queuedBehind s w unit = true)) :
      (if (getCtx t w.ctx).done.length ≤ (getCtx s w.ctx).done.length then t else u) = t :=
    if_pos (by rw [getCtx_congr (h.same_ctxs closed)])
  exact {
    dead := fun hm => (stays (.inl hm)).trans (h.dead hm)
    dark := fun hm hp => (stays (.inr (.inl hp))).trans (h.dark hm hp)
    behind := fun hm hp hf hb => (stays (.inr (.inr ⟨hf, hb⟩))).trans (h.behind hm hp hf hb) }

theorem skWork_heldBack {slice : Bool} {w : WoHdr} {a : SkArgs} {s : State} (hst : kernelStatus slice w a = 0) :
    HeldBack w 3 s (skWork slice w a s) := by
  simp only [skWork, hst, bne_self_eq_false, Bool.and_false, Bool.false_eq_true, if_false]
  have held := runWork_heldBack 3 6 (fun _ => []) [a.c] (fun c w' => kernelRun slice (kernelS s w a) c w' a) w s
  cases slice with
  | false => simpa using held
  | true =>
    simp only [Bool.true_and, decide_eq_true_eq, ← Nat.not_le, ite_not]
    exact held.until_reported _

/-- The unit of a matrix tile: its bay, or the joiners in tread B2 (R6, R123). -/
def tileUnit (w : WoHdr) (a : MtArgs) : Nat := if isB2 w ∧ a.bay ≠ 0 then 3 else min a.bay 2

theorem execMatrixTile_heldBack {w : WoHdr} {a : MtArgs} {s : State}
    (hst : tileStatus a.bay (isB2 w) (Desc.ofByte a.wFmt) (Desc.ofByte a.aFmt) (Desc.ofByte a.yFmt)
      (runLen a.run ((((getCtx s w.ctx).plan.bind (fun p => p.layer w.layer)).map (·.runlen)).getD 0)) a.int32 a.k = 0) :
    ∃ t, execMatrixTile w a s = .next t ∧ HeldBack w (tileUnit w a) s t := by
  unfold execMatrixTile
  dsimp only
  cases hm : mayWork s w with
  | false => exact ⟨s, rfl, { dead := fun _ => rfl, dark := by simp [hm], behind := by simp [hm] }⟩
  | true =>
    rw [if_neg (by simp), if_neg (not_not_intro hst)]
    exact ⟨_, (apply_ite Host.Outcome.next _ _ _).symm, (runWork_heldBack ..).until_reported _⟩

/-! The commands of the units. -/

/-- An element-wise command is its unit's work with its operation. -/
theorem exec_ewOrder {i : Instr} {op : Nat} {w : WoHdr} {a : EwArgs} (h : ewOrder i = some (op, w, a)) (s : State) :
    ∃ two three f, exec i s = .next (thenWatch i (ewWork op two three f w a s) w.ctx) := by
  cases i with
  | add | sub | mul | div | fma | min | max | neg | abs | sqrt | rsqrt | recip | clamp | relu | leaky | geluTanh | geluErf | silu | sigmoid | tanh
  | softplus | exp | log | gluSilu | gluGelu | reluDerivative | leakyDerivative | geluTanhDerivative | geluErfDerivative | siluDerivative
  | sigmoidDerivative | tanhDerivative | softplusDerivative | expDerivative | logDerivative | gluSiluDerivative | gluGeluDerivative | layernorm
  | rmsnorm | layernormB | rmsnormB | softmax | logsoftmax | softmaxB | xent | xentB | mse | mseB | dropout | gather | scatterAdd
  | sample | initUniform | initNormal | convert | vadd | vsub | vmul | vdiv | vfma | vsqrt | vmin | vmax | vconv => cases h; exact ⟨_, _, _, rfl⟩
  | dropoutB =>
    cases h
    exact ⟨false, false, fun c w a => ewRun 0 (fun d => dropVals (c.drawKey 2 a.aux) d.p0 d.start d.x) c w { a with aux := noTid }, rfl⟩
  | _ => cases h

theorem exec_rdOrder {i : Instr} {op : RedOp} {w : WoHdr} {a : RdArgs} (h : rdOrder i = some (op, w, a)) (s : State) :
    exec i s = .next (thenWatch i (rdWork op w a s) w.ctx) := by
  cases i with
  | sum | sumsq | reductionMax | reductionMin | maxabs | dot => cases h; rfl
  | _ => cases h

/-- A peg operation's command; of an arrive the context's attempt is looked at afterwards (R216). -/
theorem exec_pegOrder {i : Instr} {op : PegOp} {w : WoHdr} {a : PegArgs} (h : pegOrder i = some (op, w, a)) (s : State) :
    exec i s = .next (thenWatch i (pegWork op w a s) w.ctx) := by
  cases i with
  | arrive | wait | set | reset_ | query => cases h; rfl
  | _ => cases h

theorem exec_kernel (slice : Bool) (w : WoHdr) (a : SkArgs) (s : State) :
    exec (if slice then .sliceModeProduct w a else .joinerProduct w a) s = .next (skWork slice w a s) := by cases slice <;> rfl

theorem thenWatch_kernel (slice : Bool) (w : WoHdr) (a : SkArgs) (t : State) (n : Nat) :
    thenWatch (if slice then .sliceModeProduct w a else .joinerProduct w a) t n = t := by cases slice <;> rfl

/-- What the statement asks of a command follows from its work being held back. -/
theorem waits_of_heldBack {i : Instr} {w : WoHdr} {unit : Nat} {s : State}
    (h : ∃ t, exec i s = .next (thenWatch i t w.ctx) ∧ HeldBack w unit s t) :
    (mayWork s w = false → exec i s = .next (thenWatch i s w.ctx)) ∧
    (mayWork s w = true → memberPowered s w = false → bit s.power.asleep w.hall = false → exec i s = .next (thenWatch i s w.ctx)) ∧
    (mayWork s w = true → memberPowered s w = false → bit s.power.asleep w.hall = true → ∃ t, exec i s = .next (thenWatch i t w.ctx) ∧
      t = { s with power := { s.power with waking := t.power.waking } } ∧ ∀ h, bit t.power.waking h = (bit s.power.waking h || h == w.hall)) ∧
    (mayWork s w = true → memberPowered s w = true → firstSent s w → queuedBehind s w unit = true → exec i s = .next (thenWatch i s w.ctx)) := by
  obtain ⟨t, run, held⟩ := h
  refine ⟨fun hm => held.dead hm ▸ run, fun hm hp awake => ?_, fun hm hp asleep => ?_, fun hm hp hf hb => held.behind hm hp hf hb ▸ run⟩
  · rw [run, held.dark hm hp, askPower_awake awake]
  · rw [held.dark hm hp, askPower_asleep asleep] at run
    exact ⟨_, run, rfl, fun h => bit_setBits_one _ _ h⟩

/-- Settles O41: each unit's command passes the three gates, and a closed one leaves the state or asks for the wake. -/
theorem workWaits : Obligations.WorkWaits := by
  intro i w unit s order
  apply waits_of_heldBack
  obtain ⟨rfl, joiner⟩ | ⟨a, rfl, rfl, hst⟩ := order
  · obtain ⟨op, a, h, hst, hr⟩ | ⟨op, a, h, hst⟩ | ⟨a, slice, rfl, hst⟩ | ⟨a, rfl⟩ | ⟨a, x, rfl | rfl⟩ | ⟨op, a, h⟩ := joiner
    · obtain ⟨two, three, f, run⟩ := exec_ewOrder h s
      exact ⟨_, run, ewWork_heldBack two three f hst hr⟩
    · exact ⟨_, exec_rdOrder h s, rdWork_heldBack hst⟩
    · exact ⟨_, by rw [thenWatch_kernel]; exact exec_kernel slice w a s, skWork_heldBack hst⟩
    · exact ⟨_, rfl, moveStart_heldBack ..⟩
    · exact ⟨_, rfl, moveStart_heldBack ..⟩
    · exact ⟨_, rfl, moveStart_heldBack ..⟩
    · exact ⟨_, exec_pegOrder h s, pegWork_heldBack op w a s⟩
  · exact execMatrixTile_heldBack hst

end Sys2Proof.Machine
end

section
/-! SUPPORT of O57. The frame of a step's own work, carried through the shared operations: what each of them leaves alone, said once. -/

namespace Sys2Proof.Machine

/-- What a step's own work leaves alone, as a state: everything such work may change is blanked, of the gauge engine the words that are due, of
the power state the halls asked to wake. -/
def outsideWork (s : State) : State :=
  { s with
    freeCtr := 0, regs := {}, queues := [], ran := [], pegs := [], pegRefs := [], nextRef := 0, recovery := none, twin := {}, ec := {}, host := {},
    ctxs := [], links := [], router := {}, digests := [], early := [], update := {}, out := [],
    gauge := { s.gauge with due := [] }, power := { s.power with waking := 0 } }

/-- A change of any of the blanked parts keeps the frame. -/
@[simp] theorem outsideWork_mk (s : State) (freeCtr : Nat) (regs : RegBank) (queues ran : SMap (List QEntry)) (pegs : SMap Peg)
    (pegRefs : SMap WoDone) (nextRef : Nat) (recovery : Option Recovery) (twin : TwinSt) (ec : EventCtl) (host : HostPort) (ctxs : SMap Ctx)
    (links : SMap Link) (router : Router) (digests : SMap (List (Nat × Nat × Nat))) (early : List ExPkt) (update : UpdateSt) (out : List Out) :
    outsideWork { s with
      freeCtr := freeCtr, regs := regs, queues := queues, ran := ran, pegs := pegs, pegRefs := pegRefs, nextRef := nextRef, recovery := recovery,
      twin := twin, ec := ec, host := host, ctxs := ctxs, links := links, router := router, digests := digests, early := early, update := update,
      out := out } = outsideWork s := rfl

/-- The frame of a choice is the choice of the frames. -/
@[simp] theorem outsideWork_ite (p : Prop) [Decidable p] (s t : State) :
    outsideWork (if p then s else t) = if p then outsideWork s else outsideWork t := apply_ite outsideWork p s t

/-- A fold keeps the frame where each of its steps does. -/
@[simp] theorem outsideWork_foldl {α : Type} {f : State → α → State} (keeps : ∀ s x, outsideWork (f s x) = outsideWork s) (l : List α) (s : State) :
    outsideWork (l.foldl f s) = outsideWork s := by
  induction l generalizing s with
  | nil => rfl
  | cons x l ih => rw [List.foldl_cons, ih, keeps]

/-! The accessors of the state. -/

@[simp] theorem outsideWork_freeNext (s : State) : outsideWork (freeNext s).2 = outsideWork s := rfl
@[simp] theorem outsideWork_putCtx (s : State) (n : Nat) (c : Ctx) : outsideWork (putCtx s n c) = outsideWork s := rfl
@[simp] theorem outsideWork_modCtx (s : State) (n : Nat) (f : Ctx → Ctx) : outsideWork (modCtx s n f) = outsideWork s := rfl
@[simp] theorem outsideWork_modAttempt (s : State) (n : Nat) (f : Attempt → Attempt) : outsideWork (modAttempt s n f) = outsideWork s := rfl
@[simp] theorem outsideWork_putPeg (s : State) (k : Nat) (p : Peg) : outsideWork (putPeg s k p) = outsideWork s := rfl
@[simp] theorem outsideWork_putLink (s : State) (n : Nat) (l : Link) : outsideWork (putLink s n l) = outsideWork s := rfl
@[simp] theorem outsideWork_emit (s : State) (o : Out) : outsideWork (emit s o) = outsideWork s := rfl
@[simp] theorem outsideWork_regSet (s : State) (p : Page) (o v : Nat) : outsideWork (regSet s p o v) = outsideWork s := rfl
@[simp] theorem outsideWork_keepMax (s : State) (p : Page) (o n : Nat) : outsideWork (keepMax s p o n) = outsideWork s := rfl
@[simp] theorem outsideWork_addDone (s : State) (d : WoDone) : outsideWork (addDone s d) = outsideWork s := rfl
@[simp] theorem outsideWork_updateGroup (s : State) (k : Nat) : outsideWork (updateGroup s k) = outsideWork s := rfl

@[simp] theorem outsideWork_bumpWrap (s : State) (p : Page) (o n : Nat) : outsideWork (bumpWrap s p o n) = outsideWork s := by
  obtain ⟨r, h⟩ := bumpWrap_only s p o n; rw [h]; rfl

@[simp] theorem outsideWork_bumpSat (s : State) (p : Page) (o hi lo n : Nat) : outsideWork (bumpSat s p o hi lo n) = outsideWork s := by
  obtain ⟨r, h⟩ := bumpSat_only s p o hi lo n; rw [h]; rfl

@[simp] theorem outsideWork_bump64 (s : State) (p : Page) (o n : Nat) : outsideWork (bump64 s p o n) = outsideWork s := by
  obtain ⟨r, h⟩ := bump64_only s p o n; rw [h]; rfl

@[simp] theorem outsideWork_setEvt (s : State) (p : Page) (m : Nat) : outsideWork (setEvt s p m) = outsideWork s := by
  obtain ⟨r, e, h⟩ := setEvt_only s p m; rw [h]; rfl

@[simp] theorem outsideWork_pushRec (s : State) (k n : Nat) (b : List Byte) : outsideWork (pushRec s k n b) = outsideWork s := by
  obtain ⟨r, e, d, h⟩ := pushRec_only s k n b; rw [h]; rfl

@[simp] theorem outsideWork_logFault (s : State) (f : FaultRec) : outsideWork (logFault s f) = outsideWork s := outsideWork_pushRec ..

@[simp] theorem outsideWork_setErr (s : State) (p : Page) (i : Nat) : outsideWork (setErr s p i) = outsideWork s := by
  obtain ⟨r, e, d, h⟩ := setErr_only s p i; rw [h]; rfl

/-! Recoveries. -/

@[simp] theorem outsideWork_freeNs (s : State) (cls : Nat) : outsideWork (freeNs s cls).2 = outsideWork s := rfl

@[simp] theorem outsideWork_beginRecovery (s : State) (cls unit dev code : Nat) (lease : Bool) (addr : Nat) :
    outsideWork (beginRecovery s cls unit dev code lease addr) = outsideWork s := by
  obtain ⟨r, e, d, x, h⟩ := beginRecovery_only s cls unit dev code lease addr; rw [h]; rfl

@[simp] theorem outsideWork_recoveryWaits (s : State) (ns : List Nat) (t : Nat) : outsideWork (recoveryWaits s ns t) = outsideWork s := rfl

@[simp] theorem outsideWork_settleRecovery (s : State) : outsideWork (settleRecovery s) = outsideWork s := by
  obtain ⟨r, e, d, x, h⟩ := settleRecovery_only s; rw [h]; rfl

/-! Links and packets (R337, R342-R352). -/

@[simp] theorem outsideWork_launch (s : State) (n : Nat) (l : Link) (f : Flit) : outsideWork (launch s n l f) = outsideWork s := by
  simp [launch]

@[simp] theorem outsideWork_pump (n k : Nat) (s : State) : outsideWork (pump n k s) = outsideWork s := by
  induction k generalizing s with
  | zero => rfl
  | succ k ih =>
    unfold pump
    dsimp only
    split
    · rfl
    · split
      · rfl
      · rw [ih, outsideWork_launch]

@[simp] theorem outsideWork_enqueueFlit (s : State) (n : Nat) (f : Flit) : outsideWork (enqueueFlit s n f) = outsideWork s := by
  simp [enqueueFlit]

@[simp] theorem outsideWork_sendOn (s : State) (link dst tc proto n : Nat) (dateline : Bool) (m : Msg) :
    outsideWork (sendOn s link dst tc proto n dateline m) = outsideWork s := by
  simp [sendOn]

@[simp] theorem outsideWork_sendRouted (s : State) (dst tc proto n : Nat) (m : Msg) :
    outsideWork (sendRouted s dst tc proto n m) = outsideWork s := by
  unfold sendRouted
  split
  · rfl
  · split <;> simp

@[simp] theorem outsideWork_sendNear (s : State) (dst tc proto n : Nat) (m : Msg) : outsideWork (sendNear s dst tc proto n m) = outsideWork s := by
  unfold sendNear
  split
  · rfl
  · split <;> simp

@[simp] theorem outsideWork_sendBundle (s : State) (dst tc proto n : Nat) (m : Msg) :
    outsideWork (sendBundle s dst tc proto n m) = outsideWork s := by
  unfold sendBundle
  split <;> simp

@[simp] theorem outsideWork_routeFlit (s : State) (f : Flit) : outsideWork (routeFlit s f) = outsideWork s := by
  unfold routeFlit
  split <;> simp

@[simp] theorem outsideWork_rerouteFlit (s : State) (bundle : Bool) (f : Flit) : outsideWork (rerouteFlit s bundle f) = outsideWork s := by
  unfold rerouteFlit
  split
  · rfl
  · split
    · split <;> simp
    · simp

@[simp] theorem outsideWork_stopLink (s : State) (link st : Nat) : outsideWork (stopLink s link st) = outsideWork s := by simp [stopLink]

@[simp] theorem outsideWork_noteBundle (s : State) : outsideWork (noteBundle s) = outsideWork s := by simp [noteBundle]

@[simp] theorem outsideWork_failLink (s : State) (link ns : Nat) : outsideWork (failLink s link ns) = outsideWork s := by simp [failLink]

/-! Pegs and work orders (R7, R267, R379-R383, R397). -/

@[simp] theorem outsideWork_endWait (status : Nat) (s : State) (x : PegWait) : outsideWork (endWait status s x) = outsideWork s := by
  unfold endWait
  split <;> simp

@[simp] theorem outsideWork_settlePeg (s : State) (k : Nat) : outsideWork (settlePeg s k) = outsideWork s := by simp [settlePeg]

@[simp] theorem outsideWork_applyPeg (s : State) (k : Nat) (op : PegOp) (v : Nat) (x : PegWait) :
    outsideWork (applyPeg s k op v x).s = outsideWork s := by
  cases op with
  | arrive => dsimp only [applyPeg]; split <;> simp
  | wait => dsimp only [applyPeg]; split <;> simp
  | set | reset | query => simp [applyPeg]

@[simp] theorem outsideWork_pegOpOn (s : State) (k tag : Nat) (op : PegOp) (v : Nat) (x : PegWait) :
    outsideWork (pegOpOn s k tag op v x).s = outsideWork s := by
  simp only [pegOpOn, apply_ite PegAns.s, outsideWork_ite, outsideWork_setErr, outsideWork_applyPeg, ite_self]

@[simp] theorem outsideWork_resetPeg (s : State) (k target : Nat) : outsideWork (resetPeg s k target) = outsideWork s := by simp [resetPeg]

@[simp] theorem outsideWork_closePeg (s : State) (k : Nat) : outsideWork (closePeg s k) = outsideWork s := rfl

@[simp] theorem outsideWork_localPegOp (s : State) (w : WoHdr) (op : PegOp) (a : PegArgs) : outsideWork (localPegOp s w op a) = outsideWork s := by
  unfold localPegOp
  dsimp only
  split <;> simp

@[simp] theorem outsideWork_remotePegSend (s : State) (w : WoHdr) (op : PegOp) (a : PegArgs) :
    outsideWork (remotePegSend s w op a) = outsideWork s := by simp [remotePegSend]

@[simp] theorem outsideWork_takeQueued (s : State) (w : WoHdr) (unit : Nat) : outsideWork (takeQueued s w unit).1 = outsideWork s := by
  unfold takeQueued
  dsimp only
  split <;> simp

/-- The state that the start of a work order leaves, whether it runs or not. -/
def Begun.left : Begun → State
  | .go s _ => s
  | .stop s => s

@[simp] theorem Begun.left_go (s : State) (w : WoHdr) : (Begun.go s w).left = s := rfl
@[simp] theorem Begun.left_stop (s : State) : (Begun.stop s).left = s := rfl

@[simp] theorem outsideWork_startWork (s : State) (w : WoHdr) (unit kind : Nat) : outsideWork (startWork s w unit kind).left = outsideWork s := by
  unfold startWork
  split
  · rfl
  · split
    · simp
    · split <;> simp [apply_ite Begun.left]

theorem outsideWork_startWork_stop {s t : State} {w : WoHdr} {unit kind : Nat} (h : startWork s w unit kind = .stop t) :
    outsideWork t = outsideWork s := by simpa [h] using outsideWork_startWork s w unit kind

theorem outsideWork_startWork_go {s t : State} {w v : WoHdr} {unit kind : Nat} (h : startWork s w unit kind = .go t v) :
    outsideWork t = outsideWork s := by simpa [h] using outsideWork_startWork s w unit kind

/-- Asking for power changes only the halls asked to wake. -/
@[simp] theorem outsideWork_askPower (s : State) (w : WoHdr) : outsideWork (askPower s w) = outsideWork s := by
  unfold askPower
  split <;> rfl

@[simp] theorem outsideWork_pegWork (op : PegOp) (w : WoHdr) (a : PegArgs) (s : State) : outsideWork (pegWork op w a s) = outsideWork s := by
  unfold pegWork
  split
  · rfl
  · split
    · simp
    · split
      · next h => exact outsideWork_startWork_stop h
      · next h => simpa using outsideWork_startWork_go h

@[simp] theorem outsideWork_bayEvent (s : State) (d : WoDone) : outsideWork (bayEvent s d) = outsideWork s := by
  unfold bayEvent
  split
  · rfl
  · dsimp only
    split
    · rfl
    · split <;> simp

@[simp] theorem outsideWork_reportWork (s : State) (d : WoDone) : outsideWork (reportWork s d) = outsideWork s := by
  unfold reportWork
  dsimp only
  split <;> split <;> simp

/-! Delayed gauges (R108): only the words that are due change. -/

@[simp] theorem outsideWork_applyDue (s : State) (n g : Nat) : outsideWork (applyDue s n g) = outsideWork s := by
  unfold applyDue
  split <;> rfl

@[simp] theorem outsideWork_finishGauge (s : State) (n : Nat) : outsideWork (finishGauge s n) = outsideWork s := by
  unfold finishGauge
  split <;> simp

@[simp] theorem outsideWork_finishGauges (k : Nat) (s : State) (n : Nat) : outsideWork (finishGauges k s n) = outsideWork s := by
  induction k generalizing s with
  | zero => rfl
  | succ k ih => rw [finishGauges, ih, outsideWork_finishGauge]

@[simp] theorem outsideWork_awaitGauge (s : State) (n g : Nat) : outsideWork (awaitGauge s n g) = outsideWork s := by simp [awaitGauge]

end Sys2Proof.Machine
end

section
/-! SUPPORT of O57. The frame of a step's own work, carried through an attempt's life: notices, votes, decisions, layers (R91, R94, R215-R220,
R230-R237). -/

namespace Sys2Proof.Machine

/-! Notices and votes. -/

@[simp] theorem outsideWork_sendPegOp (s : State) (n dev peg op value : Nat) (cause : Cause) (step : Nat) :
    outsideWork (sendPegOp s n dev peg op value cause step) = outsideWork s := by simp [sendPegOp]

@[simp] theorem outsideWork_holdNotices (s : State) (n : Nat) : outsideWork (holdNotices s n) = outsideWork s := by
  unfold holdNotices
  dsimp only
  split
  · split
    · rfl
    · split
      · rw [outsideWork_sendPegOp]
        split <;> simp
      · split <;> simp
  · rfl

@[simp] theorem outsideWork_arriveAll (s : State) (n i : Nat) (cause : Cause) : outsideWork (arriveAll s n i cause) = outsideWork s := by
  unfold arriveAll
  dsimp only
  split
  · split <;> simp
  · rfl

@[simp] theorem outsideWork_stopWork (s : State) (n : Nat) : outsideWork (stopWork s n) = outsideWork s := rfl

@[simp] theorem outsideWork_tryArrive (s : State) (n : Nat) : outsideWork (tryArrive s n) = outsideWork s := by
  unfold tryArrive
  dsimp only
  split
  · split
    · rfl
    · split <;> simp
  · rfl

/-! Decisions. -/

@[simp] theorem outsideWork_shadowCommit (s : State) (n : Nat) : outsideWork (shadowCommit s n) = outsideWork s := by
  unfold shadowCommit
  dsimp only
  split <;> simp

@[simp] theorem outsideWork_shadowRevert (s : State) (n : Nat) : outsideWork (shadowRevert s n) = outsideWork s := rfl

@[simp] theorem outsideWork_commitPoint (s : State) (n : Nat) : outsideWork (commitPoint s n) = outsideWork s := by
  unfold commitPoint
  dsimp only
  split
  · simp
  · split <;> simp

@[simp] theorem outsideWork_decideEnd (s : State) (n : Nat) : outsideWork (decideEnd s n) = outsideWork s := by
  unfold decideEnd
  dsimp only
  split <;> simp

@[simp] theorem outsideWork_finishDecision (s : State) (n : Nat) : outsideWork (finishDecision s n) = outsideWork s := by
  unfold finishDecision
  dsimp only
  split
  · rfl
  · split
    · rfl
    · split <;> simp

@[simp] theorem outsideWork_beginDecision (s : State) (n : Nat) : outsideWork (beginDecision s n) = outsideWork s := by
  unfold beginDecision
  dsimp only
  split
  · split
    · rfl
    · split <;> simp
  · rfl

@[simp] theorem outsideWork_commitWatch (s : State) (n : Nat) : outsideWork (commitWatch s n) = outsideWork s := by
  unfold commitWatch
  dsimp only
  split <;> simp

@[simp] theorem outsideWork_progress (s : State) (n : Nat) : outsideWork (progress s n) = outsideWork s := by simp [progress]

@[simp] theorem outsideWork_endAttempt (s : State) (n code : Nat) : outsideWork (endAttempt s n code) = outsideWork s := by
  unfold endAttempt addCause
  dsimp only
  split <;> simp

@[simp] theorem outsideWork_awaitRepeat (s : State) (n attempt : Nat) : outsideWork (awaitRepeat s n attempt) = outsideWork s := by
  simp [awaitRepeat]

/-! Layers. -/

@[simp] theorem outsideWork_dispatch (s : State) (n : Nat) (ts : List Nat) : outsideWork (dispatch s n ts) = outsideWork s := rfl

@[simp] theorem outsideWork_resetDone (s : State) (n : Nat) (ts : List Nat) : outsideWork (resetDone s n ts) = outsideWork s := by
  unfold resetDone
  dsimp only
  split
  · rfl
  · refine outsideWork_foldl (fun s i => ?_) ts s
    split <;> simp

@[simp] theorem outsideWork_startLayer (s : State) (n i half pos : Nat) : outsideWork (startLayer s n i half pos) = outsideWork s := by
  unfold startLayer
  dsimp only
  split <;> simp

@[simp] theorem outsideWork_startBackward (s : State) (n i half pos : Nat) : outsideWork (startBackward s n i half pos) = outsideWork s := by
  unfold startBackward
  dsimp only
  split
  · rfl
  · split <;> simp

@[simp] theorem outsideWork_nextBackward (s : State) (n i half pos : Nat) : outsideWork (nextBackward s n i half pos) = outsideWork s := by
  simp [nextBackward]

@[simp] theorem outsideWork_logEvent (s : State) (n e : Nat) : outsideWork (logEvent s n e) = outsideWork s := rfl

@[simp] theorem outsideWork_noteBadcode (s : State) (l : LayerRec) (t : Tally) : outsideWork (noteBadcode s l t) = outsideWork s := by
  simp [noteBadcode]

@[simp] theorem outsideWork_requestRaise (s : State) (n : Nat) (gs : List Nat) : outsideWork (requestRaise s n gs) = outsideWork s := rfl

@[simp] theorem outsideWork_stairSkip (s : State) (n : Nat) : outsideWork (stairSkip s n) = outsideWork s := by simp [stairSkip]

@[simp] theorem outsideWork_repeatLayer (s : State) (n : Nat) (p : Plan) (l : LayerRec) (i half pos next why : Nat) :
    outsideWork (repeatLayer s n p l i half pos next why) = outsideWork s := by simp [repeatLayer]

@[simp] theorem outsideWork_judgeForward (s : State) (n : Nat) (p : Plan) (l : LayerRec) (i half pos : Nat) :
    outsideWork (judgeForward s n p l i half pos) = outsideWork s := by
  unfold judgeForward
  dsimp only
  split
  · simp
  · split
    · simp
    · split <;> simp

@[simp] theorem outsideWork_surveyPass (s : State) (n : Nat) (p : Plan) (l : LayerRec) (k i half pos : Nat) (back : Bool) (gs : List (Nat × Nat)) :
    outsideWork (surveyPass s n p l k i half pos back gs) = outsideWork s := by simp [surveyPass]

@[simp] theorem outsideWork_lossKnown (s : State) (n : Nat) (p : Plan) (half pos code : Nat) :
    outsideWork (lossKnown s n p half pos code) = outsideWork s := by
  unfold lossKnown
  dsimp only
  split
  · simp
  · split <;> simp

@[simp] theorem outsideWork_boundFault (s : State) (n h : Nat) : outsideWork (boundFault s n h) = outsideWork s := by simp [boundFault]

@[simp] theorem outsideWork_holdSegments (s : State) (n : Nat) (p : Plan) (i : Nat) (l : LayerRec) (pos : Nat) :
    outsideWork (holdSegments s n p i l pos) = outsideWork s := by simp [holdSegments]

@[simp] theorem outsideWork_layerConsumed (s : State) (n : Nat) (p : Plan) (i : Nat) (l : LayerRec) (half pos : Nat) :
    outsideWork (layerConsumed s n p i l half pos) = outsideWork s := by simp [layerConsumed]

end Sys2Proof.Machine
end

section
/-! SUPPORT of O57. The frame of a step's own work, carried through the update engines and the exchange (R120, R145-R149, R183-R205). -/

namespace Sys2Proof.Machine

/-! Slices (R120, R145-R149, R160, R162). -/

@[simp] theorem outsideWork_addBack (s : State) (n layer pos : Nat) (t : Tally) : outsideWork (addBack s n layer pos t) = outsideWork s := rfl
@[simp] theorem outsideWork_addApart (s : State) (n layer sat ovf : Nat) : outsideWork (addApart s n layer sat ovf) = outsideWork s := rfl
@[simp] theorem outsideWork_modSlice (s : State) (n key : Nat) (f : Slice → Slice) : outsideWork (modSlice s n key f) = outsideWork s := rfl
@[simp] theorem outsideWork_discardRest (s : State) (n : Nat) : outsideWork (discardRest s n) = outsideWork s := rfl

@[simp] theorem outsideWork_sendMirror (s : State) (m : MirrorRec) : outsideWork (sendMirror s m) = outsideWork s := by
  unfold sendMirror
  split <;> simp

@[simp] theorem outsideWork_queueMirror (s : State) (h : Nat) (m : MirrorRec) : outsideWork (queueMirror s h m) = outsideWork s := by
  simp [queueMirror]

@[simp] theorem outsideWork_drainMirror (k : Nat) (s : State) : outsideWork (drainMirror k s) = outsideWork s := by
  induction k generalizing s with
  | zero => rfl
  | succ k ih =>
    unfold drainMirror
    split
    · split
      · rfl
      · simp [ih]
    · rfl

@[simp] theorem outsideWork_finishSlice (s : State) (n : Nat) (t : TensorRec) (ord : Nat) : outsideWork (finishSlice s n t ord) = outsideWork s := by
  unfold finishSlice
  dsimp only
  split <;> simp

@[simp] theorem outsideWork_takeSlice (s : State) (n key : Nat) : outsideWork (takeSlice s n key) = outsideWork s := by
  have waits (l : List Nat) : outsideWork (l.foldl (fun s g => awaitGauge s n g) s) = outsideWork s :=
    outsideWork_foldl (fun s g => outsideWork_awaitGauge s n g) l s
  unfold takeSlice
  dsimp only
  split
  · split
    · simp only [outsideWork_ite, outsideWork_modSlice, outsideWork_endAttempt, outsideWork_modAttempt, outsideWork_discardRest, outsideWork_setErr,
        outsideWork_addBack, outsideWork_addApart, outsideWork_modCtx, outsideWork_finishSlice, waits, ite_self]
    · rfl
  · rfl

@[simp] theorem outsideWork_drainPort (k : Nat) (s : State) (h : Nat) : outsideWork (drainPort k s h) = outsideWork s := by
  induction k generalizing s with
  | zero => rfl
  | succ k ih =>
    unfold drainPort
    split
    · simp [ih]
    · rfl

@[simp] theorem outsideWork_drainHall (s : State) (h : Nat) : outsideWork (drainHall s h) = outsideWork s := outsideWork_drainPort ..

@[simp] theorem outsideWork_drainHalls (s : State) : outsideWork (drainHalls s) = outsideWork s := outsideWork_foldl outsideWork_drainHall _ s

/-- Retiring a row changes its memory controller besides what work may change (R335). -/
theorem outsideWork_retireRow (s : State) (h row : Nat) : ∃ m, outsideWork (retireRow s h row) = { outsideWork s with mem := m } := by
  unfold retireRow
  dsimp only
  split
  · exact ⟨s.mem, rfl⟩
  · split
    · rw [outsideWork_setErr]; exact ⟨_, rfl⟩
    · rw [outsideWork_setErr, outsideWork_setErr]; exact ⟨_, rfl⟩

theorem outsideWork_journalLineLost (s : State) (h n key : Nat) :
    ∃ m, outsideWork (journalLineLost s h n key) = { outsideWork s with mem := m } := by
  unfold journalLineLost
  dsimp only
  obtain ⟨m, hm⟩ := outsideWork_retireRow (regSet (regSet (bumpSat (setErr s (pgMemory h) 0) (pgMemory h) Reg.MC_UE 31 0 1) (pgMemory h)
    Reg.MC_UEADDR_LO (Config.journalAddr n key)) (pgMemory h) Reg.MC_UEADDR_HI (Config.journalAddr n key / 2 ^ 32)) h
    (Config.rowOf (Config.journalAddr n key))
  exact ⟨m, by simpa using hm⟩

/-! Faults of the exchange (R193, R306, R323). -/

@[simp] theorem outsideWork_modBucket (s : State) (n key : Nat) (f : Bucket → Bucket) : outsideWork (modBucket s n key f) = outsideWork s := rfl

@[simp] theorem outsideWork_modDig (s : State) (n key att : Nat) (f : Nat × Nat → Nat × Nat) : outsideWork (modDig s n key att f) = outsideWork s := rfl

@[simp] theorem outsideWork_pathFault (s : State) (d : Nat) : outsideWork (pathFault s d) = outsideWork s := by
  unfold pathFault
  dsimp only
  split <;> simp

@[simp] theorem outsideWork_compareAt (s : State) (n : Nat) (g : GroupRec) (steps : Nat → Bool) (pos : Nat) :
    outsideWork (compareAt s n g steps pos) = outsideWork s := by simp [compareAt]

@[simp] theorem outsideWork_compareExchange (s : State) (n : Nat) (steps : Nat → Bool) : outsideWork (compareExchange s n steps) = outsideWork s := by
  unfold compareExchange
  dsimp only
  split <;> simp

@[simp] theorem outsideWork_residueFault (s : State) (n key : Nat) (g : GroupRec) (hub src hops : Nat) :
    outsideWork (residueFault s n key g hub src hops) = outsideWork s := by
  unfold residueFault
  dsimp only
  rw [outsideWork_compareExchange, outsideWork_settleRecovery, outsideWork_recoveryWaits, outsideWork_freeNs, outsideWork_endAttempt,
    outsideWork_beginRecovery, outsideWork_modBucket, outsideWork_regSet, outsideWork_setErr]

/-! Packets out: agreement, reduction, gathering, the tree (R184-R195). -/

@[simp] theorem outsideWork_sendPkt (s : State) (n key : Nat) (g : GroupRec) (dst : Nat) (p : ExPkt) :
    outsideWork (sendPkt s n key g dst p) = outsideWork s := by
  unfold sendPkt
  dsimp only
  split
  · simp
  · split
    · simp
    · split
      · simp
      · split <;> simp

@[simp] theorem outsideWork_ownFinal (s : State) (n key : Nat) (g : GroupRec) (pos : Nat) : outsideWork (ownFinal s n key g pos) = outsideWork s := by
  unfold ownFinal
  split <;> simp

@[simp] theorem outsideWork_sendDown (s : State) (n key : Nat) (g : GroupRec) (pos : Nat) : outsideWork (sendDown s n key g pos) = outsideWork s := by
  unfold sendDown
  split <;> simp

@[simp] theorem outsideWork_treeStep (s : State) (n key : Nat) (g : GroupRec) (pos : Nat) : outsideWork (treeStep s n key g pos) = outsideWork s := by
  unfold treeStep
  split <;> simp

@[simp] theorem outsideWork_reduceEnd (s : State) (n key : Nat) (g : GroupRec) (pos : Nat) : outsideWork (reduceEnd s n key g pos) = outsideWork s := by
  simp [reduceEnd]

@[simp] theorem outsideWork_startReduce (s : State) (n key : Nat) : outsideWork (startReduce s n key) = outsideWork s := by
  unfold startReduce
  dsimp only
  split
  · split <;> simp
  · rfl

@[simp] theorem outsideWork_agreed (s : State) (n key : Nat) : outsideWork (agreed_ s n key) = outsideWork s := by
  unfold agreed_
  split <;> simp

@[simp] theorem outsideWork_agreeGather (s : State) (n key : Nat) (g : GroupRec) (pos : Nat) :
    outsideWork (agreeGather s n key g pos) = outsideWork s := by
  unfold agreeGather
  split <;> simp

@[simp] theorem outsideWork_agreeTree (s : State) (n key : Nat) (g : GroupRec) (pos : Nat) : outsideWork (agreeTree s n key g pos) = outsideWork s := by
  unfold agreeTree
  split <;> simp

@[simp] theorem outsideWork_startAgree (s : State) (n key : Nat) (g : GroupRec) (pos : Nat) :
    outsideWork (startAgree s n key g pos) = outsideWork s := by
  unfold startAgree
  split <;> simp

@[simp] theorem outsideWork_takeAgree (s : State) (n key : Nat) (g : GroupRec) (pos role : Nat) (v : Int) :
    outsideWork (takeAgree s n key g pos role v) = outsideWork s := by
  unfold takeAgree
  dsimp only
  split
  · split
    · simp
    · split <;> simp
  · split <;> simp
  · simp
  · simp

/-! Packets in (R184, R192-R195). -/

@[simp] theorem outsideWork_noteReceived (s : State) (n key : Nat) (p : ExPkt) : outsideWork (noteReceived s n key p) = outsideWork s := by
  simp [noteReceived]

@[simp] theorem outsideWork_usePkt (s : State) (n key : Nat) (g : GroupRec) (p : ExPkt) : outsideWork (usePkt s n key g p) = outsideWork s := by
  unfold usePkt
  dsimp only
  split
  · rfl
  · split
    · split <;> simp
    · split
      · simp
      · split
        · simp
        · simp
        · split <;> simp
        · simp

@[simp] theorem outsideWork_dropPkt (s : State) (n key : Nat) (g : Option GroupRec) (src : Nat) : outsideWork (dropPkt s n key g src) = outsideWork s := by
  unfold dropPkt
  split
  · simp
  · dsimp only
    split <;> simp

@[simp] theorem outsideWork_runEarly (k : Nat) (s : State) : outsideWork (runEarly k s) = outsideWork s := by
  induction k generalizing s with
  | zero => rfl
  | succ k ih =>
    unfold runEarly
    dsimp only
    split
    · rfl
    · split <;> simp [ih]

@[simp] theorem outsideWork_pktIn (s : State) (p : ExPkt) : outsideWork (pktIn s p) = outsideWork s := by simp [pktIn]

/-! The end of a bucket (R198, R201, R204). -/

@[simp] theorem outsideWork_keepDigest (s : State) (n : Nat) (g : GroupRec) (tag step key : Nat) (b : Bucket) :
    outsideWork (keepDigest s n g tag step key b) = outsideWork s := by simp [keepDigest]

@[simp] theorem outsideWork_closeBucket (s : State) (n key : Nat) (g : GroupRec) : outsideWork (closeBucket s n key g) = outsideWork s := by
  simp [closeBucket]

@[simp] theorem outsideWork_exchangeOverflow (s : State) (n : Nat) (g : GroupRec) (b : Bucket) (count : Nat) :
    outsideWork (exchangeOverflow s n g b count) = outsideWork s := by simp [exchangeOverflow]

@[simp] theorem outsideWork_deliver (s : State) (n : Nat) (t : TensorRec) (b : Bucket) (vals : List Nat) :
    outsideWork (deliver s n t b vals) = outsideWork s := 
    outsideWork_foldl (fun s _ => outsideWork_modAttempt s n _) _ s

@[simp] theorem outsideWork_afterFinal (s : State) (n key : Nat) (g : GroupRec) (t : TensorRec) (b : Bucket) :
    outsideWork (afterFinal s n key g t b) = outsideWork s := by simp [afterFinal]

@[simp] theorem outsideWork_breachRetry (s : State) (n key : Nat) (g : GroupRec) (t : TensorRec) (b : Bucket) :
    outsideWork (breachRetry s n key g t b) = outsideWork s := by simp [breachRetry]

end Sys2Proof.Machine
end

section
/-! O57: what the commands of a step's own work leave alone, command by command. -/

namespace Sys2Proof.Machine

/-- A meaning whose next state has the frame of the state it ran on. -/
def LeavesOutside (s : State) (o : Host.Outcome State Fault Refusal) : Prop := ∀ t, o = .next t → outsideWork t = outsideWork s

@[simp] theorem leavesOutside_next {s t : State} : LeavesOutside s (.next t) ↔ outsideWork t = outsideWork s :=
  ⟨fun h => h t rfl, fun h _ e => by cases e; exact h⟩

@[simp] theorem leavesOutside_ite {s : State} {p : Prop} [Decidable p] {a b : Host.Outcome State Fault Refusal} :
    LeavesOutside s (if p then a else b) ↔ (p → LeavesOutside s a) ∧ (¬p → LeavesOutside s b) := by
  by_cases h : p <;> simp [h]

/-! Work orders and frame queues (R7, R267, R379). -/

theorem execWaitRelease_leaves (ref status : Nat) (s : State) : LeavesOutside s (execWaitRelease ref status s) := by
  unfold execWaitRelease
  split <;> simp

theorem execWorkOrderComplete_leaves (n : Nat) (s : State) : LeavesOutside s (execWorkOrderComplete n s) := by
  unfold execWorkOrderComplete
  split <;> simp

theorem execFrameQueueAccept_leaves (n f : Nat) (s : State) : LeavesOutside s (execFrameQueueAccept n f s) := by
  unfold execFrameQueueAccept
  dsimp only
  split <;> simp

theorem execEvaluationPass_leaves (w : WoHdr) (a : EvArgs) (s : State) : LeavesOutside s (execEvaluationPass w a s) := by
  unfold execEvaluationPass
  dsimp only
  split
  · simp
  · split
    · split
      · simp
      · split
        · next h => simpa using outsideWork_startWork_stop h
        · next h => simpa using outsideWork_startWork_go h
    · simp

/-! Layers and their judgement (R91, R94, R215, R230-R237). -/

theorem execLayerEnd_leaves (n layer half pos : Nat) (s : State) : LeavesOutside s (execLayerEnd n layer half pos s) := by
  unfold execLayerEnd
  dsimp only
  split <;> simp

theorem execSurvey_leaves (n layer half pos : Nat) (s : State) : LeavesOutside s (execSurvey n layer half pos s) := by
  unfold execSurvey
  dsimp only
  split <;> simp

theorem execLoss_leaves (n half pos tid : Nat) (s : State) : LeavesOutside s (execLoss n half pos tid s) := by
  unfold execLoss
  dsimp only
  split
  · split <;> simp
  · split <;> simp
  · simp

theorem execBackwardLayerEnd_leaves (n layer half pos : Nat) (s : State) : LeavesOutside s (execBackwardLayerEnd n layer half pos s) := by
  unfold execBackwardLayerEnd
  dsimp only
  split <;> simp

theorem execVerify_leaves (n : Nat) (s : State) : LeavesOutside s (execVerify n s) := by
  unfold execVerify
  dsimp only
  split
  · split
    · simp
    · split
      · simp
      · split
        · simp
        · rw [leavesOutside_next, outsideWork_progress]
          split <;> simp
  · simp

theorem execStackPop_leaves (n hall : Nat) (s : State) : LeavesOutside s (execStackPop n hall s) := by
  unfold execStackPop
  dsimp only
  split <;> simp

/-! Slices (R120, R145-R149, R160-R162). -/

theorem execSliceComplete_leaves (n layer ord pos : Nat) (s : State) : LeavesOutside s (execSliceComplete n layer ord pos s) := by
  unfold execSliceComplete
  dsimp only
  split
  · split
    · simp
    · split <;> simp
  · simp

theorem execSliceAccept_leaves (n tid ord : Nat) (s : State) : LeavesOutside s (execSliceAccept n tid ord s) := by
  unfold execSliceAccept
  dsimp only
  split <;> simp

theorem execJournalAck_leaves (n tid ord : Nat) (s : State) : LeavesOutside s (execJournalAck n tid ord s) := by
  unfold execJournalAck
  dsimp only
  split <;> simp

theorem execMirrorQueueReady_leaves (cycles : Nat) (s : State) : LeavesOutside s (execMirrorQueueReady cycles s) := by
  simp [execMirrorQueueReady]

/-- JWRITE retires the row of the journal's line and so changes a memory controller, besides what work may change (R161, R335). -/
theorem execJwrite_leaves {n tid ord : Nat} {s t : State} (h : execJwrite n tid ord s = .next t) :
    ∃ m, outsideWork t = { outsideWork s with mem := m } := by
  unfold execJwrite at h
  dsimp only at h
  split at h
  · split at h
    · cases h; exact ⟨s.mem, rfl⟩
    · cases h
      rw [outsideWork_drainHall, outsideWork_endAttempt]
      obtain ⟨m, hm⟩ := outsideWork_journalLineLost _ _ n (sliceKey tid ord)
      exact ⟨m, hm.trans (by simp)⟩
  · cases h; exact ⟨s.mem, rfl⟩

/-! The exchange (R183-R205) and notices (R215). -/

theorem execBucketOpen_leaves (n group ordinal pos : Nat) (s : State) : LeavesOutside s (execBucketOpen n group ordinal pos s) := by
  unfold execBucketOpen
  dsimp only
  split <;> simp

theorem execBucketComplete_leaves (n group ordinal pos : Nat) (s : State) : LeavesOutside s (execBucketComplete n group ordinal pos s) := by
  unfold execBucketComplete
  dsimp only
  split
  · split <;> simp
  · simp

theorem execBucketDeadline_leaves (n group ordinal pos : Nat) (s : State) : LeavesOutside s (execBucketDeadline n group ordinal pos s) := by
  unfold execBucketDeadline
  dsimp only
  split <;> simp

theorem execAdmissionNotice_leaves (src n step attempt : Nat) (twin : Option Nat) (active : Bool) (s : State) :
    LeavesOutside s (execAdmissionNotice src n step attempt twin active s) := by
  unfold execAdmissionNotice
  dsimp only
  split
  · simp
  · split
    · simp
    · split <;> simp

/-- Every command of a step's own work but JWRITE leaves what lies outside it. -/
theorem exec_stepWork_leaves {c : Instr} (s : State) (hc : stepWork c = true) (hj : ∀ n tid ord, c ≠ .jwrite n tid ord) :
    LeavesOutside s (exec c s) := by
  cases c with
  | arrive => exact leavesOutside_next.mpr ((outsideWork_commitWatch ..).trans (outsideWork_pegWork ..))
  | wait | set | reset_ | query => exact leavesOutside_next.mpr (outsideWork_pegWork ..)
  | waitRelease ref status => exact execWaitRelease_leaves ref status s
  | workOrderComplete n => exact execWorkOrderComplete_leaves n s
  | frameQueueAccept n f => exact execFrameQueueAccept_leaves n f s
  | evaluationPass w a => exact execEvaluationPass_leaves w a s
  | layerEnd n layer half pos => exact execLayerEnd_leaves n layer half pos s
  | survey n layer half pos => exact execSurvey_leaves n layer half pos s
  | loss n half pos tid => exact execLoss_leaves n half pos tid s
  | backwardLayerEnd n layer half pos => exact execBackwardLayerEnd_leaves n layer half pos s
  | verify n => exact execVerify_leaves n s
  | stackPop n hall => exact execStackPop_leaves n hall s
  | sliceComplete n layer ord pos => exact execSliceComplete_leaves n layer ord pos s
  | sliceAccept n tid ord => exact execSliceAccept_leaves n tid ord s
  | journalAck n tid ord => exact execJournalAck_leaves n tid ord s
  | jwrite n tid ord => exact absurd rfl (hj n tid ord)
  | mirrorQueueReady cycles => exact execMirrorQueueReady_leaves cycles s
  | bucketOpen n group ordinal pos => exact execBucketOpen_leaves n group ordinal pos s
  | bucketComplete n group ordinal pos => exact execBucketComplete_leaves n group ordinal pos s
  | bucketDeadline n group ordinal pos => exact execBucketDeadline_leaves n group ordinal pos s
  | reducePacket | gatherPacket | agreePacket | treeUp | treeDown => exact leavesOutside_next.mpr (outsideWork_pktIn ..)
  | admissionNotice src n step attempt twin active => exact execAdmissionNotice_leaves src n step attempt twin active s
  | mirrorAcknowledgement => exact leavesOutside_next.mpr ((outsideWork_progress ..).trans (outsideWork_modAttempt ..))
  | _ => cases hc

/-- What a step's own work leaves alone, field by field, from its frame. -/
theorem fields_of_outsideWork {s t : State} {m : SMap MemCtl} (h : outsideWork t = { outsideWork s with mem := m }) :
    t.pending = s.pending ∧ t.boot = s.boot ∧ t.monitors = s.monitors ∧ t.gals = s.gals ∧ t.mem = m ∧ t.fence = s.fence ∧
      t.lostDevs = s.lostDevs ∧ t.silent = s.silent ∧ t.gauge = { s.gauge with due := t.gauge.due } ∧
      t.power = { s.power with waking := t.power.waking } := by
  have gauge : { t.gauge with due := [] } = { s.gauge with due := [] } := congrArg State.gauge h
  have power : { t.power with waking := 0 } = { s.power with waking := 0 } := congrArg State.power h
  have same {α : Type} (f : State → α) : f (outsideWork t) = f { outsideWork s with mem := m } := congrArg f h
  exact ⟨same State.pending, same State.boot, same State.monitors, same State.gals, same State.mem, same State.fence, same State.lostDevs,
    same State.silent, congrArg (fun g : GaugeEng => { g with due := t.gauge.due }) gauge,
    congrArg (fun p : Power => { p with waking := t.power.waking }) power⟩

/-- Settles O57: every operation of the work is carried through the frame; only JWRITE reaches a memory controller. -/
theorem stepWorkFrame : Obligations.StepWorkFrame := by
  intro c s t hc run
  by_cases hj : ∃ n tid ord, c = .jwrite n tid ord
  · obtain ⟨n, tid, ord, rfl⟩ := hj
    obtain ⟨m, hm⟩ := execJwrite_leaves run
    obtain ⟨pending, boot, monitors, gals, -, rest⟩ := fields_of_outsideWork hm
    exact ⟨pending, boot, monitors, gals, .inr ⟨n, tid, ord, rfl⟩, rest⟩
  · have kept : outsideWork t = { outsideWork s with mem := s.mem } :=
      exec_stepWork_leaves s hc (fun n tid ord e => hj ⟨n, tid, ord, e⟩) t run
    obtain ⟨pending, boot, monitors, gals, mem, rest⟩ := fields_of_outsideWork kept
    exact ⟨pending, boot, monitors, gals, .inl mem, rest⟩

end Sys2Proof.Machine
end

section
/-! SUPPORT of O44. A work order that may run, its report, and the bytes of its tensors (R6, R7, R132, R267). -/

namespace Sys2Proof.Machine

/-! Changes of one context. -/

/-- Nothing has changed but one context. -/
structure OnlyCtx (n : Nat) (s t : State) : Prop where
  rest : t = { s with ctxs := t.ctxs }
  others : ∀ m, m ≠ n → getCtx t m = getCtx s m

theorem OnlyCtx.refl (n : Nat) (s : State) : OnlyCtx n s s := ⟨rfl, fun _ _ => rfl⟩

theorem OnlyCtx.putCtx {n : Nat} {s t : State} (h : OnlyCtx n s t) (c : Ctx) : OnlyCtx n s (putCtx t n c) where
  rest := by rw [h.rest]; rfl
  others m hm := (getCtx_putCtx_ne t hm c).trans (h.others m hm)

theorem OnlyCtx.modCtx {n : Nat} {s t : State} (h : OnlyCtx n s t) (f : Ctx → Ctx) : OnlyCtx n s (modCtx t n f) := h.putCtx _

theorem getCtx_addDone (s : State) (d : WoDone) :
    getCtx (addDone s d) d.w.ctx = { getCtx s d.w.ctx with done := (getCtx s d.w.ctx).done ++ [d] } := getCtx_modCtx ..

/-! The start: a work order leaves its member's queue (R6, R7). -/

theorem takeQueued_only (s : State) (w : WoHdr) (unit : Nat) : ∃ q r, (takeQueued s w unit).1 = { s with queues := q, ran := r } := by
  unfold takeQueued
  dsimp only
  split
  · exact ⟨s.queues, s.ran, rfl⟩
  · split
    · exact ⟨_, _, rfl⟩
    · exact ⟨_, s.ran, rfl⟩

/-- A work order runs under its own header, but for the peg that one run again does not arrive on (R322). -/
theorem takeQueued_header (s : State) (w : WoHdr) (unit : Nat) : ∃ p, (takeQueued s w unit).2 = { w with donePeg := p } := by
  unfold takeQueued
  dsimp only
  split
  · exact ⟨w.donePeg, rfl⟩
  · dsimp only
    split
    · exact ⟨_, rfl⟩
    · exact ⟨w.donePeg, rfl⟩

@[simp] theorem takeQueued_ctx (s : State) (w : WoHdr) (unit : Nat) : (takeQueued s w unit).2.ctx = w.ctx := by
  obtain ⟨p, h⟩ := takeQueued_header s w unit; rw [h]

@[simp] theorem takeQueued_phase (s : State) (w : WoHdr) (unit : Nat) : (takeQueued s w unit).2.phase = w.phase := by
  obtain ⟨p, h⟩ := takeQueued_header s w unit; rw [h]

@[simp] theorem getCtx_takeQueued (s : State) (w : WoHdr) (unit n : Nat) : getCtx (takeQueued s w unit).1 n = getCtx s n := by
  obtain ⟨q, r, h⟩ := takeQueued_only s w unit; rw [h]; rfl

@[simp] theorem qpUp_takeQueued (s : State) (w : WoHdr) (unit n : Nat) : qpUp (takeQueued s w unit).1 n = qpUp s n := by
  obtain ⟨q, r, h⟩ := takeQueued_only s w unit; rw [h]; rfl

/-- Ready work passes its start: it is taken out of its queue. -/
theorem startAgain_ready {s : State} {w : WoHdr} {unit : Nat} (kind : Nat) (h : readyWork s w unit) :
    startAgain s w unit kind = .go (takeQueued s w unit).1 (takeQueued s w unit).2 := by
  obtain ⟨-, -, turn, noWait, first, -⟩ := h
  simp [startAgain_firstSent _ _ first, startWork, turn, noWait]

/-! The report (R267). -/

/-- A report that joins those of a context, whatever its work order changed of that context's tensors before. -/
theorem ranWork_addDone {s u : State} {w : WoHdr} {unit : Nat} {outs : List Nat} {d : WoDone}
    (only : OnlyCtx w.ctx (takeQueued s w unit).1 u) (hw : d.w = (takeQueued s w unit).2)
    (done : (getCtx u w.ctx).done = (getCtx s w.ctx).done)
    (tensors : ∀ tid, tid ∉ outs → (getCtx u w.ctx).tensors.find tid = (getCtx s w.ctx).tensors.find tid) :
    ranWork w unit d.kind d.status outs s (addDone u d) := by
  have hctx : d.w.ctx = w.ctx := by rw [hw, takeQueued_ctx]
  have own : getCtx (addDone u d) w.ctx = { getCtx u w.ctx with done := (getCtx s w.ctx).done ++ [d] } := by
    rw [← hctx, getCtx_addDone, hctx, done]
  have all : OnlyCtx w.ctx (takeQueued s w unit).1 (addDone u d) := by
    rw [addDone, hctx]
    exact only.modCtx _
  obtain ⟨q, r, taken⟩ := takeQueued_only s w unit
  refine ⟨⟨d, by rw [own], hw, rfl, rfl⟩, fun tid ht => by rw [own]; exact tensors tid ht,
    fun m hm => (all.others m hm).trans (getCtx_takeQueued ..), by rw [all.rest], ?_⟩
  rw [all.rest, taken]

/-- What changes of the context after the report, its reports and tensors apart, leaves the work order run as it has. -/
theorem ranWork_putCtx {s t : State} {w : WoHdr} {unit kind status : Nat} {outs : List Nat} {c : Ctx} (h : ranWork w unit kind status outs s t)
    (done : c.done = (getCtx t w.ctx).done) (tensors : c.tensors = (getCtx t w.ctx).tensors) :
    ranWork w unit kind status outs s (putCtx t w.ctx c) := by
  obtain ⟨report, kept, others, queues, rest⟩ := h
  refine ⟨?_, ?_, fun m hm => (getCtx_putCtx_ne t hm c).trans (others m hm), queues, by rw [rest]; rfl⟩
  · rwa [getCtx_putCtx, done]
  · rwa [getCtx_putCtx, tensors]

/-- Outside a forward pass of an attempt nothing is pushed on the activation stack (R132). -/
theorem pushOuts_outside {s : State} {w : WoHdr} (h : w.phase ≠ 0 ∨ (getCtx s w.ctx).attempt = none) (outs : List Nat) : pushOuts s w outs = s := by
  have push (tid : Nat) : pushFrame s w tid = s := by
    unfold pushFrame
    dsimp only
    split
    · rw [if_neg]
      rintro ⟨attempt, phase, -⟩
      rcases h with h | h
      · exact h phase
      · simp [h] at attempt
    · rfl
  induction outs with
  | nil => rfl
  | cons tid outs ih => rw [pushOuts, List.foldl_cons, push]; exact ih

/-! The bytes of tensors. -/

theorem Mem.length_readBytes (m : Mem) (a n : Nat) : (m.readBytes a n).length = n := by
  induction n generalizing a with
  | zero => rfl
  | succ n ih => rw [readBytes, List.length_cons, ih]

theorem Mem.getElem?_readBytes (m : Mem) {n k : Nat} (h : k < n) (a : Nat) : (m.readBytes a n)[k]? = some (m.readByte (a + k)) := by
  induction n generalizing a k with
  | zero => omega
  | succ n ih => cases k with
    | zero => rfl
    | succ k => rw [readBytes, List.getElem?_cons_succ, ih (by omega), Nat.add_right_comm, Nat.add_assoc]

/-- Bytes copied from one memory into another: those of the range are the source's, the others stay. -/
theorem Mem.readByte_copy (m src : Mem) (off from_ n k : Nat) :
    (m.writeBytes off (src.readBytes from_ n)).readByte k =
      if off ≤ k ∧ k < off + n then src.readByte (from_ + (k - off)) else m.readByte k := by
  by_cases lo : off ≤ k
  · rw [readByte_writeBytes _ _ _ _ lo]
    by_cases hi : k < off + n
    · rw [getElem?_readBytes _ (by omega), if_pos ⟨lo, hi⟩]; rfl
    · rw [List.getElem?_eq_none (by rw [length_readBytes]; omega), if_neg (by omega)]; rfl
  · rw [readByte_writeBytes_lt _ _ _ _ (by omega), if_neg (by omega)]

theorem SMap.find_put_ne {α : Type} [DecidableEq α] (d : α) {j k : Nat} (h : j ≠ k) (v : α) (m : SMap α) : find j (put d k v m) = find j m := by
  unfold put
  split
  · exact find_erase_ne h m
  · exact find_insert_ne h v m

/-- A stored tensor has the codes it was stored with. The empty one is not listed: a record's empty tensor has no codes either. -/
theorem codes_open_putTensor (c : Ctx) (tid : Nat) (t : Tensor) : ((c.putTensor tid t).open_ tid).codes = t.codes := by
  unfold Ctx.open_ Ctx.putTensor SMap.put
  by_cases empty : t = {}
  · rw [if_pos empty, SMap.find_erase_same, empty]
    dsimp only
    split <;> rfl
  · rw [if_neg empty, SMap.find_insert_same]

theorem find_putTensor_of_notMem (c : Ctx) {tid j : Nat} (t : Tensor) (h : j ∉ [tid]) : (c.putTensor tid t).tensors.find j = c.tensors.find j :=
  SMap.find_put_ne _ (by simpa using h) _ _

end Sys2Proof.Machine
end

section
/-! O44: movements between tensors and with the transfer window, MX import and export (R45, R47, R98, R266, R363). -/

namespace Sys2Proof.Machine

/-! The values that move. -/

theorem codes_foldl {α : Type} {f : Tensor → α → Tensor} (keeps : ∀ t x, (f t x).codes = t.codes) (l : List α) (t : Tensor) :
    (l.foldl f t).codes = t.codes := by
  induction l generalizing t with
  | nil => rfl
  | cons x l ih => rw [List.foldl_cons, ih, keeps]

/-- Scales, tags and their writers move apart from the codes. -/
theorem moveScales_codes (src dst : Tensor) (soff doff n : Nat) : (moveScales src dst soff doff n).codes = dst.codes := by
  unfold moveScales
  dsimp only
  split
  · rfl
  · rw [codes_foldl]; intros; rfl
  · rw [codes_foldl]; intros; rfl
  · rfl

/-- A movement between tensors stores one tensor. -/
theorem moveTensor_only (c : Ctx) (a : MvArgs) : ∃ t, moveTensor c a = c.putTensor a.dst t ∧
    t.codes = (c.open_ a.dst).codes.writeBytes a.dstOff (tensorBytes (c.open_ a.src) a.srcOff a.len) := by
  refine ⟨_, rfl, ?_⟩
  split <;> exact moveScales_codes ..

/-- Bytes from outside store one tensor. -/
theorem moveIn_only (c : Ctx) (tid off : Nat) (data : List Byte) :
    ∃ t, moveIn c tid off data = c.putTensor tid t ∧ t.codes = (c.open_ tid).codes.writeBytes off data := ⟨_, rfl, rfl⟩

/-- An MX import stores one tensor and reports OK. -/
theorem mxInto_only (c : Ctx) (w : WoHdr) (a : MvArgs) (x : MxArgs) (data : List Byte) :
    ∃ t n, mxInto c w a x data = (c.putTensor a.dst t, { w := w, kind := 3, always := true, c0 := n }) := by
  unfold mxInto
  dsimp only
  split <;> exact ⟨_, _, rfl⟩

/-! Window transfers. -/

section
variable {s : State} {w : WoHdr} {b : BufRef}

theorem startMoveIn_up {a : MvArgs} (k : XferKind) (mx : Bool) (hb : windowRef (getCtx s w.ctx) a.srcOff a.len true = some b)
    (up : qpUp s b.qp = true) : startMoveIn s w a k mx = startRead s b k := by simp [startMoveIn, hb, up]

theorem startMoveIn_down {a : MvArgs} (k : XferKind) (mx : Bool)
    (down : ∀ b, windowRef (getCtx s w.ctx) a.srcOff a.len true = some b → qpUp s b.qp = false) :
    startMoveIn s w a k mx = moveFailed s w mx := by
  unfold startMoveIn
  split
  · next b hb => simp [down b hb]
  · rfl

theorem startMoveOut_up {off : Nat} {data : List Byte} (mx : Bool) (hb : windowRef (getCtx s w.ctx) off data.length false = some b)
    (up : qpUp s b.qp = true) : startMoveOut s w off data mx = startWrite s b data (.moveOut w) := by simp [startMoveOut, hb, up]

end

/-- A failed movement of a training context reports FAILED and stops the context's work (R365). -/
theorem moveFailed_training {s : State} {w : WoHdr} (mx : Bool) (training : simCtx s w.ctx = false) :
    moveFailed s w mx = hitTraining (addDone s { w := w, kind := 3, status := 0x20, always := mx }) w.ctx cHostIo := by
  simp [moveFailed, training]

/-- Outside an attempt a fault fails the pass (R223, R316). -/
theorem hitTraining_pass {s : State} {n : Nat} {e : EvalRun} (code : Nat) (noAttempt : (getCtx s n).attempt = none)
    (pass : (getCtx s n).evalRun = some e) :
    hitTraining s n code = putCtx s n { getCtx s n with evalRun := some { e with failed := true } } := by simp [hitTraining, noAttempt, pass]

/-- Live work outside an attempt belongs to a pass. -/
theorem evalRun_of_mayWork {s : State} {w : WoHdr} (live : mayWork s w = true) (noAttempt : (getCtx s w.ctx).attempt = none) :
    ∃ e, (getCtx s w.ctx).evalRun = some e := by
  cases he : (getCtx s w.ctx).evalRun with
  | some e => exact ⟨e, rfl⟩
  | none => simp [mayWork, workLive, noAttempt, he] at live

/-! Ready movements. -/

section
variable {s : State} {w : WoHdr} {a : MvArgs} (ready : readyWork s w 3)
include ready

theorem moveStart_ready (go : State → WoHdr → State) : moveStart w s go = go (takeQueued s w 3).1 (takeQueued s w 3).2 := by
  have start := startAgain_ready 3 ready
  obtain ⟨live, power, -⟩ := ready
  simp [moveStart, live, power, start]

/-- Ready work pushes no stack copy, whatever its context's reports and tensors have become. -/
theorem pushOuts_ready {u : State} (same : (getCtx u w.ctx).attempt = (getCtx s w.ctx).attempt) (outs : List Nat) :
    pushOuts u (takeQueued s w 3).2 outs = u := by
  obtain ⟨-, -, -, -, -, -, -, noCopy⟩ := ready
  apply pushOuts_outside
  rwa [takeQueued_phase, takeQueued_ctx, same]

end

/-- A refused movement reports its status and does nothing else. -/
theorem ranWork_refused (s : State) (w : WoHdr) (status : Nat) (mx : Bool) :
    ranWork w 3 3 status [] s (addDone (takeQueued s w 3).1 { w := (takeQueued s w 3).2, kind := 3, status := status, always := mx }) :=
  ranWork_addDone (.refl _ _) rfl (by rw [getCtx_takeQueued]) (fun tid _ => by rw [getCtx_takeQueued])

/-- A movement of a pass that fails reports FAILED, and its pass has failed. -/
theorem ranWork_moveFailed {s : State} {w : WoHdr} {e : EvalRun} (mx : Bool) (training : simCtx s w.ctx = false)
    (noAttempt : (getCtx s w.ctx).attempt = none) (pass : (getCtx s w.ctx).evalRun = some e) :
    let t := moveFailed (takeQueued s w 3).1 (takeQueued s w 3).2 mx
    ranWork w 3 3 0x20 [] s t ∧ (getCtx t w.ctx).evalRun = some { e with failed := true } := by
  have training' : simCtx (takeQueued s w 3).1 (takeQueued s w 3).2.ctx = false := by rwa [simCtx, takeQueued_ctx, getCtx_takeQueued]
  have own := getCtx_addDone (takeQueued s w 3).1 { w := (takeQueued s w 3).2, kind := 3, status := 0x20, always := mx }
  simp only [takeQueued_ctx, getCtx_takeQueued] at own
  rw [moveFailed_training mx training', takeQueued_ctx,
    hitTraining_pass cHostIo ((congrArg Ctx.attempt own).trans noAttempt) ((congrArg Ctx.evalRun own).trans pass)]
  exact ⟨ranWork_putCtx (ranWork_refused s w 0x20 mx) rfl rfl, by rw [getCtx_putCtx]⟩

/-- A movement that stores one tensor reports OK, and what is then read of that tensor is what was stored. -/
theorem ranWork_stored {s : State} {w : WoHdr} {c : Ctx} {tid : Nat} {t : Tensor} {d : WoDone} (hc : c = (getCtx s w.ctx).putTensor tid t)
    (hw : d.w = (takeQueued s w 3).2) :
    ranWork w 3 d.kind d.status [tid] s (addDone (putCtx (takeQueued s w 3).1 w.ctx c) d) ∧
      ((getCtx (addDone (putCtx (takeQueued s w 3).1 w.ctx c) d) w.ctx).open_ tid).codes = t.codes := by
  have hctx : d.w.ctx = w.ctx := by rw [hw, takeQueued_ctx]
  subst hc
  constructor
  · refine ranWork_addDone ((OnlyCtx.refl _ _).putCtx _) hw (by rw [getCtx_putCtx]; rfl) (fun j hj => ?_)
    rw [getCtx_putCtx]; exact find_putTensor_of_notMem _ _ hj
  · rw [← hctx, getCtx_addDone, getCtx_putCtx]
    exact codes_open_putTensor ..

/-! The commands. -/

section
variable {s : State} {w : WoHdr} {a : MvArgs} (ready : readyWork s w 3)
include ready

theorem exec_movement_ready :
    let q := takeQueued s w 3
    let c := getCtx s w.ctx
    exec (.movement w a) s = .next (
      if a.src = noTid then startMoveIn q.1 q.2 a (.moveIn q.2 a.dst a.dstOff) false
      else if a.dst = noTid then startMoveOut q.1 q.2 a.dstOff (tensorBytes (c.open_ a.src) a.srcOff a.len) false
      else addDone (putCtx q.1 w.ctx (moveTensor c a)) { w := q.2, kind := 3 }) := by
  intro q c
  have attempt : (getCtx (addDone (putCtx q.1 w.ctx (moveTensor c a)) { w := q.2, kind := 3 }) w.ctx).attempt = c.attempt := by
    have own := getCtx_addDone (putCtx q.1 w.ctx (moveTensor c a)) { w := q.2, kind := 3 }
    rw [takeQueued_ctx] at own
    rw [own, getCtx_putCtx]; rfl
  have quiet := pushOuts_ready ready attempt [a.dst]
  change Host.Outcome.next (moveStart w s _) = _
  simp only [moveStart_ready ready, modCtx, takeQueued_ctx, getCtx_takeQueued]
  rw [quiet]

theorem exec_mxImport_ready (x : MxArgs) :
    let q := takeQueued s w 3
    let r := mxInto (getCtx s w.ctx) q.2 a x (tensorBytes ((getCtx s w.ctx).open_ a.src) a.srcOff a.len)
    exec (.mxImport w a x) s = .next (
      if mxStatus x ≠ 0 then addDone q.1 { w := q.2, kind := 3, status := mxStatus x, always := true }
      else if a.src = noTid then startMoveIn q.1 q.2 a (.mxIn q.2 a x) true
      else addDone (putCtx q.1 w.ctx r.1) r.2) := by
  change Host.Outcome.next (moveStart w s _) = _
  simp only [moveStart_ready ready, mxInDone, takeQueued_ctx, getCtx_takeQueued, if_true]

theorem exec_mxExport_ready (x : MxArgs) :
    let q := takeQueued s w 3
    let c := getCtx s w.ctx
    let r := mxStream (c.open_ a.src) a x
    exec (.mxExport w a x) s = .next (
      if mxStatus x ≠ 0 then addDone q.1 { w := q.2, kind := 3, status := mxStatus x, always := true }
      else if r.1 ≠ 0 then addDone q.1 { w := q.2, kind := 3, status := r.1, always := true }
      else if a.dst = noTid then startMoveOut q.1 q.2 a.dstOff r.2 true
      else addDone (putCtx q.1 w.ctx (moveIn c a.dst a.dstOff r.2)) { w := q.2, kind := 3, always := true }) := by
  change Host.Outcome.next (moveStart w s _) = _
  simp only [moveStart_ready ready, modCtx, takeQueued_ctx, getCtx_takeQueued]

end

/-- Settles O44: a ready movement leaves its queue and comes to one of four ends. It stores one tensor, it begins a transfer at the window's
place, it fails with its pass, or it is refused. -/
theorem movementsRun : Obligations.MovementsRun := by
  intro w a s ready c q
  have window : getCtx q.1 q.2.ctx = c := by rw [takeQueued_ctx, getCtx_takeQueued]
  have pairUp (n : Nat) : qpUp q.1 n = qpUp s n := qpUp_takeQueued ..
  have movement := exec_movement_ready (a := a) ready
  have mxImport := exec_mxImport_ready (a := a) ready
  have mxExport := exec_mxExport_ready (a := a) ready
  refine ⟨fun src dst => ?between, fun b src hb up => ⟨?readIn, fun x ok => ?mxReadIn⟩, fun b src dst hb up => ?writeOut,
    fun b x ok formed dst up hb => ?mxWriteOut, fun src down noAttempt training => ?fails, fun x bad => ⟨?importRefused, ?exportRefused⟩,
    fun x ok src => ?imports, fun x ok dst formed => ?exports, fun x ok bad => ?unformed⟩
  case between =>
    obtain ⟨t, stored, codes⟩ := moveTensor_only c a
    obtain ⟨ran, landed⟩ := ranWork_stored (d := { w := q.2, kind := 3 }) stored rfl
    refine ⟨_, by rw [movement, if_neg src, if_neg dst], ran, fun k => ?_⟩
    rw [landed, codes]
    exact Mem.readByte_copy ..
  case readIn => rw [movement, if_pos src, startMoveIn_up _ _ (window ▸ hb) ((pairUp _).trans up)]
  case mxReadIn => rw [mxImport, if_neg (not_not_intro ok), if_pos src, startMoveIn_up _ _ (window ▸ hb) ((pairUp _).trans up)]
  case writeOut =>
    rw [movement, if_neg src, if_pos dst, startMoveOut_up _ _ ((pairUp _).trans up)]
    rw [tensorBytes, Mem.length_readBytes]
    exact window ▸ hb
  case mxWriteOut =>
    rw [mxExport, if_neg (not_not_intro ok), if_neg (not_not_intro formed), if_pos dst, startMoveOut_up _ (window ▸ hb) ((pairUp _).trans up)]
  case fails =>
    obtain ⟨live, -⟩ := ready
    obtain ⟨e, pass⟩ := evalRun_of_mayWork live noAttempt
    obtain ⟨ran, failed⟩ := ranWork_moveFailed false training noAttempt pass
    refine ⟨_, by rw [movement, if_pos src, startMoveIn_down _ _ (fun b hb => (pairUp _).trans (down b (window ▸ hb)))], ran, ?_⟩
    rw [failed, pass]; rfl
  case importRefused => exact ⟨_, by rw [mxImport, if_pos bad], ranWork_refused ..⟩
  case exportRefused => exact ⟨_, by rw [mxExport, if_pos bad], ranWork_refused ..⟩
  case imports =>
    obtain ⟨t, n, stored⟩ := mxInto_only c q.2 a x (tensorBytes (c.open_ a.src) a.srcOff a.len)
    refine ⟨_, by rw [mxImport, if_neg (not_not_intro ok), if_neg src], ?_⟩
    rw [stored]
    exact (ranWork_stored rfl rfl).1
  case exports =>
    obtain ⟨t, stored, codes⟩ := moveIn_only c a.dst a.dstOff (mxStream (c.open_ a.src) a x).2
    obtain ⟨ran, landed⟩ := ranWork_stored (d := { w := q.2, kind := 3, always := true }) stored rfl
    refine ⟨_, by rw [mxExport, if_neg (not_not_intro ok), if_neg (not_not_intro formed), if_neg dst], ran, fun k hk => ?_⟩
    rw [landed, codes, Mem.readByte_writeBytes _ _ _ _ (by omega), Nat.add_sub_cancel_left, List.getD_eq_getElem?_getD,
      List.getElem?_eq_getElem hk]
    rfl
  case unformed => exact ⟨_, by rw [mxExport, if_neg (not_not_intro ok), if_pos bad], ranWork_refused ..⟩

end Sys2Proof.Machine
end

section
/-! O8: reading a register, its latched high word, the pages of the map (R72, R427, R428). -/

namespace Sys2Proof.Machine

/-! The map (R427). -/

theorem hubPage_base {n : Nat} {p : Page} (h : hubPage n = some p) : p.base = n * 0x1000 := by
  unfold hubPage at h
  split at h
  case h_21 =>
    split at h
    · cases h; simp only [pgLink]; split <;> omega
    · split at h
      · cases h; simp only [pgLink]; split <;> omega
      · cases h
  all_goals (cases h; rfl)

theorem hallPage_base {h off : Nat} {p : Page} (hall : h < 8) (hp : hallPage h off = some p) : p.base = hallBase h + off / 0x1000 * 0x1000 := by
  unfold hallPage at hp
  dsimp only at hp
  split at hp
  · cases hp; simp only [pgAisle, aisleBase]; omega
  split at hp
  · cases hp; simp only [pgFArray, aisleBase]; omega
  split at hp
  · cases hp; simp only [pgLanding, aisleBase]; omega
  split at hp
  · cases hp; simp only [pgBArray, aisleBase]; omega
  split at hp
  · cases hp
  have low : off < 0x100000 := by omega
  split at hp
  case _ w => cases hp; simp only [pgPeg]; omega
  case _ w => cases hp; simp only [pgStack]; omega
  case _ w => cases hp; simp only [pgUpdate]; omega
  case _ w => cases hp; simp only [pgMemory]; omega
  case _ w => cases hp; simp only [pgMonitor, if_neg (show h ≠ 8 by omega), if_neg (show h ≠ 9 by omega)]; omega
  case _ => cases hp

theorem pageOf_base {a : Nat} {p : Page} (h : pageOf a = some p) : p.base = a / 0x1000 * 0x1000 := by
  unfold pageOf at h
  split at h
  · exact hubPage_base h
  · split at h
    · rw [hallPage_base (by omega) h, hallBase]; omega
    · cases h

theorem hallPage_congr (h : Nat) {a b : Nat} (same : a / 0x1000 = b / 0x1000) : hallPage h a = hallPage h b := by
  have aisle : a / 0x100000 = b / 0x100000 := by omega
  have within : a % 0x100000 / 0x1000 = b % 0x100000 / 0x1000 := by omega
  have block (lo : Nat) : (a % 0x100000 < lo * 0x1000 ↔ b % 0x100000 < lo * 0x1000) ∧ (lo * 0x1000 ≤ a % 0x100000 ↔ lo * 0x1000 ≤ b % 0x100000) ∧
      (a % 0x100000 - lo * 0x1000) / 0x1000 = (b % 0x100000 - lo * 0x1000) / 0x1000 := by omega
  simp only [hallPage, aisle, within, block 0x1, block 0x10, block 0x54, block 0x60, block 0xA4, block 0xB0, block 0xF4]

theorem pageOf_congr {a b : Nat} (same : a / 0x1000 = b / 0x1000) : pageOf a = pageOf b := by
  have hub : a < 0x08000000 ↔ b < 0x08000000 := by omega
  have hall : a < 0x10000000 ↔ b < 0x10000000 := by omega
  simp only [pageOf, hub, hall, same, show (a - 0x08000000) / 0x1000000 = (b - 0x08000000) / 0x1000000 by omega,
    hallPage_congr _ (show (a - 0x08000000) % 0x1000000 / 0x1000 = (b - 0x08000000) % 0x1000000 / 0x1000 by omega)]

/-! Reading (R72, R428). -/

/-- A register away from the host port's page: dispatch leaves it. -/
def offPort (p : Page) (off : Nat) : Prop := p.base + off < pgHost.base ∨ pgHost.base + 0x1000 ≤ p.base + off

theorem offPort.ne {p : Page} {off o : Nat} (h : offPort p off) (ho : o < 0x1000) : p.base + off ≠ pgHost.base + o := by
  rcases h with h | h <;> omega

theorem bumpWrap_regGet (s : State) (p q : Page) (o u n : Nat) (h : q.base + u ≠ p.base + o) : regGet (bumpWrap s p o n) q u = regGet s q u := by
  unfold bumpWrap
  split
  · rfl
  · exact regGet_regSet_ne _ _ _ _ _ _ h

section
variable {p : Page} {off : Nat} (away : offPort p off)
include away

theorem setErr_port_regGet (s : State) (i : Nat) : regGet (setErr s pgHost i) p off = regGet s p off :=
  setErr_regGet s pgHost p i off (away.ne (by decide)) (away.ne (by decide)) (away.ne (by decide)) (away.ne (by decide))

theorem logFault_port_regGet (s : State) (f : FaultRec) : regGet (logFault s f) p off = regGet s p off :=
  logFault_regGet s f p off (away.ne (by decide)) (away.ne (by decide))

theorem noteLatency_regGet (s : State) (h : Hdr) (n : Nat) : regGet (noteLatency s h n) p off = regGet s p off := by
  have kept : regGet (keepMax (regSet s pgHost Reg.HP_P0_LAST_NS (min h.lat 0xFFFFFFFF)) pgHost Reg.HP_P0_MAX_NS h.lat) p off = regGet s p off := by
    rw [keepMax, regGet_regSet_ne _ _ _ _ _ _ (away.ne (by decide)), regGet_regSet_ne _ _ _ _ _ _ (away.ne (by decide))]
  unfold noteLatency
  split
  · rfl
  · dsimp only
    split
    · rw [logFault_port_regGet away, setErr_port_regGet away, kept]
    · exact kept

end

/-- The session window lets a command that is taken up run. -/
theorem sessionGate_taken {h : Hdr} {s : State} (ht : taken h s = true) :
    ∃ z, sessionGate h s = .run { s with host := { s.host with sessions := z } } := by
  unfold taken at ht
  cases hx : s.host.sessions.find h.session with
  | none => simp [hx] at ht
  | some x =>
    simp only [hx, Bool.and_eq_true, Bool.not_eq_true', decide_eq_true_eq, bne_iff_ne, ne_eq] at ht
    obtain ⟨-, ⟨⟨⟨unanswered, notOpen⟩, inWindow⟩, numbered⟩, room⟩ := ht
    have notOpen : h.seq ∉ x.open_ := by simpa using notOpen
    have noAnswer : x.answers.find? (fun r => r.seq == h.seq) = none := by simpa using unanswered
    exact ⟨s.host.sessions.insert h.session { x with open_ := x.open_ ++ [h.seq] }, by
      simp [sessionGate, hx, noAnswer, notOpen, numbered, show ¬ h.seq + 64 ≤ x.high by omega, show ¬ 64 ≤ x.open_.length by omega]⟩

/-- A command that is taken up runs on a state of the same registers, the host port's apart. -/
theorem viaSession_taken_regs {h : Hdr} {s : State} (n : Nat) (f : State → Origin → State) (ht : taken h s = true) :
    ∃ u, portOnly s u ∧ (∀ p off, offPort p off → regGet u p off = regGet s p off) ∧ viaSession h n s f = f u (originOf h) := by
  obtain ⟨z, gate⟩ := sessionGate_taken ht
  simp only [taken, Bool.and_eq_true] at ht
  obtain ⟨⟨⟨up, port⟩, fromAllowed⟩, -⟩ := ht
  have counted : portOnly s (noteLatency (countCmd { s with host := { s.host with sessions := z } }) h n) :=
    portOnly_trans ⟨s.regs, s.ec, z, s.host.devRings, rfl⟩ (portOnly_count ..)
  have same {p : Page} {off : Nat} (away : offPort p off) :
      regGet (noteLatency (countCmd { s with host := { s.host with sessions := z } }) h n) p off = regGet s p off := by
    rw [noteLatency_regGet away, countCmd, bumpWrap_regGet _ _ _ _ _ _ (away.ne (by decide))]; rfl
  unfold viaSession
  simp only [up, port, fromAllowed, gate, Bool.not_true, Bool.or_self, Bool.false_eq_true, if_false]
  split
  · exact ⟨_, portOnly_trans counted (portOnly_arrival ..), fun p off away => (logFault_port_regGet away ..).trans (same away), rfl⟩
  · exact ⟨_, counted, fun p off away => same away, rfl⟩

/-- A hub's register whose word the block does not compute reads as it stands, and the read leaves nothing behind (R428). -/
theorem readWord_stored {p : Page} {off : Nat} (u : State) (page : pageOf (p.base + off) = some p) (body : 0x80 ≤ off) (hub : onHub p = true)
    (notGauge : p.kind ≠ 0x10) (low : latches p.kind off = false) (high : latches p.kind (off - 4) = false)
    (stored : blockView u p off = none) : readWord u (p.base + off) = (regGet u p off % 2 ^ 32, u) := by
  have notStack : p.kind ≠ 0x35 := by have := (onHub_iff p).mp hub; omega
  simp [readWord, page, touch_hub u hub, readsFree, notGauge, notStack, latchHigh, low, fetchHist, readValue, high, regView,
    show ¬ off < 0x80 by omega, stored]

/-- A read of a low word leaves the high word latched (R72). -/
theorem readWord_low {p : Page} {off : Nat} (s : State) (page : pageOf (p.base + off) = some p) (hub : onHub p = true)
    (notGauge : p.kind ≠ 0x10) (low : latches p.kind off = true) :
    (readWord s (p.base + off)).2 =
      { s with regs := { s.regs with latch := s.regs.latch.insert (p.base + off + 4) (regView s p (off + 4) % 2 ^ 32) } } := by
  have notStack : p.kind ≠ 0x35 := by have := (onHub_iff p).mp hub; omega
  simp [readWord, page, touch_hub s hub, readsFree, notGauge, notStack, latchHigh, low, fetchHist]

/-- Settles O8: a read of a stored word answers it from a state whose registers are as they were, the read of a low word latches the high
one, and the pages of the map tile it. -/
theorem registersReadAndPaged : Obligations.RegistersReadAndPaged := by
  refine ⟨?read, ?latch, ?tiled⟩
  case read =>
    intro h p off s ht page aligned body hub _ notGauge low high stored away
    obtain ⟨u, port, same, runs⟩ := viaSession_taken_regs 6 (fun t o => runCmd t o h.ctx (.regRead (p.base + off) 1)) ht
    have word := readWord_stored u page body hub notGauge low high (stored u)
    have mapped : rangeOk (p.base + off) 1 = true := by simp [rangeOk, aligned, page]
    have answered : doRegRead u (originOf h) (p.base + off) 1 = respond u (originOf h) stOk (natLe (regGet s p off % 2 ^ 32) 4) := by
      simp [doRegRead, originOf, Origin.onRing, mapped, readWords, word, same p off away]
    exact ⟨_, congrArg Host.Outcome.next (runs.trans answered), dispatched_respond h _ _ port⟩
  case latch =>
    intro p off s up page aligned hub notGauge low
    refine ⟨_, ?_, rfl, ?_⟩
    · change execLatchHighWord _ s = _
      rw [execLatchHighWord, if_pos ⟨up, aligned⟩, readWord_low s page hub notGauge low]
    · simp [readValue, low, ← Nat.add_assoc]
  case tiled =>
    intro a p h
    have base := pageOf_base h
    exact ⟨by omega, by omega, by omega, fun off ho => (pageOf_congr (by omega)).trans h⟩

end Sys2Proof.Machine
end

section
/-! SUPPORT of O43. A ready work order of any unit runs to its report, and what that leaves alone of the registers (R7, R72, R104, R127, R267). -/

namespace Sys2Proof.Machine

/-! The start. -/

/-- Without a CLOSE update under way no gauge is awaited (R108). -/
theorem awaitGauges_idle {s : State} {w : WoHdr} (idle : (getCtx s w.ctx).closing = []) (outs : List Nat) : awaitGauges s w outs = s := by
  have await (g : Nat) : awaitGauge s w.ctx g = s := by simp [awaitGauge, idle]
  have all (l : List Nat) : l.foldl (fun s g => awaitGauge s w.ctx g) s = s := by
    induction l with
    | nil => rfl
    | cons g l ih => rw [List.foldl_cons, await, ih]
  unfold awaitGauges
  dsimp only
  split
  · rfl
  · exact all _

@[simp] theorem takeQueued_regs (s : State) (w : WoHdr) (unit : Nat) : (takeQueued s w unit).1.regs = s.regs := by
  obtain ⟨q, r, h⟩ := takeQueued_only s w unit; rw [h]

@[simp] theorem memberGal_takeQueued (s : State) (w : WoHdr) (unit : Nat) :
    memberGal (takeQueued s w unit).1 (takeQueued s w unit).2 = memberGal s w := by
  obtain ⟨q, r, h⟩ := takeQueued_only s w unit
  obtain ⟨p, hp⟩ := takeQueued_header s w unit
  rw [h, hp]; rfl

theorem memberGal_congr {s t : State} (h : t.gals = s.gals) (w : WoHdr) : memberGal t w = memberGal s w := by
  simp [memberGal, galAt, getGal, h]

/-! The run. -/

/-- A context from whose list of stopped work orders a work order has been struck. -/
def Ctx.dropReexec (c : Ctx) (w : WoHdr) : Ctx := { c with reexec := c.reexec.filter (fun e => e.1 != w) }

theorem dropReexec_firstSent {s : State} {w : WoHdr} (first : firstSent s w) : (getCtx s w.ctx).dropReexec w = getCtx s w.ctx := by
  obtain ⟨-, notStopped⟩ := first
  have kept : (getCtx s w.ctx).reexec.filter (fun e => e.1 != w) = (getCtx s w.ctx).reexec :=
    List.filter_eq_self.mpr (fun e he => by simpa using notStopped e he)
  rw [Ctx.dropReexec, kept]

/-- What a ready work order's run leaves: its landing unit's count, its context's new contents, its report. -/
theorem runWork_ready {s : State} {w : WoHdr} {unit : Nat} (kind : Nat) (reads : Ctx → List ReadSet) (outs : List Nat) {f : WorkFn} {c : Ctx}
    {d : WoDone} (ready : readyWork s w unit) (run : f (getCtx s w.ctx) (takeQueued s w unit).2 = (c, d)) (hw : d.w = (takeQueued s w unit).2)
    (attempt : (getCtx s w.ctx).attempt = none → c.attempt = none) :
    ∃ u, OnlyCtx w.ctx (takeQueued s w unit).1 u ∧ runWork unit kind reads outs f w s =
      addDone (putCtx (if d.elems = 0 then u else bump64 u (landPg (memberGal s w)) Reg.LD_ELEMS_LO d.elems) w.ctx c) d := by
  have start := startAgain_ready kind ready
  obtain ⟨live, power, -, -, first, idle, noTags, noCopy⟩ := ready
  have awaited : awaitGauges (takeQueued s w unit).1 (takeQueued s w unit).2 outs = (takeQueued s w unit).1 :=
    awaitGauges_idle (by rw [takeQueued_ctx, getCtx_takeQueued, idle]) outs
  have tagsOff : fld (takeQueued s w unit).1 (landPg (memberGal s w)) Reg.LD_CTRL 0 0 = 0 := by
    rw [fld, regGet_congr (congrArg RegBank.applied (takeQueued_regs s w unit))]; exact noTags
  let u := modCtx (takeQueued s w unit).1 w.ctx (fun c => c.dropReexec w)
  have ctx : getCtx u w.ctx = getCtx s w.ctx := by
    rw [getCtx_modCtx, getCtx_takeQueued, dropReexec_firstSent first]
  refine ⟨u, (OnlyCtx.refl _ _).modCtx _, ?_⟩
  have gal : memberGal u (takeQueued s w unit).2 = memberGal s w := (memberGal_congr rfl _).trans (memberGal_takeQueued ..)
  have ran : runWork unit kind reads outs f w s = finishWork u (takeQueued s w unit).2 outs (f (getCtx u w.ctx) (takeQueued s w unit).2) := by
    simp only [runWork, live, power, start, awaited, tagsOff, memberGal_takeQueued, takeQueued_ctx, Bool.not_true, Bool.false_eq_true, if_false,
      Nat.reduceBEq]
    rfl
  have copyOff (v : State) : (getCtx (addDone (putCtx v w.ctx c) d) w.ctx).attempt = c.attempt := by
    rw [addDone, hw, takeQueued_ctx, getCtx_modCtx, getCtx_putCtx]
  rw [ran, ctx, run, finishWork, gal, takeQueued_ctx]
  exact pushOuts_outside (by rw [takeQueued_phase, takeQueued_ctx, copyOff]; exact noCopy.imp_right attempt) outs

/-! Registers that an operation leaves. -/

theorem bump64_regGet (s : State) (p q : Page) (lo u n : Nat) (h : q.base + u ≠ p.base + lo) (h4 : q.base + u ≠ p.base + (lo + 4)) :
    regGet (bump64 s p lo n) q u = regGet s q u := by
  unfold bump64
  split
  · rfl
  · rw [regGet_regSet_ne _ _ _ _ _ _ h4, regGet_regSet_ne _ _ _ _ _ _ h]

/-! What a step may add to a run: records, and the parts of the context that are neither its tensors nor its reports. -/

theorem recorded.refl (s : State) : recorded s s := rfl

theorem recorded.trans {s t u : State} (h : recorded s t) (k : recorded t u) : recorded s u := by
  unfold recorded at *
  rw [k, h]

theorem recorded_regs (s : State) (r : RegBank) : recorded s { s with regs := r } := rfl

theorem bump64_recorded (s : State) (p : Page) (lo n : Nat) : recorded s (bump64 s p lo n) := by
  obtain ⟨r, h⟩ := bump64_only s p lo n; rw [h]; rfl

theorem bumpWrap_recorded (s : State) (p : Page) (o n : Nat) : recorded s (bumpWrap s p o n) := by
  obtain ⟨r, h⟩ := bumpWrap_only s p o n; rw [h]; rfl

theorem setErr_recorded (s : State) (p : Page) (i : Nat) : recorded s (setErr s p i) := by
  obtain ⟨r, e, d, h⟩ := setErr_only s p i; rw [h]; rfl

theorem recorded.ctxs {s t : State} (h : recorded s t) : t.ctxs = s.ctxs := by rw [h]

theorem recorded.gals {s t : State} (h : recorded s t) : t.gals = s.gals := by rw [h]

theorem recorded.addDone {s t : State} (h : recorded s t) (d : WoDone) : recorded (addDone s d) (addDone t d) := by
  unfold recorded at *
  rw [h]
  rfl

theorem ranWork_recorded {s t u : State} {w : WoHdr} {unit kind status : Nat} {outs : List Nat} (h : ranWork w unit kind status outs s t)
    (k : recorded t u) : ranWork w unit kind status outs s u := by
  obtain ⟨report, kept, others, queues, rest⟩ := h
  have ctx (n : Nat) : getCtx u n = getCtx t n := getCtx_congr k.ctxs n
  exact ⟨by rwa [ctx], by rwa [ctx], fun m hm => (ctx m).trans (others m hm), by rw [k]; exact queues, by rw [k, rest]⟩

/-- A result that lands in one tensor of its context: it reports OK under the work order's header. -/
structure LandsIn (y kind : Nat) (c : Ctx) (w : WoHdr) (r : Ctx × WoDone) : Prop where
  header : r.2.w = w
  kind : r.2.kind = kind
  status : r.2.status = 0
  done : r.1.done = c.done
  attempt : c.attempt = none → r.1.attempt = none
  tensors : ∀ tid, tid ∉ [y] → r.1.tensors.find tid = c.tensors.find tid

/-- A ready work order whose result lands in one tensor runs and reports OK; of the registers only the count of its landing unit changes. -/
theorem runWork_ran {s : State} {w : WoHdr} {unit kind y : Nat} (reads : Ctx → List ReadSet) {f : WorkFn} (ready : readyWork s w unit)
    (lands : LandsIn y kind (getCtx s w.ctx) (takeQueued s w unit).2 (f (getCtx s w.ctx) (takeQueued s w unit).2)) :
    let r := f (getCtx s w.ctx) (takeQueued s w unit).2
    let t := runWork unit kind reads [y] f w s
    ranWork w unit kind 0 [y] s t ∧ (getCtx t w.ctx).tensors = r.1.tensors ∧
      ∀ (p : Page) o, p.base + o ≠ (landPg (memberGal s w)).base + Reg.LD_ELEMS_LO → p.base + o ≠ (landPg (memberGal s w)).base + (Reg.LD_ELEMS_LO + 4) →
        regGet t p o = regGet s p o := by
  intro r t
  obtain ⟨hw, hk, hs, done, attempt, tensors⟩ := lands
  obtain ⟨u, only, ran⟩ := runWork_ready (f := f) kind reads [y] ready rfl hw attempt
  have counted : ∃ b, (if r.2.elems = 0 then u else bump64 u (landPg (memberGal s w)) Reg.LD_ELEMS_LO r.2.elems) = { u with regs := b } := by
    split
    · exact ⟨u.regs, rfl⟩
    · exact bump64_only ..
  have plain : ranWork w unit kind 0 [y] s (addDone (putCtx u w.ctx r.1) r.2) := by
    rw [← hk, ← hs]
    exact ranWork_addDone (only.putCtx _) hw (by rw [getCtx_putCtx, done]) (fun tid ht => by rw [getCtx_putCtx]; exact tensors tid ht)
  refine ⟨?_, ?_, fun p o low high => ?_⟩
  · obtain ⟨b, hb⟩ := counted
    exact ranWork_recorded plain (by simp only [t, ran]; rw [hb]; exact recorded_regs _ b)
  · simp only [t, ran]
    rw [addDone, hw, takeQueued_ctx, getCtx_modCtx, getCtx_putCtx]
  · have regs : u.regs = s.regs := by rw [only.rest]; exact takeQueued_regs ..
    have same : regGet u p o = regGet s p o := regGet_congr (congrArg RegBank.applied regs) p o
    rw [← same]
    simp only [t, ran]
    change regGet (if r.2.elems = 0 then u else _) p o = _
    split
    · rfl
    · exact bump64_regGet _ _ _ _ _ _ low high

end Sys2Proof.Machine
end

section
/-! SUPPORT of O43. Codes of a byte or more in the rows of a tensor (R26). -/

namespace Sys2Proof.Machine

/-! Codes of a byte or more. -/

theorem leNat_natLe (x n : Nat) : leNat (natLe x n) = x % 256 ^ n := by
  induction n generalizing x with
  | zero => simp [natLe, leNat, Nat.mod_one]
  | succ n ih =>
    have split : 256 ^ (n + 1) = 256 * 256 ^ n := Nat.pow_succ'
    rw [natLe, leNat, ih, BitVec.toNat_ofNat, split, Nat.mod_mul]

theorem Mem.readBytes_writeBytes (m : Mem) (a : Nat) (l : List Byte) : (m.writeBytes a l).readBytes a l.length = l := by
  apply List.ext_getElem?
  intro k
  by_cases h : k < l.length
  · rw [getElem?_readBytes _ h, readByte_writeBytes _ _ _ _ (Nat.le_add_right a k), Nat.add_sub_cancel_left, List.getElem?_eq_getElem h]; rfl
  · rw [List.getElem?_eq_none (by rw [length_readBytes]; omega), List.getElem?_eq_none (by omega)]

theorem Mem.readBytes_writeBytes_apart (m : Mem) {a b n : Nat} {l : List Byte} (apart : a + n ≤ b ∨ b + l.length ≤ a) :
    (m.writeBytes b l).readBytes a n = m.readBytes a n := by
  apply List.ext_getElem?
  intro k
  by_cases h : k < n
  · rw [getElem?_readBytes _ h, getElem?_readBytes _ h]
    rcases apart with below | above
    · rw [readByte_writeBytes_lt _ _ _ _ (by omega)]
    · rw [readByte_writeBytes _ _ _ _ (by omega), List.getElem?_eq_none (by omega)]; rfl
  · rw [List.getElem?_eq_none (by rw [length_readBytes]; omega), List.getElem?_eq_none (by rw [length_readBytes]; omega)]

namespace Tensor

theorem putCode_desc (t : Tensor) (r c q : Nat) : (t.putCode r c q).desc = t.desc := by unfold putCode; dsimp only; split <;> rfl

theorem putCode_rowLen (t : Tensor) (r c q : Nat) : (t.putCode r c q).rowLen = t.rowLen := by unfold putCode; dsimp only; split <;> rfl

theorem putCode_d (t : Tensor) (r c q : Nat) : (t.putCode r c q).d = t.d := by rw [d, putCode_desc, d]

/-- The bytes of an element stand at its place in the row-major order. -/
theorem wide_offset {f : Fmt} (wide : f.perByte = 1) (n r c : Nat) : r * f.rowBytes n + c * f.bytes = (r * n + c) * f.bytes := by
  rw [Fmt.rowBytes, if_pos wide, Nat.add_mul, Nat.mul_assoc]

theorem codeAt_wide {t : Tensor} (wide : t.d.fmt.perByte = 1) (r c : Nat) :
    t.codeAt r c = leNat (t.codes.readBytes ((r * t.rowLen + c) * t.d.fmt.bytes) t.d.fmt.bytes) := by
  simp [codeAt, wide, wide_offset]

theorem putCode_codes {t : Tensor} (wide : t.d.fmt.perByte = 1) (r c q : Nat) :
    (t.putCode r c q).codes = t.codes.writeBytes ((r * t.rowLen + c) * t.d.fmt.bytes) (natLe q t.d.fmt.bytes) := by
  simp [putCode, wide, wide_offset]

theorem codeAt_putCode_same {t : Tensor} (wide : t.d.fmt.perByte = 1) (r c q : Nat) :
    (t.putCode r c q).codeAt r c = q % 256 ^ t.d.fmt.bytes := by
  have read := Mem.readBytes_writeBytes t.codes ((r * t.rowLen + c) * t.d.fmt.bytes) (natLe q t.d.fmt.bytes)
  rw [natLe_length] at read
  rw [codeAt_wide (by rw [putCode_d, wide]), putCode_d, putCode_rowLen, putCode_codes wide, read, leNat_natLe]

/-- A code put at another place of the tensor's rows leaves an element. -/
theorem codeAt_putCode_ne {t : Tensor} (wide : t.d.fmt.perByte = 1) {r c r' c' : Nat} (q : Nat) (hc : c < t.rowLen) (hc' : c' < t.rowLen)
    (h : ¬ (r' = r ∧ c' = c)) : (t.putCode r' c' q).codeAt r c = t.codeAt r c := by
  have place : r * t.rowLen + c ≠ r' * t.rowLen + c' := by
    intro e
    have row := congrArg (· / t.rowLen) e
    have col := congrArg (· % t.rowLen) e
    simp only [Nat.mul_comm _ t.rowLen, Nat.mul_add_div (Nat.zero_lt_of_lt hc), Nat.div_eq_of_lt hc, Nat.div_eq_of_lt hc', Nat.mod_eq_of_lt hc,
      Nat.mod_eq_of_lt hc', Nat.mul_add_mod] at row col
    omega
  rw [codeAt_wide (by rw [putCode_d, wide]), codeAt_wide wide, putCode_d, putCode_rowLen, putCode_codes wide]
  refine congrArg leNat (Mem.readBytes_writeBytes_apart _ ?_)
  rw [natLe_length]
  rcases Nat.lt_or_gt_of_ne place with lt | gt
  · left; simpa [Nat.add_mul] using Nat.mul_le_mul_right t.d.fmt.bytes (Nat.succ_le_of_lt lt)
  · right; simpa [Nat.add_mul] using Nat.mul_le_mul_right t.d.fmt.bytes (Nat.succ_le_of_lt gt)

/-- Cells put into a tensor in turn: each a row, a column and a code. -/
def putCells (t : Tensor) (l : List (Nat × Nat × Nat)) : Tensor := l.foldl (fun t o => t.putCode o.1 o.2.1 o.2.2) t

theorem putCells_concat (t : Tensor) (l : List (Nat × Nat × Nat)) (o : Nat × Nat × Nat) :
    t.putCells (l ++ [o]) = (t.putCells l).putCode o.1 o.2.1 o.2.2 := by simp [putCells]

theorem putCells_shape (t : Tensor) (l : List (Nat × Nat × Nat)) : (t.putCells l).desc = t.desc ∧ (t.putCells l).rowLen = t.rowLen := by
  induction l using List.reverseRecOn with
  | nil => exact ⟨rfl, rfl⟩
  | append_singleton l o ih => rw [putCells_concat, putCode_desc, putCode_rowLen]; exact ih

/-- An element at which every cell put bears one code, and some cell is, reads as that code. -/
theorem codeAt_putCells {t : Tensor} (wide : t.d.fmt.perByte = 1) {l : List (Nat × Nat × Nat)} {r c q : Nat} (cols : ∀ o ∈ l, o.2.1 < t.rowLen)
    (one : (r, c, q) ∈ l) (only : ∀ x, (r, c, x) ∈ l → x = q) : (t.putCells l).codeAt r c = q % 256 ^ t.d.fmt.bytes := by
  have hc : c < t.rowLen := cols _ one
  induction l using List.reverseRecOn with
  | nil => cases one
  | append_singleton l o ih =>
    obtain ⟨desc, rowLen⟩ := putCells_shape t l
    have d : (t.putCells l).d = t.d := by rw [Tensor.d, desc]; rfl
    rw [putCells_concat]
    by_cases here : o.1 = r ∧ o.2.1 = c
    · obtain ⟨rfl, rfl⟩ := here
      rw [codeAt_putCode_same (by rw [d, wide]), d, only o.2.2 (by simp)]
    · rw [codeAt_putCode_ne (by rw [d, wide]) _ (by rw [rowLen]; exact hc) (by rw [rowLen]; exact cols o (by simp)) here]
      refine ih (fun x hx => cols x (by simp [hx])) ?_ (fun x hx => only x (by simp [hx]))
      rcases List.mem_append.mp one with h | h
      · exact h
      · exact absurd (List.mem_singleton.mp h ▸ ⟨rfl, rfl⟩) here

end Tensor

end Sys2Proof.Machine
end

section
/-! O43, the joiner product: the elements of a kernel's tile (R244, R245). -/

namespace Sys2Proof.Machine

theorem zipIdx_map_range {α : Type} (F : Nat → α) (n : Nat) : ((List.range n).map F).zipIdx = (List.range n).map (fun i => (F i, i)) := by
  apply List.ext_getElem <;> simp

/-- The format of a kernel's product (R245). -/
def kernelFmt (a : SkArgs) : FFmt := if a.prec = 0 then .fp64 else .fp32

/-- The descriptor its product is stored under. -/
def kernelDesc (a : SkArgs) : Desc := ⟨if a.prec = 0 then .fp64 else .fp32, 3, false⟩

/-- Element (i, j) of a joiner product's tile (R244). -/
def dotCode (c : Ctx) (r : Rnd) (a : SkArgs) (i j : Nat) : Nat :=
  (joinerDot (kernelFmt a) r (nth (rowCodes (c.open_ a.a) (a.m0 + i) a.k)) (nth (colCodes (c.open_ a.b) (a.n0 + j) a.k)) a.k).1

/-- The cells of a joiner product's tile, row by row. -/
def dotCells (c : Ctx) (r : Rnd) (a : SkArgs) : List (Nat × Nat × Nat) :=
  (List.range a.m).flatMap (fun i => (List.range a.n).map (fun j => (a.m0 + i, a.n0 + j, dotCode c r a i j)))

theorem mem_dotCells {c : Ctx} {r : Rnd} {a : SkArgs} {o : Nat × Nat × Nat} :
    o ∈ dotCells c r a ↔ ∃ i, i < a.m ∧ ∃ j, j < a.n ∧ (a.m0 + i, a.n0 + j, dotCode c r a i j) = o := by simp [dotCells]

/-- The tensor that a joiner product stores. -/
def dotTensor (c : Ctx) (r : Rnd) (a : SkArgs) : Tensor := ({ c.open_ a.c with desc := (kernelDesc a).toByte } : Tensor).putCells (dotCells c r a)

theorem kernelRun_joiner (s : Nat) (c : Ctx) (w : WoHdr) (a : SkArgs) :
    ∃ x, kernelRun false s c w a = kernelReport (c.putTensor a.c (dotTensor c ((Rnd.ofCode w.rnd).getD .rne) a)) w a x := by
  unfold kernelRun dotTensor Tensor.putCells dotCells
  simp only [zipIdx_map_range, List.flatMap_map, List.foldl_flatMap, List.foldl_map, Bool.false_eq_true, if_false]
  exact ⟨_, rfl⟩

theorem kernelReport_only (c : Ctx) (w : WoHdr) (a : SkArgs) (x : KernelTile) :
    ∃ k d, kernelReport c w a x = ({ c with kernels := k }, d) ∧ d.w = w ∧ d.kind = 6 ∧ d.status = 0 := by
  unfold kernelReport
  dsimp only
  split <;> exact ⟨_, _, rfl, rfl, rfl, rfl⟩

theorem kernelDesc_shape (a : SkArgs) : Desc.ofByte (kernelDesc a).toByte = some (kernelDesc a) ∧ (kernelDesc a).toByte ≠ 0 ∧
    (kernelDesc a).fmt.perByte = 1 ∧ 256 ^ (kernelDesc a).fmt.bytes = 2 ^ (kernelFmt a).width := by
  unfold kernelDesc kernelFmt
  split <;> decide

theorem codeAt_dotTensor {c : Ctx} (r : Rnd) {a : SkArgs} (fits : a.n0 + a.n ≤ (c.open_ a.c).rowLen) {i j : Nat} (hi : i < a.m) (hj : j < a.n) :
    (dotTensor c r a).codeAt (a.m0 + i) (a.n0 + j) = dotCode c r a i j % 2 ^ (kernelFmt a).width := by
  obtain ⟨byte, -, wide, bytes⟩ := kernelDesc_shape a
  have d : ({ c.open_ a.c with desc := (kernelDesc a).toByte } : Tensor).d = kernelDesc a := by simp [Tensor.d, byte]
  have elem := Tensor.codeAt_putCells (t := { c.open_ a.c with desc := (kernelDesc a).toByte }) (by rw [d, wide]) (l := dotCells c r a)
    (r := a.m0 + i) (c := a.n0 + j) (q := dotCode c r a i j)
    (fun o ho => by obtain ⟨i', -, j', hj', rfl⟩ := mem_dotCells.mp ho; exact Nat.lt_of_lt_of_le (Nat.add_lt_add_left hj' _) fits)
    (mem_dotCells.mpr ⟨i, hi, j, hj, rfl⟩)
    (fun x hx => by
      obtain ⟨i', -, j', -, same⟩ := mem_dotCells.mp hx
      simp only [Prod.mk.injEq, Nat.add_left_cancel_iff] at same
      obtain ⟨rfl, rfl, rfl⟩ := same; rfl)
  rwa [d, bytes] at elem

theorem dotTensor_ne_empty (c : Ctx) (r : Rnd) (a : SkArgs) : dotTensor c r a ≠ {} := by
  obtain ⟨-, listed, -⟩ := kernelDesc_shape a
  intro empty
  have desc := (Tensor.putCells_shape { c.open_ a.c with desc := (kernelDesc a).toByte } (dotCells c r a)).1
  exact listed (desc.symm.trans (congrArg Tensor.desc empty))

/-- A stored tensor that is not the empty one is found as it was stored. -/
theorem open_of_putTensor {c c' : Ctx} {tid : Nat} {t : Tensor} (h : c'.tensors = (c.putTensor tid t).tensors) (full : t ≠ {}) : c'.open_ tid = t := by
  rw [Ctx.open_, h, Ctx.putTensor, SMap.put, if_neg full, SMap.find_insert_same]

/-- A ready joiner product stores its tile's dot products. -/
theorem joinerProduct_codes {w : WoHdr} {a : SkArgs} {r : Rnd} {s : State} (ready : readyWork s w 3) (ok : kernelStatus false w a = 0)
    (hr : Rnd.ofCode w.rnd = some r) (fits : a.n0 + a.n ≤ ((getCtx s w.ctx).open_ a.c).rowLen) :
    ∃ t, exec (.joinerProduct w a) s = .next t ∧ ∀ i j, i < a.m → j < a.n →
      ((getCtx t w.ctx).open_ a.c).codeAt (a.m0 + i) (a.n0 + j) = dotCode (getCtx s w.ctx) r a i j % 2 ^ (kernelFmt a).width := by
  obtain ⟨peg, header⟩ := takeQueued_header s w 3
  have rounding : (Rnd.ofCode (takeQueued s w 3).2.rnd).getD .rne = r := by rw [header, hr]; rfl
  obtain ⟨x, run⟩ := kernelRun_joiner (kernelS s w a) (getCtx s w.ctx) (takeQueued s w 3).2 a
  obtain ⟨k, d, report, hw, hk, hs⟩ := kernelReport_only ((getCtx s w.ctx).putTensor a.c (dotTensor (getCtx s w.ctx) r a)) (takeQueued s w 3).2 a x
  rw [rounding, report] at run
  have lands : LandsIn a.c 6 (getCtx s w.ctx) (takeQueued s w 3).2 (kernelRun false (kernelS s w a) (getCtx s w.ctx) (takeQueued s w 3).2 a) := by
    rw [run]
    exact ⟨hw, hk, hs, rfl, id, fun tid ht => find_putTensor_of_notMem _ _ ht⟩
  obtain ⟨-, stored, -⟩ := runWork_ran (fun _ => []) (f := fun c v => kernelRun false (kernelS s w a) c v a) ready lands
  refine ⟨_, rfl, fun i j hi hj => ?_⟩
  have kernel : skWork false w a s = runWork 3 6 (fun _ => []) [a.c] (fun c v => kernelRun false (kernelS s w a) c v a) w s := by simp [skWork, ok]
  have tensor : (getCtx (skWork false w a s) w.ctx).open_ a.c = dotTensor (getCtx s w.ctx) r a := by
    rw [kernel]
    exact open_of_putTensor (stored.trans (congrArg (fun p => p.1.tensors) run)) (dotTensor_ne_empty _ _ _)
  rw [tensor, codeAt_dotTensor r fits hi hj]

end Sys2Proof.Machine
end

section
/-! O43, the matrix tile: where its result lands, what its gallery counts, what a refusal flags (R51, R52, R62, R72, R109, R116, R127). -/

namespace Sys2Proof.Machine

/-! The result. -/

section
variable {y kind : Nat} {c : Ctx} {w : WoHdr} {d : WoDone}

theorem putTensor_landsIn (t : Tensor) (hw : d.w = w) (hk : d.kind = kind) (hs : d.status = 0) : LandsIn y kind c w (c.putTensor y t, d) :=
  ⟨hw, hk, hs, rfl, id, fun _ ht => find_putTensor_of_notMem _ _ ht⟩

theorem LandsIn.ite {p : Prop} [Decidable p] {r q : Ctx × WoDone} (hr : LandsIn y kind c w r) (hq : LandsIn y kind c w q) :
    LandsIn y kind c w (if p then r else q) := by split <;> assumption

theorem storeOne_landsIn (fmt : Nat) (ps : List (Nat × Fp)) (hw : d.w = w) (hk : d.kind = kind) (hs : d.status = 0) :
    LandsIn y kind c w (storeOne c w y fmt ps d) := by
  unfold storeOne
  dsimp only
  split
  · exact putTensor_landsIn _ hw hk hs
  · exact putTensor_landsIn _ hw hk hs
  · exact ⟨hw, hk, hs, rfl, id, fun _ ht => find_putTensor_of_notMem _ _ ht⟩

/-- Outside a forward pass of an attempt no stack copy is written beside a tensor (R118). -/
theorem stackOuts_outside {c : Ctx} (noCopy : w.phase ≠ 0 ∨ c.attempt = none) (tid : Nat) : c.stackOuts w tid = [] := by
  unfold Ctx.stackOuts
  split
  · rcases noCopy with h | h <;> simp [h]
  · rfl

variable (noCopy : w.phase ≠ 0 ∨ c.attempt = none)
include noCopy

theorem storePairs_landsIn (fmt : Nat) (ps : List (Nat × Fp)) (hw : d.w = w) (hk : d.kind = kind) (hs : d.status = 0) :
    LandsIn y kind c w (storePairs c w y fmt ps d) := by
  have one := storeOne_landsIn (y := y) (c := c) fmt ps hw hk hs
  unfold storePairs
  split
  · exact one
  · rw [storeCopies, stackOuts_outside (noCopy.imp_right one.attempt)]
    exact one

theorem storeTile_landsIn (a : MtArgs) (raw : Bool) (cells : List (Nat × Nat)) (hw : d.w = w) (hk : d.kind = kind) (hs : d.status = 0) :
    LandsIn a.y kind c w (storeTile c w a raw cells d) := by
  unfold storeTile
  split
  · exact putTensor_landsIn _ hw hk hs
  · exact storePairs_landsIn noCopy _ _ hw hk hs

/-- A tile's result lands in its Y, or among the segment results of a weight gradient (R65, R66, R120). -/
theorem tileWork_landsIn (md : TileMode) (x : TileIn) (a : MtArgs) : LandsIn a.y 0 c w (tileWork md x a c w) := by
  unfold tileWork
  dsimp only
  split
  · split
    · next attempt _ => exact ⟨rfl, rfl, rfl, rfl, fun h => by simp [h] at attempt, fun _ _ => rfl⟩
    · exact ⟨rfl, rfl, rfl, rfl, id, fun _ _ => rfl⟩
  · have parts (p : SMap (SMap Nat)) (raw : Bool) (cells : List (Nat × Nat)) (d : WoDone) (hw : d.w = w) (hk : d.kind = 0) (hs : d.status = 0) :
        LandsIn a.y 0 c w (storeTile { c with parts := p } w a raw cells d) := by
      obtain ⟨hw, hk, hs, done, attempt, tensors⟩ := storeTile_landsIn (c := { c with parts := p }) noCopy a raw cells hw hk hs
      exact ⟨hw, hk, hs, done, attempt, tensors⟩
    exact .ite (parts _ _ _ _ rfl rfl rfl) (storeTile_landsIn noCopy a _ _ (by rfl) (by rfl) (by rfl))

end

/-! Pages apart from one another (R427). -/

/-- Two pages without a common address. -/
def apart (p q : Page) : Prop := p.base + 0x1000 ≤ q.base ∨ q.base + 0x1000 ≤ p.base

/-- A page's registers are as they were. -/
def sameRegs (p : Page) (s t : State) : Prop := ∀ o, o < 0x1000 → regGet t p o = regGet s p o

theorem apart.ne {p q : Page} (h : apart p q) {o u : Nat} (ho : o < 0x1000) (hu : u < 0x1000) : p.base + o ≠ q.base + u := by
  rcases h with h | h <;> omega

theorem sameRegs.trans {p : Page} {s t u : State} (h : sameRegs p s t) (k : sameRegs p t u) : sameRegs p s u :=
  fun o ho => (k o ho).trans (h o ho)

theorem sameRegs.cntHold {p : Page} {s t : State} (h : sameRegs p s t) : cntHold t p = cntHold s p := by
  rw [Machine.cntHold, Machine.cntHold, h _ (by decide)]

theorem sameRegs.bump64 {p q : Page} (s : State) {lo : Nat} (n : Nat) (h : apart p q) (hlo : lo + 4 < 0x1000) : sameRegs p s (bump64 s q lo n) :=
  fun _ ho => bump64_regGet _ _ _ _ _ _ (h.ne ho (by omega)) (h.ne ho hlo)

theorem sameRegs.bumpWrap {p q : Page} (s : State) {off : Nat} (n : Nat) (h : apart p q) (hoff : off < 0x1000) : sameRegs p s (bumpWrap s q off n) :=
  fun _ ho => bumpWrap_regGet _ _ _ _ _ _ (h.ne ho hoff)

theorem sameRegs.setErr {p q : Page} (s : State) (i : Nat) (h : apart p q) (port : apart p pgHost) (hq : errOff q.kind < 0x1000) :
    sameRegs p s (setErr s q i) :=
  fun _ ho => setErr_regGet _ _ _ _ _ (h.ne ho hq) (h.ne ho (by decide)) (port.ne ho (by decide)) (port.ne ho (by decide))

theorem hallPages_apart_port {p : Page} (h : 0x08000000 ≤ p.base) : apart p pgHost := .inr (Nat.le_trans (by decide) h)

theorem faPg_apart_port (k : Nat) : apart (faPg k) pgHost := hallPages_apart_port (by simp only [faPg, pgFArray, aisleBase, hallBase]; omega)

theorem baPg_apart_port (k : Nat) : apart (baPg k) pgHost := hallPages_apart_port (by simp only [baPg, pgBArray, aisleBase, hallBase]; omega)

theorem faPg_apart_landPg (k : Nat) : apart (faPg k) (landPg k) := .inl (by
  have := Nat.mod_lt k (show 0 < 68 by decide)
  simp only [faPg, pgFArray, landPg, pgLanding]; omega)

theorem baPg_apart_landPg (k : Nat) : apart (baPg k) (landPg k) := .inr (by
  have := Nat.mod_lt k (show 0 < 68 by decide)
  simp only [baPg, pgBArray, landPg, pgLanding]; omega)

theorem faPg_apart_baPg (k : Nat) : apart (faPg k) (baPg k) := .inl (by
  have := Nat.mod_lt k (show 0 < 68 by decide)
  simp only [faPg, pgFArray, baPg, pgBArray]; omega)

/-- An error of a page apart from the port's is flagged. -/
theorem setErr_bit_apart (s : State) (p : Page) {i : Nat} (hi : i < 32) (inPage : errOff p.kind < 0x1000) (notPend : errOff p.kind ≠ Reg.EVT_PEND)
    (port : apart p pgHost) : bit (regGet (setErr s p i) p (errOff p.kind)) i = true :=
  setErr_bit s p i hi notPend (.inr ⟨port.ne inPage (by decide), port.ne inPage (by decide)⟩)

/-! The counts of a bay (R72, R127). -/

/-- A tile is counted in a page's registers: the tile, and its MACs in two words. -/
def counted (p : Page) (tiles macs n : Nat) (s t : State) : Prop :=
  cntHold s p = false →
    regGet t p tiles = (regGet s p tiles + 1) % 2 ^ 32 ∧ regGet t p macs = (regGet s p macs + n) % 2 ^ 32 ∧
    regGet t p (macs + 4) = (regGet s p macs + 2 ^ 32 * regGet s p (macs + 4) + n) / 2 ^ 32 % 2 ^ 32

theorem bumpWrap_word (s : State) (p : Page) (off n : Nat) (run : cntHold s p = false) :
    regGet (bumpWrap s p off n) p off = (regGet s p off + n) % 2 ^ 32 := by
  rw [bumpWrap, run, if_neg (by decide), regGet_regSet]

/-- The two counts of a bay do not touch each other, nor the page's CNT_HOLD. -/
theorem counted_bumps (s : State) (p : Page) {tiles macs : Nat} (n : Nat) (ht : 0x80 ≤ tiles) (hm : tiles + 4 ≤ macs) :
    counted p tiles macs n s (bump64 (bumpWrap s p tiles 1) p macs n) := by
  intro run
  have other {o : Nat} (ho : o ≠ tiles) : regGet (bumpWrap s p tiles 1) p o = regGet s p o := bumpWrap_regGet _ _ _ _ _ _ (by omega)
  have run' : cntHold (bumpWrap s p tiles 1) p = false := by rw [cntHold, other (by unfold Reg.BLK_CTRL; omega)]; exact run
  obtain ⟨low, high⟩ := bump64_words (bumpWrap s p tiles 1) p macs n run'
  rw [other (show macs ≠ tiles by omega), other (show macs + 4 ≠ tiles by omega)] at low high
  refine ⟨?_, by rw [low]; omega, high⟩
  rw [bump64_regGet _ _ _ _ _ _ (by omega) (by omega), bumpWrap_word _ _ _ _ run]

theorem counted.frame {p : Page} {tiles macs n : Nat} {s s' t t' : State} (h : counted p tiles macs n s' t) (before : sameRegs p s s')
    (after : sameRegs p t t') (ht : tiles < 0x1000) (hm : macs + 4 < 0x1000) : counted p tiles macs n s t' := by
  intro run
  have counts := h (before.cntHold.trans run)
  rw [before _ ht, before _ (by omega), before _ hm] at counts
  rwa [after _ ht, after _ (by omega), after _ hm]

/-! What a tile's command does after its run. -/

theorem countBay_recorded (s : State) (k bay tiles macs : Nat) : recorded s (countBay s k bay tiles macs) := by
  unfold countBay
  split <;> exact (bumpWrap_recorded ..).trans (bump64_recorded ..)

theorem countTile_recorded (s : State) (w : WoHdr) (a : MtArgs) : recorded s (countTile s w a) := by
  have own (p : Prop) [Decidable p] (b n : Nat) : recorded s (if p then s else countBay s (memberGal s w) b 1 n) := by
    split
    · exact recorded.refl s
    · exact countBay_recorded ..
  unfold countTile
  dsimp only
  split
  · exact own ..
  · exact (own ..).trans (countBay_recorded ..)

/-- A completed tile is counted by its gallery, its outlier products of bay F apart, which bay X counts (R63, R72, R127). -/
theorem countTile_counted (s : State) (w : WoHdr) (a : MtArgs) :
    let k := memberGal s w
    let n := a.m * a.n * a.k
    (a.bay = 0 → counted (faPg k) Reg.FA_TILES Reg.FA_MACS_LO n s (countTile s w a)) ∧
    (isB2 w = false → a.bay = 1 → counted (baPg k) Reg.BX_TILES Reg.BX_MACS_LO n s (countTile s w a)) ∧
    (isB2 w = false → 2 ≤ a.bay → counted (baPg k) Reg.BW_TILES Reg.BW_MACS_LO n s (countTile s w a)) := by
  intro k n
  have noOutlier (h : a.bay ≠ 0) : outlierMacs (getCtx s w.ctx) w a = 0 := by simp [outlierMacs, h]
  refine ⟨fun bay => ?_, fun unitB1 bay => ?_, fun unitB1 bay => ?_⟩
  · have own := counted_bumps s (faPg k) (tiles := Reg.FA_TILES) (macs := Reg.FA_MACS_LO) n (by decide) (by decide)
    have away := faPg_apart_baPg k
    simp only [countTile, bay, ne_eq, not_true_eq_false, and_false, if_false]
    split
    · exact own
    · exact own.frame (fun _ _ => rfl) ((sameRegs.bumpWrap _ _ away (by decide)).trans (sameRegs.bump64 _ _ away (by decide))) (by decide) (by decide)
  · simp only [countTile, noOutlier (by omega), unitB1, bay, Bool.false_eq_true, false_and, if_false, if_true]
    exact counted_bumps s (baPg k) n (by decide) (by decide)
  · simp only [countTile, noOutlier (by omega), unitB1, Bool.false_eq_true, false_and, if_false, if_true, Nat.min_eq_right bay]
    exact counted_bumps s (baPg k) n (by decide) (by decide)

/-- After its count a tile leaves the run as it is and its gallery's counts too: its landing unit may flag a wide copy, and the tile may be
sampled (R77, R80, R296). -/
structure TileEnd (s : State) (w : WoHdr) (t u : State) : Prop where
  ran : ∀ {unit kind status outs}, ranWork w unit kind status outs s t → ranWork w unit kind status outs s u
  fa : sameRegs (faPg (memberGal t w)) t u
  ba : sameRegs (baPg (memberGal t w)) t u

theorem TileEnd.refl (s : State) (w : WoHdr) (t : State) : TileEnd s w t t := ⟨id, fun _ _ => rfl, fun _ _ => rfl⟩

theorem TileEnd.putCtx {s : State} {w : WoHdr} {t u : State} (h : TileEnd s w t u) {c : Ctx} (done : c.done = (getCtx u w.ctx).done)
    (tensors : c.tensors = (getCtx u w.ctx).tensors) : TileEnd s w t (putCtx u w.ctx c) :=
  ⟨fun r => ranWork_putCtx (h.ran r) done tensors, h.fa, h.ba⟩

theorem noteWide_end (s : State) (t : State) (w : WoHdr) (a : MtArgs) (wide : Bool) : TileEnd s w t (noteWide t w a wide) := by
  have flagged : TileEnd s w t (if wide then setErr t (landPg (memberGal t w)) 2 else t) := by
    split
    · have inPage : errOff (landPg (memberGal t w)).kind < 0x1000 := show 0x08C < 0x1000 by decide
      exact ⟨fun r => ranWork_recorded r (setErr_recorded ..), .setErr _ _ (faPg_apart_landPg _) (faPg_apart_port _) inPage,
        .setErr _ _ (baPg_apart_landPg _) (baPg_apart_port _) inPage⟩
    · exact .refl s w t
  unfold noteWide
  dsimp only
  generalize (if wide then setErr t (landPg (memberGal t w)) 2 else t) = v at flagged ⊢
  split
  · exact flagged
  · refine flagged.putCtx ?_ ?_ <;> dsimp only <;> split <;> rfl

theorem noteSample_end {s t u : State} {w : WoHdr} (h : TileEnd s w t u) (bay digest : Nat) : TileEnd s w t (noteSample u w bay digest) := by
  unfold noteSample
  dsimp only
  split
  · exact h
  · split
    · exact h.putCtx rfl rfl
    · exact h

/-! The command. -/

/-- The status of a tile, by its checks (R51, R52, R62, R109, R116). -/
def statusOf (s : State) (w : WoHdr) (a : MtArgs) (int32 : Bool) (k : Nat) : Nat :=
  tileStatus a.bay (isB2 w) (Desc.ofByte a.wFmt) (Desc.ofByte a.aFmt) (Desc.ofByte a.yFmt)
    (runLen a.run ((((getCtx s w.ctx).plan.bind (fun p => p.layer w.layer)).map (·.runlen)).getD 0)) int32 k

/-- How a tile forms its elements, by the plumb mode of its array and its layer (R68, R258). -/
def modeOf (s : State) (w : WoHdr) (a : MtArgs) : TileMode :=
  let l := (getCtx s w.ctx).plan.bind (fun p => p.layer w.layer)
  tileMode (fld s (faPg (memberGal s w)) Reg.FA_CTRL 0 0 == 1 || (l.map (·.plumb)).getD false) ((l.map (·.runlen)).getD 0) w a

/-- WCOPY_BF16 of the landing unit (R77). -/
def forceOf (s : State) (w : WoHdr) : Bool := fld s (landPg (memberGal s w)) Reg.LD_CTRL 1 1 == 1

/-- What a tile computes with. -/
def inOf (s : State) (w : WoHdr) (a : MtArgs) : TileIn := tileIn (forceOf s w) (getCtx s w.ctx) w a

/-- The run of a tile's work order. -/
def tileRun (s : State) (w : WoHdr) (a : MtArgs) : State :=
  runWork (tileUnit w a) 0 (tileReads (forceOf s w) w a) [a.y] (tileWork (modeOf s w a) (inOf s w a) a) w s

/-- What follows a completed run: the count, the note of a wide copy, the sample. -/
def tileEnd (s : State) (w : WoHdr) (a : MtArgs) : State :=
  let u := noteWide (countTile (tileRun s w a) w a) w a (inOf s w a).wide
  if isB2 w then u else noteSample u w (min a.bay 2) (digestOf (modeOf s w a) (inOf s w a) a)

theorem exec_matrixTile_run {s : State} {w : WoHdr} {a : MtArgs} (live : mayWork s w = true) (ok : statusOf s w a a.int32 a.k = 0)
    (reported : (getCtx s w.ctx).done.length < (getCtx (tileRun s w a) w.ctx).done.length) : exec (.matrixTile w a) s = .next (tileEnd s w a) := by
  change execMatrixTile w a s = _
  unfold execMatrixTile
  dsimp only
  rw [if_neg (by simp [live])]
  exact (if_neg (not_not_intro ok)).trans (if_neg (Nat.not_le.mpr reported))

theorem tileEnd_end (s : State) (w : WoHdr) (a : MtArgs) : TileEnd s w (countTile (tileRun s w a) w a) (tileEnd s w a) := by
  have wide := noteWide_end s (countTile (tileRun s w a) w a) w a (inOf s w a).wide
  unfold tileEnd
  dsimp only
  split
  · exact wide
  · exact noteSample_end wide ..

theorem ranWork_gals {s t : State} {w : WoHdr} {unit kind status : Nat} {outs : List Nat} (h : ranWork w unit kind status outs s t) :
    t.gals = s.gals := by obtain ⟨-, -, -, -, rest⟩ := h; rw [rest]

theorem ranWork_reported {s t : State} {w : WoHdr} {unit kind status : Nat} {outs : List Nat} (h : ranWork w unit kind status outs s t) :
    (getCtx s w.ctx).done.length < (getCtx t w.ctx).done.length := by
  obtain ⟨⟨d, done, -⟩, -⟩ := h
  rw [done, List.length_append, List.length_singleton]
  exact Nat.lt_succ_self _

section
variable {s : State} {w : WoHdr} {a : MtArgs} (ready : readyWork s w (tileUnit w a))
include ready

/-- A ready tile's run stores its result and leaves the registers of its gallery's arrays. -/
theorem tileRun_ran :
    ranWork w (tileUnit w a) 0 0 [a.y] s (tileRun s w a) ∧ sameRegs (faPg (memberGal s w)) s (tileRun s w a) ∧
      sameRegs (baPg (memberGal s w)) s (tileRun s w a) := by
  have ⟨_, _, _, _, _, _, _, noCopy⟩ := ready
  obtain ⟨ran, -, regs⟩ := runWork_ran (tileReads (forceOf s w) w a) (f := tileWork (modeOf s w a) (inOf s w a) a) ready
    (tileWork_landsIn (c := getCtx s w.ctx) (by rw [takeQueued_phase]; exact noCopy) _ _ a)
  have frame {p : Page} (away : apart p (landPg (memberGal s w))) : sameRegs p s (tileRun s w a) := fun o ho =>
    regs p o (away.ne ho (by decide)) (away.ne ho (by decide))
  exact ⟨ran, frame (faPg_apart_landPg _), frame (baPg_apart_landPg _)⟩

theorem execMatrixTile_refused (bad : statusOf s w a a.int32 a.k ≠ 0) :
    exec (.matrixTile w a) s = .next (refuseTile (takeQueued s w (tileUnit w a)).1 (takeQueued s w (tileUnit w a)).2 a.bay (statusOf s w a a.int32 a.k)
      (statusOf s w a false 0 == statusOf s w a a.int32 a.k) (isB2 w)) := by
  obtain ⟨live, -⟩ := ready
  change execMatrixTile w a s = _
  unfold execMatrixTile
  dsimp only
  rw [if_neg (by simp [live])]
  exact if_pos bad

end

theorem refuseBit_lt (bay st : Nat) (pair : Bool) : refuseBit bay st pair < 32 := by
  unfold refuseBit
  split
  · repeat' split
    all_goals decide
  · split <;> decide
  · split <;> decide

/-- A refused tile flags the error bit of its bay and reason, except on the joiners (R51, R62, R72, R109, R116, R127). -/
theorem refuseTile_flags (s : State) (w : WoHdr) {bay st : Nat} {pair b2 : Bool} (onArray : b2 = false ∨ bay = 0) :
    let p := if bay = 0 then faPg (memberGal s w) else baPg (memberGal s w)
    bit (regGet (refuseTile s w bay st pair b2) p (errOff p.kind)) (refuseBit bay st pair) = true := by
  intro p
  have onJoiner : (b2 && bay != 0) = false := by rcases onArray with h | h <;> simp [h]
  change bit (regGet (if (b2 && bay != 0) = true then s else setErr s p (refuseBit bay st pair)) p (errOff p.kind)) _ = true
  rw [onJoiner, if_neg (by decide)]
  have hp : errOff p.kind < 0x1000 ∧ errOff p.kind ≠ Reg.EVT_PEND ∧ apart p pgHost := by
    simp only [p]
    split
    · exact ⟨show 0x08C < 0x1000 by decide, show 0x08C ≠ Reg.EVT_PEND by decide, faPg_apart_port _⟩
    · exact ⟨show 0x094 < 0x1000 by decide, show 0x094 ≠ Reg.EVT_PEND by decide, baPg_apart_port _⟩
  obtain ⟨inPage, notPend, port⟩ := hp
  exact setErr_bit_apart s p (refuseBit_lt ..) inPage notPend port

/-- A refused tile has reported its status. -/
theorem ranWork_refuseTile (s : State) (w : WoHdr) (unit bay st : Nat) (pair b2 : Bool) :
    ranWork w unit 0 st [] s (refuseTile (takeQueued s w unit).1 (takeQueued s w unit).2 bay st pair b2) := by
  have plain : ranWork w unit 0 st [] s (addDone (takeQueued s w unit).1 { w := (takeQueued s w unit).2, kind := 0, status := st }) :=
    ranWork_addDone (.refl _ _) rfl (by rw [getCtx_takeQueued]) (fun tid _ => by rw [getCtx_takeQueued])
  refine ranWork_recorded plain (recorded.addDone ?_ _)
  split
  · exact .refl _
  · exact setErr_recorded ..

/-- Settles O43: a ready tile that passes its checks is a run that lands in Y, its count and two notes that touch neither; a refused one is a
report and an error bit. A joiner product's tile is put cell by cell, each cell the dot product of its row and column. -/
theorem matrixWork : Obligations.MatrixWork := by
  refine ⟨?tile, ?product⟩
  case tile =>
    intro w a s c rl status st unit k count ready
    refine ⟨fun ok => ?runs, fun bad => ?refused⟩
    case runs =>
      obtain ⟨ran, fa, ba⟩ := tileRun_ran ready
      obtain ⟨live, -⟩ := ready
      obtain ⟨bayF, bayX, bayW⟩ := countTile_counted (tileRun s w a) w a
      obtain ⟨afterRan, afterFa, afterBa⟩ := tileEnd_end s w a
      have gal := memberGal_congr (ranWork_gals ran) w
      rw [gal] at bayF bayX bayW
      rw [memberGal_congr (countTile_recorded ..).gals, gal] at afterFa afterBa
      exact ⟨_, exec_matrixTile_run live ok (ranWork_reported ran), afterRan (ranWork_recorded ran (countTile_recorded ..)),
        fun bay => (bayF bay).frame fa afterFa (by decide) (by decide), fun b1 bay => (bayX b1 bay).frame ba afterBa (by decide) (by decide),
        fun b1 bay => (bayW b1 bay).frame ba afterBa (by decide) (by decide)⟩
    case refused =>
      refine ⟨_, execMatrixTile_refused ready bad, ranWork_refuseTile .., fun onArray => ?_⟩
      have flags := refuseTile_flags (takeQueued s w unit).1 (takeQueued s w unit).2 (st := st) (pair := status false 0 == st) onArray
      rw [memberGal_takeQueued] at flags
      exact flags
  case product =>
    intro w a r s ready ok hr c f fits
    exact joinerProduct_codes ready ok hr fits

end Sys2Proof.Machine
end

section
/-! SUPPORT of O55. What records, recoveries, fences and swaps leave of a gallery (R15, R16, R286, R287, R316-R320). -/

namespace Sys2Proof.Machine

/-! Records and recoveries (R316, R318). -/

/-- Faults are recorded and a recovery begun, waited for or ended; nothing else happens. -/
def noted (s t : State) : Prop :=
  t = { s with regs := t.regs, ec := t.ec, recovery := t.recovery, host := { s.host with devRings := t.host.devRings } }

theorem noted.trans {s t u : State} (h : noted s t) (k : noted t u) : noted s u := by
  unfold noted at *
  rw [k, h]

theorem recorded.noted {s t : State} (h : recorded s t) : noted s t := by
  unfold recorded at h
  unfold Machine.noted
  rw [h]

theorem logFault_recorded (s : State) (f : FaultRec) : recorded s (logFault s f) := by
  obtain ⟨r, e, d, h⟩ := logFault_only s f; rw [h]; rfl

theorem beginRecovery_noted (s : State) (cls unit dev code : Nat) (lease : Bool) (addr : Nat) :
    noted s (beginRecovery s cls unit dev code lease addr) := by
  obtain ⟨r, e, d, x, h⟩ := beginRecovery_only s cls unit dev code lease addr; rw [h]; rfl

theorem recoveryWaits_noted (s : State) (ns : List Nat) (t : Nat) : noted s (recoveryWaits s ns t) := rfl

theorem settleRecovery_noted (s : State) : noted s (settleRecovery s) := by
  obtain ⟨r, e, d, x, h⟩ := settleRecovery_only s; rw [h]; rfl

theorem noted.ctxs {s t : State} (h : noted s t) : t.ctxs = s.ctxs := by rw [h]
theorem noted.gals {s t : State} (h : noted s t) : t.gals = s.gals := by rw [h]
theorem noted.mem {s t : State} (h : noted s t) : t.mem = s.mem := by rw [h]
theorem noted.twin {s t : State} (h : noted s t) : t.twin = s.twin := by rw [h]
theorem noted.fence {s t : State} (h : noted s t) : t.fence = s.fence := by rw [h]
theorem noted.silent {s t : State} (h : noted s t) : t.silent = s.silent := by rw [h]

theorem getGal_congr {s t : State} (h : t.gals = s.gals) (k : Nat) : getGal t k = getGal s k := by simp [getGal, h]

theorem getMc_congr {s t : State} (h : t.mem = s.mem) (hall : Nat) : getMc t hall = getMc s hall := by simp [getMc, h]

/-- The first fault of a recovery begins it with nothing to wait for. -/
theorem beginRecovery_first {s : State} (idle : s.recovery = none) (cls unit dev code : Nat) (lease : Bool) (addr : Nat) :
    (beginRecovery s cls unit dev code lease addr).recovery = some { cls := cls, unit := unit, lease := lease } := by
  have still : (logFault s { kind := 0, cls := cls, device := dev, unit := unit, d0 := code, addr := addr }).recovery = none := by
    obtain ⟨r, e, d, h⟩ := logFault_only s { kind := 0, cls := cls, device := dev, unit := unit, d0 := code, addr := addr }; rw [h]; exact idle
  unfold beginRecovery
  dsimp only
  rw [regSet_recovery, regSet_recovery, still]

/-- A recovery that waits for nothing ends. -/
theorem settleRecovery_ends {s : State} {r : Recovery} (h : s.recovery = some r) (free : r.waits = []) : (settleRecovery s).recovery = none := by
  unfold settleRecovery
  simp only [h, free, List.isEmpty_nil, Bool.not_true, Bool.false_eq_true, if_false]
  split
  · rw [(logFault_recorded _ _), (setErr_recorded _ _ _), (logFault_recorded _ _)]; rfl
  · rw [(logFault_recorded _ _)]; rfl

/-- The device's ID stands apart from what a recovery writes. -/
theorem beginRecovery_deviceId (s : State) (cls unit dev code : Nat) (lease : Bool) (addr : Nat) :
    deviceId (beginRecovery s cls unit dev code lease addr) = deviceId s := by
  have kept : regGet (regSet (regSet (logFault s { kind := 0, cls := cls, device := dev, unit := unit, d0 := code, addr := addr }) pgFault Reg.FM_LAST
      (cls % 16 + dev % 4096 * 16)) pgFault Reg.FM_LAST_UNIT (lastUnit cls unit)) pgRouter Reg.RT_ID = regGet s pgRouter Reg.RT_ID := by
    rw [regGet_regSet_ne _ _ _ _ _ _ (by decide), regGet_regSet_ne _ _ _ _ _ _ (by decide), logFault_regGet _ _ _ _ (by decide) (by decide)]
  unfold beginRecovery deviceId
  dsimp only
  split
  · change bits (regGet (setErr _ pgFault 1) pgRouter Reg.RT_ID) 11 0 = _
    rw [setErr_regGet _ _ _ _ _ (by decide) (by decide) (by decide) (by decide), kept]
  · rw [← kept]; rfl

/-! The fence and the device's own loss (R317, R320). -/

/-- What a step's own work leaves of the galleries, any operation within its frame leaves. -/
theorem gals_of_outside {s t : State} (h : outsideWork t = outsideWork s) : t.gals = s.gals := by
  have fields := congrArg State.gals h
  exact fields

theorem outsideWork_sendBeat (s : State) (down : Bool) (d : Nat) : outsideWork (sendBeat s down d) = outsideWork s := by
  unfold sendBeat
  dsimp only
  split
  · split <;> simp
  · exact outsideWork_foldl (fun s l => by rw [sendControl, outsideWork_enqueueFlit]) _ s

theorem outsideWork_sendBeats (s : State) (down : Bool) : outsideWork (sendBeats s down) = outsideWork s :=
  outsideWork_foldl (fun s d => outsideWork_sendBeat s down d) _ s

theorem declareLost_gals (s : State) (unit code : Nat) : (declareLost s unit code).gals = s.gals := by
  unfold declareLost
  split
  · rfl
  · change (settleRecovery (sendBeats (beginRecovery s 6 unit (deviceId s) code false) true)).gals = s.gals
    exact gals_of_outside (by rw [outsideWork_settleRecovery, outsideWork_sendBeats, outsideWork_beginRecovery])

/-- A device that declares itself lost is lost, with FAULT_N low (R317, R441). -/
theorem declareLost_lost {s : State} (up : s.power.lost = false) (unit code : Nat) :
    (declareLost s unit code).power.lost = true ∧ (declareLost s unit code).power.fault = true := by
  simp [declareLost, up]

theorem fence_gals (s : State) (tag : Nat) : (fence s tag).gals = s.gals := by
  unfold fence
  split
  · rfl
  · split
    · rw [declareLost_gals, (setErr_recorded ..).gals]
    · rfl

theorem fences_gals (tags : List Nat) (s : State) : (tags.foldl fence s).gals = s.gals := by
  induction tags generalizing s with
  | nil => rfl
  | cons tag tags ih => rw [List.foldl_cons, ih, fence_gals]

/-- A tag that finds room is fenced, and nothing else changes. -/
theorem fence_room {s : State} {tag : Nat} (room : s.fence.length < 256) : ∃ f, fence s tag = { s with fence := f } ∧ tag ∈ f := by
  unfold fence
  split
  · next listed => exact ⟨s.fence, rfl, by simpa using listed⟩
  · exact ⟨s.fence ++ [tag], by rw [if_neg (by omega)], by simp⟩

/-! A spare that faults (R299, R308). -/

/-- Galleries change and records are written; nothing else happens. -/
def galsRecorded (s t : State) : Prop :=
  t = { s with gals := t.gals, regs := t.regs, ec := t.ec, host := { s.host with devRings := t.host.devRings } }

theorem galsRecorded.trans {s t u : State} (h : galsRecorded s t) (k : galsRecorded t u) : galsRecorded s u := by
  unfold galsRecorded at *
  rw [k, h]

theorem recorded.galsRecorded {s t : State} (h : recorded s t) : galsRecorded s t := by
  unfold recorded at h
  unfold Machine.galsRecorded
  rw [h]

theorem putGal_galsRecorded (s : State) (k : Nat) (g : Gallery) : galsRecorded s (putGal s k g) := rfl

theorem galsRecorded.ctxs {s t : State} (h : galsRecorded s t) : t.ctxs = s.ctxs := by rw [h]
theorem galsRecorded.recovery {s t : State} (h : galsRecorded s t) : t.recovery = s.recovery := by rw [h]

theorem pushRec_recorded (s : State) (stream ctx : Nat) (b : List Byte) : recorded s (pushRec s stream ctx b) := by
  obtain ⟨r, e, d, h⟩ := pushRec_only s stream ctx b; rw [h]; rfl

theorem abortProbe_galsRecorded (s : State) (k : Nat) : galsRecorded s (abortProbe s k) := by
  unfold abortProbe
  dsimp only
  split
  · rfl
  · exact (putGal_galsRecorded ..).trans (pushRec_recorded ..).galsRecorded

theorem abortProbe_gal (s : State) (k : Nat) : getGal (abortProbe s k) k = { getGal s k with probing := none } := by
  unfold abortProbe
  dsimp only
  split
  · next idle => rw [← idle]
  · rw [getGal_congr (pushRec_recorded ..).gals, getGal_putGal]

theorem abortProbe_gal_ne (s : State) {j k : Nat} (h : k ≠ j) : getGal (abortProbe s j) k = getGal s k := by
  unfold abortProbe
  dsimp only
  split
  · rfl
  · rw [getGal_congr (pushRec_recorded ..).gals, getGal_putGal_ne _ h]

/-- A gallery that has failed a test, retired for good after three failures in succession. -/
def failedGal (g : Gallery) : Gallery :=
  { g with fails := g.fails + 1, testing := false, testReq := false, probing := none, state := if 3 ≤ g.fails + 1 then 5 else 3 }

theorem markFailed_gal (s : State) (k : Nat) : getGal (markFailed s k) k = failedGal (getGal s k) := by
  unfold markFailed failedGal
  dsimp only
  split
  · rw [getGal_congr (logFault_recorded ..).gals, getGal_putGal]
  · rw [getGal_putGal]

theorem markFailed_galsRecorded (s : State) (k : Nat) : galsRecorded s (markFailed s k) := by
  unfold markFailed
  dsimp only
  split
  · exact (putGal_galsRecorded ..).trans (logFault_recorded ..).galsRecorded
  · exact putGal_galsRecorded ..

/-! A gallery out of service is left by what happens to others (R15, R16, R286, R287). -/

theorem galAt_state {s : State} {h a slot j : Nat} (at_ : galAt s h a slot = some j) : (getGal s j).state = 0 := by
  unfold galAt at at_
  obtain ⟨g, found, rfl⟩ := Option.map_eq_some_iff.mp at_
  have := List.find?_some found
  simp only [Bool.and_eq_true, beq_iff_eq] at this
  exact this.1

theorem longestOut_mem {s : State} {ks : List Nat} {j : Nat} (h : longestOut s ks = some j) : j ∈ ks := by
  induction ks using List.reverseRecOn generalizing j with
  | nil => cases h
  | append_singleton ks k ih =>
    rw [longestOut, List.foldl_append] at h
    cases before : longestOut s ks with
    | none =>
      rw [longestOut] at before
      rw [before] at h
      cases h; simp
    | some i =>
      have mem := ih before
      rw [longestOut] at before
      simp only [before, List.foldl_cons, List.foldl_nil] at h
      split at h <;> cases h <;> simp [mem]

/-- A spare that is chosen was out of service. -/
theorem eligible_out {s : State} {h a j : Nat} (chosen : eligible s h a = some j) : (getGal s j).state ≠ 0 := by
  unfold eligible at chosen
  dsimp only at chosen
  split at chosen
  · next passed => cases chosen; have := longestOut_mem passed; simp_all
  · split at chosen
    · next testing => cases chosen; have := longestOut_mem testing; simp_all
    · have := longestOut_mem chosen; simp_all

theorem gal_foldl {α : Type} {f : State → α → State} {k : Nat} {g : Gallery} (keeps : ∀ s x, getGal s k = g → getGal (f s x) k = g) (l : List α)
    {s : State} (h : getGal s k = g) : getGal (l.foldl f s) k = g := by
  induction l generalizing s with
  | nil => exact h
  | cons x l ih => exact ih (keeps s x h)

theorem outsideWork_freePegs (s : State) (c : Ctx) (keep : Bool) : outsideWork (freePegs s c keep) = outsideWork s :=
  outsideWork_foldl (fun s k => by simp [freePeg]) _ s

theorem retarget_gals (s : State) (n : Nat) : (retarget s n).gals = s.gals := by
  unfold retarget
  dsimp only
  split
  · rfl
  · exact gals_of_outside (outsideWork_foldl (fun s e => by split <;> rfl) _ s)

theorem enterSlot_gal_ne (s : State) {j k : Nat} (other : k ≠ j) (slot : Nat) : getGal (enterSlot s j slot) k = getGal s k := by
  rw [enterSlot, getGal_putGal_ne _ other, abortProbe_gal_ne _ other]

theorem putCtx_gal {s : State} {k : Nat} {g : Gallery} (h : getGal s k = g) (n : Nat) (c : Ctx) : getGal (putCtx s n c) k = g :=
  (getGal_congr (putCtx_gals s n c) k).trans h

section
variable {k : Nat} {g : Gallery} (out : g.state ≠ 0) {s : State} (h : getGal s k = g)
include out h

theorem setOwner_gal (tag : Nat) (m : Slot) : getGal (setOwner tag s m) k = g := by
  unfold setOwner
  split
  · next j at_ =>
    have other : k ≠ j := by rintro rfl; exact out (h ▸ galAt_state at_)
    exact (getGal_modGal_ne s other (fun g => { g with powered := true })).trans h
  · exact h

theorem ownFrames_gal (c : Ctx) (tag : Nat) : getGal (ownFrames s c tag) k = g :=
  gal_foldl (fun _ m h => setOwner_gal out h tag m) _ h

theorem suspendNoFit_gal (n : Nat) : getGal (suspendNoFit s n) k = g := by
  have flagged : getGal (setErr s pgScribe 3) k = g := (getGal_congr (setErr_recorded ..).gals k).trans h
  have freed : getGal (freePegs (setErr s pgScribe 3) (getCtx (setErr s pgScribe 3) n) false) k = g :=
    (getGal_congr (gals_of_outside (outsideWork_freePegs ..)) k).trans flagged
  unfold suspendNoFit releaseActive
  rw [getGal_congr (modCtx_gals ..), getGal_congr (putCtx_gals ..)]
  exact ownFrames_gal out freed _ 0

theorem replaceCtx_gal (hall a slot n : Nat) : getGal (replaceCtx hall a slot s n) k = g := by
  unfold replaceCtx
  dsimp only
  split
  · rw [getGal_congr (retarget_gals ..)]
    exact ownFrames_gal out (putCtx_gal (putCtx_gal h ..) ..) _ _
  · exact suspendNoFit_gal out (putCtx_gal h ..) n

theorem replaceSlot_gal (hall a : Nat) (slot : Option Nat) : getGal (replaceSlot s hall a slot) k = g := by
  cases slot with
  | none => exact h
  | some slot => exact gal_foldl (fun _ n h => replaceCtx_gal out h hall a slot n) _ h

theorem fillSlot_gal (hall a slot : Nat) {spare : Option Nat} (other : ∀ j, spare = some j → k ≠ j) :
    getGal (fillSlot s hall a slot spare).1 k = g := by
  unfold fillSlot
  split
  · exact (enterSlot_gal_ne s (other _ rfl) slot).trans h
  · split
    · split
      · split
        · next j at_ =>
          have inService : k ≠ j := by rintro rfl; exact out (h ▸ galAt_state at_)
          exact (getGal_modGal_ne s inService _).trans h
        · exact h
      · exact h
    · exact h

end

/-- A gallery that leaves service for quarantine: it begins its test. -/
def quarantined (g : Gallery) (tick : Nat) : Gallery :=
  { g with state := 2, slot := 0x7F, quar := true, testing := true, timeOut := tick, served := g.served + (tick - g.timeIn) }

theorem leaveService_gal (s : State) (k : Nat) : getGal (leaveService s k true false) k = quarantined (getGal s k) s.power.tick := by
  simp [leaveService, quarantined]

/-- A gallery in service that is swapped out for quarantine has left service; who fills its slot and who is placed again leaves it so. -/
theorem swapGallery_gal {s : State} {k : Nat} (inService : (getGal s k).state = 0) :
    getGal (swapGallery s k true false) k = quarantined (getGal s k) s.power.tick := by
  have out : (quarantined (getGal s k) s.power.tick).state ≠ 0 := by simp [quarantined]
  have swapped : getGal (swapOut s k true false).1 k = quarantined (getGal s k) s.power.tick := by
    unfold swapOut
    dsimp only
    rw [getGal_congr (logFault_recorded ..).gals]
    exact fillSlot_gal out (leaveService_gal s k) _ _ _ (fun j spare e => eligible_out spare (e ▸ inService))
  unfold swapGallery
  dsimp only
  rw [if_neg (not_not_intro inService)]
  refine replaceSlot_gal out ?_ _ _ _
  split
  · exact setOwner_gal out swapped _ _
  · exact swapped

end Sys2Proof.Machine
end

section
/-! SUPPORT of O55. A gallery's fault; rows and lines of a stack; retraining windows (R314, R316, R333-R336). -/

namespace Sys2Proof.Machine

/-! A gallery's fault (R316). -/

/-- A spare that faults has failed its test and stays in quarantine; no context is touched, and the recovery ends at once. -/
theorem galleryFault_spare {s : State} {k : Nat} (code ns : Nat) (lease : Bool) (spare : (getGal s k).state = 1 ∨ (getGal s k).state = 2)
    (idle : s.recovery = none) :
    getGal (galleryFault s k code ns lease) k = { failedGal (getGal s k) with quar := true } ∧
      (galleryFault s k code ns lease).ctxs = s.ctxs ∧ (galleryFault s k code ns lease).recovery = none := by
  let s1 := beginRecovery s 3 (unitOfKey k) (deviceId s) code lease
  have begun : noted s s1 := beginRecovery_noted ..
  let s2 := modGal (markFailed (abortProbe s1 k) k) k (fun g => { g with quar := true })
  have failed : galsRecorded s1 s2 := (abortProbe_galsRecorded s1 k).trans ((markFailed_galsRecorded _ k).trans (putGal_galsRecorded ..))
  have fault : galleryFault s k code ns lease = settleRecovery (recoveryWaits s2 [] ns) := by
    rcases spare with h | h <;> simp [galleryFault, h, s2, s1]
  have waits := recoveryWaits_noted s2 [] ns
  have settled := settleRecovery_noted (recoveryWaits s2 [] ns)
  rw [fault]
  refine ⟨?_, ?_, ?_⟩
  · rw [getGal_congr settled.gals, getGal_congr waits.gals, getGal_modGal, markFailed_gal, abortProbe_gal, getGal_congr begun.gals]
    rfl
  · rw [settled.ctxs, waits.ctxs, failed.ctxs, begun.ctxs]
  · have recovery : s2.recovery = some { cls := 3, unit := unitOfKey k, lease := lease } := by
      rw [failed.recovery, beginRecovery_first idle]
    exact settleRecovery_ends (r := { cls := 3, unit := unitOfKey k, ns := max 0 ns, lease := lease }) (by rw [recoveryWaits, recovery]; rfl) rfl

/-- A gallery in service that no frame holds leaves service for quarantine, its slot's tags with it. -/
theorem galleryFault_idle {s : State} {k : Nat} (code ns : Nat) (lease : Bool) (inService : (getGal s k).state = 0)
    (free : holdersOf s (keyHall k) (keyAisle k) (getGal s k).slot = []) :
    ∃ tick, getGal (galleryFault s k code ns lease) k =
      { quarantined (getGal s k) tick with tags := slotTags s (keyHall k) (keyAisle k) (getGal s k).slot } := by
  obtain ⟨s1, hs1⟩ : ∃ x, x = beginRecovery s 3 (unitOfKey k) (deviceId s) code lease := ⟨_, rfl⟩
  have begun : noted s s1 := hs1 ▸ beginRecovery_noted ..
  have tags : slotTags s1 (keyHall k) (keyAisle k) (getGal s k).slot = slotTags s (keyHall k) (keyAisle k) (getGal s k).slot := by
    simp only [slotTags, hs1, beginRecovery_deviceId]
  have free1 : holdersOf s1 (keyHall k) (keyAisle k) (getGal s k).slot = [] := by rw [← free, holdersOf, begun.ctxs]; rfl
  obtain ⟨s2, hs2⟩ : ∃ x, x = (slotTags s (keyHall k) (keyAisle k) (getGal s k).slot).foldl fence s1 := ⟨_, rfl⟩
  have gal : getGal s2 k = getGal s k := by rw [hs2, getGal_congr (fences_gals ..), getGal_congr begun.gals]
  refine ⟨s2.power.tick, ?_⟩
  unfold galleryFault
  dsimp only
  rw [← hs1, if_pos inService, free1, tags, ← hs2]
  simp only [List.foldl_nil]
  rw [getGal_congr (settleRecovery_noted _).gals, getGal_congr (recoveryWaits_noted ..).gals, getGal_modGal, swapGallery_gal (gal ▸ inService), gal]

/-! Rows (R335). -/

theorem retireRow_only (s : State) (h row : Nat) : ∃ m, recorded { s with mem := m } (retireRow s h row) := by
  unfold retireRow
  dsimp only
  split
  · exact ⟨s.mem, rfl⟩
  · split
    · exact ⟨_, setErr_recorded ..⟩
    · exact ⟨_, (setErr_recorded ..).trans (setErr_recorded ..)⟩

theorem retireRow_ctxs (s : State) (h row : Nat) : (retireRow s h row).ctxs = s.ctxs := by
  obtain ⟨m, only⟩ := retireRow_only s h row
  exact only.ctxs

theorem recorded.mem {s t : State} (h : recorded s t) : t.mem = s.mem := by rw [h]

/-- A row that is not retired yet joins its stack's list. -/
theorem retireRow_retired {s : State} {h row : Nat} (fresh : row ∉ (getMc s h).retired) :
    (getMc (retireRow s h row) h).retired = (getMc s h).retired ++ [row] := by
  unfold retireRow
  dsimp only
  rw [if_neg (by simpa using fresh)]
  split
  · rw [getMc_congr (setErr_recorded ..).mem, getMc_putMc]
  · rw [getMc_congr (setErr_recorded ..).mem, getMc_congr (setErr_recorded ..).mem, getMc_putMc]

/-- Corrected events of a row in service are added up (R335); at the threshold the row is retired. -/
theorem correctedRow_counts {s : State} {h addr n : Nat} (nonzero : n ≠ 0) (fresh : Config.rowOf addr ∉ (getMc s h).retired) :
    let m := getMc s h
    let k := m.events.get 0 (Config.rowOf addr) + n
    let counted := putMc s h { m with events := m.events.insert (Config.rowOf addr) k }
    correctedRow h s (addr, n) = if retireThr s h ≤ k then retireRow counted h (Config.rowOf addr) else counted := by
  simp [correctedRow, nonzero, fresh]

theorem bumpSat_regGet (s : State) (p q : Page) (o hi lo n u : Nat) (h : q.base + u ≠ p.base + o) : regGet (bumpSat s p o hi lo n) q u = regGet s q u := by
  unfold bumpSat
  split
  · rfl
  · exact regGet_regSet_ne _ _ _ _ _ _ h

theorem bumpSat_recorded (s : State) (p : Page) (o hi lo n : Nat) : recorded s (bumpSat s p o hi lo n) := by
  obtain ⟨r, h⟩ := bumpSat_only s p o hi lo n; rw [h]; rfl

/-- A scrub pass that met one line is that row's correction, on the state whose count of corrections has grown (R334). -/
theorem exec_scrubPeriod_one {s : State} {hall addr n : Nat} (on : fld s (pgMemory (hall % 8)) Reg.MC_CTRL 0 0 = 1) :
    ∃ u, recorded s u ∧ retireThr u (hall % 8) = retireThr s (hall % 8) ∧
      exec (.scrubPeriod hall [(addr, n)]) s = .next (correctedRow (hall % 8) u (addr, n)) := by
  refine ⟨bumpSat s (pgMemory (hall % 8)) Reg.MC_CE 31 0 ([(addr, n)].filter (fun x => x.2 != 0)).length, bumpSat_recorded .., ?_, ?_⟩
  · rw [retireThr, retireThr, fld, fld, bumpSat_regGet _ _ _ _ _ _ _ _ (by unfold Reg.MC_CE Reg.MC_CTRL; omega)]
  · change execScrubPeriod hall [(addr, n)] s = _
    unfold execScrubPeriod
    dsimp only
    rw [if_neg (by omega)]
    rfl

/-! Uncorrectable lines (R336). -/

/-- What a line's loss stops: the training of the context it belongs to. -/
def stopLine (s : State) (holds : LineHolds) : State :=
  match lineCtx holds with
  | some n => if simCtx s n || shadowLine s holds then s else hitTraining s n cMemUe
  | none => s

/-- The stack's registers after an uncorrectable line. -/
def flagLine (s : State) (p : Page) (addr : Nat) : State :=
  regSet (regSet (bumpSat (setErr s p 0) p Reg.MC_UE 31 0 1) p Reg.MC_UEADDR_LO addr) p Reg.MC_UEADDR_HI (addr / 2 ^ 32)

theorem flagLine_recorded (s : State) (p : Page) (addr : Nat) : recorded s (flagLine s p addr) :=
  (setErr_recorded ..).trans ((bumpSat_recorded ..).trans ((recorded_regs ..).trans (recorded_regs ..)))

/-- HBM_UE: the fault is flagged, what it stops is stopped, the line restored and its row retired; then the recovery waits. -/
theorem exec_hbmUe (s : State) (hall addr ns : Nat) (holds : LineHolds) :
    let s1 := stopLine (flagLine (beginRecovery s 4 (hallUnit (hall % 8)) (deviceId s) cMemUe false addr) (pgMemory (hall % 8)) addr) holds
    let s2 := retireRow (if shadowLine s1 holds then s1 else restoreLine s1 addr holds) (hall % 8) (Config.rowOf addr)
    exec (.hbmUe hall addr holds ns) s = .next (settleRecovery (recoveryWaits s2 (interrupted_ s2 (lineCtx holds).toList) ns)) := rfl

section
variable {s : State} {holds : LineHolds}
  (quiet : ∀ n, lineCtx holds = some n → (getCtx s n).attempt = none ∧ (getCtx s n).evalRun = none ∧ (getCtx s n).shadow.held = false)
include quiet

theorem stopLine_quiet : stopLine s holds = s := by
  cases line : lineCtx holds with
  | none => simp only [stopLine, line]
  | some n =>
    obtain ⟨attempt, evalRun, -⟩ := quiet n line
    simp only [stopLine, line, hitTraining, attempt, evalRun, ite_self]

theorem shadowLine_quiet : shadowLine s holds = false := by
  cases line : lineCtx holds with
  | none => simp only [shadowLine, line]
  | some n => simp only [shadowLine, line, (quiet n line).2.2]

/-- A line whose context runs nothing and shadows nothing is restored by what it holds, and its row retired. -/
theorem exec_hbmUe_quiet (hall addr ns : Nat) :
    ∃ u v, noted s u ∧ noted (retireRow (restoreLine u addr holds) (hall % 8) (Config.rowOf addr)) v ∧ exec (.hbmUe hall addr holds ns) s = .next v := by
  obtain ⟨u, hu⟩ : ∃ u, u = flagLine (beginRecovery s 4 (hallUnit (hall % 8)) (deviceId s) cMemUe false addr) (pgMemory (hall % 8)) addr := ⟨_, rfl⟩
  have flagged : noted s u := hu ▸ (beginRecovery_noted ..).trans (flagLine_recorded ..).noted
  have quietU : ∀ n, lineCtx holds = some n → (getCtx u n).attempt = none ∧ (getCtx u n).evalRun = none ∧ (getCtx u n).shadow.held = false :=
    fun n line => by rw [getCtx_congr flagged.ctxs]; exact quiet n line
  have ran := exec_hbmUe s hall addr ns holds
  dsimp only at ran
  rw [← hu, stopLine_quiet quietU, shadowLine_quiet quietU] at ran
  exact ⟨u, _, flagged, (recoveryWaits_noted ..).trans (settleRecovery_noted _), ran⟩

end

/-- A residual line's sixteen words are taken away. -/
theorem find_eraseLine {first i : Nat} (hi : i < 16) (m : SMap Nat) :
    SMap.find (first + i) ((List.range 16).foldl (fun (m : SMap Nat) i => m.erase (first + i)) m) = none := by
  have erased (l : List Nat) (m : SMap Nat) (gone : i ∈ l ∨ SMap.find (first + i) m = none) :
      SMap.find (first + i) (l.foldl (fun (m : SMap Nat) i => m.erase (first + i)) m) = none := by
    induction l generalizing m with
    | nil => simpa using gone
    | cons j l ih =>
      refine ih _ ?_
      rw [SMap.find_erase]
      rcases gone with mem | absent
      · rcases List.mem_cons.mp mem with rfl | mem
        · exact .inr (if_pos rfl)
        · exact .inl mem
      · exact .inr (by rw [absent, ite_self])
  exact erased _ m (.inl (List.mem_range.mpr hi))

/-! Retraining windows (R314). -/

/-- A window that is due opens where its moment has come. -/
def openedMc (quiet : Bool) (m : MemCtl) : MemCtl := if m.due.isSome && m.retrain.isNone && quiet then { m with retrain := m.due, due := none } else m

/-- One stack's turn in `openRetrains`. -/
def openRetrain (s : State) (h : Nat) : State :=
  let m := getMc s h
  if m.due.isSome && m.retrain.isNone && retrainQuiet s h then putMc s h { m with retrain := m.due, due := none } else s

theorem openRetrains_eq (s : State) : openRetrains s = (List.range 8).foldl openRetrain s := rfl

theorem openRetrain_mc (s : State) (h : Nat) : getMc (openRetrain s h) h = openedMc (retrainQuiet s h) (getMc s h) := by
  unfold openRetrain openedMc
  dsimp only
  split
  · exact getMc_putMc ..
  · rfl

theorem openRetrain_mc_ne (s : State) {i h : Nat} (other : h ≠ i) : getMc (openRetrain s i) h = getMc s h := by
  unfold openRetrain
  dsimp only
  split
  · exact getMc_putMc_ne _ other _
  · rfl

theorem retrainQuiet_putMc (s : State) (i : Nat) (m : MemCtl) (h : Nat) : retrainQuiet (putMc s i m) h = retrainQuiet s h := rfl

theorem openRetrain_quiet (s : State) (i h : Nat) : retrainQuiet (openRetrain s i) h = retrainQuiet s h := by
  unfold openRetrain
  dsimp only
  split
  · exact retrainQuiet_putMc ..
  · rfl

theorem openedMc_twice (quiet : Bool) (m : MemCtl) : openedMc quiet (openedMc quiet m) = openedMc quiet m := by
  unfold openedMc
  split
  · exact if_neg (by simp)
  · rfl

theorem openRetrains_mc (s : State) {h : Nat} (hall : h < 8) : getMc (openRetrains s) h = openedMc (retrainQuiet s h) (getMc s h) := by
  have turns (l : List Nat) (s : State) :
      getMc (l.foldl openRetrain s) h = if h ∈ l then openedMc (retrainQuiet s h) (getMc s h) else getMc s h := by
    induction l generalizing s with
    | nil => rfl
    | cons i l ih =>
      rw [List.foldl_cons, ih, openRetrain_quiet]
      by_cases same : h = i
      · subst same
        rw [openRetrain_mc, openedMc_twice, ite_self, if_pos List.mem_cons_self]
      · rw [openRetrain_mc_ne s same]
        simp [same]
  rw [openRetrains_eq, turns, if_pos (List.mem_range.mpr hall)]

end Sys2Proof.Machine
end

section
/-! O55: faults of units and of memory, scrub and retraining (R73, R314, R316, R317, R319, R333-R336). -/

namespace Sys2Proof.Machine

theorem hallContexts_congr {s t : State} (h : t.ctxs = s.ctxs) (hall : Nat) : hallContexts t hall = hallContexts s hall := by simp only [hallContexts, h]

/-- A mover of a hall in which no context runs is fenced and retired for good; no context is touched. -/
theorem retireMover_idle {s : State} {h : Nat} (m ns : Nat) (lease : Bool) (idle : hallContexts s h = []) (room : s.fence.length < 256) :
    moverTag s h m ∈ (retireMover s h m ns lease).fence ∧ (h * 8 + m) ∈ (retireMover s h m ns lease).silent.movers ∧
      (retireMover s h m ns lease).ctxs = s.ctxs := by
  obtain ⟨s1, hs1⟩ : ∃ x, x = beginRecovery s 8 (moverTag s h m) (deviceId s) cUnit lease := ⟨_, rfl⟩
  have begun : noted s s1 := hs1 ▸ beginRecovery_noted ..
  obtain ⟨f, fenced, tagged⟩ := fence_room (s := s1) (tag := moverTag s h m) (by rw [begun.fence]; exact room)
  obtain ⟨movers, hmovers⟩ : ∃ l, l = if s1.silent.movers.contains (h * 8 + m) then s1.silent.movers else s1.silent.movers ++ [h * 8 + m] := ⟨_, rfl⟩
  have listed : h * 8 + m ∈ movers := by
    rw [hmovers]
    split
    · next already => simpa using already
    · simp
  obtain ⟨s2, hs2⟩ : ∃ x, x = logFault { s1 with fence := f, silent := { s1.silent with movers := movers } }
    { kind := 3, cls := 8, device := deviceId s, unit := moverTag s h m, d0 := cUnit } := ⟨_, rfl⟩
  have logged := hs2 ▸ (logFault_recorded { s1 with fence := f, silent := { s1.silent with movers := movers } }
    { kind := 3, cls := 8, device := deviceId s, unit := moverTag s h m, d0 := cUnit }).noted
  have idle2 : hallContexts s2 h = [] := (hallContexts_congr (logged.ctxs.trans begun.ctxs) h).trans idle
  have ends : retireMover s h m ns lease = settleRecovery (recoveryWaits s2 [] ns) := by
    unfold retireMover
    dsimp only
    rw [← hs1, fenced]
    dsimp only
    rw [← hmovers, ← hs2, idle2]
    rfl
  have after := logged.trans ((recoveryWaits_noted s2 [] ns).trans (settleRecovery_noted _))
  rw [ends]
  exact ⟨after.fence ▸ tagged, after.silent ▸ listed, after.ctxs.trans begun.ctxs⟩

/-- SLOT_PAR by its bay: with the check on, the array is flagged and its gallery faults. -/
theorem exec_slotPar (hall aisle gallery bay ns : Nat) (s : State) :
    let k := galKey (hall % 8) (aisle % 16) (gallery % 68)
    exec (.slotPar hall aisle ⟨gallery, bay⟩ ns) s =
      if (if bay = 0 then fld s (faPg k) Reg.FA_CTRL 1 1 else fld s (baPg k) Reg.BA_CTRL 0 0) = 0 then .next s
      else .next (galleryFault (setErr s (if bay = 0 then faPg k else baPg k) (if bay = 0 then 3 else if bay = 1 then 2 else 5)) k cUnit ns false) := by
  change execSlotPar hall aisle ⟨gallery, bay⟩ ns s = _
  match bay with
  | 0 => rfl
  | 1 => rfl
  | n + 2 => rfl

/-- What HBM_UE leaves of the contexts and of the stack's rows. -/
theorem exec_hbmUe_leaves {s : State} {holds : LineHolds} (hall addr ns : Nat)
    (quiet : ∀ n, lineCtx holds = some n → (getCtx s n).attempt = none ∧ (getCtx s n).evalRun = none ∧ (getCtx s n).shadow.held = false) :
    ∃ u t, exec (.hbmUe hall addr holds ns) s = .next t ∧ Config.rowOf addr ∈ (getMc t (hall % 8)).retired ∧ twinActive u = twinActive s ∧
      (∀ n, getCtx u n = getCtx s n) ∧ ∀ n, getCtx t n = getCtx (restoreLine u addr holds) n := by
  obtain ⟨u, t, before, after, ran⟩ := exec_hbmUe_quiet quiet hall addr ns
  refine ⟨u, t, ran, ?_, ?_, getCtx_congr before.ctxs, getCtx_congr (after.ctxs.trans (retireRow_ctxs ..))⟩
  · rw [getMc_congr after.mem]; exact retireRow_mem ..
  · rw [twinActive, before.twin, twinActive]

section
variable (s : State) (addr n : Nat)

theorem restoreLine_gauge (g : Nat) (off : twinActive s = false) : ((getCtx (restoreLine s addr (.gauge n g)) n).gauges.get {} g).hcount = 0 := by
  simp [restoreLine, off]

theorem restoreLine_journal {tid ord : Nat} {j : JSlot} (slot : (getCtx s n).jslots.find (sliceKey tid ord) = some j) :
    (getCtx (restoreLine s addr (.journal n tid ord)) n).jslots.find (sliceKey tid ord) = some { j with lost := true } := by
  simp [restoreLine, slot]

theorem restoreLine_residual (tid first : Nat) {i : Nat} (hi : i < 16) :
    SMap.find (first + i) ((getCtx (restoreLine s addr (.residual n tid first)) n).residual.get [] tid) = none := by
  simp only [restoreLine]
  rw [getCtx_congr (logFault_recorded ..).ctxs, getCtx_modCtx, SMap.get_put_same]
  exact find_eraseLine hi _

theorem restoreLine_simulation (tid off : Nat) :
    (getCtx (restoreLine s addr (.simulation n tid off)) n).suspended = true ∧ (getCtx (restoreLine s addr (.simulation n tid off)) n).lastCause = cMemLost := by
  simp [restoreLine]

end

/-- Settles O55, clause by clause: what a gallery's, a mover's and a stack's fault leave is said once each in the lemmas of this section. -/
theorem faultsHandled : Obligations.FaultsHandled := by
  unfold Obligations.FaultsHandled
  refine ⟨?slotPar, ?sramUe, ?lost, ?mover, ?lease, ?line, ?scrub, ?retrain, ?force, ?done⟩
  case slotPar =>
    intro hall aisle gallery bay ns s k enabled
    have ran := exec_slotPar hall aisle gallery bay ns s
    refine ⟨fun off => ran.trans (if_pos off), fun on => ⟨_, ran.trans (if_neg on), setErr_recorded .., ?_⟩⟩
    by_cases front : bay = 0
    · simp only [if_pos front]
      exact setErr_bit_apart s (faPg k) (by decide) (show 0x08C < 0x1000 by decide) (show 0x08C ≠ Reg.EVT_PEND by decide) (faPg_apart_port k)
    · simp only [if_neg front]
      exact setErr_bit_apart s (baPg k) (by split <;> decide) (show 0x094 < 0x1000 by decide) (show 0x094 ≠ Reg.EVT_PEND by decide) (baPg_apart_port k)
  case sramUe =>
    intro k hub ns s hk idle
    have ran : exec (.sramUe (some k) hub ns) s = .next (galleryFault s k cUnit ns false) := if_pos hk
    refine ⟨fun spare => ⟨_, ran, ?_⟩, fun inService free => ⟨_, ran, ?_⟩⟩
    · obtain ⟨gal, ctxs, ended⟩ := galleryFault_spare cUnit ns false spare idle
      rw [gal]
      exact ⟨rfl, rfl, rfl, rfl, ctxs, ended⟩
    · obtain ⟨tick, gal⟩ := galleryFault_idle cUnit ns false inService free
      rw [gal]
      exact ⟨rfl, rfl, rfl⟩
  case lost =>
    intro unit ns c s hc
    have ran : exec c s = .next (declareLost s unit cUnit) := by rcases hc with rfl | rfl <;> rfl
    rw [ran]
    exact ⟨fun down => by rw [declareLost, if_pos down], fun up => ⟨_, rfl, declareLost_lost up unit cUnit⟩⟩
  case mover =>
    intro hall mover ns s idle room
    exact ⟨_, rfl, retireMover_idle (mover % 8) ns false idle room⟩
  case lease =>
    intro tag ns s own mod1
    have listed : exec (.leaseExpiry tag ns) s = execLeaseExpiry tag ns s := rfl
    rw [listed, execLeaseExpiry, if_neg (by simp [own, mod1])]
    refine ⟨fun mover => if_pos mover, fun k array gal => ?_⟩
    rw [if_neg (by omega), gal]
    exact if_pos array
  case line =>
    intro hall addr ns holds s quiet
    obtain ⟨u, t, ran, retired, twin, before, after⟩ := exec_hbmUe_leaves hall addr ns quiet
    refine ⟨t, ran, retired, ?_, ?_, ?_, ?_⟩
    · rintro n g rfl off
      rw [after]; exact restoreLine_gauge u addr n g (twin.trans off)
    · rintro n tid ord j rfl slot
      rw [after]; exact restoreLine_journal u addr n (before n ▸ slot)
    · rintro n tid first i rfl hi
      rw [after]; exact restoreLine_residual u addr n tid first hi
    · rintro n tid off rfl
      rw [after]; exact restoreLine_simulation u addr n tid off
  case scrub =>
    intro hall addr n s on nonzero fresh
    obtain ⟨u, counted, thr, ran⟩ := exec_scrubPeriod_one (addr := addr) (n := n) on
    have mc := getMc_congr counted.mem (hall % 8)
    have row := correctedRow_counts nonzero (mc ▸ fresh)
    dsimp only at row
    rw [mc, thr] at row
    refine ⟨fun below => ⟨_, ran, ?_⟩, fun reached => ⟨_, ran, ?_⟩⟩
    · rw [row, if_neg (by omega), getMc_putMc]
      exact ⟨by rw [SMap.get_insert, if_pos rfl], rfl⟩
    · rw [row, if_pos reached, retireRow_retired (by rw [getMc_putMc]; exact fresh), getMc_putMc]
  case retrain =>
    intro hall pc s closed
    refine ⟨_, rfl, ?_⟩
    rw [openRetrains_mc _ (Nat.mod_lt _ (by decide)), getMc_putMc, retrainQuiet_putMc]
    exact ⟨fun quiet => by simp [openedMc, closed, quiet], fun busy => by simp [openedMc, closed, busy]⟩
  case force =>
    intro hall pc s due closed
    refine ⟨_, if_pos ⟨due, closed⟩, ?_⟩
    rw [getMc_putMc]
    exact ⟨due, rfl⟩
  case done =>
    intro hall s due
    refine ⟨_, rfl, ?_⟩
    rw [openRetrains_mc _ (Nat.mod_lt _ (by decide)), getMc_putMc]
    simp [openedMc, due]

end Sys2Proof.Machine
end

section
/-! O11: gauge words are held, staged, applied at CLOSE and read back (R106, R107, R108; log entries 80 and 81). -/

namespace Sys2Proof.Machine

/-- A word that is due applies to its gauge and is due no longer. -/
theorem applyDue_some {s : State} {n g w : Nat} (h : s.gauge.due.find (stageKey n g) = some w) :
    ∃ c e, applyDue s n g = { s with ctxs := c, gauge := { s.gauge with due := e } } ∧ e.find (stageKey n g) = none ∧
      (∀ m, m ≠ n → getCtx (applyDue s n g) m = getCtx s m) ∧
      getCtx (applyDue s n g) n = { getCtx s n with gauges := (getCtx s n).gauges.put {} g (applyWord ((getCtx s n).gauges.get {} g) w) } := by
  simp only [applyDue, h]
  exact ⟨_, _, rfl, SMap.find_erase_same .., fun m hm => getCtx_modCtx_ne _ hm _, getCtx_modCtx ..⟩

theorem applyDue_none {s : State} {n g : Nat} (h : s.gauge.due.find (stageKey n g) = none) : applyDue s n g = s := by simp [applyDue, h]

/-- The state with one more staged word. -/
def stagedWith (s : State) (k w : Nat) : State := { s with gauge := { s.gauge with staged := s.gauge.staged.insert k w } }

/-- The state with one more word due, that was staged before. -/
def dueWith (s : State) (k w : Nat) : State :=
  { s with gauge := { s.gauge with staged := (s.gauge.staged.insert k w).erase k, due := s.gauge.due.insert k w } }

/-- There is room for a word: its pair has one already, or the store is not full (R107). -/
def stagingRoom (s : State) (k : Nat) : Prop :=
  (s.gauge.staged.find k).isSome = true ∨ s.gauge.staged.length + s.gauge.due.length < stageRoom

/-- A word for a resident context is staged where there is room; at the context's boundary it meets it at once (R106, R107). -/
theorem stageWord_room {s : State} (hi : Nat) (resident : (getCtx s (geSelected s).1).state ≠ 0)
    (room : stagingRoom s (stageKey (geSelected s).1 (geSelected s).2)) :
    let t := stagedWith s (stageKey (geSelected s).1 (geSelected s).2) (s.gauge.hold + hi % 2 ^ 32 * 2 ^ 32)
    stageWord s hi = if (getCtx s (geSelected s).1).atBoundary then meetBoundary t (geSelected s).1 (geSelected s).2 else t := by
  have notFull : ¬ ((s.gauge.staged.find (stageKey (geSelected s).1 (geSelected s).2)).isNone &&
      decide (stageRoom ≤ s.gauge.staged.length + s.gauge.due.length)) = true := by
    rcases room with has | free
    · rw [Option.isNone_eq_false_iff.mpr has]; simp
    · simp [Nat.not_le.mpr free]
  dsimp only [stageWord]
  rw [if_neg resident, if_neg notFull]
  rfl

/-- A context that is not resident, or a full store with a new pair, takes no word (R106, R107). -/
theorem stageWord_refused {s : State} (hi : Nat) (refused : (getCtx s (geSelected s).1).state = 0 ∨
    (s.gauge.staged.find (stageKey (geSelected s).1 (geSelected s).2) = none ∧ stageRoom ≤ s.gauge.staged.length + s.gauge.due.length)) :
    stageWord s hi = s := by
  dsimp only [stageWord]
  rcases refused with gone | ⟨new, full⟩
  · rw [if_pos gone]
  · simp [new, full]

/-- A word staged at its boundary is staged no longer: it is due, or applied where no CLOSE update of its gauge is to come (R106, R108). -/
theorem meetBoundary_stagedWith (s : State) (n g w : Nat) :
    ∃ t, t = meetBoundary (stagedWith s (stageKey n g) w) n g ∧ t = { s with ctxs := t.ctxs, gauge := t.gauge } ∧
      t.gauge.staged.find (stageKey n g) = none ∧
      (g ∈ (getCtx s n).closing → t.ctxs = s.ctxs ∧ t.gauge.due.find (stageKey n g) = some w) ∧
      (g ∉ (getCtx s n).closing → t.gauge.due.find (stageKey n g) = none ∧ (∀ m, m ≠ n → getCtx t m = getCtx s m) ∧
        getCtx t n = { getCtx s n with gauges := (getCtx s n).gauges.put {} g (applyWord ((getCtx s n).gauges.get {} g) w) }) := by
  have meets : meetBoundary (stagedWith s (stageKey n g) w) n g =
      if (getCtx s n).closing.contains g then dueWith s (stageKey n g) w else applyDue (dueWith s (stageKey n g) w) n g := by
    simp only [meetBoundary, stagedWith, SMap.find_insert_same]
    rfl
  have isDue : (dueWith s (stageKey n g) w).gauge.due.find (stageKey n g) = some w := SMap.find_insert_same ..
  have unstaged : (dueWith s (stageKey n g) w).gauge.staged.find (stageKey n g) = none := SMap.find_erase_same ..
  refine ⟨_, rfl, ?_⟩
  rw [meets]
  by_cases waits : g ∈ (getCtx s n).closing
  · rw [if_pos (List.contains_iff_mem.mpr waits)]
    exact ⟨rfl, unstaged, fun _ => ⟨rfl, isDue⟩, fun no => absurd waits no⟩
  · rw [if_neg (fun h => waits (List.contains_iff_mem.mp h))]
    obtain ⟨c, e, applied, none_, others, own⟩ := applyDue_some isDue
    exact ⟨by rw [applied]; rfl, by rw [applied]; exact unstaged, fun yes => absurd yes waits,
      fun _ => ⟨by rw [applied]; exact none_, others, own⟩⟩

/-- The gauge whose turn it is leaves the order of CLOSE updates, and the word that waits for it applies (R108). -/
theorem finishGauge_ends {s : State} {n g : Nat} {rest : List Nat} (turn : (getCtx s n).closing = g :: rest) :
    finishGauge s n = { s with ctxs := (finishGauge s n).ctxs, gauge := (finishGauge s n).gauge } ∧
      (getCtx (finishGauge s n) n).closing = rest ∧
      (s.gauge.due.find (stageKey n g) = none → (finishGauge s n).gauge = s.gauge ∧ (getCtx (finishGauge s n) n).gauges = (getCtx s n).gauges) ∧
      (∀ w, s.gauge.due.find (stageKey n g) = some w → (finishGauge s n).gauge.due.find (stageKey n g) = none ∧
        (getCtx (finishGauge s n) n).gauges.get {} g = applyWord ((getCtx s n).gauges.get {} g) w) ∧
      ∀ m, m ≠ n → getCtx (finishGauge s n) m = getCtx s m := by
  have ends : finishGauge s n = applyDue (modCtx s n (fun c => { c with closing := rest })) n g := by simp [finishGauge, turn]
  rcases waiting : s.gauge.due.find (stageKey n g) with _ | w
  · rw [ends, applyDue_none (s := modCtx s n _) waiting]
    exact ⟨rfl, by rw [getCtx_modCtx], fun _ => ⟨rfl, by rw [getCtx_modCtx]⟩, (nofun), fun m hm => getCtx_modCtx_ne s hm _⟩
  · obtain ⟨c, e, applied, none_, others, own⟩ := applyDue_some (s := modCtx s n (fun c => { c with closing := rest })) waiting
    rw [getCtx_modCtx] at own
    rw [ends]
    refine ⟨by rw [applied]; rfl, by rw [own], (nofun), fun v same => ⟨by rw [applied]; exact none_, ?_⟩,
      fun m hm => (others m hm).trans (getCtx_modCtx_ne s hm _)⟩
    cases same
    rw [own]
    exact SMap.get_put_same ..

/-- Settles O11: what a word meets is said once for the staging and once for the CLOSE update; the rest is what the commands write. -/
theorem gaugeWords : Obligations.GaugeWords := by
  have word (x : Word) : x.toNat % 2 ^ 32 = x.toNat := Nat.mod_eq_of_lt x.isLt
  refine ⟨fun x s => rfl, ?staged, ?boundary, ?refused, ?fetch, ?fetched, ?ready, ?turn, ?noTurn⟩
  case staged =>
    intro x s resident off room
    change Host.Outcome.next (stageWord s x.toNat) = _
    rw [stageWord_room _ resident room, word, off]
    rfl
  case boundary =>
    intro x s resident at_ room
    obtain ⟨t, meets, ends⟩ := meetBoundary_stagedWith s (geSelected s).1 (geSelected s).2 (s.gauge.hold + x.toNat * 2 ^ 32)
    refine ⟨t, ?_, ends⟩
    change Host.Outcome.next (stageWord s x.toNat) = _
    rw [stageWord_room _ resident (.inr room), word, if_pos at_, ← meets]
  case refused => exact fun x s no => congrArg Host.Outcome.next (stageWord_refused _ no)
  case fetch => exact fun i s other => if_neg other
  case fetched => exact fun i s same => if_pos same
  case ready =>
    intro n g s window
    change execGeHistReady s = _
    simp only [execGeHistReady, window]
  case turn =>
    intro n g rest s turn
    refine ⟨finishGauge s n, ?_, finishGauge_ends turn⟩
    change execCloseUpdateDone n g s = _
    rw [execCloseUpdateDone, turn, List.head?_cons, if_pos rfl]
  case noTurn => exact fun n g s other => if_neg other

end Sys2Proof.Machine
end

section
/-! O12: fit(h, F) is the smallest exponent that holds h (R81). -/

namespace Sys2Proof.Machine

/-! Magnitudes as rationals. -/

/-- A natural power of two with an exponent that is an integer. -/
theorem cast_two_pow_toNat {k : Int} (h : 0 ≤ k) : ((2 ^ k.toNat : Nat) : ℚ) = 2 ^ k := by
  rw [Nat.cast_pow, Nat.cast_ofNat, ← zpow_natCast, Int.toNat_of_nonneg h]

/-- A factor of two to the power k on one side is one to the power -k on the other. -/
theorem lt_mul_two_zpow_neg (x y : ℚ) (k : Int) : x < y * 2 ^ (-k) ↔ x * 2 ^ k < y := by
  rw [zpow_neg, ← div_eq_mul_inv, lt_div_iff₀ (by positivity)]

theorem magGt_iff (a b : Nat) (ea eb : Int) : magGt a ea b eb = true ↔ (b : ℚ) * 2 ^ eb < a * 2 ^ ea := by
  have shift : (b : ℚ) * 2 ^ eb < a * 2 ^ ea ↔ (b : ℚ) < a * 2 ^ (ea - eb) := by
    rw [sub_eq_add_neg, zpow_add₀ two_ne_zero, ← mul_assoc, lt_mul_two_zpow_neg]
  unfold magGt
  split
  · next le =>
    rw [shift, decide_eq_true_eq, gt_iff_lt, ← Nat.cast_lt (α := ℚ), Nat.cast_mul, cast_two_pow_toNat (by omega)]
  · next lt =>
    rw [shift, decide_eq_true_eq, gt_iff_lt, ← Nat.cast_lt (α := ℚ), Nat.cast_mul, cast_two_pow_toNat (by omega),
      show ea - eb = -(eb - ea) by omega, lt_mul_two_zpow_neg]

/-- ilog2Q answers by the same comparison. -/
theorem ilog2Q_eq (num den : Nat) : ilog2Q num den =
    if magGt den ((Nat.log2 num : Int) - Nat.log2 den) num 0 = true then (Nat.log2 num : Int) - Nat.log2 den - 1
    else (Nat.log2 num : Int) - Nat.log2 den := by
  unfold ilog2Q magGt
  dsimp only
  rw [Int.sub_zero, Int.zero_sub]
  split <;> simp only [decide_eq_true_eq] <;> split <;> split <;> omega

/-- A positive number lies between two powers of two. -/
theorem log2_bounds {n : Nat} (h : 0 < n) : (2 : ℚ) ^ (Nat.log2 n : Int) ≤ n ∧ (n : ℚ) < 2 ^ ((Nat.log2 n : Int) + 1) := by
  constructor
  · rw [zpow_natCast]; exact_mod_cast Nat.log2_self_le h.ne'
  · exact_mod_cast (Nat.lt_log2_self (n := n))

/-- floor(log2(num / den)). -/
theorem ilog2Q_bounds {num den : Nat} (hn : 0 < num) (hd : 0 < den) :
    (den : ℚ) * 2 ^ ilog2Q num den ≤ num ∧ (num : ℚ) < den * 2 ^ (ilog2Q num den + 1) := by
  obtain ⟨nlo, nhi⟩ := log2_bounds hn
  obtain ⟨dlo, dhi⟩ := log2_bounds hd
  rw [ilog2Q_eq]
  split
  · next below =>
    rw [magGt_iff, zpow_zero, mul_one] at below
    refine ⟨?_, by rwa [sub_add_cancel]⟩
    calc (den : ℚ) * 2 ^ ((Nat.log2 num : Int) - Nat.log2 den - 1)
        ≤ 2 ^ ((Nat.log2 den : Int) + 1) * 2 ^ ((Nat.log2 num : Int) - Nat.log2 den - 1) := by gcongr
      _ = 2 ^ (Nat.log2 num : Int) := by rw [← zpow_add₀ two_ne_zero]; congr 1; omega
      _ ≤ num := nlo
  · next above =>
    rw [magGt_iff, zpow_zero, mul_one, not_lt] at above
    refine ⟨above, ?_⟩
    calc (num : ℚ) < 2 ^ ((Nat.log2 num : Int) + 1) := nhi
      _ = 2 ^ (Nat.log2 den : Int) * 2 ^ ((Nat.log2 num : Int) - Nat.log2 den + 1) := by rw [← zpow_add₀ two_ne_zero]; congr 1; omega
      _ ≤ den * 2 ^ ((Nat.log2 num : Int) - Nat.log2 den + 1) := by gcongr

/-- The quotient is a power of two. -/
theorem exactPow_iff (m f : Nat) (k : Int) :
    (if 0 ≤ k then decide (m = f * 2 ^ k.toNat) else decide (m * 2 ^ (-k).toNat = f)) = true ↔ (m : ℚ) = f * 2 ^ k := by
  split
  · next nonneg => rw [decide_eq_true_eq, ← Nat.cast_inj (R := ℚ), Nat.cast_mul, cast_two_pow_toNat nonneg]
  · next neg =>
    rw [decide_eq_true_eq, ← Nat.cast_inj (R := ℚ), Nat.cast_mul, cast_two_pow_toNat (by omega), zpow_neg, ← div_eq_mul_inv,
      div_eq_iff (by positivity)]

/-- fit up to the exponents of its operands: the smallest k with m ≤ f * 2^k. -/
theorem fit_ceil {m : Nat} (hm : m ≠ 0) (e : Int) {f : Nat × Int} (hf : 0 < f.1) :
    ∃ k : Int, fit m e f = k + e - f.2 ∧ (m : ℚ) ≤ f.1 * 2 ^ k ∧ ∀ x < k, f.1 * 2 ^ x < (m : ℚ) := by
  obtain ⟨lo, hi⟩ := ilog2Q_bounds (Nat.pos_of_ne_zero hm) hf
  have below {k x : Int} (lt : x < k) : (f.1 : ℚ) * 2 ^ x < f.1 * 2 ^ k := by
    gcongr
    · exact one_lt_two
  unfold fit
  rw [if_neg hm]
  dsimp only
  by_cases whole : (m : ℚ) = f.1 * 2 ^ ilog2Q m f.1
  · rw [if_pos ((exactPow_iff ..).mpr whole)]
    exact ⟨_, rfl, whole.le, fun x lt => whole ▸ below lt⟩
  · rw [if_neg (fun h => whole ((exactPow_iff ..).mp h))]
    refine ⟨_, rfl, hi.le, fun x lt => lt_of_le_of_lt ?_ (lo.lt_of_ne (Ne.symm whole))⟩
    rcases (Int.lt_add_one_iff.mp lt).lt_or_eq with lt | rfl
    · exact (below lt).le
    · exact le_rfl

/-- Both sides of a comparison with fit carry the operand's exponent. -/
theorem lt_mul_two_zpow_add (x y : ℚ) (k e : Int) : x * 2 ^ (k + e) < y * 2 ^ e ↔ x * 2 ^ k < y := by
  rw [zpow_add₀ two_ne_zero, ← mul_assoc, mul_lt_mul_iff_left₀ (by positivity)]

/-- Settles O12: fit is the ceiling of the quotient's binary logarithm, and the F of a gauge is looked up by its binding. -/
theorem fitIsSmallest : Obligations.FitIsSmallest := by
  refine ⟨fun m e f hf => ⟨fun zero => by rw [fit, if_pos zero], fun hm => ?_⟩, fun p g b d bound => ⟨fun bucket => ?_, fun tensor fmt => ?_⟩,
    by decide, by decide, by decide, by decide, by decide, by decide⟩
  · obtain ⟨k, eq, holds, least⟩ := fit_ceil hm e hf
    rw [eq]
    refine ⟨?_, fun x lt => ?_⟩
    · rw [Bool.eq_false_iff, ne_eq, magGt_iff, show f.2 + (k + e - f.2) = k + e by omega, lt_mul_two_zpow_add, not_lt]
      exact holds
    · rw [magGt_iff, show f.2 + x = f.2 + x - e + e by omega, lt_mul_two_zpow_add]
      exact least _ (by omega)
  · simp only [gaugeF, bound, if_pos bucket]
  · simp only [gaugeF, bound, if_neg tensor, fmt]

end Sys2Proof.Machine
end

section
/-! SUPPORT of O48, O51, O52 and O53. What records, counters, recoveries and the traffic on the links leave alone: the contexts, the pegs and all
that decides an attempt (R316-R318, R337, R342-R352, R373, R374). -/

namespace Sys2Proof.Machine

/-- A state without what records, counters, recoveries and traffic change. -/
def besideTraffic (s : State) : State :=
  { s with freeCtr := 0, regs := {}, nextRef := 0, recovery := none, ec := {}, host := { s.host with devRings := [] }, links := [], router := {},
           digests := [], out := [] }

@[simp] theorem besideTraffic_ite (p : Prop) [Decidable p] (s t : State) :
    besideTraffic (if p then s else t) = if p then besideTraffic s else besideTraffic t := apply_ite besideTraffic p s t

/-- A fold changes no more than traffic does where each of its steps does not. -/
@[simp] theorem besideTraffic_foldl {α : Type} {f : State → α → State} (keeps : ∀ s x, besideTraffic (f s x) = besideTraffic s) (l : List α)
    (s : State) : besideTraffic (l.foldl f s) = besideTraffic s := by
  induction l generalizing s with
  | nil => rfl
  | cons x l ih => rw [List.foldl_cons, ih, keeps]

/-! Records, counters and recoveries. -/

@[simp] theorem besideTraffic_freeNext (s : State) : besideTraffic (freeNext s).2 = besideTraffic s := rfl
@[simp] theorem besideTraffic_freeNs (s : State) (cls : Nat) : besideTraffic (freeNs s cls).2 = besideTraffic s := rfl
@[simp] theorem besideTraffic_emit (s : State) (o : Out) : besideTraffic (emit s o) = besideTraffic s := rfl
@[simp] theorem besideTraffic_regSet (s : State) (p : Page) (o v : Nat) : besideTraffic (regSet s p o v) = besideTraffic s := rfl
@[simp] theorem besideTraffic_putLink (s : State) (n : Nat) (l : Link) : besideTraffic (putLink s n l) = besideTraffic s := rfl
@[simp] theorem besideTraffic_updateGroup (s : State) (k : Nat) : besideTraffic (updateGroup s k) = besideTraffic s := rfl
@[simp] theorem besideTraffic_recoveryWaits (s : State) (ns : List Nat) (t : Nat) : besideTraffic (recoveryWaits s ns t) = besideTraffic s := rfl

@[simp] theorem besideTraffic_bumpWrap (s : State) (p : Page) (o n : Nat) : besideTraffic (bumpWrap s p o n) = besideTraffic s := by
  obtain ⟨r, h⟩ := bumpWrap_only s p o n; rw [h]; rfl

@[simp] theorem besideTraffic_bumpSat (s : State) (p : Page) (o hi lo n : Nat) : besideTraffic (bumpSat s p o hi lo n) = besideTraffic s := by
  obtain ⟨r, h⟩ := bumpSat_only s p o hi lo n; rw [h]; rfl

@[simp] theorem besideTraffic_bump64 (s : State) (p : Page) (o n : Nat) : besideTraffic (bump64 s p o n) = besideTraffic s := by
  obtain ⟨r, h⟩ := bump64_only s p o n; rw [h]; rfl

@[simp] theorem besideTraffic_pushRec (s : State) (k n : Nat) (b : List Byte) : besideTraffic (pushRec s k n b) = besideTraffic s := by
  obtain ⟨r, e, d, h⟩ := pushRec_only s k n b; rw [h]; rfl

@[simp] theorem besideTraffic_logFault (s : State) (f : FaultRec) : besideTraffic (logFault s f) = besideTraffic s := besideTraffic_pushRec ..

@[simp] theorem besideTraffic_setErr (s : State) (p : Page) (i : Nat) : besideTraffic (setErr s p i) = besideTraffic s := by
  obtain ⟨r, e, d, h⟩ := setErr_only s p i; rw [h]; rfl

@[simp] theorem besideTraffic_beginRecovery (s : State) (cls unit dev code : Nat) (lease : Bool) (addr : Nat) :
    besideTraffic (beginRecovery s cls unit dev code lease addr) = besideTraffic s := by
  obtain ⟨r, e, d, x, h⟩ := beginRecovery_only s cls unit dev code lease addr; rw [h]; rfl

@[simp] theorem besideTraffic_settleRecovery (s : State) : besideTraffic (settleRecovery s) = besideTraffic s := by
  obtain ⟨r, e, d, x, h⟩ := settleRecovery_only s; rw [h]; rfl

@[simp] theorem besideTraffic_recoveryEnds (s : State) (n t : Nat) : besideTraffic (recoveryEnds s n t) = besideTraffic s := by
  unfold recoveryEnds
  split
  · rfl
  · rw [besideTraffic_ite, besideTraffic_settleRecovery]
    split <;> rfl

@[simp] theorem besideTraffic_keepDigest (s : State) (n : Nat) (g : GroupRec) (tag step key : Nat) (b : Bucket) :
    besideTraffic (keepDigest s n g tag step key b) = besideTraffic s := by
  unfold keepDigest
  dsimp only
  split <;> rfl

/-! Links and messages. -/

@[simp] theorem besideTraffic_launch (s : State) (n : Nat) (l : Link) (f : Flit) : besideTraffic (launch s n l f) = besideTraffic s := by
  simp [launch]

@[simp] theorem besideTraffic_pump (n k : Nat) (s : State) : besideTraffic (pump n k s) = besideTraffic s := by
  induction k generalizing s with
  | zero => rfl
  | succ k ih =>
    unfold pump
    dsimp only
    split
    · rfl
    · split
      · rfl
      · rw [ih, besideTraffic_launch]

@[simp] theorem besideTraffic_enqueueFlit (s : State) (n : Nat) (f : Flit) : besideTraffic (enqueueFlit s n f) = besideTraffic s := by
  simp [enqueueFlit]

@[simp] theorem besideTraffic_sendOn (s : State) (link dst tc proto n : Nat) (dateline : Bool) (m : Msg) :
    besideTraffic (sendOn s link dst tc proto n dateline m) = besideTraffic s := by
  unfold sendOn
  rw [besideTraffic_foldl (fun s f => besideTraffic_enqueueFlit s link _)]
  rfl

@[simp] theorem besideTraffic_sendRouted (s : State) (dst tc proto n : Nat) (m : Msg) :
    besideTraffic (sendRouted s dst tc proto n m) = besideTraffic s := by
  unfold sendRouted
  split
  · rfl
  · split <;> simp

@[simp] theorem besideTraffic_sendNear (s : State) (dst tc proto n : Nat) (m : Msg) : besideTraffic (sendNear s dst tc proto n m) = besideTraffic s := by
  unfold sendNear
  split
  · rfl
  · split <;> simp

@[simp] theorem besideTraffic_sendBundle (s : State) (dst tc proto n : Nat) (m : Msg) :
    besideTraffic (sendBundle s dst tc proto n m) = besideTraffic s := by
  unfold sendBundle
  split <;> simp

@[simp] theorem besideTraffic_sendPegOp (s : State) (n dev peg op value : Nat) (cause : Cause) (step : Nat) :
    besideTraffic (sendPegOp s n dev peg op value cause step) = besideTraffic s := by
  unfold sendPegOp
  split
  · rfl
  · rw [besideTraffic_ite, besideTraffic_sendBundle, besideTraffic_sendNear, ite_self]
    rfl

@[simp] theorem besideTraffic_routeFlit (s : State) (f : Flit) : besideTraffic (routeFlit s f) = besideTraffic s := by
  unfold routeFlit
  split <;> simp

@[simp] theorem besideTraffic_rerouteFlit (s : State) (bundle : Bool) (f : Flit) : besideTraffic (rerouteFlit s bundle f) = besideTraffic s := by
  unfold rerouteFlit
  split
  · rfl
  · split
    · split <;> simp
    · simp

@[simp] theorem besideTraffic_stopLink (s : State) (link st : Nat) : besideTraffic (stopLink s link st) = besideTraffic s := by simp [stopLink]

@[simp] theorem besideTraffic_noteBundle (s : State) : besideTraffic (noteBundle s) = besideTraffic s := by simp [noteBundle]

@[simp] theorem besideTraffic_failLink (s : State) (link ns : Nat) : besideTraffic (failLink s link ns) = besideTraffic s := by simp [failLink]

@[simp] theorem besideTraffic_pathFault (s : State) (d : Nat) : besideTraffic (pathFault s d) = besideTraffic s := by
  unfold pathFault
  dsimp only
  split <;> simp

@[simp] theorem besideTraffic_compareAt (s : State) (n : Nat) (g : GroupRec) (steps : Nat → Bool) (pos : Nat) :
    besideTraffic (compareAt s n g steps pos) = besideTraffic s := by
  unfold compareAt
  dsimp only
  split
  · rfl
  · rw [besideTraffic_ite, besideTraffic_pathFault, besideTraffic_logFault, ite_self]
    rfl

@[simp] theorem besideTraffic_compareExchange (s : State) (n : Nat) (steps : Nat → Bool) :
    besideTraffic (compareExchange s n steps) = besideTraffic s := by
  unfold compareExchange
  dsimp only
  split <;> simp

/-! What the contexts and the pegs read. -/

theorem ctxs_of_besideTraffic {s t : State} (h : besideTraffic t = besideTraffic s) : t.ctxs = s.ctxs := (congrArg State.ctxs h :)

theorem getCtx_of_besideTraffic {s t : State} (h : besideTraffic t = besideTraffic s) (n : Nat) : getCtx t n = getCtx s n :=
  getCtx_congr (ctxs_of_besideTraffic h) n

theorem getPeg_of_besideTraffic {s t : State} (h : besideTraffic t = besideTraffic s) (k : Nat) : getPeg t k = getPeg s k := by
  have pegs : t.pegs = s.pegs := (congrArg State.pegs h :)
  rw [getPeg, getPeg, pegs]

@[simp] theorem getCtx_freeNext (s : State) (m : Nat) : getCtx (freeNext s).2 m = getCtx s m := rfl
@[simp] theorem getCtx_freeNs (s : State) (cls m : Nat) : getCtx (freeNs s cls).2 m = getCtx s m := rfl
@[simp] theorem getCtx_regSet (s : State) (p : Page) (o v m : Nat) : getCtx (regSet s p o v) m = getCtx s m := rfl
@[simp] theorem getCtx_recoveryWaits (s : State) (ns : List Nat) (t m : Nat) : getCtx (recoveryWaits s ns t) m = getCtx s m := rfl

@[simp] theorem getCtx_bumpWrap (s : State) (p : Page) (o n m : Nat) : getCtx (bumpWrap s p o n) m = getCtx s m :=
  getCtx_of_besideTraffic (besideTraffic_bumpWrap ..) m

@[simp] theorem getCtx_bumpSat (s : State) (p : Page) (o hi lo n m : Nat) : getCtx (bumpSat s p o hi lo n) m = getCtx s m :=
  getCtx_of_besideTraffic (besideTraffic_bumpSat ..) m

@[simp] theorem getCtx_bump64 (s : State) (p : Page) (o n m : Nat) : getCtx (bump64 s p o n) m = getCtx s m :=
  getCtx_of_besideTraffic (besideTraffic_bump64 ..) m

@[simp] theorem getCtx_logFault (s : State) (f : FaultRec) (m : Nat) : getCtx (logFault s f) m = getCtx s m :=
  getCtx_of_besideTraffic (besideTraffic_logFault ..) m

@[simp] theorem getCtx_setErr (s : State) (p : Page) (i m : Nat) : getCtx (setErr s p i) m = getCtx s m :=
  getCtx_of_besideTraffic (besideTraffic_setErr ..) m

@[simp] theorem getCtx_beginRecovery (s : State) (cls unit dev code : Nat) (lease : Bool) (addr m : Nat) :
    getCtx (beginRecovery s cls unit dev code lease addr) m = getCtx s m := getCtx_of_besideTraffic (besideTraffic_beginRecovery ..) m

@[simp] theorem getCtx_settleRecovery (s : State) (m : Nat) : getCtx (settleRecovery s) m = getCtx s m :=
  getCtx_of_besideTraffic (besideTraffic_settleRecovery ..) m

@[simp] theorem getCtx_recoveryEnds (s : State) (n t m : Nat) : getCtx (recoveryEnds s n t) m = getCtx s m :=
  getCtx_of_besideTraffic (besideTraffic_recoveryEnds ..) m

@[simp] theorem getCtx_keepDigest (s : State) (n : Nat) (g : GroupRec) (tag step key : Nat) (b : Bucket) (m : Nat) :
    getCtx (keepDigest s n g tag step key b) m = getCtx s m := getCtx_of_besideTraffic (besideTraffic_keepDigest ..) m

@[simp] theorem getCtx_sendOn (s : State) (link dst tc proto n : Nat) (dateline : Bool) (x : Msg) (m : Nat) :
    getCtx (sendOn s link dst tc proto n dateline x) m = getCtx s m := getCtx_of_besideTraffic (besideTraffic_sendOn ..) m

@[simp] theorem getCtx_sendRouted (s : State) (dst tc proto n : Nat) (x : Msg) (m : Nat) : getCtx (sendRouted s dst tc proto n x) m = getCtx s m :=
  getCtx_of_besideTraffic (besideTraffic_sendRouted ..) m

@[simp] theorem getCtx_sendNear (s : State) (dst tc proto n : Nat) (x : Msg) (m : Nat) : getCtx (sendNear s dst tc proto n x) m = getCtx s m :=
  getCtx_of_besideTraffic (besideTraffic_sendNear ..) m

@[simp] theorem getCtx_sendBundle (s : State) (dst tc proto n : Nat) (x : Msg) (m : Nat) : getCtx (sendBundle s dst tc proto n x) m = getCtx s m :=
  getCtx_of_besideTraffic (besideTraffic_sendBundle ..) m

@[simp] theorem getCtx_sendPegOp (s : State) (n dev peg op value : Nat) (cause : Cause) (step m : Nat) :
    getCtx (sendPegOp s n dev peg op value cause step) m = getCtx s m := getCtx_of_besideTraffic (besideTraffic_sendPegOp ..) m

@[simp] theorem getCtx_compareExchange (s : State) (n : Nat) (steps : Nat → Bool) (m : Nat) : getCtx (compareExchange s n steps) m = getCtx s m :=
  getCtx_of_besideTraffic (besideTraffic_compareExchange ..) m

/-- Returning DONEPEGs to their bound state changes no context (R378). -/
@[simp] theorem getCtx_resetDone (s : State) (n : Nat) (ts : List Nat) (m : Nat) : getCtx (resetDone s n ts) m = getCtx s m := by
  have step {α : Type} {f : State → α → State} (keeps : ∀ s x, getCtx (f s x) m = getCtx s m) (l : List α) :
      ∀ s, getCtx (l.foldl f s) m = getCtx s m := by
    induction l with
    | nil => exact fun _ => rfl
    | cons x l ih => exact fun s => (ih (f s x)).trans (keeps s x)
  unfold resetDone
  dsimp only
  split
  · rfl
  · refine step (fun s i => ?_) ts s
    split <;> rfl

end Sys2Proof.Machine
end

section
/-! O48: how layers, the loss, the backward and VERIFY are judged (R91, R96, R215, R219, R230-R236; log entry 134). -/

namespace Sys2Proof.Machine

/-! What starting a layer leaves of the context. -/

/-- A context whose queues of work, and no more, are another's: what a dispatch may change (R7, R250, R252, R265). -/
def dispatchedTo (c d : Ctx) : Prop := d = { c with sliceAt := d.sliceAt, kernels := d.kernels, frameQueues := d.frameQueues }

theorem getCtx_dispatch (s : State) (n : Nat) (ts : List Nat) : dispatchedTo (getCtx s n) (getCtx (dispatch s n ts) n) := by
  unfold dispatchedTo dispatch
  rw [getCtx_modCtx]
  split <;> rfl

theorem dispatchedTo.attempt {c d : Ctx} (h : dispatchedTo c d) : d.attempt = c.attempt := by rw [h]
theorem dispatchedTo.gauges {c d : Ctx} (h : dispatchedTo c d) : d.gauges = c.gauges := by rw [h]
theorem dispatchedTo.plan {c d : Ctx} (h : dispatchedTo c d) : d.plan = c.plan := by rw [h]

@[simp] theorem attempt_dispatch (s : State) (n : Nat) (ts : List Nat) : (getCtx (dispatch s n ts) n).attempt = (getCtx s n).attempt :=
  (getCtx_dispatch s n ts).attempt

@[simp] theorem gauges_dispatch (s : State) (n : Nat) (ts : List Nat) : (getCtx (dispatch s n ts) n).gauges = (getCtx s n).gauges :=
  (getCtx_dispatch s n ts).gauges

/-- Starting a layer saves its gauges in the attempt and may move its phase to the loss (R90, R134). -/
theorem attempt_startLayer (s : State) (n i half pos : Nat) (a : Attempt) (h : (getCtx s n).attempt = some a) :
    ∃ saved phase, (getCtx (startLayer s n i half pos) n).attempt = some { a with saved := saved, phase := phase } := by
  unfold startLayer
  dsimp only
  split
  · exact ⟨a.saved, a.phase, h⟩
  · simp [markLayer, h]

/-- Starting the backward notes where it stands (R133, R235). -/
theorem attempt_startBackward {s : State} {n : Nat} {p : Plan} {a : Attempt} (i half pos : Nat) (bound : (getCtx s n).plan = some p)
    (h : (getCtx s n).attempt = some a) :
    ∃ v, (getCtx (startBackward s n i half pos) n).attempt = some { a with back := a.back.insert (pos * 2 + half) v } := by
  unfold startBackward
  simp only [bound]
  split
  · exact ⟨_, by rw [getCtx_modAttempt, attempt_dispatch, h]; rfl⟩
  · exact ⟨_, by rw [getCtx_modAttempt, h]; rfl⟩

@[simp] theorem getCtx_noteBadcode (s : State) (l : LayerRec) (t : Tally) (m : Nat) : getCtx (noteBadcode s l t) m = getCtx s m := by
  unfold noteBadcode
  split
  · exact getCtx_logFault ..
  · rfl

/-! LAYER_END (R230-R233). -/

/-- An error of the stair that is set reads one whatever its counters then do. -/
theorem stairErr_bit (s : State) {i : Nat} (hi : i < 32) : bit (regGet (setErr s pgStair i) pgStair (errOff pgStair.kind)) i = true :=
  setErr_bit s pgStair i hi (by decide) (.inr (by decide))

section
variable {s : State} {n layer half pos : Nat} {p : Plan} {l : LayerRec} {a : Attempt}

/-- A layer's forward that has ended is judged, unless a survey of its pass 1 is due (R91, R230). -/
theorem exec_layerEnd_judged (live : liveLayer (getCtx s n) layer = some (p, l)) (forward : l.kind ≠ 2)
    (runs : layerRuns (getCtx s n) layer half pos = true) (all : reported (getCtx s n) (layerKey layer half pos) false = true)
    (noSurvey : surveyDue (getCtx s n) p l (layerKey layer half pos) [0] = []) :
    exec (.layerEnd n layer half pos) s = .next (judgeForward s n p l layer half pos) := by
  change execLayerEnd n layer half pos s = _
  simp [execLayerEnd, live, forward, runs, all, noSurvey]

/-- The tread above, or none where the ceiling or the format ends the stair (R231). -/
def treadAbove (l : LayerRec) (af8 : Bool) (old : Nat) : Option Nat := if l.fceil ≤ old then none else nextTread af8 old

/-- The layer's input is AF8 (R226). -/
def inputAf8 (p : Plan) (l : LayerRec) : Bool :=
  match p.fmtOf l.x with
  | some d => d.fmt == .af8
  | none => false

theorem judgeForward_nan (running : (getCtx s n).attempt = some a) (nan : (a.tally.get .zero (layerKey layer half pos)).nan ≠ 0) :
    judgeForward s n p l layer half pos =
      stairSkip (requestRaise (noteBadcode s l (a.tally.get .zero (layerKey layer half pos))) n (outGauges p l)) n := by
  simp [judgeForward, running, nan]

theorem judgeForward_clean (running : (getCtx s n).attempt = some a) (nan : (a.tally.get .zero (layerKey layer half pos)).nan = 0)
    (ovf : ovfOver s l (a.tally.get .zero (layerKey layer half pos)) = false) (sat : satOver s l (a.tally.get .zero (layerKey layer half pos)) = false) :
    judgeForward s n p l layer half pos =
      startLayer (modCtx (noteBadcode s l (a.tally.get .zero (layerKey layer half pos))) n (fun c => dropInterior c layer l)) n (layer + 1) half pos := by
  simp [judgeForward, running, nan, ovf, sat]

/-- OVF or SAT stands over its threshold (R230). -/
def exceeds (s : State) (l : LayerRec) (t : Tally) : Prop := ovfOver s l t = true ∨ satOver s l t = true

theorem exceeds.notClean {t : Tally} (h : exceeds s l t) : (!ovfOver s l t && !satOver s l t) = false := by
  rcases h with h | h <;> simp [h]

/-- Over a threshold with no tread above, the step is skipped with SB_ERR bit 1 (R233). -/
theorem judgeForward_ceiling (running : (getCtx s n).attempt = some a) (nan : (a.tally.get .zero (layerKey layer half pos)).nan = 0)
    (high : exceeds s l (a.tally.get .zero (layerKey layer half pos)))
    (top : treadAbove l (inputAf8 p l) (treadOf (getCtx s n) p layer half pos) = none) :
    ∃ s1 e, judgeForward s n p l layer half pos = stairSkip (logEvent (setErr s1 pgStair 1) n e) n := by
  simp only [judgeForward, running, Option.getD_some, nan, high.notClean, ne_eq, not_true_eq_false, if_false, Bool.false_eq_true]
  split
  · exact ⟨_, _, rfl⟩
  · next next found => exact nomatch top.symm.trans found

/-- Over a threshold with the budget of repeats used up, the step is skipped with SB_ERR bit 0 (R234). -/
theorem judgeForward_budget (running : (getCtx s n).attempt = some a) (nan : (a.tally.get .zero (layerKey layer half pos)).nan = 0)
    (high : exceeds s l (a.tally.get .zero (layerKey layer half pos))) {next : Nat}
    (above : treadAbove l (inputAf8 p l) (treadOf (getCtx s n) p layer half pos) = some next) (spent : a.limits.budget ≤ a.used.get 0 pos) :
    ∃ s1 e, judgeForward s n p l layer half pos = stairSkip (logEvent (bumpSat (setErr s1 pgStair 0) pgStair Reg.SB_ABORTS 31 0 1) n e) n := by
  simp only [judgeForward, running, Option.getD_some, nan, high.notClean, spent, ne_eq, not_true_eq_false, if_true, if_false, Bool.false_eq_true]
  split
  · next none_ => exact nomatch above.symm.trans none_
  · exact ⟨_, _, rfl⟩

/-- Over a threshold below the ceiling and within the budget, the layer is repeated one tread up (R231, R232). -/
theorem judgeForward_repeat (running : (getCtx s n).attempt = some a) (nan : (a.tally.get .zero (layerKey layer half pos)).nan = 0)
    (high : exceeds s l (a.tally.get .zero (layerKey layer half pos))) {next : Nat}
    (above : treadAbove l (inputAf8 p l) (treadOf (getCtx s n) p layer half pos) = some next) (left : a.used.get 0 pos < a.limits.budget) :
    ∃ why, judgeForward s n p l layer half pos =
      repeatLayer (noteBadcode s l (a.tally.get .zero (layerKey layer half pos))) n p l layer half pos next why := by
  simp only [judgeForward, running, Option.getD_some, nan, high.notClean, Nat.not_le.mpr left, ne_eq, not_true_eq_false, if_false,
    Bool.false_eq_true]
  split
  · next none_ => exact nomatch above.symm.trans none_
  · next found =>
    cases above.symm.trans found
    exact ⟨_, rfl⟩

/-- A repeat counts against the position, moves the tread, and sets the tallies of the pass beside those of the passes before (R231, R232). -/
theorem attempt_repeatLayer (running : (getCtx s n).attempt = some a) (next why : Nat) :
    ∃ b, (getCtx (repeatLayer s n p l layer half pos next why) n).attempt = some b ∧ b.used.find pos = some (a.used.get 0 pos + 1) ∧
      b.treads.find (layerKey layer half pos) = some next ∧ b.tally.get .zero (layerKey layer half pos) = .zero ∧
      b.prior.get .zero (layerKey layer half pos) =
        (a.prior.get .zero (layerKey layer half pos)).add (a.tally.get .zero (layerKey layer half pos)) := by
  unfold repeatLayer
  dsimp only
  rw [attempt_dispatch, getCtx_resetDone, getCtx_bumpSat, logEvent, getCtx_modAttempt, getCtx_putCtx, running]
  refine ⟨_, rfl, ?_, ?_, ?_, ?_⟩ <;> simp

end

/-! SURVEY (R91; log entry 134). -/

/-- The exponent that a survey's pass 1 gives a gauge of a tensor (R91). -/
def surveyExp (c : Ctx) (x : Nat × Nat) : Int :=
  fitCode (c.gauges.get {} x.1).pend (fmaxOf (c.open_ x.2).d) + ((c.gauges.get {} x.1).margin : Int) - 2

/-- A surveyed gauge takes its exponent, its tensor the exponent in force. -/
def surveySet (c : Ctx) (x : Nat × Nat) : Ctx :=
  { c with gauges := c.gauges.put {} x.1 { c.gauges.get {} x.1 with gexp := surveyExp c x, survey := false },
           tensors := c.tensors.put {} x.2 { c.open_ x.2 with et := (e8m0 (surveyExp c x)).1 } }

theorem gauge_surveySet (c : Ctx) (x : Nat × Nat) : (surveySet c x).gauges.get {} x.1 =
    { c.gauges.get {} x.1 with gexp := surveyExp c x, survey := false } := SMap.get_put_same ..

theorem gauge_surveySet_ne (c : Ctx) (x : Nat × Nat) {g : Nat} (h : g ≠ x.1) : (surveySet c x).gauges.get {} g = c.gauges.get {} g :=
  SMap.get_put_ne _ h _ _

theorem open_surveySet_ne (c : Ctx) (x : Nat × Nat) {tid : Nat} (h : tid ≠ x.2) : (surveySet c x).open_ tid = c.open_ tid := by
  simp only [Ctx.open_, surveySet, SMap.find_put_ne _ h]

/-- A gauge that is not surveyed keeps its word. -/
theorem gauge_survey_notMem {g : Nat} (gs : List (Nat × Nat)) (c : Ctx) (h : g ∉ gs.map (·.1)) :
    (gs.foldl surveySet c).gauges.get {} g = c.gauges.get {} g := by
  induction gs generalizing c with
  | nil => rfl
  | cons x gs ih =>
    rw [List.map_cons, List.mem_cons, not_or] at h
    rw [List.foldl_cons, ih _ h.2, gauge_surveySet_ne c x h.1]

/-- A surveyed gauge is in survey mode no longer. -/
theorem gauge_survey_ends {g : Nat} (gs : List (Nat × Nat)) (c : Ctx) (h : g ∈ gs.map (·.1) ∨ (c.gauges.get {} g).survey = false) :
    ((gs.foldl surveySet c).gauges.get {} g).survey = false := by
  induction gs generalizing c with
  | nil => exact h.resolve_left List.not_mem_nil
  | cons x gs ih =>
    refine ih _ ?_
    by_cases same : g = x.1
    · rw [same, gauge_surveySet]
      exact .inr rfl
    · rw [gauge_surveySet_ne c x same]
      exact h.imp_left (fun mem => (List.mem_cons.mp mem).resolve_left same)

/-- Each surveyed gauge takes the exponent of pass 1, whatever the order. -/
theorem gauge_survey_gexp (gs : List (Nat × Nat)) (c : Ctx) (gauges : (gs.map (·.1)).Nodup) (tensors : (gs.map (·.2)).Nodup) {x : Nat × Nat}
    (mem : x ∈ gs) : ((gs.foldl surveySet c).gauges.get {} x.1).gexp = surveyExp c x := by
  induction gs generalizing c with
  | nil => exact absurd mem List.not_mem_nil
  | cons y gs ih =>
    rw [List.map_cons, List.nodup_cons] at gauges tensors
    rcases List.mem_cons.mp mem with rfl | later
    · rw [List.foldl_cons, gauge_survey_notMem gs _ gauges.1, gauge_surveySet]
    · have otherGauge : x.1 ≠ y.1 := fun same => gauges.1 (same ▸ List.mem_map_of_mem later)
      have otherTensor : x.2 ≠ y.2 := fun same => tensors.1 (same ▸ List.mem_map_of_mem later)
      rw [List.foldl_cons, ih _ gauges.2 tensors.2 later, surveyExp, surveyExp, gauge_surveySet_ne c y otherGauge, open_surveySet_ne c y otherTensor]

/-- A tensor is surveyed once. -/
theorem surveyDue_tensors_nodup (c : Ctx) (p : Plan) (l : LayerRec) (key : Nat) (phases : List Nat) :
    ((surveyDue c p l key phases).map (·.2)).Nodup := by
  have once (f : Nat → Option (Nat × Nat)) (own : ∀ i y, f i = some y → y.2 = i) (is : List Nat) (h : is.Nodup) :
      ((is.filterMap f).map (·.2)).Nodup := by
    refine List.Nodup.map_on (fun x hx y hy same => ?_) (h.filterMap fun i j y hi hj => ?_)
    · obtain ⟨i, -, hi⟩ := List.mem_filterMap.mp hx
      obtain ⟨j, -, hj⟩ := List.mem_filterMap.mp hy
      rw [own i x hi, own j y hj] at same
      exact Option.some.inj (hi.symm.trans (same ▸ hj))
    · exact (own i y hi).symm.trans (own j y hj)
  refine once _ (fun i y h => ?_) _ (nodup_eraseDups _ _ (Nat.le_refl _))
  split at h
  · split at h
    · cases h; rfl
    · cases h
  · cases h

/-- A survey of a forward pass: the gauges take their exponents, the tally of pass 1 goes, and pass 2 is dispatched (R91). -/
theorem getCtx_surveyPass {s : State} {n : Nat} {a : Attempt} (p : Plan) (l : LayerRec) (k i half pos : Nat) (gs : List (Nat × Nat))
    (running : (getCtx s n).attempt = some a) :
    (getCtx (surveyPass s n p l k i half pos false gs) n).attempt =
      some { a with survey := a.survey ++ [k * 2], surveyed := true, tally := a.tally.put .zero k .zero } ∧
    (getCtx (surveyPass s n p l k i half pos false gs) n).gauges = (gs.foldl surveySet (getCtx s n)).gauges := by
  unfold surveyPass
  dsimp only
  rw [attempt_dispatch, gauges_dispatch, getCtx_resetDone, getCtx_putCtx, running]
  exact ⟨rfl, rfl⟩

/-- A forward pass that a survey is due for is surveyed (R91). -/
theorem exec_survey_forward {s : State} {n layer half pos : Nat} {p : Plan} {l : LayerRec} {a : Attempt}
    (live : liveLayer (getCtx s n) layer = some (p, l)) (running : (getCtx s n).attempt = some a) (forward : a.back.get 0 (pos * 2 + half) ≠ layer + 1)
    (runs : layerRuns (getCtx s n) layer half pos = true) (all : reported (getCtx s n) (layerKey layer half pos) false = true)
    (due : surveyDue (getCtx s n) p l (layerKey layer half pos) [0, 1] ≠ []) (nan : (a.tally.get .zero (layerKey layer half pos)).nan = 0) :
    exec (.survey n layer half pos) s = .next (surveyPass s n p l (layerKey layer half pos) layer half pos false
      (surveyDue (getCtx s n) p l (layerKey layer half pos) [0, 1])) := by
  have notBack : (a.back.get 0 (pos * 2 + half) == layer + 1) = false := beq_false_of_ne forward
  change execSurvey n layer half pos s = _
  simp [execSurvey, live, running, notBack, runs, all, due, nan]

/-! LOSS (R219, R236). -/

section
variable {s : State} {n half pos code : Nat} {p : Plan} {a : Attempt}

theorem exec_loss_known {tid : Nat} {l : LayerRec} (bound : (getCtx s n).plan = some p) (running : (getCtx s n).attempt = some a)
    (last : p.layer (p.layers.length - 1) = some l) (live : workLive (getCtx s n) = true) (loss : l.kind = 2)
    (once : ∀ x, x ∈ a.losses → x.1 ≠ pos * 2 + half) (runs : layerRuns (getCtx s n) (p.layers.length - 1) half pos = true)
    (all : reported (getCtx s n) (layerKey (p.layers.length - 1) half pos) false = true)
    (noSurvey : surveyDue (getCtx s n) p l (layerKey (p.layers.length - 1) half pos) [1] = []) :
    exec (.loss n half pos tid) s = .next (lossKnown s n p half pos (((getCtx s n).open_ tid).codeAt 0 0 % 2 ^ 32)) := by
  have first : a.losses.any (fun x => x.1 == pos * 2 + half) = false := by simpa using fun y z h => once (y, z) h
  change execLoss n half pos tid s = _
  simp [execLoss, bound, running, last, live, loss, first, runs, all, noSurvey]

/-- A NaN or infinite loss skips the step and lowers the loss scale (R219, R236). -/
theorem lossKnown_nonFinite (running : (getCtx s n).attempt = some a) (bad : (fp32V code).nonFinite = true) :
    ∃ u b, lossKnown s n p half pos code = endAttempt u n cNanLoss ∧ (getCtx u n).attempt = some b ∧
      b.losses = a.losses ++ [(pos * 2 + half, code)] ∧ b.lower = a.lower.or (some 2) := by
  unfold lossKnown
  dsimp only
  rw [if_pos bad]
  exact ⟨_, _, rfl, by rw [getCtx_modAttempt, getCtx_modAttempt, running]; rfl, rfl, rfl⟩

/-- The state in which a half's loss is noted and its backward is to begin. -/
def lossNoted (s : State) (n half pos code : Nat) : State :=
  modAttempt (modAttempt s n (fun a => { a with losses := a.losses ++ [(pos * 2 + half, code)] })) n (fun a => { a with phase := 4 })

theorem lossKnown_goesOn {b : Attempt} (good : (fp32V code).nonFinite = false)
    (begun : (getCtx (startBackward (lossNoted s n half pos code) n (p.layers.length - 1) half pos) n).attempt = some b) :
    lossKnown s n p half pos code = if b.split ∧ half = 0 then
      startLayer (startBackward (lossNoted s n half pos code) n (p.layers.length - 1) half pos) n 0 1 pos
      else startBackward (lossNoted s n half pos code) n (p.layers.length - 1) half pos := by
  unfold lossNoted at begun ⊢
  simp only [lossKnown, good, begun, Bool.false_eq_true, if_false]

/-- A finite loss starts the backward of its half, and in a split step the forward of half B (R124, R219). -/
theorem lossKnown_finite (bound : (getCtx s n).plan = some p) (running : (getCtx s n).attempt = some a) (good : (fp32V code).nonFinite = false) :
    ∃ b, (getCtx (lossKnown s n p half pos code) n).attempt = some b ∧ b.losses = a.losses ++ [(pos * 2 + half, code)] ∧
      (b.back.find (pos * 2 + half)).isSome = true := by
  obtain ⟨v, back⟩ := attempt_startBackward (s := lossNoted s n half pos code) (n := n) (p := p)
    (a := { a with losses := a.losses ++ [(pos * 2 + half, code)], phase := 4 }) (p.layers.length - 1) half pos
    (by simp [lossNoted, bound]) (by simp [lossNoted, running])
  rw [lossKnown_goesOn good back]
  split
  · obtain ⟨saved, phase, begun⟩ := attempt_startLayer _ n 0 1 pos _ back
    exact ⟨_, begun, rfl, by simp⟩
  · exact ⟨_, back, rfl, by simp⟩

end

/-! BACKWARD_LAYER_END (R235, R236). -/

section
variable {s : State} {n layer half pos : Nat} {p : Plan} {l : LayerRec} {a : Attempt}

/-- The backward of a layer whose tallies ask for a rise of its tread (R235, R236). -/
def backwardExceeded (s : State) (l : LayerRec) (t : Tally) (k : Nat) (a : Attempt) : Attempt :=
  let why := if ovfOver s l t then 0 else 1
  { a with
    lower := some (if a.lower = none ∨ a.lower = some 1 then why else a.lower.getD why), braises := a.braises ++ [k],
    bover := if why = 0 then a.bover ++ [k] else a.bover }

/-- A layer's backward that has ended is judged by its tallies, unless a survey of its pass 1 is due (R91, R235). -/
theorem exec_backwardLayerEnd_judged (live : liveLayer (getCtx s n) layer = some (p, l)) (running : (getCtx s n).attempt = some a)
    (backward : a.back.get 0 (pos * 2 + half) = layer + 1) (all : reported (getCtx s n) (layerKey layer half pos) true = true)
    (noSurvey : surveyDue (getCtx s n) p l (layerKey layer half pos) [2] = []) :
    exec (.backwardLayerEnd n layer half pos) s =
      let t := a.btally.get .zero (layerKey layer half pos)
      let s1 := noteBadcode s l t
      if t.nan ≠ 0 then .next (endAttempt (modAttempt s1 n (fun a => { a with lower := a.lower.or (some 2) })) n cNanGrad)
      else if ovfOver s l t || satOver s l t then
        .next (endAttempt (modAttempt s1 n (backwardExceeded s l t (layerKey layer half pos))) n cStair)
      else .next (nextBackward (layerConsumed s1 n p layer l half pos) n layer half pos) := by
  change execBackwardLayerEnd n layer half pos s = _
  simp only [execBackwardLayerEnd, live, running, backward, all, noSurvey]
  rw [if_neg (by simp)]
  rfl

end

/-! VERIFY (R97, R215). -/

section
variable {s : State} {n : Nat} {p : Plan} {a : Attempt}

/-- The state that a clean VERIFY leaves before the member arrives (R215). -/
def verified (s : State) (n : Nat) (p : Plan) (a : Attempt) : State :=
  let s1 := modAttempt s n (fun a => { a with ready := true, phase := 6 })
  match (if a.twinParty then s.twin.twin else none) with
  | some d => sendBundle (modAttempt s1 n (fun a => { a with summarySent := true })) d 2 2 0 (.summary (summaryOf s n (getCtx s n) p a))
  | none => s1

theorem exec_verify_ended (bound : (getCtx s n).plan = some p) (running : (getCtx s n).attempt = some a) (live : workLive (getCtx s n) = true)
    (fresh : a.ready = false) (sound : a.causes = []) (ended : backwardEnded s (getCtx s n) p a = true) (all : (getCtx s n).done = [])
    (single : (getCtx s n).dups = []) (buckets : ∀ e, e ∈ a.buckets → e.2.final = true) :
    exec (.verify n) s =
      if updateOver s p a then
        .next (endAttempt (modAttempt s n (fun a => { a with phase := 5, lower := some (if a.lower = some 2 then 2 else 0) })) n cOvfExch)
      else if !slicesWritten (getCtx s n) p a then .next (modAttempt s n (fun a => { a with phase := 5 }))
      else .next (progress (verified s n p a) n) := by
  have final : a.buckets.all (fun e => e.2.final) = true := List.all_eq_true.mpr buckets
  change execVerify n s = _
  simp only [execVerify, bound, running, live, fresh, sound, ended, all, single, final]
  rfl

theorem attempt_verified (running : (getCtx s n).attempt = some a) :
    ∃ b, (getCtx (verified s n p a) n).attempt = some b ∧ b.ready = true ∧ b.phase = 6 ∧
      b.summarySent = (a.summarySent || (a.twinParty && s.twin.twin.isSome)) := by
  unfold verified
  cases a.twinParty <;> cases s.twin.twin <;> simp [running]

end

/-- Settles O48: each judgement is one lemma above, its conditions met. -/
theorem layersJudged : Obligations.LayersJudged := by
  refine ⟨?layerEnd, ?survey, ?loss, ?backward, ?verify⟩
  case layerEnd =>
    intro n layer half pos p l a s live running forward runs all noSurvey
    rw [exec_layerEnd_judged live forward runs all noSurvey]
    refine ⟨fun nan => by rw [judgeForward_nan running nan], fun nan ovf sat => by rw [judgeForward_clean running nan ovf sat],
      fun nan high top => ?_, fun nan high below next above => ⟨fun spent => ?_, fun left => ?_⟩⟩
    · have noTread : treadAbove l (inputAf8 p l) (treadOf (getCtx s n) p layer half pos) = none := by
        unfold treadAbove
        split
        · rfl
        · next low => exact top.resolve_left low
      obtain ⟨s1, e, judged⟩ := judgeForward_ceiling running nan high noTread
      exact ⟨_, congrArg Host.Outcome.next judged, stairErr_bit s1 (by decide)⟩
    · obtain ⟨s1, e, judged⟩ := judgeForward_budget running nan high ((if_neg (Nat.not_le.mpr below)).trans above) spent
      refine ⟨_, congrArg Host.Outcome.next judged, ?_⟩
      rw [logEvent, show regGet (modAttempt _ n _) pgStair _ = regGet (bumpSat (setErr s1 pgStair 0) pgStair Reg.SB_ABORTS 31 0 1) pgStair _ from rfl,
        bumpSat_regGet _ _ _ _ _ _ _ _ (by decide)]
      exact stairErr_bit s1 (by decide)
    · obtain ⟨why, judged⟩ := judgeForward_repeat running nan high ((if_neg (Nat.not_le.mpr below)).trans above) left
      obtain ⟨b, repeats⟩ := attempt_repeatLayer (s := noteBadcode s l (a.tally.get .zero (layerKey layer half pos))) (n := n) (layer := layer)
        (half := half) (pos := pos) (p := p) (l := l) (a := a) (by rw [getCtx_noteBadcode, running]) next why
      exact ⟨_, b, congrArg Host.Outcome.next judged, repeats⟩
  case survey =>
    intro n layer half pos p l a s live running forward runs all due nan
    obtain ⟨attempt, gauges⟩ := getCtx_surveyPass p l (layerKey layer half pos) layer half pos
      (surveyDue (getCtx s n) p l (layerKey layer half pos) [0, 1]) running
    refine ⟨_, _, exec_survey_forward live running forward runs all due nan, attempt, rfl, by simp, fun x mem => ?_⟩
    rw [gauges]
    exact ⟨gauge_survey_ends _ _ (.inl (List.mem_map_of_mem mem)), fun single => gauge_survey_gexp _ _ single (surveyDue_tensors_nodup ..) mem⟩
  case loss =>
    intro n half pos tid p l a s bound running last live loss once runs all noSurvey
    rw [exec_loss_known bound running last live loss once runs all noSurvey]
    refine ⟨fun bad => ?_, fun good => ?_⟩
    · obtain ⟨u, b, known, rest⟩ := lossKnown_nonFinite (p := p) (half := half) (pos := pos) running bad
      exact ⟨u, b, congrArg Host.Outcome.next known, rest⟩
    · obtain ⟨b, rest⟩ := lossKnown_finite (half := half) (pos := pos) bound running good
      exact ⟨_, b, rfl, rest⟩
  case backward =>
    intro n layer half pos p l a s live running backward all noSurvey
    rw [exec_backwardLayerEnd_judged live running backward all noSurvey]
    dsimp only
    have attempt (f : Attempt → Attempt) (t : Tally) : (getCtx (modAttempt (noteBadcode s l t) n f) n).attempt = some (f a) := by
      rw [getCtx_modAttempt, getCtx_noteBadcode, running]; rfl
    refine ⟨fun nan => ?_, fun nan high => ?_, fun nan ovf sat => ?_⟩
    · rw [if_pos nan]
      exact ⟨_, _, rfl, attempt _ _, rfl⟩
    · rw [if_neg (not_not_intro nan), if_pos (Bool.or_eq_true_iff.mpr high)]
      refine ⟨_, _, rfl, attempt _ _, rfl, ?_⟩
      unfold backwardExceeded
      cases ovfOver s l (a.btally.get .zero (layerKey layer half pos)) <;> rfl
    · rw [if_neg (not_not_intro nan), if_neg (by simp [ovf, sat])]
  case verify =>
    intro n p a s bound running live fresh sound ended all single buckets
    rw [exec_verify_ended bound running live fresh sound ended all single buckets]
    refine ⟨fun high => ⟨_, by rw [if_pos high]⟩, fun low missing => by simp [low, missing], fun low written => ?_⟩
    obtain ⟨b, rest⟩ := attempt_verified (p := p) running
    exact ⟨_, b, by simp [low, written], rest⟩

end Sys2Proof.Machine
end

section
/-! SUPPORT of O52 and O53. The decision of an attempt: what peg operations, arrives and decisions leave of the contexts (R209, R214-R217, R379,
R380, R450). -/

namespace Sys2Proof.Machine

/-! Peg operations finish waits: they change no more of a context than its reports. -/

/-- A context but for its finished work orders. -/
def withoutReports (s : State) (n : Nat) : Ctx := { getCtx s n with done := [] }

/-- The contexts are as they were but for their reports, and none has become a shadow. -/
structure ReportsOnly (s t : State) : Prop where
  same : ∀ n, withoutReports t n = withoutReports s n
  shadows : noShadows s → noShadows t

theorem ReportsOnly.refl (s : State) : ReportsOnly s s := ⟨fun _ => rfl, id⟩

theorem ReportsOnly.trans {s t u : State} (h : ReportsOnly s t) (k : ReportsOnly t u) : ReportsOnly s u :=
  ⟨fun n => (k.same n).trans (h.same n), fun x => k.shadows (h.shadows x)⟩

theorem ReportsOnly.of_ctxs {s t : State} (h : t.ctxs = s.ctxs) : ReportsOnly s t where
  same n := by rw [withoutReports, withoutReports, getCtx_congr h]
  shadows := by unfold noShadows; rw [h]; exact id

theorem ReportsOnly.of_besideTraffic {s t : State} (h : besideTraffic t = besideTraffic s) : ReportsOnly s t := .of_ctxs (ctxs_of_besideTraffic h)

theorem ReportsOnly.foldl {α : Type} {f : State → α → State} (step : ∀ s x, ReportsOnly s (f s x)) (l : List α) (s : State) :
    ReportsOnly s (l.foldl f s) := by
  induction l generalizing s with
  | nil => exact .refl s
  | cons x l ih => exact (step s x).trans (ih _)

theorem ReportsOnly.attempt {s t : State} (h : ReportsOnly s t) (n : Nat) : (getCtx t n).attempt = (getCtx s n).attempt :=
  (congrArg Ctx.attempt (h.same n) :)
theorem ReportsOnly.plan {s t : State} (h : ReportsOnly s t) (n : Nat) : (getCtx t n).plan = (getCtx s n).plan := (congrArg Ctx.plan (h.same n) :)
theorem ReportsOnly.shadow {s t : State} (h : ReportsOnly s t) (n : Nat) : (getCtx t n).shadow = (getCtx s n).shadow :=
  (congrArg Ctx.shadow (h.same n) :)
theorem ReportsOnly.commitPegs {s t : State} (h : ReportsOnly s t) (n : Nat) : (getCtx t n).commitPegs = (getCtx s n).commitPegs :=
  (congrArg Ctx.commitPegs (h.same n) :)

theorem noShadows_putCtx {s : State} (h : noShadows s) (n : Nat) {c : Ctx} (hc : c.shadow.held = false) : noShadows (putCtx s n c) := by
  intro e mem
  unfold putCtx SMap.put at mem
  dsimp only at mem
  split at mem
  · exact h e (SMap.mem_of_mem_erase mem)
  · rcases SMap.mem_of_mem_insert mem with rfl | mem
    · exact hc
    · exact h e mem

theorem SMap.mem_of_find {α : Type} {k : Nat} {v : α} : ∀ {m : SMap α}, find k m = some v → (k, v) ∈ m
  | [], h => nomatch h
  | (j, w) :: t, h => by
    unfold find at h
    split at h
    · next same => cases h; exact same ▸ List.mem_cons_self
    · exact List.mem_cons_of_mem _ (mem_of_find h)

/-- No context that is read is a shadow. -/
theorem noShadows.held {s : State} (h : noShadows s) (n : Nat) : (getCtx s n).shadow.held = false := by
  unfold getCtx SMap.get
  rcases found : s.ctxs.find n with _ | c
  · rfl
  · exact h _ (SMap.mem_of_find found)

theorem ReportsOnly.ite {s t u : State} {p : Prop} [Decidable p] (h : ReportsOnly s t) (k : ReportsOnly s u) : ReportsOnly s (if p then t else u) := by
  split
  · exact h
  · exact k

theorem setErr_reportsOnly (s : State) (p : Page) (i : Nat) : ReportsOnly s (setErr s p i) := .of_besideTraffic (besideTraffic_setErr ..)
theorem putPeg_reportsOnly (s : State) (k : Nat) (p : Peg) : ReportsOnly s (putPeg s k p) := .of_ctxs rfl
theorem updateGroup_reportsOnly (s : State) (k : Nat) : ReportsOnly s (updateGroup s k) := .of_ctxs rfl

theorem addDone_reportsOnly (s : State) (d : WoDone) : ReportsOnly s (addDone s d) where
  same n := by
    by_cases own : n = d.w.ctx
    · rw [own, withoutReports, getCtx_addDone]; rfl
    · rw [withoutReports, addDone, getCtx_modCtx_ne s own]; rfl
  shadows h := noShadows_putCtx h _ (h.held d.w.ctx)

theorem endWait_reportsOnly (status : Nat) (s : State) (x : PegWait) : ReportsOnly s (endWait status s x) := by
  unfold endWait
  split
  · exact .of_besideTraffic (besideTraffic_sendRouted ..)
  · split
    · exact addDone_reportsOnly ..
    · exact .refl s

theorem settlePeg_reportsOnly (s : State) (k : Nat) : ReportsOnly s (settlePeg s k) := by
  unfold settlePeg
  dsimp only
  split
  · exact (putPeg_reportsOnly ..).trans ((ReportsOnly.foldl (endWait_reportsOnly 0) _ _).trans (updateGroup_reportsOnly ..))
  · exact updateGroup_reportsOnly ..

theorem applyPeg_reportsOnly (s : State) (k : Nat) (op : PegOp) (v : Nat) (x : PegWait) : ReportsOnly s (applyPeg s k op v x).s := by
  cases op with
  | arrive =>
    dsimp only [applyPeg]
    split
    · exact .refl s
    · exact ReportsOnly.trans (.ite ((putPeg_reportsOnly ..).trans (setErr_reportsOnly ..)) (putPeg_reportsOnly ..)) (settlePeg_reportsOnly ..)
  | wait =>
    dsimp only [applyPeg]
    split
    · exact endWait_reportsOnly ..
    · exact putPeg_reportsOnly ..
  | set | reset =>
    dsimp only [applyPeg]
    exact (putPeg_reportsOnly ..).trans (settlePeg_reportsOnly ..)
  | query => exact .refl s

theorem pegOpOn_reportsOnly (s : State) (k tag : Nat) (op : PegOp) (v : Nat) (x : PegWait) : ReportsOnly s (pegOpOn s k tag op v x).s := by
  simp only [pegOpOn, apply_ite PegAns.s]
  exact .ite (setErr_reportsOnly ..) (.ite (setErr_reportsOnly ..) (.ite (setErr_reportsOnly ..) (applyPeg_reportsOnly ..)))

theorem holdNotices_reportsOnly (s : State) (n : Nat) : ReportsOnly s (holdNotices s n) := by
  have sent (t : State) (d p op v : Nat) (x : Cause) (i : Nat) : ReportsOnly t (sendPegOp t n d p op v x i) :=
    .of_besideTraffic (besideTraffic_sendPegOp ..)
  unfold holdNotices
  dsimp only
  split
  · split
    · exact .refl s
    · split
      · refine ReportsOnly.trans ?_ (sent ..)
        split
        · exact pegOpOn_reportsOnly ..
        · exact .refl s
      · split
        · exact pegOpOn_reportsOnly ..
        · exact .refl s
  · exact .refl s

/-! Arriving and stopping (R209, R214, R215). -/

section
variable {s : State} {n : Nat} {p : Plan} {a : Attempt}

/-- An arrive on a set of commit pegs votes, and finishes waits. -/
theorem arriveAll_votes (bound : (getCtx s n).plan = some p) (running : (getCtx s n).attempt = some a) (i : Nat) (cause : Cause) :
    ∃ t, ReportsOnly s t ∧ besideTraffic (arriveAll s n i cause) = besideTraffic (modAttempt t n (fun a => { a with vote := some i })) := by
  unfold arriveAll
  simp only [bound, running]
  rcases commitKey (getCtx s n) i with _ | k
  · exact ⟨s, .refl s, besideTraffic_foldl (fun s d => besideTraffic_sendPegOp ..) _ _⟩
  · exact ⟨_, pegOpOn_reportsOnly .., besideTraffic_foldl (fun s d => besideTraffic_sendPegOp ..) _ _⟩

/-- The attempt of a context after an arrive, whether it could be made or not. -/
theorem arriveAll_attempt (running : (getCtx s n).attempt = some a) (i : Nat) (cause : Cause) :
    ∃ v, (getCtx (arriveAll s n i cause) n).attempt = some { a with vote := v } ∧ (getCtx (arriveAll s n i cause) n).shadow = (getCtx s n).shadow ∧
      (noShadows s → noShadows (arriveAll s n i cause)) := by
  rcases bound : (getCtx s n).plan with _ | p
  · rw [show arriveAll s n i cause = s by simp [arriveAll, bound]]
    exact ⟨a.vote, running, rfl, id⟩
  · obtain ⟨t, waits, sent⟩ := arriveAll_votes bound running i cause
    refine ⟨some i, ?_, ?_, fun h => (ReportsOnly.of_besideTraffic sent).shadows (noShadows_putCtx (waits.shadows h) n ?_)⟩
    · rw [getCtx_of_besideTraffic sent, getCtx_modAttempt, waits.attempt, running]; rfl
    · rw [getCtx_of_besideTraffic sent, getCtx_modAttempt, waits.shadow]
    · exact (waits.shadows h).held n

/-- A context whose work has stopped (R215). -/
def stoppedCtx (c : Ctx) : Ctx :=
  { c with frameQueues := [], attempt := c.attempt.map (fun a => { a with discard := true, noMore := true }) }

theorem ctxs_stopWork (s : State) (n : Nat) : (stopWork s n).ctxs = (modCtx s n stoppedCtx).ctxs := rfl

theorem getCtx_stopWork (s : State) (n : Nat) : getCtx (stopWork s n) n = stoppedCtx (getCtx s n) :=
  (getCtx_congr (ctxs_stopWork s n) n).trans (getCtx_modCtx ..)

theorem noShadows_stopWork (h : noShadows s) (n : Nat) : noShadows (stopWork s n) :=
  (ReportsOnly.of_ctxs (ctxs_stopWork s n)).shadows (noShadows_putCtx h n (h.held n))

/-! The commit point (R216). -/

theorem shadow_swapLive (p : Plan) (a : Attempt) (c : Ctx) : (swapLive p a c).shadow = c.shadow := by
  unfold swapLive
  induction p.params generalizing c with
  | nil => rfl
  | cons t ts ih =>
    rw [List.foldl_cons, ih]
    split
    · rfl
    · split
      · split <;> rfl
      · rfl

theorem noteDigest_only (s : State) (p : Plan) (a : Attempt) (c : Ctx) :
    noteDigest s p a c = { c with digest := (noteDigest s p a c).digest, voting := (noteDigest s p a c).voting } := by
  unfold noteDigest
  split <;> rfl

/-- The commit point of an attempt: the step advances, the journal is released but for what waits for a rollback, the outcome is COMMITTED (R216). -/
theorem getCtx_commitPoint (own : (getCtx s n).shadow.held = false) (bound : (getCtx s n).plan = some p) (running : (getCtx s n).attempt = some a) :
    (getCtx (commitPoint s n) n).step = ((getCtx s n).step + 1) % 2 ^ 32 ∧
    (getCtx (commitPoint s n) n).jslots = (getCtx s n).jslots.filter (fun e => (getCtx s n).rollback.contains e.1) ∧
    (getCtx (commitPoint s n) n).attempt = some { a with outcome := some 0, phase := 8, causes := [] } ∧
    (getCtx (commitPoint s n) n).shadow = (getCtx s n).shadow := by
  have put (t : State) (c : Ctx) (q : Prop) [Decidable q] (w : TwinSt) :
      getCtx (if q then { putCtx t n c with twin := w } else putCtx t n c) n = c := by
    split <;> exact getCtx_putCtx ..
  unfold commitPoint
  simp only [own, bound, running, Bool.false_eq_true, if_false, getCtx_bumpWrap]
  rw [put, noteDigest_only]
  exact ⟨rfl, rfl, rfl, shadow_swapLive ..⟩

theorem noShadows_commitPoint (h : noShadows s) (bound : (getCtx s n).plan = some p) (running : (getCtx s n).attempt = some a) :
    noShadows (commitPoint s n) := by
  have put (c : Ctx) (q : Prop) [Decidable q] (w : TwinSt) (own : c.shadow.held = false) :
      noShadows (if q then { putCtx s n c with twin := w } else putCtx s n c) := by
    split <;> exact noShadows_putCtx h n own
  unfold commitPoint
  simp only [h.held n, bound, running, Bool.false_eq_true, if_false]
  refine (ReportsOnly.of_besideTraffic (besideTraffic_bumpWrap ..)).shadows (put _ _ _ ?_)
  rw [noteDigest_only]
  exact (congrArg Shadow.held (shadow_swapLive ..)).trans (h.held n)

/-! The decision (R217). -/

/-- The cause that wins the decision (R209, R217). -/
def winningCause (s : State) (c : Ctx) (a : Attempt) : Cause := (winner (decisionCauses s c a)).getD ⟨2, cTimeout, deviceId s⟩

/-- The cause that an attempt ends with: REPEAT_LIMIT where the repeats are used up (R207, R208). -/
def closingCause (s : State) (c : Ctx) (a : Attempt) : Cause :=
  if (winningCause s c a).outcome = 2 ∧ a.limits.repeatMax ≤ a.repeats then ⟨3, cRepeatLimit, (winningCause s c a).device⟩ else winningCause s c a

/-- The errors that a decision sets (R208, R217, R220). -/
def decisionErrs (s : State) (y : Cause) (timedOut : Bool) : State :=
  let s1 := if y.code = cRepeatLimit then setErr s pgStep 0 else s
  let s2 := if y.code = cNoJournal then setErr s1 pgStep 4 else s1
  let s3 := if y.code = cUnprotected then setErr s2 pgStep 5 else s2
  if timedOut then setErr s3 pgStep 3 else s3

@[simp] theorem besideTraffic_decisionErrs (s : State) (y : Cause) (timedOut : Bool) : besideTraffic (decisionErrs s y timedOut) = besideTraffic s := by
  simp [decisionErrs]

/-- A context with its attempt decided. -/
def decidedCtx (y : Cause) (a : Attempt) (c : Ctx) : Ctx :=
  { c with
    rollback := (c.rollback ++ toRestore c a).eraseDups, inactive := [], chanNew := [], residualNew := [], lastCause := y.code, lastDevice := y.device,
    attempt := c.attempt.map (fun b => { b with outcome := some y.outcome, phase := 8, told := [y] }) }

/-- A stopped attempt with its decision. -/
def decidedAttempt (y : Cause) (a : Attempt) : Attempt :=
  { a with discard := true, noMore := true, outcome := some y.outcome, phase := 8, told := [y] }

/-- The errors set, and the arrive that a decided party makes where it made none (R208, R217). -/
def decisionArrives (s : State) (n : Nat) (a : Attempt) : State :=
  if a.vote = none ∨ a.vote = some 0 then
    arriveAll (decisionErrs s (closingCause s (getCtx s n) a) a.timedOut) n (if (winningCause s (getCtx s n) a).outcome = 1 then 1 else 2)
      (winningCause s (getCtx s n) a)
  else decisionErrs s (closingCause s (getCtx s n) a) a.timedOut

theorem decideEnd_eq (own : (getCtx s n).shadow.held = false) (running : (getCtx s n).attempt = some a) :
    decideEnd s n = modCtx (stopWork (decisionArrives s n a) n) n (decidedCtx (closingCause s (getCtx s n) a) a) := by
  unfold decideEnd
  simp only [running, own, Bool.false_eq_true, if_false]
  rfl

theorem decisionArrives_attempt (running : (getCtx s n).attempt = some a) :
    ∃ v, (getCtx (decisionArrives s n a) n).attempt = some { a with vote := v } ∧ (getCtx (decisionArrives s n a) n).shadow = (getCtx s n).shadow ∧
      (noShadows s → noShadows (decisionArrives s n a)) := by
  have noted := besideTraffic_decisionErrs s (closingCause s (getCtx s n) a) a.timedOut
  have quiet := (ReportsOnly.of_besideTraffic noted).shadows
  have running' := (congrArg Ctx.attempt (getCtx_of_besideTraffic noted n)).trans running
  unfold decisionArrives
  split
  · obtain ⟨v, attempt, shadow, shadows⟩ := arriveAll_attempt running' (if (winningCause s (getCtx s n) a).outcome = 1 then 1 else 2)
      (winningCause s (getCtx s n) a)
    exact ⟨v, attempt, by rw [shadow, getCtx_of_besideTraffic noted], fun h => shadows (quiet h)⟩
  · exact ⟨a.vote, running', by rw [getCtx_of_besideTraffic noted], quiet⟩

/-- A decision other than the commit ends the attempt with its closing cause (R207-R209, R217). -/
theorem decideEnd_ends (own : (getCtx s n).shadow.held = false) (running : (getCtx s n).attempt = some a) :
    ∃ b, (getCtx (decideEnd s n) n).attempt = some b ∧ b.outcome = some (closingCause s (getCtx s n) a).outcome ∧ b.buckets = a.buckets ∧
      (getCtx (decideEnd s n) n).lastCause = (closingCause s (getCtx s n) a).code ∧ (getCtx (decideEnd s n) n).shadow = (getCtx s n).shadow ∧
      (noShadows s → noShadows (decideEnd s n)) := by
  obtain ⟨v, attempt, shadow, shadows⟩ := decisionArrives_attempt running
  have after : getCtx (decideEnd s n) n =
      decidedCtx (closingCause s (getCtx s n) a) a (stoppedCtx (getCtx (decisionArrives s n a) n)) := by
    rw [decideEnd_eq own running, getCtx_modCtx, getCtx_stopWork]
  refine ⟨decidedAttempt (closingCause s (getCtx s n) a) { a with vote := v },
    by rw [after]; simp only [decidedCtx, stoppedCtx, attempt, Option.map_some]; rfl, rfl, rfl, by rw [after]; rfl,
    by rw [after]; exact shadow, fun h => ?_⟩
  rw [decideEnd_eq own running]
  exact noShadows_putCtx (noShadows_stopWork (shadows h) n) n ((noShadows_stopWork (shadows h) n).held n)

end

end Sys2Proof.Machine
end

section
/-! SUPPORT of O51 and O52. What the exchange leaves of a bucket: a claim about it is kept by every operation that its fields do not depend on
(R94, R193-R195). -/

namespace Sys2Proof.Machine

/-! Delayed CLOSE updates (R108) change the gauges of their context alone. -/

/-- A context but for its gauges and the order of their updates. -/
def besideGauges (c : Ctx) : Ctx := { c with gauges := [], closing := [] }

theorem besideGauges_applyDue (s : State) (n g : Nat) : besideGauges (getCtx (applyDue s n g) n) = besideGauges (getCtx s n) := by
  unfold applyDue
  split
  · rfl
  · rw [getCtx_modCtx]; rfl

theorem besideGauges_finishGauges (k : Nat) (s : State) (n : Nat) : besideGauges (getCtx (finishGauges k s n) n) = besideGauges (getCtx s n) := by
  induction k generalizing s with
  | zero => rfl
  | succ k ih =>
    rw [finishGauges, ih, finishGauge]
    split
    · rfl
    · rw [besideGauges_applyDue, getCtx_modCtx]; rfl

@[simp] theorem attempt_finishGauges (k : Nat) (s : State) (n : Nat) : (getCtx (finishGauges k s n) n).attempt = (getCtx s n).attempt :=
  (congrArg Ctx.attempt (besideGauges_finishGauges k s n) :)

@[simp] theorem attempt_awaitGauge (s : State) (n g : Nat) : (getCtx (awaitGauge s n g) n).attempt = (getCtx s n).attempt := by
  rw [awaitGauge]
  split
  · exact attempt_finishGauges ..
  · rfl

/-! The buckets of a context that is no shadow stand through every decision (R209, R214-R217). -/

/-- The buckets of a context's attempt, and whether the context is a shadow. -/
def exchOf (s : State) (n : Nat) : Option (SMap Bucket) × Bool := ((getCtx s n).attempt.map (·.buckets), (getCtx s n).shadow.held)

theorem exchOf_congr {s t : State} {n : Nat} (h : getCtx t n = getCtx s n) : exchOf t n = exchOf s n := by rw [exchOf, h]; rfl

theorem exchOf_modCtx (s : State) (n : Nat) {f : Ctx → Ctx}
    (keeps : ∀ c, ((f c).attempt.map (·.buckets), (f c).shadow.held) = (c.attempt.map (·.buckets), c.shadow.held)) :
    exchOf (modCtx s n f) n = exchOf s n := by rw [exchOf, getCtx_modCtx, keeps]; rfl

theorem exchOf_modAttempt (s : State) (n : Nat) {f : Attempt → Attempt} (keeps : ∀ a, (f a).buckets = a.buckets) :
    exchOf (modAttempt s n f) n = exchOf s n := by
  refine exchOf_modCtx s n fun c => ?_
  rw [Option.map_map, show (fun a : Attempt => a.buckets) ∘ f = (fun a => a.buckets) from funext keeps]

/-- The buckets stand where the context is no shadow, and it becomes none. -/
structure ExchKept (n : Nat) (s t : State) : Prop where
  kept : (getCtx s n).shadow.held = false → exchOf t n = exchOf s n

section
variable {n : Nat} {s t u : State}

theorem ExchKept.trans (h : ExchKept n s t) (k : ExchKept n t u) : ExchKept n s u where
  kept own := (k.kept ((congrArg Prod.snd (h.kept own)).trans own)).trans (h.kept own)

theorem ExchKept.of_exch (h : exchOf t n = exchOf s n) : ExchKept n s t := ⟨fun _ => h⟩

theorem ExchKept.of_getCtx (h : getCtx t n = getCtx s n) : ExchKept n s t := .of_exch (exchOf_congr h)

theorem ExchKept.ite {p : Prop} [Decidable p] (h : ExchKept n s t) (k : ExchKept n s u) : ExchKept n s (if p then t else u) := by
  split
  · exact h
  · exact k

/-- A decided attempt that keeps the buckets of the one before. -/
theorem ExchKept.of_attempt {a b : Attempt} (running : (getCtx s n).attempt = some a) (after : (getCtx t n).attempt = some b)
    (same : b.buckets = a.buckets) (shadow : (getCtx t n).shadow = (getCtx s n).shadow) : ExchKept n s t :=
  .of_exch (by rw [exchOf, exchOf, running, after, shadow, Option.map_some, Option.map_some, same])

end

theorem arriveAll_exchKept (s : State) (n i : Nat) (x : Cause) : ExchKept n s (arriveAll s n i x) := by
  rcases running : (getCtx s n).attempt with _ | a
  · rw [show arriveAll s n i x = s by simp [arriveAll, running]]
    exact .of_exch rfl
  · obtain ⟨v, after, shadow, -⟩ := arriveAll_attempt running i x
    exact .of_attempt running after rfl shadow

theorem tryArrive_exchKept (s : State) (n : Nat) : ExchKept n s (tryArrive s n) := by
  unfold tryArrive
  dsimp only
  split
  · split
    · exact .of_exch rfl
    · split
      · exact arriveAll_exchKept ..
      · exact .ite (arriveAll_exchKept ..) (.of_exch rfl)
  · exact .of_exch rfl

theorem commitPoint_exchKept (s : State) (n : Nat) : ExchKept n s (commitPoint s n) := by
  refine ⟨fun own => ?_⟩
  rcases bound : (getCtx s n).plan with _ | p
  · unfold commitPoint
    simp only [own, Bool.false_eq_true, if_false, bound]
  · rcases running : (getCtx s n).attempt with _ | a
    · unfold commitPoint
      simp only [own, Bool.false_eq_true, if_false, bound, running]
    · obtain ⟨-, -, after, shadow⟩ := getCtx_commitPoint own bound running
      exact (ExchKept.of_attempt running after rfl shadow).kept own

theorem decideEnd_exchKept (s : State) (n : Nat) : ExchKept n s (decideEnd s n) := by
  refine ⟨fun own => ?_⟩
  rcases running : (getCtx s n).attempt with _ | a
  · rw [decideEnd, running]
  · obtain ⟨b, after, -, same, -, shadow, -⟩ := decideEnd_ends own running
    exact (ExchKept.of_attempt running after same shadow).kept own

theorem finishDecision_exchKept (s : State) (n : Nat) : ExchKept n s (finishDecision s n) := by
  unfold finishDecision
  dsimp only
  split
  · exact .of_exch rfl
  · refine .ite (.of_exch rfl) (.ite (ExchKept.trans (.ite ?_ (.of_exch rfl)) (commitPoint_exchKept ..)) (decideEnd_exchKept ..))
    exact .of_getCtx (getCtx_setErr ..)

/-- One question to another party's COMMIT peg (R217). -/
theorem askInstance_exchKept (s : State) (n d r : Nat) (refs : SMap WoDone) :
    ExchKept n s (modAttempt { sendPegOp s n d (commitPlanPeg 0) opClose 0 noCause 0 with pegRefs := refs } n
      (fun a => { a with asked := a.asked ++ [r] })) := by
  refine .of_exch ((exchOf_modAttempt _ n ?_).trans (exchOf_congr ?_))
  · exact fun _ => rfl
  · exact getCtx_sendPegOp ..

theorem foldl_exchKept {α : Type} {n : Nat} {f : State → α → State} (step : ∀ s x, ExchKept n s (f s x)) (l : List α) (s : State) :
    ExchKept n s (l.foldl f s) := by
  induction l generalizing s with
  | nil => exact .of_exch rfl
  | cons x l ih => exact (step s x).trans (ih _)

theorem beginDecision_exchKept (s : State) (n : Nat) : ExchKept n s (beginDecision s n) := by
  unfold beginDecision
  dsimp only
  split
  · refine .ite (.of_exch rfl) (ExchKept.trans ?_ (finishDecision_exchKept ..))
    refine ExchKept.trans ?_ (foldl_exchKept (fun s d => askInstance_exchKept ..) _ _)
    refine ExchKept.trans ?_ (.of_exch (exchOf_modAttempt _ n ?_))
    · split <;> exact .of_exch rfl
    · exact fun _ => rfl
  · exact .of_exch rfl

theorem commitWatch_exchKept (s : State) (n : Nat) : ExchKept n s (commitWatch s n) := by
  unfold commitWatch
  dsimp only
  split
  · refine ⟨fun own => ?_⟩
    rw [own, Bool.false_and, if_neg Bool.false_ne_true]
  · exact .ite (.of_exch rfl) (.ite (commitPoint_exchKept ..)
      (.ite ((beginDecision_exchKept ..).trans (finishDecision_exchKept ..)) (.of_exch rfl)))

theorem progress_exchKept (s : State) (n : Nat) : ExchKept n s (progress s n) := (tryArrive_exchKept s n).trans (commitWatch_exchKept ..)

theorem stopWork_exchKept (s : State) (n : Nat) : ExchKept n s (stopWork s n) :=
  .of_exch ((exchOf_congr (getCtx_congr (ctxs_stopWork s n) n)).trans (exchOf_modCtx s n fun c => by rw [stoppedCtx, Option.map_map]; rfl))

theorem endAttempt_exchKept (s : State) (n code : Nat) : ExchKept n s (endAttempt s n code) := by
  unfold endAttempt addCause
  dsimp only
  split
  · exact .of_exch rfl
  · refine .ite (.of_exch rfl) (.trans (.trans (.of_exch (exchOf_modAttempt _ n ?_)) (stopWork_exchKept _ n)) (progress_exchKept _ n))
    exact fun _ => rfl

end Sys2Proof.Machine
end

section
/-! SUPPORT of O51 and O52. What the packets and phases of the exchange leave of a bucket (R94, R187, R193-R195, R201). -/

namespace Sys2Proof.Machine

/-- A claim about a bucket, given whether its context is a shadow. -/
def BucketSays (n key : Nat) (P : Bool → Bucket → Prop) (s : State) : Prop := ∃ b, getBucket s n key = some b ∧ P (getCtx s n).shadow.held b

/-- A claim that a fault of the bucket leaves. -/
def FaultFree (P : Bool → Bucket → Prop) : Prop := ∀ h b f, P h b → P h { b with fault := f }

theorem getBucket_of_exchOf (s : State) (n key : Nat) : getBucket s n key = (exchOf s n).1.bind (fun m => m.find key) := by
  rw [getBucket, exchOf, Option.bind_map]; rfl

section
variable {n key : Nat} {P Q : Bool → Bucket → Prop} {s t : State} {g : GroupRec} {pos : Nat}

theorem getBucket_congr (h : exchOf t n = exchOf s n) (key : Nat) : getBucket t n key = getBucket s n key := by
  rw [getBucket_of_exchOf, getBucket_of_exchOf, h]

theorem BucketSays.of_exch (claim : BucketSays n key P s) (h : exchOf t n = exchOf s n) : BucketSays n key P t := by
  obtain ⟨b, found, holds⟩ := claim
  have held : (getCtx t n).shadow.held = (getCtx s n).shadow.held := congrArg Prod.snd h
  exact ⟨b, (getBucket_congr h key).trans found, by rw [held]; exact holds⟩

theorem BucketSays.of_getCtx (claim : BucketSays n key P s) (h : getCtx t n = getCtx s n) : BucketSays n key P t := claim.of_exch (exchOf_congr h)

theorem BucketSays.imp (claim : BucketSays n key P s) (h : ∀ h b, P h b → Q h b) : BucketSays n key Q s := by
  obtain ⟨b, found, holds⟩ := claim
  exact ⟨b, found, h _ _ holds⟩

theorem getBucket_modBucket (s : State) (n key : Nat) (f : Bucket → Bucket) : getBucket (modBucket s n key f) n key = (getBucket s n key).map f := by
  unfold getBucket modBucket
  rw [getCtx_modAttempt]
  rcases (getCtx s n).attempt with _ | a
  · rfl
  · rcases found : a.buckets.find key with _ | b
    · simp [found]
    · simp [found, SMap.find_insert_same]

@[simp] theorem shadow_modAttempt (s : State) (n : Nat) (f : Attempt → Attempt) : (getCtx (modAttempt s n f) n).shadow = (getCtx s n).shadow := by
  rw [getCtx_modAttempt]

@[simp] theorem shadow_modBucket (s : State) (n key : Nat) (f : Bucket → Bucket) : (getCtx (modBucket s n key f) n).shadow = (getCtx s n).shadow :=
  shadow_modAttempt ..

theorem BucketSays.modBucket {f : Bucket → Bucket} (claim : BucketSays n key P s) (h : ∀ h b, P h b → Q h (f b)) :
    BucketSays n key Q (modBucket s n key f) := by
  obtain ⟨b, found, holds⟩ := claim
  exact ⟨f b, by rw [getBucket_modBucket, found]; rfl, by rw [shadow_modBucket]; exact h _ _ holds⟩

/-! Faults and packets (R193, R204, R205). -/

/-- A residue mismatch before the attempt learns of it: logged, the bucket stopped, a recovery begun (R193, R316). -/
def residueNoted (s : State) (n key : Nat) (g : GroupRec) (hub src hops : Nat) : State :=
  beginRecovery (modBucket (regSet (setErr s (pgExchange hub) 1) (pgExchange hub) Reg.EX_RESLOG
      (g.tagGroup % 16 * 256 + (bucketParts key).2.1 % 256 + src % 4096 * 2 ^ 12 + hops % 256 * 2 ^ 24)) n key (fun b => { b with fault := cResidue }))
    7 0 src cResidue false

theorem getCtx_residueFault (s : State) (n key : Nat) (g : GroupRec) (hub src hops : Nat) :
    getCtx (residueFault s n key g hub src hops) n = getCtx (endAttempt (residueNoted s n key g hub src hops) n cResidue) n := by
  unfold residueFault
  rw [getCtx_compareExchange, getCtx_settleRecovery, getCtx_recoveryWaits, getCtx_freeNs]
  rfl

theorem getCtx_residueNoted (s : State) (n key : Nat) (g : GroupRec) (hub src hops : Nat) :
    getCtx (residueNoted s n key g hub src hops) n = getCtx (modBucket s n key (fun b => { b with fault := cResidue })) n := by
  rw [residueNoted, getCtx_beginRecovery, modBucket, getCtx_modAttempt, getCtx_regSet, getCtx_setErr, modBucket, getCtx_modAttempt]

theorem exchOf_residueFault (own : (getCtx s n).shadow.held = false) (hub src hops : Nat) :
    exchOf (residueFault s n key g hub src hops) n = exchOf (modBucket s n key (fun b => { b with fault := cResidue })) n := by
  have own' : (getCtx (residueNoted s n key g hub src hops) n).shadow.held = false := by rw [getCtx_residueNoted, shadow_modBucket, own]
  exact (exchOf_congr (getCtx_residueFault ..)).trans (((endAttempt_exchKept _ n cResidue).kept own').trans (exchOf_congr (getCtx_residueNoted ..)))

theorem BucketSays.residueFault (claim : BucketSays n key P s) (free : FaultFree P) (own : (getCtx s n).shadow.held = false) (hub src hops : Nat) :
    BucketSays n key P (residueFault s n key g hub src hops) :=
  (claim.modBucket fun h b => free h b cResidue).of_exch (exchOf_residueFault own hub src hops)

/-- The residues of a chunk are those of its blocks (R190, R193). -/
def chunkOk (g : GroupRec) (x : Chunk) : Bool := x.blocks.all (fun e => residueOf g e.2 == x.residues.get 0 e.1)

theorem residuesOk_mkPkt (s : State) (n key : Nat) (g : GroupRec) (b : Bucket) (kind ch hops : Nat) (x : Chunk) (agree : Int) :
    residuesOk g (mkPkt s n key g b kind ch hops x agree) = chunkOk g x := by
  simp only [residuesOk, mkPkt, chunkOk, List.zip_map', List.all_map]
  rfl

/-- A packet that may be sent with no more done to its bucket than a fault: its context is no shadow, or a hub that checks it finds it right. -/
def SendSafe (s : State) (n : Nat) (g : GroupRec) (p : ExPkt) : Prop := (getCtx s n).shadow.held = false ∨ p.kind = 2 ∨ residuesOk g p = true

theorem BucketSays.sendPkt (claim : BucketSays n key P s) (free : FaultFree P) {p : ExPkt} (safe : SendSafe s n g p) (dst : Nat) :
    BucketSays n key P (sendPkt s n key g dst p) := by
  unfold Machine.sendPkt
  dsimp only
  have digested (att : Nat) (f : Nat × Nat → Nat × Nat) : BucketSays n key P (modDig s n key att f) :=
    claim.of_exch (exchOf_modAttempt s n fun _ => rfl)
  split
  · exact claim.of_getCtx rfl
  · split
    · next bad =>
      simp only [Bool.and_eq_true, bne_iff_ne, Bool.not_eq_true'] at bad
      rcases safe with own | agrees | fine
      · exact claim.residueFault free own ..
      · exact absurd agrees bad.1.1.2
      · exact absurd (fine.symm.trans bad.2) Bool.true_eq_false.mp
    · split
      · exact (digested _ _).of_getCtx (getCtx_bump64 ..)
      · split
        · exact (digested _ _).of_getCtx ((getCtx_sendOn ..).trans (getCtx_bump64 ..))
        · exact (digested _ _).of_getCtx ((getCtx_sendRouted ..).trans (getCtx_bump64 ..))

/-- A claim may name whether the context is a shadow. -/
theorem BucketSays.named (claim : BucketSays n key P s) : BucketSays n key (fun h b => P h b ∧ h = (getCtx s n).shadow.held) s := by
  obtain ⟨b, found, holds⟩ := claim
  exact ⟨b, found, holds, rfl⟩

theorem BucketSays.sendPkts (claim : BucketSays n key P s) (free : FaultFree P) {p : Nat → State → ExPkt}
    (safe : (getCtx s n).shadow.held = false ∨ ∀ k t, (p k t).kind = 2 ∨ residuesOk g (p k t) = true) (kids : List Nat) :
    BucketSays n key P (kids.foldl (fun s kid => Machine.sendPkt s n key g kid (p kid s)) s) := by
  induction kids generalizing s with
  | nil => exact claim
  | cons k ks ih =>
    have sent := claim.named.sendPkt (fun h b f holds => ⟨free h b f holds.1, holds.2⟩) (p := p k s) (g := g)
      (safe.imp id fun fine => fine k s) k
    obtain ⟨b, -, -, same⟩ := id sent
    exact ih (sent.imp fun _ _ holds => holds.1) (safe.imp (fun own => same.trans own) id)

/-! The gather phase and the tree (R194, R195). -/

/-- A claim that a later stage of the bucket leaves. -/
def StageFree (P : Bool → Bucket → Prop) : Prop := ∀ h b k, 3 ≤ k → P h b → P h { b with stage := k }

/-- A claim under which the own chunk of a position may be sent. -/
def OwnSafe (g : GroupRec) (pos : Nat) (P : Bool → Bucket → Prop) : Prop :=
  ∀ h b, P h b → h = false ∨ chunkOk g (b.chunks.get {} (ownChunk g pos)) = true

theorem ownFinal_says (claim : BucketSays n key P s) (free : FaultFree P) (later : StageFree P) (safe : OwnSafe g pos P) :
    BucketSays n key (fun h b => P h b ∧ 4 ≤ b.stage) (ownFinal s n key g pos) := by
  obtain ⟨b, found, holds⟩ := id claim
  unfold ownFinal
  simp only [found]
  split
  · exact claim.modBucket fun h b holds => ⟨later h b 5 (by decide) holds, (by decide : 4 ≤ 5)⟩
  · refine BucketSays.sendPkt (claim.modBucket fun h b holds => ⟨later h b 4 (by decide) holds, Nat.le_refl 4⟩)
      (fun h b f holds => ⟨free h b f holds.1, holds.2⟩) ?_ _
    rw [SendSafe, residuesOk_mkPkt, shadow_modBucket]
    exact (safe _ _ holds).imp id .inr

theorem sendDown_says (claim : BucketSays n key P s) (free : FaultFree P) (later : StageFree P) (safe : OwnSafe g pos P) :
    BucketSays n key (fun h b => P h b ∧ 4 ≤ b.stage) (sendDown s n key g pos) := by
  obtain ⟨b, found, holds⟩ := id claim
  unfold sendDown
  simp only [found]
  refine ownFinal_says (BucketSays.sendPkts claim free ((safe _ _ holds).imp id fun fine _ _ => .inr ?_) _) free later safe
  rw [residuesOk_mkPkt]
  exact fine

theorem treeStep_says (claim : BucketSays n key P s) (free : FaultFree P) (later : StageFree P) (safe : OwnSafe g pos P) :
    BucketSays n key P (treeStep s n key g pos) := by
  obtain ⟨b, found, holds⟩ := id claim
  unfold treeStep
  simp only [found]
  split
  · exact claim
  · split
    · exact (sendDown_says claim free later safe).imp fun _ _ holds => holds.1
    · refine BucketSays.sendPkt (claim.modBucket fun h b holds => later h b 3 (by decide) holds) free ?_ _
      rw [SendSafe, residuesOk_mkPkt, shadow_modBucket]
      exact (safe _ _ holds).imp id .inr

theorem reduceEnd_says (claim : BucketSays n key P s) (ends : ∀ h b, P h b → Q h { b with stage := 2 }) (free : FaultFree Q) (later : StageFree Q)
    (safe : OwnSafe g pos Q) : BucketSays n key Q (reduceEnd s n key g pos) :=
  treeStep_says (claim.modBucket ends) free later safe

/-! Starting an attempt of a bucket (R187, R201). -/

/-- What an attempt of a bucket does not change: what it is made of and its exponent. -/
def Bucket.made (b : Bucket) : Bucket :=
  { b with stage := 0, own := [], maxima := 0, bump := 0, breach := false, poison := false, hop := 0, ups := 0, chunks := [], fault := 0, hub := 0 }

/-- A claim about what a bucket is made of. -/
def OfMade (P : Bool → Bucket → Prop) : Prop := ∀ h b c, c.made = b.made → P h b → P h c

theorem SMap.le_of_mem_sortedFrom {α : Type} : ∀ {lo : Nat} {m : SMap α}, sortedFrom lo m = true → ∀ {e : Nat × α}, e ∈ m → lo ≤ e.1
  | _, [], _, _, mem => nomatch mem
  | lo, (j, v) :: t, ordered, e, mem => by
    simp only [sortedFrom, Bool.and_eq_true, decide_eq_true_eq] at ordered
    rcases List.mem_cons.1 mem with rfl | mem
    · exact ordered.1
    · exact Nat.le_trans (Nat.le_succ_of_le ordered.1) (le_of_mem_sortedFrom ordered.2 mem)

theorem SMap.find_map_of_mem {α β : Type} (f : α → β) : ∀ (lo : Nat) (m : SMap α), sortedFrom lo m = true → ∀ e ∈ m,
    find e.1 (m.map (fun e => (e.1, f e.2))) = some (f e.2)
  | _, [], _, e, mem => nomatch mem
  | lo, (j, v) :: t, ordered, e, mem => by
    simp only [sortedFrom, Bool.and_eq_true, decide_eq_true_eq] at ordered
    rw [List.map_cons, find]
    rcases List.mem_cons.1 mem with rfl | mem
    · rw [if_pos rfl]
    · rw [if_neg (Nat.ne_of_lt (SMap.le_of_mem_sortedFrom ordered.2 mem)), find_map_of_mem f (j + 1) t ordered.2 e mem]

/-- The quantised blocks of a bucket in the order of their numbers. -/
def ownBlocks (qs : List (Nat × List Int × Nat × Bool)) : SMap (List Int) := qs.foldl (fun o x => o.insert x.1 x.2.1) []

theorem ownBlocks_sorted (qs : List (Nat × List Int × Nat × Bool)) : SMap.sortedFrom 0 (ownBlocks qs) = true :=
  List.foldlRecOn (motive := fun o : SMap (List Int) => SMap.sortedFrom 0 o = true) qs _ rfl
    fun _ h x _ => SMap.sortedFrom_insert x.1 x.2.1 0 _ (Nat.zero_le _) h

/-- The residues of a bucket's own blocks are right as they are made (R190). -/
theorem chunkOk_ownPart (g : GroupRec) (b : Bucket) (ch : Nat) (ordered : SMap.sortedFrom 0 b.own = true) : chunkOk g (ownPart g b ch) = true := by
  simp only [chunkOk, ownPart, List.all_eq_true]
  intro e mem
  rw [SMap.get, SMap.find_map_of_mem (residueOf g) 0 _ (SMap.sorted_filter _ 0 _ ordered) e mem]
  exact beq_self_eq_true _

theorem exchOf_reportTrip (s : State) (n gi : Nat) : exchOf (modCtx s n (fun c => reportTrip c gi)) n = exchOf s n :=
  exchOf_modCtx s n fun c => by simp only [reportTrip, Option.map_map]; rfl

theorem exchOf_addBack (s : State) (n layer pos : Nat) (t : Tally) : exchOf (addBack s n layer pos t) n = exchOf s n :=
  exchOf_modAttempt s n fun _ => rfl

theorem exchOf_addApart (s : State) (n layer sat ovf : Nat) : exchOf (addApart s n layer sat ovf) n = exchOf s n :=
  exchOf_modAttempt s n fun _ => rfl

/-- A bucket quantised for an attempt (R187). -/
def quantised (g : GroupRec) (b : Bucket) : Bucket :=
  let qs := b.sel.map (fun j => (j, quantBlock g b.a (blockVals b.vals j)))
  let m := magOf ((b.sel.flatMap (blockVals b.vals)).map fp32V)
  let breach := decide ((qs.map (·.2.2.1)).sum ≠ 0)
  { b with
    own := ownBlocks qs, breach := breach, poison := b.vals.any badVal, bump := if breach then (fit m.1 m.2 (127, 0) - b.a).toNat else 0,
    maxima := gmaxOf b.vals, hop := 0, ups := 0, chunks := [], stage := 1, hub := min g.hub 1 }

/-- The attempt of a bucket counted, and its breach tripped and logged (R88, R96, R201). -/
def startNoted (s : State) (n key : Nat) (g : GroupRec) (b : Bucket) : State :=
  let qs := b.sel.map (fun j => (j, quantBlock g b.a (blockVals b.vals j)))
  let s2 := addBack (addApart (modBucket s n key (fun _ => quantised g b)) n b.layer (qs.map (·.2.2.1)).sum 0) n b.layer (bucketParts key).2.2
    { vanish := (qs.filter (·.2.2.2)).length }
  if (quantised g b).breach then logFault (modCtx s2 n (fun c => reportTrip c b.gauge))
    { kind := 11, device := deviceId s, unit := g.tagGroup % 16 * 256 + (bucketParts key).2.1 % 256,
      d0 := ((getCtx s n).attempt.map (·.step)).getD 0, d1 := (quantised g b).bump }
  else s2

theorem startReduce_eq {b : Bucket} (grouped : bucketGroup (getCtx s n) key = some g) (found : getBucket s n key = some b) :
    startReduce s n key =
      if ringSize g = 1 then
        reduceEnd (modBucket (startNoted s n key g b) n key (fun y => { y with chunks := [(0, ownPart g (quantised g b) 0)] })) n key g
          (bucketParts key).2.2
      else sendPkt (startNoted s n key g b) n key g (nextPos g (bucketParts key).2.2)
        (mkPkt (startNoted s n key g b) n key g (quantised g b) 0 ((bucketParts key).2.2 % ringSize g) 0
          (ownPart g (quantised g b) ((bucketParts key).2.2 % ringSize g)) 0) := by
  unfold startReduce
  rw [grouped, found]
  rfl

theorem exchOf_startNoted (s : State) (n key : Nat) (g : GroupRec) (b : Bucket) :
    exchOf (startNoted s n key g b) n = exchOf (modBucket s n key (fun _ => quantised g b)) n := by
  have counted (sat : Nat) (t : Tally) :
      exchOf (addBack (addApart (modBucket s n key (fun _ => quantised g b)) n b.layer sat 0) n b.layer (bucketParts key).2.2 t) n =
        exchOf (modBucket s n key (fun _ => quantised g b)) n := (exchOf_addBack ..).trans (exchOf_addApart ..)
  unfold startNoted
  dsimp only
  split
  · exact (exchOf_congr (getCtx_logFault ..)).trans ((exchOf_reportTrip ..).trans (counted ..))
  · exact counted ..

theorem startReduce_says (claim : BucketSays n key P s) (made : OfMade P) : BucketSays n key P (startReduce s n key) := by
  obtain ⟨b, found, holds⟩ := id claim
  rcases grouped : bucketGroup (getCtx s n) key with _ | g
  · unfold startReduce
    rw [grouped]
    exact claim
  · have started : BucketSays n key (fun h y => P h y ∧ y = quantised g b) (startNoted s n key g b) := by
      refine BucketSays.of_exch ⟨quantised g b, ?_, made _ b _ rfl ?_, rfl⟩ (exchOf_startNoted ..)
      · exact (getBucket_modBucket ..).trans (congrArg (Option.map fun _ => quantised g b) found)
      · exact (congrArg Shadow.held (shadow_modBucket ..)).symm ▸ holds
    have right (ch : Nat) : chunkOk g (ownPart g (quantised g b) ch) = true := chunkOk_ownPart g _ ch (ownBlocks_sorted _)
    rw [startReduce_eq grouped found]
    split
    · next single =>
      have atOwn : ownChunk g (bucketParts key).2.2 = 0 := by rw [ownChunk, single, Nat.mod_one]
      refine (reduceEnd_says (Q := fun h y => P h y ∧ y.chunks = [(0, ownPart g (quantised g b) 0)])
        (started.modBucket (Q := fun h y => P h y ∧ y.chunks = [(0, ownPart g (quantised g b) 0)]) ?_) ?_ ?_ ?_ ?_).imp fun _ _ holds => holds.1
      · exact fun h y holds => ⟨made h y _ rfl holds.1, rfl⟩
      · exact fun h y holds => ⟨made h y _ rfl holds.1, holds.2⟩
      · exact fun h y f holds => ⟨made h y _ rfl holds.1, holds.2⟩
      · exact fun h y k _ holds => ⟨made h y _ rfl holds.1, holds.2⟩
      · intro h y holds
        rw [holds.2, atOwn]
        exact .inr (right 0)
    · refine (started.imp fun _ _ holds => holds.1).sendPkt (fun h y f => made h y _ rfl) ?_ _
      rw [SendSafe, residuesOk_mkPkt]
      exact .inr (.inr (right _))

/-! The agreement round (R94). -/

/-- A claim about what a bucket is made of, whatever its exponent. -/
def OfOpened (P : Bool → Bucket → Prop) : Prop := ∀ h b c (a : Int), { c.made with a := a } = { b.made with a := a } → P h b → P h c

theorem OfOpened.ofMade (opened : OfOpened P) : OfMade P := fun h b c same => opened h b c 0 (by rw [same])

theorem agreed_says (claim : BucketSays n key P s) (opened : OfOpened P) : BucketSays n key P (agreed_ s n key) := by
  obtain ⟨b, found, -⟩ := id claim
  unfold agreed_
  rw [found]
  exact startReduce_says (claim.modBucket fun h b => opened h b _ 0 rfl) opened.ofMade

theorem agreeGather_says (claim : BucketSays n key P s) (opened : OfOpened P) : BucketSays n key P (agreeGather s n key g pos) := by
  obtain ⟨b, found, -⟩ := id claim
  unfold agreeGather
  rw [found]
  refine agreed_says ?_ opened
  split
  · exact claim
  · exact claim.sendPkt (fun h b f => opened h b _ 0 rfl) (.inr (.inl rfl)) _

theorem agreeTree_says (claim : BucketSays n key P s) (opened : OfOpened P) : BucketSays n key P (agreeTree s n key g pos) := by
  obtain ⟨b, found, -⟩ := id claim
  have free : FaultFree P := fun h b f => opened h b _ 0 rfl
  unfold agreeTree
  rw [found]
  dsimp only
  split
  · exact claim
  · split
    · refine agreeGather_says (claim.sendPkts free (.inr fun _ _ => ?_) _) opened
      exact .inl rfl
    · have risen : BucketSays n key P (modBucket s n key (fun b => { b with hop := 2 })) := claim.modBucket fun h b => opened h b _ 0 rfl
      exact risen.sendPkt free (.inr (.inl rfl)) _

theorem startAgree_says (claim : BucketSays n key P s) (opened : OfOpened P) : BucketSays n key P (startAgree s n key g pos) := by
  obtain ⟨b, found, -⟩ := id claim
  have hopped : BucketSays n key P (modBucket s n key (fun b => { b with hop := 1 })) := claim.modBucket fun h b => opened h b _ 0 rfl
  unfold startAgree
  rw [found]
  dsimp only
  split
  · exact agreeTree_says hopped opened
  · split
    · exact hopped.sendPkt (fun h b f => opened h b _ 0 rfl) (.inr (.inl rfl)) _
    · exact claim

end

end Sys2Proof.Machine
end

section
/-! O51: exchange buckets open, complete, are reduced again or time out (R94, R183-R187, R198-R203; log entry 164). -/

namespace Sys2Proof.Machine

/-! BUCKET_OPEN (R94, R183-R187). -/

section
variable {s : State} {n gi ord pos i b : Nat} {p : Plan} {g : GroupRec} {t : TensorRec} {a : Attempt}

/-- The bucket that opens for a parameter. -/
def openedBucket (s : State) (n : Nat) (p : Plan) (a : Attempt) (g : GroupRec) (t : TensorRec) (i b pos : Nat) : Bucket :=
  let first := b * g.slices
  let count := min g.slices (sliceCountOf t - first)
  let gauge := ((p.gauges.find? (fun x => x.kind == 2 && x.tid == t.tid && x.bucket == b)).map (·.gauge)).getD 0
  let vals := contributions (getCtx s n) a g t pos first count (residualKey s (getCtx s n) p t.tid pos)
  let m := magOf (vals.map fp32V)
  { tid := t.tid, first := first, count := count, layer := i, gauge := gauge,
    a := max (-127) (min 127 ((getCtx (awaitGauge s n gauge) n).gauges.get {} gauge).gexp),
    agree := max (-127) (min 127 (fit m.1 m.2 (127, 0))), vals := vals, sel := selectBlocks g vals }

/-- The state in which a bucket has joined the attempt, once its gauge's update has finished (R108, R183). -/
def bucketJoined (s : State) (n key : Nat) (x : Bucket) : State :=
  modAttempt (awaitGauge s n x.gauge) n (fun a => { a with buckets := a.buckets.insert key x })

/-- A bucket begins with the agreement round where its gauge has no history, else at its gauge's exponent (R94, R185). -/
def bucketBegins (s : State) (n key : Nat) (g : GroupRec) (pos : Nat) (x : Bucket) : State :=
  let ga := (getCtx (awaitGauge s n x.gauge) n).gauges.get {} x.gauge
  if ga.hcount = 0 then startAgree (bucketJoined s n key x) n key g pos
  else startReduce (addBack (bucketJoined s n key x) n x.layer pos (clampTally ga.gexp)) n key

theorem exec_bucketOpen (running : (getCtx s n).attempt = some a) (bound : (getCtx s n).plan = some p) (grouped : p.groups[gi]? = some g)
    (listed : (bucketList p gi)[ord]? = some (i, t, b))
    (all : ∀ j, j < min g.slices (sliceCountOf t - b * g.slices) → (a.own.find (ownKey pos t.tid (b * g.slices + j))).isSome = true)
    (before : ord = 0 ∨ (a.buckets.find (bucketKey gi (ord - 1) pos)).isSome = true)
    (window : ord < 256 ∨ ∃ x, a.buckets.find (bucketKey gi (ord - 256) pos) = some x ∧ x.final = true) (undecided : a.outcome = none)
    (new : a.buckets.find (bucketKey gi ord pos) = none) (here : pos ∈ positionsHere s (getCtx s n) p) :
    exec (.bucketOpen n gi ord pos) s =
      .next (runEarly earlyFuel (bucketBegins s n (bucketKey gi ord pos) g pos (openedBucket s n p a g t i b pos))) := by
  have ready : (List.range (min g.slices (sliceCountOf t - b * g.slices))).all
      (fun j => (a.own.find (ownKey pos t.tid (b * g.slices + j))).isSome) = true := by
    simpa only [List.all_eq_true, List.mem_range] using all
  have follows : (ord == 0 || (a.buckets.find (bucketKey gi (ord - 1) pos)).isSome) = true := by simpa using before
  change execBucketOpen n gi ord pos s = _
  unfold execBucketOpen
  simp only [running, bound, grouped, listed, Option.bind_some, Option.map_some, ready, follows, undecided, new,
    List.contains_iff_mem.mpr here, Option.isSome_none, Bool.not_true, Bool.or_false]
  rcases window with early | ⟨x, found, final⟩
  · simp only [decide_eq_true early, Bool.true_or]
    rfl
  · simp only [found, final, Bool.or_true]
    rfl

/-- What a bucket was opened for. -/
def Bucket.purpose (x : Bucket) : Nat × Nat × Nat × Nat × Bool × List Nat × List Nat :=
  (x.tid, x.layer, x.first, x.count, x.final, x.vals, x.sel)

theorem bucketBegins_says (x : Bucket) (key : Nat) (running : (getCtx s n).attempt = some a) :
    BucketSays n key (fun _ y => y.purpose = x.purpose) (bucketBegins s n key g pos x) := by
  have opened : OfOpened (fun _ y => y.purpose = x.purpose) := by
    intro _ b c k same holds
    have kept := congrArg Bucket.purpose same
    exact kept.trans holds
  have joined : BucketSays n key (fun _ y => y.purpose = x.purpose) (bucketJoined s n key x) := by
    refine ⟨x, ?_, rfl⟩
    rw [getBucket, bucketJoined, getCtx_modAttempt, attempt_awaitGauge, running]
    exact SMap.find_insert_same ..
  unfold bucketBegins
  dsimp only
  split
  · exact startAgree_says joined opened
  · exact startReduce_says (joined.of_exch (exchOf_addBack ..)) opened.ofMade

end

/-! BUCKET_COMPLETE (R188, R193, R198-R201). -/

theorem exchOf_keepDigest (s : State) (n : Nat) (g : GroupRec) (tag step key : Nat) (b : Bucket) (m : Nat) :
    exchOf (keepDigest s n g tag step key b) m = exchOf s m := exchOf_congr (getCtx_keepDigest ..)

theorem exchOf_afterFinal (s : State) (n key : Nat) (g : GroupRec) (t : TensorRec) (b : Bucket) : exchOf (afterFinal s n key g t b) n = exchOf s n := by
  unfold afterFinal
  refine (exchOf_keepDigest ..).trans ?_
  rw [exchOf, getCtx_putCtx]
  split
  · split <;> rfl
  · rfl

section
variable {s : State} {n key : Nat} {P : Bool → Bucket → Prop} {g : GroupRec}

/-- A bucket that is decided is final, and stands as it did. -/
theorem closeBucket_says {x : Bucket} (found : getBucket s n key = some x) : getBucket (closeBucket s n key g) n key = some { x with final := true } := by
  rw [closeBucket, getBucket_congr (exchOf_congr (getCtx_bumpWrap ..)), getBucket_modBucket, found]
  rfl

theorem closeBucket_attempt {a : Attempt} (running : (getCtx s n).attempt = some a) :
    ∃ m, (getCtx (closeBucket s n key g) n).attempt = some { a with buckets := m } := by
  rw [closeBucket, getCtx_bumpWrap, modBucket, getCtx_modAttempt, running]
  rcases found : a.buckets.find key with _ | x
  · exact ⟨a.buckets, by simp [found]⟩
  · exact ⟨a.buckets.insert key { x with final := true }, by simp only [Option.map_some, found]⟩

/-- A bucket whose attempt has ended: what follows its final attempt is done, and it is decided (R188, R200, R204). -/
theorem decided_says {x : Bucket} (found : getBucket s n key = some x) (t : TensorRec) :
    getBucket (closeBucket (afterFinal s n key g t x) n key g) n key = some { x with final := true } :=
  closeBucket_says ((getBucket_congr (exchOf_afterFinal ..) key).trans found)

theorem attempt_afterFinal (s : State) (n key : Nat) (g : GroupRec) (t : TensorRec) (b : Bucket) :
    (getCtx (afterFinal s n key g t b) n).attempt = (getCtx s n).attempt := by
  unfold afterFinal
  rw [getCtx_keepDigest, getCtx_putCtx]
  split
  · split <;> rfl
  · rfl

/-- Every slice of a bucket is delivered, if it does not stand already (R199). -/
theorem deliver_slices (t : TensorRec) (b : Bucket) (vals : List Nat) {a : Attempt} (running : (getCtx s n).attempt = some a) :
    ∃ c, (getCtx (deliver s n t b vals) n).attempt = some c ∧ c.buckets = a.buckets ∧
      ∀ j, j < b.count → (c.slices.find (sliceKey t.tid (b.first + j))).isSome = true := by
  unfold deliver
  induction b.count with
  | zero => exact ⟨a, running, rfl, fun j h => absurd h (Nat.not_lt_zero j)⟩
  | succ k ih =>
    obtain ⟨c, after, same, stand⟩ := ih
    rw [List.range_succ, List.foldl_append, List.foldl_cons, List.foldl_nil, getCtx_modAttempt, after]
    dsimp only [Option.map_some]
    split
    · next already =>
      refine ⟨c, rfl, same, fun j h => ?_⟩
      rcases Nat.lt_succ_iff_lt_or_eq.mp h with before | rfl
      · exact stand j before
      · exact already
    · refine ⟨_, rfl, same, fun j h => ?_⟩
      rw [SMap.find_insert]
      split
      · rfl
      · next other =>
        rcases Nat.lt_succ_iff_lt_or_eq.mp h with before | rfl
        · exact stand j before
        · exact absurd rfl other

end

section
variable {s : State} {n gi ord pos : Nat} {g : GroupRec} {t : TensorRec} {a : Attempt} {x : Bucket}

/-- A bucket that a command finds in a running attempt, not decided yet. -/
structure Undecided (s : State) (n gi ord pos : Nat) (g : GroupRec) (t : TensorRec) (a : Attempt) (x : Bucket) : Prop where
  running : (getCtx s n).attempt = some a
  grouped : bucketGroup (getCtx s n) (bucketKey gi ord pos) = some g
  found : getBucket s n (bucketKey gi ord pos) = some x
  recorded : (getCtx s n).plan.bind (fun p => p.record x.tid) = some t
  notFinal : x.final = false

theorem exec_bucketComplete_faulted (h : Undecided s n gi ord pos g t a x) (faulted : x.fault ≠ 0) :
    exec (.bucketComplete n gi ord pos) s = .next (runEarly earlyFuel
      (closeBucket (keepDigest s n g (tagOf g (bucketKey gi ord pos)) a.step (bucketKey gi ord pos) x) n (bucketKey gi ord pos) g)) := by
  change execBucketComplete n gi ord pos s = _
  simp [execBucketComplete, h.running, h.grouped, h.found, h.recorded, h.notFinal, faulted]

/-- Such a bucket whose every chunk is final, without a fault (R198). -/
structure Complete (s : State) (n gi ord pos : Nat) (g : GroupRec) (t : TensorRec) (a : Attempt) (x : Bucket) : Prop
    extends Undecided s n gi ord pos g t a x where
  noFault : x.fault = 0
  stage : x.stage = 5

/-- Some contribution was poisoned; some member breached (R198). -/
def Bucket.poisons (x : Bucket) : Bool := x.chunks.any (fun e => e.2.poison)
def Bucket.breaches (x : Bucket) : Bool := x.chunks.any (fun e => e.2.breach)

/-- The rise of the exponent that the members ask for (R201). -/
def Bucket.rise (x : Bucket) : Nat := (x.chunks.map (fun e => e.2.bump)).foldl max 0

/-- The state in which a poisoned bucket is decided and the step's skip prepared (R189, R198, R236). -/
def poisonNoted (s : State) (n key pos : Nat) (g : GroupRec) (t : TensorRec) (x : Bucket) : State :=
  let bad := (x.chunks.flatMap (fun e => e.2.blocks.filter (fun x => poisoned g x.2))).length
  modAttempt (closeBucket (setErr (addBack (afterFinal s n key g t x) n x.layer pos { nan := bad }) (exPg g) 5) n key g) n
    (fun a => { a with noMore := true, lower := a.lower.or (some 2) })

theorem poisonNoted_says {key : Nat} (found : getBucket s n key = some x) (t : TensorRec) :
    getBucket (poisonNoted s n key pos g t x) n key = some { x with final := true } := by
  refine (getBucket_congr (exchOf_modAttempt _ n ?_) key).trans (closeBucket_says ?_)
  · exact fun _ => rfl
  · exact (getBucket_congr ((exchOf_congr (getCtx_setErr ..)).trans ((exchOf_addBack ..).trans (exchOf_afterFinal ..))) key).trans found

theorem exec_bucketComplete_poison (h : Complete s n gi ord pos g t a x) (bad : x.poisons = true) :
    exec (.bucketComplete n gi ord pos) s =
      .next (runEarly earlyFuel (endAttempt (poisonNoted s n (bucketKey gi ord pos) pos g t x) n cNanGrad)) := by
  rw [Bucket.poisons] at bad
  change execBucketComplete n gi ord pos s = _
  simp only [execBucketComplete, poisonNoted, h.running, h.grouped, h.found, h.recorded, h.notFinal, h.noFault, h.stage, bad, ne_eq,
    not_true_eq_false, decide_false, Bool.false_and, Bool.or_self, Bool.false_eq_true, if_false, if_true]

theorem exec_bucketComplete_breach (h : Complete s n gi ord pos g t a x) (good : x.poisons = false) (breach : x.breaches = true)
    (first : x.attempt = 0) :
    exec (.bucketComplete n gi ord pos) s = .next (runEarly earlyFuel (breachRetry s n (bucketKey gi ord pos) g t x)) := by
  rw [Bucket.poisons] at good
  rw [Bucket.breaches] at breach
  change execBucketComplete n gi ord pos s = _
  simp [execBucketComplete, h.running, h.grouped, h.found, h.recorded, h.notFinal, h.noFault, h.stage, good, breach, first]

theorem exec_bucketComplete_breachAgain (h : Complete s n gi ord pos g t a x) (good : x.poisons = false) (breach : x.breaches = true)
    (again : x.attempt ≠ 0) :
    ∃ u, exec (.bucketComplete n gi ord pos) s = .next (runEarly earlyFuel (endAttempt u n cResidue)) := by
  rw [Bucket.poisons] at good
  rw [Bucket.breaches] at breach
  refine ⟨setErr (closeBucket (afterFinal s n (bucketKey gi ord pos) g t x) n (bucketKey gi ord pos) g) (exPg g) 3, ?_⟩
  change execBucketComplete n gi ord pos s = _
  simp [execBucketComplete, h.running, h.grouped, h.found, h.recorded, h.notFinal, h.noFault, h.stage, good, breach, again]

theorem exec_bucketComplete_residue (h : Complete s n gi ord pos g t a x) (good : x.poisons = false) (held : x.breaches = false)
    (checked : resChk s (min g.hub 1) = true) (wrong : finalOk g x = false) :
    exec (.bucketComplete n gi ord pos) s =
      .next (residueFault s n (bucketKey gi ord pos) g (min g.hub 1) (deviceId s) (hopsGather g (ringSize g - 1))) := by
  rw [Bucket.poisons] at good
  rw [Bucket.breaches] at held
  change execBucketComplete n gi ord pos s = _
  simp [execBucketComplete, h.running, h.grouped, h.found, h.recorded, h.notFinal, h.noFault, h.stage, good, held, checked, wrong]

theorem exec_bucketComplete_right (h : Complete s n gi ord pos g t a x) (good : x.poisons = false) (held : x.breaches = false)
    (right : resChk s (min g.hub 1) = false ∨ finalOk g x = true) :
    exec (.bucketComplete n gi ord pos) s = .next (runEarly earlyFuel
      (let s1 := closeBucket (afterFinal s n (bucketKey gi ord pos) g t x) n (bucketKey gi ord pos) g
       if (delivered x).2 ≠ 0 then exchangeOverflow s1 n g x (delivered x).2 else if a.noMore then s1 else deliver s1 n t x (delivered x).1)) := by
  have passes : (resChk s (min g.hub 1) && !finalOk g x) = false := by rcases right with h | h <;> simp [h]
  rw [Bucket.poisons] at good
  rw [Bucket.breaches] at held
  change execBucketComplete n gi ord pos s = _
  simp only [execBucketComplete, h.running, h.grouped, h.found, h.recorded, h.notFinal, h.noFault, h.stage, good, held, passes,
    apply_ite (runEarly earlyFuel), apply_ite Host.Outcome.next]
  rfl

end

theorem foldl_max_cast (l : List Nat) (m : Nat) : (l.map (fun k : Nat => (k : Int))).foldl max (m : Int) = (l.foldl max m : Nat) := by
  induction l generalizing m with
  | nil => rfl
  | cons k l ih =>
    rw [List.map_cons, List.foldl_cons, List.foldl_cons, ← Nat.cast_max, ih]

/-- The breach is counted and a raise of the bucket's gauge asked for (R198). -/
def breachNoted (s : State) (n key : Nat) (x : Bucket) : State :=
  modAttempt (addBack s n x.layer (bucketParts key).2.2 { breach := 1 }) n
    (fun a => { a with raises := if a.raises.contains x.gauge then a.raises else a.raises ++ [x.gauge] })

theorem exchOf_breachNoted (s : State) (n key : Nat) (x : Bucket) : exchOf (breachNoted s n key x) n = exchOf s n := by
  refine (exchOf_modAttempt _ n ?_).trans (exchOf_addBack ..)
  exact fun _ => rfl

theorem breachRetry_eq (s : State) (n key : Nat) (g : GroupRec) (t : TensorRec) (x : Bucket) :
    breachRetry s n key g t x =
      if 127 < x.a + (x.rise : Nat) then
        exchangeOverflow (closeBucket (afterFinal (breachNoted s n key x) n key g t x) n key g) n g x 1
      else startReduce (bumpSat (modBucket (breachNoted s n key x) n key (fun b => { b with attempt := 1, a := b.a + (x.rise : Nat) })) (exPg g)
        Reg.EX_BREACHES 31 0 1) n key := by
  rw [Bucket.rise, ← foldl_max_cast, List.map_map]
  rfl

/-- The first breach that an exponent up to 127 serves starts the second attempt there (R198, R201). -/
theorem breachRetry_says {s : State} {n key : Nat} {x : Bucket} (g : GroupRec) (t : TensorRec) (found : getBucket s n key = some x)
    (serves : x.a + (x.rise : Nat) ≤ 127) :
    BucketSays n key (fun _ y => (y.attempt, y.a, y.final) = (1, x.a + (x.rise : Nat), x.final)) (breachRetry s n key g t x) := by
  have raised : BucketSays n key (fun _ y => (y.attempt, y.a, y.final) = (1, x.a + (x.rise : Nat), x.final))
      (modBucket (breachNoted s n key x) n key (fun b => { b with attempt := 1, a := b.a + (x.rise : Nat) })) := by
    refine ⟨{ x with attempt := 1, a := x.a + (x.rise : Nat) }, ?_, rfl⟩
    rw [getBucket_modBucket, getBucket_congr (exchOf_breachNoted ..), found]
    rfl
  rw [breachRetry_eq, if_neg (Int.not_lt.mpr serves)]
  refine startReduce_says (raised.of_getCtx (getCtx_bumpSat ..)) fun _ b c same holds => ?_
  have kept := congrArg (fun y : Bucket => (y.attempt, y.a, y.final)) same
  exact kept.trans holds

theorem breachRetry_overflow {s : State} {n key : Nat} {x : Bucket} (g : GroupRec) (t : TensorRec) (above : 127 < x.a + (x.rise : Nat)) :
    ∃ u, breachRetry s n key g t x = endAttempt u n cOvfExch := by
  rw [breachRetry_eq, if_pos above]
  exact ⟨_, rfl⟩

theorem exec_bucketDeadline {s : State} {n gi ord pos : Nat} {g : GroupRec} {x : Bucket}
    (grouped : bucketGroup (getCtx s n) (bucketKey gi ord pos) = some g)
    (found : getBucket s n (bucketKey gi ord pos) = some x) (notFinal : x.final = false) (open_ : x.stage ≠ 5) (noFault : x.fault = 0) :
    exec (.bucketDeadline n gi ord pos) s = .next (endAttempt
      (setErr (modBucket s n (bucketKey gi ord pos) (fun b => { b with fault := cDeadline })) (exPg g) 2) n cDeadline) := by
  change execBucketDeadline n gi ord pos s = _
  simp [execBucketDeadline, grouped, found, notFinal, open_, noFault]

/-- Settles O51: a bucket's definition outlives its attempts, as the operations of an attempt change its working state alone. -/
theorem exchangeBuckets : Obligations.ExchangeBuckets := by
  unfold Obligations.ExchangeBuckets
  refine ⟨?_, ?_, ?_⟩
  · intro ctx gi ord pos i b p g t a s running bound grouped listed all before window undecided new here
    obtain ⟨y, found, same⟩ := bucketBegins_says (g := g) (pos := pos) (openedBucket s ctx p a g t i b pos) (bucketKey gi ord pos) running
    simp only [Bucket.purpose, Prod.mk.injEq] at same
    obtain ⟨tid, layer, first, count, final, vals, sel⟩ := same
    refine ⟨_, y, exec_bucketOpen running bound grouped listed all before window undecided new here, found, tid, layer, first, count, final, ?_, ?_⟩
    · rw [vals, first, count]; rfl
    · rw [sel, vals]; rfl
  · intro ctx gi ord pos g t a x s running grouped found recorded notFinal
    have open_ : Undecided s ctx gi ord pos g t a x := ⟨running, grouped, found, recorded, notFinal⟩
    refine ⟨fun faulted => ⟨_, { x with final := true }, exec_bucketComplete_faulted open_ faulted, ?_, rfl⟩, fun noFault stage => ?_⟩
    · exact closeBucket_says ((getBucket_congr (exchOf_keepDigest ..) _).trans found)
    have complete : Complete s ctx gi ord pos g t a x := ⟨open_, noFault, stage⟩
    have closed := decided_says (g := g) found t
    refine ⟨fun bad => ⟨_, { x with final := true }, exec_bucketComplete_poison complete bad, ?_, rfl⟩,
      fun good breach first serves => ?_, fun good breach first above => ?_,
      fun good breach again => exec_bucketComplete_breachAgain complete good breach again,
      fun good held checked wrong => exec_bucketComplete_residue complete good held checked wrong, fun good held right overflows => ?_,
      fun good held right fits goesOn => ?_⟩
    · exact poisonNoted_says found t
    · obtain ⟨y, found', same⟩ := breachRetry_says g t found serves
      simp only [Prod.mk.injEq] at same
      obtain ⟨attempt, a, final⟩ := same
      exact ⟨_, y, exec_bucketComplete_breach complete good breach first, found', attempt, a, final.trans notFinal⟩
    · obtain ⟨u, ends⟩ := breachRetry_overflow (s := s) (n := ctx) (key := bucketKey gi ord pos) g t above
      exact ⟨u, by rw [exec_bucketComplete_breach complete good breach first, ends]⟩
    · rw [exec_bucketComplete_right complete good held right]
      dsimp only
      rw [if_pos overflows]
      exact ⟨_, rfl⟩
    · rw [exec_bucketComplete_right complete good held right]
      dsimp only
      rw [if_neg (not_not_intro fits), if_neg (by rw [goesOn]; exact Bool.false_ne_true)]
      obtain ⟨m, closedAttempt⟩ := closeBucket_attempt (key := bucketKey gi ord pos) (g := g)
        ((attempt_afterFinal s ctx (bucketKey gi ord pos) g t x).trans running)
      obtain ⟨c, after, same, stand⟩ := deliver_slices t x (delivered x).1 closedAttempt
      refine ⟨_, c, { x with final := true }, rfl, after, ?_, rfl, stand⟩
      rw [getBucket, closedAttempt] at closed
      rw [getBucket, after]
      exact (congrArg (SMap.find (bucketKey gi ord pos)) same).trans closed
  · intro ctx gi ord pos g x s grouped found notFinal open_ noFault
    refine ⟨_, exec_bucketDeadline grouped found notFinal open_ noFault, ?_⟩
    rw [getBucket_congr (exchOf_congr (getCtx_setErr ..)), getBucket_modBucket, found]
    rfl

end Sys2Proof.Machine
end

section
/-! O52: exchange packets are held, discarded or used (R94, R184, R192-R195). -/

namespace Sys2Proof.Machine

/-! A packet on its own: none held back, so one choice decides (R184). -/

theorem runEarly_idle {s : State} (idle : s.early = []) (k : Nat) : runEarly k s = s := by
  cases k with
  | zero => rfl
  | succ k => simp only [runEarly, idle, List.find?_nil]

/-- What becomes of a packet, and of those that it may set in motion. -/
def packetFate (s : State) (p : ExPkt) : PktPlan → State
  | .hold => { s with early := [p] }
  | .use n key g => runEarly 65535 (usePkt s n key g p)
  | .drop n key g => runEarly 65535 (dropPkt s n key g p.src)

theorem pktIn_alone {s : State} (alone : s.early = []) (p : ExPkt) : pktIn s p = packetFate s p (planPkt s p) := by
  have again : planPkt { s with early := [p] } p = planPkt s p := rfl
  have left : { s with early := [p].erase p } = s := by rw [List.erase_cons_head, ← alone]
  rw [pktIn, alone, show earlyFuel = 65535 + 1 from rfl, List.nil_append, runEarly]
  dsimp only
  rcases fate : planPkt s p with ⟨n, key, g⟩ | _ | ⟨n, key, g⟩
  · simp only [List.find?_cons, again, fate, left]; rfl
  · simp only [List.find?_cons, again, fate, List.find?_nil]; rfl
  · simp only [List.find?_cons, again, fate, left]; rfl

theorem exec_exchangePacket {c : Instr} {p : ExPkt} {s : State} (packet : exchangePacket c = some p) (alone : s.early = []) :
    exec c s = .next (packetFate s p (planPkt s p)) := by
  rw [← pktIn_alone alone]
  unfold exchangePacket at packet
  split at packet <;> cases packet <;> rfl

/-! Discarded (R192). -/

theorem setErr_early (s : State) (p : Page) (i : Nat) : (setErr s p i).early = s.early := by
  obtain ⟨r, e, d, h⟩ := setErr_only s p i
  rw [h]

theorem exchangeErr_bit (s : State) (hub : Nat) : bit (regGet (setErr s (pgExchange hub) 0) (pgExchange hub) (errOff 0x18)) 0 = true := by
  refine setErr_bit_apart s (pgExchange hub) (by decide) (by decide : errOff 0x18 < 0x1000) (by decide : errOff 0x18 ≠ Reg.EVT_PEND) ?_
  unfold apart pgExchange pgHost
  dsimp only
  split
  · exact .inl (by decide)
  · exact .inr (by decide)

theorem dropPkt_early {s : State} (alone : s.early = []) (n key : Nat) (g : Option GroupRec) (src : Nat) : (dropPkt s n key g src).early = [] := by
  unfold dropPkt
  split
  · rw [setErr_early, alone]
  · dsimp only
    rw [setErr_early]
    split
    · exact alone
    · exact alone

/-! Used (R94, R193-R195). -/

section
variable {s : State} {n key : Nat} {g : GroupRec} {p : ExPkt} {b : Bucket}

theorem exchOf_noteReceived (s : State) (n key : Nat) (p : ExPkt) : exchOf (noteReceived s n key p) n = exchOf s n := by
  unfold noteReceived
  split
  · rfl
  · refine exchOf_modAttempt s n ?_
    exact fun _ => rfl

/-- An AGREE packet at a place that expects it (R94). -/
theorem usePkt_agree (found : getBucket s n key = some b) (kind : p.kind = 2) {r : Nat}
    (role : agreeRole (getCtx s n) g b (bucketParts key).2.2 p.src = some r) :
    usePkt s n key g p = takeAgree (noteReceived s n key p) n key g (bucketParts key).2.2 r p.agree := by
  simp only [usePkt, found, kind, role, if_true]

/-- A packet with a block whose residue is wrong is not used (R193). -/
theorem usePkt_residue (found : getBucket s n key = some b) (kind : p.kind ≠ 2) (checked : resChk s (hubTo s g key p.src) = true)
    (wrong : residuesOk g p = false) : usePkt s n key g p = residueFault s n key g (hubTo s g key p.src) p.src p.hops := by
  simp only [usePkt, found, if_neg kind, checked, wrong, Bool.not_false, Bool.and_self, if_true]

/-- What an AGREE packet makes of a bucket's value: a maximum on the way up, the agreed value on the way down (R94). -/
def agreedValue (r : Nat) (old new : Int) : Int := if r = 8 ∨ r = 9 then new else max old new

theorem takeAgree_says (same : BucketSays n key (fun _ y => y = b) s) (pos r : Nat) (v : Int) :
    BucketSays n key (fun _ y => y.agree = agreedValue r b.agree v) (takeAgree s n key g pos r v) := by
  have opened (k : Int) : OfOpened (fun _ y => y.agree = k) := by
    intro _ y z a made holds
    have kept := congrArg Bucket.agree made
    exact kept.trans holds
  have taken : BucketSays n key (fun _ y => y.agree = v) (modBucket s n key (fun b => { b with agree := v })) := same.modBucket fun _ _ _ => rfl
  have raised : BucketSays n key (fun _ y => y.agree = max b.agree v) (modBucket s n key (fun b => { b with agree := max b.agree v })) :=
    same.modBucket fun _ _ holds => by rw [holds]
  unfold takeAgree
  split
  · have hopped := raised.modBucket (f := fun b => { b with hop := 1 }) (Q := fun _ y => y.agree = agreedValue 0 b.agree v) fun _ _ holds => holds
    dsimp only
    split
    · exact agreeTree_says hopped (opened _)
    · split
      · exact hopped.sendPkt (fun h y f => opened _ h y _ 0 rfl) (.inr (.inl rfl)) _
      · exact hopped
  · dsimp only
    split
    · refine agreeGather_says (taken.sendPkts (fun h y f => opened _ h y _ 0 rfl) (.inr fun _ _ => ?_) _) (opened _)
      exact .inl rfl
    · exact taken
  · exact agreeGather_says taken (opened _)
  · next not0 not8 not9 =>
    have up : agreedValue r b.agree v = max b.agree v := if_neg fun | .inl h => not8 h | .inr h => not9 h
    rw [up]
    refine agreeTree_says (BucketSays.modBucket raised ?_) (opened _)
    exact fun _ _ holds => holds

/-- The bucket as a packet finds it that is used: the packet noted, and the hub that it came in at (R204, R205). -/
def pktNoted (s : State) (n key : Nat) (g : GroupRec) (p : ExPkt) : State :=
  modBucket (noteReceived s n key p) n key (fun b => { b with hub := hubTo s g key p.src })

theorem pktNoted_says (own : (getCtx s n).shadow.held = false) (found : getBucket s n key = some b) :
    BucketSays n key (fun h y => h = false ∧ y = { b with hub := hubTo s g key p.src }) (pktNoted s n key g p) := by
  have same : BucketSays n key (fun h y => h = false ∧ y = b) s := ⟨b, found, own, rfl⟩
  exact (same.of_exch (exchOf_noteReceived ..)).modBucket fun _ _ holds => ⟨holds.1, by rw [holds.2]⟩

/-- The packet's blocks are not checked, or are right (R193, R205). -/
def pktPasses (s : State) (key : Nat) (g : GroupRec) (p : ExPkt) : Prop := resChk s (hubTo s g key p.src) = false ∨ residuesOk g p = true

theorem pktPasses.check (h : pktPasses s key g p) : (resChk s (hubTo s g key p.src) && !residuesOk g p) = false := by
  rcases h with h | h <;> simp [h]

/-- The sum that a REDUCE packet makes with the own part (R194). -/
def reduced (g : GroupRec) (b : Bucket) (p : ExPkt) : Chunk := addChunks g (pktChunk p) (ownPart g b p.chunk)

/-- A REDUCE packet taken: one more hop is through (R194). -/
def reduceTaken (s : State) (n key : Nat) (g : GroupRec) (p : ExPkt) : State :=
  modBucket (pktNoted s n key g p) n key (fun b => { b with hop := b.hop + 1 })

theorem usePkt_reduceOn (found : getBucket s n key = some b) (kind : p.kind = 0) (passes : pktPasses s key g p) (between : b.hop + 1 < ringSize g - 1) :
    usePkt s n key g p = sendPkt (reduceTaken s n key g p) n key g (nextPos g (bucketParts key).2.2)
      (mkPkt (reduceTaken s n key g p) n key g b 0 p.chunk (b.hop + 1) (reduced g b p) 0) := by
  simp only [usePkt, found, kind, passes.check, OfNat.zero_ne_ofNat, if_false, Bool.false_eq_true, if_pos between]
  rfl

theorem usePkt_reduceLast (found : getBucket s n key = some b) (kind : p.kind = 0) (passes : pktPasses s key g p)
    (last : ¬ b.hop + 1 < ringSize g - 1) :
    usePkt s n key g p = reduceEnd (modBucket (reduceTaken s n key g p) n key (fun y => { y with chunks := y.chunks.insert p.chunk (reduced g b p) }))
      n key g (bucketParts key).2.2 := by
  simp only [usePkt, found, kind, passes.check, OfNat.zero_ne_ofNat, if_false, Bool.false_eq_true, if_neg last]
  rfl

/-- A GATHER packet taken: its chunk is kept (R194). -/
def gatherTaken (s : State) (n key : Nat) (g : GroupRec) (p : ExPkt) : State :=
  modBucket (pktNoted s n key g p) n key (fun b => { b with hop := b.hop + 1, chunks := b.chunks.insert p.chunk (pktChunk p) })

/-- It goes on round the ring to all but the last (R194). -/
def gatherSent (s : State) (n key : Nat) (g : GroupRec) (p : ExPkt) (b : Bucket) : State :=
  if b.hop + 1 - ringSize g < ringSize g - 2 then
    sendPkt (gatherTaken s n key g p) n key g (nextPos g (bucketParts key).2.2)
      (mkPkt (gatherTaken s n key g p) n key g b 1 p.chunk (hopsGather g (b.hop + 1 - ringSize g + 1)) (pktChunk p) 0)
  else gatherTaken s n key g p

theorem usePkt_gather (found : getBucket s n key = some b) (kind : p.kind = 1) (passes : pktPasses s key g p) :
    usePkt s n key g p =
      if b.hop + 1 = 2 * (ringSize g - 1) then modBucket (gatherSent s n key g p b) n key (fun b => { b with stage := 5 })
      else gatherSent s n key g p b := by
  simp only [usePkt, found, kind, passes.check, OfNat.one_ne_ofNat, if_false, Bool.false_eq_true]
  rfl

theorem usePkt_up (found : getBucket s n key = some b) (kind : p.kind = 3) (passes : pktPasses s key g p) {k : Nat}
    (child : (List.range (treeKids g (bucketParts key).2.2).length).find? (fun k => !bit b.ups k &&
      devAt (getCtx s n) g ((treeKids g (bucketParts key).2.2).getD k 0) == p.src) = some k) :
    usePkt s n key g p = treeStep (modBucket (pktNoted s n key g p) n key (fun b' => { b' with
      ups := setBits b'.ups k k 1, chunks := b'.chunks.insert p.chunk (addChunks g (pktChunk p) (b'.chunks.get {} p.chunk)) })) n key g
      (bucketParts key).2.2 := by
  simp only [usePkt, found, kind, passes.check, if_false, Bool.false_eq_true, child]
  rfl

theorem usePkt_down (found : getBucket s n key = some b) (kind : p.kind = 4) (passes : pktPasses s key g p) :
    usePkt s n key g p = sendDown (modBucket (pktNoted s n key g p) n key (fun b => { b with chunks := b.chunks.insert p.chunk (pktChunk p) })) n key g
      (bucketParts key).2.2 := by
  simp only [usePkt, found, kind, passes.check, if_false, Bool.false_eq_true]
  rfl

/-- A bucket whose partial result went on: one more hop, nothing kept (R194). -/
def Hopped (b : Bucket) (h : Bool) (y : Bucket) : Prop := h = false ∧ y.hop = b.hop + 1 ∧ y.stage = b.stage ∧ y.chunks = b.chunks

theorem reduceOn_says (own : (getCtx s n).shadow.held = false) (found : getBucket s n key = some b) (dst : Nat) (q : ExPkt) :
    BucketSays n key (Hopped b) (sendPkt (reduceTaken s n key g p) n key g dst q) := by
  have taken : BucketSays n key (Hopped b) (reduceTaken s n key g p) :=
    (pktNoted_says own found).modBucket fun _ _ holds => by
      rw [holds.2]
      exact ⟨holds.1, rfl, rfl, rfl⟩
  obtain ⟨-, -, held, -⟩ := id taken
  exact taken.sendPkt (fun _ _ _ holds => holds) (.inl held) dst

/-- What a bucket holds of a packet's chunk: the chunk, past a stage, after a number of hops. -/
def Holds (ch : Nat) (x : Chunk) (hop stage : Nat) (h : Bool) (y : Bucket) : Prop :=
  h = false ∧ y.hop = hop ∧ stage ≤ y.stage ∧ y.chunks.find ch = some x

theorem Holds.faultFree (ch : Nat) (x : Chunk) (hop stage : Nat) : FaultFree (Holds ch x hop stage) := fun _ _ _ holds => holds

theorem Holds.stageFree (ch : Nat) (x : Chunk) (hop : Nat) {stage : Nat} (before : stage ≤ 3) : StageFree (Holds ch x hop stage) :=
  fun _ _ _ later holds => ⟨holds.1, holds.2.1, Nat.le_trans before later, holds.2.2.2⟩

theorem Holds.ownSafe (g : GroupRec) (pos ch : Nat) (x : Chunk) (hop stage : Nat) : OwnSafe g pos (Holds ch x hop stage) := fun _ _ holds => .inl holds.1

theorem reduceLast_says (own : (getCtx s n).shadow.held = false) (found : getBucket s n key = some b) (x : Chunk) :
    BucketSays n key (Holds p.chunk x (b.hop + 1) 2)
      (reduceEnd (modBucket (reduceTaken s n key g p) n key (fun y => { y with chunks := y.chunks.insert p.chunk x })) n key g
        (bucketParts key).2.2) := by
  have taken : BucketSays n key (fun h y => h = false ∧ y.hop = b.hop + 1) (reduceTaken s n key g p) :=
    (pktNoted_says own found).modBucket fun _ _ holds => ⟨holds.1, by rw [holds.2]⟩
  have kept : BucketSays n key (Holds p.chunk x (b.hop + 1) 0)
      (modBucket (reduceTaken s n key g p) n key (fun y => { y with chunks := y.chunks.insert p.chunk x })) :=
    taken.modBucket fun _ _ holds => ⟨holds.1, holds.2, Nat.zero_le _, SMap.find_insert_same ..⟩
  exact reduceEnd_says kept (fun _ _ holds => ⟨holds.1, holds.2.1, Nat.le_refl 2, holds.2.2.2⟩) (Holds.faultFree _ _ _ _)
    (Holds.stageFree _ _ _ (by decide)) (Holds.ownSafe _ _ _ _ _ _)

/-- A bucket that has kept a GATHER packet's chunk (R194). -/
def Gathered (p : ExPkt) (b : Bucket) (h : Bool) (y : Bucket) : Prop :=
  h = false ∧ y.hop = b.hop + 1 ∧ y.chunks.find p.chunk = some (pktChunk p) ∧ y.stage = b.stage

/-- A GATHER packet's chunk is kept; the last one ends the gather phase (R194). -/
theorem gather_says (own : (getCtx s n).shadow.held = false) (found : getBucket s n key = some b) (kind : p.kind = 1) (passes : pktPasses s key g p) :
    BucketSays n key (fun _ y => y.hop = b.hop + 1 ∧ y.chunks.find p.chunk = some (pktChunk p) ∧
      y.stage = if b.hop + 1 = 2 * (ringSize g - 1) then 5 else b.stage) (usePkt s n key g p) := by
  have taken : BucketSays n key (Gathered p b) (gatherTaken s n key g p) :=
    (pktNoted_says own found).modBucket fun _ _ holds => by
      rw [holds.2]
      exact ⟨holds.1, rfl, SMap.find_insert_same .., rfl⟩
  obtain ⟨-, -, held, -⟩ := id taken
  have sent : BucketSays n key (Gathered p b) (gatherSent s n key g p b) := by
    unfold gatherSent
    split
    · exact taken.sendPkt (fun _ _ _ holds => holds) (.inl held) _
    · exact taken
  rw [usePkt_gather found kind passes]
  split
  · exact sent.modBucket fun _ _ holds => ⟨holds.2.1, holds.2.2.1, rfl⟩
  · exact sent.imp fun _ _ holds => holds.2

/-- A TREE_UP packet is added to the own chunk, and its child is through (R195). -/
theorem up_says (own : (getCtx s n).shadow.held = false) (found : getBucket s n key = some b) (kind : p.kind = 3) (passes : pktPasses s key g p) {k : Nat}
    (child : (List.range (treeKids g (bucketParts key).2.2).length).find? (fun k => !bit b.ups k &&
      devAt (getCtx s n) g ((treeKids g (bucketParts key).2.2).getD k 0) == p.src) = some k) :
    BucketSays n key (fun h y => h = false ∧ bit y.ups k = true ∧ y.chunks.find p.chunk = some (addChunks g (pktChunk p) (b.chunks.get {} p.chunk)))
      (usePkt s n key g p) := by
  rw [usePkt_up found kind passes child]
  refine treeStep_says (BucketSays.modBucket (pktNoted_says own found) ?_) (fun _ _ _ holds => holds) (fun _ _ _ _ holds => holds)
    fun _ _ holds => .inl holds.1
  rintro _ _ ⟨held, rfl⟩
  refine ⟨held, ?_, SMap.find_insert_same ..⟩
  rw [bit_setBits_one, beq_self_eq_true, Bool.or_true]

/-- A TREE_DOWN packet's chunk is the final one, and the gather phase begins (R195). -/
theorem down_says (own : (getCtx s n).shadow.held = false) (found : getBucket s n key = some b) (kind : p.kind = 4) (passes : pktPasses s key g p) :
    BucketSays n key (fun h y => Holds p.chunk (pktChunk p) b.hop 0 h y ∧ 4 ≤ y.stage) (usePkt s n key g p) := by
  rw [usePkt_down found kind passes]
  refine sendDown_says (BucketSays.modBucket (pktNoted_says own found) ?_) (Holds.faultFree _ _ _ _)
    (Holds.stageFree _ _ _ (by decide)) (Holds.ownSafe _ _ _ _ _ _)
  rintro _ _ ⟨held, rfl⟩
  exact ⟨held, rfl, Nat.zero_le _, SMap.find_insert_same ..⟩

end

/-- Settles O52: a packet is used as its kind says, and what it sends on changes of its own bucket no more than a fault. -/
theorem exchangePackets : Obligations.ExchangePackets := by
  unfold Obligations.ExchangePackets
  intro c p s packet alone quiet
  rw [exec_exchangePacket packet alone]
  refine ⟨fun hold => by rw [hold]; rfl, fun n key g drop => ?_, fun n key drop => ?_, fun n key g b use _ found => ?_⟩
  · rw [drop]
    exact ⟨_, congrArg Host.Outcome.next (runEarly_idle (dropPkt_early alone ..) _), exchangeErr_bit .., dropPkt_early alone ..⟩
  · rw [drop]
    exact ⟨_, congrArg Host.Outcome.next (runEarly_idle (dropPkt_early alone ..) _), exchangeErr_bit .., dropPkt_early alone ..⟩
  · rw [use]
    have own := quiet.held n
    refine ⟨usePkt s n key g p, rfl, fun kind checked wrong => usePkt_residue found kind checked wrong,
      fun kind r role => ?_, fun _ passes => ⟨?_, ?_, ?_, ?_, ?_⟩⟩
    · rw [usePkt_agree found kind role]
      exact takeAgree_says ⟨b, (getBucket_congr (exchOf_noteReceived ..) key).trans found, rfl⟩ ..
    · intro kind between
      rw [usePkt_reduceOn found kind passes between]
      obtain ⟨y, after, -, hop, stage, chunks⟩ := reduceOn_says own found (g := g) (p := p) (nextPos g (bucketParts key).2.2)
        (mkPkt (reduceTaken s n key g p) n key g b 0 p.chunk (b.hop + 1) (reduced g b p) 0)
      exact ⟨y, _, _, after, hop, stage, chunks, rfl, rfl, rfl, rfl⟩
    · intro kind last
      rw [usePkt_reduceLast found kind passes (Nat.not_lt.mpr last)]
      obtain ⟨y, after, -, hop, stage, chunk⟩ := reduceLast_says own found (g := g) (p := p) (reduced g b p)
      exact ⟨y, after, hop, stage, chunk⟩
    · exact fun kind => gather_says own found kind passes
    · intro kind k child
      obtain ⟨y, after, -, up, chunk⟩ := up_says own found kind passes child
      exact ⟨y, after, up, chunk⟩
    · intro kind
      obtain ⟨y, after, ⟨-, -, -, chunk⟩, stage⟩ := down_says own found kind passes
      exact ⟨y, after, chunk, stage⟩

end Sys2Proof.Machine
end

section
/-! SUPPORT of O53. Arrives that reach a peg, the end of an attempt and the start of a repeat (R86, R206, R207, R214-R217, R238). -/

namespace Sys2Proof.Machine

/-! An arrive that reaches its peg (R379, R380). -/

section
variable {s : State} {k : Nat}

theorem getPeg_endWait (status : Nat) (s : State) (x : PegWait) (j : Nat) : getPeg (endWait status s x) j = getPeg s j := by
  unfold endWait
  split
  · exact getPeg_of_besideTraffic (besideTraffic_sendRouted ..) j
  · split <;> rfl

theorem getPeg_endWaits (status : Nat) (ws : List PegWait) (s : State) (j : Nat) : getPeg (ws.foldl (endWait status) s) j = getPeg s j := by
  induction ws generalizing s with
  | nil => rfl
  | cons x ws ih => rw [List.foldl_cons, ih, getPeg_endWait]

theorem getPeg_updateGroup (s : State) (j m : Nat) : getPeg (updateGroup s j) m = getPeg s m := rfl

theorem getPeg_putPeg_same (s : State) (k : Nat) (p : Peg) : getPeg (putPeg s k p) k = p := SMap.get_put_same ..

theorem settlePeg_reached (atTarget : (getPeg s k).target ≤ (getPeg s k).count) : (getPeg (settlePeg s k) k).reached = true := by
  unfold settlePeg
  dsimp only
  rw [decide_eq_true atTarget, Bool.true_and]
  split
  · rw [getPeg_updateGroup, getPeg_endWaits, getPeg_putPeg_same]
  · next already => rw [getPeg_updateGroup]; simpa using already

/-- An operation that passes the three tests is applied (R382). -/
theorem pegOpOn_applies {tag : Nat} (mine : pegStatus s k tag = 0) (op : PegOp) (v : Nat) (x : PegWait) :
    pegOpOn s k tag op v x = applyPeg s k op v x := by
  rw [pegStatus] at mine
  unfold pegOpOn
  split at mine
  · cases mine
  · next notFenced =>
    split at mine
    · cases mine
    · next bound =>
      split at mine
      · cases mine
      · next owner => rw [if_neg notFenced, if_neg (by simpa using bound), if_neg owner]

/-- An arrive that brings an open peg's count to its target reaches it (R379, R380). -/
theorem arrive_reached {tag : Nat} (mine : pegStatus s k tag = 0) (open_ : (getPeg s k).closed = false)
    (atTarget : (getPeg s k).target ≤ (getPeg s k).count + 1) (small : (getPeg s k).target < 2 ^ 32) (v : Nat) (x : PegWait) :
    (getPeg (pegOpOn s k tag .arrive v x).s k).reached = true := by
  have enough : (getPeg s k).target ≤ min ((getPeg s k).count + (if v = 0 then 1 else v)) 0xFFFFFFFF := by
    split <;> omega
  have counted (q : Prop) [Decidable q] (p : Peg) : getPeg (if q then setErr (putPeg s k p) (pegPg k) 1 else putPeg s k p) k = p := by
    split
    · rw [getPeg_of_besideTraffic (besideTraffic_setErr ..), getPeg_putPeg_same]
    · exact getPeg_putPeg_same ..
  rw [pegOpOn_applies mine, applyPeg, if_neg (by rw [open_]; exact Bool.false_ne_true)]
  refine settlePeg_reached ?_
  rw [counted]
  exact enough

end

/-! Where no context is a shadow, none is taken over (R218, R330). -/

theorem takeovers_none {s : State} (quiet : noShadows s) : takeovers s = s := by
  rw [takeovers, List.filter_eq_nil_iff.mpr]
  · rfl
  · intro e mem
    rw [quiet e mem]
    exact Bool.false_ne_true

/-! What an attempt's timeout decides (R208, R217). -/

section
variable {s : State} {n : Nat} {p : Plan} {a : Attempt}

/-- A party that found no cause, lost no other and was told nothing decides on its timeout: REPEATED (R217). -/
theorem decisionCauses_timeout (journal : (getCtx s n).journal = true) (timedOut : a.timedOut = true) (causes : a.causes = []) (told : a.told = [])
    (lost : a.lostParties = []) : decisionCauses s (getCtx s n) a = [⟨2, cTimeout, deviceId s⟩] := by
  simp [decisionCauses, causes, told, lost, timedOut, effective, pastReturn, journal]

theorem closingCause_timeout (journal : (getCtx s n).journal = true) (timedOut : a.timedOut = true) (causes : a.causes = []) (told : a.told = [])
    (lost : a.lostParties = []) :
    closingCause s (getCtx s n) a = if a.limits.repeatMax ≤ a.repeats then ⟨3, cRepeatLimit, deviceId s⟩ else ⟨2, cTimeout, deviceId s⟩ := by
  have wins : winningCause s (getCtx s n) a = ⟨2, cTimeout, deviceId s⟩ := by
    rw [winningCause, decisionCauses_timeout journal timedOut causes told lost]
    rfl
  rw [closingCause, wins]
  simp only [true_and]

/-- The own COMMIT peg closed, the decision begun (R217). -/
def decisionBegun (s : State) (n : Nat) : State :=
  modAttempt (match commitKey (getCtx s n) 0 with
    | some k => closePeg s k
    | none => s) n (fun a => { a with deciding := true })

theorem getCtx_decisionBegun (s : State) (n : Nat) :
    getCtx (decisionBegun s n) n = { getCtx s n with attempt := (getCtx s n).attempt.map (fun a => { a with deciding := true }) } := by
  unfold decisionBegun
  rw [getCtx_modAttempt]
  split <;> rfl

theorem noShadows_decisionBegun (quiet : noShadows s) (n : Nat) : noShadows (decisionBegun s n) := by
  unfold decisionBegun
  split <;> exact noShadows_putCtx quiet n (quiet.held n)

/-- An own COMMIT peg that is short of its target is read so once it is closed (R217). -/
theorem ownInstance_short
    (short : ∀ k, commitKey (getCtx s n) 0 = some k → (getPeg s k).reached = false ∧ (getPeg s k).count < (getPeg s k).target) :
    (ownInstance (decisionBegun s n) (getCtx (decisionBegun s n) n)).1 < (ownInstance (decisionBegun s n) (getCtx (decisionBegun s n) n)).2 := by
  have key : commitKey (getCtx (decisionBegun s n) n) 0 = commitKey (getCtx s n) 0 := by rw [getCtx_decisionBegun]; rfl
  rw [ownInstance, key]
  rcases own : commitKey (getCtx s n) 0 with _ | k
  · exact Nat.zero_lt_one
  · obtain ⟨notReached, below⟩ := short k own
    have closed : getPeg (decisionBegun s n) k = { getPeg s k with closed := true } := by
      unfold decisionBegun
      rw [own]
      exact getPeg_putPeg_same ..
    dsimp only
    rw [closed]
    simpa only [notReached, Bool.false_eq_true, if_false] using below

/-- A party alone whose own COMMIT peg is short of its target decides an end (R217). -/
theorem beginDecision_alone (bound : (getCtx s n).plan = some p) (running : (getCtx s n).attempt = some a) (fresh : a.deciding = false)
    (undecided : a.outcome = none) (asked : a.asked = []) (answers : a.answers = []) (alone : instances s (getCtx s n) p a = [])
    (short : ∀ k, commitKey (getCtx s n) 0 = some k → (getPeg s k).reached = false ∧ (getPeg s k).count < (getPeg s k).target) :
    beginDecision s n = decideEnd (decisionBegun s n) n := by
  have begun : (getCtx (decisionBegun s n) n).attempt = some { a with deciding := true } := by rw [getCtx_decisionBegun, running]; rfl
  have finishes : finishDecision (decisionBegun s n) n = decideEnd (decisionBegun s n) n := by
    unfold finishDecision
    simp only [begun, undecided, asked, answers, Option.isSome_none, Bool.not_true, Bool.or_self, List.isEmpty_nil, Bool.false_eq_true, if_false,
      List.any_cons, List.any_nil, Bool.or_false, decide_eq_true_eq, if_neg (Nat.not_le.mpr (ownInstance_short short))]
  rw [← finishes]
  unfold beginDecision
  simp only [bound, running, fresh, undecided, alone, Option.isSome_none, Bool.or_self, Bool.false_eq_true, if_false, List.foldl_nil]
  rfl

theorem finishDecision_decided (running : (getCtx s n).attempt = some a) (decided : a.outcome.isSome = true) : finishDecision s n = s := by
  unfold finishDecision
  simp only [running, decided, Bool.or_true, Bool.true_or, if_true]

end

/-! CLOSE (R86, R206, R207). -/

/-- A context but for what CLOSE changes before it applies the outcome: gauges, backward treads, the attempt's log. -/
def besideClosing (c : Ctx) : Ctx := { c with gauges := [], closing := [], btread := [], bquiet := [], attempt := none }

section
variable {s : State} {n : Nat} {p : Plan} {a : Attempt}

theorem besideClosing_logEvent (s : State) (n e : Nat) : besideClosing (getCtx (logEvent s n e) n) = besideClosing (getCtx s n) := by
  rw [logEvent, getCtx_modAttempt]; rfl

theorem besideClosing_finishGauges (k : Nat) (s : State) (n : Nat) : besideClosing (getCtx (finishGauges k s n) n) = besideClosing (getCtx s n) :=
  (congrArg besideClosing (besideGauges_finishGauges k s n) :)

theorem besideClosing_closeLoss (s : State) (n : Nat) (p : Plan) (commit : Bool) (lower : Option Nat) :
    besideClosing (getCtx (closeLoss s n p commit lower) n) = besideClosing (getCtx s n) := by
  unfold closeLoss
  split
  · rfl
  · dsimp only
    split
    · rw [besideClosing_logEvent, getCtx_setErr, getCtx_putCtx]; rfl
    · split
      · rw [besideClosing_logEvent, getCtx_putCtx]; rfl
      · split
        · rw [besideClosing_logEvent, getCtx_putCtx]; rfl
        · rw [getCtx_putCtx]; rfl

theorem besideClosing_closeTreads (s : State) (n : Nat) (p : Plan) (a : Attempt) (outcome : Nat) :
    besideClosing (getCtx (closeTreads s n p a outcome) n) = besideClosing (getCtx s n) := by
  unfold closeTreads
  refine List.foldlRecOn (motive := fun t => besideClosing (getCtx t n) = besideClosing (getCtx s n)) _ _ rfl fun t same x _ => ?_
  rw [← same]
  dsimp only
  split
  · split
    · rw [besideClosing_logEvent, getCtx_putCtx]; rfl
    · rfl
  · split
    · split
      · split
        · rw [besideClosing_logEvent, getCtx_putCtx]; rfl
        · rw [getCtx_putCtx]; rfl
      · rw [getCtx_putCtx]; rfl
    · rfl

/-- A context after CLOSE, from what its gauges and treads left: its outcome applied; a settle round that failed suspends it (R207, R238). -/
def closedCtx (c : Ctx) (a : Attempt) (outcome : Nat) (failed : Bool) : Ctx :=
  let d := computeScalars (emptyStack (afterOutcome c a outcome))
  if failed then { d with suspended := true } else d

theorem getCtx_closeNow (bound : (getCtx s n).plan = some p) (running : (getCtx s n).attempt = some a) (ok : Bool) :
    ∃ c x, besideClosing c = besideClosing (getCtx s n) ∧ getCtx (closeNow s n ok) n =
      closedCtx c x (a.outcome.getD 2) (decide (a.outcome.getD 2 ≠ 0 ∧ (!(peersOf s (getCtx s n) p).isEmpty) = true) && !ok) := by
  have put (t : State) (c : Ctx) (q : Prop) [Decidable q] : getCtx (if q then setErr (putCtx t n c) pgStep 1 else putCtx t n c) n = c := by
    split
    · rw [getCtx_setErr, getCtx_putCtx]
    · exact getCtx_putCtx ..
  have noted (t : State) (q : Prop) [Decidable q] : getCtx (if q then setErr t pgStair 3 else t) n = getCtx t n := by
    split
    · exact getCtx_setErr ..
    · rfl
  unfold closeNow
  simp only [bound, running]
  rw [put, noted]
  refine ⟨_, _, ?_, rfl⟩
  rw [besideClosing_closeTreads, besideClosing_closeLoss, getCtx_putCtx]
  exact besideClosing_finishGauges ..

/-- An outcome leaves no attempt; only a repeat keeps its batch; ABANDONED suspends (R207, R209). -/
theorem afterOutcome_ends (c : Ctx) (a : Attempt) (outcome : Nat) :
    (afterOutcome c a outcome).attempt = none ∧ (afterOutcome c a outcome).lastOutcome = outcome ∧
    (afterOutcome c a outcome).batch = (if outcome = 2 then c.batch else none) ∧
    (outcome = 2 → (afterOutcome c a outcome).repeatPending = true ∧ (afterOutcome c a outcome).repeats = c.repeats + 1) ∧
    (3 ≤ outcome → (afterOutcome c a outcome).suspended = true) := by
  match outcome with
  | 0 | 1 => exact ⟨rfl, rfl, rfl, nofun, nofun⟩
  | 2 => exact ⟨rfl, rfl, rfl, fun _ => ⟨rfl, rfl⟩, fun h => absurd h (by decide)⟩
  | k + 3 => exact ⟨rfl, rfl, (if_neg (by omega)).symm, fun h => absurd h (by omega), fun _ => rfl⟩

theorem computeScalars_only (c : Ctx) : computeScalars c = { c with scalars := (computeScalars c).scalars } := by
  unfold computeScalars
  split <;> rfl

/-- So it stands after CLOSE; a settle round that failed suspends too (R238). -/
theorem closedCtx_ends (c : Ctx) (a : Attempt) (outcome : Nat) (failed : Bool) :
    (closedCtx c a outcome failed).attempt = none ∧ (closedCtx c a outcome failed).lastOutcome = outcome ∧
    (closedCtx c a outcome failed).batch = (if outcome = 2 then c.batch else none) ∧
    (outcome = 2 → (closedCtx c a outcome failed).repeatPending = true ∧ (closedCtx c a outcome failed).repeats = c.repeats + 1) ∧
    (3 ≤ outcome → (closedCtx c a outcome failed).suspended = true) ∧ (failed = true → (closedCtx c a outcome failed).suspended = true) := by
  obtain ⟨attempt, last, batch, repeats, suspends⟩ := afterOutcome_ends c a outcome
  unfold closedCtx
  rw [computeScalars_only]
  cases failed with
  | false => exact ⟨attempt, last, batch, repeats, suspends, nofun⟩
  | true => exact ⟨attempt, last, batch, repeats, fun _ => rfl, fun _ => rfl⟩

/-- CLOSE ends the attempt with its outcome (R207, R209). -/
theorem closeNow_ends (bound : (getCtx s n).plan = some p) (running : (getCtx s n).attempt = some a) (ok : Bool) {u : State}
    (closes : u = closeNow s n ok) :
    (getCtx u n).attempt = none ∧ (getCtx u n).lastOutcome = a.outcome.getD 2 ∧
    (getCtx u n).batch = (if a.outcome.getD 2 = 2 then (getCtx s n).batch else none) ∧
    (a.outcome.getD 2 = 2 → (getCtx u n).repeatPending = true ∧ (getCtx u n).repeats = (getCtx s n).repeats + 1) ∧
    (3 ≤ a.outcome.getD 2 → (getCtx u n).suspended = true) ∧
    (a.outcome.getD 2 ≠ 0 → peersOf s (getCtx s n) p ≠ [] → ok = false → (getCtx u n).suspended = true) := by
  obtain ⟨c, x, same, after⟩ := getCtx_closeNow bound running ok
  obtain ⟨attempt, last, batch, repeats, suspends, fails⟩ := closedCtx_ends c x (a.outcome.getD 2)
    (decide (a.outcome.getD 2 ≠ 0 ∧ (!(peersOf s (getCtx s n) p).isEmpty) = true) && !ok)
  have sameBatch : c.batch = (getCtx s n).batch := (congrArg Ctx.batch same :)
  have sameRepeats : c.repeats = (getCtx s n).repeats := (congrArg Ctx.repeats same :)
  rw [closes, after]
  refine ⟨attempt, last, sameBatch ▸ batch, sameRepeats ▸ repeats, suspends, fun notCommitted peers failed => fails ?_⟩
  rw [failed, Bool.not_false, Bool.and_true, decide_eq_true_eq, Bool.not_eq_true', List.isEmpty_eq_false_iff]
  exact ⟨notCommitted, peers⟩

end

/-! The settle round (R238; log entry 170). -/

section
variable {s : State} {n : Nat} {p : Plan} {a : Attempt} {rs : List (List Nat)} {r i : Nat}

theorem getCtx_sendSettle (s : State) (n d m : Nat) : getCtx (sendSettle s n d) m = getCtx s m := by
  unfold sendSettle
  split
  · exact getCtx_sendNear ..
  · rfl

/-- A ring that is not through waits. -/
theorem settleClimb_waits (running : (getCtx s n).attempt = some a) (more : a.settleHop + 1 < (rs.getD r []).length) :
    settleClimb s n rs r i = s := by
  unfold settleClimb
  simp only [running, decide_eq_true more, Bool.true_or, if_true]

/-- The only ring, once it is through, completes the round. -/
theorem settleClimb_single (running : (getCtx s n).attempt = some a) (through : (rs.getD r []).length = a.settleHop + 1) (notUp : a.settleUp = false)
    (notDone : a.settleDone = false) (single : rs.length = 1) :
    settleClimb s n rs r i = modAttempt s n (fun a => { a with settleDone := true }) := by
  unfold settleClimb
  simp only [running, through, Nat.lt_irrefl, decide_false, notUp, notDone, Bool.or_self, Bool.false_eq_true, if_false, if_pos single]

/-- The attempt in which the round begins: its own values, nothing taken yet. -/
def settleBegun (p : Plan) (a : Attempt) : Attempt :=
  { a with settling := true, settleIn := [], settleLower := a.settleLower || (settleOwn p a).1,
           settleRaises := (a.settleRaises ++ (settleOwn p a).2).eraseDups }

/-- The round begun, before the first message is sent. -/
def settleOpened (s : State) (n : Nat) (p : Plan) (a : Attempt) : State :=
  modAttempt s n (fun b => { b with
    settling := true, settleLower := b.settleLower || (settleOwn p a).1, settleRaises := (b.settleRaises ++ (settleOwn p a).2).eraseDups,
    settleIn := [] })

/-- A round begins with its own message; nothing has come yet that would take it further. -/
theorem startSettle_attempt (bound : (getCtx s n).plan = some p) (running : (getCtx s n).attempt = some a) (quiet : a.settleIn = [])
    (first : a.settleHop = 0) (place : settlePlace s (roundRings s (getCtx s n) p) = some (r, i))
    (ring : 1 < ((roundRings s (getCtx s n) p).getD r []).length) : (getCtx (startSettle s n) n).attempt = some (settleBegun p a) := by
  have begun : (getCtx (sendSettle (settleOpened s n p a) n (settleNext ((roundRings s (getCtx s n) p).getD r []) i)) n).attempt =
      some (settleBegun p a) := by
    rw [getCtx_sendSettle, settleOpened, getCtx_modAttempt, running]
    rfl
  have waits := settleClimb_waits (rs := roundRings s (getCtx s n) p) (r := r) (i := i) begun (by rw [settleBegun, first]; exact ring)
  unfold settleOpened at begun waits
  unfold startSettle
  simp only [bound, running, place, if_pos ring, quiet, List.foldl_nil, waits]
  exact begun

/-- A message of the device before: its values joined, one more hop (R238). -/
def settleHopped (s : State) (n : Nat) (x : Nat × Bool × List Nat) : State :=
  modAttempt (modAttempt s n (fun a => { a with settleLower := a.settleLower || x.2.1, settleRaises := (a.settleRaises ++ x.2.2).eraseDups })) n
    (fun a => { a with settleHop := a.settleHop + 1 })

/-- The attempt after such a message. -/
def hoppedAttempt (a : Attempt) (x : Nat × Bool × List Nat) : Attempt :=
  { a with settleHop := a.settleHop + 1, settleLower := a.settleLower || x.2.1, settleRaises := (a.settleRaises ++ x.2.2).eraseDups }

theorem attempt_settleHopped (running : (getCtx s n).attempt = some a) (x : Nat × Bool × List Nat) :
    (getCtx (settleHopped s n x) n).attempt = some (hoppedAttempt a x) := by
  rw [settleHopped, getCtx_modAttempt, getCtx_modAttempt, running]
  rfl

theorem settleTake_hop (running : (getCtx s n).attempt = some a) {x : Nat × Bool × List Nat} (before : x.1 = settlePrev (rs.getD r []) i)
    (more : a.settleHop + 1 < (rs.getD r []).length) :
    settleTake s n rs r i x = settleClimb (if a.settleHop + 2 < (rs.getD r []).length then
      sendSettle (settleHopped s n x) n (settleNext (rs.getD r []) i) else settleHopped s n x) n rs r i := by
  unfold settleTake
  simp only [running, if_pos (And.intro before more)]
  rfl

/-- A message on its way round goes on; the round is not through (R238). -/
theorem settleTake_goesOn (running : (getCtx s n).attempt = some a) {x : Nat × Bool × List Nat} (before : x.1 = settlePrev (rs.getD r []) i)
    (more : a.settleHop + 2 < (rs.getD r []).length) : (getCtx (settleTake s n rs r i x) n).attempt = some (hoppedAttempt a x) := by
  have sent : (getCtx (sendSettle (settleHopped s n x) n (settleNext (rs.getD r []) i)) n).attempt = some (hoppedAttempt a x) := by
    rw [getCtx_sendSettle, attempt_settleHopped running]
  rw [settleTake_hop running before (by omega), if_pos more, settleClimb_waits sent more]
  exact sent

/-- The last message of a single ring completes the round (R238). -/
theorem settleTake_completes (running : (getCtx s n).attempt = some a) {x : Nat × Bool × List Nat} (before : x.1 = settlePrev (rs.getD r []) i)
    (last : a.settleHop + 2 = (rs.getD r []).length) (notUp : a.settleUp = false) (notDone : a.settleDone = false) (single : rs.length = 1) :
    getCtx (settleTake s n rs r i x) n = { getCtx s n with attempt := some { hoppedAttempt a x with settleDone := true } } := by
  rw [settleTake_hop running before (by omega), if_neg (by omega),
    settleClimb_single (attempt_settleHopped running x) (by rw [← last]; rfl) notUp notDone single, getCtx_modAttempt, settleHopped, getCtx_modAttempt,
    getCtx_modAttempt, running]
  rfl

end

/-! The admission of an attempt (R158, R206, R214, R450). -/

section
variable {s : State} {n : Nat} {p : Plan}

theorem getCtx_resetCtxPegs (s : State) (n target m : Nat) : getCtx (resetCtxPegs s n target) m = getCtx s m := by
  have reset (t : State) (k v : Nat) : getCtx (resetPeg t k v) m = getCtx t m := rfl
  unfold resetCtxPegs
  dsimp only
  split
  · rfl
  · refine List.foldlRecOn (motive := fun t => getCtx t m = getCtx s m) _ _ ?_ fun t same e _ => (reset ..).trans same
    exact List.foldlRecOn (motive := fun t => getCtx t m = getCtx s m) _ _ rfl fun t same e _ => (reset ..).trans same

theorem getCtx_resetTwinPegs (s : State) (n target m : Nat) : getCtx (resetTwinPegs s n target) m = getCtx s m := by
  unfold resetTwinPegs
  split
  · rfl
  · rw [getCtx_sendPegOp, getCtx_of_besideTraffic (besideTraffic_foldl (fun t i => besideTraffic_sendPegOp ..) _ _)]

/-- A context's attempt runs under a step, a number, a count of repeats and a batch. -/
def Admitted (n : Nat) (x : Nat × Nat × Nat × Nat × Nat) (s : State) : Prop :=
  ∃ a, (getCtx s n).attempt = some a ∧ (a.step, a.number, a.repeats, a.batchOff, a.batchLen) = x

theorem Admitted.startLayers {x : Nat × Nat × Nat × Nat × Nat} (h : Admitted n x s) (l : List Nat) :
    Admitted n x (l.foldl (fun s q => startLayer s n 0 0 q) s) :=
  List.foldlRecOn (motive := Admitted n x) l _ h fun t ⟨a, running, fields⟩ q _ => by
    obtain ⟨saved, phase, after⟩ := attempt_startLayer t n 0 0 q a running
    exact ⟨_, after, fields⟩

/-- An attempt begins at the context's step, under its number and count of repeats, on its batch (R206, R207). -/
theorem startAttempt_admitted (bound : (getCtx s n).plan = some p) (off len : Nat) (split halfOff : Bool) :
    Admitted n ((getCtx s n).step, (getCtx s n).attemptNo, (getCtx s n).repeats, off, len) (startAttempt s n off len split halfOff) := by
  have pegsReset (t : State) (q : Prop) [Decidable q] (target : Nat) :
      getCtx (if q then resetTwinPegs (resetCtxPegs t n target) n target else resetCtxPegs t n target) n = getCtx t n := by
    split
    · rw [getCtx_resetTwinPegs, getCtx_resetCtxPegs]
    · exact getCtx_resetCtxPegs ..
  unfold startAttempt
  simp only [bound]
  refine Admitted.startLayers ?_ _
  unfold Admitted
  rw [(holdNotices_reportsOnly ..).attempt, getCtx_of_besideTraffic (besideTraffic_foldl (fun t d => besideTraffic_sendNear ..) _ _),
    pegsReset, getCtx_putCtx]
  exact ⟨_, rfl, rfl⟩

/-- The checks of a repeat pass: it is pending, and nothing else of the context is under way (R207). -/
structure RepeatDue (s : State) (n : Nat) (b : Nat × Nat) : Prop where
  batch : (getCtx s n).batch = some b
  pending : (getCtx s n).repeatPending = true
  notSuspended : (getCtx s n).suspended = false
  active : (getCtx s n).state = 2
  noAttempt : (getCtx s n).attempt = none
  noPass : (getCtx s n).evalRun = none
  notExporting : (getCtx s n).exporting = false
  noSwing : heldBySwing s n = false

theorem exec_repeatAdmit_go {b : Nat × Nat} (due : RepeatDue s n b) (ns : Nat) {split halfOff : Bool} (passes : admitCheck s n b.2 = .go split halfOff) :
    exec (.repeatAdmit n ns) s = .next (recoveryEnds (startAttempt s n b.1 b.2 split halfOff) n ns) := by
  change execRepeatAdmit n ns s = _
  simp [execRepeatAdmit, due.batch, due.pending, due.notSuspended, due.active, due.noAttempt, due.noPass, due.notExporting, due.noSwing, passes]

theorem exec_repeatAdmit_refused {b : Nat × Nat} (due : RepeatDue s n b) (ns : Nat) {st h x : Nat} (fails : admitCheck s n b.2 = .refused st h x) :
    exec (.repeatAdmit n ns) s = .next (repeatRefused s n h st) := by
  change execRepeatAdmit n ns s = _
  simp [execRepeatAdmit, due.batch, due.pending, due.notSuspended, due.active, due.noAttempt, due.noPass, due.notExporting, due.noSwing, fails]

/-- A repeat that is refused keeps its batch and suspends the context (R207; log entry 104). -/
theorem getCtx_repeatRefused (s : State) (n h st : Nat) : getCtx (repeatRefused s n h st) n = { getCtx s n with suspended := true } := by
  unfold repeatRefused
  rw [getCtx_recoveryEnds, getCtx_modCtx]
  split
  · rw [getCtx_setErr]
  · rfl

end

end Sys2Proof.Machine
end

section
/-! O53: how an attempt is decided, closed, settled and repeated (R86, R206-R209, R214-R217, R238, R450; log entries 19, 86 and 104). -/

namespace Sys2Proof.Machine

/-! ADMISSION_NOTICE (R450; log entries 86 and 173). -/

section
variable {s : State} {n src step number : Nat} {twin : Option Nat} {active : Bool} {p : Plan}

/-- The state in which a notice is kept for an attempt to come. -/
def noticeKept (s : State) (n src step number : Nat) (twin : Option Nat) (active : Bool) : State :=
  putCtx s n { getCtx s n with earlyNotices := (getCtx s n).earlyNotices ++ [(src, step, number, ⟨twin, active⟩)] }

theorem exec_admissionNotice_early (bound : (getCtx s n).plan = some p) (peer : src ∈ peersOf s (getCtx s n) p) (idle : (getCtx s n).attempt = none) :
    exec (.admissionNotice src n step number twin active) s = .next (
      if standsIn s (getCtx s n) = true ∧ step = (getCtx s n).step ∧ (getCtx s n).attemptNo < number then
        awaitRepeat (noticeKept s n src step number twin active) n number
      else noticeKept s n src step number twin active) := by
  change execAdmissionNotice src n step number twin active s = _
  simp [execAdmissionNotice, bound, peer, idle, noticeKept, and_assoc]

/-- A context that awaits a repeat holds the notice that told of it. -/
theorem awaitRepeat_holds (s : State) (n number : Nat) (before : (getCtx s n).attemptNo < number) :
    (getCtx (awaitRepeat s n number) n).repeatPending = true ∧ (getCtx (awaitRepeat s n number) n).attemptNo = number ∧
      (getCtx (awaitRepeat s n number) n).earlyNotices = (getCtx s n).earlyNotices := by
  have later : max (getCtx s n).attemptNo number = number := Nat.max_eq_right (Nat.le_of_lt before)
  unfold awaitRepeat
  dsimp only
  split
  · rw [getCtx_putCtx]
    exact ⟨rfl, later, rfl⟩
  · rw [getCtx_modCtx, getCtx_freeNext, getCtx_putCtx]
    exact ⟨rfl, later, rfl⟩

theorem exec_admissionNotice_awaited {a : Attempt} (bound : (getCtx s n).plan = some p) (peer : src ∈ peersOf s (getCtx s n) p)
    (running : (getCtx s n).attempt = some a) (ofStep : a.step = step) (ofNumber : a.number = number) (undecided : a.outcome = none) :
    exec (.admissionNotice src n step number twin active) s = .next (progress (holdNotices
      (modAttempt s n (fun a => { a with notices := a.notices.insert src ⟨twin, active⟩ })) n) n) := by
  change execAdmissionNotice src n step number twin active s = _
  simp [execAdmissionNotice, bound, peer, running, ofStep, ofNumber, undecided]

end

/-! The commit point and the decision (R209, R216, R217, R383). -/

section
variable {s : State} {p : Plan} {a : Attempt}

/-- An arrive on the COMMIT peg from a device that may operate on it is applied and answered. -/
theorem exec_remoteArrive (m : PegMsg) {k : Nat} (may : mayOperate s m.ctx m.src = true) (arrive : m.op = 0) (silent : m.cause = 0)
    (peg : m.peg = commitPlanPeg 0) (own : commitKey (getCtx s m.ctx) 0 = some k) :
    ∃ r, exec (.remotePegOp m) s = .next (takeovers (commitWatch r m.ctx)) ∧
      besideTraffic r = besideTraffic (pegOpOn s k m.tag .arrive m.value { ctx := m.ctx, device := some m.src, ref := m.ref }).s := by
  have key : pegKeyOf (getCtx s m.ctx) m.peg = some k := by rw [peg]; exact own
  have op : PegOp.ofCode m.op = some .arrive := by rw [arrive]; rfl
  refine ⟨ackPeg (pegOpOn s k m.tag .arrive m.value { ctx := m.ctx, device := some m.src, ref := m.ref }).s m
    (pegOpOn s k m.tag .arrive m.value { ctx := m.ctx, device := some m.src, ref := m.ref }).status 0 0, ?_, besideTraffic_sendRouted ..⟩
  change execRemotePegOp m s = _
  simp [execRemotePegOp, remotePegOp, silent, may, key, op]

theorem commitWatch_reached {n k : Nat} (running : (getCtx s n).attempt = some a) (undecided : a.outcome = none)
    (own : commitKey (getCtx s n) 0 = some k) (reached : (getPeg s k).reached = true) : commitWatch s n = commitPoint s n := by
  unfold commitWatch
  simp only [running, undecided, own, reached, Option.isSome_none, Bool.false_eq_true, if_false, if_true]

theorem commitWatch_timedOut {n : Nat} (running : (getCtx s n).attempt = some a) (undecided : a.outcome = none) (timedOut : a.timedOut = true)
    (short : ∀ k, commitKey (getCtx s n) 0 = some k → (getPeg s k).reached = false) :
    commitWatch s n = finishDecision (beginDecision s n) n := by
  unfold commitWatch
  rcases own : commitKey (getCtx s n) 0 with _ | k
  · simp [running, undecided, timedOut, own]
  · simp [running, undecided, timedOut, own, short k own]

/-- The own arrive that reaches the COMMIT peg is the commit point (R216). -/
theorem arrive_commits (m : PegMsg) {k : Nat} (quiet : noShadows s) (bound : (getCtx s m.ctx).plan = some p)
    (running : (getCtx s m.ctx).attempt = some a) (undecided : a.outcome = none) (may : mayOperate s m.ctx m.src = true) (arrive : m.op = 0)
    (silent : m.cause = 0) (peg : m.peg = commitPlanPeg 0) (own : commitKey (getCtx s m.ctx) 0 = some k) (mine : pegStatus s k m.tag = 0)
    (open_ : (getPeg s k).closed = false) (atTarget : (getPeg s k).target ≤ (getPeg s k).count + 1) (small : (getPeg s k).target < 2 ^ 32) :
    ∃ r, ReportsOnly s r ∧ exec (.remotePegOp m) s = .next (commitPoint r m.ctx) := by
  obtain ⟨r, runs, sent⟩ := exec_remoteArrive m may arrive silent peg own
  have waits : ReportsOnly s r := (pegOpOn_reportsOnly ..).trans (.of_besideTraffic sent)
  have own' : commitKey (getCtx r m.ctx) 0 = some k := by rw [commitKey, waits.commitPegs]; exact own
  have running' := (waits.attempt m.ctx).trans running
  have reached : (getPeg r k).reached = true := by
    rw [getPeg_of_besideTraffic sent]
    exact arrive_reached mine open_ atTarget small _ _
  refine ⟨r, waits, ?_⟩
  rw [runs, commitWatch_reached running' undecided own' reached,
    takeovers_none (noShadows_commitPoint (waits.shadows quiet) ((waits.plan m.ctx).trans bound) running')]

/-- An attempt whose timeout has come (R217). -/
def timeoutNoted (s : State) (n : Nat) : State := modAttempt s n (fun a => { a with timedOut := true })

theorem exec_commitTimeout {n : Nat} (running : (getCtx s n).attempt = some a) (undecided : a.outcome = none)
    (mayTime : a.vote.isSome = true ∨ a.ready = true) :
    exec (.commitTimeout n) s = .next (takeovers (commitWatch (timeoutNoted s n) n)) := by
  change execCommitTimeout n s = _
  rcases mayTime with voted | ready
  · simp [execCommitTimeout, running, undecided, voted, timeoutNoted]
  · simp [execCommitTimeout, running, undecided, ready, timeoutNoted]

/-- A party alone, that found no cause and whose COMMIT peg is short of its target, as COMMIT_TIMEOUT finds it (R217). -/
structure AloneUndecided (s : State) (n : Nat) (p : Plan) (a : Attempt) : Prop where
  bound : (getCtx s n).plan = some p
  running : (getCtx s n).attempt = some a
  undecided : a.outcome = none
  fresh : a.deciding = false
  asked : a.asked = []
  answers : a.answers = []
  causes : a.causes = []
  told : a.told = []
  lost : a.lostParties = []
  alone : instances s (getCtx s n) p a = []
  journal : (getCtx s n).journal = true
  short : ∀ k, commitKey (getCtx s n) 0 = some k → (getPeg s k).reached = false ∧ (getPeg s k).count < (getPeg s k).target

theorem getCtx_timeoutNoted {n : Nat} (running : (getCtx s n).attempt = some a) :
    getCtx (timeoutNoted s n) n = { getCtx s n with attempt := some { a with timedOut := true } } := by
  rw [timeoutNoted, getCtx_modAttempt, running]
  rfl

theorem AloneUndecided.timedOut {n : Nat} (h : AloneUndecided s n p a) : AloneUndecided (timeoutNoted s n) n p { a with timedOut := true } where
  bound := by rw [getCtx_timeoutNoted h.running]; exact h.bound
  running := by rw [getCtx_timeoutNoted h.running]
  undecided := h.undecided
  fresh := h.fresh
  asked := h.asked
  answers := h.answers
  causes := h.causes
  told := h.told
  lost := h.lost
  alone := by rw [getCtx_timeoutNoted h.running]; exact h.alone
  journal := by rw [getCtx_timeoutNoted h.running]; exact h.journal
  short := by rw [getCtx_timeoutNoted h.running]; exact h.short

/-- Such a party decides on its timeout: its attempt ends with the timeout's cause, or with the repeat limit (R207, R208, R217). -/
theorem AloneUndecided.decides {n : Nat} (h : AloneUndecided s n p a) (quiet : noShadows s) (timedOut : a.timedOut = true) :
    ∃ b y, takeovers (commitWatch s n) = decideEnd (decisionBegun s n) n ∧ (getCtx (decideEnd (decisionBegun s n) n) n).attempt = some b ∧
      b.outcome = some y.outcome ∧ (getCtx (decideEnd (decisionBegun s n) n) n).lastCause = y.code ∧
      y = if a.limits.repeatMax ≤ a.repeats then ⟨3, cRepeatLimit, deviceId (decisionBegun s n)⟩
        else (⟨2, cTimeout, deviceId (decisionBegun s n)⟩ : Cause) := by
  have begun : (getCtx (decisionBegun s n) n).attempt = some { a with deciding := true } := by rw [getCtx_decisionBegun, h.running]; rfl
  have journal : (getCtx (decisionBegun s n) n).journal = true := by rw [getCtx_decisionBegun]; exact h.journal
  obtain ⟨b, after, outcome, -, cause, -, shadows⟩ := decideEnd_ends ((noShadows_decisionBegun quiet n).held n) begun
  refine ⟨b, _, ?_, after, outcome, cause, closingCause_timeout journal timedOut h.causes h.told h.lost⟩
  rw [commitWatch_timedOut h.running h.undecided timedOut fun k own => (h.short k own).1,
    beginDecision_alone h.bound h.running h.fresh h.undecided h.asked h.answers h.alone h.short,
    finishDecision_decided after (by rw [outcome]; rfl), takeovers_none (shadows (noShadows_decisionBegun quiet n))]

end

/-! The settle round and CLOSE (R86, R206, R238). -/

section
variable {s : State} {n : Nat} {p : Plan} {a : Attempt}

theorem exec_closePhase_closes {oc : Nat} (bound : (getCtx s n).plan = some p) (running : (getCtx s n).attempt = some a) (decided : a.outcome = some oc)
    (alone : oc = 0 ∨ peersOf s (getCtx s n) p = []) : exec (.closePhase n) s = .next (afterClose (closeNow s n true) n) := by
  have noRound : oc = 0 ∨ (peersOf s (getCtx s n) p).isEmpty = true := alone.imp_right List.isEmpty_iff.mpr
  change Host.Outcome.next (closed (closePhase s n) n) = _
  simp only [closePhase, bound, running, decided, if_pos noRound]
  rfl

theorem exec_closePhase_settles {oc : Nat} (bound : (getCtx s n).plan = some p) (running : (getCtx s n).attempt = some a) (decided : a.outcome = some oc)
    (notCommitted : oc ≠ 0) (peers : peersOf s (getCtx s n) p ≠ []) (fresh : a.settling = false) (goesOn : settled (startSettle s n) n = false) :
    exec (.closePhase n) s = .next (startSettle s n) := by
  have round : ¬ (oc = 0 ∨ (peersOf s (getCtx s n) p).isEmpty = true) := by simp [notCommitted, peers]
  change Host.Outcome.next (closed (closePhase s n) n) = _
  simp only [closePhase, bound, running, decided, if_neg round, fresh, goesOn, Bool.false_eq_true, if_false]
  rfl

theorem settled_false (running : (getCtx s n).attempt = some a) (open_ : a.settleDone = false) : settled s n = false := by
  unfold settled
  simp only [running, open_, Bool.and_false]

theorem settled_true (running : (getCtx s n).attempt = some a) (settling : a.settling = true) (done : a.settleDone = true) : settled s n = true := by
  unfold settled
  simp only [running, settling, done, Bool.and_self]

theorem exec_settleRound {src step : Nat} (lower : Bool) (raises : List Nat) (bound : (getCtx s n).plan = some p)
    (peer : src ∈ peersOf s (getCtx s n) p) :
    exec (.settleRound src n step lower raises) s = .next (closed (settleMsg s src n step lower raises) n) := by
  change execSettleRound src n step lower raises s = _
  simp [execSettleRound, bound, peer]

theorem settleMsg_kept {src step : Nat} (lower : Bool) (raises : List Nat) (bound : (getCtx s n).plan = some p) (running : (getCtx s n).attempt = some a)
    (ofStep : a.step = step) (notCommitted : a.outcome ≠ some 0) (before : a.settling = false) :
    settleMsg s src n step lower raises = (modAttempt s n (fun b => { b with settleIn := b.settleIn ++ [(src, lower, raises)] }), false) := by
  unfold settleMsg
  simp only [bound, running, ofStep, notCommitted, before, ne_eq, not_true_eq_false, or_self, if_false, Bool.not_false, if_true]

theorem settleMsg_taken {src step r i : Nat} (lower : Bool) (raises : List Nat) (bound : (getCtx s n).plan = some p)
    (running : (getCtx s n).attempt = some a) (ofStep : a.step = step) (notCommitted : a.outcome ≠ some 0) (settling : a.settling = true)
    (place : settlePlace s (roundRings s (getCtx s n) p) = some (r, i)) {t : State}
    (taken : settleTake s n (roundRings s (getCtx s n) p) r i (src, lower, raises) = t) :
    settleMsg s src n step lower raises = if settled t n then (closeNow t n true, true) else (t, false) := by
  unfold settleMsg
  simp only [bound, running, ofStep, notCommitted, settling, place, taken, ne_eq, not_true_eq_false, or_self, if_false, Bool.not_true,
    Bool.false_eq_true]

/-- The last message of a single ring closes the attempt with its outcome (R238). -/
theorem settleRound_completes {src step r i : Nat} (lower : Bool) (raises : List Nat) (bound : (getCtx s n).plan = some p)
    (running : (getCtx s n).attempt = some a) (ofStep : a.step = step) (notCommitted : a.outcome ≠ some 0) (settling : a.settling = true)
    (place : settlePlace s (roundRings s (getCtx s n) p) = some (r, i)) (sender : src = settlePrev ((roundRings s (getCtx s n) p).getD r []) i)
    (notDone : a.settleDone = false) (notUp : a.settleUp = false) (single : (roundRings s (getCtx s n) p).length = 1)
    (last : a.settleHop + 2 = ((roundRings s (getCtx s n) p).getD r []).length) :
    ∃ u, Host.Outcome.next (closed (settleMsg s src n step lower raises) n) = (.next (afterClose u n) : Host.Outcome State Fault Refusal) ∧
      (getCtx u n).attempt = none ∧ (getCtx u n).lastOutcome = a.outcome.getD 2 := by
  have completes := settleTake_completes (x := (src, lower, raises)) running sender last notUp notDone single
  have after : (getCtx (settleTake s n (roundRings s (getCtx s n) p) r i (src, lower, raises)) n).attempt =
      some { hoppedAttempt a (src, lower, raises) with settleDone := true } := by rw [completes]
  have bound' : (getCtx (settleTake s n (roundRings s (getCtx s n) p) r i (src, lower, raises)) n).plan = some p := by rw [completes]; exact bound
  obtain ⟨attempt, outcome, -⟩ := closeNow_ends bound' after true rfl
  refine ⟨_, ?_, attempt, outcome⟩
  rw [settleMsg_taken lower raises bound running ofStep notCommitted settling place rfl, if_pos (settled_true after settling rfl)]
  rfl

theorem exec_settleTimeout (running : (getCtx s n).attempt = some a) (settling : a.settling = true) :
    exec (.settleTimeout n) s = .next (afterClose (closeNow s n false) n) := by
  change execSettleTimeout n s = _
  simp [execSettleTimeout, running, settling, closed]

end

/-- Settles O53: a decision, an arrive or a message changes of its context what it says, and no more of the attempt than that. -/
theorem attemptsEnd : Obligations.AttemptsEnd := by
  unfold Obligations.AttemptsEnd
  refine ⟨?_, ?_, ?_, ?_, ?_, ?_, ?_⟩
  · intro src ctx step number twin active p s bound peer
    refine ⟨fun idle notAwaited => ?_, fun idle stands ofStep before => ?_, fun a running ofStep ofNumber undecided => ?_⟩
    · rw [exec_admissionNotice_early bound peer idle, if_neg notAwaited]
      rfl
    · have kept : getCtx (noticeKept s ctx src step number twin active) ctx =
          { getCtx s ctx with earlyNotices := (getCtx s ctx).earlyNotices ++ [(src, step, number, ⟨twin, active⟩)] } := getCtx_putCtx ..
      obtain ⟨pending, attemptNo, notices⟩ := awaitRepeat_holds (noticeKept s ctx src step number twin active) ctx number (by rw [kept]; exact before)
      rw [exec_admissionNotice_early bound peer idle, if_pos ⟨stands, ofStep, before⟩]
      exact ⟨_, rfl, pending, attemptNo, by rw [notices, kept]⟩
    · refine ⟨_, { a with notices := a.notices.insert src ⟨twin, active⟩ },
        exec_admissionNotice_awaited bound peer running ofStep ofNumber undecided, ?_, rfl⟩
      rw [(holdNotices_reportsOnly ..).attempt, getCtx_modAttempt, running]
      rfl
  · intro m k p a s quiet bound running undecided may arrive silent peg own mine open_ atTarget small
    obtain ⟨r, waits, runs⟩ := arrive_commits m quiet bound running undecided may arrive silent peg own mine open_ atTarget small
    obtain ⟨step, released, after, -⟩ := getCtx_commitPoint ((waits.shadows quiet).held m.ctx) ((waits.plan m.ctx).trans bound)
      ((waits.attempt m.ctx).trans running)
    have sameStep : (getCtx r m.ctx).step = (getCtx s m.ctx).step := (congrArg Ctx.step (waits.same m.ctx) :)
    have sameSlots : (getCtx r m.ctx).jslots = (getCtx s m.ctx).jslots := (congrArg Ctx.jslots (waits.same m.ctx) :)
    have sameRollback : (getCtx r m.ctx).rollback = (getCtx s m.ctx).rollback := (congrArg Ctx.rollback (waits.same m.ctx) :)
    exact ⟨_, _, runs, by rw [step, sameStep], by rw [released, sameSlots, sameRollback], after, rfl, rfl⟩
  · intro ctx p a s quiet bound running undecided mayTime fresh asked answers causes told lost alone journal short
    have finds : AloneUndecided s ctx p a := ⟨bound, running, undecided, fresh, asked, answers, causes, told, lost, alone, journal, short⟩
    obtain ⟨b, y, decides, after, outcome, cause, names⟩ := finds.timedOut.decides (noShadows_putCtx quiet ctx (quiet.held ctx)) rfl
    refine ⟨_, b, by rw [exec_commitTimeout running undecided mayTime, decides], after, ?_, ?_⟩
    · rw [outcome, names]
      dsimp only
      split <;> rfl
    · rw [cause, names]
      dsimp only
      split <;> rfl
  · intro ctx oc p a s bound running decided
    refine ⟨fun alone => ?_, fun r i notCommitted peers fresh quiet first notDone place ring => ?_⟩
    · obtain ⟨attempt, last, batch, repeats, suspends, -⟩ := closeNow_ends bound running true rfl
      rw [decided] at last batch repeats suspends
      exact ⟨_, exec_closePhase_closes bound running decided alone, attempt, last, batch, repeats, suspends⟩
    · have begun := startSettle_attempt bound running quiet first place ring
      exact ⟨_, exec_closePhase_settles bound running decided notCommitted peers fresh (settled_false begun notDone), begun⟩
  · intro src ctx step lower raises p a s bound running peer ofStep notCommitted
    rw [exec_settleRound lower raises bound peer]
    refine ⟨fun before => ?_, fun r i settling place sender => ⟨fun notDone more => ?_, fun notDone notUp single last => ?_⟩⟩
    · rw [settleMsg_kept lower raises bound running ofStep notCommitted before]
      rfl
    · have goesOn := settleTake_goesOn (x := (src, lower, raises)) running sender more
      rw [settleMsg_taken lower raises bound running ofStep notCommitted settling place rfl, settled_false goesOn notDone]
      exact ⟨_, rfl, goesOn⟩
    · exact settleRound_completes lower raises bound running ofStep notCommitted settling place sender notDone notUp single last
  · intro ctx p a s bound running settling notCommitted peers
    obtain ⟨attempt, -, -, -, -, fails⟩ := closeNow_ends bound running false rfl
    have outcome : a.outcome.getD 2 ≠ 0 := by
      rcases decided : a.outcome with _ | oc
      · decide
      · exact fun committed => notCommitted (by rw [decided]; exact congrArg some committed)
    exact ⟨_, exec_settleTimeout running settling, attempt, fails outcome peers rfl⟩
  · intro ctx ns b p s batch bound pending notSuspended active noAttempt noPass notExporting noSwing
    have due : RepeatDue s ctx b := ⟨batch, pending, notSuspended, active, noAttempt, noPass, notExporting, noSwing⟩
    refine ⟨fun split halfOff passes => ?_, fun st h x fails => ?_⟩
    · obtain ⟨a, running, fields⟩ := startAttempt_admitted bound b.1 b.2 split halfOff
      simp only [Prod.mk.injEq] at fields
      exact ⟨_, a, exec_repeatAdmit_go due ns passes, running, fields⟩
    · refine ⟨_, exec_repeatAdmit_refused due ns fails, ?_, ?_⟩
      · rw [getCtx_repeatRefused]
      · rw [getCtx_repeatRefused]
        exact batch

end Sys2Proof.Machine
end

section
/-! SUPPORT of O49. What the decision of an attempt leaves of the update engines: their ports, the mirror queue and what waits for it (R145,
R162, R209, R214-R217). -/

namespace Sys2Proof.Machine

theorem update_of_besideTraffic {s t : State} (h : besideTraffic t = besideTraffic s) : t.update = s.update := (congrArg State.update h :)

@[simp] theorem update_ite (p : Prop) [Decidable p] (s t : State) : (if p then s else t).update = if p then s.update else t.update :=
  apply_ite State.update p s t

/-- A fold leaves the update engines where each of its steps does. -/
theorem update_foldl {α : Type} {f : State → α → State} (keeps : ∀ s x, (f s x).update = s.update) (l : List α) (s : State) :
    (l.foldl f s).update = s.update := by
  induction l generalizing s with
  | nil => rfl
  | cons x l ih => rw [List.foldl_cons, ih, keeps]

@[simp] theorem update_setErr (s : State) (p : Page) (i : Nat) : (setErr s p i).update = s.update := update_of_besideTraffic (besideTraffic_setErr ..)

@[simp] theorem update_sendPegOp (s : State) (n dev peg op value : Nat) (cause : Cause) (step : Nat) :
    (sendPegOp s n dev peg op value cause step).update = s.update := update_of_besideTraffic (besideTraffic_sendPegOp ..)

@[simp] theorem update_modAttempt (s : State) (n : Nat) (f : Attempt → Attempt) : (modAttempt s n f).update = s.update := rfl

@[simp] theorem update_bumpWrap (s : State) (p : Page) (o n : Nat) : (bumpWrap s p o n).update = s.update :=
  update_of_besideTraffic (besideTraffic_bumpWrap ..)

@[simp] theorem update_stopWork (s : State) (n : Nat) : (stopWork s n).update = s.update := rfl

@[simp] theorem update_endWait (status : Nat) (s : State) (x : PegWait) : (endWait status s x).update = s.update := by
  unfold endWait
  split
  · exact update_of_besideTraffic (besideTraffic_sendRouted ..)
  · split <;> rfl

@[simp] theorem update_settlePeg (s : State) (k : Nat) : (settlePeg s k).update = s.update := by
  have ended (l : List PegWait) (t : State) : (updateGroup (l.foldl (endWait 0) t) k).update = t.update := update_foldl (update_endWait 0) l t
  unfold settlePeg
  dsimp only
  split
  · exact ended _ _
  · rfl

@[simp] theorem update_applyPeg (s : State) (k : Nat) (op : PegOp) (v : Nat) (x : PegWait) : (applyPeg s k op v x).s.update = s.update := by
  cases op with
  | arrive => dsimp only [applyPeg]; split <;> simp
  | wait => dsimp only [applyPeg]; split <;> simp
  | set | reset | query => simp [applyPeg]

@[simp] theorem update_pegOpOn (s : State) (k tag : Nat) (op : PegOp) (v : Nat) (x : PegWait) : (pegOpOn s k tag op v x).s.update = s.update := by
  simp only [pegOpOn, apply_ite PegAns.s, update_ite, update_setErr, update_applyPeg, ite_self]

@[simp] theorem update_arriveAll (s : State) (n i : Nat) (cause : Cause) : (arriveAll s n i cause).update = s.update := by
  unfold arriveAll
  dsimp only
  split
  · rw [update_foldl fun s d => update_sendPegOp .., update_modAttempt]
    split <;> simp
  · rfl

@[simp] theorem update_tryArrive (s : State) (n : Nat) : (tryArrive s n).update = s.update := by
  unfold tryArrive
  dsimp only
  split
  · split
    · rfl
    · split <;> simp
  · rfl

@[simp] theorem update_shadowCommit (s : State) (n : Nat) : (shadowCommit s n).update = s.update := by
  unfold shadowCommit
  dsimp only
  split <;> rfl

@[simp] theorem update_commitPoint (s : State) (n : Nat) : (commitPoint s n).update = s.update := by
  unfold commitPoint
  dsimp only
  split
  · simp
  · split <;> simp

@[simp] theorem update_decideEnd (s : State) (n : Nat) : (decideEnd s n).update = s.update := by
  unfold decideEnd
  dsimp only
  split
  · rfl
  · split <;> simp [shadowRevert]

@[simp] theorem update_finishDecision (s : State) (n : Nat) : (finishDecision s n).update = s.update := by
  unfold finishDecision
  dsimp only
  split
  · rfl
  · split
    · rfl
    · split <;> simp

@[simp] theorem update_beginDecision (s : State) (n : Nat) : (beginDecision s n).update = s.update := by
  unfold beginDecision
  dsimp only
  split
  · split
    · rfl
    · rw [update_finishDecision, update_foldl fun s d => ?_, update_modAttempt]
      · split <;> rfl
      · exact update_sendPegOp ..
  · rfl

@[simp] theorem update_commitWatch (s : State) (n : Nat) : (commitWatch s n).update = s.update := by
  unfold commitWatch
  dsimp only
  split <;> simp [shadowRevert]

/-- Ending an attempt leaves the update engines: what waits at their ports waits on (R145, R215). -/
@[simp] theorem update_endAttempt (s : State) (n code : Nat) : (endAttempt s n code).update = s.update := by
  unfold endAttempt addCause
  dsimp only
  split <;> simp [progress]

end Sys2Proof.Machine
end

section
/-! SUPPORT of O49. The traffic of the links leaves the registers of the halls (R342-R352, R427). -/

namespace Sys2Proof.Machine

theorem sameRegs.refl (p : Page) (s : State) : sameRegs p s s := fun _ _ => rfl

theorem sameRegs.of_regs {p : Page} {s t : State} (h : t.regs = s.regs) : sameRegs p s t := fun o _ => regGet_congr (congrArg RegBank.applied h) p o

section
variable {p : Page} (hall : 0x08000000 ≤ p.base)
include hall

theorem apart_pgLink {n : Nat} (real : n < 48) : apart p (pgLink n) := .inr (by
  simp only [pgLink]
  split <;> omega)

theorem sameRegs_launch (s : State) {n : Nat} (real : n < 48) (l : Link) (f : Flit) : sameRegs p s (launch s n l f) := by
  have sent (t : State) : sameRegs p t (bump64 t (pgLink n) Reg.LK_FLITS_LO 1) := .bump64 t 1 (apart_pgLink hall real) (by decide)
  exact fun o ho => sent (putLink s n _) o ho

theorem sameRegs_pump {n : Nat} (real : n < 48) (k : Nat) (s : State) : sameRegs p s (pump n k s) := by
  induction k generalizing s with
  | zero => exact .refl p s
  | succ k ih =>
    unfold pump
    dsimp only
    split
    · exact .refl p s
    · split
      · exact .refl p s
      · exact (sameRegs_launch hall s real _ _).trans (ih _)

theorem sameRegs_enqueueFlit (s : State) {n : Nat} (real : n < 48) (f : Flit) : sameRegs p s (enqueueFlit s n f) := by
  have overrun (t : State) : sameRegs p t (setErr t (pgLink n) 4) :=
    .setErr t 4 (apart_pgLink hall real) (hallPages_apart_port hall) (by decide : errOff 0x1A < 0x1000)
  have queued (l : Link) : sameRegs p s (putLink s n l) := .of_regs rfl
  unfold enqueueFlit
  dsimp only
  refine sameRegs.trans ?_ (sameRegs_pump hall real _ _)
  split
  · exact (queued _).trans (overrun _)
  · exact queued _

theorem sameRegs_sendOn (s : State) {link : Nat} (real : link < 48) (dst tc proto n : Nat) (dateline : Bool) (m : Msg) :
    sameRegs p s (sendOn s link dst tc proto n dateline m) := by
  have flits (l : List Flit) (t : State) : sameRegs p t (l.foldl (fun s f => enqueueFlit s link { f with vc := bnat dateline }) t) := by
    induction l generalizing t with
    | nil => exact .refl p t
    | cons f l ih => exact (sameRegs_enqueueFlit hall t real _).trans (ih _)
  unfold sendOn
  exact sameRegs.trans (.of_regs rfl) (flits _ _)

end

/-- A link of a trunk is one of the device's (R342, R351). -/
theorem trunkLinks_lt {s : State} {t n : Nat} (h : n ∈ trunkLinks s t) : n < 48 := List.mem_range.mp (List.mem_filter.mp h).1

theorem routeOf_lt {s : State} {src dst tc : Nat} {r : Nat × Bool} (h : routeOf s src dst tc = some r) : r.1 < 48 := by
  have member {i t : Nat} {b : Bool} (found : ((trunkLinks s t)[i]?).map (fun n => (n, b)) = some r) : r.1 < 48 := by
    obtain ⟨n, at_, rfl⟩ := Option.map_eq_some_iff.mp found
    exact trunkLinks_lt (List.mem_of_getElem? at_)
  unfold routeOf at h
  dsimp only at h
  split at h
  · cases h
  · split at h
    · exact member h
    · split at h
      · exact member h
      · cases h

theorem linkTo_lt {s : State} {dst n : Nat} {bundle : Bool} (h : linkTo s dst bundle = some n) : n < 48 :=
  List.mem_range.mp (List.mem_of_find?_eq_some h)

/-- A message to the twin leaves the registers of the halls. -/
theorem sameRegs_sendBundle {p : Page} (hall : 0x08000000 ≤ p.base) (s : State) (dst tc proto n : Nat) (m : Msg) :
    sameRegs p s (sendBundle s dst tc proto n m) := by
  have noRoute : sameRegs p s (setErr s pgRouter 0) :=
    .setErr s 0 (.inr (Nat.le_trans (by decide) hall)) (hallPages_apart_port hall) (by decide : errOff 0x1B < 0x1000)
  unfold sendBundle
  split
  · next found => exact sameRegs_sendOn hall s (linkTo_lt found) dst tc proto n false m
  · unfold sendRouted
    split
    · exact .refl p s
    · split
      · next route => exact sameRegs_sendOn hall s (routeOf_lt route) dst tc proto n _ m
      · exact noRoute

end Sys2Proof.Machine
end

section
/-! SUPPORT of O49. How an update engine takes a slice, computes it and writes it, and what becomes of the slice and of its journal slot (R121,
R145-R149, R156-R163). -/

namespace Sys2Proof.Machine

/-! The slices of an attempt and the journal slots of its context. -/

/-- The slices of a context's attempt, and its journal slots. -/
def slots (c : Ctx) : Option (SMap Slice) × SMap JSlot := (c.attempt.map (·.slices), c.jslots)

/-- The slices and the journal slots, each read on its own. -/
theorem slots_iff {c : Ctx} {m : SMap Slice} {j : SMap JSlot} :
    slots c = (some m, j) ↔ (∃ b, c.attempt = some b ∧ b.slices = m) ∧ c.jslots = j := by
  rw [slots, Prod.mk.injEq, Option.map_eq_some_iff]

theorem slots_modAttempt (s : State) (n : Nat) {f : Attempt → Attempt} (keeps : ∀ a, (f a).slices = a.slices) :
    slots (getCtx (modAttempt s n f) n) = slots (getCtx s n) := by
  rw [slots, getCtx_modAttempt, Option.map_map, show (fun a : Attempt => a.slices) ∘ f = (fun a => a.slices) from funext keeps]
  rfl

theorem slots_addBack (s : State) (n layer pos : Nat) (t : Tally) : slots (getCtx (addBack s n layer pos t) n) = slots (getCtx s n) :=
  slots_modAttempt s n fun _ => rfl

theorem slots_addApart (s : State) (n layer sat ovf : Nat) : slots (getCtx (addApart s n layer sat ovf) n) = slots (getCtx s n) :=
  slots_modAttempt s n fun _ => rfl

theorem slots_modSlice {s : State} {n key : Nat} {m : SMap Slice} {j : SMap JSlot} {x : Slice} (h : slots (getCtx s n) = (some m, j))
    (found : m.find key = some x) (f : Slice → Slice) : slots (getCtx (modSlice s n key f) n) = (some (m.insert key (f x)), j) := by
  obtain ⟨⟨b, running, rfl⟩, rfl⟩ := slots_iff.mp h
  rw [modSlice, slots, getCtx_modAttempt, running]
  simp only [Option.map_some, found]

/-! Writing a slice (R156-R163). -/

theorem slots_putSlice (c : Ctx) (p : Plan) (t : TensorRec) (ord : Nat) (codes : List (List Nat)) :
    slots (putSlice c p t ord codes).ctx = slots c := by
  have stored (l : List (TensorRec × List Nat)) (d : Ctx) :
      slots (l.foldl (fun (c : Ctx) r => c.putTensor r.1.tid (putCodesAt (c.open_ r.1.tid) (sliceIdx t ord) r.2)) d) = slots d := by
    induction l generalizing d with
    | nil => rfl
    | cons r l ih => rw [List.foldl_cons, ih]; rfl
  unfold putSlice
  dsimp only
  split
  · exact stored _ c
  · exact stored _ c

theorem slots_writeSlice (c : Ctx) (p : Plan) (t : TensorRec) (ord step : Nat) (news : List (List Nat)) :
    slots (writeSlice c p t ord step news).ctx = slots c := slots_putSlice ..

theorem slots_reportTrip (c : Ctx) (g : Nat) : slots (reportTrip c g) = slots c := by
  rw [slots, reportTrip, Option.map_map]
  rfl

@[simp] theorem update_sendBundle (s : State) (dst tc proto n : Nat) (m : Msg) : (sendBundle s dst tc proto n m).update = s.update :=
  update_of_besideTraffic (besideTraffic_sendBundle ..)

@[simp] theorem update_bump64 (s : State) (p : Page) (o n : Nat) : (bump64 s p o n).update = s.update :=
  update_of_besideTraffic (besideTraffic_bump64 ..)

/-- Sending a mirror record changes of the update engines no more than whether the mirror queue is full (R162). -/
theorem sendMirror_update (s : State) (m : MirrorRec) : ∃ full, (sendMirror s m).update = { s.update with full := full } := by
  unfold sendMirror
  split
  · exact ⟨s.update.full, rfl⟩
  · exact ⟨_, by dsimp only; rw [update_bump64, update_sendBundle]⟩

theorem sendMirror_ctxs (s : State) (m : MirrorRec) : (sendMirror s m).ctxs = s.ctxs := by
  unfold sendMirror
  split
  · rfl
  · dsimp only
    exact ctxs_of_besideTraffic ((besideTraffic_bump64 ..).trans (besideTraffic_sendBundle ..))

theorem queueMirror_ports (s : State) (h : Nat) (m : MirrorRec) : (queueMirror s h m).update.ports = s.update.ports := by
  unfold queueMirror
  dsimp only
  split
  · rfl
  · obtain ⟨full, only⟩ := sendMirror_update (modAttempt s m.ctx fun a => if a.twinParty then { a with mirrorLeft := a.mirrorLeft + 1 } else a) m
    rw [only]
    rfl

theorem slots_queueMirror (s : State) (h : Nat) (m : MirrorRec) : slots (getCtx (queueMirror s h m) m.ctx) = slots (getCtx s m.ctx) := by
  have counted : slots (getCtx (modAttempt s m.ctx fun a => if a.twinParty then { a with mirrorLeft := a.mirrorLeft + 1 } else a) m.ctx) =
      slots (getCtx s m.ctx) := slots_modAttempt s m.ctx fun a => by split <;> rfl
  unfold queueMirror
  dsimp only
  split
  · exact counted
  · rw [getCtx_congr (sendMirror_ctxs ..), counted]

section
variable {s : State} {n ord : Nat} {p : Plan} {t : TensorRec} {a : Attempt} {x : Slice}

/-- The engine writes a computed slice: it stands written, and its journal slot as it was (R147, R156-R163). -/
theorem finishSlice_writes (bound : (getCtx s n).plan = some p) (running : (getCtx s n).attempt = some a)
    (found : a.slices.find (sliceKey t.tid ord) = some x) :
    slots (getCtx (finishSlice s n t ord) n) = (some (a.slices.insert (sliceKey t.tid ord) { x with stage := 3 }), (getCtx s n).jslots) := by
  have before : slots (getCtx s n) = (some a.slices, (getCtx s n).jslots) := slots_iff.mpr ⟨⟨a, running, rfl⟩, rfl⟩
  have noted {c : Ctx} (same : slots c = slots (getCtx s n)) :
      slots (getCtx (modSlice (putCtx s n c) n (sliceKey t.tid ord) fun y => { y with stage := 3 }) n) =
      (some (a.slices.insert (sliceKey t.tid ord) { x with stage := 3 }), (getCtx s n).jslots) :=
    slots_modSlice (by rw [getCtx_putCtx, same, before]) found _
  unfold finishSlice
  simp only [bound, running, Option.bind_some, found]
  rw [apply_ite (fun u => slots (getCtx u n)), slots_queueMirror, ite_self, slots_modAttempt, getCtx_bump64, getCtx_bump64,
    getCtx_bumpWrap, slots_addBack, slots_addApart]
  · refine noted ?_
    split
    · split
      · exact (slots_reportTrip ..).trans (slots_writeSlice ..)
      · exact slots_writeSlice ..
    · exact slots_writeSlice ..
  · exact fun _ => rfl

theorem finishSlice_ports (s : State) (n : Nat) (t : TensorRec) (ord : Nat) : (finishSlice s n t ord).update.ports = s.update.ports := by
  unfold finishSlice
  dsimp only
  split
  · rw [apply_ite State.update, apply_ite UpdateSt.ports, queueMirror_ports, ite_self, update_modAttempt, update_bump64, update_bump64, update_bumpWrap]
    rfl
  · rfl

end

/-! An engine takes a slice (R121, R145-R149, R160). -/

theorem sliceKey_div {tid ord : Nat} (small : ord < 2 ^ 24) : sliceKey tid ord / 2 ^ 24 = tid := by unfold sliceKey; omega

theorem sliceKey_mod {tid ord : Nat} (small : ord < 2 ^ 24) : sliceKey tid ord % 2 ^ 24 = ord := by unfold sliceKey; omega

/-- With no CLOSE update under way no gauge is awaited (R108). -/
theorem awaitGauge_foldl_idle {s : State} {n : Nat} (idle : (getCtx s n).closing = []) (gs : List Nat) : gs.foldl (fun s g => awaitGauge s n g) s = s := by
  induction gs with
  | nil => rfl
  | cons g gs ih => rw [List.foldl_cons, show awaitGauge s n g = s by simp [awaitGauge, idle], ih]

/-- A slice refused for a NaN: discarded, counted and flagged; the rest of the attempt's slices are discarded too (R148). -/
def refusedSlice (s : State) (n key layer hall : Nat) : State :=
  modAttempt (discardRest (setErr (addBack (modSlice s n key (fun y => { y with stage := 4 })) n layer 0 { nan := 1 }) (pgUpdate hall) 0) n) n
    (fun a => { a with lower := a.lower.or (some 2) })

/-- A slice in the engine's buffer with its new values, its events counted (R149-R154). -/
def computedSlice (s : State) (n key layer hall : Nat) (k : SliceCalc) : State :=
  let s1 := modSlice s n key (fun y => { y with stage := 2, grad := k.grad, news := k.news })
  let s2 := addBack (addApart s1 n layer 0 k.ovf) n layer 0 { unf := k.unf }
  if k.ovf = 0 then s2 else setErr s2 (pgUpdate hall) 2

section
variable {s : State} {n key layer hall : Nat} {a : Attempt} {x : Slice}

theorem attempt_modSlice (running : (getCtx s n).attempt = some a) (found : a.slices.find key = some x) (f : Slice → Slice) :
    (getCtx (modSlice s n key f) n).attempt = some { a with slices := a.slices.insert key (f x) } := by
  rw [modSlice, getCtx_modAttempt, running]
  simp only [Option.map_some, found]

theorem refusedSlice_attempt (running : (getCtx s n).attempt = some a) (found : a.slices.find key = some x) :
    ∃ b, (getCtx (refusedSlice s n key layer hall) n).attempt = some b ∧ b.slices.find key = some { x with stage := 4 } ∧ b.discard = true ∧
      b.lower = a.lower.or (some 2) := by
  simp only [refusedSlice, discardRest, addBack, getCtx_modAttempt, getCtx_setErr, attempt_modSlice running found, Option.map_some]
  exact ⟨_, rfl, SMap.find_insert_same .., rfl, rfl⟩

/-- Computing a slice changes no more of its context than the attempt (R149). -/
theorem computedSlice_attempt (running : (getCtx s n).attempt = some a) (found : a.slices.find key = some x) (k : SliceCalc) :
    ∃ b, getCtx (computedSlice s n key layer hall k) n = { getCtx s n with attempt := some b } ∧
      b.slices = a.slices.insert key { x with stage := 2, grad := k.grad, news := k.news } := by
  have same : getCtx (computedSlice s n key layer hall k) n = getCtx (addBack (addApart (modSlice s n key (fun y =>
      { y with stage := 2, grad := k.grad, news := k.news })) n layer 0 k.ovf) n layer 0 { unf := k.unf }) n := by
    unfold computedSlice
    dsimp only
    split
    · rfl
    · exact getCtx_setErr ..
  rw [same]
  simp only [addBack, addApart, modSlice, getCtx_modAttempt, running, Option.map_some, found]
  exact ⟨_, rfl, rfl⟩

end

/-- A final slice of the attempt, as SLICE_ACCEPT finds it (R145). -/
structure FinalSlice (s : State) (n tid ord : Nat) (p : Plan) (l : LayerRec) (t : TensorRec) (a : Attempt) (x : Slice) : Prop where
  bound : (getCtx s n).plan = some p
  running : (getCtx s n).attempt = some a
  found : a.slices.find (sliceKey tid ord) = some x
  tensor : p.record tid = some t
  layer : p.layer x.layer = some l
  final : x.stage = 1
  notCommitted : a.outcome ≠ some 0
  ordinal : ord < 2 ^ 24

section
variable {s : State} {n tid ord : Nat} {p : Plan} {l : LayerRec} {t : TensorRec} {a : Attempt} {x : Slice}

/-- A frozen layer's slice, or one after the end or a refusal, is consumed and discarded (R121, R148). -/
theorem takeSlice_discards (h : FinalSlice s n tid ord p l t a x)
    (stops : l.frozen = true ∨ a.discard = true ∨ a.outcome.isSome = true ∨ optOfLayer (getCtx s n) p l = none) :
    takeSlice s n (sliceKey tid ord) = modSlice s n (sliceKey tid ord) (fun y => { y with stage := 4 }) := by
  have stopped : (l.frozen || a.discard || a.outcome.isSome || (optOfLayer (getCtx s n) p l).isNone) = true := by
    simpa [or_assoc] using stops
  have goes : ¬(x.stage ≠ 1 || a.outcome == some 0) = true := by simp [h.final, h.notCommitted]
  unfold takeSlice
  simp only [h.bound, h.running, Option.bind_some, h.found, sliceKey_div h.ordinal, h.tensor, h.layer, stopped, if_true]
  exact if_neg goes

/-- What an engine computes for a slice from the old state (R148-R154). -/
def sliceUpdate (c : Ctx) (p : Plan) (t : TensorRec) (ord : Nat) (o : OptRec × Scalars) (x : Slice) : SliceCalc :=
  sliceCalc o.1 o.2 c.lossExp (oldState c p t ord) x.vals

/-- A final slice that is neither frozen nor discarded, while no CLOSE update is under way (R108, R121, R148). -/
structure LiveSlice (s : State) (n tid ord : Nat) (p : Plan) (l : LayerRec) (t : TensorRec) (a : Attempt) (x : Slice) (o : OptRec × Scalars) : Prop
    extends FinalSlice s n tid ord p l t a x where
  idle : (getCtx s n).closing = []
  thawed : l.frozen = false
  takes : a.discard = false
  undecided : a.outcome = none
  opt : optOfLayer (getCtx s n) p l = some o

/-- The engine refuses it for a NaN, else computes it and journals or writes it (R146-R149, R160). -/
theorem takeSlice_updates {o : OptRec × Scalars} (h : LiveSlice s n tid ord p l t a x o) :
    let hall := sliceHall (getCtx s n) t ord
    let k := sliceUpdate (getCtx s n) p t ord o x
    takeSlice s n (sliceKey tid ord) =
      if k.bad then endAttempt (refusedSlice s n (sliceKey tid ord) x.layer hall) n cNanGrad
      else if (getCtx s n).journal then modCtx (computedSlice s n (sliceKey tid ord) x.layer hall k) n (fun c =>
        { c with jslots := c.jslots.insert (sliceKey tid ord) (newSlot a.step (oldState (getCtx s n) p t ord)) })
      else finishSlice (computedSlice s n (sliceKey tid ord) x.layer hall k) n t ord := by
  unfold takeSlice
  simp only [h.bound, h.running, Option.bind_some, h.found, sliceKey_div h.ordinal, sliceKey_mod h.ordinal, h.tensor, h.layer, h.final, h.thawed, h.takes,
    h.undecided, h.opt, awaitGauge_foldl_idle h.idle, Option.getD_some]
  rfl

/-- A slice is final whatever the engines' ports hold. -/
theorem FinalSlice.withPorts (h : FinalSlice s n tid ord p l t a x) (u : UpdateSt) : FinalSlice { s with update := u } n tid ord p l t a x :=
  ⟨h.bound, h.running, h.found, h.tensor, h.layer, h.final, h.notCommitted, h.ordinal⟩

theorem LiveSlice.withPorts {o : OptRec × Scalars} (h : LiveSlice s n tid ord p l t a x o) (u : UpdateSt) :
    LiveSlice { s with update := u } n tid ord p l t a x o := ⟨h.toFinalSlice.withPorts u, h.idle, h.thawed, h.takes, h.undecided, h.opt⟩

/-- A state with a hall's port holding some slices (R145). -/
def putPort (s : State) (hall : Nat) (q : List (Nat × Nat)) : State :=
  { s with update := { s.update with ports := s.update.ports.put [] hall q } }

theorem port_putPort (s : State) (hall : Nat) (q : List (Nat × Nat)) : (putPort s hall q).update.ports.get [] hall = q :=
  SMap.get_put_same ..

/-- Whether an engine is ready does not depend on its port (R145, R162, R212). -/
theorem engineReady_putPort (s : State) (hall : Nat) (q : List (Nat × Nat)) (h : Nat) (e : Nat × Nat) :
    engineReady (putPort s hall q) h e = engineReady s h e := rfl

/-- A ready engine takes the one slice at its port (R145). -/
theorem drainHall_one {s : State} {hall : Nat} {e : Nat × Nat} (port : s.update.ports.get [] hall = [e]) (ready : engineReady s hall e = true) :
    drainHall s hall = takeSlice (putPort s hall []) e.1 e.2 := by
  simp [drainHall, port, drainPort, ready, putPort]

/-- SLICE_ACCEPT queues the slice at its hall's port, which moves on (R145). -/
theorem exec_sliceAccept (h : FinalSlice s n tid ord p l t a x)
    (fresh : (n, sliceKey tid ord) ∉ s.update.ports.get [] (sliceHall (getCtx s n) t ord)) :
    exec (.sliceAccept n tid ord) s = .next (drainHall (putPort s (sliceHall (getCtx s n) t ord)
      (s.update.ports.get [] (sliceHall (getCtx s n) t ord) ++ [(n, sliceKey tid ord)])) (sliceHall (getCtx s n) t ord)) := by
  change execSliceAccept n tid ord s = _
  simp [execSliceAccept, h.bound, h.running, h.found, h.tensor, h.final, fresh, putPort]

/-- A slice at a port whose engine cannot take the one ahead of it waits (R145). -/
theorem exec_sliceAccept_waits (h : FinalSlice s n tid ord p l t a x) {e : Nat × Nat} {rest : List (Nat × Nat)}
    (port : s.update.ports.get [] (sliceHall (getCtx s n) t ord) = e :: rest) (busy : engineReady s (sliceHall (getCtx s n) t ord) e = false)
    (fresh : (n, sliceKey tid ord) ∉ e :: rest) :
    exec (.sliceAccept n tid ord) s = .next (putPort s (sliceHall (getCtx s n) t ord) (e :: rest ++ [(n, sliceKey tid ord)])) := by
  rw [exec_sliceAccept h (by rw [port]; exact fresh), port]
  exact congrArg _ (drainHall_blocked _ _ e (rest ++ [(n, sliceKey tid ord)]) (port_putPort ..) ((engineReady_putPort ..).trans busy))

/-- A hall's port is idle and its engine can take a slice (R145). -/
structure EngineIdle (s : State) (hall : Nat) (e : Nat × Nat) : Prop where
  port : s.update.ports.get [] hall = []
  ready : engineReady s hall e = true

/-- At an idle port a ready engine takes the slice at once (R145). -/
theorem exec_sliceAccept_takes (h : FinalSlice s n tid ord p l t a x) (idle : EngineIdle s (sliceHall (getCtx s n) t ord) (n, sliceKey tid ord)) :
    ∃ u, exec (.sliceAccept n tid ord) s = .next (takeSlice { s with update := u } n (sliceKey tid ord)) := by
  rw [exec_sliceAccept h (by rw [idle.port]; exact List.not_mem_nil), idle.port, List.nil_append, drainHall_one (port_putPort ..)
    ((engineReady_putPort ..).trans idle.ready)]
  exact ⟨_, rfl⟩

end

end Sys2Proof.Machine
end

section
/-! O49: the activation stack, slices, their journal and its rollback (R120, R133, R137, R145-R149, R160-R162, R211-R213; log entries 103 and 135). -/

namespace Sys2Proof.Machine

/-! STACK_POP and RECOMPUTE_RERUN (R133, R137; log entry 103). -/

section
variable {s : State} {n hall : Nat}

/-- While fewer frames than PREFETCH wait, the newest of a half whose backward runs joins those popped (R133). -/
theorem exec_stackPop_pops {f : StackFrame}
    (room : ((getCtx s n).stack.popped.filter (fun g => g.hall == hall % 8)).length < max 1 (fld s (pgStack (hall % 8)) Reg.SK_CTRL 3 1))
    (newest : (getCtx s n).stack.frames.find? (fun g => g.hall == hall % 8 && g.kind != 2 && backRuns (getCtx s n) g.half g.pos) = some f) :
    exec (.stackPop n hall) s = .next (putCtx s n { getCtx s n with
      stack := { (getCtx s n).stack with
        frames := (getCtx s n).stack.frames.filter (fun g => !f.same g), popped := (getCtx s n).stack.popped ++ [f] } }) := by
  change execStackPop n hall s = _
  unfold execStackPop
  simp only [if_pos room, newest]

/-- With PREFETCH frames waiting, or none to pop, nothing happens (R133). -/
theorem exec_stackPop_waits
    (waits : max 1 (fld s (pgStack (hall % 8)) Reg.SK_CTRL 3 1) ≤ ((getCtx s n).stack.popped.filter (fun g => g.hall == hall % 8)).length ∨
      (getCtx s n).stack.frames.find? (fun g => g.hall == hall % 8 && g.kind != 2 && backRuns (getCtx s n) g.half g.pos) = none) :
    exec (.stackPop n hall) s = .next s := by
  change execStackPop n hall s = _
  unfold execStackPop
  rcases waits with full | noFrame
  · simp only [if_neg (Nat.not_lt.mpr full)]
  · simp only [noFrame, ite_self]

end

/-- A rerun's block leaves the context's reports as they were, and comes to its end, before its frames are written (R137). -/
theorem rerunBlock_quiet (s : State) (n : Nat) (p : Plan) (b e half pos : Nat) (fr : StackFrame) :
    ∃ v, (rerunBlock s n p b e half pos fr).1 = scratchBlock v n p b e half pos ∧ (getCtx v n).done = (getCtx s n).done ∧
      (getCtx v n).parts = (getCtx s n).parts ∧ (getCtx v n).stack.rerun = false := by
  unfold rerunBlock
  exact ⟨_, rfl, by rw [getCtx_modCtx], by rw [getCtx_modCtx], by rw [getCtx_modCtx]⟩

/-- RECOMPUTE_RERUN of a block that backward has reached: the whole rerun, or what its members ask for (R137-R139). -/
theorem exec_recomputeRerun {s : State} {n layer half pos b : Nat} {p : Plan} {l : LayerRec} {a : Attempt} {fr : StackFrame}
    (live : liveLayer (getCtx s n) layer = some (p, l)) (running : (getCtx s n).attempt = some a) (reached : a.back.get 0 (pos * 2 + half) = layer + 1)
    (empty : (getCtx s n).stack.scratch = []) (block : blockStart p layer = some b)
    (found : ((getCtx s n).stack.frames ++ (getCtx s n).stack.popped).find?
      (fun f => f.layer == b && f.kind == 1 && f.half == half && f.pos == pos) = some fr) :
    exec (.recomputeRerun n layer half pos) s =
      if (rerunUnpowered s n p b layer half pos).isEmpty then
        .next (recheck (rerunBlock s n p b layer half pos fr).1 n p half pos ((getCtx s n).stack.frames ++ (getCtx s n).stack.popped)
          (rerunBlock s n p b layer half pos fr).2)
      else .next ((rerunUnpowered s n p b layer half pos).foldl askPower s) := by
  change execRecomputeRerun n layer half pos s = _
  unfold execRecomputeRerun
  simp only [live, running, reached, empty, List.isEmpty_nil, and_self, if_true, block, found]

/-! SLICE_COMPLETE (R120, R197). -/

section
variable {s : State} {n layer ord pos : Nat} {p : Plan} {l : LayerRec} {t : TensorRec} {a : Attempt} {vs : List Acc32}

/-- A slice of a running attempt whose segments are all there (R65, R120). -/
structure WholeSlice (s : State) (n layer ord pos : Nat) (p : Plan) (l : LayerRec) (t : TensorRec) (a : Attempt) (vs : List Acc32) : Prop where
  running : (getCtx s n).attempt = some a
  bound : (getCtx s n).plan = some p
  ofLayer : p.layer layer = some l
  param : p.paramOf l = some t
  undecided : a.outcome = none
  inRange : ord < sliceCountOf t
  values : sliceValues a t pos ord (segmentsOf (shareTokens s (getCtx s n) p pos)) = some vs

theorem attempt_modAttempt (running : (getCtx s n).attempt = some a) (f : Attempt → Attempt) :
    (getCtx (modAttempt s n f) n).attempt = some (f a) := by
  rw [getCtx_modAttempt, running]
  rfl

/-- A pass's tally changes no more of an attempt (R96). -/
theorem attempt_addBack (running : (getCtx s n).attempt = some a) (k : Tally) :
    ∃ m, (getCtx (addBack s n layer pos k) n).attempt = some { a with btally := m } :=
  ⟨_, attempt_modAttempt running _⟩

/-- An exchanged layer's slice waits for its bucket (R197). -/
theorem exec_sliceComplete_own (h : WholeSlice s n layer ord pos p l t a vs) (exch : l.exch = true) (groups : p.groups ≠ [])
    (fresh : a.own.find (ownKey pos t.tid ord) = none) :
    ∃ u b, exec (.sliceComplete n layer ord pos) s = .next u ∧ (getCtx u n).attempt = some b ∧
      b.own.find (ownKey pos t.tid ord) = some (vs.map (·.code)) ∧ b.slices = a.slices := by
  have runs : exec (.sliceComplete n layer ord pos) s = .next (modAttempt (addBack s n layer pos { ovf := (vs.map (·.ovf)).sum }) n
      (fun a => { a with own := a.own.insert (ownKey pos t.tid ord) (vs.map (·.code)) })) := by
    change execSliceComplete n layer ord pos s = _
    simp [execSliceComplete, h.running, h.bound, h.ofLayer, h.param, h.undecided, h.inRange, h.values, exch, groups, fresh]
  obtain ⟨m, tallied⟩ := attempt_addBack (layer := layer) (pos := pos) h.running { ovf := (vs.map (·.ovf)).sum }
  exact ⟨_, _, runs, attempt_modAttempt tallied _, SMap.find_insert_same .., rfl⟩

/-- Any other slice is final (R120). -/
theorem exec_sliceComplete_final (h : WholeSlice s n layer ord pos p l t a vs) (alone : l.exch = false ∨ p.groups = [])
    (fresh : a.slices.find (sliceKey t.tid ord) = none) :
    ∃ u b, exec (.sliceComplete n layer ord pos) s = .next u ∧ (getCtx u n).attempt = some b ∧
      b.slices.find (sliceKey t.tid ord) = some { layer := layer, stage := 1, vals := vs.map (·.code) } ∧ b.own = a.own := by
  have noBucket : (l.exch && !p.groups.isEmpty) = false := by
    rcases alone with noExch | noGroups
    · rw [noExch, Bool.false_and]
    · rw [noGroups, List.isEmpty_nil, Bool.not_true, Bool.and_false]
  have runs : exec (.sliceComplete n layer ord pos) s = .next (modAttempt (addBack s n layer pos { ovf := (vs.map (·.ovf)).sum }) n
      (fun a => { a with slices := a.slices.insert (sliceKey t.tid ord) { layer := layer, stage := 1, vals := vs.map (·.code) } })) := by
    change execSliceComplete n layer ord pos s = _
    simp [execSliceComplete, h.running, h.bound, h.ofLayer, h.param, h.undecided, h.inRange, h.values, noBucket, fresh]
  obtain ⟨m, tallied⟩ := attempt_addBack (layer := layer) (pos := pos) h.running { ovf := (vs.map (·.ovf)).sum }
  exact ⟨_, _, runs, attempt_modAttempt tallied _, SMap.find_insert_same .., rfl⟩

end

/-! SLICE_ACCEPT at a ready engine (R121, R145-R149, R160). -/

section
variable {s : State} {n tid ord : Nat} {p : Plan} {l : LayerRec} {t : TensorRec} {a : Attempt} {x : Slice}

theorem sliceAccept_discards (h : FinalSlice s n tid ord p l t a x) (idle : EngineIdle s (sliceHall (getCtx s n) t ord) (n, sliceKey tid ord))
    (stops : l.frozen = true ∨ a.discard = true ∨ a.outcome.isSome = true ∨ optOfLayer (getCtx s n) p l = none) :
    ∃ u b, exec (.sliceAccept n tid ord) s = .next u ∧ (getCtx u n).attempt = some b ∧
      b.slices.find (sliceKey tid ord) = some { x with stage := 4 } := by
  obtain ⟨q, taken⟩ := exec_sliceAccept_takes h idle
  have there := h.withPorts q
  rw [taken, takeSlice_discards there stops]
  exact ⟨_, _, rfl, attempt_modSlice there.running there.found _, SMap.find_insert_same ..⟩

variable {o : OptRec × Scalars}

theorem sliceAccept_refuses (h : LiveSlice s n tid ord p l t a x o) (idle : EngineIdle s (sliceHall (getCtx s n) t ord) (n, sliceKey tid ord))
    (bad : (sliceUpdate (getCtx s n) p t ord o x).bad = true) :
    ∃ u b, exec (.sliceAccept n tid ord) s = .next (endAttempt u n cNanGrad) ∧ (getCtx u n).attempt = some b ∧
      b.slices.find (sliceKey tid ord) = some { x with stage := 4 } ∧ b.discard = true ∧ b.lower = a.lower.or (some 2) := by
  obtain ⟨q, taken⟩ := exec_sliceAccept_takes h.toFinalSlice idle
  have there := h.withPorts q
  obtain ⟨b, refused⟩ := refusedSlice_attempt (layer := x.layer) (hall := sliceHall (getCtx s n) t ord) there.running there.found
  rw [taken, takeSlice_updates there]
  exact ⟨_, b, congrArg _ (if_pos bad), refused⟩

/-- A computed slice stands in the engine's buffer with its new values, and its journal entry stands (R160). -/
theorem computedSlice_journalled (h : FinalSlice s n tid ord p l t a x) (hall : Nat) (k : SliceCalc) (j : JSlot) :
    let u := modCtx (computedSlice s n (sliceKey tid ord) x.layer hall k) n (fun c => { c with jslots := c.jslots.insert (sliceKey tid ord) j })
    ∃ b, (getCtx u n).attempt = some b ∧ b.slices.find (sliceKey tid ord) = some { x with stage := 2, grad := k.grad, news := k.news } ∧
      (getCtx u n).jslots.find (sliceKey tid ord) = some j ∧ (getCtx u n).tensors = (getCtx s n).tensors := by
  obtain ⟨b, ctx, slices⟩ := computedSlice_attempt (layer := x.layer) (hall := hall) h.running h.found k
  dsimp only
  rw [getCtx_modCtx, ctx]
  exact ⟨b, rfl, by rw [slices, SMap.find_insert_same], SMap.find_insert_same .., rfl⟩

/-- A computed slice that is written stands written with its new values (R147). -/
theorem computedSlice_written (h : FinalSlice s n tid ord p l t a x) (own : t.tid = tid) (hall : Nat) (k : SliceCalc) :
    ∃ b, (getCtx (finishSlice (computedSlice s n (sliceKey tid ord) x.layer hall k) n t ord) n).attempt = some b ∧
      b.slices.find (sliceKey tid ord) = some { x with stage := 3, grad := k.grad, news := k.news } := by
  obtain ⟨b, ctx, slices⟩ := computedSlice_attempt (layer := x.layer) (hall := hall) h.running h.found k
  have found : b.slices.find (sliceKey t.tid ord) = some { x with stage := 2, grad := k.grad, news := k.news } := by
    rw [own, slices, SMap.find_insert_same]
  obtain ⟨⟨d, after, same⟩, -⟩ := slots_iff.mp (finishSlice_writes (by rw [ctx]; exact h.bound) (by rw [ctx]) found)
  exact ⟨d, after, by rw [same, own, SMap.find_insert_same]⟩

/-- With a journal the old state stands in its entry before the slice is written (R160). -/
theorem sliceAccept_journals (h : LiveSlice s n tid ord p l t a x o) (idle : EngineIdle s (sliceHall (getCtx s n) t ord) (n, sliceKey tid ord))
    (good : (sliceUpdate (getCtx s n) p t ord o x).bad = false) (journal : (getCtx s n).journal = true) :
    ∃ u b, exec (.sliceAccept n tid ord) s = .next u ∧ (getCtx u n).attempt = some b ∧
      b.slices.find (sliceKey tid ord) = some { x with
        stage := 2, grad := (sliceUpdate (getCtx s n) p t ord o x).grad, news := (sliceUpdate (getCtx s n) p t ord o x).news } ∧
      (getCtx u n).jslots.find (sliceKey tid ord) = some (newSlot a.step (oldState (getCtx s n) p t ord)) ∧
      (getCtx u n).tensors = (getCtx s n).tensors := by
  obtain ⟨q, taken⟩ := exec_sliceAccept_takes h.toFinalSlice idle
  have there := h.withPorts q
  obtain ⟨b, stands⟩ := computedSlice_journalled there.toFinalSlice (sliceHall (getCtx s n) t ord) (sliceUpdate (getCtx s n) p t ord o x)
    (newSlot a.step (oldState (getCtx s n) p t ord))
  rw [taken, takeSlice_updates there]
  exact ⟨_, b, congrArg _ ((if_neg (Bool.eq_false_iff.mp good)).trans (if_pos journal)), stands⟩

/-- Without a journal the slice is written at once (R147). -/
theorem sliceAccept_writes (h : LiveSlice s n tid ord p l t a x o) (own : t.tid = tid)
    (idle : EngineIdle s (sliceHall (getCtx s n) t ord) (n, sliceKey tid ord)) (good : (sliceUpdate (getCtx s n) p t ord o x).bad = false)
    (noJournal : (getCtx s n).journal = false) :
    ∃ u b, exec (.sliceAccept n tid ord) s = .next u ∧ (getCtx u n).attempt = some b ∧
      b.slices.find (sliceKey tid ord) = some { x with
        stage := 3, grad := (sliceUpdate (getCtx s n) p t ord o x).grad, news := (sliceUpdate (getCtx s n) p t ord o x).news } := by
  obtain ⟨q, taken⟩ := exec_sliceAccept_takes h.toFinalSlice idle
  have there := h.withPorts q
  obtain ⟨b, stands⟩ := computedSlice_written there.toFinalSlice own (sliceHall (getCtx s n) t ord) (sliceUpdate (getCtx s n) p t ord o x)
  rw [taken, takeSlice_updates there]
  exact ⟨_, b, congrArg _ ((if_neg (Bool.eq_false_iff.mp good)).trans (if_neg (Bool.eq_false_iff.mp noJournal))), stands⟩

end

/-! JOURNAL_ACK and JWRITE (R147, R160, R161; log entry 135). -/

/-- A computed slice of a running attempt that waits for its journal entry, at an idle port (R160). -/
structure AwaitsEntry (s : State) (n tid ord : Nat) (p : Plan) (t : TensorRec) (a : Attempt) (x : Slice) (j : JSlot) : Prop where
  bound : (getCtx s n).plan = some p
  running : (getCtx s n).attempt = some a
  tensor : p.record tid = some t
  own : t.tid = tid
  found : a.slices.find (sliceKey tid ord) = some x
  slot : (getCtx s n).jslots.find (sliceKey tid ord) = some j
  computed : x.stage = 2
  notValid : j.valid = false
  takes : a.discard = false
  undecided : a.outcome = none
  port : s.update.ports.get [] (sliceHall (getCtx s n) t ord) = []

section
variable {s : State} {n tid ord : Nat} {p : Plan} {t : TensorRec} {a : Attempt} {x : Slice} {j : JSlot}

theorem AwaitsEntry.awaits (h : AwaitsEntry s n tid ord p t a x j) : awaitsJournal (getCtx s n) (sliceKey tid ord) = true := by
  simp [awaitsJournal, h.running, h.found, h.slot, h.computed, h.notValid]

/-- The state with the entry's header valid (R160). -/
def entryValid (s : State) (n tid ord : Nat) (j : JSlot) : State :=
  modCtx s n (fun c => { c with jslots := c.jslots.insert (sliceKey tid ord) { j with valid := true } })

theorem exec_journalAck (h : AwaitsEntry s n tid ord p t a x j) :
    exec (.journalAck n tid ord) s = .next (finishSlice (entryValid s n tid ord j) n t ord) := by
  have idle : (finishSlice (entryValid s n tid ord j) n t ord).update.ports.get [] (sliceHall (getCtx s n) t ord) = [] := by
    rw [finishSlice_ports]; exact h.port
  have runs : exec (.journalAck n tid ord) s =
      .next (drainHall (finishSlice (entryValid s n tid ord j) n t ord) (sliceHall (getCtx s n) t ord)) := by
    change execJournalAck n tid ord s = _
    simp [execJournalAck, h.bound, h.tensor, h.awaits, h.running, h.takes, h.undecided, entryValid, modCtx, h.slot]
  rw [runs, drainHall_empty _ _ idle]

theorem journalAck_writes (h : AwaitsEntry s n tid ord p t a x j) :
    ∃ b, (getCtx (finishSlice (entryValid s n tid ord j) n t ord) n).attempt = some b ∧
      b.slices.find (sliceKey tid ord) = some { x with stage := 3 } ∧
      (getCtx (finishSlice (entryValid s n tid ord j) n t ord) n).jslots.find (sliceKey tid ord) = some { j with valid := true } := by
  have ctx : getCtx (entryValid s n tid ord j) n =
    { getCtx s n with jslots := (getCtx s n).jslots.insert (sliceKey tid ord) { j with valid := true } } := getCtx_modCtx ..
  have found : a.slices.find (sliceKey t.tid ord) = some x := by rw [h.own]; exact h.found
  obtain ⟨⟨b, after, same⟩, entries⟩ := slots_iff.mp
    (finishSlice_writes (s := entryValid s n tid ord j) (by rw [ctx]; exact h.bound) (by rw [ctx]; exact h.running) found)
  exact ⟨b, after, by rw [same, h.own, SMap.find_insert_same], by rw [entries, ctx, SMap.find_insert_same]⟩

/-- The state that the failed write of an entry leaves: the slice and the rest discarded, the slot free, the line lost (R161, R335). -/
def entryLost (s : State) (n tid ord hall : Nat) : State :=
  journalLineLost (modCtx (discardRest (setErr (modSlice s n (sliceKey tid ord) (fun y => { y with stage := 4 })) (pgUpdate hall) 1) n) n
    (fun c => { c with jslots := c.jslots.erase (sliceKey tid ord) })) hall n (sliceKey tid ord)

theorem journalLineLost_ctxs (s : State) (hall n key : Nat) : (journalLineLost s hall n key).ctxs = s.ctxs := by
  rw [journalLineLost, retireRow_ctxs, regSet_ctxs, regSet_ctxs]
  exact ctxs_of_besideTraffic ((besideTraffic_bumpSat ..).trans (besideTraffic_setErr ..))

theorem retireRow_update (s : State) (h row : Nat) : (retireRow s h row).update = s.update := by
  obtain ⟨m, only⟩ := retireRow_only s h row
  rw [only]

theorem journalLineLost_update (s : State) (hall n key : Nat) : (journalLineLost s hall n key).update = s.update := by
  rw [journalLineLost, retireRow_update, regSet_update, regSet_update]
  exact update_of_besideTraffic ((besideTraffic_bumpSat ..).trans (besideTraffic_setErr ..))

theorem exec_jwrite (h : AwaitsEntry s n tid ord p t a x j) :
    exec (.jwrite n tid ord) s = .next (endAttempt (entryLost s n tid ord (sliceHall (getCtx s n) t ord)) n cJwrite) := by
  have runs : exec (.jwrite n tid ord) s = .next (drainHall (endAttempt (entryLost s n tid ord (sliceHall (getCtx s n) t ord)) n cJwrite)
      (sliceHall (getCtx s n) t ord)) := by
    change execJwrite n tid ord s = _
    simp [execJwrite, h.bound, h.tensor, h.awaits, entryLost]
  have update : (entryLost s n tid ord (sliceHall (getCtx s n) t ord)).update = s.update := by
    rw [entryLost, journalLineLost_update]
    exact update_setErr ..
  rw [runs, drainHall_empty]
  rw [update_endAttempt, update]
  exact h.port

theorem entryLost_stands (h : AwaitsEntry s n tid ord p t a x j) (hall : Nat) :
    ∃ b, (getCtx (entryLost s n tid ord hall) n).attempt = some b ∧ b.slices.find (sliceKey tid ord) = some { x with stage := 4 } ∧
      b.discard = true ∧ (getCtx (entryLost s n tid ord hall) n).jslots.find (sliceKey tid ord) = none ∧
      Config.rowOf (Config.journalAddr n (sliceKey tid ord)) ∈ (getMc (entryLost s n tid ord hall) hall).retired := by
  have ctx : getCtx (entryLost s n tid ord hall) n = { getCtx s n with
      jslots := (getCtx s n).jslots.erase (sliceKey tid ord)
      attempt := some { a with slices := a.slices.insert (sliceKey tid ord) { x with stage := 4 }, discard := true } } := by
    rw [entryLost, getCtx_congr (journalLineLost_ctxs ..), getCtx_modCtx, discardRest, getCtx_modAttempt, getCtx_setErr, modSlice, getCtx_modAttempt,
      h.running]
    simp only [Option.map_some, h.found]
  rw [ctx]
  exact ⟨_, rfl, SMap.find_insert_same .., rfl, SMap.find_erase_same .., retireRow_mem ..⟩

end

/-! MIRROR_QUEUE_READY (R162, R165). -/

section
variable {s : State}

theorem drainHalls_idle (idle : s.update.ports = []) : drainHalls s = s := by
  have still (l : List Nat) : l.foldl drainHall s = s := by
    induction l with
    | nil => rfl
    | cons h l ih => rw [List.foldl_cons, drainHall_empty s h (by rw [idle]; rfl), ih]
  exact still _

/-- A counter of a whole word takes the sum, up to its largest value. -/
theorem bumpSat_word (p : Page) (o n : Nat) (run : cntHold s p = false) :
    fld (bumpSat s p o 31 0 n) p o 31 0 = min (fld s p o 31 0 + n) (2 ^ 32 - 1) := by
  rw [bumpSat, run, if_neg Bool.false_ne_true, setFld, fld, regGet_regSet]
  simp only [setBits, bits, Nat.shiftRight_zero]
  omega

/-- A mirror record sent to the twin leaves the registers of the halls (R162). -/
theorem sameRegs_sendMirror {p : Page} (hall : 0x08000000 ≤ p.base) (m : MirrorRec) : sameRegs p s (sendMirror s m) := by
  unfold sendMirror
  split
  · exact .refl p s
  · next d _ =>
    refine ((sameRegs_sendBundle hall s d 2 2 (mirrorBytes m) (.mirror (mirrorHeader m) m)).trans (.bump64 _ (mirrorBytes m) ?_ ?_)).trans
      (.of_regs rfl)
    · exact .inr (Nat.le_trans (by decide) hall)
    · decide

/-- The stall of a hall's engine counted, the mirror queue with room and nothing waiting for it (R162, R165). -/
def stallCounted (s : State) (h cycles : Nat) : State :=
  let u := bumpSat s (pgUpdate h) Reg.UE_MSTALL 31 0 cycles
  { u with update := { u.update with full := false, waiting := [] } }

theorem stallCounted_ctxs (s : State) (h cycles : Nat) : (stallCounted s h cycles).ctxs = s.ctxs :=
  (ctxs_of_besideTraffic (besideTraffic_bumpSat s (pgUpdate h) Reg.UE_MSTALL 31 0 cycles) :)

theorem stallCounted_ports (s : State) (h cycles : Nat) : (stallCounted s h cycles).update.ports = s.update.ports :=
  (congrArg UpdateSt.ports (update_of_besideTraffic (besideTraffic_bumpSat s (pgUpdate h) Reg.UE_MSTALL 31 0 cycles)) :)

/-- One hall's engine whose record waits: it counts its stall and sends it (R162). -/
theorem exec_mirrorQueueReady_one {h : Nat} {m : MirrorRec} (cycles : Nat) (full : s.update.full = true) (idle : s.update.ports = [])
    (one : s.update.waiting = [(h, m)]) : exec (.mirrorQueueReady cycles) s = .next (sendMirror (stallCounted s h cycles) m) := by
  have waits : (bumpSat s (pgUpdate h) Reg.UE_MSTALL 31 0 cycles).update.waiting = [(h, m)] := by
    rw [update_of_besideTraffic (besideTraffic_bumpSat ..), one]
  have runs : exec (.mirrorQueueReady cycles) s = .next (drainHalls (sendMirror (stallCounted s h cycles) m)) := by
    change execMirrorQueueReady cycles s = _
    simp [execMirrorQueueReady, full, one, show [h].eraseDups = [h] from rfl, drainMirror, waits, stallCounted]
  obtain ⟨q, sent⟩ := sendMirror_update (stallCounted s h cycles) m
  rw [runs, drainHalls_idle]
  rw [sent]
  exact (stallCounted_ports s h cycles).trans idle

theorem mirrorQueueReady_sends {h : Nat} {m : MirrorRec} (cycles : Nat) (full : s.update.full = true) (idle : s.update.ports = [])
    (one : s.update.waiting = [(h, m)]) (run : cntHold s (pgUpdate h) = false) :
    ∃ u, exec (.mirrorQueueReady cycles) s = .next u ∧ u.update.waiting = [] ∧ u.ctxs = s.ctxs ∧
      fld u (pgUpdate h) Reg.UE_MSTALL 31 0 = min (fld s (pgUpdate h) Reg.UE_MSTALL 31 0 + cycles) (2 ^ 32 - 1) := by
  have inHall : 0x08000000 ≤ (pgUpdate h).base := by simp only [pgUpdate, hallBase]; omega
  refine ⟨_, exec_mirrorQueueReady_one cycles full idle one, ?_, by rw [sendMirror_ctxs, stallCounted_ctxs], ?_⟩
  · obtain ⟨q, sent⟩ := sendMirror_update (stallCounted s h cycles) m
    rw [sent]
    rfl
  · rw [fld, sameRegs_sendMirror inHall m _ (by decide)]
    exact bumpSat_word (pgUpdate h) Reg.UE_MSTALL cycles run

end

/-! JOURNAL_ROLLBACK (R211-R213). -/

theorem exec_journalRollback {s : State} {n tid ord : Nat} {p : Plan} {t : TensorRec} {j : JSlot} (lineOk : Bool) (bound : (getCtx s n).plan = some p)
    (tensor : p.record tid = some t) (slot : (getCtx s n).jslots.find (sliceKey tid ord) = some j) (due : sliceKey tid ord ∈ (getCtx s n).rollback) :
    let c1 : Ctx := { getCtx s n with rollback := (getCtx s n).rollback.erase (sliceKey tid ord), jslots := (getCtx s n).jslots.erase (sliceKey tid ord) }
    exec (.journalRollback n tid ord lineOk) s = .next (drainHalls (runQueues
      (if (lineOk && j.good) || twinActive s then putCtx s n (restoreSlice c1 p t ord j.data) else notRestored (putCtx s n c1) n tid ord) n)) := by
  change execJournalRollback n tid ord lineOk s = _
  simp [execJournalRollback, bound, tensor, slot, due]

/-! The statement. -/

/-- Settles O49, command by command: the answer of each from the equation that its guards leave, then what that answer reads. -/
theorem stackAndSlices : Obligations.StackAndSlices := by
  unfold Obligations.StackAndSlices
  refine ⟨?_, ?_, ?_, ?_, ?_, ?_, ?_⟩
  · exact fun ctx hall s => ⟨fun f room newest => exec_stackPop_pops room newest, exec_stackPop_waits⟩
  · intro ctx layer half pos b p l a fr s live running reached empty block found
    rw [exec_recomputeRerun live running reached empty block found]
    refine ⟨fun powered => ?_, fun unpowered => if_neg (by rwa [List.isEmpty_iff])⟩
    obtain ⟨v, frames, quiet⟩ := rerunBlock_quiet s ctx p b layer half pos fr
    exact ⟨v, _, by rw [powered, ← frames]; rfl, quiet⟩
  · intro ctx layer ord pos p l t a vs s running bound ofLayer param undecided inRange values
    have whole : WholeSlice s ctx layer ord pos p l t a vs := ⟨running, bound, ofLayer, param, undecided, inRange, values⟩
    exact ⟨exec_sliceComplete_own whole, exec_sliceComplete_final whole⟩
  · intro ctx tid ord p l t a x s bound running found tensor layer final notCommitted ordinal
    have slice : FinalSlice s ctx tid ord p l t a x := ⟨bound, running, found, tensor, layer, final, notCommitted, ordinal⟩
    refine ⟨fun e rest port busy fresh => exec_sliceAccept_waits slice port busy fresh, fun port ready own idle => ?_⟩
    have engine : EngineIdle s (sliceHall (getCtx s ctx) t ord) (ctx, sliceKey tid ord) := ⟨port, ready⟩
    refine ⟨sliceAccept_discards slice engine, fun o thawed takes undecided opt => ?_⟩
    have live : LiveSlice s ctx tid ord p l t a x o := ⟨slice, idle, thawed, takes, undecided, opt⟩
    exact ⟨sliceAccept_refuses live engine, sliceAccept_journals live engine, sliceAccept_writes live own engine⟩
  · intro ctx tid ord p t a x j s bound running tensor own found slot computed notValid takes undecided port
    have waits : AwaitsEntry s ctx tid ord p t a x j := ⟨bound, running, tensor, own, found, slot, computed, notValid, takes, undecided, port⟩
    obtain ⟨b, written⟩ := journalAck_writes waits
    obtain ⟨d, lost⟩ := entryLost_stands waits (sliceHall (getCtx s ctx) t ord)
    exact ⟨⟨_, b, exec_journalAck waits, written⟩, ⟨_, d, exec_jwrite waits, lost⟩⟩
  · intro cycles s
    refine ⟨fun room => ?_, fun h m d full idle one _ run => mirrorQueueReady_sends cycles full idle one run⟩
    change execMirrorQueueReady cycles s = _
    simp [execMirrorQueueReady, room]
  · intro ctx tid ord lineOk p t j s bound tensor slot due
    rw [exec_journalRollback lineOk bound tensor slot due]
    refine ⟨fun restores => ?_, fun spoiled noTwin => ?_⟩
    · rw [if_pos (by simpa using restores)]
    · rw [if_neg (by rcases spoiled with bad | bad <;> simp [bad, noTwin])]

end Sys2Proof.Machine
end

section
/-! SUPPORT of O56. Heartbeats, and the loss of a device that nothing under way waits for (R217, R320, R322, R329). -/

namespace Sys2Proof.Machine

/-! Heartbeats (R329). -/

theorem SMap.get_foldl_put {α : Type} [DecidableEq α] (d : α) (v : Nat → α) {k : Nat} {l : List Nat} (mem : k ∈ l) (m : SMap α) :
    get d k (l.foldl (fun m j => m.put d j (v j)) m) = v k := by
  induction l using List.reverseRecOn with
  | nil => cases mem
  | append_singleton l j ih =>
    rw [List.foldl_append, List.foldl_cons, List.foldl_nil, get_put]
    split
    · next same => rw [same]
    · next other => exact ih (by simpa [other] using mem)

theorem besideTraffic_sendBeat (s : State) (down : Bool) (d : Nat) : besideTraffic (sendBeat s down d) = besideTraffic s := by
  unfold sendBeat
  dsimp only
  split
  · split <;> simp
  · exact besideTraffic_foldl (fun s l => besideTraffic_enqueueFlit s l _) _ s

theorem twin_of_besideTraffic {s t : State} (h : besideTraffic t = besideTraffic s) : t.twin = s.twin := (congrArg State.twin h :)

/-- Before the sequence number advances, the beats of a period are traffic. -/
theorem besideTraffic_beats (s : State) (down : Bool) :
    besideTraffic ((beatPeers s).foldl (fun s d => sendBeat s down d) s) = besideTraffic s :=
  besideTraffic_foldl (fun s d => besideTraffic_sendBeat s down d) _ s

theorem sendBeats_twin (s : State) (down : Bool) : (sendBeats s down).twin = { s.twin with beat := (s.twin.beat + 1) % 2 ^ 32 } := by
  rw [sendBeats, twin_of_besideTraffic (besideTraffic_beats s down)]

/-- The periods without a beat, peer by peer, after one more period. -/
def missedNow (s : State) : SMap Nat :=
  (beatPeers s).foldl (fun m d => m.put 0 d (if s.twin.heard.contains d then 0 else s.twin.missed.get 0 d + 1)) []

theorem get_missedNow {s : State} {d : Nat} (peer : d ∈ beatPeers s) :
    (missedNow s).get 0 d = if d ∈ s.twin.heard then 0 else s.twin.missed.get 0 d + 1 := by
  rw [missedNow, SMap.get_foldl_put 0 (fun d => if s.twin.heard.contains d then 0 else s.twin.missed.get 0 d + 1) peer]
  simp only [List.contains_iff_mem]

theorem exec_heartbeatPeriod (s : State) : ∃ t, exec .heartbeatPeriod s = .next t ∧
    t.twin = { s.twin with missed := missedNow s, heard := [],
                           beat := if s.power.lost then s.twin.beat else (s.twin.beat + 1) % 2 ^ 32 } := by
  refine ⟨_, rfl, ?_⟩
  have counted (n : Nat) : (bumpSat { s with twin := { s.twin with missed := missedNow s, heard := [] } } pgTwin Reg.TW_MISSES 31 0 n).twin =
      { s.twin with missed := missedNow s, heard := [] } := twin_of_besideTraffic (besideTraffic_bumpSat ..)
  cases s.power.lost with
  | true => exact counted _
  | false => exact (sendBeats_twin _ _).trans (by rw [← missedNow, counted]; rfl)

/-- A beat of the own twin or member is heard, or, where its sender is down, declares it lost. -/
theorem beatIn_peer {s : State} {src : Nat} (alive : src ∉ s.lostDevs) (peer : s.twin.twin = some src ∨ s.twin.member = some src) (down : Bool) :
    beatIn s src down = if down then declare s src 0
      else { s with twin := { s.twin with heard := if s.twin.heard.contains src then s.twin.heard else s.twin.heard ++ [src] } } := by
  have known : s.twin.twin = some src ∨ s.twin.member.isSome ∨ s.lostDevs.contains src :=
    peer.imp_right (fun h => .inl (by rw [h]; rfl))
  have listed : (beatPeers s).contains src = true := by
    rw [List.contains_iff_mem, beatPeers, List.mem_filter, List.mem_append, Option.mem_toList, Option.mem_toList]
    exact ⟨peer, by simpa using alive⟩
  rw [beatIn]
  simp only [if_pos known, listed, Bool.not_true, Bool.false_eq_true, if_false]

/-! What the loss of a device touches in any case: records, fences, waits, links (R320, R322, R329). -/

/-- What the loss of a device leaves where nothing waits for that device: the devices lost, the own twin and member, the contexts but for
their finished work. -/
def besideLoss (s : State) : List Nat × Option Nat × Option Nat × (Nat → Ctx) :=
  (s.lostDevs, s.twin.twin, s.twin.member, fun n => { getCtx s n with done := [] })

theorem besideLoss_fields {s t : State} (h : besideLoss t = besideLoss s) : t.lostDevs = s.lostDevs ∧ t.twin.twin = s.twin.twin ∧
    t.twin.member = s.twin.member ∧ ∀ n, { getCtx t n with done := [] } = { getCtx s n with done := [] } := by
  simpa only [besideLoss, Prod.mk.injEq, funext_iff] using h

theorem besideLoss_of_besideTraffic {s t : State} (h : besideTraffic t = besideTraffic s) : besideLoss t = besideLoss s := by
  have lost : t.lostDevs = s.lostDevs := (congrArg State.lostDevs h :)
  simp only [besideLoss, lost, twin_of_besideTraffic h, getCtx_of_besideTraffic h]

theorem besideLoss_foldl {α : Type} {f : State → α → State} (keeps : ∀ s x, besideLoss (f s x) = besideLoss s) (l : List α) (s : State) :
    besideLoss (l.foldl f s) = besideLoss s := by
  induction l generalizing s with
  | nil => rfl
  | cons x l ih => rw [List.foldl_cons, ih, keeps]

theorem besideLoss_addDone (s : State) (d : WoDone) : besideLoss (addDone s d) = besideLoss s := by
  have ctx (n : Nat) : { getCtx (addDone s d) n with done := [] } = { getCtx s n with done := [] } := by
    by_cases own : n = d.w.ctx
    · rw [own, getCtx_addDone]
    · rw [addDone, getCtx_modCtx_ne s own]
  simp only [besideLoss, ctx]
  rfl

theorem besideLoss_sendBeats (s : State) (down : Bool) : besideLoss (sendBeats s down) = besideLoss s :=
  (besideLoss_of_besideTraffic (besideTraffic_beats s down) :)

theorem besideLoss_power (s : State) (p : Power) : besideLoss { s with power := p } = besideLoss s := rfl

theorem besideLoss_declareLost (s : State) (unit code : Nat) : besideLoss (declareLost s unit code) = besideLoss s := by
  unfold declareLost
  split
  · rfl
  · rw [besideLoss_power, besideLoss_of_besideTraffic (besideTraffic_settleRecovery _), besideLoss_sendBeats,
      besideLoss_of_besideTraffic (besideTraffic_beginRecovery ..)]

theorem besideLoss_fence (s : State) (tag : Nat) : besideLoss (fence s tag) = besideLoss s := by
  unfold fence
  split
  · rfl
  · split
    · rw [besideLoss_declareLost, besideLoss_of_besideTraffic (besideTraffic_setErr ..)]
    · rfl

theorem besideLoss_revokeWaits (s : State) (d : Nat) : besideLoss (revokeWaits s d) = besideLoss s :=
  besideLoss_foldl (fun s (e : Nat × WoDone) => besideLoss_addDone { s with pegRefs := s.pegRefs.erase e.1 } _) _ _

theorem besideLoss_recoveryDone (s : State) (ns : List Nat) (t : Nat) : besideLoss (settleRecovery (recoveryWaits s ns t)) = besideLoss s :=
  besideLoss_of_besideTraffic ((besideTraffic_settleRecovery _).trans (besideTraffic_recoveryWaits s ns t))

/-- The first part of a loss: it is recorded, the device is listed and fenced, its waits end, its links stop. -/
def deviceGone (s : State) (d : Nat) : State :=
  let s1 := beginRecovery s 6 0 d cPartyLost false
  let s2 := revokeWaits ((lostTags s1 d).foldl fence { s1 with lostDevs := s1.lostDevs ++ [d] }) d
  ((s2.links.filter (fun e => e.2.peer == d && (e.2.state == 2 || e.2.state == 3))).map (·.1)).foldl (fun s l => stopLink s l 4) s2

theorem besideLoss_deviceGone (s : State) (d : Nat) : besideLoss (deviceGone s d) = besideLoss { s with lostDevs := s.lostDevs ++ [d] } := by
  have begun : besideTraffic { beginRecovery s 6 0 d cPartyLost false with lostDevs := (beginRecovery s 6 0 d cPartyLost false).lostDevs ++ [d] } =
      besideTraffic { s with lostDevs := s.lostDevs ++ [d] } :=
    (congrArg (fun u : State => { u with lostDevs := u.lostDevs ++ [d] }) (besideTraffic_beginRecovery s 6 0 d cPartyLost false 0) :)
  unfold deviceGone
  dsimp only
  rw [besideLoss_foldl (fun s l => besideLoss_of_besideTraffic (besideTraffic_stopLink s l 4)), besideLoss_revokeWaits,
    besideLoss_foldl besideLoss_fence, besideLoss_of_besideTraffic begun]

/-! Contexts that a loss leaves as they are (R196, R217, R218, R302). -/

/-- Nothing of the context waits for the device: no attempt or vote is under way, and it is in no group of the context's plan. -/
structure Uninvolved (d : Nat) (c : Ctx) : Prop where
  attempt : c.attempt = none
  group : inGroup c d = false
  voting : c.voting = false

theorem uninvolved_getCtx {s : State} {d : Nat} (all : ∀ e, e ∈ s.ctxs → Uninvolved d e.2) (n : Nat) : Uninvolved d (getCtx s n) := by
  unfold getCtx SMap.get
  cases found : s.ctxs.find n with
  | none => exact ⟨rfl, rfl, rfl⟩
  | some c => exact all _ (SMap.mem_of_find found)

theorem Uninvolved.of_besideLoss {s t : State} {d n : Nat} (h : Uninvolved d (getCtx s n)) (same : besideLoss t = besideLoss s) :
    Uninvolved d (getCtx t n) := by
  obtain ⟨-, -, -, sameCtx⟩ := besideLoss_fields same
  have ctx := sameCtx n
  obtain ⟨attempt, group, voting⟩ := h
  exact ⟨(congrArg Ctx.attempt ctx :).trans attempt, (congrArg (fun c => inGroup c d) ctx :).trans group, (congrArg Ctx.voting ctx :).trans voting⟩

section
variable {s : State} {d n : Nat} (h : Uninvolved d (getCtx s n))
include h

theorem partyLost_uninvolved : partyLost s n d = s := by
  unfold partyLost
  dsimp only
  split
  · next running => rw [h.attempt] at running; cases running
  · rfl

theorem groupLoss_uninvolved : groupLoss d s n = s := by simp [groupLoss, h.group]

theorem decideVote_uninvolved : decideVote s n = s := by
  unfold decideVote
  dsimp only
  split
  · rw [h.voting]; rfl
  · rfl

end

/-- The second part of a loss: the steps that the device took part in are decided, the twin takes over, votes go on, the recovery waits. -/
def lossDecided (s : State) (d ns : Nat) : State :=
  let cs := s.ctxs.map (·.1)
  let s1 := memberGone (cs.foldl (groupLoss d) (cs.foldl (fun s n => partyLost s n d) (twinGone s d))) d
  let s2 := cs.foldl decideVote s1
  settleRecovery (recoveryWaits s2 (interrupted_ s2 cs) ns)

theorem deviceLost_first {s : State} {d : Nat} (ns : Nat) (alive : d ∉ s.lostDevs) (other : d ≠ deviceId s) :
    deviceLost s d ns = lossDecided (deviceGone s d) d ns := by
  have first : (s.lostDevs.contains d || d == deviceId s) = false := by simp [alive, other]
  unfold deviceLost
  rw [first, if_neg Bool.false_ne_true, lossDecided, deviceGone]

/-- Where the device is neither twin nor member and no context is involved, nothing is decided: the recovery ends. -/
theorem lossDecided_uninvolved {s : State} {d : Nat} (ns : Nat) (noTwin : s.twin.twin ≠ some d) (noMember : s.twin.member ≠ some d)
    (all : ∀ n, Uninvolved d (getCtx s n)) :
    lossDecided s d ns = settleRecovery (recoveryWaits s (interrupted_ s (s.ctxs.map (·.1))) ns) := by
  have party := List.foldl_fixed' (f := fun s n => partyLost s n d) (fun n => partyLost_uninvolved (all n))
  have group := List.foldl_fixed' (f := groupLoss d) (fun n => groupLoss_uninvolved (all n))
  have vote := List.foldl_fixed' (f := decideVote) (fun n => decideVote_uninvolved (all n))
  unfold lossDecided
  dsimp only
  rw [twinGone, if_pos noTwin, party, group, memberGone, if_pos noMember, vote]

theorem lostDevs_deviceLost_uninvolved {s : State} {d : Nat} (ns : Nat) (alive : d ∉ s.lostDevs) (other : d ≠ deviceId s)
    (noTwin : s.twin.twin ≠ some d) (noMember : s.twin.member ≠ some d) (all : ∀ n, Uninvolved d (getCtx s n)) :
    (deviceLost s d ns).lostDevs = s.lostDevs ++ [d] := by
  have same := besideLoss_deviceGone s d
  obtain ⟨listed, sameTwin, sameMember, -⟩ := besideLoss_fields same
  rw [deviceLost_first ns alive other, lossDecided_uninvolved ns (fun h => noTwin (sameTwin.symm.trans h)) (fun h => noMember (sameMember.symm.trans h))
    (fun n => Uninvolved.of_besideLoss (s := { s with lostDevs := s.lostDevs ++ [d] }) (all n) same)]
  exact (besideLoss_fields (besideLoss_recoveryDone ..)).1.trans listed

end Sys2Proof.Machine
end

section
/-! O56: heartbeats, the loss of a device, and the shadow at the twin (R159, R214, R215, R320, R325-R329; log entry 101). -/

namespace Sys2Proof.Machine

/-! The shadow (R159, R215, R325, R328). -/

theorem shadow_putSlice (c : Ctx) (p : Plan) (t : TensorRec) (ord : Nat) (codes : List (List Nat)) :
    (putSlice c p t ord codes).ctx.shadow = c.shadow := by
  have stored (l : List (TensorRec × List Nat)) (d : Ctx) :
      (l.foldl (fun (c : Ctx) r => c.putTensor r.1.tid (putCodesAt (c.open_ r.1.tid) (sliceIdx t ord) r.2)) d).shadow = d.shadow := by
    induction l generalizing d with
    | nil => rfl
    | cons r l ih => rw [List.foldl_cons, ih]; rfl
  unfold putSlice
  dsimp only
  split
  · exact stored _ c
  · exact stored _ c

/-- The first mirror record of a slice in a step adds its old state to the shadow's. -/
theorem applyMirror_shadow {c : Ctx} {p : Plan} {m : MirrorRec} {r : TensorRec} (found : p.record m.tid = some r) (mirror : m.grad ≠ [])
    (current : c.step ≤ m.step) (first : c.shadow.pre.find (sliceKey m.tid m.slice) = none) :
    (applyMirror c p m).shadow = { c.shadow with pre := c.shadow.pre.insert (sliceKey m.tid m.slice) (oldState c p r m.slice) } := by
  have record : m.grad.isEmpty = false := by simpa using mirror
  simp only [applyMirror, found, record, first, Option.isSome_none, Nat.not_lt.mpr current, Bool.false_eq_true, if_false, shadow_putSlice]

theorem summaryReady_unsummed {s : State} {n : Nat} (d : Nat) (none_ : (getCtx s n).shadow.summary = none) : summaryReady s n d = s := by
  rw [summaryReady, none_]

/-- A record of a member's context that is a shadow with its plan is applied and acknowledged. -/
theorem exec_mirrorRecord {s : State} {m : MirrorRec} {d : Nat} {p : Plan} (member : s.twin.member = some d) (alive : d ∉ s.lostDevs)
    (apart : ownShare (getCtx s m.ctx) d = false) (bound : (getCtx s m.ctx).state ≠ 0) (held : (getCtx s m.ctx).shadow.held = true)
    (plan : (getCtx s m.ctx).plan = some p) :
    exec (.mirrorRecord m) s =
      .next (summaryReady (ackMirror (putCtx s m.ctx (applyMirror (getCtx s m.ctx) p m)) d m.ctx false) m.ctx d) := by
  change execMirrorRecord m s = _
  simp [execMirrorRecord, member, alive, apart, bound, held, plan]

theorem mirrorRecord_saves {s : State} {m : MirrorRec} {d : Nat} {p : Plan} {r : TensorRec} (member : s.twin.member = some d) (alive : d ∉ s.lostDevs)
    (apart : ownShare (getCtx s m.ctx) d = false) (bound : (getCtx s m.ctx).state ≠ 0) (held : (getCtx s m.ctx).shadow.held = true)
    (plan : (getCtx s m.ctx).plan = some p) (found : p.record m.tid = some r) (mirror : m.grad ≠ []) (current : (getCtx s m.ctx).step ≤ m.step)
    (first : (getCtx s m.ctx).shadow.pre.find (sliceKey m.tid m.slice) = none) (unsummed : (getCtx s m.ctx).shadow.summary = none) :
    ∃ u, exec (.mirrorRecord m) s = .next (sendBundle u d 2 2 0 (.mirrorAck m.ctx false)) ∧
      (getCtx u m.ctx).shadow.pre.find (sliceKey m.tid m.slice) = some (oldState (getCtx s m.ctx) p r m.slice) := by
  have shadow := applyMirror_shadow found mirror current first
  refine ⟨putCtx s m.ctx (applyMirror (getCtx s m.ctx) p m), ?_, ?_⟩
  · rw [exec_mirrorRecord member alive apart bound held plan, summaryReady_unsummed]
    · rfl
    · rw [ackMirror, getCtx_sendBundle, getCtx_putCtx, shadow]
      exact unsummed
  · rw [getCtx_putCtx, shadow]
    exact SMap.find_insert_same ..

/-- A shadow's context with the step's summary kept. -/
def Ctx.withSummary (c : Ctx) (m : StepSummary) : Ctx := { c with shadow := { c.shadow with summary := some m } }

theorem holdsRecords_withSummary (c : Ctx) (m : StepSummary) : holdsRecords (c.withSummary m) = holdsRecords c := rfl

/-- A summary of a member's step for a shadow that has its plan is kept and acknowledged. -/
theorem exec_stepSummary {s : State} {m : StepSummary} {d : Nat} {p : Plan} (member : s.twin.member = some d) (alive : d ∉ s.lostDevs)
    (apart : ownShare (getCtx s m.ctx) d = false) (held : (getCtx s m.ctx).shadow.held = true) (plan : (getCtx s m.ctx).plan = some p)
    (noAttempt : (getCtx s m.ctx).attempt = none) :
    exec (.stepSummary m) s = .next (summaryReady (ackMirror (putCtx s m.ctx ((getCtx s m.ctx).withSummary m)) d m.ctx true) m.ctx d) := by
  change execStepSummary m s = _
  simp [execStepSummary, Ctx.withSummary, member, alive, apart, held, plan, noAttempt]

section
variable {s : State} {n d : Nat} {m : StepSummary} (summed : (getCtx s n).shadow.summary = some m)
include summed

/-- With a summary the twin waits while a record is missing. -/
theorem summaryReady_waits (missing : holdsRecords (getCtx s n) = false) : summaryReady s n d = s := by
  simp [summaryReady, summed, missing]

/-- With the summary and every record the twin is a ready party of the step. -/
theorem summaryReady_ready (noAttempt : (getCtx s n).attempt = none) (complete : holdsRecords (getCtx s n) = true) :
    ∃ a : Attempt, summaryReady s n d = takeovers (progress (putCtx s n { getCtx s n with attempt := some a }) n) ∧ a.step = m.step ∧
      a.ready = true := by
  refine ⟨{ step := m.step, phase := 6, ready := true, notices := partyNotices (deviceId s) d m.parties, limits := limitsNow s }, ?_, rfl, rfl⟩
  simp [summaryReady, summed, noAttempt, complete]

end

/-- Settles O56: a beat, a loss, a record and a summary are each one lemma above; the rest is what the commands write. -/
theorem twinsAndLoss : Obligations.TwinsAndLoss := by
  unfold Obligations.TwinsAndLoss
  refine ⟨?_, ?_, ?_, ?_, ?_, ?_, ?_, ?_⟩
  · intro s
    obtain ⟨t, runs, twin⟩ := exec_heartbeatPeriod s
    refine ⟨t, runs, by rw [twin], fun d peer => ?_, by rw [twin]⟩
    rw [twin]
    exact get_missedNow peer
  · intro src seq s alive peer
    refine ⟨⟨_, congrArg Host.Outcome.next (beatIn_peer alive peer false), ?_, rfl, rfl⟩, congrArg Host.Outcome.next (beatIn_peer alive peer true)⟩
    by_cases known : src ∈ s.twin.heard <;> simp [known]
  · intro ns d s one silent
    change Host.Outcome.next (List.foldl _ _ _) = _
    rw [one, List.filter_cons_of_pos (by simpa using silent)]
    rfl
  · intro src d ns s alive other noTwin noMember quiet
    refine ⟨_, rfl, lostDevs_deviceLost_uninvolved ns alive other noTwin noMember (uninvolved_getCtx fun e mem => ?_)⟩
    obtain ⟨attempt, -, group, voting⟩ := quiet e mem
    exact ⟨attempt, group, voting⟩
  · exact fun _ _ _ _ _ => mirrorRecord_saves
  · intro m d p s member alive apart held plan noAttempt
    rw [exec_stepSummary member alive apart held plan noAttempt]
    have ctx : getCtx (ackMirror (putCtx s m.ctx ((getCtx s m.ctx).withSummary m)) d m.ctx true) m.ctx = (getCtx s m.ctx).withSummary m := by
      rw [ackMirror, getCtx_sendBundle, getCtx_putCtx]
    have summed := congrArg (fun c => c.shadow.summary) ctx
    refine ⟨fun complete => ?_, fun missing => ?_⟩
    · obtain ⟨a, ready, step, isReady⟩ := summaryReady_ready (d := d) summed ((congrArg Ctx.attempt ctx).trans noAttempt) (by rw [ctx]; exact complete)
      exact ⟨_, a, congrArg Host.Outcome.next ready, by rw [getCtx_putCtx], step, isReady, by rw [getCtx_putCtx]; exact summed⟩
    · rw [summaryReady_waits summed (by rw [ctx]; exact missing)]
      rfl
  · intro s seeding
    exact if_pos seeding
  · intro ctx summary a s running
    exact ⟨_, rfl, by rw [getCtx_modAttempt, running]; rfl⟩

end Sys2Proof.Machine
end

section
/-! SUPPORT of O42. Codes of FP32 and their values: what is read, rounded and stored without change is the code itself (R31, R32, R40, R44). -/

namespace Sys2Proof.Machine

/-! Rounding a magnitude that a code holds. -/

theorem ilog2Q_one {m : Nat} (pos : 0 < m) : ilog2Q m 1 = Nat.log2 m := by
  have low : Nat.log2 1 = 0 := by decide
  simp [ilog2Q, low, Nat.log2_self_le pos.ne']

/-- A magnitude in the form in which a code of the format holds it: normal, or at the smallest exponent. -/
structure HeldIn (f : FFmt) (m : Nat) (e : Int) : Prop where
  below : m < 2 ^ f.p
  least : f.emin - (f.p - 1 : Nat) ≤ e
  normal : 2 ^ (f.p - 1) ≤ m ∨ e = f.emin - (f.p - 1 : Nat)

/-- Rounding leaves such a magnitude as it is. -/
theorem roundQ_held {f : FFmt} {m : Nat} {e : Int} (h : HeldIn f m e) (pos : 0 < m) (r : Rnd) (neg : Bool) :
    (roundQ f r neg m 1 e).n = m ∧ (roundQ f r neg m 1 e).q = e := by
  obtain ⟨below, least, normal⟩ := h
  have top : Nat.log2 m ≤ f.p - 1 := by have := (Nat.log2_lt pos.ne').mpr below; omega
  have place : max ((Nat.log2 m : Int) + e) f.emin - (f.p - 1 : Nat) = e := by
    rcases normal with large | small
    · have := (Nat.le_log2 pos.ne').mpr large
      omega
    · omega
  have whole : roundInt r neg m 1 = (m, false) := by simp [roundInt, Nat.mod_one]
  simp only [roundQ, if_neg pos.ne', ilog2Q_one pos, place, Int.sub_self, scaleQ, le_refl, if_true, Int.toNat_zero, Nat.pow_zero, Nat.mul_one, whole,
    and_self]

theorem magGt_false {a b : Nat} {ea eb : Int} (m : a ≤ b) (e : ea ≤ eb) : magGt a ea b eb = false := by
  unfold magGt
  split
  · next ge =>
    rw [show ea - eb = 0 by omega]
    simpa using m
  · simpa using Nat.le_trans m (Nat.le_mul_of_pos_right b (Nat.two_pow_pos _))

theorem encodeFin_held {f : FFmt} {m : Nat} {e : Int} (h : HeldIn f m e) (neg : Bool) : encodeFin f neg m e =
    if m < 2 ^ (f.p - 1) then f.signBit neg + m
    else f.signBit neg + (e + (f.p - 1 : Nat) + f.bias).toNat * 2 ^ (f.p - 1) + (m - 2 ^ (f.p - 1)) := by
  simp only [encodeFin, if_neg h.below.ne]

/-! FP32. -/

theorem heldIn_fp32 {m : Nat} {e : Int} : HeldIn .fp32 m e ↔ m < 2 ^ 24 ∧ -149 ≤ e ∧ (2 ^ 23 ≤ m ∨ e = -149) :=
  ⟨fun ⟨below, least, normal⟩ => ⟨below, least, normal⟩, fun ⟨below, least, normal⟩ => ⟨below, least, normal⟩⟩

theorem encodeFin_fp32 {m : Nat} {e : Int} (h : HeldIn .fp32 m e) (neg : Bool) : encodeFin .fp32 neg m e =
    if m < 2 ^ 23 then FFmt.fp32.signBit neg + m else FFmt.fp32.signBit neg + (e + 150).toNat * 2 ^ 23 + (m - 2 ^ 23) := by
  rw [encodeFin_held h, show e + 150 = e + 23 + 127 by omega]
  rfl

theorem signBit_fp32 (c : Nat) : FFmt.fp32.signBit (decide (c / 2 ^ 31 % 2 = 1)) = c / 2 ^ 31 % 2 * 2 ^ 31 := by
  rcases Nat.mod_two_eq_zero_or_one (c / 2 ^ 31) with h | h <;> rw [h] <;> decide

theorem fp32V_eq (c : Nat) : fp32V c =
    if c / 2 ^ 23 % 2 ^ 8 = 255 then
      (if c % 2 ^ 23 = 0 then .inf (decide (c / 2 ^ 31 % 2 = 1)) else .nan (decide (c / 2 ^ 31 % 2 = 1)) (c % 2 ^ 23))
    else if c / 2 ^ 23 % 2 ^ 8 = 0 then .fin (decide (c / 2 ^ 31 % 2 = 1)) (c % 2 ^ 23) (-149)
    else .fin (decide (c / 2 ^ 31 % 2 = 1)) (2 ^ 23 + c % 2 ^ 23) ((c / 2 ^ 23 % 2 ^ 8 : Nat) - 150) := by
  rw [show ((c / 2 ^ 23 % 2 ^ 8 : Nat) : Int) - 150 = (c / 2 ^ 23 % 2 ^ 8 : Nat) - 127 - 23 by omega]
  rfl

/-- A code of FP32, by its value: an infinity, a NaN, or a finite magnitude that encodes as the code. -/
theorem fp32V_cases (c : Nat) : (∃ s, fp32V c = .inf s ∧ FFmt.fp32.infCode s = c % 2 ^ 32) ∨ (∃ s fr, fp32V c = .nan s fr ∧ fr < 2 ^ 23) ∨
    ∃ s m e, fp32V c = .fin s m e ∧ HeldIn .fp32 m e ∧ e ≤ 104 ∧ encodeFin .fp32 s m e = c % 2 ^ 32 := by
  have frac : c % 2 ^ 23 < 2 ^ 23 := Nat.mod_lt _ (by decide)
  rw [fp32V_eq]
  split
  · split
    · refine .inl ⟨_, rfl, ?_⟩
      have bits : FFmt.fp32.infCode (decide (c / 2 ^ 31 % 2 = 1)) = FFmt.fp32.signBit (decide (c / 2 ^ 31 % 2 = 1)) + 255 * 2 ^ 23 := rfl
      rw [bits, signBit_fp32]
      omega
    · exact .inr (.inl ⟨_, _, rfl, frac⟩)
  · refine .inr (.inr ?_)
    split
    · have held : HeldIn .fp32 (c % 2 ^ 23) (-149) := heldIn_fp32.mpr ⟨by omega, le_rfl, .inr rfl⟩
      refine ⟨_, _, _, rfl, held, by decide, ?_⟩
      rw [encodeFin_fp32 held, if_pos frac, signBit_fp32]
      omega
    · have held : HeldIn .fp32 (2 ^ 23 + c % 2 ^ 23) ((c / 2 ^ 23 % 2 ^ 8 : Nat) - 150) := heldIn_fp32.mpr ⟨by omega, by omega, .inl (by omega)⟩
      refine ⟨_, _, _, rfl, held, by omega, ?_⟩
      rw [encodeFin_fp32 held, if_neg (by omega), signBit_fp32]
      omega

/-! NaNs. -/

theorem canon32_nan {c : Nat} (h : (fp32V c).isNan = true) : canon32 c = FFmt.fp32.canonNan := if_pos h

theorem canon32_notNan {c : Nat} (h : (fp32V c).isNan = false) : canon32 c = c := by rw [canon32, h, if_neg Bool.false_ne_true]

@[simp] theorem canon32_idem (c : Nat) : canon32 (canon32 c) = canon32 c := by
  cases h : (fp32V c).isNan with
  | true => rw [canon32_nan h]; rfl
  | false => rw [canon32_notNan h, canon32_notNan h]

/-- A quieted NaN is a NaN. -/
theorem quietCode_isNan (s : Bool) {fr : Nat} (h : fr < 2 ^ 23) : (fp32V (quietCode .fp32 s fr)).isNan = true := by
  have code : quietCode .fp32 s fr = FFmt.fp32.signBit s + 255 * 2 ^ 23 + (if fr / 2 ^ 22 % 2 = 1 then fr else fr + 2 ^ 22) := rfl
  have sign : FFmt.fp32.signBit s = 0 ∨ FFmt.fp32.signBit s = 2 ^ 31 := by cases s <;> decide
  have quiet : quietCode .fp32 s fr / 2 ^ 23 % 2 ^ 8 = 255 ∧ quietCode .fp32 s fr % 2 ^ 23 ≠ 0 := by
    rw [code]
    split <;> omega
  rw [fp32V_eq, if_pos quiet.1, if_neg quiet.2]
  rfl

/-- The minimum with a NaN first is a NaN (R243). -/
theorem ieeeMin_nan {x : Nat} (h : (fp32V x).isNan = true) (y : Nat) : (fp32V (ieeeMin .fp32 x y).1).isNan = true := by
  rcases fp32V_cases x with ⟨s, value, -⟩ | ⟨s, fr, value, frac⟩ | ⟨s, m, e, value, -⟩
  · rw [value] at h; cases h
  · have decoded : decodeIeee .fp32 x = .nan s fr := value
    have first : (ieeeMin .fp32 x y).1 = quietCode .fp32 s fr := by
      rw [ieeeMin, decoded]
      rfl
    rw [first]
    exact quietCode_isNan s frac
  · rw [value] at h; cases h

/-- Making a NaN canonical before a minimum or after it is the same. -/
theorem canon32_ieeeMin_canon32 (x y : Nat) : canon32 (ieeeMin .fp32 (canon32 x) y).1 = canon32 (ieeeMin .fp32 x y).1 := by
  cases h : (fp32V x).isNan with
  | true => rw [canon32_nan h, canon32_nan (ieeeMin_nan h y), canon32_nan (ieeeMin_nan (by rfl) y)]
  | false => rw [canon32_notNan h]

/-! Stored and read. -/

/-- A finite value that a code holds lies in the range. -/
theorem magGt_held {m : Nat} {e : Int} (h : HeldIn .fp32 m e) (top : e ≤ 104) : magGt m e FFmt.fp32.maxM FFmt.fp32.maxE = false :=
  magGt_false (Nat.le_pred_of_lt h.below) top

theorem encodeFin_zero {e : Int} (h : HeldIn .fp32 0 e) (neg : Bool) : encodeFin .fp32 neg 0 e = FFmt.fp32.signBit neg := by
  rw [encodeFin_fp32 h, if_pos (by decide), Nat.add_zero]

/-- A code's value stored in FP32 is the code, a NaN the canonical one (R32, R40). -/
theorem convertWide_fp32V (c : Nat) : (convertWide .fp32 (fp32V c)).code = canon32 c % 2 ^ 32 := by
  rcases fp32V_cases c with ⟨s, value, code⟩ | ⟨s, fr, value, -⟩ | ⟨s, m, e, value, held, top, code⟩
  · rw [canon32_notNan (by rw [value]; rfl), value, ← code]
    rfl
  · rw [canon32_nan (by rw [value]; rfl), value]
    rfl
  · rw [canon32_notNan (by rw [value]; rfl), value, ← code]
    rcases Nat.eq_zero_or_pos m with rfl | pos
    · exact (encodeFin_zero held s).symm
    · obtain ⟨n, q⟩ := roundQ_held held pos .rne s
      have inRange : overflows .fp32 (roundQ .fp32 .rne s m 1 e) = false := by rw [overflows, n, q, magGt_held held top]
      simp only [convertWide, ieeeOf, if_neg pos.ne', inRange, Bool.false_eq_true, if_false, n, q]

/-- A finite value that a code holds widens into FP32 as the code (R44). -/
theorem widen_held {m : Nat} {e : Int} (h : HeldIn .fp32 m e) (top : e ≤ 104) (s : Bool) :
    (widen .fp32 (.fin s m e)).code = encodeFin .fp32 s m e := by
  simp only [widen, magGt_held h top, Bool.false_eq_true, if_false]
  rcases Nat.eq_zero_or_pos m with rfl | pos
  · have zero : roundQ .fp32 .rne s 0 1 e = ⟨0, -149, false, false⟩ := if_pos rfl
    rw [zero, encodeFin_zero h, encodeFin_zero (heldIn_fp32.mpr ⟨by decide, le_rfl, .inr rfl⟩)]
  · obtain ⟨n, q⟩ := roundQ_held h pos .rne s
    rw [n, q]

/-! Reading an FP32 tensor (R44, R268). -/

theorem leNat_lt (l : List Byte) : leNat l < 256 ^ l.length := by
  induction l with
  | nil => exact Nat.one_pos
  | cons b l ih =>
    have := b.isLt
    rw [leNat, List.length_cons, Nat.pow_succ]
    omega

theorem foldr_cons_fst {α β γ : Type} {g : α → β} {f : α → List β × γ → List β × γ} (step : ∀ i a, (f i a).1 = g i :: a.1)
    (l : List α) (b : γ) : (l.foldr f ([], b)).1 = l.map g := by
  induction l with
  | nil => rfl
  | cons i l ih => rw [List.foldr_cons, step, ih, List.map_cons]

/-- The descriptor of FP32. -/
def fp32D : Desc := ⟨.fp32, 3, false⟩

section
variable {t : Tensor} (desc : t.d = fp32D)
include desc

theorem elemCode_lt (i : Nat) : elemCode t i < 2 ^ 32 := by
  have bytes := leNat_lt (t.codes.readBytes ((i / max t.rowLen 1 * t.rowLen + i % max t.rowLen 1) * 4) 4)
  rw [Mem.length_readBytes] at bytes
  rw [elemCode, Tensor.codeAt_wide (by rw [desc]; rfl), desc]
  exact bytes

/-- Without infinities from outside an element is worth its code. -/
theorem valAt_fp32 (own : t.ext = []) (i : Nat) : t.valAt (i / max t.rowLen 1) (i % max t.rowLen 1) = fp32V (elemCode t i) := by
  have unscaled (x : Fp) : x.scale 0 = x := by cases x <;> simp [Fp.scale]
  have scales : t.scaleCodes (i / max t.rowLen 1) (i % max t.rowLen 1) = [] := by rw [Tensor.scaleCodes, desc]; rfl
  rw [Tensor.valAt, Tensor.poisonedAt, Tensor.scaleAt, scales]
  refine (unscaled _).trans ?_
  rw [Tensor.codeValAt, own, desc]
  rfl

/-- Elements of FP32 are read as their codes, a NaN as the canonical one. -/
theorem readFp32_codes (own : t.ext = []) (start n : Nat) :
    (readFp32 t start n).1 = (List.range n).map (fun j => canon32 (elemCode t (start + j))) := by
  refine foldr_cons_fst (fun j a => ?_) _ _
  have small := Nat.mod_eq_of_lt (elemCode_lt desc (start + j))
  dsimp only
  rw [valAt_fp32 desc own]
  rcases fp32V_cases (elemCode t (start + j)) with ⟨s, value, code⟩ | ⟨s, fr, value, -⟩ | ⟨s, m, e, value, held, top, code⟩
  · rw [canon32_notNan (by rw [value]; rfl), value, ← small, ← code]
  · rw [canon32_nan (by rw [value]; rfl), value]
    rfl
  · rw [canon32_notNan (by rw [value]; rfl), value, ← small, ← code, ← widen_held held top]

end

end Sys2Proof.Machine
end

section
/-! SUPPORT of O42. An element-wise work order that runs: what its context is then, the elements of the tensor it stores (R118, R242, R267-R269). -/

namespace Sys2Proof.Machine

/-! The run. -/

/-- Ready work keeps no stack copy (R118, R132). -/
theorem readyWork_noCopy {s : State} {w : WoHdr} {unit : Nat} (ready : readyWork s w unit) : w.phase ≠ 0 ∨ (getCtx s w.ctx).attempt = none := by
  obtain ⟨-, -, -, -, -, -, -, noCopy⟩ := ready
  exact noCopy

/-- A context with one more report. -/
def Ctx.reported (c : Ctx) (d : WoDone) : Ctx := { c with done := c.done ++ [d] }

/-- The context that a ready work order leaves: what its function makes of it, and the report. -/
theorem getCtx_runWork_ready {s : State} {w : WoHdr} {unit : Nat} (kind : Nat) (reads : Ctx → List ReadSet) (outs : List Nat) {f : WorkFn}
    (ready : readyWork s w unit) (hw : (f (getCtx s w.ctx) (takeQueued s w unit).2).2.w = (takeQueued s w unit).2)
    (attempt : (getCtx s w.ctx).attempt = none → (f (getCtx s w.ctx) (takeQueued s w unit).2).1.attempt = none) :
    getCtx (runWork unit kind reads outs f w s) w.ctx =
      (f (getCtx s w.ctx) (takeQueued s w unit).2).1.reported (f (getCtx s w.ctx) (takeQueued s w unit).2).2 := by
  obtain ⟨u, -, ran⟩ := runWork_ready (f := f) kind reads outs ready rfl hw attempt
  rw [ran, addDone, hw, takeQueued_ctx, getCtx_modCtx, getCtx_putCtx, Ctx.reported]

theorem withMicroFlags_w (op : Nat) (c : Ctx) (a : EwArgs) (d : WoDone) : (withMicroFlags op c a d).w = d.w := by
  unfold withMicroFlags
  split <;> rfl

/-- An element-wise work order that no check refuses leaves what its function makes of its context, and the report. -/
theorem getCtx_ewWork {op : Nat} {two three : Bool} {f : Ctx → WoHdr → EwArgs → Ctx × WoDone} {w : WoHdr} {a : EwArgs} {s : State}
    (ready : readyWork s w 3) (rnd : (Rnd.ofCode w.rnd).isSome = true) (ok : ewStatus (getCtx s w.ctx) op a = 0)
    (hw : (f (getCtx s w.ctx) (takeQueued s w 3).2 a).2.w = (takeQueued s w 3).2)
    (attempt : (getCtx s w.ctx).attempt = none → (f (getCtx s w.ctx) (takeQueued s w 3).2 a).1.attempt = none) :
    getCtx (ewWork op two three f w a s) w.ctx = (f (getCtx s w.ctx) (takeQueued s w 3).2 a).1.reported
      (withMicroFlags op (getCtx s w.ctx) a (f (getCtx s w.ctx) (takeQueued s w 3).2 a).2) := by
  have accepted : (if (Rnd.ofCode w.rnd).isNone = true then 0x0B else ewStatus (getCtx s w.ctx) op a) = 0 := by
    rw [if_neg (by simpa [Option.isSome_iff_ne_none] using rnd), ok]
  unfold ewWork
  rw [accepted]
  simp only [bne_self_eq_false, Bool.and_false, Bool.false_eq_true, if_false]
  exact getCtx_runWork_ready 1 _ _ (f := fun c v => ((f c v a).1, withMicroFlags op c a (f c v a).2)) ready
    ((withMicroFlags_w ..).trans hw) attempt

/-! The tensor that is stored. -/

theorem desc_ne_zero {b : Nat} {d : Desc} (h : Desc.ofByte b = some d) : b ≠ 0 := by
  rintro rfl
  rw [show Desc.ofByte 0 = none by decide] at h
  cases h

/-- Elements put at logical indices are cells put into the rows. -/
theorem putPairs_eq_putCells (t : Tensor) (ps : List (Nat × Nat)) :
    putPairs t ps = t.putCells (ps.map (fun p => (p.1 / max t.rowLen 1, p.1 % max t.rowLen 1, p.2))) := by
  induction ps using List.reverseRecOn with
  | nil => rfl
  | append_singleton ps p ih =>
    have rowLen : (putPairs t ps).rowLen = t.rowLen := by rw [ih, (Tensor.putCells_shape ..).2]
    have last : putPairs t (ps ++ [p]) = (putPairs t ps).putAt p.1 p.2 := List.foldl_concat ..
    rw [List.map_append, List.map_singleton, Tensor.putCells_concat, ← ih, last, Tensor.putAt, rowLen]

theorem putWords_desc (t : Tensor) (i : Nat) (codes : List Nat) : (putWords t i codes).desc = t.desc := by
  rw [putWords, putPairs_eq_putCells, (Tensor.putCells_shape ..).1]

/-- Codes put from an index on stand there, element by element. -/
theorem elemCode_putWords {t : Tensor} (wide : t.d.fmt.perByte = 1) (row : 0 < t.rowLen) (start : Nat) (g : Nat → Nat) {n j : Nat} (h : j < n) :
    elemCode (putWords t start ((List.range n).map g)) (start + j) = g j % 256 ^ t.d.fmt.bytes := by
  have long : max t.rowLen 1 = t.rowLen := by omega
  have cells : putWords t start ((List.range n).map g) =
      t.putCells ((List.range n).map (fun i => ((start + i) / t.rowLen, (start + i) % t.rowLen, g i))) := by
    rw [putWords, putPairs_eq_putCells, fromIdx, long]
    congr 1
    apply List.ext_getElem <;> simp
  have shape := (Tensor.putCells_shape t ((List.range n).map (fun i => ((start + i) / t.rowLen, (start + i) % t.rowLen, g i)))).2
  rw [elemCode, cells, shape, long]
  refine Tensor.codeAt_putCells wide (fun o mem => ?_) (List.mem_map.mpr ⟨j, List.mem_range.mpr h, rfl⟩) (fun x mem => ?_)
  · obtain ⟨i, -, rfl⟩ := List.mem_map.mp mem
    exact Nat.mod_lt _ row
  · obtain ⟨i, -, same⟩ := List.mem_map.mp mem
    simp only [Prod.mk.injEq] at same
    obtain ⟨sameRow, sameCol, rfl⟩ := same
    have index : start + i = start + j := by
      rw [← Nat.div_add_mod (start + i) t.rowLen, sameRow, sameCol, Nat.div_add_mod]
    rw [Nat.add_left_cancel index]

/-- A tensor under another descriptor byte. -/
def Tensor.inFmt (t : Tensor) (fmt : Nat) : Tensor := { t with desc := fmt }

theorem Tensor.inFmt_d (t : Tensor) {fmt : Nat} {d : Desc} (h : Desc.ofByte fmt = some d) : (t.inFmt fmt).d = d := by
  rw [Tensor.d, Tensor.inFmt, h]
  rfl

/-- What a tensor is after codes were stored in it in another format. -/
def Ctx.stored (c : Ctx) (tid fmt start : Nat) (codes : List Nat) : Tensor := putWords ((c.open_ tid).inFmt fmt) start codes

/-- A context whose tensor was stored so has its elements, code by code. -/
theorem elemCode_stored {c c' : Ctx} {tid fmt start n : Nat} {g : Nat → Nat} {d : Desc} (desc : Desc.ofByte fmt = some d)
    (wide : d.fmt.perByte = 1) (row : 0 < (c.open_ tid).rowLen)
    (h : c'.tensors.find tid = (c.putTensor tid (c.stored tid fmt start ((List.range n).map g))).tensors.find tid) {j : Nat} (hj : j < n) :
    elemCode (c'.open_ tid) (start + j) = g j % 256 ^ d.fmt.bytes := by
  have full : c.stored tid fmt start ((List.range n).map g) ≠ {} := by
    intro empty
    have byte := (putWords_desc ((c.open_ tid).inFmt fmt) start ((List.range n).map g)).symm.trans (congrArg Tensor.desc empty)
    exact desc_ne_zero desc byte
  have tensor : c'.open_ tid = c.stored tid fmt start ((List.range n).map g) := by
    rw [Ctx.open_, h, Ctx.putTensor, SMap.put, if_neg full, SMap.find_insert_same]
  have d' := (c.open_ tid).inFmt_d desc
  rw [tensor, Ctx.stored, elemCode_putWords (t := (c.open_ tid).inFmt fmt) (by rw [d', wide]) row start g hj, d']

/-! FP32 results (R40, R118). -/

theorem fp32D_byte : Desc.ofByte fp32D.toByte = some fp32D := by decide

/-- A tensor without scales has no gauge to survey (R91). -/
theorem view_survey_unscaled (c : Ctx) (w : WoHdr) (tid : Nat) {t : Tensor} (plain : t.d.grain ≠ 0) : (c.view w tid t).survey = false := by
  unfold Ctx.view
  dsimp only
  split <;> simp [plain]

/-- Values stored in FP32, outside a forward pass of an attempt. -/
theorem storeVals_fp32 {c : Ctx} {w : WoHdr} (noCopy : w.phase ≠ 0 ∨ c.attempt = none) (tid start : Nat) (vals : List Fp) (d : WoDone) :
    storeVals c w tid fp32D.toByte start vals d =
      storeWide c tid ((c.open_ tid).inFmt fp32D.toByte) .fp32 (fromIdx start vals) d := by
  have desc := (c.open_ tid).inFmt_d fp32D_byte
  have one : storeOne c w tid fp32D.toByte (fromIdx start vals) d =
      storeWide c tid ((c.open_ tid).inFmt fp32D.toByte) .fp32 (fromIdx start vals) d := by
    have fmt : ((c.open_ tid).inFmt fp32D.toByte).d.fmt = .fp32 := congrArg Desc.fmt desc
    unfold storeOne
    dsimp only
    split
    · rfl
    · next wrong => cases fmt.symm.trans wrong
    · next wrong _ => exact absurd fmt wrong
  have unsurveyed : (c.view w tid ((c.open_ tid).inFmt fp32D.toByte)).survey = false := view_survey_unscaled _ _ _ (by rw [desc]; decide)
  have noCopies := stackOuts_outside (c := (storeWide c tid ((c.open_ tid).inFmt fp32D.toByte) .fp32 (fromIdx start vals) d).1) noCopy tid
  change (if (c.view w tid ((c.open_ tid).inFmt fp32D.toByte)).survey then _ else _) = _
  rw [unsurveyed, if_neg Bool.false_ne_true, one, storeCopies, noCopies]
  rfl

theorem storeWide_codes (c : Ctx) (tid start : Nat) (qs : List Nat) (d : WoDone) :
    (storeWide c tid ((c.open_ tid).inFmt fp32D.toByte) .fp32 (fromIdx start (qs.map (fun q => fp32V (canon32 q)))) d).1 =
      c.putTensor tid (c.stored tid fp32D.toByte start (qs.map (fun q => canon32 q % 2 ^ 32))) := by
  have codes : (fromIdx start (qs.map (fun q => fp32V (canon32 q)))).map (fun p => (p.1, (convertWide .fp32 p.2).code)) =
      fromIdx start (qs.map (fun q => canon32 q % 2 ^ 32)) := by
    apply List.ext_getElem
    · simp [fromIdx]
    · intro i _ _
      simp [fromIdx, convertWide_fp32V]
  rw [storeWide, codes]
  rfl

/-- What an element-wise work order with FP32 results leaves of its context: OUT stored, its header, no attempt begun. -/
theorem ewRun_fp32 {k : Nat} {f : EwIn → EwOut} {c : Ctx} {w : WoHdr} {a : EwArgs} {qs : List Nat} (noCopy : w.phase ≠ 0 ∨ c.attempt = none)
    (fmt : a.outFmt = fp32D.toByte) (apart : a.aux ≠ a.out) (snd : (f (ewInputs k c a).1).snd = [])
    (out : (f (ewInputs k c a).1).out = qs.map (fun q => fp32V (canon32 q))) :
    let r := ewRun k f c w a
    r.2.w = w ∧ r.1.attempt = c.attempt ∧
      r.1.tensors.find a.out = (c.putTensor a.out (c.stored a.out a.outFmt a.start (qs.map (fun q => canon32 q % 2 ^ 32)))).tensors.find a.out := by
  have stored := storeWide_codes c a.out a.start qs { w := w, kind := 1, tally := (ewInputs k c a).2, flags := (f (ewInputs k c a).1).flags }
  dsimp only
  unfold ewRun ewFinish
  simp only [snd, out, fmt, storeVals_fp32 noCopy, List.isEmpty_nil, Bool.true_or, Bool.false_eq_true, if_true, if_false]
  split
  · rw [stored]
    exact ⟨rfl, rfl, rfl⟩
  · rw [stored]
    exact ⟨rfl, rfl, SMap.find_put_ne _ apart.symm _ _⟩

end Sys2Proof.Machine
end

section
/-! O42: the values of exact element-wise and IEEE work orders (R154, R241, R242, R268, R269). -/

namespace Sys2Proof.Machine

/-! The exact operations (R154, R269). -/

/-- The command is an element-wise work order that computes, from what it reads, FP32 results: of a list of codes, each made canonical. -/
def Computes (i : Instr) (op : Nat) (w : WoHdr) (a : EwArgs) (codes : EwIn → List Nat) : Prop :=
  ∃ two three f, (∀ s, exec i s = .next (ewWork op two three (ewRun 0 f) w a s)) ∧
    ∀ d, d.p0 = a.p0 → d.p1 = a.p1 → (f d).snd = [] ∧ (f d).out = (codes d).map (fun q => fp32V (canon32 q))

theorem canon32_clampRes (p0 p1 x : Nat) : canon32 (clampRes p0 p1 x).1 = canon32 (ieeeMin .fp32 (ieeeMax .fp32 x p0).1 p1).1 :=
  canon32_ieeeMin_canon32 ..

theorem canon32_leakyRes (p x : Nat) : canon32 (leakyRes p x).1 =
    canon32 (if (fp32V x).isNan then x else if (fp32V x).sign then f32mul x p else x) := by
  unfold leakyRes
  split
  · rfl
  · split
    · exact (canon32_idem _).symm
    · rfl

theorem canon32_mseRes (x y : Nat) : canon32 (mseRes x y).1 = canon32 (f32mul (f32sub x y) (f32sub x y)) := (canon32_idem _).symm

/-- In the order of the definition: NEG, ABS, SQRT, CLAMP, RELU, LEAKY. -/
theorem ewUnary_computes {i : Instr} {op : Nat} {w : WoHdr} {a : EwArgs} {f : Nat → Nat} (order : ewOrder i = some (op, w, a))
    (unary : ewUnary a.p0 a.p1 i = some f) : Computes i op w a (fun d => d.x.map f) := by
  have plain (g : Nat → Nat) (d : EwIn) : (ew1 g d).out = (d.x.map g).map (fun q => fp32V (canon32 q)) := by simp [ew1]
  have flagged (g : Nat → Res) (d : EwIn) : (ew1f g d).out = d.x.map (fun x => fp32V (canon32 (g x).1)) := by simp [ew1f, ewRes]
  unfold ewUnary at unary
  split at unary
  case h_1 | h_2 | h_5 => cases order; cases unary; exact ⟨_, _, _, fun _ => rfl, fun d _ _ => ⟨rfl, plain ..⟩⟩
  case h_3 => cases order; cases unary; exact ⟨_, _, _, fun _ => rfl, fun d _ _ => ⟨rfl, by simp [flagged]⟩⟩
  case h_4 =>
    cases order; cases unary
    exact ⟨_, _, _, fun _ => rfl, fun d p0 p1 => ⟨rfl, by simp [flagged, p0, p1, canon32_clampRes]⟩⟩
  case h_6 =>
    cases order; cases unary
    exact ⟨_, _, _, fun _ => rfl, fun d p0 _ => ⟨rfl, by simp [ewActf, flagged, p0, canon32_leakyRes]⟩⟩
  case h_7 => cases unary

/-- In the order of the definition: ADD, SUB, MUL, DIV, MIN, MAX, MSE. -/
theorem ewBinary_computes {i : Instr} {op : Nat} {w : WoHdr} {a : EwArgs} {f : Nat → Nat → Nat} (order : ewOrder i = some (op, w, a))
    (binary : ewBinary i = some f) : Computes i op w a (fun d => (d.x.zip d.y).map (fun p => f p.1 p.2)) := by
  have plain (g : Nat → Nat → Res) (d : EwIn) :
      (ew2 g d).out = ((d.x.zip d.y).map (fun p => (g p.1 p.2).1)).map (fun q => fp32V (canon32 q)) := by
    simp [ew2, ewRes]
  unfold ewBinary at binary
  split at binary
  case h_7 =>
    cases order; cases binary
    refine ⟨_, _, _, fun _ => rfl, fun d _ _ => ⟨rfl, ?_⟩⟩
    simp [plain, canon32_mseRes]
  case h_8 => cases binary
  all_goals
    cases order; cases binary
    exact ⟨_, _, _, fun _ => rfl, fun d _ _ => ⟨rfl, plain ..⟩⟩

/-- A ready work order that computes FP32 results stores them in OUT from START on. -/
theorem computes_elements {i : Instr} {op : Nat} {w : WoHdr} {a : EwArgs} {codes : EwIn → List Nat} {s : State} {g : Nat → Nat}
    (runs : Computes i op w a codes) (ready : readyWork s w 3) (rnd : (Rnd.ofCode w.rnd).isSome = true)
    (ok : ewStatus (getCtx s w.ctx) op a = 0) (fmt : a.outFmt = fp32D.toByte) (row : 0 < ((getCtx s w.ctx).open_ a.out).rowLen)
    (apart : a.aux ≠ a.out) (values : codes (ewInputs 0 (getCtx s w.ctx) a).1 = (List.range a.count).map g) :
    ∃ t, exec i s = .next t ∧ ∀ j, j < a.count → elemCode ((getCtx t w.ctx).open_ a.out) (a.start + j) = canon32 (g j) % 2 ^ 32 := by
  obtain ⟨two, three, f, exec_, results⟩ := runs
  obtain ⟨snd, out⟩ := results (ewInputs 0 (getCtx s w.ctx) a).1 rfl rfl
  obtain ⟨hw, attempt, stored⟩ := ewRun_fp32 (w := (takeQueued s w 3).2) (by rw [takeQueued_phase]; exact readyWork_noCopy ready) fmt apart snd out
  have ctx := getCtx_ewWork (two := two) (three := three) ready rnd ok hw (fun none_ => attempt.trans none_)
  refine ⟨_, exec_ s, fun j hj => ?_⟩
  rw [values, List.map_map] at stored
  rw [ctx]
  refine (elemCode_stored (c := getCtx s w.ctx) (g := fun j => canon32 (g j) % 2 ^ 32) (by rw [fmt, fp32D_byte]) (by rfl) row stored hj).trans ?_
  exact Nat.mod_mod ..

/-! The IEEE operations (R241, R242, R269). -/

theorem ieeeInput_length (f : FFmt) (c : Ctx) (tid p0 start n : Nat) : (ieeeInput f c tid p0 start n).length = n := by
  unfold ieeeInput
  dsimp only
  split <;> simp [rawCodes]

theorem eq_map_range_getD {α : Type} (l : List α) (x : α) : l = (List.range l.length).map (fun j => l.getD j x) := by
  apply List.ext_getElem
  · simp
  · intro j h _
    rw [List.getElem_map, List.getElem_range, List.getD_eq_getElem _ _ h]

/-- Operand j of an IEEE work order, as it is read. -/
def ieeeOperand (f : FFmt) (c : Ctx) (a : EwArgs) (tid p0 j : Nat) : Res := (ieeeInput f c tid p0 a.start a.count).getD j (0, {})

theorem ieeeInput_eq (f : FFmt) (c : Ctx) (a : EwArgs) (tid p0 : Nat) :
    ieeeInput f c tid p0 a.start a.count = (List.range a.count).map (ieeeOperand f c a tid p0) := by
  have all := eq_map_range_getD (ieeeInput f c tid p0 a.start a.count) (0, {})
  rwa [ieeeInput_length] at all

theorem ewIeee_runs {i : Instr} {op : Nat} {w : WoHdr} {a : EwArgs} {f : FFmt → Rnd → Nat → Nat → Nat → Res}
    (order : ewOrder i = some (op, w, a)) (ieee : ewIeee i = some f) :
    0x50 ≤ op ∧ ∀ s, exec i s = .next (ieeeWork op (ieeeRun false (ieeeOperands i) f) w a s) := by
  unfold ewIeee at ieee
  split at ieee
  case h_9 => cases ieee
  all_goals
    cases order; cases ieee
    exact ⟨by decide, fun _ => rfl⟩

/-- The format of the joiners behind a descriptor. -/
def ieeeFmt (d : Desc) : FFmt := if d.fmt = .fp64 then .fp64 else if d.fmt = .fp16 then .fp16 else .fp32

theorem joinerFmt_of_desc {b : Nat} {d : Desc} (desc : Desc.ofByte b = some d) : joinerFmt { desc := b } = ieeeFmt d := by
  have fmt : (Tensor.d { desc := b }).fmt = d.fmt := by rw [Tensor.d, desc]; rfl
  unfold joinerFmt ieeeFmt
  split
  · next h => rw [← fmt, h]; rfl
  · next h => rw [← fmt, h]; rfl
  · next no64 no16 => rw [← fmt, if_neg no64, if_neg no16]

/-- The joiners' formats take a byte or more, all their bits. -/
theorem ieeeFmt_bytes {d : Desc} (joiner : d.fmt = .fp64 ∨ d.fmt = .fp16 ∨ d.fmt = .fp32) :
    d.fmt.perByte = 1 ∧ 256 ^ d.fmt.bytes = 2 ^ (ieeeFmt d).width := by
  unfold ieeeFmt
  rcases joiner with h | h | h <;> rw [h] <;> decide

/-- Element j of an IEEE work order of n operands: its result, with all flags that it raises, the operands' widening included (R242). A place
beyond the operands reads IN0's. -/
def ieeeElem (n : Nat) (f : FFmt → Rnd → Nat → Nat → Nat → Res) (d : Desc) (r : Rnd) (c : Ctx) (a : EwArgs) (j : Nat) : Res :=
  let x := ieeeOperand (ieeeFmt d) c a a.in0 a.p0 j
  let y := if n < 2 then x else ieeeOperand (ieeeFmt d) c a a.in1 a.p0 j
  let z := if n < 3 then x else ieeeOperand (ieeeFmt d) c a a.in2 0 j
  let q := f (ieeeFmt d) r x.1 y.1 z.1
  (q.1, ((q.2.or x.2).or y.2).or z.2)

/-- Operands that are read in a place of their own or taken from IN0's, element by element. -/
theorem ieeeInput_ite (p : Prop) [Decidable p] (f : FFmt) (c : Ctx) (a : EwArgs) (tid p0 tid' p0' : Nat) :
    (if p then ieeeInput f c tid p0 a.start a.count else ieeeInput f c tid' p0' a.start a.count) =
      (List.range a.count).map (fun j => if p then ieeeOperand f c a tid p0 j else ieeeOperand f c a tid' p0' j) := by
  simp only [ieeeInput_eq]
  split <;> rfl

/-- An IEEE work order stores its results in OUT, element by element, and gathers their flags. -/
theorem ieeeRun_eq (n : Nat) (f : FFmt → Rnd → Nat → Nat → Nat → Res) (c : Ctx) {w : WoHdr} {a : EwArgs} {r : Rnd} {d : Desc}
    (rounding : Rnd.ofCode w.rnd = some r) (desc : Desc.ofByte a.outFmt = some d) :
    ieeeRun false n f c w a =
      (c.putTensor a.out (c.stored a.out a.outFmt a.start ((List.range a.count).map (fun j => (ieeeElem n f d r c a j).1))),
        { w := w, kind := 1, flags := (List.range a.count).foldl (fun g j => g.or (ieeeElem n f d r c a j).2) {} }) := by
  have rnd : (Rnd.ofCode w.rnd).getD .rne = r := by rw [rounding]; rfl
  simp only [ieeeRun, Bool.false_eq_true, if_false, joinerFmt_of_desc desc, rnd, ieeeInput_ite]
  simp only [ieeeInput_eq, List.zip_map', List.map_map, List.foldl_map]
  rfl

/-- Every IEEE work order is exact: its report has the flags of its operations alone. -/
theorem withMicroFlags_ieee {op : Nat} (ieee : 0x50 ≤ op) (c : Ctx) (a : EwArgs) (d : WoDone) : withMicroFlags op c a d = d := by
  simp [withMicroFlags, ewExact, ieee]

/-- Settles O42: an exact operation stores its canonical results in FP32 unchanged, an IEEE operation its results in OUT's format. -/
theorem elementwiseWork : Obligations.ElementwiseWork := by
  unfold Obligations.ElementwiseWork
  constructor
  · intro i op w a s ready order rnd c fp32 x ok fmt desc0 own0 row apart
    have read0 : (ewInputs 0 c a).1.x = (List.range a.count).map x := readFp32_codes desc0 own0 ..
    refine ⟨fun f unary => ?_, fun f binary in1 => ?_⟩
    · refine computes_elements (g := fun j => f (x j)) (ewUnary_computes order unary) ready rnd ok fmt row apart ?_
      rw [read0, List.map_map]
      rfl
    · have read1 : (ewInputs 0 c a).1.y =
          (List.range a.count).map (fun j => if a.in1 = noTid then a.p0 else canon32 (elemCode (c.open_ a.in1) (a.start + j))) := by
        by_cases absent : a.in1 = noTid
        · simp [ewInputs, absent]
        · obtain ⟨desc1, own1⟩ := in1.resolve_left absent
          simp [ewInputs, absent, readFp32_codes desc1 own1]
      refine computes_elements (g := fun j => f (x j) (if a.in1 = noTid then a.p0 else canon32 (elemCode (c.open_ a.in1) (a.start + j))))
        (ewBinary_computes order binary) ready rnd ok fmt row apart ?_
      rw [read0, read1, List.zip_map', List.map_map]
      rfl
  · intro i op w a f r d s ready order ieee rounding desc c ff operand x y z res ok joiner row
    obtain ⟨isIeee, runs⟩ := ewIeee_runs order ieee
    obtain ⟨wide, bytes⟩ := ieeeFmt_bytes joiner
    obtain ⟨peg, header⟩ := takeQueued_header s w 3
    have run := ieeeRun_eq (ieeeOperands i) f c (w := (takeQueued s w 3).2) (by rw [header]; exact rounding) desc
    have ctx := getCtx_ewWork (two := true) (three := op == 0x54) (f := ieeeRun false (ieeeOperands i) f) ready (by rw [rounding]; rfl) ok
      (by rw [run]) (by rw [run]; exact id)
    rw [withMicroFlags_ieee isIeee, run] at ctx
    refine ⟨_, _, runs s, congrArg Ctx.done ctx, fun j hj => ?_, rfl⟩
    have stored := (congrArg (fun c : Ctx => c.tensors.find a.out) ctx :)
    refine (elemCode_stored (g := fun j => (ieeeElem (ieeeOperands i) f d r c a j).1) desc wide row stored hj).trans ?_
    rw [bytes]
    rfl

end Sys2Proof.Machine
end

section
/-! O10: the reference generator (R166, R180). GO keeps the block it started and the status, DONE writes the four words and the status. -/

namespace Sys2Proof.Machine

/-! The field that a register's low bits hold. -/

/-- Low bits that were replaced read what they were given. -/
theorem bits_setBits_low (x hi v : Nat) : bits (setBits x hi 0 v) hi 0 = v % 2 ^ (hi + 1) := by
  have rest : x - x % 2 ^ (hi + 1) = 2 ^ (hi + 1) * (x / 2 ^ (hi + 1)) := by
    have := Nat.div_add_mod x (2 ^ (hi + 1))
    omega
  simp [bits, setBits, rest]

/-- A field at the foot of an applied word reads what it was given. -/
theorem bits_regGet_setFld_low (s : State) (p : Page) (off : Nat) {hi : Nat} (word : hi < 32) (v : Nat) :
    bits (regGet (setFld s p off hi 0 v) p off) hi 0 = v % 2 ^ (hi + 1) := by
  rw [setFld, regGet_regSet, ← bits_setBits_low (regGet s p off) hi v]
  simp only [bits, Nat.shiftRight_zero, Nat.sub_zero]
  exact Nat.mod_mod_of_dvd _ (Nat.pow_dvd_pow 2 word)

theorem regGet_setFld_ne (s : State) {p q : Page} {off u : Nat} (other : q.base + u ≠ p.base + off) (hi lo v : Nat) :
    regGet (setFld s p off hi lo v) q u = regGet s q u := regGet_regSet_ne s p q off u _ other

/-! The block that a GO started. Its lemmas are about any block: a definitional check that meets `rnPhilox s` runs the ten rounds on symbols. -/

/-- The state that keeps another block for RN_OUT. -/
def withRnBlock (s : State) (block : Nat) : State := { s with regs := { s.regs with rnBlock := block } }

@[simp] theorem regGet_withRnBlock (s : State) (block : Nat) (p : Page) (off : Nat) :
    regGet (withRnBlock s block) p off = regGet s p off := rfl

/-- A block kept and a field written are in the registers alone. -/
theorem setFld_withRnBlock_frame (s : State) (block : Nat) (p : Page) (off hi lo v : Nat) :
    setFld (withRnBlock s block) p off hi lo v = { s with regs := (setFld (withRnBlock s block) p off hi lo v).regs } := rfl

/-- Word i of a stored block, the first word lowest. -/
def rnWord (block i : Nat) : Nat := block / 2 ^ (32 * i) % 2 ^ 32

theorem rnWord_mod (block i : Nat) : rnWord block i % 2 ^ 32 = rnWord block i := Nat.mod_mod _ _

/-- The words of a stored block are those it was made of. -/
theorem rnWord_packed (x0 x1 x2 x3 : Word) :
    (List.range 4).map (rnWord (x0.toNat + x1.toNat * 2 ^ 32 + x2.toNat * 2 ^ 64 + x3.toNat * 2 ^ 96)) =
      [x0.toNat, x1.toNat, x2.toNat, x3.toNat] := by
  have low0 : x0.toNat < 2 ^ 32 := x0.isLt
  have low1 : x1.toNat < 2 ^ 32 := x1.isLt
  have low2 : x2.toNat < 2 ^ 32 := x2.isLt
  have low3 : x3.toNat < 2 ^ 32 := x3.isLt
  simp only [List.range, List.range.loop, List.map, rnWord, List.cons.injEq, and_true]
  refine ⟨?_, ?_, ?_, ?_⟩ <;> omega

/-- The state whose output registers hold the words of the block that the last GO started. -/
def withRnOut (s : State) : State :=
  let out (t : State) (off i : Nat) : State := regSet t pgReference off (rnWord s.regs.rnBlock i)
  out (out (out (out s Reg.RN_OUT0 0) Reg.RN_OUT1 1) Reg.RN_OUT2 2) Reg.RN_OUT3 3

/-- The output registers lie apart from each other and from the status: a field written there leaves the words of the block. -/
theorem regGet_setFld_withRnOut (s : State) (hi lo v : Nat) :
    [Reg.RN_OUT0, Reg.RN_OUT1, Reg.RN_OUT2, Reg.RN_OUT3].map (regGet (setFld (withRnOut s) pgReference Reg.RN_STAT hi lo v) pgReference) =
      (List.range 4).map (rnWord s.regs.rnBlock) := by
  simp (disch := decide) only [List.range, List.range.loop, List.map, regGet_setFld_ne, withRnOut, regGet_regSet_ne, regGet_regSet, rnWord_mod]

/-! The two commands. -/

/-- GO starts a block of the operands as they stand, whether or not one is under way (log entry 176), and leaves the status at BUSY. -/
theorem exec_rnGo_starts {x : Word} {s : State} (up : deviceUp s = true) (go : x.getLsbD 0 = true) :
    exec (.rnGo x) s = .next (setFld (withRnBlock s (rnPhilox s)) pgReference Reg.RN_STAT 1 0 1) := by
  have set : bit x.toNat 0 = true := (bit_eq_testBit ..).trans go
  change execRnGo x s = _
  rw [execRnGo, if_pos up, rnGo, if_pos set]
  rfl

/-- The end of a block places its words and leaves the status at DONE. -/
theorem exec_rnDone_places {s : State} (up : deviceUp s = true) (busy : bit (regGet s pgReference Reg.RN_STAT) 0 = true) :
    exec .rnDone s = .next (setFld (withRnOut s) pgReference Reg.RN_STAT 1 0 2) := by
  change execRnDone s = _
  rw [execRnDone, if_pos up, rnDone, if_pos busy]
  rfl

/-- Settles O10: GO writes the block and RN_STAT alone; DONE writes the words of that block, which the write of RN_STAT leaves. -/
theorem referenceGenerator : Obligations.ReferenceGenerator := by
  unfold Obligations.ReferenceGenerator
  refine ⟨fun x s up go => ?started, fun b s up busy started => ?finished⟩
  case started =>
    exact ⟨_, exec_rnGo_starts up go, setFld_withRnBlock_frame .., bits_regGet_setFld_low _ _ _ (by decide) 1, rfl,
      fun q u other => (regGet_setFld_ne _ other 1 0 1).trans (regGet_withRnBlock ..)⟩
  case finished =>
    have outputs := regGet_setFld_withRnOut s 1 0 2
    rw [started, rnWord_packed] at outputs
    simp only [List.map, List.cons.injEq, and_true] at outputs
    exact ⟨_, exec_rnDone_places up busy, rfl, bits_regGet_setFld_low _ _ _ (by decide) 2, outputs⟩

end Sys2Proof.Machine
end

section
/-! O50: the residue of a block (R190). It is the weighted sum of the block mod 255; that sum is additive, and a change of one element by e changes it
by a power of two times e. -/

namespace Sys2Proof.Machine

/-! The weighted sum, of a block whose first element has index k. -/

/-- The weighted sum of the mantissas of a block (R190). -/
def weightedSum (k : Nat) (b : List Int) : Int := ((b.zipIdx k).map (fun x => ((2 ^ (x.2 % 8) : Nat) : Int) * x.1)).sum

@[simp] theorem weightedSum_nil (k : Nat) : weightedSum k [] = 0 := rfl

@[simp] theorem weightedSum_cons (k : Nat) (x : Int) (b : List Int) :
    weightedSum k (x :: b) = ((2 ^ (k % 8) : Nat) : Int) * x + weightedSum (k + 1) b := by
  simp [weightedSum]

theorem weightedSum_zipWith_add {a b : List Int} (same : a.length = b.length) (k : Nat) :
    weightedSum k (List.zipWith (· + ·) a b) = weightedSum k a + weightedSum k b := by
  induction a generalizing b k with
  | nil => simp [List.eq_nil_of_length_eq_zero same.symm]
  | cons x a ih =>
    cases b with
    | nil => cases same
    | cons y b =>
      rw [List.zipWith_cons_cons, weightedSum_cons, weightedSum_cons, weightedSum_cons, ih (Nat.succ.inj same), mul_add, add_add_add_comm]

theorem weightedSum_set {a : List Int} {j : Nat} {x : Int} (at_j : a[j]? = some x) (e : Int) (k : Nat) :
    weightedSum k (a.set j (x + e)) = weightedSum k a + ((2 ^ ((k + j) % 8) : Nat) : Int) * e := by
  induction a generalizing j k with
  | nil => cases at_j
  | cons y a ih =>
    cases j with
    | zero =>
      cases at_j
      rw [List.set_cons_zero, weightedSum_cons, weightedSum_cons, Nat.add_zero k, mul_add, add_right_comm]
    | succ j =>
      rw [List.set_cons_succ, weightedSum_cons, weightedSum_cons, ih at_j, Nat.add_right_comm k 1 j, Nat.add_assoc k j 1, add_assoc]

/-- A weight is a unit mod 255: an error that is no multiple of 255 is none when it is weighted. -/
theorem dvd_of_dvd_two_pow_mul {n : Nat} {e : Int} (h : (255 : Int) ∣ ((2 ^ n : Nat) : Int) * e) : (255 : Int) ∣ e :=
  (Nat.isCoprime_iff_coprime.mpr ((by decide : Nat.Coprime 255 2).pow_right n)).dvd_of_dvd_mul_left h

/-! The residue (R190). -/

theorem residueOf_poisoned {g : GroupRec} {a : List Int} (mark : poisoned g a = true) : residueOf g a = 0xFF := if_pos mark

theorem residueOf_clean {g : GroupRec} {a : List Int} (clean : poisoned g a = false) : (residueOf g a : Int) = weightedSum 0 a % 255 := by
  rw [residueOf, clean, if_neg Bool.false_ne_true]
  exact Int.toNat_of_nonneg (Int.emod_nonneg _ (by decide))

theorem residueOf_lt {g : GroupRec} {a : List Int} (clean : poisoned g a = false) : residueOf g a < 255 := by
  have := residueOf_clean clean
  omega

/-! Sums of blocks without the mark (R189, R190). -/

theorem poisoned_of_notMem {g : GroupRec} {a : List Int} (absent : poisonVal g ∉ a) : poisoned g a = false := by
  cases a with
  | nil => rfl
  | cons x a => simp [poisoned, Ne.symm (List.ne_of_not_mem_cons absent)]

theorem addBlocks_of_notMem {g : GroupRec} {a b : List Int} (absentA : poisonVal g ∉ a) (absentB : poisonVal g ∉ b) :
    addBlocks g a b = List.zipWith (· + ·) a b := by
  rw [addBlocks, ← List.map_uncurry_zip_eq_zipWith]
  refine List.map_congr_left fun x mem => if_neg ?_
  obtain ⟨memA, memB⟩ := List.of_mem_zip mem
  rintro (mark | mark)
  · exact absentA (mark ▸ memA)
  · exact absentB (mark ▸ memB)

theorem addResidues_of_lt {m n : Nat} (hm : m < 255) (hn : n < 255) : addResidues m n = (m + n) % 255 :=
  if_neg (by omega)

theorem residueOf_addBlocks {g : GroupRec} {a b : List Int} (same : a.length = b.length) (absentA : poisonVal g ∉ a) (absentB : poisonVal g ∉ b)
    (clean : poisoned g (addBlocks g a b) = false) : residueOf g (addBlocks g a b) = (residueOf g a + residueOf g b) % 255 := by
  have sum : weightedSum 0 (addBlocks g a b) = weightedSum 0 a + weightedSum 0 b := by
    rw [addBlocks_of_notMem absentA absentB, weightedSum_zipWith_add same]
  have whole := residueOf_clean clean
  have left := residueOf_clean (poisoned_of_notMem absentA)
  have right := residueOf_clean (poisoned_of_notMem absentB)
  omega

/-! A fault in one element (R190). -/

theorem residueOf_set_ne {g : GroupRec} {a : List Int} {j : Nat} {x e : Int} (at_j : a[j]? = some x) (fault : ¬ (255 : Int) ∣ e)
    (clean : poisoned g a = false) : residueOf g (a.set j (x + e)) ≠ residueOf g a := by
  cases mark : poisoned g (a.set j (x + e)) with
  | true => exact residueOf_poisoned mark ▸ (residueOf_lt clean).ne'
  | false =>
    intro equal
    have moved := residueOf_clean mark
    rw [equal, residueOf_clean clean, weightedSum_set at_j] at moved
    exact fault (dvd_of_dvd_two_pow_mul (n := (0 + j) % 8) (by omega))

/-- Settles O50: the residue is the weighted sum mod 255, which is additive and which a fault in one element moves by a unit times the error. -/
theorem blockResidues : Obligations.BlockResidues := by
  unfold Obligations.BlockResidues
  refine ⟨fun g a clean => ⟨residueOf_lt clean, ?weighted⟩, fun g a => residueOf_poisoned,
    fun g a b same absentA absentB clean => ⟨residueOf_addBlocks same absentA absentB clean, ?carried⟩, fun g a j x e => residueOf_set_ne⟩
  case weighted =>
    rw [residueOf_clean clean]
    exact (Int.mod_modEq (weightedSum 0 a) 255).symm.dvd
  case carried =>
    rw [residueOf_addBlocks same absentA absentB clean]
    exact addResidues_of_lt (residueOf_lt (poisoned_of_notMem absentA)) (residueOf_lt (poisoned_of_notMem absentB))

end Sys2Proof.Machine
end

section
/-! SUPPORT of O45 and O47. What a message that is sent leaves of the state, and how records stand in their rings (R342-R352, R373-R375). -/

namespace Sys2Proof.Machine

/-! Records and rings (R373-R375). -/

/-- The telemetry rings are as they were, but for the fault log's. -/
def sameRings (s t : State) : Prop := ∀ k, k ≠ ringKey 2 0xFFFF → t.host.devRings.get {} k = s.host.devRings.get {} k

theorem sameRings.refl (s : State) : sameRings s s := fun _ _ => rfl

theorem sameRings.trans {s t u : State} (h : sameRings s t) (k : sameRings t u) : sameRings s u := fun i other => (k i other).trans (h i other)

theorem sameRings.of_host {s t : State} (h : t.host = s.host) : sameRings s t := fun _ _ => by rw [h]

theorem sameRings.ite {s t u : State} {p : Prop} [Decidable p] (h : sameRings s t) (k : sameRings s u) : sameRings s (if p then t else u) := by
  split
  · exact h
  · exact k

theorem sameRings.foldl {α : Type} {f : State → α → State} (step : ∀ s x, sameRings s (f s x)) (l : List α) (s : State) :
    sameRings s (l.foldl f s) := by
  induction l generalizing s with
  | nil => exact .refl s
  | cons x l ih => exact (step s x).trans (ih _)

theorem setErrBit_host (s : State) (p : Page) (i : Nat) : (setErrBit s p i).host = s.host := by
  obtain ⟨r, e, h⟩ := setErrBit_only s p i
  rw [h]

/-- A record touches no ring but its own. -/
theorem pushRec_rings (s : State) (stream n : Nat) (b : List Byte) {k : Nat} (other : k ≠ ringKey stream n) :
    (pushRec s stream n b).host.devRings.get {} k = s.host.devRings.get {} k := by
  unfold pushRec
  dsimp only
  split
  · exact SMap.get_put_ne _ other ..
  · rw [setErrBit_host]
    exact SMap.get_put_ne _ other ..

/-- Making room for a record that fits the ring keeps it. -/
theorem getLast?_dropOld {r : TelRec} (fits : 16 + r.body.length ≤ devRingBytes) (n k : Nat) (l : List TelRec) :
    (dropOld n (l ++ [r]) k).1.getLast? = some r := by
  induction n generalizing l k with
  | zero => exact List.getLast?_concat
  | succ n ih =>
    unfold dropOld
    split
    · exact List.getLast?_concat
    · next full =>
      cases l with
      | nil => exact absurd (by simpa using fits) full
      | cons x l => exact ih (k + 1) l

/-- A record that fits its ring is the ring's newest (R375). -/
theorem lastRec_pushRec (s : State) (stream n : Nat) {b : List Byte} (fits : 16 + b.length ≤ devRingBytes) :
    lastRec (pushRec s stream n b) stream n = some ⟨stream, n, b, s.power.tick⟩ := by
  have last := getLast?_dropOld (r := ⟨stream, n, b, s.power.tick⟩) fits
    ((s.host.devRings.get {} (ringKey stream n)).recs.length + 1) 0 (s.host.devRings.get {} (ringKey stream n)).recs
  unfold lastRec pushRec
  dsimp only
  split
  · rwa [SMap.get_put_same]
  · rwa [setErrBit_host, SMap.get_put_same]

/-! Messages (R342-R352). -/

/-- Messages have left: counters and errors, event lines, links, routes, what is put out and the fault log apart, nothing has changed. -/
structure Sent (s t : State) : Prop where
  only : t = { s with regs := t.regs, ec := t.ec, links := t.links, router := t.router, out := t.out,
                      host := { s.host with devRings := t.host.devRings } }
  rings : sameRings s t

theorem Sent.refl (s : State) : Sent s s := ⟨rfl, .refl s⟩

theorem Sent.trans {s t u : State} (h : Sent s t) (k : Sent t u) : Sent s u where
  only := by rw [k.only, h.only]
  rings := h.rings.trans k.rings

theorem Sent.foldl {α : Type} {f : State → α → State} (step : ∀ s x, Sent s (f s x)) (l : List α) (s : State) : Sent s (l.foldl f s) := by
  induction l generalizing s with
  | nil => exact .refl s
  | cons x l ih => exact (step s x).trans (ih _)

theorem Sent.pegs {s t : State} (h : Sent s t) : t.pegs = s.pegs := by rw [h.only]
theorem Sent.pegRefs {s t : State} (h : Sent s t) : t.pegRefs = s.pegRefs := by rw [h.only]
theorem Sent.nextRef {s t : State} (h : Sent s t) : t.nextRef = s.nextRef := by rw [h.only]

theorem sent_bump64 (s : State) (p : Page) (o n : Nat) : Sent s (bump64 s p o n) := by
  obtain ⟨r, h⟩ := bump64_only s p o n
  rw [h]
  exact ⟨rfl, .of_host rfl⟩

theorem sent_setErrBit (s : State) (p : Page) (i : Nat) : Sent s (setErrBit s p i) := by
  obtain ⟨r, e, h⟩ := setErrBit_only s p i
  rw [h]
  exact ⟨rfl, .of_host rfl⟩

theorem sent_putLink (s : State) (n : Nat) (l : Link) : Sent s (putLink s n l) := ⟨rfl, .of_host rfl⟩

theorem sent_emit (s : State) (o : Out) : Sent s (emit s o) := ⟨rfl, .of_host rfl⟩

theorem sent_logFault (s : State) (f : FaultRec) : Sent s (logFault s f) where
  only := by
    obtain ⟨r, e, d, h⟩ := logFault_only s f
    rw [h]
  rings _ other := pushRec_rings s 2 0xFFFF _ other

theorem sent_setErr (s : State) (p : Page) (i : Nat) : Sent s (setErr s p i) := by
  unfold setErr
  split
  · exact .refl s
  · dsimp only
    split
    · exact (sent_setErrBit s p i).trans (sent_logFault ..)
    · exact sent_setErrBit s p i

theorem sent_launch (s : State) (n : Nat) (l : Link) (f : Flit) : Sent s (launch s n l f) :=
  (sent_putLink s n _).trans ((sent_bump64 ..).trans (sent_emit ..))

theorem sent_pump (n k : Nat) (s : State) : Sent s (pump n k s) := by
  induction k generalizing s with
  | zero => exact .refl s
  | succ k ih =>
    unfold pump
    dsimp only
    split
    · exact .refl s
    · split
      · exact .refl s
      · exact (sent_launch ..).trans (ih _)

theorem sent_enqueueFlit (s : State) (n : Nat) (f : Flit) : Sent s (enqueueFlit s n f) := by
  unfold enqueueFlit
  dsimp only
  refine Sent.trans ?_ (sent_pump ..)
  split
  · exact (sent_putLink ..).trans (sent_setErr ..)
  · exact sent_putLink ..

theorem sent_sendOn (s : State) (link dst tc proto n : Nat) (dateline : Bool) (m : Msg) : Sent s (sendOn s link dst tc proto n dateline m) := by
  have numbered (r : Router) : Sent s { s with router := r } := ⟨rfl, .of_host rfl⟩
  exact (numbered _).trans ((sent_emit ..).trans (.foldl (fun t f => sent_enqueueFlit t link _) _ _))

theorem sent_sendRouted (s : State) (dst tc proto n : Nat) (m : Msg) : Sent s (sendRouted s dst tc proto n m) := by
  unfold sendRouted
  split
  · exact .refl s
  · split
    · exact sent_sendOn ..
    · exact sent_setErr ..

/-! Peg operations log faults and write no other record (R379, R380). -/

theorem sameRings_endWait (status : Nat) (s : State) (x : PegWait) : sameRings s (endWait status s x) := by
  unfold endWait
  split
  · exact (sent_sendRouted ..).rings
  · split
    · exact .of_host rfl
    · exact .refl s

theorem sameRings_settlePeg (s : State) (k : Nat) : sameRings s (settlePeg s k) := by
  have ended (p : Peg) (l : List PegWait) : sameRings s (updateGroup (l.foldl (endWait 0) (putPeg s k p)) k) :=
    sameRings.trans (t := putPeg s k p) (.of_host rfl) ((sameRings.foldl (sameRings_endWait 0) l _).trans (.of_host rfl))
  unfold settlePeg
  dsimp only
  split
  · exact ended _ _
  · exact .of_host rfl

theorem sameRings_applyPeg (s : State) (k : Nat) (op : PegOp) (v : Nat) (x : PegWait) : sameRings s (applyPeg s k op v x).s := by
  have stored (p : Peg) : sameRings s (putPeg s k p) := .of_host rfl
  cases op with
  | arrive =>
    dsimp only [applyPeg]
    split
    · exact .refl s
    · exact sameRings.trans (.ite ((stored _).trans (sent_setErr ..).rings) (stored _)) (sameRings_settlePeg _ k)
  | wait =>
    dsimp only [applyPeg]
    split
    · exact sameRings_endWait 0 s x
    · exact stored _
  | set | reset => exact (stored _).trans (sameRings_settlePeg _ k)
  | query => exact .refl s

theorem sameRings_pegOpOn (s : State) (k tag : Nat) (op : PegOp) (v : Nat) (x : PegWait) : sameRings s (pegOpOn s k tag op v x).s := by
  simp only [pegOpOn, apply_ite PegAns.s]
  exact .ite (sent_setErr ..).rings (.ite (sent_setErr ..).rings (.ite (sent_setErr ..).rings (sameRings_applyPeg s k op v x)))

end Sys2Proof.Machine
end

section
/-! SUPPORT of O45, O46 and O47. What a peg operation does to its peg and to no other, and how it is refused (R379, R380, R382). -/

namespace Sys2Proof.Machine

theorem pegs_of_besideTraffic {s t : State} (h : besideTraffic t = besideTraffic s) : t.pegs = s.pegs := (congrArg State.pegs h :)

theorem getPeg_congr {s t : State} (h : t.pegs = s.pegs) (k : Nat) : getPeg t k = getPeg s k := by rw [getPeg, getPeg, h]

/-! After an operation (R380). -/

/-- A peg at its target is reached, its waits over (R380). -/
def Peg.settled (p : Peg) : Peg := if p.target ≤ p.count ∧ p.reached = false then { p with reached := true, waits := [] } else p

theorem getPeg_settlePeg (s : State) (k : Nat) : getPeg (settlePeg s k) k = (getPeg s k).settled := by
  unfold settlePeg Peg.settled
  simp only [Bool.and_eq_true, decide_eq_true_eq, Bool.not_eq_true']
  split
  · rw [getPeg_updateGroup, getPeg_endWaits, getPeg_putPeg]
  · rfl

theorem getPeg_settlePeg_ne (s : State) {j k : Nat} (other : j ≠ k) : getPeg (settlePeg s k) j = getPeg s j := by
  unfold settlePeg
  dsimp only
  split
  · rw [getPeg_updateGroup, getPeg_endWaits, getPeg_putPeg_ne _ other]
  · rfl

theorem Peg.settled_only (p : Peg) : p.settled = { p with reached := p.reached || decide (p.target ≤ p.count), waits := p.settled.waits } := by
  unfold settled
  split
  · next h => simp [h]
  · next h =>
    have same : (p.reached || decide (p.target ≤ p.count)) = p.reached := by
      cases hr : p.reached <;> simp_all
    rw [same]

theorem Peg.settled_waits {p : Peg} (notYet : p.reached = false) (now : p.settled.reached = true) : p.settled.waits = [] := by
  unfold settled at now ⊢
  split at now
  · next h => rw [if_pos h]
  · simp [notYet] at now

/-! The operations (R379). -/

/-- What every operation leaves: other pegs, whose this one is, its binding; a peg that is reached now has no waits left (R380). -/
def pegFrame (s t : State) (k : Nat) : Prop :=
  (∀ j, j ≠ k → getPeg t j = getPeg s j) ∧ (getPeg t k).owner = (getPeg s k).owner ∧ (getPeg t k).bound = (getPeg s k).bound ∧
    ((getPeg s k).reached = false → (getPeg t k).reached = true → (getPeg t k).waits = [])

section
variable {s t : State} {k : Nat}

theorem pegFrame.of_pegs (same : ∀ j, getPeg t j = getPeg s j) : pegFrame s t k :=
  ⟨fun j _ => same j, by rw [same], by rw [same], fun before now => by rw [same, before] at now; cases now⟩

/-- An operation that stores its peg anew and settles it: what it stored, but for REACHED and the waits. -/
theorem settlePeg_stored {p : Peg} (stored : ∀ j, getPeg t j = getPeg (putPeg s k p) j) (owner : p.owner = (getPeg s k).owner)
    (bound : p.bound = (getPeg s k).bound) (notYet : (getPeg s k).reached = false → p.reached = false) :
    pegFrame s (settlePeg t k) k ∧
      ∃ waits, getPeg (settlePeg t k) k = { p with reached := p.reached || decide (p.target ≤ p.count), waits := waits } := by
  have own : getPeg (settlePeg t k) k = p.settled := by rw [getPeg_settlePeg, stored, getPeg_putPeg]
  refine ⟨⟨fun j other => ?_, ?_, ?_, fun before now => ?_⟩, _, own.trans (Peg.settled_only p)⟩
  · rw [getPeg_settlePeg_ne t other, stored, getPeg_putPeg_ne s other]
  · rw [own, Peg.settled_only, owner]
  · rw [own, Peg.settled_only, bound]
  · rw [own] at now ⊢
    exact Peg.settled_waits (notYet before) now

end

/-- A peg that an arrive has counted on. -/
def Peg.counted (p : Peg) (v : Nat) : Peg := { p with count := min (p.count + (if v = 0 then 1 else v)) 0xFFFFFFFF }

/-- A peg with a new target. -/
def Peg.retargeted (p : Peg) (v : Nat) : Peg := { p with target := v, reached := p.reached && decide (v ≤ p.count) }

/-- A peg that counts from 0 again. -/
def Peg.cleared (p : Peg) : Peg := { p with count := 0, reached := false, closed := false }

/-- An arrive on an open peg counts, at most to the largest count, and settles it (R379). -/
theorem applyPeg_arrive_open {s : State} {k : Nat} (open_ : (getPeg s k).closed ≠ true) (v : Nat) (x : PegWait) :
    ∃ t, (applyPeg s k .arrive v x).s = settlePeg t k ∧ ∀ j, getPeg t j = getPeg (putPeg s k ((getPeg s k).counted v)) j :=
  ⟨_, by rw [applyPeg, if_neg open_], getPeg_of_besideTraffic (by rw [besideTraffic_ite, besideTraffic_setErr, ite_self]; rfl)⟩

/-- An operation that passes its tests has the effect of R379 and R380. -/
theorem applyPeg_effect (s : State) (k : Nat) (op : PegOp) (v : Nat) (x : PegWait) : pegEffect s (applyPeg s k op v x).s k op v x := by
  cases op with
  | arrive =>
    by_cases closed : (getPeg s k).closed = true
    · rw [applyPeg, if_pos closed]
      obtain ⟨others, owner, bound, released⟩ := pegFrame.of_pegs (s := s) (t := s) (k := k) fun _ => rfl
      exact ⟨others, owner, bound, released, fun _ => rfl, fun open_ => by rw [closed] at open_; cases open_⟩
    · obtain ⟨t, settles, counted⟩ := applyPeg_arrive_open closed v x
      obtain ⟨⟨others, owner, bound, released⟩, waits, after⟩ := settlePeg_stored counted rfl rfl id
      rw [settles]
      exact ⟨others, owner, bound, released, fun yes => absurd yes closed, fun _ => by rw [after]; exact ⟨rfl, rfl, rfl⟩⟩
  | wait =>
    by_cases atTarget : (getPeg s k).target ≤ (getPeg s k).count
    · rw [applyPeg, if_pos atTarget]
      obtain ⟨others, owner, bound, released⟩ := pegFrame.of_pegs (k := k) (getPeg_endWait 0 s x)
      exact ⟨others, owner, bound, released, fun _ => getPeg_endWait 0 s x k, fun short => absurd atTarget (Nat.not_le.mpr short)⟩
    · rw [applyPeg, if_neg atTarget]
      refine ⟨fun j other => getPeg_putPeg_ne s other _, by rw [getPeg_putPeg], by rw [getPeg_putPeg], fun before now => ?_,
        fun reached => absurd reached atTarget, fun _ => getPeg_putPeg ..⟩
      rw [getPeg_putPeg, before] at now
      cases now
  | set =>
    obtain ⟨⟨others, owner, bound, released⟩, waits, after⟩ := settlePeg_stored (p := (getPeg s k).retargeted v) (fun _ => rfl) rfl rfl
      fun before => by rw [Peg.retargeted, before]; rfl
    refine ⟨others, owner, bound, released, (congrArg Peg.count after :), (congrArg Peg.target after :), (congrArg Peg.reached after :).trans ?_⟩
    cases was : (getPeg s k).reached <;> simp [Peg.retargeted, was]
  | reset =>
    obtain ⟨⟨others, owner, bound, released⟩, waits, after⟩ := settlePeg_stored (p := (getPeg s k).cleared) (fun _ => rfl) rfl rfl
      fun _ => rfl
    exact ⟨others, owner, bound, released, (congrArg Peg.count after :), (congrArg Peg.target after :), (congrArg Peg.closed after :),
      (congrArg Peg.reached after :).trans (by simp [Peg.cleared])⟩
  | query =>
    obtain ⟨others, owner, bound, released⟩ := pegFrame.of_pegs (s := s) (t := s) (k := k) fun _ => rfl
    exact ⟨others, owner, bound, released, rfl⟩

/-- An effect is about the pegs alone. -/
theorem pegEffect.of_pegs {s s' t t' : State} {k : Nat} {op : PegOp} {v : Nat} {x : PegWait} (h : pegEffect s t k op v x)
    (before : s'.pegs = s.pegs) (after : t'.pegs = t.pegs) : pegEffect s' t' k op v x := by
  unfold pegEffect getPeg at *
  rwa [before, after]

/-! The tests (R382). -/

/-- The error bit of a peg's hall that goes with the status of a failed test. -/
def pegErrBit (status : Nat) : Nat := if status = 0x21 then 2 else if status = 0x1A then 3 else 0

theorem pegOpOn_refused {s : State} {k tag : Nat} (fails : pegStatus s k tag ≠ 0) (op : PegOp) (v : Nat) (x : PegWait) :
    pegOpOn s k tag op v x = { s := setErr s (pegPg k) (pegErrBit (pegStatus s k tag)), status := pegStatus s k tag } := by
  unfold pegStatus at fails ⊢
  unfold pegOpOn
  split at fails
  · next fenced => rw [if_pos fenced, if_pos fenced]; rfl
  · next notFenced =>
    rw [if_neg notFenced, if_neg notFenced]
    split at fails
    · next free => rw [if_pos (by rw [free]; rfl), if_pos free]; rfl
    · next bound =>
      rw [if_neg (by simpa using bound), if_neg bound]
      split at fails
      · next stranger => rw [if_pos stranger, if_pos stranger]; rfl
      · exact absurd rfl fails

/-- The bit of a failed test is set in the error register of the peg's hall (R382, R430). -/
theorem setErr_pegErrBit (s : State) (k status : Nat) :
    bit (regGet (setErr s (pegPg k) (pegErrBit status)) (pegPg k) (errOff (pegPg k).kind)) (pegErrBit status) = true := by
  have low : pegErrBit status < 32 := by
    unfold pegErrBit
    split
    · decide
    · split <;> decide
  have port : apart (pegPg k) pgHost := hallPages_apart_port (by simp only [pegPg, pgPeg, hallBase]; omega)
  have reg : errOff (pegPg k).kind < 0x1000 := (by decide : errOff 0x34 < 0x1000)
  exact setErr_bit s (pegPg k) _ low (by decide : errOff 0x34 ≠ Reg.EVT_PEND) (.inr ⟨port.ne reg (by decide), port.ne reg (by decide)⟩)

/-! Work orders of peg operations (R379, R383). -/

section
variable {s : State} {w : WoHdr} {op : PegOp} {a : PegArgs} {k : Nat}

/-- The report of a peg operation that was carried out: a query's with what it read. -/
def pegReport (s : State) (w : WoHdr) (op : PegOp) (k : Nat) : WoDone :=
  { w := w, kind := 4, always := op == .query, c0 := if op = .query then (getPeg s k).count else 0,
    c1 := if op = .query then (getPeg s k).target else 0 }

/-- The wait of a work order that is itself a wait. -/
def ownWait (w : WoHdr) : PegWait := { ctx := w.ctx, op := true, w := w }

theorem applyPeg_status (s : State) (k : Nat) (op : PegOp) (v : Nat) (x : PegWait) : (applyPeg s k op v x).status = 0 := by
  cases op with
  | arrive | wait => dsimp only [applyPeg]; split <;> rfl
  | set | reset | query => rfl

theorem applyPeg_held (s : State) (k : Nat) (op : PegOp) (v : Nat) (x : PegWait) (other : op ≠ .wait) : (applyPeg s k op v x).held = false := by
  cases op with
  | arrive => dsimp only [applyPeg]; split <;> rfl
  | wait => exact absurd rfl other
  | set | reset | query => rfl

theorem localPegOp_wait (key : pegKeyOf (getCtx s w.ctx) a.peg = some k) (passes : pegStatus s k (ctxTag s w.ctx) = 0) :
    localPegOp s w .wait a = (applyPeg s k .wait a.value (ownWait w)).s := by
  unfold localPegOp
  simp only [key, pegOpOn_applies passes, applyPeg_status]
  exact ite_self _

theorem localPegOp_other (key : pegKeyOf (getCtx s w.ctx) a.peg = some k) (passes : pegStatus s k (ctxTag s w.ctx) = 0) (other : op ≠ .wait) :
    localPegOp s w op a = addDone (applyPeg s k op a.value (ownWait w)).s (pegReport s w op k) := by
  unfold localPegOp
  simp only [key, pegOpOn_applies passes, applyPeg_status, applyPeg_held _ _ _ _ _ other, beq_eq_false_iff_ne.mpr other, Bool.false_eq_true, if_false,
    Bool.false_and, beq_iff_eq]
  rfl

theorem localPegOp_refused (key : pegKeyOf (getCtx s w.ctx) a.peg = some k) (fails : pegStatus s k (ctxTag s w.ctx) ≠ 0) :
    ∃ d, localPegOp s w op a = addDone (setErr s (pegPg k) (pegErrBit (pegStatus s k (ctxTag s w.ctx)))) d ∧ d.w = w ∧ d.kind = 4 ∧
      d.status = pegStatus s k (ctxTag s w.ctx) := by
  unfold localPegOp
  simp only [key, pegOpOn_refused fails, beq_eq_false_iff_ne.mpr fails, Bool.and_false, Bool.false_eq_true, if_false]
  exact ⟨_, rfl, rfl, rfl, rfl⟩

/-- The newest report of a context. -/
theorem getLast?_addDone {d : WoDone} {n : Nat} (own : d.w.ctx = n) (s : State) : (getCtx (addDone s d) n).done.getLast? = some d := by
  rw [← own, getCtx_addDone, List.getLast?_concat]

theorem localPegOp_effect (key : pegKeyOf (getCtx s w.ctx) a.peg = some k) (passes : pegStatus s k (ctxTag s w.ctx) = 0) :
    pegEffect s (localPegOp s w op a) k op a.value (ownWait w) ∧
      (op ≠ .wait ∨ (getPeg s k).target ≤ (getPeg s k).count →
        (getCtx (localPegOp s w op a) w.ctx).done.getLast? = some (pegReport s w op k)) := by
  have effect := applyPeg_effect s k op a.value (ownWait w)
  by_cases wait : op = .wait
  · subst wait
    rw [localPegOp_wait key passes]
    refine ⟨effect, fun h => ?_⟩
    have atTarget := h.resolve_left (not_not_intro rfl)
    rw [applyPeg, if_pos atTarget]
    exact getLast?_addDone (d := pegReport s w .wait k) rfl s
  · rw [localPegOp_other key passes wait]
    exact ⟨effect.of_pegs rfl rfl, fun _ => getLast?_addDone (d := pegReport s w op k) rfl _⟩

end

end Sys2Proof.Machine
end

section
/-! O45: the peg operations of work orders (R379, R380, R382, R383). -/

namespace Sys2Proof.Machine

/-! What taking a work order out of its queue leaves. -/

@[simp] theorem takeQueued_pegs (s : State) (w : WoHdr) (unit : Nat) : (takeQueued s w unit).1.pegs = s.pegs := by
  obtain ⟨q, r, h⟩ := takeQueued_only s w unit; rw [h]

@[simp] theorem takeQueued_nextRef (s : State) (w : WoHdr) (unit : Nat) : (takeQueued s w unit).1.nextRef = s.nextRef := by
  obtain ⟨q, r, h⟩ := takeQueued_only s w unit; rw [h]

@[simp] theorem takeQueued_lostDevs (s : State) (w : WoHdr) (unit : Nat) : (takeQueued s w unit).1.lostDevs = s.lostDevs := by
  obtain ⟨q, r, h⟩ := takeQueued_only s w unit; rw [h]

@[simp] theorem getPeg_takeQueued (s : State) (w : WoHdr) (unit k : Nat) : getPeg (takeQueued s w unit).1 k = getPeg s k :=
  getPeg_congr (takeQueued_pegs ..) k

@[simp] theorem deviceId_takeQueued (s : State) (w : WoHdr) (unit : Nat) : deviceId (takeQueued s w unit).1 = deviceId s := by
  obtain ⟨q, r, h⟩ := takeQueued_only s w unit; rw [h]; rfl

@[simp] theorem ctxTag_takeQueued (s : State) (w : WoHdr) (unit n : Nat) : ctxTag (takeQueued s w unit).1 n = ctxTag s n := by
  rw [ctxTag, ctxTag, deviceId_takeQueued]

@[simp] theorem pegStatus_takeQueued (s : State) (w : WoHdr) (unit k tag : Nat) : pegStatus (takeQueued s w unit).1 k tag = pegStatus s k tag := by
  obtain ⟨q, r, h⟩ := takeQueued_only s w unit; rw [h]; rfl

/-! The commands. -/

section
variable {s : State} {w : WoHdr} {op : PegOp} {a : PegArgs}

theorem thenWatch_pegOrder {c : Instr} (order : pegOrder c = some (op, w, a)) (t : State) (n : Nat) : thenWatch c t n = pegThen op t n := by
  cases c with
  | arrive | wait | set | reset_ | query => cases order; rfl
  | _ => cases order

theorem pegWork_runs (live : mayWork s w = true) (power : memberPowered s w = true) (turn : queuedBehind s w 3 = false)
    (noWait : w.waitPeg = 0xFFFF) :
    pegWork op w a s = if a.device = 0xFFFF then localPegOp (takeQueued s w 3).1 (takeQueued s w 3).2 op a
      else remotePegSend (takeQueued s w 3).1 (takeQueued s w 3).2 op a := by
  simp [pegWork, live, power, startWork, turn, noWait]

/-- A peg operation leaves for another device and awaits its answer under the next reference (R383). -/
theorem remotePegSend_sent (alive : a.device ∉ s.lostDevs) :
    ∃ d u, u.pegs = s.pegs ∧ u.nextRef = s.nextRef + 1 ∧ u.pegRefs.find s.nextRef = some d ∧ d.w = w ∧ d.kind = 4 ∧
      remotePegSend s w op a = sendRouted u a.device 0 1 0
        (.pegOp { src := deviceId s, ref := s.nextRef, ctx := w.ctx, peg := a.peg, op := op.code, value := a.value, tag := ctxTag s w.ctx }) := by
  unfold remotePegSend
  rw [if_neg (by simpa using alive)]
  let d : WoDone := { w := w, kind := 4, always := op == .query, c1 := a.device, c2 := if op == .wait then 1 else 0 }
  exact ⟨d, { s with nextRef := s.nextRef + 1, pegRefs := s.pegRefs.insert s.nextRef d }, rfl, rfl, SMap.find_insert_same .., rfl, rfl, rfl⟩

theorem remotePegSend_lost (lost : a.device ∈ s.lostDevs) :
    remotePegSend s w op a = addDone s { w := w, kind := 4, status := 0x20, always := op == .query } := by
  rw [remotePegSend, if_pos (by simpa using lost)]

end

/-- Settles O45: a work order that runs carries its operation out here, where it passes its tests or is refused by the first that fails, or sends it
to the device of its peg. -/
theorem pegOperations : Obligations.PegOperations := by
  intro c op w a s order live power turn noWait
  have runs := exec_pegOrder order s
  rw [thenWatch_pegOrder order, pegWork_runs live power turn noWait] at runs
  have ctx : (takeQueued s w 3).2.ctx = w.ctx := takeQueued_ctx s w 3
  refine ⟨fun k here key passes => ?applied, fun k here key fails => ?refused, fun away alive => ?sent, fun away lost => ?lost⟩
  case applied =>
    rw [if_pos here] at runs
    have key' : pegKeyOf (getCtx (takeQueued s w 3).1 (takeQueued s w 3).2.ctx) a.peg = some k := by simpa using key
    obtain ⟨effect, reports⟩ := localPegOp_effect (op := op) key' (by simpa using passes)
    rw [ownWait, ctx] at effect
    rw [ctx] at reports
    simp only [getPeg_takeQueued, pegReport] at reports
    exact ⟨_, runs, effect.of_pegs (takeQueued_pegs ..).symm rfl, reports⟩
  case refused =>
    rw [if_pos here] at runs
    have key' : pegKeyOf (getCtx (takeQueued s w 3).1 (takeQueued s w 3).2.ctx) a.peg = some k := by simpa using key
    obtain ⟨d, refuses, ofOrder, kind, status⟩ := localPegOp_refused (op := op) key' (by simpa using fails)
    simp only [ctx, ctxTag_takeQueued, pegStatus_takeQueued] at refuses status
    refine ⟨_, d, runs, ?_, ?_, ofOrder, kind, status, ?_⟩
    · rw [refuses]
      exact (pegs_of_besideTraffic (besideTraffic_setErr ..)).trans (takeQueued_pegs ..)
    · rw [refuses]
      exact getLast?_addDone (by rw [ofOrder, ctx]) _
    · rw [refuses, status]
      exact setErr_pegErrBit (takeQueued s w 3).1 k _
  case sent =>
    rw [if_neg away] at runs
    have alive' : a.device ∉ (takeQueued s w 3).1.lostDevs := by simpa using alive
    obtain ⟨d, u, pegs, next, found, ofOrder, kind, sends⟩ := remotePegSend_sent (w := (takeQueued s w 3).2) (op := op) alive'
    simp only [ctx, ctxTag_takeQueued, deviceId_takeQueued, takeQueued_nextRef, takeQueued_pegs] at pegs next found sends
    have sent := sent_sendRouted u a.device 0 1 0
      (.pegOp { src := deviceId s, ref := s.nextRef, ctx := w.ctx, peg := a.peg, op := op.code, value := a.value, tag := ctxTag s w.ctx })
    exact ⟨_, u, runs, by rw [sends, sent.pegs, pegs], by rw [sends, sent.nextRef, next],
      ⟨d, by rw [sends, sent.pegRefs, found], ofOrder, kind⟩, sends⟩
  case lost =>
    rw [if_neg away, remotePegSend_lost (by simpa using lost)] at runs
    exact ⟨_, _, runs, takeQueued_pegs .., getLast?_addDone ctx _, rfl⟩

end Sys2Proof.Machine
end

section
/-! O46: the messages of peg operations (R217, R382, R383). -/

namespace Sys2Proof.Machine

/-! Contexts without an attempt. -/

section
variable {s : State} {n : Nat}

theorem getCtx_modAttempt_none (idle : (getCtx s n).attempt = none) (f : Attempt → Attempt) (m : Nat) :
    getCtx (modAttempt s n f) m = getCtx s m := by
  by_cases own : m = n
  · rw [own, getCtx_modAttempt, idle, Option.map_none, ← idle]
  · exact getCtx_modAttempt_ne s own f

theorem noShadows_modAttempt (quiet : noShadows s) (n : Nat) (f : Attempt → Attempt) : noShadows (modAttempt s n f) :=
  noShadows_putCtx quiet n (quiet.held n)

/-- A change of the pegs decides nothing where no attempt is under way (R216, R217). -/
theorem commitWatch_idle (quiet : noShadows s) (idle : (getCtx s n).attempt = none) : commitWatch s n = s := by
  unfold commitWatch
  simp only [idle, quiet.held n, Bool.false_and, Bool.false_eq_true, if_false]

end

/-! REMOTE_PEG_OP (R383). -/

section
variable {s : State} {m : PegMsg} {k : Nat} {op : PegOp}

theorem exec_remotePegOp_stranger (stranger : mayOperate s m.ctx m.src = false) :
    exec (.remotePegOp m) s = .next (takeovers (commitWatch (ackPeg s m 0x19 0 0) m.ctx)) := by
  change execRemotePegOp m s = _
  simp [execRemotePegOp, remotePegOp, stranger]

/-- The operation of a message carried out or refused, and its answer (R382, R383). -/
def pegAnswered (s : State) (m : PegMsg) (k : Nat) (op : PegOp) : State :=
  let r := pegOpOn s k m.tag op m.value { ctx := m.ctx, device := some m.src, ref := m.ref }
  ackPeg r.s m r.status (if op = .query then (getPeg s k).count else 0) (if op = .query then (getPeg s k).target else 0)

theorem pegAnswered_reportsOnly (s : State) (m : PegMsg) (k : Nat) (op : PegOp) : ReportsOnly s (pegAnswered s m k op) :=
  (pegOpOn_reportsOnly ..).trans (.of_besideTraffic (besideTraffic_sendRouted ..))

theorem pegAnswered_passes (passes : pegStatus s k m.tag = 0) (op : PegOp) :
    pegEffect s (pegAnswered s m k op) k op m.value { ctx := m.ctx, device := some m.src, ref := m.ref } ∧
      ∃ u, pegAnswered s m k op = sendRouted u m.src 0 1 0 (.pegAck m.ref 0 (if op = .query then (getPeg s k).count else 0)
        (if op = .query then (getPeg s k).target else 0)) := by
  rw [pegAnswered, pegOpOn_applies passes, applyPeg_status]
  exact ⟨(applyPeg_effect ..).of_pegs rfl (sent_sendRouted ..).pegs, _, rfl⟩

theorem pegAnswered_fails (fails : pegStatus s k m.tag ≠ 0) (op : PegOp) :
    (pegAnswered s m k op).pegs = s.pegs ∧
      ∃ u x y, pegAnswered s m k op = sendRouted u m.src 0 1 0 (.pegAck m.ref (pegStatus s k m.tag) x y) := by
  rw [pegAnswered, pegOpOn_refused fails]
  exact ⟨(sent_sendRouted ..).pegs.trans (sent_setErr ..).pegs, _, _, _, rfl⟩

/-- A message's operation, from a device that may operate on the context. -/
theorem remotePegOp_applies (may : mayOperate s m.ctx m.src = true) (key : pegKeyOf (getCtx s m.ctx) m.peg = some k)
    (code : PegOp.ofCode m.op = some op) : remotePegOp s m = pegAnswered s m k op := by
  simp [remotePegOp, may, key, code, pegAnswered]

/-- Where no attempt is under way a cause that comes with a message is told to nobody: only the order of the contexts' list may change. -/
theorem exec_remotePegOp_idle (quiet : noShadows s) (idle : (getCtx s m.ctx).attempt = none) (notLate : m.cause ≠ cNoJournal) :
    ∃ c, (∀ n, getCtx { s with ctxs := c } n = getCtx s n) ∧ noShadows { s with ctxs := c } ∧
      exec (.remotePegOp m) s = .next (takeovers (commitWatch (remotePegOp { s with ctxs := c } m) m.ctx)) := by
  have told (f : Attempt → Attempt) : ∃ c, (∀ n, getCtx { s with ctxs := c } n = getCtx s n) ∧ noShadows { s with ctxs := c } ∧
      Host.Outcome.next (takeovers (commitWatch (remotePegOp (modAttempt s m.ctx f) m) m.ctx)) =
        (.next (takeovers (commitWatch (remotePegOp { s with ctxs := c } m) m.ctx)) : Host.Outcome State Fault Refusal) :=
    ⟨_, getCtx_modAttempt_none idle f, noShadows_modAttempt quiet m.ctx f, rfl⟩
  change ∃ c, _ ∧ _ ∧ execRemotePegOp m s = _
  unfold execRemotePegOp
  dsimp only
  split
  · rw [lateNoJournal, if_pos notLate]
    exact told _
  · exact ⟨s.ctxs, fun _ => rfl, quiet, rfl⟩

theorem exec_remotePegOp_answered (quiet : noShadows s) (idle : (getCtx s m.ctx).attempt = none) (notLate : m.cause ≠ cNoJournal)
    (may : mayOperate s m.ctx m.src = true) (key : pegKeyOf (getCtx s m.ctx) m.peg = some k) (code : PegOp.ofCode m.op = some op) :
    ∃ c, exec (.remotePegOp m) s = .next (pegAnswered { s with ctxs := c } m k op) := by
  obtain ⟨c, same, quiet', runs⟩ := exec_remotePegOp_idle quiet idle notLate
  have may' : mayOperate { s with ctxs := c } m.ctx m.src = true := by
    unfold mayOperate at may ⊢
    rwa [same]
  have waits := pegAnswered_reportsOnly { s with ctxs := c } m k op
  refine ⟨c, ?_⟩
  rw [runs, remotePegOp_applies may' (by rwa [same]) code, commitWatch_idle (waits.shadows quiet') (by rw [waits.attempt, same, idle]),
    takeovers_none (waits.shadows quiet')]

end

/-! PEG_ACK and WAIT_RELEASE (R217, R383). -/

section
variable {s : State} {ref status count target : Nat} {d : WoDone}

theorem exec_pegAck_held (sent : s.pegRefs.find ref = some d) (order : d.kind ≠ 14) (held : d.c2 = 1) :
    exec (.pegAck ref 0 count target) s = .next s := by
  change execPegAck ref 0 count target s = _
  simp [execPegAck, pegAcked, sent, order, held]

theorem exec_pegAck_completes (sent : s.pegRefs.find ref = some d) (order : d.kind ≠ 14) (ends : d.c2 ≠ 1 ∨ status ≠ 0) :
    exec (.pegAck ref status count target) s =
      .next (addDone { s with pegRefs := s.pegRefs.erase ref } { d with status := status, c0 := count, c1 := target, c2 := 0 }) := by
  have ended : ¬ (d.c2 = 1 ∧ status = 0) := by omega
  change execPegAck ref status count target s = _
  simp [execPegAck, pegAcked, sent, order, ended]

/-- An attempt with the answer to one of its closing queries (R217). -/
def Attempt.answered (a : Attempt) (ref status count target : Nat) : Attempt :=
  { a with asked := a.asked.erase ref, answers := if status = 0 then a.answers ++ [(count, target)] else a.answers }

/-- The state in which the answer to a closing query has joined its attempt (R217). -/
def queryAnswered (s : State) (n ref status count target : Nat) : State :=
  modAttempt { s with pegRefs := s.pegRefs.erase ref } n (·.answered ref status count target)

theorem attempt_queryAnswered {a : Attempt} {n : Nat} (running : (getCtx s n).attempt = some a) :
    (getCtx (queryAnswered s n ref status count target) n).attempt = some (a.answered ref status count target) := by
  rw [queryAnswered, getCtx_modAttempt]
  exact congrArg (Option.map _) running

/-- While another query is unanswered, an answer decides nothing (R217). -/
theorem exec_pegAck_query {a : Attempt} (quiet : noShadows s) (sent : s.pegRefs.find ref = some d) (query : d.kind = 14)
    (running : (getCtx s d.w.ctx).attempt = some a) (more : ∃ r, r ∈ a.asked ∧ r ≠ ref) :
    exec (.pegAck ref status count target) s = .next (queryAnswered s d.w.ctx ref status count target) := by
  obtain ⟨r, asked, other⟩ := more
  have quiet' : noShadows (queryAnswered s d.w.ctx ref status count target) :=
    noShadows_modAttempt (s := { s with pegRefs := s.pegRefs.erase ref }) quiet d.w.ctx _
  have waits : (a.answered ref status count target).asked.isEmpty = false :=
    List.isEmpty_eq_false_iff.mpr (List.ne_nil_of_mem ((List.mem_erase_of_ne other).mpr asked))
  have undecided : finishDecision (queryAnswered s d.w.ctx ref status count target) d.w.ctx = queryAnswered s d.w.ctx ref status count target := by
    unfold finishDecision
    simp only [attempt_queryAnswered running, waits, Bool.not_false, Bool.or_true, if_true]
  change execPegAck ref status count target s = _
  simp only [execPegAck, sent, query, if_true]
  exact congrArg Host.Outcome.next ((congrArg takeovers undecided).trans (takeovers_none quiet'))

theorem exec_waitRelease (sent : s.pegRefs.find ref = some d) :
    exec (.waitRelease ref status) s = .next (addDone { s with pegRefs := s.pegRefs.erase ref } { d with status := status, c1 := 0, c2 := 0 }) := by
  change execWaitRelease ref status s = _
  simp only [execWaitRelease, sent]

end

/-- Settles O46: a message's operation is the one of R379 on the peg it names, and its answer the acknowledgement; the answers end or decide
what they say. -/
theorem remotePegOperations : Obligations.RemotePegOperations := by
  refine ⟨?stranger, ?applied, ?acked, ?answered, ?released⟩
  case stranger =>
    intro m s idle quiet stranger
    have traffic : besideTraffic (ackPeg s m 0x19 0 0) = besideTraffic s := besideTraffic_sendRouted ..
    have quiet' := (ReportsOnly.of_besideTraffic traffic).shadows quiet
    rw [exec_remotePegOp_stranger stranger, commitWatch_idle quiet' (by rw [getCtx_of_besideTraffic traffic, idle]), takeovers_none quiet']
    rfl
  case applied =>
    intro m op k s idle quiet may key code notLate
    obtain ⟨c, runs⟩ := exec_remotePegOp_answered quiet idle notLate may key code
    refine ⟨fun passes => ?_, fun fails => ?_⟩
    · obtain ⟨effect, u, sent⟩ := pegAnswered_passes (s := { s with ctxs := c }) passes op
      exact ⟨_, u, runs, effect.of_pegs rfl rfl, sent⟩
    · obtain ⟨pegs, u, x, y, sent⟩ := pegAnswered_fails (s := { s with ctxs := c }) fails op
      exact ⟨_, u, x, y, runs, pegs, sent⟩
  case acked =>
    intro ref status count target d s sent order
    refine ⟨?_, fun ends => ?_⟩
    · rintro ⟨held, rfl⟩
      exact exec_pegAck_held sent order held
    · exact ⟨_, exec_pegAck_completes sent order ends, SMap.find_erase_same .., by rw [getCtx_addDone]; rfl⟩
  case answered =>
    intro ref status count target d a s sent query quiet running more
    refine ⟨_, exec_pegAck_query quiet sent query running more, SMap.find_erase_same .., rfl, attempt_queryAnswered running⟩
  case released =>
    intro ref status d s sent
    exact ⟨_, exec_waitRelease sent, SMap.find_erase_same .., rfl, by rw [getCtx_addDone]; rfl⟩

end Sys2Proof.Machine
end

section
/-! O47: work orders report, evaluation passes run and end (R222, R223, R267, R379, R380). -/

namespace Sys2Proof.Machine

/-! What a report leaves (R267). -/

/-- The parts of a context that a report reads or adds to. -/
def reportParts (c : Ctx) : List WoDone × SMap Nat × List Nat × IFlags := (c.done, c.pegs, c.commitPegs, c.flags)

theorem reportParts_absorb (c : Ctx) (d : WoDone) : reportParts (absorb c d) = reportParts { c with flags := c.flags.or d.flags } := by
  have maxima (l : List (Nat × Nat)) (c : Ctx) : reportParts (l.foldl reportMax c) = reportParts c :=
    List.foldlRecOn (motive := fun x => reportParts x = reportParts c) l _ rfl fun x same m _ => same
  have trips (l : List Nat) (c : Ctx) : reportParts (l.foldl reportTrip c) = reportParts c :=
    List.foldlRecOn (motive := fun x => reportParts x = reportParts c) l _ rfl fun x same m _ => same
  unfold absorb
  dsimp only
  split
  · rw [trips, maxima]; rfl
  · rfl
  · rfl

theorem bayEvent_only (s : State) (d : WoDone) : ∃ r e, bayEvent s d = { s with regs := r, ec := e } := by
  unfold bayEvent
  split
  · exact ⟨s.regs, s.ec, rfl⟩
  · dsimp only
    split
    · exact ⟨s.regs, s.ec, rfl⟩
    · split
      · exact setEvt_only ..
      · exact setEvt_only ..
      · exact setEvt_only ..
      · exact ⟨s.regs, s.ec, rfl⟩

theorem deviceId_setEvt {p : Page} (hall : 0x08000000 ≤ p.base) (s : State) (m : Nat) : deviceId (setEvt s p m) = deviceId s := by
  rw [deviceId, deviceId, setEvt_regGet]
  exact Nat.ne_of_lt (Nat.lt_of_lt_of_le (by decide) (Nat.le_trans hall (Nat.le_add_right ..)))

theorem deviceId_bayEvent (s : State) (d : WoDone) : deviceId (bayEvent s d) = deviceId s := by
  have fArray (h a g : Nat) : 0x08000000 ≤ (pgFArray h a g).base := by simp only [pgFArray, aisleBase, hallBase]; omega
  have bArray (h a g : Nat) : 0x08000000 ≤ (pgBArray h a g).base := by simp only [pgBArray, aisleBase, hallBase]; omega
  unfold bayEvent
  split
  · rfl
  · dsimp only
    split
    · rfl
    · split
      · exact deviceId_setEvt (fArray ..) s _
      · exact deviceId_setEvt (bArray ..) s _
      · exact deviceId_setEvt (bArray ..) s _
      · rfl

/-- The state in which a finished work order has been absorbed and its bay's event set. -/
def absorbed (s : State) (d : WoDone) : State := modCtx (bayEvent s d) d.w.ctx (fun c => absorb c d)

theorem absorbed_only (s : State) (d : WoDone) : ∃ r e c, absorbed s d = { s with regs := r, ec := e, ctxs := c } := by
  obtain ⟨r, e, event⟩ := bayEvent_only s d
  rw [absorbed, event]
  exact ⟨r, e, _, rfl⟩

theorem ctxTag_bayEvent (s : State) (d : WoDone) (n : Nat) : ctxTag (bayEvent s d) n = ctxTag s n := by
  rw [ctxTag, ctxTag, deviceId_bayEvent]

theorem pegStatus_bayEvent (s : State) (d : WoDone) (k tag : Nat) : pegStatus (bayEvent s d) k tag = pegStatus s k tag := by
  obtain ⟨r, e, event⟩ := bayEvent_only s d
  rw [event]
  rfl

/-- A record of a completion, where one is wanted. -/
def completionNoted (s : State) (d : WoDone) : State := if wantsRecord d then pushRec s 1 d.w.ctx (completionBody s d) else s

theorem reportWork_rings (s : State) (d : WoDone) : ∃ t, sameRings (absorbed s d) t ∧ reportWork s d = completionNoted t d := by
  refine ⟨_, ?_, (rfl : reportWork s d = completionNoted _ d)⟩
  split
  · exact sameRings_pegOpOn (absorbed s d) _ _ _ _ _
  · exact .refl (absorbed s d)

theorem reportWork_noPeg (s : State) {d : WoDone} (noPeg : d.w.donePeg = 0xFFFF) : reportWork s d = completionNoted (absorbed s d) d := by
  simp [reportWork, noPeg, completionNoted, absorbed]

section
variable {s : State} {d : WoDone}

theorem reportParts_absorbed (s : State) (d : WoDone) :
    reportParts (getCtx (absorbed s d) d.w.ctx) = reportParts { getCtx s d.w.ctx with flags := (getCtx s d.w.ctx).flags.or d.flags } := by
  obtain ⟨r, e, event⟩ := bayEvent_only s d
  rw [absorbed, getCtx_modCtx, reportParts_absorb, event]
  rfl

theorem pegKeyOf_of_reportParts {c c' : Ctx} {f : IFlags} (h : reportParts c' = reportParts { c with flags := f }) (pp : Nat) :
    pegKeyOf c' pp = pegKeyOf c pp := by
  obtain ⟨-, pegs, commitPegs, -⟩ : _ ∧ _ ∧ _ ∧ _ := by simpa [reportParts] using h
  rw [pegKeyOf, pegKeyOf, pegs, commitPegs]

theorem reportWork_peg {k : Nat} (peg : d.w.donePeg ≠ 0xFFFF) (key : pegKeyOf (getCtx s d.w.ctx) d.w.donePeg = some k) :
    reportWork s d = completionNoted (pegOpOn (absorbed s d) k (ctxTag (absorbed s d) d.w.ctx) .arrive 1 { ctx := d.w.ctx }).s d := by
  have key' : pegKeyOf (getCtx (absorbed s d) d.w.ctx) d.w.donePeg = some k := by rw [pegKeyOf_of_reportParts (reportParts_absorbed s d), key]
  unfold absorbed at key'
  simp only [reportWork, if_neg peg, key']
  rfl

theorem completionNoted_sent (s : State) (d : WoDone) : besideTraffic (completionNoted s d) = besideTraffic s := by
  unfold completionNoted
  split
  · exact besideTraffic_pushRec ..
  · rfl

/-- The state with the oldest report of a context struck. -/
def reportTaken (s : State) (n : Nat) (rest : List WoDone) : State := modCtx s n (fun c => { c with done := rest })

theorem exec_workOrderComplete {n : Nat} {rest : List WoDone} (oldest : (getCtx s n).done = d :: rest) :
    exec (.workOrderComplete n) s = .next (reportWork (reportTaken s n rest) d) := by
  change execWorkOrderComplete n s = _
  simp only [execWorkOrderComplete, oldest, reportTaken]

/-- A record of a completion holds what the work order reports (R267). -/
theorem lastRec_completionNoted (wants : wantsRecord d = true) :
    ∃ r, lastRec (completionNoted s d) 1 d.w.ctx = some r ∧ r.body = completionBody s d := by
  have fits : 16 + (completionBody s d).length ≤ devRingBytes := by
    simp only [completionBody, List.length_append, natLe_length]
    decide
  rw [completionNoted, if_pos wants, lastRec_pushRec s 1 d.w.ctx fits]
  exact ⟨_, rfl, rfl⟩

theorem completionBody_congr {t : State} (same : t.gals = s.gals) (d : WoDone) : completionBody t d = completionBody s d := by
  rw [completionBody, completionBody, memberGal_congr same]

end

/-! Evaluation passes (R222, R223). -/

section
variable {s : State} {w : WoHdr} {a : EvArgs} {p : Plan} {e : EvalRun}

/-- Work that is put into its frames' queues, in order (R7). -/
theorem frameQueues_dispatch {n : Nat} (bound : (getCtx s n).plan = some p) (ts : List Nat) :
    (getCtx (dispatch s n ts) n).frameQueues = ts.foldl (fun q i =>
      let f := tFrame (p.templates.getD i ⟨[]⟩)
      q.put [] f (q.get [] f ++ [i])) (getCtx s n).frameQueues := by
  rw [dispatch, getCtx_modCtx, bound]

theorem evalRun_dispatch (s : State) (n : Nat) (ts : List Nat) : (getCtx (dispatch s n ts) n).evalRun = (getCtx s n).evalRun := by
  have h := getCtx_dispatch s n ts
  unfold dispatchedTo at h
  rw [h]

/-- A pass that runs under a work order (R222). -/
def EvalRun.under (e : EvalRun) (a : EvArgs) (w : WoHdr) : EvalRun :=
  { e with lfirst := a.lfirst, llast := a.llast, report := a.report, wo := some w }

/-- The state in which a work order of a pass has been taken up. -/
def passBegun (s : State) (w : WoHdr) (a : EvArgs) (e : EvalRun) : State :=
  modCtx (takeQueued s w 3).1 w.ctx (fun c => { c with evalRun := some (e.under a (takeQueued s w 3).2) })

theorem exec_evaluationPass (live : mayWork s w = true) (bound : (getCtx s w.ctx).plan = some p) (pass : (getCtx s w.ctx).evalRun = some e)
    (noAttempt : (getCtx s w.ctx).attempt = none) (fresh : e.wo = none) (turn : queuedBehind s w 3 = false) (noWait : w.waitPeg = 0xFFFF) :
    exec (.evaluationPass w a) s = .next (dispatch (passBegun s w a e) w.ctx (evalTemplates p a.lfirst a.llast)) := by
  change execEvaluationPass w a s = _
  simp [execEvaluationPass, live, bound, pass, noAttempt, fresh, startWork, turn, noWait, passBegun, EvalRun.under]

theorem exec_loss_pass {n half pos tid : Nat} (noAttempt : (getCtx s n).attempt = none) (pass : (getCtx s n).evalRun = some e) :
    exec (.loss n half pos tid) s = .next (putCtx s n { getCtx s n with
      evalRun := some { e with loss := ((getCtx s n).open_ tid).codeAt 0 0 % 2 ^ 32 } }) := by
  change execLoss n half pos tid s = _
  unfold execLoss
  rcases bound : (getCtx s n).plan with _ | p <;> simp only [noAttempt, pass, bound]

theorem length_flatMap_of_forall {α β : Type} {f : α → List β} {n : Nat} (each : ∀ x, (f x).length = n) (l : List α) :
    (l.flatMap f).length = l.length * n := by
  simp [List.length_flatMap, each]

/-- A pass's report fits its ring (R374). -/
theorem length_evalReport (p : Plan) (e : EvalRun) : (evalReport p e).length ≤ 16 + p.layers.length * 40 := by
  have layer (i : Nat) : (natLe i 2 ++ natLe ((p.layer i).map (·.fbase) |>.getD 0) 1 ++ natLe 0 1 ++
      (e.tally.get .zero i).toList.flatMap (fun x => natLe (sat32 x) 4)).length = 40 := by
    simp only [List.length_append, natLe_length, length_flatMap_of_forall (fun x => natLe_length ..)]
    rfl
  have layers : ((List.range p.layers.length).filter (fun i => decide (e.lfirst ≤ i ∧ i ≤ e.llast))).length ≤ p.layers.length :=
    (List.length_filter_le ..).trans_eq List.length_range
  simp only [evalReport, List.length_append, length_flatMap_of_forall layer, natLe_length]
  omega

end

/-! The end of a pass (R223). -/

section
variable {s : State} {n : Nat} {p : Plan} {e : EvalRun}

/-- The record of a pass, its report tensor and its work order's report. -/
def passReported (s : State) (n : Nat) (p : Plan) (e : EvalRun) : State :=
  let s1 := pushRec s 5 n (evalReport p e)
  let s2 := if e.report = noTid then s1 else modCtx s1 n (fun c =>
    let t := c.open_ e.report
    c.putTensor e.report { t with codes := t.codes.writeBytes 0 (evalReport p e) })
  match e.wo with
  | some w => reportWork s2 { w := w, kind := 5, status := if e.failed then 0x20 else 0, always := true }
  | none => s2

/-- A context that a pass has left (R223). -/
def passLeft (s : State) (n : Nat) : State :=
  modCtx s n (fun c => { c with evalRun := none, frameQueues := [], parts := [], reexec := [], dups := [] })

theorem evalRun_passLeft (s : State) (n : Nat) : (getCtx (passLeft s n) n).evalRun = none := by rw [passLeft, getCtx_modCtx]

/-- A pass ends: its report, and nothing of it left in the context (R223). -/
theorem exec_evalPassEnd (bound : (getCtx s n).plan = some p) (pass : (getCtx s n).evalRun = some e)
    (ended : e.failed = true ∨ ((getCtx s n).done = [] ∧ (getCtx s n).dups = [])) :
    ∃ q, exec (.evalPassEnd n) s = .next (stepBoundary { passLeft (passReported s n p e) n with queues := q } n) := by
  have may : ¬ ((!e.failed && (!(getCtx s n).done.isEmpty || !(getCtx s n).dups.isEmpty)) = true) := by
    rcases ended with failed | ⟨done, dups⟩
    · simp [failed]
    · simp [done, dups]
  change ∃ q, execEvalPassEnd n s = _
  simp only [execEvalPassEnd, pass, if_neg may, endEval, bound]
  split
  · exact ⟨_, rfl⟩
  · exact ⟨_, rfl⟩

/-- A report leaves the other telemetry as it was. -/
theorem rings_reportWork (s : State) (d : WoDone) {k : Nat} (notLog : k ≠ ringKey 2 0xFFFF) (notCompletions : k ≠ ringKey 1 d.w.ctx) :
    (reportWork s d).host.devRings.get {} k = s.host.devRings.get {} k := by
  obtain ⟨r, x, c, only⟩ := absorbed_only s d
  have begun : (absorbed s d).host = s.host := by rw [only]
  have noted (t : State) : (completionNoted t d).host.devRings.get {} k = t.host.devRings.get {} k := by
    unfold completionNoted
    split
    · exact pushRec_rings _ _ _ _ notCompletions
    · rfl
  obtain ⟨t, same, reports⟩ := reportWork_rings s d
  rw [reports, noted, same k notLog, begun]

theorem lastRec_passReported (few : p.layers.length ≤ 4096) :
    ∃ r, lastRec (passReported s n p e) 5 n = some r ∧ r.body = evalReport p e := by
  have fits : 16 + (evalReport p e).length ≤ devRingBytes :=
    Nat.le_trans (Nat.add_le_add_left ((length_evalReport p e).trans (by omega : _ ≤ 16 + 4096 * 40)) 16) (by decide)
  have written := lastRec_pushRec s 5 n fits
  have key : ringKey 5 n = 2053 := rfl
  have log : ringKey 2 0xFFFF = 2050 := rfl
  refine ⟨⟨5, n, evalReport p e, s.power.tick⟩, ?_, rfl⟩
  unfold passReported
  dsimp only
  split
  · next w _ =>
    have completions : ringKey 1 w.ctx = 1024 + w.ctx % 1024 := rfl
    rw [lastRec, rings_reportWork _ _ (by omega) (by change _ ≠ ringKey 1 w.ctx; omega)]
    split
    · exact written
    · exact written
  · split
    · exact written
    · exact written

end

/-- Settles O47: a finished work order is absorbed into its context, arrives on its peg and writes its record; a pass is taken up, gets its loss and
leaves its report. -/
theorem reportsAndPasses : Obligations.ReportsAndPasses := by
  refine ⟨?record, ?arrive, ?pass, ?loss, ?ends⟩
  case record =>
    intro n d rest s oldest own noPeg
    subst own
    have parts := reportParts_absorbed (reportTaken s d.w.ctx rest) d
    obtain ⟨r, e, c, only⟩ := absorbed_only (reportTaken s d.w.ctx rest) d
    have gals : (absorbed (reportTaken s d.w.ctx rest) d).gals = s.gals := by rw [only]; rfl
    have pegs : (absorbed (reportTaken s d.w.ctx rest) d).pegs = s.pegs := by rw [only]; rfl
    have host : (absorbed (reportTaken s d.w.ctx rest) d).host = s.host := by rw [only]; rfl
    have noted := completionNoted_sent (absorbed (reportTaken s d.w.ctx rest) d) d
    have ctx := getCtx_of_besideTraffic noted d.w.ctx
    rw [reportTaken, getCtx_modCtx, ← reportTaken] at parts
    obtain ⟨done, -, -, flags⟩ : _ ∧ _ ∧ _ ∧ _ := by simpa [reportParts] using parts
    refine ⟨_, (exec_workOrderComplete oldest).trans (congrArg _ (reportWork_noPeg _ noPeg)), by rw [ctx, done],
      (pegs_of_besideTraffic noted).trans pegs, by rw [ctx, flags], fun wants => ?_, fun silent => ?_⟩
    · obtain ⟨x, last, body⟩ := lastRec_completionNoted (s := absorbed (reportTaken s d.w.ctx rest) d) wants
      exact ⟨x, last, body.trans (completionBody_congr gals d)⟩
    · rw [completionNoted, if_neg (by rw [silent]; exact Bool.false_ne_true), host]
  case arrive =>
    intro n k d rest s oldest own peg key passes
    subst own
    obtain ⟨r, e, c, begun⟩ := absorbed_only (reportTaken s d.w.ctx rest) d
    have key' : pegKeyOf (getCtx (reportTaken s d.w.ctx rest) d.w.ctx) d.w.donePeg = some k := by
      rw [reportTaken, getCtx_modCtx]
      exact key
    have passes' : pegStatus (absorbed (reportTaken s d.w.ctx rest) d) k (ctxTag (absorbed (reportTaken s d.w.ctx rest) d) d.w.ctx) = 0 := by
      change pegStatus (bayEvent (reportTaken s d.w.ctx rest) d) k (ctxTag (bayEvent (reportTaken s d.w.ctx rest) d) d.w.ctx) = 0
      rw [ctxTag_bayEvent, pegStatus_bayEvent] at passes ⊢
      exact passes
    refine ⟨_, (exec_workOrderComplete oldest).trans (congrArg _ (reportWork_peg peg key')), ?_⟩
    rw [pegOpOn_applies passes']
    exact (applyPeg_effect ..).of_pegs (by rw [begun]; rfl) (pegs_of_besideTraffic (completionNoted_sent ..))
  case pass =>
    intro w a p e s live bound pass noAttempt fresh turn noWait
    have bound' : (getCtx (passBegun s w a e) w.ctx).plan = some p := by
      rw [passBegun, getCtx_modCtx, getCtx_takeQueued]
      exact bound
    refine ⟨_, exec_evaluationPass live bound pass noAttempt fresh turn noWait, rfl, ?_, ?_⟩
    · rw [evalRun_dispatch, passBegun, getCtx_modCtx]
      rfl
    · rw [frameQueues_dispatch bound', passBegun, getCtx_modCtx, getCtx_takeQueued]
  case loss =>
    intro n half pos tid e s noAttempt pass
    exact ⟨_, exec_loss_pass noAttempt pass, by rw [getCtx_putCtx]⟩
  case ends =>
    intro n p e s bound pass few ended
    obtain ⟨q, runs⟩ := exec_evalPassEnd bound pass ended
    obtain ⟨r, last, body⟩ := lastRec_passReported (s := s) (n := n) (e := e) few
    exact ⟨{ passLeft (passReported s n p e) n with queues := q }, r, runs, evalRun_passLeft (passReported s n p e) n, last, body⟩

end Sys2Proof.Machine
end

section
/-! O24: an admission that a swing holds only once it has joined its queue (R207, R276, R434). -/

namespace Sys2Proof.Machine

/-- An active context whose frame holds the first gallery. -/
def holder : Ctx := { state := 2, frames := [(0, [⟨0, 0, 0⟩])] }

/-- The device and its port up, session 0 open, a swing waiting at the page of the first gallery, whose holders stand in the table of contexts out of
its order. -/
def heldOutOfOrder : State :=
  { boot := { state := 2 }, power := { poreset := false, control := true, pins := true }, host := { sessions := [(0, {})] },
    regs := { applied := [(pgHost.base + Reg.HP_CTRL, 1)], swings := [((pgFArray 0 0 0).base, { state := 2 })] },
    ctxs := [(5, holder), (1, holder)] }

/-- What has left the block after an outcome that is a next state. -/
def outAfter : Host.Outcome State Fault Refusal → List Out
  | .next t => t.out
  | _ => []

/-- Refutes O24: the statement asks whether the command may act before it joins its context's queue, the model asks once it has joined. Joining stores
the context anew, in a table out of order ahead of the other holder of a gallery; the swing of that gallery's page then holds the context, and its
ADMIT, which is to be refused for want of a plan, waits unanswered. A table in order keeps its order when a context is stored. -/
theorem not_admissions : ¬ Obligations.Admissions := by
  intro statement
  obtain ⟨admission, -⟩ := statement
  obtain ⟨refused, -⟩ := admission { ctx := 1 } 0 0 heldOutOfOrder (by decide) (by decide) (by decide)
  obtain ⟨t, runs, ⟨-, answered, -⟩, -⟩ := refused 0x30 0 0 (by decide)
  have waits : outAfter (exec (.admit_ { ctx := 1 } 0 0) heldOutOfOrder) = [] := by decide
  rw [runs] at waits
  exact absurd (answered.symm.trans waits) (by simp)

end Sys2Proof.Machine
end

section
/-! SUPPORT of O40. Where the results of the joiners' work orders land (R250, R268, R269). -/

namespace Sys2Proof.Machine

/-- A result that lands among some tensors of its context: it reports OK under the work order's header. -/
structure LandsAmong (outs : List Nat) (kind : Nat) (c : Ctx) (w : WoHdr) (r : Ctx × WoDone) : Prop where
  header : r.2.w = w
  kind : r.2.kind = kind
  status : r.2.status = 0
  done : r.1.done = c.done
  attempt : c.attempt = none → r.1.attempt = none
  tensors : ∀ tid, tid ∉ outs → r.1.tensors.find tid = c.tensors.find tid

section
variable {outs outs' : List Nat} {kind y : Nat} {c : Ctx} {w : WoHdr} {r q : Ctx × WoDone}

theorem LandsIn.among (h : LandsIn y kind c w r) (mem : y ∈ outs) : LandsAmong outs kind c w r where
  header := h.header
  kind := h.kind
  status := h.status
  done := h.done
  attempt := h.attempt
  tensors tid ht := h.tensors tid (fun here => ht (List.mem_singleton.mp here ▸ mem))

theorem LandsAmong.mono (h : LandsAmong outs kind c w r) (sub : outs ⊆ outs') : LandsAmong outs' kind c w r :=
  { h with tensors := fun tid ht => h.tensors tid (fun mem => ht (sub mem)) }

/-- What lands after another result, in the context that one left. -/
theorem LandsAmong.trans (h : LandsAmong outs kind c w r) (k : LandsAmong outs kind r.1 w q) : LandsAmong outs kind c w q where
  header := k.header
  kind := k.kind
  status := k.status
  done := k.done.trans h.done
  attempt none_ := k.attempt (h.attempt none_)
  tensors tid ht := (k.tensors tid ht).trans (h.tensors tid ht)

/-- The flags of a report are no part of where its results land. -/
theorem LandsAmong.withMicroFlags (h : LandsAmong outs kind c w r) (op : Nat) (c' : Ctx) (a : EwArgs) :
    LandsAmong outs kind c w (r.1, withMicroFlags op c' a r.2) := by
  unfold Machine.withMicroFlags
  split <;> exact { h with }

end

/-! Ready work. -/

theorem ranWork_mono {s t : State} {w : WoHdr} {unit kind status : Nat} {outs outs' : List Nat} (h : ranWork w unit kind status outs s t)
    (sub : outs ⊆ outs') : ranWork w unit kind status outs' s t := by
  obtain ⟨report, kept, rest⟩ := h
  exact ⟨report, fun tid ht => kept tid (fun mem => ht (sub mem)), rest⟩

/-- A ready work order whose results land among its outputs runs and reports OK. -/
theorem runWork_ranAmong {s : State} {w : WoHdr} {unit kind : Nat} {outs : List Nat} (reads : Ctx → List ReadSet) {f : WorkFn}
    (ready : readyWork s w unit)
    (lands : LandsAmong outs kind (getCtx s w.ctx) (takeQueued s w unit).2 (f (getCtx s w.ctx) (takeQueued s w unit).2)) :
    ranWork w unit kind 0 outs s (runWork unit kind reads outs f w s) := by
  obtain ⟨hw, hk, hs, done, attempt, tensors⟩ := lands
  obtain ⟨u, only, ran⟩ := runWork_ready (f := f) kind reads outs ready rfl hw attempt
  rw [ran]
  generalize f (getCtx s w.ctx) (takeQueued s w unit).2 = r at *
  have plain : ranWork w unit kind 0 outs s (addDone (putCtx u w.ctx r.1) r.2) := by
    rw [← hk, ← hs]
    exact ranWork_addDone (only.putCtx _) hw (by rw [getCtx_putCtx, done]) (fun tid ht => by rw [getCtx_putCtx]; exact tensors tid ht)
  split
  · exact plain
  · obtain ⟨b, counted⟩ := bump64_only u (landPg (memberGal s w)) Reg.LD_ELEMS_LO r.2.elems
    rw [counted]
    exact ranWork_recorded plain (recorded_regs _ b)

/-! Refusals (R241, R252, R267). -/

theorem noteSmErr_recorded (s : State) (st : Nat) : recorded s (noteSmErr s st) := by
  unfold noteSmErr
  split
  case h_4 => exact .refl s
  all_goals exact setErr_recorded ..

/-- A refused work order of the joiners reports its status and stores nothing. -/
theorem ranWork_refusedJoiner (s : State) {w : WoHdr} {d : WoDone} (hw : d.w = (takeQueued s w 3).2) :
    ranWork w 3 d.kind d.status [] s (addDone (noteSmErr (takeQueued s w 3).1 d.status) d) := by
  have plain : ranWork w 3 d.kind d.status [] s (addDone (takeQueued s w 3).1 d) :=
    ranWork_addDone (.refl _ _) hw (by rw [getCtx_takeQueued]) (fun tid _ => by rw [getCtx_takeQueued])
  exact ranWork_recorded plain ((noteSmErr_recorded ..).addDone d)

theorem readyWork_mayWork {s : State} {w : WoHdr} {unit : Nat} (ready : readyWork s w unit) : mayWork s w = true := by
  obtain ⟨live, -⟩ := ready
  exact live

end Sys2Proof.Machine
end

section
/-! SUPPORT of O40. The outputs of element-wise work orders (R268, R269). -/

namespace Sys2Proof.Machine

/-- What an element-wise work order may write: its outputs, and the auxiliary record where it names one. -/
def ewWritten (op : Nat) (a : EwArgs) : List Nat := ewOuts op a ++ (if a.aux = noTid then [] else [a.aux])

theorem out_mem_ewWritten (op : Nat) (a : EwArgs) : a.out ∈ ewWritten op a := List.mem_append_left _ List.mem_cons_self

theorem aux_mem_ewWritten (op : Nat) {a : EwArgs} (named : a.aux ≠ noTid) : a.aux ∈ ewWritten op a := by simp [ewWritten, named]

/-- The operations with a second output in IN2: the derivatives of gated activations and the backward of normalisations (R269). -/
def hasSecond (op : Nat) : Bool := [0x2A, 0x2B, 0x32, 0x33].contains op

theorem in2_mem_ewWritten {op : Nat} {a : EwArgs} (second : hasSecond op = true) (named : a.in2 ≠ noTid) : a.in2 ∈ ewWritten op a := by
  have both : ewOuts op a = [a.out, a.in2] := congrArg (a.out :: ·) (if_pos (by simpa [hasSecond, named] using second))
  simp [ewWritten, both]

/-- Without a second output an operation writes no more than with one. -/
theorem ewWritten_noIn2 (op : Nat) (a : EwArgs) : ewWritten op { a with in2 := noTid } ⊆ ewWritten op a := by
  simp only [ewWritten, ewOuts, bne_self_eq_false, Bool.and_false, Bool.false_eq_true, if_false]
  exact List.append_subset.mpr ⟨List.cons_subset.mpr ⟨out_mem_ewWritten op a, List.nil_subset _⟩, List.subset_append_right ..⟩

/-- Without an auxiliary record an operation writes no more than with one. -/
theorem ewWritten_noAux (op : Nat) (a : EwArgs) : ewWritten op { a with aux := noTid } ⊆ ewWritten op a :=
  List.append_subset.mpr ⟨List.subset_append_left .., List.nil_subset _⟩

theorem ewWritten_subset (op : Nat) (a : EwArgs) : ewWritten op a ⊆ a.aux :: ewOuts op a := by
  refine List.append_subset.mpr ⟨List.subset_cons_self .., ?_⟩
  split
  · exact List.nil_subset _
  · exact List.cons_subset.mpr ⟨List.mem_cons_self, List.nil_subset _⟩

section
variable {op : Nat} {c : Ctx} {w : WoHdr} {a : EwArgs} (noCopy : w.phase ≠ 0 ∨ c.attempt = none)
include noCopy

theorem storeVals_lands {d : WoDone} (tid fmt start : Nat) (vals : List Fp) (mem : tid ∈ ewWritten op a) (hw : d.w = w) (hk : d.kind = 1)
    (hs : d.status = 0) : LandsAmong (ewWritten op a) 1 c w (storeVals c w tid fmt start vals d) :=
  (storePairs_landsIn noCopy _ _ hw hk hs).among mem

/-- What an element-wise work order finishes with lands among its outputs. -/
theorem ewFinish_lands (auxFp32 : Bool) (t : Tally) {o : EwOut} (outStart auxStart : Nat) (second : o.snd = [] ∨ hasSecond op = true) :
    LandsAmong (ewWritten op a) 1 c w (ewFinish c w a auxFp32 t o outStart auxStart) := by
  unfold ewFinish
  extract_lets d r q
  have first : LandsAmong (ewWritten op a) 1 c w r := storeVals_lands noCopy _ _ _ _ (out_mem_ewWritten op a) rfl rfl rfl
  have both : LandsAmong (ewWritten op a) 1 c w q := by
    unfold q
    split
    · exact first
    · next stores =>
      obtain ⟨some_, named⟩ : o.snd ≠ [] ∧ a.in2 ≠ noTid := by simpa using stores
      exact first.trans (storeVals_lands (noCopy.imp_right first.attempt) _ _ _ _ (in2_mem_ewWritten (second.resolve_left some_) named)
        first.header first.kind first.status)
  split
  · exact both
  · next records =>
    obtain ⟨-, named⟩ : o.aux ≠ [] ∧ a.aux ≠ noTid := by simpa using records
    have record (x : Tensor) {e : WoDone} (hw : e.w = w) (hk : e.kind = 1) (hs : e.status = 0) :
        LandsAmong (ewWritten op a) 1 c w (q.1.putTensor a.aux x, e) :=
      both.trans ((putTensor_landsIn x hw hk hs).among (aux_mem_ewWritten op named))
    split <;> exact record _ both.header both.kind both.status

/-- The same without a second output: IN2 is read, or nothing at all. -/
theorem ewFinish_noIn2_lands (auxFp32 : Bool) (t : Tally) {o : EwOut} (outStart auxStart : Nat) (single : o.snd = []) :
    LandsAmong (ewWritten op a) 1 c w (ewFinish c w { a with in2 := noTid } auxFp32 t o outStart auxStart) :=
  (ewFinish_lands noCopy _ _ _ _ (.inl single)).mono (ewWritten_noIn2 op a)

/-- The same without an auxiliary record too. -/
theorem ewFinish_outOnly_lands (auxFp32 : Bool) (t : Tally) {o : EwOut} (outStart auxStart : Nat) (single : o.snd = []) :
    LandsAmong (ewWritten op a) 1 c w (ewFinish c w { a with in2 := noTid, aux := noTid } auxFp32 t o outStart auxStart) :=
  (ewFinish_noIn2_lands (a := { a with aux := noTid }) noCopy _ _ _ _ single).mono (ewWritten_noAux op a)

theorem ewRun_lands (k : Nat) {f : EwIn → EwOut} (second : (∀ d, (f d).snd = []) ∨ hasSecond op = true) :
    LandsAmong (ewWritten op a) 1 c w (ewRun k f c w a) :=
  ewFinish_lands noCopy _ _ _ _ (second.imp_left (· _))

omit noCopy in
theorem ieeeRun_lands (conv : Bool) (n : Nat) (f : FFmt → Rnd → Nat → Nat → Nat → Res) :
    LandsAmong (ewWritten op a) 1 c w (ieeeRun conv n f c w a) :=
  LandsIn.among (putTensor_landsIn (d := (ieeeRun conv n f c w a).2) _ rfl rfl rfl) (out_mem_ewWritten op a)

end

/-- An element-wise command is its unit's work, whose function lands what it computes among the outputs. -/
theorem ewOrder_lands {i : Instr} {op : Nat} {w : WoHdr} {a : EwArgs} (h : ewOrder i = some (op, w, a)) :
    ∃ two three f, (∀ s, exec i s = .next (ewWork op two three f w a s)) ∧
      ∀ c v, v.phase ≠ 0 ∨ c.attempt = none → LandsAmong (ewWritten op a) 1 c v (f c v a) := by
  cases i with
  -- Element by element or row by row, one output.
  | add | sub | mul | div | fma | min | max | neg | abs | sqrt | rsqrt | recip | clamp | relu | leaky | geluTanh | geluErf | silu | sigmoid | tanh
  | softplus | exp | log | gluSilu | gluGelu | reluDerivative | leakyDerivative | geluTanhDerivative | geluErfDerivative | siluDerivative
  | sigmoidDerivative | tanhDerivative | softplusDerivative | expDerivative | logDerivative | softmax | logsoftmax | softmaxB | mse | mseB
  | dropout => cases h; exact ⟨_, _, _, fun _ => rfl, fun _ _ noCopy => ewRun_lands noCopy _ (.inl fun _ => rfl)⟩
  -- DROPOUT_B's auxiliary identifier names the mask, no tensor that it writes.
  | dropoutB =>
    cases h
    exact ⟨false, false, fun c v a => ewRun 0 (fun d => dropVals (c.drawKey 2 a.aux) d.p0 d.start d.x) c v { a with aux := noTid }, fun _ => rfl,
      fun _ _ noCopy => (ewRun_lands noCopy _ (.inl fun _ => rfl)).mono (ewWritten_noAux ..)⟩
  -- The second gradient goes to IN2.
  | gluSiluDerivative | gluGeluDerivative => cases h; exact ⟨_, _, _, fun _ => rfl, fun _ _ noCopy => ewRun_lands noCopy _ (.inr rfl)⟩
  | layernormB | rmsnormB =>
    cases h
    refine ⟨_, _, _, fun _ => rfl, fun _ _ noCopy => ?_⟩
    unfold ewNormBack
    exact ewFinish_lands noCopy _ _ _ _ (.inr rfl)
  -- IN2 is an input, if anything.
  | layernorm | rmsnorm | xent | xentB | gather | scatterAdd | sample =>
    cases h
    refine ⟨_, _, _, fun _ => rfl, fun _ _ noCopy => ?_⟩
    dsimp only [ewNorm, ewXent, ewXentB, ewGather, ewScatter, ewSample]
    exact ewFinish_noIn2_lands noCopy _ _ _ _ rfl
  | initUniform | initNormal | convert =>
    cases h
    refine ⟨_, _, _, fun _ => rfl, fun _ _ noCopy => ?_⟩
    dsimp only [ewInitUniform, ewInitNormal, ewConvert]
    exact ewFinish_outOnly_lands noCopy _ _ _ _ rfl
  -- IEEE codes.
  | vadd | vsub | vmul | vdiv | vfma | vsqrt | vmin | vmax | vconv => cases h; exact ⟨_, _, _, fun _ => rfl, fun _ _ _ => ieeeRun_lands ..⟩
  | _ => cases h

end Sys2Proof.Machine
end

section
/-! O40: the work orders of the joiners run and report, or are refused (R241, R244, R245, R255, R267, R268). -/

namespace Sys2Proof.Machine

/-! Element-wise work orders. -/

/-- The status of an element-wise work order: RND is judged first (R241, R268). -/
def ewRefusal (c : Ctx) (op : Nat) (w : WoHdr) (a : EwArgs) : Nat := if Rnd.ofCode w.rnd = none then 0x0B else ewStatus c op a

section
variable {s : State} {w : WoHdr} (ready : readyWork s w 3)
include ready

theorem ewWork_ready (op : Nat) (two three : Bool) (f : Ctx → WoHdr → EwArgs → Ctx × WoDone) (a : EwArgs) :
    ewWork op two three f w a s =
      if ewRefusal (getCtx s w.ctx) op w a ≠ 0 then refuseJoiner s w 1 (ewRefusal (getCtx s w.ctx) op w a)
      else runWork 3 1 (ewReads op two three w a) (ewWritten op a) (fun c v => ((f c v a).1, withMicroFlags op c a (f c v a).2)) w s := by
  simp only [ewWork, readyWork_mayWork ready, Bool.true_and, bne_iff_ne, Option.isNone_iff_eq_none]
  rfl

theorem ewOrder_runs {i : Instr} {op : Nat} {a : EwArgs} (order : ewOrder i = some (op, w, a)) :
    let st := ewRefusal (getCtx s w.ctx) op w a
    (st = 0 → ∃ t, exec i s = .next t ∧ ranWork w 3 1 0 (a.aux :: ewOuts op a) s t) ∧
    (st ≠ 0 → ∃ t, exec i s = .next t ∧ ranWork w 3 1 st [] s t) := by
  obtain ⟨two, three, f, run, lands⟩ := ewOrder_lands order
  have work := ewWork_ready ready op two three f a
  refine ⟨fun ok => ⟨_, run s, ?_⟩, fun bad => ⟨_, run s, ?_⟩⟩
  · rw [work, if_neg (not_not_intro ok)]
    have landed := lands (getCtx s w.ctx) (takeQueued s w 3).2 (by rw [takeQueued_phase]; exact readyWork_noCopy ready)
    exact ranWork_mono (runWork_ranAmong _ ready (landed.withMicroFlags ..)) (ewWritten_subset op a)
  · rw [work, if_pos bad]
    exact ranWork_refusedJoiner s rfl

end

/-! Reductions. -/

section
variable {kind : Nat} {c : Ctx} {w : WoHdr} {a : RdArgs} {d : WoDone} (noCopy : w.phase ≠ 0 ∨ c.attempt = none)
include noCopy

theorem storeReduced_landsIn (f : FFmt) (rs : List (Nat × Nat)) (hw : d.w = w) (hk : d.kind = kind) (hs : d.status = 0) :
    LandsIn a.out kind c w (storeReduced f c w a rs d) := by
  have wide (ps : List (Nat × Fp)) (t : Tensor) {e : WoDone} (hw : e.w = w) (hk : e.kind = kind) (hs : e.status = 0) :
      LandsIn a.out kind c w (storeCopies w a.out ps (c.putTensor a.out t, e)) := by
    rw [storeCopies, stackOuts_outside (c := c.putTensor a.out t) noCopy]
    exact putTensor_landsIn t hw hk hs
  unfold storeReduced
  dsimp only
  split
  case h_3 => exact storePairs_landsIn noCopy _ _ hw hk hs
  all_goals exact wide _ _ hw hk hs

theorem reduceRun_landsIn (op : RedOp) (span : Option LineSpan) : LandsIn a.out 2 c w (reduceRun op span c w a) := by
  obtain ⟨f, parts, rs, d, run, hw, hk, hs⟩ : ∃ f parts rs d, reduceRun op span c w a = storeReduced f { c with parts := parts } w a rs d ∧
      d.w = w ∧ d.kind = 2 ∧ d.status = 0 := ⟨_, _, _, _, rfl, rfl, rfl, rfl⟩
  rw [run]
  obtain ⟨hw, hk, hs, done, attempt, tensors⟩ := storeReduced_landsIn (c := { c with parts := parts }) (a := a) noCopy f rs hw hk hs
  exact ⟨hw, hk, hs, done, attempt, tensors⟩

end

theorem rdStatus_reserved (c : Ctx) (op : RedOp) {w : WoHdr} (a : RdArgs) (reserved : Rnd.ofCode w.rnd = none) : rdStatus c op w a = 0x0B := by
  simp [rdStatus, reserved]

section
variable {s : State} {w : WoHdr} {op : RedOp} {a : RdArgs} (ready : readyWork s w 3)
include ready

theorem rdWork_ran (ok : rdStatus (getCtx s w.ctx) op w a = 0) : ranWork w 3 2 0 [a.out] s (rdWork op w a s) := by
  simp only [rdWork, ok, bne_self_eq_false, Bool.and_false, Bool.false_eq_true, if_false]
  refine runWork_ranAmong _ ready ((reduceRun_landsIn ?_ ..).among List.mem_cons_self)
  rw [takeQueued_phase]
  exact readyWork_noCopy ready

theorem rdWork_refused (bad : rdStatus (getCtx s w.ctx) op w a ≠ 0) :
    ranWork w 3 2 (rdStatus (getCtx s w.ctx) op w a) [] s (rdWork op w a s) := by
  have refused : rdWork op w a s = refuseJoiner s w 2 (rdStatus (getCtx s w.ctx) op w a) :=
    if_pos (by simp [readyWork_mayWork ready, bad])
  rw [refused]
  exact ranWork_refusedJoiner s rfl

end

/-! Simulation kernels. -/

theorem kernelRun_landsIn (slice : Bool) (sc : Nat) (c : Ctx) (w : WoHdr) (a : SkArgs) : LandsIn a.c 6 c w (kernelRun slice sc c w a) := by
  obtain ⟨t, x, run⟩ : ∃ t x, kernelRun slice sc c w a = kernelReport (c.putTensor a.c t) w a x := ⟨_, _, rfl⟩
  obtain ⟨k, d, report, hw, hk, hs⟩ := kernelReport_only (c.putTensor a.c t) w a x
  rw [run, report]
  exact ⟨hw, hk, hs, rfl, id, fun _ ht => find_putTensor_of_notMem _ _ ht⟩

/-- The bays count and sample the slices of a kernel after its run, which stands (R72, R127, R296). -/
theorem ranWork_countSlices {s t : State} {w : WoHdr} {unit kind status : Nat} {outs : List Nat} (h : ranWork w unit kind status outs s t)
    (c : Ctx) (a : SkArgs) (sc : Nat) : ranWork w unit kind status outs s (countSlices c w a sc t) := by
  refine List.foldlRecOn (motive := ranWork w unit kind status outs s) _ _ h (fun u ran bay _ => ?_)
  dsimp only
  split
  · exact ran
  · exact (noteSample_end (.refl s w _) _ _).ran (ranWork_recorded ran (countBay_recorded ..))

section
variable {s : State} {w : WoHdr} {slice : Bool} {a : SkArgs} (ready : readyWork s w 3)
include ready

theorem skWork_ran (ok : kernelStatus slice w a = 0) : ranWork w 3 6 0 [a.c] s (skWork slice w a s) := by
  obtain ⟨ran, -⟩ := runWork_ran (fun _ => []) (f := fun c v => kernelRun slice (kernelS s w a) c v a) ready (kernelRun_landsIn ..)
  simp only [skWork, ok, bne_self_eq_false, Bool.and_false, Bool.false_eq_true, if_false]
  split
  · exact ranWork_countSlices ran ..
  · exact ran

theorem skWork_refused (bad : kernelStatus slice w a ≠ 0) : ranWork w 3 6 (kernelStatus slice w a) [] s (skWork slice w a s) := by
  have refused : skWork slice w a s = addDone (noteSmErr (takeQueued s w 3).1 (kernelStatus slice w a))
      { w := (takeQueued s w 3).2, kind := 6, status := kernelStatus slice w a, always := true } :=
    if_pos (by simp [readyWork_mayWork ready, bad])
  rw [refused]
  exact ranWork_refusedJoiner s (d := { kind := 6, status := kernelStatus slice w a, always := true, w := _ }) rfl

end

/-- No attempt is decided after a reduction. -/
theorem thenWatch_rdOrder {i : Instr} {op : RedOp} {w : WoHdr} {a : RdArgs} (order : rdOrder i = some (op, w, a)) (t : State) (n : Nat) :
    thenWatch i t n = t := by
  cases i with
  | arrive => cases order
  | _ => rfl

/-- Settles O40: ready work of the joiners that passes its checks is a run whose results land among its outputs; what its checks refuse is a
report without a result. -/
theorem joinerWorkRuns : Obligations.JoinerWorkRuns := by
  intro i w s ready
  refine ⟨fun op a order => ewOrder_runs ready order, fun op a order => ?reduction, fun a slice kernel => ?kernel⟩
  case reduction =>
    have run := exec_rdOrder order s
    rw [thenWatch_rdOrder order] at run
    exact ⟨rdStatus_reserved _ op a, fun ok => ⟨_, run, rdWork_ran ready ok⟩, fun bad => ⟨_, run, rdWork_refused ready bad⟩⟩
  case kernel =>
    subst kernel
    have run := exec_kernel slice w a s
    exact ⟨fun ok => ⟨_, run, skWork_ran ready ok⟩, fun bad => ⟨_, run, skWork_refused ready bad⟩⟩

end Sys2Proof.Machine
end

section
/-! O1, O2, O59: a step takes the front of the queue, or a tick passes; the state right after reset. -/

namespace Sys2Proof.Machine

/-- Settles O1: a step is exec of the command at the front. -/
theorem stepTakesFront : Obligations.StepTakesFront := fun _ _ _ => rfl

/-- Settles O2: with nothing waiting a step is the clock's tick (log entry 2). -/
theorem idleStepTicks : Obligations.IdleStepTicks := by
  intro s idle_
  have tick : step s = .next (tickClock s) := by rw [step, idle_]; rfl
  rw [tick, tickClock]
  simp [has48, or_assoc]

/-- A register right after reset reads the value of its table (R431). -/
theorem regGet_reset (p : Page) (off : Nat) : regGet State.reset p off = resetAt p.kind off := rfl

theorem fld_reset (p : Page) (off hi lo : Nat) : fld State.reset p off hi lo = bits (resetAt p.kind off) hi lo := rfl

theorem resetAt_silentControl : resetAt pgSilent.kind Reg.SE_CTRL = 6 + 4 * 2 ^ 5 + 600 * 2 ^ 16 := by decide

theorem resetAt_faultControl : resetAt pgFault.kind Reg.FM_CTRL = 10 := by decide

theorem resetAt_memoryControl : resetAt 0x37 Reg.MC_CTRL = 1 + 8 * 2 ^ 8 + 120 * 2 ^ 16 := by decide

/-- Settles O59: no bank lists a word, so that every register reads the value of its table; every other part is empty. -/
theorem resetState : Obligations.ResetState := by
  have memory : ∀ h, (pgMemory h).kind = 0x37 := fun _ => rfl
  refine ⟨fun _ _ => ⟨rfl, rfl⟩, ?_, ?_, ?_, ?_, fun h _ => ?_, rfl, rfl, rfl, rfl, rfl, rfl, rfl, rfl, rfl, rfl, rfl, by decide, List.nodup_nil, rfl⟩
  · rw [fld_reset, resetAt_silentControl]; rfl
  · rw [fld_reset, resetAt_silentControl]; rfl
  · rw [fld_reset, resetAt_silentControl]; rfl
  · rw [regGet_reset, resetAt_faultControl]
  · rw [regGet_reset, memory, resetAt_memoryControl]

end Sys2Proof.Machine
end

section
/-! O39: the 256 bytes of a flit spell all of its fields and data (R342). -/

namespace Sys2Proof.Machine

/-! The checksum fits in its four bytes. -/

theorem crc32cShift_lt (n : Nat) {c : Nat} (small : c < 2 ^ 32) : crc32cShift n c < 2 ^ 32 := by
  induction n generalizing c with
  | zero => exact small
  | succ n ih =>
    rw [crc32cShift]
    have half : c >>> 1 < 2 ^ 32 := lt_of_le_of_lt (Nat.shiftRight_le c 1) small
    split
    · exact ih (Nat.xor_lt_two_pow half (by decide))
    · exact ih half

theorem crc32cRun_lt (l : List Byte) {c : Nat} (small : c < 2 ^ 32) : crc32cRun c l < 2 ^ 32 := by
  induction l generalizing c with
  | nil => exact small
  | cons b t ih =>
    have byte : b.toNat < 2 ^ 32 := lt_of_lt_of_le b.isLt (by decide)
    exact ih (crc32cShift_lt 8 (Nat.xor_lt_two_pow small byte))

theorem crc32c_lt (l : List Byte) : crc32c l < 2 ^ 32 := Nat.xor_lt_two_pow (crc32cRun_lt l (by decide)) (by decide)

/-! The parts of a flit's bytes. -/

/-- Fields, each of so many bits, from the lowest up. -/
def packed : List (Nat × Nat) → Nat
  | [] => 0
  | (w, x) :: t => x % 2 ^ w + 2 ^ w * packed t

/-- Where field i of packed fields begins. -/
def placeOf (l : List (Nat × Nat)) (i : Nat) : Nat := ((l.take i).map (·.1)).sum

/-- Field i of packed fields reads back at its place. -/
theorem field_packed (l : List (Nat × Nat)) (i : Nat) :
    packed l / 2 ^ placeOf l i % 2 ^ (l.getD i (0, 0)).1 = (l.getD i (0, 0)).2 % 2 ^ (l.getD i (0, 0)).1 := by
  induction l generalizing i with
  | nil => simp [packed]
  | cons e t ih =>
    obtain ⟨w, x⟩ := e
    have room : 0 < 2 ^ w := Nat.two_pow_pos w
    cases i with
    | zero => simp [packed, placeOf]
    | succ i =>
      have place : placeOf ((w, x) :: t) (i + 1) = w + placeOf t i := by simp [placeOf]
      have skip : packed ((w, x) :: t) / 2 ^ w = packed t := by
        rw [packed, Nat.add_mul_div_left _ _ room, Nat.div_eq_of_lt (Nat.mod_lt _ room), Nat.zero_add]
      rw [place, Nat.pow_add, ← Nat.div_div_eq_div_mul, skip]
      exact ih i

theorem packed_lt (l : List (Nat × Nat)) : packed l < 2 ^ (l.map (·.1)).sum := by
  induction l with
  | nil => simp [packed]
  | cons e t ih =>
    obtain ⟨w, x⟩ := e
    have low : x % 2 ^ w < 2 ^ w := Nat.mod_lt _ (Nat.two_pow_pos w)
    calc packed ((w, x) :: t) < 2 ^ w * (packed t + 1) := by rw [packed, Nat.mul_succ]; omega
      _ ≤ 2 ^ w * 2 ^ (t.map (·.1)).sum := Nat.mul_le_mul_left _ ih
      _ = 2 ^ (((w, x) :: t).map (·.1)).sum := by rw [← Nat.pow_add]; rfl

/-- The fields of a flit's header with their widths (R342). -/
def headerFields (f : Flit) : List (Nat × Nat) :=
  [(2, f.tc), (2, f.fkind), (1, bnat f.last), (1, f.vc), (12, f.seq), (12, f.ack), (12, f.dst), (12, f.src), (8, f.len), (7, f.credit),
   (2, f.ctc), (4, f.proto), (12, f.eseq), (7, f.hops)]

theorem flitHeader_eq (f : Flit) : flitHeader f = packed (headerFields f) := by
  have last : bnat f.last < 2 := by cases f.last <;> decide
  simp only [flitHeader, headerFields, packed]
  omega

theorem flitHeader_lt (f : Flit) : flitHeader f < 256 ^ 12 := by
  rw [flitHeader_eq]
  exact lt_of_lt_of_le (packed_lt (headerFields f)) (by decide : 2 ^ 94 ≤ 256 ^ 12)

/-- A field of the header reads back where it fits its width. -/
theorem bits_flitHeader {f : Flit} {hi lo x : Nat} (i : Nat) (field : (headerFields f)[i]? = some (hi + 1 - lo, x))
    (place : placeOf (headerFields f) i = lo) {n : Nat} (fits : x < n)
    (size : n ≤ 2 ^ (hi + 1 - lo)) : bits (flitHeader f) hi lo = x := by
  have entry : (headerFields f).getD i (0, 0) = (hi + 1 - lo, x) := by rw [List.getD_eq_getElem?_getD, field]; rfl
  have read := field_packed (headerFields f) i
  rw [entry, place] at read
  rw [bits, flitHeader_eq, Nat.shiftRight_eq_div_pow, read]
  exact Nat.mod_eq_of_lt (lt_of_lt_of_le fits size)

theorem flitBytes_eq {f : Flit} (whole : f.data.length = 240) :
    flitBytes f = (natLe (flitHeader f) 12 ++ f.data) ++ natLe (crc32c (natLe (flitHeader f) 12 ++ f.data)) 4 := by
  have data : (f.data ++ List.replicate (240 - f.data.length) 0#8).take 240 = f.data := by simp [whole]
  rw [flitBytes, data]

/-- The checksum that closes a flit's bytes is that of what stands before it. -/
theorem readFlit_flitBytes {f : Flit} (whole : f.data.length = 240) :
    let h := flitHeader f
    readFlit (flitBytes f) = some
      { tc := bits h 1 0, fkind := bits h 3 2, last := bit h 4, vc := bits h 5 5, seq := bits h 17 6, ack := bits h 29 18,
        dst := bits h 41 30, src := bits h 53 42, len := bits h 61 54, credit := bits h 68 62, ctc := bits h 70 69,
        proto := bits h 74 71, eseq := bits h 86 75, hops := bits h 93 87, data := f.data } := by
  have size : (natLe (flitHeader f) 12 ++ f.data).length = 252 := by simp [whole]
  have header : (natLe (flitHeader f) 12).length = 12 := natLe_length ..
  have head : leNat ((flitBytes f).take 12) = flitHeader f := by
    rw [flitBytes_eq whole, List.append_assoc, List.take_left' header, leNat_natLe, Nat.mod_eq_of_lt (flitHeader_lt f)]
  have data : ((flitBytes f).drop 12).take 240 = f.data := by
    rw [flitBytes_eq whole, List.append_assoc, List.drop_left' header, List.take_left' whole]
  have sound : (flitBytes f).length = 256 ∧ leNat ((flitBytes f).drop 252) = crc32c ((flitBytes f).take 252) := by
    rw [flitBytes_eq whole, List.drop_left' size, List.take_left' size, leNat_natLe]
    exact ⟨by simp [whole], Nat.mod_eq_of_lt (crc32c_lt _)⟩
  rw [readFlit, if_pos sound]
  simp only [head, data]

/-- Settles O39: the checksum of the bytes is their own, the twelve header bytes spell the packed fields, and each field is as wide as its place. -/
theorem flitRoundTrip : Obligations.FlitRoundTrip := by
  intro f tc fkind vc seq ack dst src len credit ctc proto eseq hops whole
  refine ⟨by simp [flitBytes_eq whole, whole], ?_⟩
  have last : bit (flitHeader f) 4 = f.last := by
    have one : bnat f.last < 2 := by cases f.last <;> decide
    have read : bits (flitHeader f) 4 4 = bnat f.last := bits_flitHeader 2 rfl (by simp [placeOf, headerFields]) one (by norm_num)
    rw [bit, read]
    cases f.last <;> rfl
  have tc : bits (flitHeader f) 1 0 = f.tc := bits_flitHeader 0 rfl (by simp [placeOf, headerFields]) tc (by norm_num)
  have fkind : bits (flitHeader f) 3 2 = f.fkind := bits_flitHeader 1 rfl (by simp [placeOf, headerFields]) fkind (by norm_num)
  have vc : bits (flitHeader f) 5 5 = f.vc := bits_flitHeader 3 rfl (by simp [placeOf, headerFields]) vc (by norm_num)
  have seq : bits (flitHeader f) 17 6 = f.seq := bits_flitHeader 4 rfl (by simp [placeOf, headerFields]) seq (by norm_num)
  have ack : bits (flitHeader f) 29 18 = f.ack := bits_flitHeader 5 rfl (by simp [placeOf, headerFields]) ack (by norm_num)
  have dst : bits (flitHeader f) 41 30 = f.dst := bits_flitHeader 6 rfl (by simp [placeOf, headerFields]) dst (by norm_num)
  have src : bits (flitHeader f) 53 42 = f.src := bits_flitHeader 7 rfl (by simp [placeOf, headerFields]) src (by norm_num)
  have len : bits (flitHeader f) 61 54 = f.len := bits_flitHeader 8 rfl (by simp [placeOf, headerFields]) len (by norm_num)
  have credit : bits (flitHeader f) 68 62 = f.credit := bits_flitHeader 9 rfl (by simp [placeOf, headerFields]) credit (by norm_num)
  have ctc : bits (flitHeader f) 70 69 = f.ctc := bits_flitHeader 10 rfl (by simp [placeOf, headerFields]) ctc (by norm_num)
  have proto : bits (flitHeader f) 74 71 = f.proto := bits_flitHeader 11 rfl (by simp [placeOf, headerFields]) proto (by norm_num)
  have eseq : bits (flitHeader f) 86 75 = f.eseq := bits_flitHeader 12 rfl (by simp [placeOf, headerFields]) eseq (by norm_num)
  have hops : bits (flitHeader f) 93 87 = f.hops := bits_flitHeader 13 rfl (by simp [placeOf, headerFields]) hops (by norm_num)
  rw [readFlit_flitBytes whole, last, tc, fkind, vc, seq, ack, dst, src, len, credit, ctc, proto, eseq, hops]

end Sys2Proof.Machine
end

section
/-! O18: congestion, pauses, and the protocols that the port answers by itself (R360, R361, R364). -/

namespace Sys2Proof.Machine

/-! What a discarded frame leaves (R361). -/

theorem dropFrame_regGet (s : State) (q : Page) (u : Nat) (h : q.base + u ≠ pgHost.base + Reg.HP_DROP) : regGet (dropFrame s) q u = regGet s q u :=
  bumpSat_regGet _ _ _ _ _ _ _ _ h

/-- Only HP_DROP counts a discarded frame: registers, event lines and the device rings hold all that changes. -/
theorem dropFrame_recorded (s : State) : recorded s (dropFrame s) := bumpSat_recorded _ _ _ _ _ _

/-- HP_ERR and its event leave every other register of the port. -/
theorem setErr_port (s : State) (i : Nat) {o : Nat} (err : o ≠ errOff pgHost.kind) (pend : o ≠ Reg.EVT_PEND) :
    regGet (setErr s pgHost i) pgHost o = regGet s pgHost o := by
  have e : errOff pgHost.kind = 0x0A4 := rfl
  apply setErr_regGet <;> omega

/-- The count of HP_DROP rises by 1 up to its largest value (R361). -/
theorem dropFrame_count (s : State) (run : cntHold s pgHost = false) :
    fld (dropFrame s) pgHost Reg.HP_DROP 31 0 = min (fld s pgHost Reg.HP_DROP 31 0 + 1) (2 ^ 32 - 1) := bumpSat_word _ _ _ run

/-- A frame from outside the allow-list is counted and flagged in HP_ERR.ACL, and nothing else happens (R361). -/
theorem dropOutsider (s : State) : recorded s (dropFrame (setErr s pgHost 3)) ∧
    bit (regGet (dropFrame (setErr s pgHost 3)) pgHost (errOff 0x1C)) 3 = true ∧
    (cntHold s pgHost = false →
      fld (dropFrame (setErr s pgHost 3)) pgHost Reg.HP_DROP 31 0 = min (fld s pgHost Reg.HP_DROP 31 0 + 1) (2 ^ 32 - 1)) := by
  refine ⟨(setErr_recorded s pgHost 3).trans (dropFrame_recorded _), ?_, fun run => ?_⟩
  · rw [dropFrame_regGet _ _ _ (by decide)]
    exact setErr_bit s pgHost 3 (by decide) (by decide) (.inl rfl)
  · have same : regGet (setErr s pgHost 3) pgHost Reg.BLK_CTRL = regGet s pgHost Reg.BLK_CTRL := setErr_port s 3 (by decide) (by decide)
    rw [dropFrame_count _ (by rw [cntHold, same]; exact run), fld, setErr_port s 3 (by decide) (by decide)]
    rfl

/-! A bit cleared or set in a word. -/

theorem bit_setBits_zero (x h i : Nat) : bit (setBits x h h 0) i = (bit x i && i != h) := by
  have cleared : setBits x h h 0 = x - (x &&& 2 ^ h) := by
    have one : bits x h h = (x.testBit h).toNat := by
      rw [bits, show h + 1 - h = 1 by omega, Nat.shiftRight_eq_div_pow, Nat.testBit_eq_decide_div_mod_eq]
      rcases Nat.mod_two_eq_zero_or_one (x / 2 ^ h) with z | z <;> simp [z]
    rw [setBits, one, Nat.and_two_pow]
    simp
  rw [cleared, bit_sub_and, bit_eq_testBit (2 ^ h), Nat.testBit_two_pow, bne, Bool.beq_comm]
  rfl

theorem bit_setBits_flag (x h i : Nat) (b : Bool) : bit (setBits x h h (bnat b)) i = if i = h then b else bit x i := by
  cases b
  case false => rw [show bnat false = 0 from rfl, bit_setBits_zero]; by_cases e : i = h <;> simp [e]
  case true => rw [show bnat true = 1 from rfl, bit_setBits_one]; by_cases e : i = h <;> simp [e]

/-- A frame that the port takes up. -/
theorem portTakes {s : State} (up : deviceUp s = true) (port : portUp s = true) (b : Bool) : (deviceUp s && portUp s && b) = b := by
  rw [up, port]; rfl

/-- Settles O18: the rate of one queue pair, the pause bit of one lossless priority, an answer to the own addresses alone, a count and a flag of
what is discarded. -/
theorem portAndCongestion : Obligations.PortAndCongestion := by
  refine ⟨fun qp x s up found => ⟨?_, ?_⟩, fun prio pause s up port small => ⟨fun lossless => ?_, fun lossy => ?_⟩,
    fun src a data s up port => ⟨fun own => ⟨?_, ?_⟩, fun other => ⟨?_, ?_⟩, fun own => ⟨?_, ?_⟩, fun other => ⟨?_, ?_⟩, fun r _ => ?_⟩⟩
  case refine_1 => simp [exec, execCnp, up, setRate, found]
  case refine_2 => simp [exec, execHpCcPeriod, up, setRate, found]
  case refine_3 =>
    refine ⟨_, by simp only [exec, execPfc, portTakes up port, small, lossless]; rfl, rfl, fun i => bit_setBits_flag _ _ _ _⟩
  case refine_4 => simp [exec, execPfc, lossy]
  case refine_5 => simp [exec, execArp, portTakes up port, own]
  case refine_6 => simp [exec, execIcmpEcho, portTakes up port, own, bnat]
  case refine_7 => simp [exec, execArp, other]
  case refine_8 => simp [exec, execIcmpEcho, other]
  case refine_9 => simp [exec, execNeighbourDiscovery, portTakes up port, own]
  case refine_10 => simp [exec, execIcmpEcho, portTakes up port, own, bnat]
  case refine_11 => simp [exec, execNeighbourDiscovery, other]
  case refine_12 => simp [exec, execIcmpEcho, other]
  case refine_13 =>
    have run : exec (.discardedFrame r) s = .next (dropFrame (if r = 5 then setErr s pgHost 3 else s)) := by
      simp [exec, execDiscardedFrame, up, port]
    obtain ⟨rec5, flag, count⟩ := dropOutsider s
    by_cases five : r = 5
    · rw [if_pos five] at run
      exact ⟨_, run, by rw [rec5], rec5, count, fun _ => flag⟩
    · rw [if_neg five] at run
      exact ⟨_, run, by rw [dropFrame_recorded s], dropFrame_recorded s, dropFrame_count s, fun h => absurd h five⟩

end Sys2Proof.Machine
end

section
/-! O3: sessions open, close, idle out and answer inside their window (R367). -/

namespace Sys2Proof.Machine

/-! OPEN (R367). -/

/-- OPEN counts its command before it looks for a free number; the sessions are those there were. -/
theorem freeSession_counted (s : State) (h : Hdr) : freeSession (noteLatency (countCmd s) h 0) = freeSession s := by
  rw [freeSession, freeSession, noteLatency_sessions, countCmd_host]

theorem openSession_runs {h : Hdr} {s : State} (up : deviceUp s = true) (port : portUp s = true) (src : allowed s h.src = true) :
    openSession h s = match freeSession s with
      | none => emit (noteLatency (countCmd s) h 0) (respOf h 0x45 [])
      | some i => emit { noteLatency (countCmd s) h 0 with host := { (noteLatency (countCmd s) h 0).host with
          sessions := s.host.sessions.insert i { src := h.src } } } (.resp { session := i, seq := h.seq, status := 0, src := h.src }) := by
  have kept : (noteLatency (countCmd s) h 0).host.sessions = s.host.sessions := by rw [noteLatency_sessions, countCmd_host]
  simp only [openSession, up, port, src, Bool.not_true, Bool.or_self, Bool.false_eq_true, if_false, freeSession_counted, kept]
  rfl

/-- The lowest number no session has (log entry 52). -/
theorem freeSession_lowest {s : State} {i : Nat} (small : i < 64) (free : s.host.sessions.find i = none)
    (below : ∀ j, j < i → (s.host.sessions.find j).isSome = true) : freeSession s = some i := by
  rw [freeSession, List.find?_range_eq_some]
  refine ⟨by rw [free]; rfl, List.mem_range.mpr small, fun j hj => ?_⟩
  rw [← Option.not_isSome, below j hj]; rfl

theorem freeSession_none {s : State} (full : ∀ j, j < 64 → (s.host.sessions.find j).isSome = true) : freeSession s = none := by
  rw [freeSession, List.find?_eq_none]
  intro j hj
  rw [← Option.not_isSome, full j (List.mem_range.mp hj)]
  exact Bool.false_ne_true

/-! The window of a session (R367). -/

/-- CERT and CLOSE pass the gate of their session first. -/
theorem exec_gated {h : Hdr} {s : State} {c : Instr} (kind : c = .cert h ∨ c = .close h) (up : deviceUp s = true) (port : portUp s = true)
    (src : allowed s h.src = true) {t : State} (gate : sessionGate h s = .done t) : exec c s = .next t := by
  have gated (n : Nat) (f : State → Origin → State) : viaSession h n s f = t := by
    simp only [viaSession, up, port, src, gate, Bool.not_true, Bool.or_self, Bool.false_eq_true, if_false]
  obtain rfl | rfl := kind
  · exact congrArg _ (gated _ _)
  · exact congrArg _ (gated _ _)

theorem sessionGate_missing {h : Hdr} {s : State} (none_ : s.host.sessions.find h.session = none) :
    sessionGate h s = .done (emit s (respOf h 0x40 [])) := by
  rw [sessionGate, none_]; rfl

section Window

variable {h : Hdr} {s : State} {x : Session} (found : s.host.sessions.find h.session = some x)

include found

theorem sessionGate_answered {r : Resp} (answered : x.answers.find? (fun r => r.seq == h.seq) = some r) :
    sessionGate h s = .done (emit s (.resp { r with src := h.src })) := by
  rw [sessionGate, found]; dsimp only; rw [answered]

variable (new : x.answers.find? (fun r => r.seq == h.seq) = none)

include new

theorem sessionGate_inProgress (running : h.seq ∈ x.open_) : sessionGate h s = .done s := by
  rw [sessionGate, found]; dsimp only; rw [new]
  exact if_pos (List.contains_iff_mem.mpr running)

variable (idle : h.seq ∉ x.open_)

include idle

theorem sessionGate_stale (old : h.seq + 64 ≤ x.high) : sessionGate h s = .done (emit s (respOf h 0x41 [])) := by
  rw [sessionGate, found]; dsimp only; rw [new]
  simp only [List.contains_iff_mem, idle, if_false, old, decide_true, Bool.true_or, if_true]
  rfl

theorem sessionGate_full (recent : x.high < h.seq + 64) (nonzero : h.seq ≠ 0) (full : 64 ≤ x.open_.length) :
    sessionGate h s = .done (emit s (respOf h 0x45 [])) := by
  rw [sessionGate, found]; dsimp only; rw [new]
  simp only [List.contains_iff_mem, idle, if_false, Nat.not_le.mpr recent, decide_false, decide_eq_false nonzero, Bool.or_self, Bool.false_eq_true, ge_iff_le,
    full, if_true]
  rfl

end Window

/-! CLOSE (R367). -/

/-- A session's answer takes its place in its own session. -/
theorem respond_sessions_apart (s : State) (h : Hdr) (st : Nat) (b : List Byte) {j : Nat} (other : j ≠ h.session) :
    (respond s (originOf h) st b).host.sessions.find j = s.host.sessions.find j := by
  show (match s.host.sessions.find h.session with
    | some x => s.host.sessions.insert h.session (keepAnswer x _)
    | none => s.host.sessions).find j = s.host.sessions.find j
  split
  · exact SMap.find_insert_ne other _ _
  · rfl

/-- Settles O3: OPEN takes the lowest free number; CLOSE's answer precedes the session's end; the session's gate answers alone where the
command is not taken up. -/
theorem sessions : Obligations.Sessions := by
  refine ⟨fun h s i up port src small free below => ?_, fun h s up port src full => ?_, fun h s ht => ?_, fun i s up => ?_,
    fun h s c kind up port src => ⟨fun missing => ?_, fun x found => ⟨fun r answered => ?_, fun new running => ?_, fun new idle old => ?_,
      fun new idle recent nonzero full => ?_⟩⟩⟩
  · obtain ⟨r, e, z, d, port'⟩ := portOnly_count s h 0
    refine ⟨openSession h s, rfl, ?_⟩
    rw [openSession_runs up port src, freeSession_lowest small free below]
    dsimp only
    rw [port']
    exact ⟨⟨rfl, rfl⟩, rfl⟩
  · have kept : (noteLatency (countCmd s) h 0).host.sessions = s.host.sessions := by rw [noteLatency_sessions, countCmd_host]
    obtain ⟨r, e, z, d, port'⟩ := portOnly_count s h 0
    refine ⟨openSession h s, rfl, ?_⟩
    rw [openSession_runs up port src, freeSession_none full]
    refine ⟨?_, kept⟩
    dsimp only
    rw [port']
    exact ⟨rfl, rfl⟩
  · obtain ⟨u, port, others, run⟩ := viaSession_taken h 0 s (fun t o => endSession (answer t o stOk) h.session) ht
    refine ⟨endSession (answer u (originOf h) stOk) h.session, congrArg _ run, ?_, SMap.find_erase_same _ _, fun j other => ?_⟩
    · obtain ⟨r, e, z, d, rfl⟩ := port
      exact ⟨rfl, rfl⟩
    · exact (SMap.find_erase_ne other _).trans ((respond_sessions_apart u h 0 [] other).trans (others j other))
  · simp [exec, execSessIdle, up, endSession]
  · exact exec_gated kind up port src (sessionGate_missing missing)
  · exact exec_gated kind up port src (sessionGate_answered found answered)
  · exact exec_gated kind up port src (sessionGate_inProgress found new running)
  · exact exec_gated kind up port src (sessionGate_stale found new idle old)
  · exact exec_gated kind up port src (sessionGate_full found new idle recent nonzero full)

end Sys2Proof.Machine
end

section
/-! O4, O5: the commands of the network and its queue pairs (R361, R363, R369, R373); the identity commands (R418, R419, R422). -/

namespace Sys2Proof.Machine

/-- A datagram from outside the allow-list is dropped, whatever its command (R361). -/
theorem viaSession_outsider {h : Hdr} {s : State} (n : Nat) (f : State → Origin → State) (up : deviceUp s = true) (port : portUp s = true)
    (src : allowed s h.src = false) : viaSession h n s f = dropFrame (setErr s pgHost 3) := by
  simp only [viaSession, up, port, src, Bool.not_true, Bool.or_self, Bool.false_eq_true, if_false, Bool.not_false, if_true]

theorem openSession_outsider {h : Hdr} {s : State} (up : deviceUp s = true) (port : portUp s = true) (src : allowed s h.src = false) :
    openSession h s = dropFrame (setErr s pgHost 3) := by
  simp only [openSession, up, port, src, Bool.not_true, Bool.or_self, Bool.false_eq_true, if_false, Bool.not_false, if_true]

/-- A datagram's command that changes the state and answers: where the change reads nothing of the port, dispatch and change commute. -/
theorem answered {h : Hdr} {s v : State} {n : Nat} {cmd : HostCmd} {c : Instr} {st : Nat} {b : List Byte} (ht : taken h s = true)
    (entry : exec c s = .next (datagram h n cmd s))
    (does : ∀ u, portOnly s u → ∃ w, portOnly v w ∧ runCmd u (originOf h) h.ctx cmd = respond w (originOf h) st b) :
    ∃ t, exec c s = .next t ∧ dispatched [respOf h st b] v t := by
  obtain ⟨u, port, run⟩ := datagram_taken h n cmd s ht
  obtain ⟨w, port', does⟩ := does u port
  exact ⟨_, entry, by rw [run, does]; exact dispatched_respond h st b port'⟩

/-- What reads nothing of the port reads the same behind dispatch. -/
theorem portOnly.same {s u : State} (p : portOnly s u) {α : Type} (f : State → α)
    (h : ∀ r e z d, f { s with regs := r, ec := e, host := { s.host with sessions := z, devRings := d } } = f s) : f u = f s := by
  obtain ⟨r, e, z, d, rfl⟩ := p
  exact h r e z d

/-- A change that leaves the port as it is commutes with what dispatch changes. -/
theorem portOnly.map {s u : State} (p : portOnly s u) (f : State → State)
    (h : ∀ r e z d, portOnly (f s) (f { s with regs := r, ec := e, host := { s.host with sessions := z, devRings := d } })) :
    portOnly (f s) (f u) := by
  obtain ⟨r, e, z, d, rfl⟩ := p
  exact h r e z d

theorem doQpDestroy_named {s : State} {o : Origin} {qp : Nat} (found : (s.host.qps.find qp).isSome = true) (named : qpNamed s qp = true) :
    doQpDestroy s o qp = answer s o stQpBusy := by
  rw [doQpDestroy, ← Option.not_isSome, found]
  exact (if_neg Bool.false_ne_true).trans (if_pos named)

theorem doQpDestroy_unnamed {s : State} {o : Origin} {qp : Nat} (found : (s.host.qps.find qp).isSome = true) (unnamed : qpNamed s qp = false) :
    doQpDestroy s o qp = answer { s with host := { s.host with qps := s.host.qps.erase qp } } o stOk := by
  rw [doQpDestroy, ← Option.not_isSome, found, unnamed]
  rfl

theorem doRingConfig_disable {s : State} {h : Hdr} {ring prio qp : Nat} (hr : ring < 16) (hp : prio < 4) :
    doRingConfig s (originOf h) ring prio qp false =
      respond { s with host := { s.host with rings := s.host.rings.erase ring } } (originOf h) stOk (natLe 0 4) := by
  rw [doRingConfig, if_neg (show ¬ (originOf h).onRing = true from Bool.false_ne_true), if_neg (by omega)]
  rfl

theorem doRingConfig_enable {s : State} {h : Hdr} {ring prio qp : Nat} (hr : ring < 16) (hp : prio < 4) (up : qpUp s qp = true) :
    doRingConfig s (originOf h) ring prio qp true =
      respond { s with
        freeCtr := s.freeCtr + 1
        host := { s.host with rings := s.host.rings.insert ring { qp := qp, prio := prio, rkey := (freeNext s).1.toNat } } }
        (originOf h) stOk (natLe (freeNext s).1.toNat 4) := by
  rw [doRingConfig, if_neg (show ¬ (originOf h).onRing = true from Bool.false_ne_true), if_neg (by omega), up]
  rfl

/-- A stream's configuration by its mode: dropped, to the session that asks, to a host ring (R373). -/
def streamOf (h : Hdr) (mode : Nat) (b : BufRef) : Stream :=
  if mode = 0 then {} else if mode = 1 then { mode := 1, session := h.session } else { mode := 2, buf := b }

theorem doTelemConfig_eq {s : State} {h : Hdr} {stream mode : Nat} {b : BufRef} (hs : stream < 6) (hm : mode < 3)
    (fits : mode = 2 → qpUp s b.qp = true ∧ 320 ≤ b.len ∧ b.len ≤ 2 ^ 64) :
    doTelemConfig s (originOf h) stream mode b =
      answer { s with host := { s.host with streams := s.host.streams.put {} stream (streamOf h mode b) } } (originOf h) stOk := by
  rw [doTelemConfig, if_neg (by omega), streamOf]
  by_cases zero : mode = 0
  · rw [if_pos zero, if_pos zero]
  · rw [if_neg zero, if_neg zero]
    by_cases one : mode = 1
    · rw [if_pos one, if_pos one]; rfl
    · obtain ⟨up, long, short⟩ := fits (by omega)
      have ok : bufStatus s b (2 ^ 64) false = 0 := by
        rw [bufStatus, up]; simp; omega
      rw [if_neg one, if_neg one, ok]
      exact (if_neg (by simp)).trans (if_neg (by omega))

/-- Settles O4: outsiders are dropped; each command writes one entry of the network, the queue pairs, the rings or the streams. -/
theorem network : Obligations.Network := by
  refine ⟨fun h s c kind up port src => ?_, fun h c s ht => answered ht rfl fun u port => ?_, fun h qp c s ht small => answered ht rfl fun u port => ?_,
    fun h qp c s ht large => answered ht rfl fun u port => ?_, fun h qp s ht found unnamed => answered ht rfl fun u port => ?_,
    fun h qp s ht found named => answered ht rfl fun u port => ?_, fun h ring prio qp s ht ring' prio' up => ?_,
    fun h ring prio qp s ht ring' prio' => answered ht rfl fun u port => ?_,
    fun h stream mode b s ht stream' mode' fits => answered ht rfl fun u port => ?_⟩
  · obtain ⟨rec_, flag, count⟩ := dropOutsider s
    refine ⟨_, ?_, by rw [rec_], flag, rec_, count⟩
    obtain rfl | rfl | rfl := kind
    · exact congrArg _ (openSession_outsider up port src)
    · exact congrArg _ (viaSession_outsider _ _ up port src)
    · exact congrArg _ (viaSession_outsider _ _ up port src)
  · exact ⟨_, port.map (fun v => { v with host := { v.host with net := { c with allow := c.allow.take 16 } } }) fun r e z d => ⟨r, e, z, d, rfl⟩, rfl⟩
  · exact ⟨_, port.map (fun v => { v with host := { v.host with qps := v.host.qps.insert qp { cfg := c } } }) fun r e z d => ⟨r, e, z, d, rfl⟩,
      if_neg (Nat.not_le.mpr small)⟩
  · exact ⟨u, port, if_pos large⟩
  · refine ⟨_, port.map (fun v => { v with host := { v.host with qps := v.host.qps.erase qp } }) fun r e z d => ⟨r, e, z, d, rfl⟩,
      doQpDestroy_unnamed ?_ ?_⟩
    · rw [port.same (fun v => v.host.qps) fun _ _ _ _ => rfl]; exact found
    · rw [port.same (qpNamed · qp) fun _ _ _ _ => rfl]; exact unnamed
  · refine ⟨u, port, doQpDestroy_named ?_ ?_⟩
    · rw [port.same (fun v => v.host.qps) fun _ _ _ _ => rfl]; exact found
    · rw [port.same (qpNamed · qp) fun _ _ _ _ => rfl]; exact named
  · have enabled := answered (h := h) (c := .ringConfig h ring prio qp true) ht rfl fun u port =>
      ⟨_, port.map (fun v => { v with
          freeCtr := v.freeCtr + 1
          host := { v.host with rings := v.host.rings.insert ring { qp := qp, prio := prio, rkey := (freeNext v).1.toNat } } })
          fun r e z d => ⟨r, e, z, d, rfl⟩,
        (doRingConfig_enable ring' prio' ((port.same (qpUp · qp) fun _ _ _ _ => rfl).trans up)).trans
          (by rw [port.same (fun v => (freeNext v).1) fun _ _ _ _ => rfl])⟩
    obtain ⟨t, run, out⟩ := enabled
    exact ⟨t, _, run, out⟩
  · exact ⟨_, port.map (fun v => { v with host := { v.host with rings := v.host.rings.erase ring } }) fun r e z d => ⟨r, e, z, d, rfl⟩,
      doRingConfig_disable ring' prio'⟩
  · exact ⟨_, port.map (fun v => { v with host := { v.host with streams := v.host.streams.put {} stream (streamOf h mode b) } })
      fun r e z d => ⟨r, e, z, d, rfl⟩, doTelemConfig_eq stream' mode' fun two => by
        rw [port.same (qpUp · b.qp) fun _ _ _ _ => rfl]; exact fits two⟩

/-! The identity commands (R419, R422). -/

theorem doAttest_eq {s : State} {h : Hdr} {nonce : List Byte} (len : nonce.length = 32) (good : Config.identityOk = true) :
    doAttest s (originOf h) nonce = respond { s with freeCtr := s.freeCtr + 1 } (originOf h) stOk
      (reportBody s nonce ++ Config.ecdsaSign (sha256 (reportBody s nonce)) s.freeCtr) := by
  rw [doAttest, len, good]; rfl

theorem doAttest_lost {s : State} {h : Hdr} {nonce : List Byte} (len : nonce.length = 32) (lost : Config.identityOk = false) :
    doAttest s (originOf h) nonce = answer s (originOf h) stIdentityLost := by
  rw [doAttest, len, lost]; rfl

/-- Bytes 32 to 63 of the report are the nonce (R422). -/
theorem reportBody_nonce (s : State) {nonce : List Byte} (len : nonce.length = 32) : ((reportBody s nonce).drop 32).take 32 = nonce := by
  unfold reportBody
  simp only [List.append_assoc]
  rw [← List.append_assoc, ← List.append_assoc, ← List.append_assoc, ← List.append_assoc, ← List.append_assoc, ← List.append_assoc]
  rw [List.drop_left' (by simp), List.take_left' len]

/-- Settles O5: the certificates each behind its length; the report over the nonce with its signature where the identity key is good. -/
theorem identityCommands : Obligations.IdentityCommands := by
  refine ⟨fun h s ht => answered ht rfl fun u port => ⟨u, port, rfl⟩, fun h nonce s ht len => ?_⟩
  obtain ⟨u, port, run⟩ := datagram_taken h nonce.length (.attest nonce) s ht
  refine ⟨_, rfl, fun good => ⟨reportBody u nonce, ?_, reportBody_nonce u len⟩, fun lost => ?_⟩
  · rw [run, show runCmd u (originOf h) h.ctx (.attest nonce) = _ from doAttest_eq len good,
      port.same State.freeCtr fun _ _ _ _ => rfl]
    exact dispatched_respond h 0 _ (port.map (fun v => { v with freeCtr := s.freeCtr + 1 }) fun r e z d => ⟨r, e, z, d, rfl⟩)
  · rw [run, show runCmd u (originOf h) h.ctx (.attest nonce) = _ from doAttest_lost len lost]
    exact dispatched_respond h _ [] port

end Sys2Proof.Machine
end

section
/-! O6, O7: a register range refused whole, and a register write by access code (R427, R428, R431, R433). -/

namespace Sys2Proof.Machine

/-- A range with a misaligned or an unmapped word is not accessed (R428). -/
theorem rangeOk_false {addr n : Nat} (bad : addr % 4 ≠ 0 ∨ ∃ i, i < n ∧ pageOf (addr + 4 * i) = none) : rangeOk addr n = false := by
  rw [rangeOk, Bool.and_eq_false_iff]
  obtain odd | ⟨i, hi, unmapped⟩ := bad
  · exact .inl (beq_false_of_ne odd)
  · refine .inr (List.all_eq_false.mpr ⟨i, List.mem_range.mpr hi, ?_⟩)
    rw [unmapped]; exact Bool.false_ne_true

/-- Settles O6: the range's check refuses the whole command before it reads or writes. -/
theorem registerRangeRefused : Obligations.RegisterRangeRefused := by
  intro h addr n ws s some_ short len bad
  have refused := rangeOk_false bad
  refine ⟨fun ht => ⟨answered ht rfl fun u port => ⟨u, port, ?_⟩, answered ht rfl fun u port => ⟨u, port, ?_⟩⟩, ?_⟩
  · rw [runCmd, doRegRead, if_neg (by simp [originOf, Origin.onRing]; omega), refused]; rfl
  · rw [runCmd, doRegWrite, if_neg (by omega), len, refused]; rfl
  · simp [exec, execRegWrite, ownWrite, len, refused]

/-! What dispatch leaves of the staged bank. -/

theorem setEvt_shadow (s : State) (p : Page) (m : Nat) : (setEvt s p m).regs.shadow = s.regs.shadow := by
  rw [setEvt, updateLine_regs]; rfl

theorem setErrBit_shadow (s : State) (p : Page) (i : Nat) : (setErrBit s p i).regs.shadow = s.regs.shadow := by
  unfold setErrBit
  dsimp only
  split
  · rfl
  · rw [setEvt_shadow]; rfl

theorem logFault_shadow (s : State) (f : FaultRec) : (logFault s f).regs.shadow = s.regs.shadow := by
  unfold logFault pushRec
  dsimp only
  split
  · rfl
  · exact setErrBit_shadow ..

theorem setErr_shadow (s : State) (p : Page) (i : Nat) : (setErr s p i).regs.shadow = s.regs.shadow := by
  unfold setErr
  split
  · rfl
  · dsimp only
    split
    · rw [logFault_shadow, setErrBit_shadow]
    · exact setErrBit_shadow ..

theorem countCmd_shadow (s : State) : (countCmd s).regs.shadow = s.regs.shadow := by
  unfold countCmd bumpWrap
  split <;> rfl

theorem noteLatency_shadow (s : State) (h : Hdr) (n : Nat) : (noteLatency s h n).regs.shadow = s.regs.shadow := by
  unfold noteLatency
  split
  · rfl
  · dsimp only
    split
    · rw [logFault_shadow, setErr_shadow]; rfl
    · rfl

/-- The state in which a command that is taken up runs. -/
def dispatchState (h : Hdr) (n : Nat) (s : State) : State := viaSession h n s (fun t _ => t)

/-- A command that is taken up runs on the state that dispatch leaves: the staged bank as it was, and every register away from the port's page. -/
theorem viaSession_dispatchState {h : Hdr} {s : State} (n : Nat) (f : State → Origin → State) (ht : taken h s = true) :
    viaSession h n s f = f (dispatchState h n s) (originOf h) ∧ portOnly s (dispatchState h n s) ∧
    (∀ p off, offPort p off → regGet (dispatchState h n s) p off = regGet s p off ∧ shadowGet (dispatchState h n s) p off = shadowGet s p off) := by
  obtain ⟨u, port, same, run⟩ := viaSession_taken_regs n (fun t _ => t) ht
  have run : dispatchState h n s = u := run
  obtain ⟨z, gate⟩ := sessionGate_taken ht
  simp only [taken, Bool.and_eq_true] at ht
  obtain ⟨⟨⟨up, portUp_⟩, fromAllowed⟩, -⟩ := ht
  have runs (g : State → Origin → State) : viaSession h n s g =
      g (if h.tie then logArrival (noteLatency (countCmd { s with host := { s.host with sessions := z } }) h n) h.seq h.session
        else noteLatency (countCmd { s with host := { s.host with sessions := z } }) h n) (originOf h) := by
    simp only [viaSession, up, portUp_, fromAllowed, gate, Bool.not_true, Bool.or_self, Bool.false_eq_true, if_false]
    rfl
  have shadow : (dispatchState h n s).regs.shadow = s.regs.shadow := by
    rw [dispatchState, runs]
    split
    · rw [logArrival, logFault_shadow, noteLatency_shadow, countCmd_shadow]
    · rw [noteLatency_shadow, countCmd_shadow]
  refine ⟨(runs f).trans (congrArg (f · (originOf h)) (runs fun t _ => t).symm), run ▸ port, fun p off away => ⟨run ▸ same p off away, ?_⟩⟩
  rw [shadowGet, shadow]; rfl

/-! A plain register write (R431). -/

/-- A hub's register without an effect of its own takes the plain effect of its access codes. -/
theorem blockWrite_plain {p : Page} {off : Nat} (s : State) (w : Nat) (hub : onHub p = true) (plain : ownEffect p.kind off = false) :
    blockWrite s p off w = plainWrite s p off w := by
  have kind := ((onHub_iff p).mp hub).2
  have listed {k o : Nat} (hk : p.kind = k) (ho : off = o) (own : ownEffect k o = true) : False := by
    rw [hk, ho, own] at plain
    cases plain
  unfold blockWrite
  split
  case h_12 =>
    refine if_neg fun within => listed (by assumption) rfl ?_
    rw [ownEffect, decide_eq_true within]; exact Bool.or_true _
  case h_17 => rfl
  case h_14 e => omega
  case h_15 e => omega
  case h_16 e => omega
  all_goals exact (listed (by assumption) rfl (by decide)).elim

/-- A mapped register of a hub takes the plain effect at a write of its word. -/
theorem writeWord_plain {p : Page} {off : Nat} (s : State) (w : Nat) (page : pageOf (p.base + off) = some p) (body : 0x80 ≤ off)
    (hub : onHub p = true) (plain : ownEffect p.kind off = false) : writeWord s (p.base + off) w = plainWrite s p off w := by
  rw [writeWord, page]
  dsimp only
  rw [Nat.add_sub_cancel_left, touch_hub s hub, if_neg (by omega), blockWrite_plain s w hub plain]

/-- What a register and its staged word are after the write of a word, bit by bit and by access; every other address stays (R431, R433). -/
def writtenByAccess (p : Page) (off : Nat) (w : Word) (s t : State) : Prop :=
  (∀ i, i < 32 →
    bit (regGet t p off) i = ((if bit (maskAt p.kind off .rw ||| maskAt p.kind off .rwr) i then w.getLsbD i else bit (regGet s p off) i) &&
      !(bit (maskAt p.kind off .w1c) i && w.getLsbD i)) ∧
    bit (shadowGet t p off) i = (if bit (maskAt p.kind off .rws) i then w.getLsbD i else bit (shadowGet s p off) i)) ∧
  ∀ (q : Page) (u : Nat), q.base + u ≠ p.base + off → regGet t q u = regGet s q u ∧ shadowGet t q u = shadowGet s q u

theorem plainWrite_byAccess (s : State) (p : Page) (off : Nat) (w : Word) :
    ∃ r, plainWrite s p off w.toNat = { s with regs := r } ∧ writtenByAccess p off w s (plainWrite s p off w.toNat) := by
  obtain ⟨r, only, bits_, others⟩ := plainWrite_spec s p off w.toNat
  have word (i : Nat) : bit w.toNat i = w.getLsbD i := bit_eq_testBit ..
  simp only [word] at bits_
  exact ⟨r, only, bits_, others⟩

section

variable {p : Page} {off : Nat} (page : pageOf (p.base + off) = some p) (aligned : (p.base + off) % 4 = 0) (body : 0x80 ≤ off)
  (hub : onHub p = true) (plain : ownEffect p.kind off = false)

include page

/-- An address of another page than the port's is away from the port. -/
theorem offPort_of_ne (other : p.base ≠ pgHost.base) : offPort p off := by
  have base := pageOf_base page
  have port : pgHost.base = 0x90 * 0x1000 := rfl
  unfold offPort
  omega

section

include aligned

theorem rangeOk_word : rangeOk (p.base + off) 1 = true := by simp [rangeOk, aligned, page]

end

include body hub plain

theorem writeWords_plain {s : State} (up : deviceUp s = true) (w : Word) :
    writeWords [w] s (p.base + off) = plainWrite s p off w.toNat := by
  rw [writeWords, if_pos up, writeWord_plain s _ page body hub plain]; rfl

include aligned

/-- Riendin's write of one register. -/
theorem ownWrite_plain {s : State} (up : deviceUp s = true) (w : Word) : ownWrite s (p.base + off) [w] = plainWrite s p off w.toNat := by
  rw [ownWrite, up, show rangeOk (p.base + off) [w].length = true from rangeOk_word page aligned]
  exact writeWords_plain page body hub plain up w

/-- A host's write of one register. -/
theorem doRegWrite_plain {s : State} (up : deviceUp s = true) (o : Origin) (w : Word) :
    doRegWrite s o (p.base + off) [w] = answer (plainWrite s p off w.toNat) o stOk := by
  obtain ⟨r, only, -⟩ := plainWrite_byAccess s p off w
  have still : deviceUp (plainWrite s p off w.toNat) = true := by rw [only]; exact up
  rw [doRegWrite, if_neg (by simp), show rangeOk (p.base + off) [w].length = true from rangeOk_word page aligned,
    writeWords_plain page body hub plain up]
  exact if_pos still

end

/-- Settles O7: both ways to write end in the plain write of the register, on the state itself or on the one dispatch leaves. -/
theorem registerWriteByAccess : Obligations.RegisterWriteByAccess := by
  intro h p off w s up page aligned body hub plain
  refine ⟨?own, fun ht other => ?datagram⟩
  case own =>
    obtain ⟨r, only, bits_, others⟩ := plainWrite_byAccess s p off w
    exact ⟨plainWrite s p off w.toNat, congrArg Host.Outcome.next (ownWrite_plain page aligned body hub plain up w), by rw [only], bits_, others⟩
  case datagram =>
    obtain ⟨run, port, same⟩ := viaSession_dispatchState (8 + 4 * [w].length) (fun t o => runCmd t o h.ctx (.regWrite (p.base + off) [w])) ht
    obtain ⟨r, only, bits_, others⟩ := plainWrite_byAccess (dispatchState h (8 + 4 * [w].length) s) p off w
    have stillUp : deviceUp (dispatchState h (8 + 4 * [w].length) s) = true := (port.same deviceUp fun _ _ _ _ => rfl).trans up
    have answer_ := doRegWrite_plain page aligned body hub plain stillUp (originOf h) w
    obtain ⟨kept, staged⟩ := same p off (offPort_of_ne page other)
    refine ⟨_, congrArg Host.Outcome.next (run.trans answer_), ?_, ?_, fun q u ne away => ?_⟩
    · rw [only]
      exact dispatched_respond h _ [] (portOnly_trans port ⟨r, _, _, _, rfl⟩)
    · rw [kept, staged] at bits_
      exact bits_
    · obtain ⟨kept, staged⟩ := same q u away
      rw [← kept, ← staged]
      exact others q u ne

end Sys2Proof.Machine
end

section
/-! O9: private sources, EC_NEXT, and the registers of the event controller and the pegs' lines (R386, R388, R389, R391, R430). -/

namespace Sys2Proof.Machine

/-! The lowest entry of an ordered map. -/

theorem SMap.find_eq_some_of_mem {α : Type} {lo : Nat} {m : SMap α} (ordered : sortedFrom lo m = true) {k : Nat} {v : α} (mem : (k, v) ∈ m) :
    find k m = some v := by
  have kept := SMap.find_map_of_mem id lo m ordered (k, v) mem
  rwa [show (m.map fun e => (e.1, id e.2)) = m from List.map_id m] at kept

/-- The first entry of an ordered map that satisfies a property is the one of the lowest key. -/
theorem SMap.find?_lowest {α : Type} (p : α → Bool) {n : Nat} {v : α} : ∀ {lo : Nat} {m : SMap α}, sortedFrom lo m = true → find n m = some v →
    p v = true → (∀ j w, j < n → find j m = some w → p w = false) → List.find? (fun e => p e.2) m = some (n, v)
  | _, [], _, found, _, _ => nomatch found
  | lo, (j, w) :: t, ordered, found, holds, below => by
    have tail : sortedFrom (j + 1) t = true := by
      simp only [sortedFrom, Bool.and_eq_true] at ordered; exact ordered.2
    by_cases here : j = n
    · subst here
      obtain rfl : w = v := by simpa [find] using found
      simp [holds]
    · have later : find n t = some v := by simpa [find, here] using found
      have lt : j < n := SMap.le_of_mem_sortedFrom tail (SMap.mem_of_find later)
      have skip : p w = false := below j w lt (by simp [find])
      rw [List.find?_cons_of_neg (by simp [skip])]
      refine SMap.find?_lowest p tail later holds fun i x hi hx => below i x hi ?_
      have above : j + 1 ≤ i := SMap.le_of_mem_sortedFrom tail (SMap.mem_of_find hx)
      rw [find, if_neg (by omega), hx]

/-! EC_NEXT (R388). -/

/-- A private source is pending and enabled. -/
def privatePending (s : State) (proc i : Nat) : Bool := decide (i < 9) && bit (s.ec.ppend.get 0 proc) i && bit (s.ec.pen.get 0 proc) i

/-- A shared source is pending and enabled and goes to the processor. -/
def sharedPending (s : State) (proc n : Nat) : Prop := (getSrc s n).pend = true ∧ (getSrc s n).en = true ∧ (getSrc s n).target = proc

theorem nextPrivate_lowest {s : State} {proc i : Nat} (here : privatePending s proc i = true) (below : ∀ j, j < i → privatePending s proc j = false) :
    nextPrivate s proc = some i := by
  simp only [privatePending, Bool.and_eq_true, decide_eq_true_eq] at here
  obtain ⟨⟨small, pend⟩, en⟩ := here
  rw [nextPrivate, List.find?_range_eq_some]
  refine ⟨by rw [pend, en]; rfl, List.mem_range.mpr small, fun j hj => ?_⟩
  have not_ := below j hj
  rw [privatePending, decide_eq_true (by omega), Bool.true_and] at not_
  rw [not_]; rfl

theorem nextPrivate_none {s : State} {proc : Nat} (none_ : ∀ i, privatePending s proc i = false) : nextPrivate s proc = none := by
  rw [nextPrivate, List.find?_eq_none]
  intro i hi
  have not_ := none_ i
  rw [privatePending, decide_eq_true (List.mem_range.mp hi), Bool.true_and] at not_
  rw [not_]; exact Bool.false_ne_true

/-- A source that stands in the map, routed to the processor, pending and enabled. -/
def routed (proc : Nat) (x : Source) : Bool := x.pend && x.en && x.target == proc

theorem nextShared_eq (s : State) (proc : Nat) : nextShared s proc = (List.find? (fun e => routed proc e.2) s.ec.shared).map (·.1) := rfl

theorem sharedPending_iff (s : State) (proc n : Nat) : sharedPending s proc n ↔ routed proc (getSrc s n) = true := by
  simp [sharedPending, routed, and_assoc]

/-- A source that is routed stands in the map: one that was never written is disabled. -/
theorem routed_found {s : State} {proc n : Nat} (h : routed proc (getSrc s n) = true) : s.ec.shared.find n = some (getSrc s n) := by
  unfold getSrc SMap.get at h ⊢
  cases found : s.ec.shared.find n with
  | none => rw [found] at h; exact absurd h Bool.false_ne_true
  | some x => rfl

theorem getSrc_of_find {s : State} {n : Nat} {x : Source} (found : s.ec.shared.find n = some x) : getSrc s n = x := by
  rw [getSrc, SMap.get, found]; rfl

section
variable {s : State} {proc : Nat} (ordered : SMap.sorted s.ec.shared = true)
include ordered

theorem nextShared_lowest {n : Nat} (here : sharedPending s proc n) (below : ∀ m, m < n → ¬ sharedPending s proc m) : nextShared s proc = some n := by
  rw [sharedPending_iff] at here
  rw [nextShared_eq, SMap.find?_lowest (routed proc) ordered (routed_found here) here fun j w hj found => ?_]
  · rfl
  · have not_ := below j hj
    rw [sharedPending_iff, getSrc_of_find found] at not_
    exact Bool.eq_false_iff.mpr not_

theorem nextShared_none (none_ : ∀ n, ¬ sharedPending s proc n) : nextShared s proc = none := by
  rw [nextShared_eq, Option.map_eq_none_iff, List.find?_eq_none]
  rintro ⟨n, x⟩ mem
  have not_ := none_ n
  rwa [sharedPending_iff, getSrc_of_find (SMap.find_eq_some_of_mem ordered mem)] at not_

theorem nextShared_isSome : (nextShared s proc).isSome = true ↔ ∃ n, sharedPending s proc n := by
  rw [nextShared_eq, Option.isSome_map, List.find?_isSome]
  constructor
  · rintro ⟨⟨n, x⟩, mem, holds⟩
    exact ⟨n, (sharedPending_iff s proc n).mpr (by rw [getSrc_of_find (SMap.find_eq_some_of_mem ordered mem)]; exact holds)⟩
  · rintro ⟨n, here⟩
    rw [sharedPending_iff] at here
    exact ⟨(n, getSrc s n), SMap.mem_of_find (routed_found here), here⟩

/-- The interrupt input is asserted exactly while a source waits (R388). -/
theorem interrupted_iff : interrupted s proc = true ↔ (∃ i, privatePending s proc i = true) ∨ ∃ n, sharedPending s proc n := by
  have private_ : (nextPrivate s proc).isSome = true ↔ ∃ i, privatePending s proc i = true := by
    rw [nextPrivate, List.find?_isSome]
    simp [privatePending, and_assoc]
  rw [interrupted, Bool.or_eq_true, private_, nextShared_isSome ordered]

end

/-! The registers of the event controller (R388, R430). -/

/-- EC_SCFG's word written to a source: a route only to a processor there is, an enable, a clear of the pending bit (R388). -/
def configured (x : Source) (w : Word) : Source :=
  { x with target := if bits w.toNat 2 0 ≤ 4 then bits w.toNat 2 0 else x.target, en := w.getLsbD 3, pend := x.pend && !w.getLsbD 4 }

theorem ecScfgWrite_eq (s : State) (w : Word) : ecScfgWrite s w.toNat =
    (let t := putSrc s (fld s pgEvent Reg.EC_SSEL 9 0) (configured (getSrc s (fld s pgEvent Reg.EC_SSEL 9 0)) w)
    if bits w.toNat 2 0 ≤ 4 then t else setErr t pgEvent 0) := by
  have bit3 : bit w.toNat 3 = w.getLsbD 3 := bit_eq_testBit ..
  have bit4 : bit w.toNat 4 = w.getLsbD 4 := bit_eq_testBit ..
  have clear (b c : Bool) : (if b = true then false else c) = (c && !b) := by cases b <;> simp
  rw [ecScfgWrite]
  simp only [bit3, bit4, clear]
  rfl

/-- The event controller's page drives no shared source's line, and the host port's page none but 240 (R430). -/
theorem updateLine_event (s : State) : updateLine s pgEvent = s := by
  have none_ : lineOf s pgEvent = none := by
    unfold lineOf
    split <;> rfl
  rw [updateLine, none_]

theorem updateLine_port_src (s : State) {m : Nat} (h : m ≠ 240) : getSrc (updateLine s pgHost) m = getSrc s m := by
  have own : lineOf s pgHost = some 240 ∨ lineOf s pgHost = none := by
    unfold lineOf
    split
    · exact .inl rfl
    · exact .inl rfl
    · exact .inr rfl
  unfold updateLine
  obtain own | own := own
  · rw [own]; exact getSrc_putSrc_ne s h _
  · rw [own]

theorem setErrBit_port_src (s : State) (i : Nat) {m : Nat} (h : m ≠ 240) : getSrc (setErrBit s pgHost i) m = getSrc s m := by
  unfold setErrBit
  dsimp only
  split
  · rfl
  · exact updateLine_port_src _ h

theorem logFault_src (s : State) (f : FaultRec) {m : Nat} (h : m ≠ 240) : getSrc (logFault s f) m = getSrc s m := by
  unfold logFault pushRec
  dsimp only
  split
  · rfl
  · exact setErrBit_port_src _ _ h

/-- An error of the event controller leaves every shared source but the host port's (R430). -/
theorem setErr_event_src (s : State) (i : Nat) {m : Nat} (h : m ≠ 240) : getSrc (setErr s pgEvent i) m = getSrc s m := by
  have bit_ : getSrc (setErrBit s pgEvent i) m = getSrc s m := by
    unfold setErrBit
    dsimp only
    split
    · rfl
    · rw [setEvt, updateLine_event]; rfl
  unfold setErr
  split
  · rfl
  · dsimp only
    split
    · rw [logFault_src _ _ h, bit_]
    · exact bit_

/-- EVT_SET sets pending bits of its page and nothing else in the registers (R430). -/
theorem setEvt_pend (s : State) (p : Page) (w : Word) {i : Nat} (hi : i < 32) :
    bit (regGet (setEvt s p w.toNat) p Reg.EVT_PEND) i = (bit (regGet s p Reg.EVT_PEND) i || w.getLsbD i) := by
  rw [setEvt, regGet_congr (congrArg RegBank.applied (updateLine_regs _ p)), regGet_regSet, bit_mod _ _ hi]
  simp only [bit_eq_testBit, Nat.testBit_or]
  rfl

/-! PG_GREACH (R389, R391). -/

/-- The reached bits of a group that the word names are cleared, those of the first n pegs. -/
def clearReached (s : State) (k0 w n : Nat) : State :=
  (List.range n).foldl (fun s i => if bit w i then putPeg s (k0 + i) { getPeg s (k0 + i) with reached := false } else s) s

theorem clearReached_succ (s : State) (k0 w n : Nat) : clearReached s k0 w (n + 1) =
    (let t := clearReached s k0 w n
    if bit w n then putPeg t (k0 + n) { getPeg t (k0 + n) with reached := false } else t) := by
  rw [clearReached, List.range_succ, List.foldl_append]; rfl

theorem clearReached_only (s : State) (k0 w : Nat) : ∀ n, ∃ g, clearReached s k0 w n = { s with pegs := g }
  | 0 => ⟨s.pegs, rfl⟩
  | n + 1 => by
    obtain ⟨g, h⟩ := clearReached_only s k0 w n
    rw [clearReached_succ, h]
    dsimp only
    split
    · exact ⟨_, rfl⟩
    · exact ⟨g, rfl⟩

theorem getPeg_clearReached (s : State) (k0 w k : Nat) : ∀ n, getPeg (clearReached s k0 w n) k =
    if k0 ≤ k ∧ k < k0 + n then { getPeg s k with reached := (getPeg s k).reached && !bit w (k - k0) } else getPeg s k
  | 0 => (if_neg (by omega)).symm
  | n + 1 => by
    have before := getPeg_clearReached s k0 w k n
    rw [clearReached_succ]
    dsimp only
    by_cases here : k = k0 + n
    · subst here
      have inside : k0 ≤ k0 + n ∧ k0 + n < k0 + (n + 1) := by omega
      rw [if_neg (by omega)] at before
      rw [if_pos inside, Nat.add_sub_cancel_left]
      by_cases named : bit w n = true
      · rw [if_pos named, getPeg_putPeg, before, named]; simp
      · rw [if_neg named, before, Bool.eq_false_iff.mpr named]; simp
    · have same : (k0 ≤ k ∧ k < k0 + (n + 1)) ↔ (k0 ≤ k ∧ k < k0 + n) := by omega
      simp only [same]
      split
      · rw [getPeg_putPeg_ne _ here, before]
      · exact before

theorem groupLevel_congr {s t : State} (h : t.pegs = s.pegs) (k : Nat) : groupLevel t k = groupLevel s k := by
  have same (j : Nat) : getPeg t j = getPeg s j := by rw [getPeg, h]; rfl
  simp only [groupLevel, same]

/-- What a write of PG_GREACH leaves: the reached bits named are cleared in the group, and the group's line stands as its pegs say, one that
still has a reason to rise raised anew. -/
def groupCleared (k0 : Nat) (x : Word) (s t : State) : Prop :=
  t = { s with pegs := t.pegs, ec := t.ec } ∧
  (∀ i, i < 32 → getPeg t (k0 + i) = { getPeg s (k0 + i) with reached := (getPeg s (k0 + i)).reached && !x.getLsbD i }) ∧
  (∀ k, k < k0 ∨ k0 + 32 ≤ k → getPeg t k = getPeg s k) ∧ (getSrc t (272 + k0 / 32)).level = groupLevel t k0 ∧
  (groupLevel t k0 = true → (getSrc t (272 + k0 / 32)).pend = true)

/-- The group's line as it comes to stand behind the cleared pegs. -/
theorem groupCleared_line {s : State} {k0 : Nat} {x : Word} {y : Source} (level : y.level = groupLevel (clearReached s k0 x.toNat 32) k0)
    (pend : groupLevel (clearReached s k0 x.toNat 32) k0 = true → y.pend = true) :
    groupCleared k0 x s (putSrc (clearReached s k0 x.toNat 32) (272 + k0 / 32) y) := by
  have word (i : Nat) : bit x.toNat i = x.getLsbD i := bit_eq_testBit ..
  have peg (k : Nat) : getPeg (putSrc (clearReached s k0 x.toNat 32) (272 + k0 / 32) y) k = getPeg (clearReached s k0 x.toNat 32) k := rfl
  refine ⟨?_, fun i hi => ?_, fun k hk => ?_, ?_, fun up => ?_⟩
  · obtain ⟨g, only⟩ := clearReached_only s k0 x.toNat 32
    rw [putSrc, only]
  · have inside : k0 ≤ k0 + i ∧ k0 + i < k0 + 32 := by omega
    rw [peg, getPeg_clearReached, if_pos inside, Nat.add_sub_cancel_left, word]
  · have outside : ¬ (k0 ≤ k ∧ k < k0 + 32) := by omega
    rw [peg, getPeg_clearReached, if_neg outside]
  · rw [getSrc_putSrc, level]; rfl
  · rw [getSrc_putSrc]; exact pend up

theorem pgGreachWrite_spec (s : State) (hall : Nat) (x : Word) :
    groupCleared (hall * 1024 + fld s (pgPeg hall) Reg.PG_SEL 9 0 / 32 * 32) x s (pgGreachWrite s hall x.toNat) := by
  rw [pgGreachWrite]
  dsimp only
  split
  · next up => exact groupCleared_line up.symm fun _ => rfl
  · next down => exact groupCleared_line (Bool.eq_false_iff.mpr down).symm fun up => absurd up down

/-- Settles O9: the private sources each raise one bit; EC_NEXT takes the lowest of those that wait; EC_SCFG, EVT_SET and PG_GREACH write what
they name. -/
theorem events : Obligations.Events := by
  refine ⟨⟨fun w t s hw ht ne => ?_, fun w t s bad => ?_, fun p s hp => ?_⟩, fun s proc => ?_, fun x s low => ?_, fun x s high => ?_,
    fun page p x s mapped => ?_, fun hall x s small => ?_⟩
  · simp [exec, execEcRing, ecRingWrite, raisePrivate, hw, ht, ne, show w ≤ 8 by omega]
  · rw [exec, execEcRing, ecRingWrite, if_neg (by omega)]
  · simp [exec, execLocalTimer, execWatchdogWarning, execCacheError, raisePrivate, hp]
  · intro priv shared ordered
    refine ⟨fun i here below => ?_, fun noPrivate n here below => ?_, fun noPrivate noShared => ?_, interrupted_iff ordered⟩
    · rw [ecNext, nextPrivate_lowest here below]
    · rw [ecNext, nextPrivate_none noPrivate, nextShared_lowest ordered here below]
    · rw [ecNext, nextPrivate_none noPrivate, nextShared_none ordered noShared]
  · intro n new
    rw [exec, execEcScfg, ecScfgWrite_eq, if_pos low, configured, if_pos low]; rfl
  · intro n
    refine ⟨_, rfl, ?_, fun m hm => ?_⟩
    · rw [ecScfgWrite_eq, if_neg (by omega)]
      exact setErr_bit _ pgEvent 0 (by decide) (by decide) (.inr (by decide))
    · rw [ecScfgWrite_eq, if_neg (by omega), setErr_event_src _ _ hm, configured, if_neg (by omega)]
      split
      · next here => rw [here]; exact getSrc_putSrc ..
      · next apart => exact getSrc_putSrc_ne s apart _
  · refine ⟨setEvt s p x.toNat, by rw [exec, execEvtSet, mapped]; rfl, ?_, fun i hi => setEvt_pend s p x hi, fun q u ne => setEvt_regGet s p q _ u ne⟩
    obtain ⟨r, e, only⟩ := setEvt_only s p x.toNat
    rw [only]
  · exact ⟨_, by rw [exec, execPgGreach, Nat.mod_eq_of_lt small], pgGreachWrite_spec s hall x⟩

end Sys2Proof.Machine
end

section
/-! O13, O14, O15: swings and swing groups (R430, R433, R434, R436 to R439). -/

namespace Sys2Proof.Machine

/-! Offsets of staged registers lie in their page (R427). -/

theorem pageFields_inPage (k : Nat) : ∀ f ∈ pageFields k, f.off < 0x1000 := by
  unfold pageFields
  split <;> decide

theorem rwsOffs_inPage {k o : Nat} (h : o ∈ rwsOffs k) : o < 0x1000 := by
  rw [rwsOffs, List.mem_filter, List.mem_eraseDups, List.mem_map] at h
  obtain ⟨⟨f, hf, rfl⟩, -⟩ := h
  rw [allFields, List.mem_filter, List.mem_append] at hf
  obtain ⟨hdr | page, -⟩ := hf
  · exact (by decide : ∀ f ∈ hdrFields, f.off < 0x1000) f hdr
  · exact pageFields_inPage k f page

/-! CANCEL (R439). -/

/-- The applied RWS fields of some registers are taken into the staged bank. -/
def unstage (p : Page) (l : List Nat) (s : State) : State :=
  l.foldl (fun s o => shadowSet s p o (mergeRws p o (shadowGet s p o) (regGet s p o))) s

theorem shadowGet_shadowSet_ne (s : State) (p : Page) {o u : Nat} (v : Nat) (h : u ≠ o) : shadowGet (shadowSet s p o v) p u = shadowGet s p u := by
  have apart : p.base + u ≠ p.base + o := by omega
  unfold shadowGet shadowSet SMap.get SMap.put
  dsimp only
  split
  · rw [SMap.find_erase_ne apart]
  · rw [SMap.find_insert_ne apart]

theorem unstage_only (p : Page) : ∀ (l : List Nat) (s : State), ∃ x, unstage p l s = { s with regs := { s.regs with shadow := x } }
  | [], s => ⟨s.regs.shadow, rfl⟩
  | o :: t, s => unstage_only p t (shadowSet s p o (mergeRws p o (shadowGet s p o) (regGet s p o)))

theorem unstage_apart (p : Page) {u : Nat} : ∀ (l : List Nat) (s : State), u ∉ l → shadowGet (unstage p l s) p u = shadowGet s p u
  | [], _, _ => rfl
  | o :: t, s, h => by
    rw [unstage, List.foldl_cons, ← unstage, unstage_apart p t _ (List.not_mem_of_not_mem_cons h),
      shadowGet_shadowSet_ne _ _ _ (List.ne_of_not_mem_cons h)]

theorem unstage_shadow (p : Page) {u : Nat} : ∀ (l : List Nat) (s : State), l.Nodup → u ∈ l →
    shadowGet (unstage p l s) p u = mergeRws p u (shadowGet s p u) (regGet s p u) % 2 ^ 32
  | [], _, _, mem => nomatch mem
  | o :: t, s, distinct, mem => by
    obtain ⟨notIn, distinct⟩ := List.nodup_cons.mp distinct
    rw [unstage, List.foldl_cons, ← unstage]
    by_cases here : u = o
    · subst here
      rw [unstage_apart p t _ notIn, shadowGet_shadowSet]
    · rw [unstage_shadow p t _ distinct ((List.mem_cons.mp mem).resolve_left here), shadowGet_shadowSet_ne _ _ _ here]; rfl

/-- The RWS fields of a register come from one word, its other bits from another. -/
theorem mergeRws_bit (p : Page) (o keep take : Nat) {i : Nat} (hi : i < 32) :
    bit (mergeRws p o keep take % 2 ^ 32) i = if bit (maskAt p.kind o .rws) i then bit take i else bit keep i := by
  rw [bit_mod _ _ hi, mergeRws, bit_mix]

/-- CANCEL on a hub page outside a group. -/
theorem swingCancel_alone {s : State} {p : Page} (hub : onHub p = true) (notRouter : p.kind ≠ 0x1B)
    (alone : (getSwing s p).state = 0 ∨ (getSwing s p).group = 0) :
    swingCancel s p = putSwing (unstage p (rwsOffs p.kind) s) p { getSwing s p with state := 0, group := 0, arrived := false } := by
  obtain ⟨x, only⟩ := unstage_only p (rwsOffs p.kind) s
  have noCtxs : (if (getSwing s p).state = 0 then [] else quietCtxs s p) = [] := by rw [quietCtxs_hub s hub, ite_self]
  have same : getSwing (unstage p (rwsOffs p.kind) s) p = getSwing s p := by rw [only]; rfl
  unfold swingCancel
  simp only [onHub_aisle hub, notRouter, if_false, noCtxs]
  rw [show List.foldl _ s (rwsOffs p.kind) = unstage p (rwsOffs p.kind) s from rfl, same, if_neg (by omega), releaseCtxs_hub _ hub]

/-! GO (R433, R436). -/

section
variable {s : State} {p : Page} {group : Nat}

theorem swingGo_clean (clean : staged s p = false) : swingGo s p group = s := by rw [swingGo, clean]; rfl

variable (dirty : staged s p = true)
include dirty

/-- A page in a group stays as it is at a GO of its own. -/
theorem swingGo_busy (pending : (getSwing s p).state ≠ 0) (member : (getSwing s p).group ≠ 0) (alone : group % 16 = 0) : swingGo s p group = s := by
  simp [swingGo, dirty, pending, member, alone]

variable (free : (getSwing s p).state = 0 ∨ (getSwing s p).group = 0)
include free

theorem swingGo_alone (alone : group % 16 = 0) :
    swingGo s p group = putSwing s p { getSwing s p with state := pendingState s p, group := 0, arrived := false } := by
  have free : ¬ ((getSwing s p).state ≠ 0 ∧ (getSwing s p).group ≠ 0) := by omega
  simp only [swingGo, dirty, alone, free, Bool.not_true, Bool.false_eq_true, if_false, if_true]

theorem swingGo_joins (member : group % 16 ≠ 0) (unfired : (getGroup s (group % 16)).fired = false) :
    swingGo s p group = putGroup (putSwing s p { getSwing s p with state := pendingState s p, group := group % 16, arrived := false })
      (group % 16) { getGroup s (group % 16) with members := (getGroup s (group % 16)).members ++ [p.base] } := by
  have free : ¬ ((getSwing s p).state ≠ 0 ∧ (getSwing s p).group ≠ 0) := by omega
  have same (w : Swing) : getGroup (putSwing s p w) (group % 16) = getGroup s (group % 16) := rfl
  simp only [swingGo, dirty, member, free, same, unfired, Bool.not_true, Bool.false_eq_true, if_false]

end

theorem exec_blkSwingGo {s : State} {page : Nat} {p : Page} (up : deviceUp s = true) (mapped : pageOf page = some p) (group : Nat) :
    exec (.blkSwingGo page group) s = .next (swingGo s p group) := by simp [exec, execBlkSwingGo, mapped, up]

theorem exec_blkSwingCancel {s : State} {page : Nat} {p : Page} (up : deviceUp s = true) (mapped : pageOf page = some p) :
    exec (.blkSwingCancel page) s = .next (swingCancel s p) := by simp [exec, execBlkSwingCancel, mapped, up]

/-- Settles O13: GO writes the swing and, in a group, its member list; CANCEL undoes the staged bank register by register. -/
theorem swingsStartAndStop : Obligations.SwingsStartAndStop := by
  refine ⟨fun page group p s up mapped => ?_, fun page p s up mapped hub notRouter alone => ?_⟩
  · have run := exec_blkSwingGo up mapped group
    exact ⟨fun clean => run.trans (congrArg _ (swingGo_clean clean)), fun dirty free alone => run.trans (congrArg _ (swingGo_alone dirty free alone)),
      fun dirty free member unfired => run.trans (congrArg _ (swingGo_joins dirty free member unfired)),
      fun dirty pending member alone => run.trans (congrArg _ (swingGo_busy dirty pending member alone))⟩
  · obtain ⟨x, only⟩ := unstage_only p (rwsOffs p.kind) s
    refine ⟨_, (exec_blkSwingCancel up mapped).trans (congrArg _ (swingCancel_alone hub notRouter alone)), ?_, ?_, ?_, getSwing_putSwing ..,
      fun o staged_ i hi => ?_⟩
    · rw [only]; rfl
    · rw [only]; rfl
    · rw [only]; rfl
    · show bit (shadowGet (unstage p (rwsOffs p.kind) s) p o) i = _
      rw [unstage_shadow p _ s (rwsOffs_nodup _) staged_, mergeRws_bit _ _ _ _ hi]

/-! Applying (R433, R434). -/

/-- The staged RWS fields of some registers are taken into the applied bank. -/
def takeStaged (p : Page) (l : List Nat) (s : State) : State :=
  l.foldl (fun s o => regSet s p o (mergeRws p o (regGet s p o) (shadowGet s p o))) s

/-- A page whose block does nothing of its own when its fields change (R357, R359, R429). -/
def plainBlock (p : Page) : Prop := p.kind ≠ 0x33 ∧ p.kind ≠ 0x1A ∧ p.kind ≠ 0x1B

theorem applyBlock_plain {p : Page} (plain : plainBlock p) (s : State) (old : Nat) : applyBlock s p old = s := by
  obtain ⟨aisle, link, router⟩ := plain
  unfold applyBlock
  split
  · contradiction
  · contradiction
  · contradiction
  · rfl

/-- What the application of a page's staged fields comes to (R430, R433). -/
structure Applied (p : Page) (s t : State) : Prop where
  only : t = { s with regs := t.regs, ec := t.ec }
  swing : getSwing t p = { swings := ((getSwing s p).swings + 1) % 65536 }
  otherSwings : ∀ q : Page, q.base ≠ p.base → getSwing t q = getSwing s q
  pend : bit (regGet t p Reg.EVT_PEND) 31 = true
  shadow : t.regs.shadow = s.regs.shadow
  groups : t.regs.groups = s.regs.groups
  fields : ∀ o, o ∈ rwsOffs p.kind → o ≠ Reg.EVT_PEND → ∀ i, i < 32 →
    bit (regGet t p o) i = if bit (maskAt p.kind o .rws) i then bit (shadowGet s p o) i else bit (regGet s p o) i
  others : ∀ (q : Page) (u : Nat), q.base + u ≠ p.base + Reg.EVT_PEND → (∀ o, o ∈ rwsOffs p.kind → q.base + u ≠ p.base + o) →
    regGet t q u = regGet s q u

theorem applyPage_eq {p : Page} (plain : plainBlock p) (s : State) :
    applyPage s p = setEvt (putSwing (takeStaged p (rwsOffs p.kind) s) p
      { swings := ((getSwing (takeStaged p (rwsOffs p.kind) s) p).swings + 1) % 65536 }) p (2 ^ 31) := by
  rw [applyPage]
  simp only [applyBlock_plain plain]
  rfl

theorem setEvt_swings (s : State) (p : Page) (m : Nat) : (setEvt s p m).regs.swings = s.regs.swings := by
  rw [setEvt, updateLine_regs]; rfl

theorem setEvt_groups (s : State) (p : Page) (m : Nat) : (setEvt s p m).regs.groups = s.regs.groups := by
  rw [setEvt, updateLine_regs]; rfl

theorem setEvt_bit (s : State) (p : Page) {i : Nat} (hi : i < 32) : bit (regGet (setEvt s p (2 ^ i)) p Reg.EVT_PEND) i = true := by
  rw [setEvt, regGet_congr (congrArg RegBank.applied (updateLine_regs _ p)), regGet_regSet, bit_mod _ _ hi]
  exact bit_or_two_pow _ _

theorem getSwing_putSwing_eq (s : State) (p q : Page) (w : Swing) : getSwing (putSwing s p w) q = if q.base = p.base then w else getSwing s q :=
  SMap.get_put _ _ _ _ _

theorem getSwing_putSwing_ne (s : State) {p q : Page} (h : q.base ≠ p.base) (w : Swing) : getSwing (putSwing s p w) q = getSwing s q :=
  SMap.get_put_ne _ h _ _

theorem getSwing_congr {s t : State} (h : t.regs.swings = s.regs.swings) (q : Page) : getSwing t q = getSwing s q := by rw [getSwing, h]; rfl

theorem applyPage_applied {p : Page} (plain : plainBlock p) (s : State) : Applied p s (applyPage s p) := by
  obtain ⟨a, only⟩ := applyRws_only p (rwsOffs p.kind) s
  have only : takeStaged p (rwsOffs p.kind) s = { s with regs := { s.regs with applied := a } } := only
  let w : Swing := { swings := ((getSwing s p).swings + 1) % 65536 }
  have eq : applyPage s p = setEvt (putSwing (takeStaged p (rwsOffs p.kind) s) p w) p (2 ^ 31) := by
    rw [applyPage_eq plain, show getSwing (takeStaged p (rwsOffs p.kind) s) p = getSwing s p by rw [only]; rfl]
  obtain ⟨r, e, evt⟩ := setEvt_only (putSwing (takeStaged p (rwsOffs p.kind) s) p w) p (2 ^ 31)
  rw [eq]
  refine ⟨?_, ?_, fun q hq => ?_, setEvt_bit _ _ (by decide), ?_, ?_, fun o ho ne i hi => ?_, fun q u pend staged_ => ?_⟩
  · rw [evt, only]; rfl
  · rw [getSwing_congr (setEvt_swings ..), getSwing_putSwing]
  · rw [getSwing_congr (setEvt_swings ..), getSwing_putSwing_ne _ hq, only]; rfl
  · rw [setEvt_shadow, only]; rfl
  · rw [setEvt_groups, only]; rfl
  · rw [setEvt_regGet _ _ _ _ _ (by omega)]
    show bit (regGet (takeStaged p (rwsOffs p.kind) s) p o) i = _
    rw [takeStaged, applyRws_regGet p _ s p o (rwsOffs_nodup _) fun o' _ => ?_, if_pos ⟨rfl, ho⟩, mergeRws_bit _ _ _ _ hi]
    by_cases same : o = o'
    · exact .inl ⟨rfl, same⟩
    · exact .inr (by omega)
  · rw [setEvt_regGet _ _ _ _ _ pend]
    show regGet (takeStaged p (rwsOffs p.kind) s) q u = _
    rw [takeStaged, applyRws_regGet p _ s q u (rwsOffs_nodup _) fun o' ho' => .inr (staged_ o' ho'), if_neg]
    rintro ⟨rfl, hu⟩
    exact staged_ u hu rfl

/-- The quiet point of a hub page that swings alone. -/
theorem swingApply_alone {s : State} {p : Page} (hub : onHub p = true) (pending : (getSwing s p).state ≠ 0) (alone : (getSwing s p).group = 0)
    (calm : recovering s = false) : swingApply s p = if drainDone s p then applyPage s p else s := by
  simp [swingApply, pending, alone, atQuiet_hub s hub, calm, holdSwaps_hub s hub, quietCtxs_hub s hub, releaseCtxs_hub _ hub]

/-- Settles O14: the page applies once its drain is done. -/
theorem swingApplies : Obligations.SwingApplies := by
  intro page p s up mapped hub pending alone calm
  have run : exec (.swingApply page) s = .next (swingApply s p) := by simp [exec, execSwingApply, mapped, up]
  rw [swingApply_alone hub pending alone calm] at run
  refine ⟨fun drains => by rw [run, drains]; rfl, fun link router done => ?_⟩
  rw [done] at run
  obtain ⟨only, swing, -, pend, shadow, groups, fields, others⟩ := applyPage_applied ⟨onHub_aisle hub, link, router⟩ s
  exact ⟨_, run, only, swing, pend, shadow, groups, fields, others⟩

/-! Groups (R436, R437). -/

/-- Nothing waits in a context's queue: a held context that goes on changes nothing. -/
theorem runQueues_empty {s : State} (empty : queuesEmpty s) (n : Nat) : runQueues s n = s := by
  have queue (m : Nat) : (getCtx s m).queue = [] := by
    unfold getCtx SMap.get
    cases found : s.ctxs.find m with
    | none => rfl
    | some c => exact empty (m, c) (SMap.mem_of_find found)
  have none_ (l : List Nat) : l.foldl (fun s k => runQueue (queueRoomCtx + 1) s k) s = s := by
    induction l with
    | nil => rfl
    | cons k t ih => rw [List.foldl_cons, runQueue, queue k]; exact ih
  exact none_ _

/-- The boundary of hub pages holds no swap back. -/
theorem releaseCtxs_pages {ps : List Page} (hub : ∀ p ∈ ps, onHub p = true) (s : State) : releaseCtxs s ps [] = s := by
  rw [releaseCtxs]
  show ps.foldl _ s = s
  induction ps with
  | nil => rfl
  | cons p t ih =>
    rw [List.foldl_cons, if_neg (onHub_aisle (hub p List.mem_cons_self))]
    exact ih fun q mem => hub q (List.mem_cons_of_mem _ mem)

theorem releaseCtxs_empty {s : State} (empty : queuesEmpty s) {ps : List Page} (hub : ∀ p ∈ ps, onHub p = true) (ns : List Nat) :
    releaseCtxs s ps ns = s := by
  rw [releaseCtxs, show ps.foldl _ s = s from releaseCtxs_pages hub s]
  induction ns with
  | nil => rfl
  | cons n t ih => rw [List.foldl_cons, runQueues_empty empty, ih]

/-- The pages of a group's members. -/
theorem mem_groupPages {g : SwingGroup} {p : Page} : p ∈ groupPages g ↔ ∃ b, b ∈ g.members ∧ pageOf b = some p := List.mem_filterMap

/-- A member returned to IDLE with TIMEOUT (R436). -/
def timedOut (s : State) (p : Page) : State :=
  setEvt (putSwing s p { getSwing s p with state := 0, group := 0, timeout := true, arrived := false }) p (2 ^ 31)

theorem timedOut_swing (s : State) (p q : Page) : getSwing (timedOut s p) q =
    if q.base = p.base then { getSwing s p with state := 0, group := 0, timeout := true, arrived := false } else getSwing s q := by
  rw [timedOut, getSwing_congr (setEvt_swings ..)]
  exact getSwing_putSwing_eq ..

/-- What the abort of a group's members leaves. -/
theorem timedOut_all : ∀ (ps : List Page) (s : State), ∃ r e, ps.foldl timedOut s = { s with regs := r, ec := e } ∧ r.shadow = s.regs.shadow ∧
    r.groups = s.regs.groups ∧ ∀ q : Page, ((∃ p ∈ ps, p.base = q.base) ∨ ((getSwing s q).state = 0 ∧ (getSwing s q).timeout = true)) →
      (getSwing (ps.foldl timedOut s) q).state = 0 ∧ (getSwing (ps.foldl timedOut s) q).timeout = true
  | [], s => ⟨s.regs, s.ec, rfl, rfl, rfl, fun q h => h.resolve_left (by simp)⟩
  | p :: t, s => by
    obtain ⟨r0, e0, first⟩ := setEvt_only (putSwing s p { getSwing s p with state := 0, group := 0, timeout := true, arrived := false }) p (2 ^ 31)
    have first : timedOut s p = { s with regs := r0, ec := e0 } := first
    obtain ⟨r, e, only, shadow, groups, swings⟩ := timedOut_all t (timedOut s p)
    rw [List.foldl_cons]
    refine ⟨r, e, by rw [only, first], ?_, ?_, fun q h => swings q ?_⟩
    · rw [shadow, timedOut, setEvt_shadow]; rfl
    · rw [groups, timedOut, setEvt_groups]; rfl
    · by_cases here : q.base = p.base
      · exact .inr (by rw [timedOut_swing, if_pos here]; exact ⟨rfl, rfl⟩)
      · rw [timedOut_swing, if_neg here]
        refine h.imp_left fun ⟨x, mem, base⟩ => ⟨x, (List.mem_cons.mp mem).resolve_left fun e => here (by rw [← base, e]), base⟩

theorem swingAbort_eq {s : State} {n : Nat} (some_ : (getGroup s n).members ≠ [])
    (hub : ∀ p ∈ groupPages (getGroup s n), onHub p = true) (empty : queuesEmpty s) :
    swingAbort s n = setErr ((groupPages (getGroup s n)).foldl timedOut (putGroup s n {})) pgSwing 0 := by
  obtain ⟨r, e, only, -⟩ := timedOut_all (groupPages (getGroup s n)) (putGroup s n {})
  have kept : queuesEmpty (setErr ((groupPages (getGroup s n)).foldl timedOut (putGroup s n {})) pgSwing 0) := by
    rw [queuesEmpty, setErr_same_ctxs, only]; exact empty
  rw [swingAbort]
  exact (if_neg (by simpa using some_)).trans (releaseCtxs_empty kept hub _)

theorem setErr_swings (s : State) (p : Page) (i : Nat) : (setErr s p i).regs.swings = s.regs.swings ∧ (setErr s p i).regs.groups = s.regs.groups := by
  have setBit (s : State) (p : Page) (i : Nat) : (setErrBit s p i).regs.swings = s.regs.swings ∧ (setErrBit s p i).regs.groups = s.regs.groups := by
    unfold setErrBit
    dsimp only
    split
    · exact ⟨rfl, rfl⟩
    · rw [setEvt_swings, setEvt_groups]; exact ⟨rfl, rfl⟩
  unfold setErr
  split
  · exact ⟨rfl, rfl⟩
  · dsimp only
    split
    · unfold logFault pushRec
      dsimp only
      split
      · exact setBit s p i
      · obtain ⟨a, b⟩ := setBit _ pgHost 2
        rw [a, b]
        exact setBit s p i
    · exact setBit s p i

/-- What several members of a group come to when they apply together: each its own staged fields (R436). -/
theorem applied_all : ∀ (ps : List Page) (s : State), (∀ p ∈ ps, plainBlock p ∧ p.base % 0x1000 = 0) → (ps.map Page.base).Nodup →
    ∃ r e, ps.foldl applyPage s = { s with regs := r, ec := e } ∧ r.shadow = s.regs.shadow ∧ r.groups = s.regs.groups ∧
      (∀ q : Page, (∀ p ∈ ps, p.base ≠ q.base) → q.base % 0x1000 = 0 →
        getSwing (ps.foldl applyPage s) q = getSwing s q ∧ ∀ u, u < 0x1000 → regGet (ps.foldl applyPage s) q u = regGet s q u) ∧
      ∀ q ∈ ps, getSwing (ps.foldl applyPage s) q = { swings := ((getSwing s q).swings + 1) % 65536 } ∧
        bit (regGet (ps.foldl applyPage s) q Reg.EVT_PEND) 31 = true ∧
        ∀ o, o ∈ rwsOffs q.kind → o ≠ Reg.EVT_PEND → ∀ i, i < 32 →
          bit (regGet (ps.foldl applyPage s) q o) i = if bit (maskAt q.kind o .rws) i then bit (shadowGet s q o) i else bit (regGet s q o) i
  | [], s, _, _ => ⟨s.regs, s.ec, rfl, rfl, rfl, fun q _ _ => ⟨rfl, fun _ _ => rfl⟩, fun q mem => nomatch mem⟩
  | p :: t, s, plain, distinct => by
    obtain ⟨notIn, distinct⟩ := List.nodup_cons.mp distinct
    obtain ⟨plainP, baseP⟩ := plain p List.mem_cons_self
    have first := applyPage_applied plainP s
    obtain ⟨r, e, only, shadow, groups, apart, members⟩ := applied_all t (applyPage s p) (fun q mem => plain q (List.mem_cons_of_mem _ mem)) distinct
    -- pages of other bases share no register
    have pageApart {q : Page} (ne : q.base ≠ p.base) (base : q.base % 0x1000 = 0) {u : Nat} (hu : u < 0x1000) :
        regGet (applyPage s p) q u = regGet s q u := by
      refine first.others q u ?_ fun o ho => ?_
      · have : Reg.EVT_PEND < 0x1000 := by decide
        omega
      · have := rwsOffs_inPage ho
        omega
    rw [List.foldl_cons]
    refine ⟨r, e, by rw [only, first.only], shadow.trans first.shadow, groups.trans first.groups, fun q ne base => ?_, fun q mem => ?_⟩
    · obtain ⟨swing, regs⟩ := apart q (fun x mem => ne x (List.mem_cons_of_mem _ mem)) base
      have neP := (ne p List.mem_cons_self).symm
      exact ⟨swing.trans (first.otherSwings q neP), fun u hu => (regs u hu).trans (pageApart neP base hu)⟩
    · obtain rfl | mem := List.mem_cons.mp mem
      · obtain ⟨swing, regs⟩ := apart q (fun x mem base => notIn (base ▸ List.mem_map_of_mem mem)) baseP
        refine ⟨swing.trans first.swing, by rw [regs _ (by decide)]; exact first.pend, fun o ho ne i hi => ?_⟩
        rw [regs o (rwsOffs_inPage ho)]
        exact first.fields o ho ne i hi
      · obtain ⟨swing, pend, fields⟩ := members q mem
        have ne : q.base ≠ p.base := fun base => notIn (base ▸ List.mem_map_of_mem mem)
        have baseQ := (plain q (List.mem_cons_of_mem _ mem)).2
        refine ⟨by rw [swing, first.otherSwings q ne], pend, fun o ho ne' i hi => ?_⟩
        rw [fields o ho ne' i hi, shadowGet, first.shadow, pageApart ne baseQ (rwsOffs_inPage ho)]
        rfl

/-- A fired group whose peg is at its target applies; its contexts go on (R436). -/
theorem tryGroup_full {s : State} {n : Nat} (fired : (getGroup s n).fired = true) (some_ : (getGroup s n).members ≠ [])
    (full : (getGroup s n).target ≤ (getGroup s n).count) (calm : recovering s = false) (free : (getGroup s n).held = [])
    (hub : ∀ p ∈ groupPages (getGroup s n), onHub p = true) :
    tryGroup s n = (groupPages (getGroup s n)).foldl applyPage (putGroup s n {}) := by
  rw [tryGroup]
  simp only [fired, calm, full, List.isEmpty_eq_false_iff.mpr some_, Bool.not_false, Bool.and_self, decide_true, if_true, free]
  exact releaseCtxs_pages hub _

theorem tryGroup_short {s : State} {n : Nat} (short : (getGroup s n).count < (getGroup s n).target) : tryGroup s n = s := by
  rw [tryGroup]
  simp only [decide_eq_false (Nat.not_le.mpr short), Bool.and_false, Bool.false_and, Bool.false_eq_true, if_false]

/-- The arrival of a hub page on its group's peg. -/
def arrivedOn (s : State) (p : Page) : State :=
  putGroup (putSwing s p { getSwing s p with arrived := true }) (getSwing s p).group
    { getGroup s (getSwing s p).group with count := (getGroup s (getSwing s p).group).count + 1 }

theorem pegArrive_hub {s : State} {p : Page} (hub : onHub p = true) (pending : (getSwing s p).state ≠ 0) (member : (getSwing s p).group ≠ 0)
    (fired : (getGroup s (getSwing s p).group).fired = true) (new : (getSwing s p).arrived = false) (calm : recovering s = false)
    (done : drainDone s p = true) : pegArrive s p = tryGroup (arrivedOn s p) (getSwing s p).group := by
  simp [pegArrive, pending, member, fired, atQuiet_hub s hub, calm, new, holdSwaps_hub s hub, arriveOn, quietCtxs_hub s hub, done, arrivedOn]

/-- The members' pages: one for each, at its base. -/
theorem groupPages_bases {g : SwingGroup} (paged : ∀ b, b ∈ g.members → ∃ q, pageOf b = some q ∧ q.base = b) :
    (groupPages g).map Page.base = g.members := by
  rw [groupPages]
  generalize g.members = l at paged
  induction l with
  | nil => rfl
  | cons b t ih =>
    obtain ⟨q, page, base⟩ := paged b List.mem_cons_self
    rw [List.filterMap_cons_some page, List.map_cons, base, ih fun c mem => paged c (List.mem_cons_of_mem _ mem)]

/-- What the arrival that fills a group leaves (R436). -/
theorem pegArrive_applies {s : State} {p : Page} (hub : onHub p = true) (pending : (getSwing s p).state ≠ 0) (member : (getSwing s p).group ≠ 0)
    (fired : (getGroup s (getSwing s p).group).fired = true) (new : (getSwing s p).arrived = false) (calm : recovering s = false)
    (done : drainDone s p = true) (full : (getGroup s (getSwing s p).group).target ≤ (getGroup s (getSwing s p).group).count + 1)
    (free : (getGroup s (getSwing s p).group).held = []) (own : p.base ∈ (getGroup s (getSwing s p).group).members)
    (distinct : (getGroup s (getSwing s p).group).members.Nodup)
    (pages : ∀ b, b ∈ (getGroup s (getSwing s p).group).members →
      ∃ q, pageOf b = some q ∧ q.base = b ∧ onHub q = true ∧ q.kind ≠ 0x1A ∧ q.kind ≠ 0x1B) :
    let t := pegArrive s p
    t = { s with regs := t.regs, ec := t.ec } ∧ getGroup t (getSwing s p).group = {} ∧
    ∀ b q, b ∈ (getGroup s (getSwing s p).group).members → pageOf b = some q →
      (getSwing t q).state = 0 ∧ (getSwing t q).swings = ((getSwing s q).swings + 1) % 65536 ∧ bit (regGet t q Reg.EVT_PEND) 31 = true ∧
      ∀ o, o ∈ rwsOffs q.kind → o ≠ Reg.EVT_PEND → ∀ i, i < 32 →
        bit (regGet t q o) i = if bit (maskAt q.kind o .rws) i then bit (shadowGet s q o) i else bit (regGet s q o) i := by
  intro t
  have group : getGroup (arrivedOn s p) (getSwing s p).group =
      { getGroup s (getSwing s p).group with count := (getGroup s (getSwing s p).group).count + 1 } := getGroup_putGroup ..
  have paged {q : Page} (mem : q ∈ groupPages (getGroup s (getSwing s p).group)) : onHub q = true ∧ plainBlock q ∧ q.base % 0x1000 = 0 := by
    obtain ⟨b, hb, page⟩ := mem_groupPages.mp mem
    obtain ⟨q', page', base, hub', link, router⟩ := pages b hb
    obtain rfl : q' = q := Option.some_inj.mp (page'.symm.trans page)
    exact ⟨hub', ⟨onHub_aisle hub', link, router⟩, by have := pageOf_base page; omega⟩
  have bases := groupPages_bases fun b hb => (pages b hb).imp fun q h => ⟨h.1, h.2.1⟩
  have run : t = (groupPages (getGroup s (getSwing s p).group)).foldl applyPage (putGroup (arrivedOn s p) (getSwing s p).group {}) := by
    show pegArrive s p = _
    have full_ := tryGroup_full (s := arrivedOn s p) (n := (getSwing s p).group) (by rw [group]; exact fired)
      (by rw [group]; exact List.ne_nil_of_mem own) (by rw [group]; exact full) calm (by rw [group]; exact free)
      (fun q mem => (paged (by rw [group] at mem; exact mem)).1)
    rw [pegArrive_hub hub pending member fired new calm done, full_, group]
    rfl
  obtain ⟨r, e, only, -, groups, -, members⟩ := applied_all (groupPages (getGroup s (getSwing s p).group))
    (putGroup (arrivedOn s p) (getSwing s p).group {}) (fun q mem => (paged mem).2) (by rw [bases]; exact distinct)
  refine ⟨by rw [run, only]; rfl, ?_, fun b q hb page => ?_⟩
  · rw [run, only, getGroup]
    show SMap.get {} _ r.groups = _
    rw [groups]
    exact getGroup_putGroup ..
  · obtain ⟨swing, pend, fields⟩ := members q (mem_groupPages.mpr ⟨b, hb, page⟩)
    have swings : (getSwing (putGroup (arrivedOn s p) (getSwing s p).group {}) q).swings = (getSwing s q).swings := by
      show (getSwing (putSwing s p { getSwing s p with arrived := true }) q).swings = _
      rw [getSwing_putSwing_eq]
      split
      · next here => rw [getSwing, getSwing, here]
      · rfl
    rw [run, swing]
    exact ⟨rfl, by rw [swings], pend, fields⟩

theorem exec_swingPegArrive {s : State} {page : Nat} {p : Page} (up : deviceUp s = true) (mapped : pageOf page = some p) :
    exec (.swingPegArrive page) s = .next (pegArrive s p) := by simp [exec, execSwingPegArrive, mapped, up]

/-- Settles O15: FIRE fixes the peg's target; each member's arrival counts, the last applies all; an abort returns the members to IDLE. -/
theorem swingGroups : Obligations.SwingGroups := by
  refine ⟨fun s up some_ => ?_, fun s up none_ => ⟨?_, ?_⟩, fun page p s up mapped hub => ?_, fun s n c up kind some_ hub empty => ?_⟩
  · simp [exec, execSwingFire, up, swingFire, some_]
  · simp [exec, execSwingFire, up, swingFire, none_]
  · simp [exec, execSwingAbort, up, swingAbort, none_]
  · intro w g pending member fired new calm done
    have run := exec_swingPegArrive up mapped
    refine ⟨fun short => ?_, fun full free own distinct pages => ?_⟩
    · rw [run, pegArrive_hub hub pending member fired new calm done, tryGroup_short]
      · rfl
      · rw [arrivedOn, getGroup_putGroup]; exact short
    · exact ⟨_, run, pegArrive_applies hub pending member fired new calm done full free own distinct pages⟩
  · have run : exec c s = .next (swingAbort s n) := by
      obtain ⟨rfl, rfl⟩ | ⟨ms, rfl, held, late⟩ := kind
      · simp [exec, execSwingAbort, up]
      · simp [exec, execHoldMax, up, held, late]
    have pages (p : Page) (mem : p ∈ groupPages (getGroup s n)) : onHub p = true := by
      obtain ⟨b, hb, page⟩ := mem_groupPages.mp mem
      exact hub b p hb page
    rw [swingAbort_eq some_ pages empty] at run
    obtain ⟨r, e, only, shadow, groups, swings⟩ := timedOut_all (groupPages (getGroup s n)) (putGroup s n {})
    refine ⟨_, run, ?_, ?_, setErr_bit _ pgSwing 0 (by decide) (by decide) (.inr (by decide)), ?_, fun b p hb page => ?_⟩
    · obtain ⟨r', e', d, err⟩ := setErr_only ((groupPages (getGroup s n)).foldl timedOut (putGroup s n {})) pgSwing 0
      rw [err, only]
      rfl
    · rw [getGroup, (setErr_swings _ _ _).2, only]
      show SMap.get {} n r.groups = _
      rw [groups]
      exact getGroup_putGroup ..
    · rw [setErr_shadow, only]; exact shadow
    · rw [getSwing_congr (setErr_swings _ _ _).1]
      exact swings p (.inl ⟨p, mem_groupPages.mpr ⟨b, hb, page⟩, rfl⟩)

end Sys2Proof.Machine
end

section
/-! O16: rings take entries, execute them at the doorbell, and refuse others (R361, R363, R369, R370). -/

namespace Sys2Proof.Machine

theorem packetTaken_of_down {s : State} {qp : Nat} (down : qpUp s qp = false) : packetTaken s qp = false := by
  unfold packetTaken
  unfold qpUp at down
  split
  · next x found =>
    rw [found] at down
    rw [show (!x.error) = false from down]; rfl
  · rfl

theorem noteCe_unmarked (s : State) (qp : Nat) : noteCe s qp false = s := by
  unfold noteCe
  split
  · rfl
  · simp

/-! What a doorbell of one new entry executes (R369, R370). -/

/-- A command of another priority than 0 is not measured (R361). -/
theorem noteLatency_low {h : Hdr} (low : h.prio ≠ 0) (s : State) (n : Nat) : noteLatency s h n = s := if_pos low

/-- The state in which the ring's next entry runs: its index is taken. -/
def entryTaken (s : State) (ring : Nat) (q : Ring) : State :=
  { s with host := { s.host with rings := s.host.rings.insert ring { q with consumer := (q.consumer + 1) % 2 ^ 32 } } }

theorem runRing_stops {k : Nat} {s : State} {ring lat p0 : Nat} {q : Ring} (found : s.host.rings.find ring = some q) (even : q.consumer = q.producer) :
    runRing k s ring lat p0 = s := by
  cases k with
  | zero => rfl
  | succ k => simp [runRing, found, even]

theorem runRing_one {k : Nat} {s t : State} {ring lat p0 : Nat} {q : Ring} {e : RingEntry} (found : s.host.rings.find ring = some q)
    (ahead : q.consumer ≠ q.producer) (up : deviceUp s = true) (open_ : qpUp s q.qp = true) (entry : q.entries.find (q.consumer % 256) = some e)
    (runs : ringEntry (entryTaken s ring q) ring q e lat p0 = t) (last : ∃ x, t.host.rings.find ring = some x ∧ x.consumer = x.producer) :
    runRing (k + 1) s ring lat p0 = t := by
  obtain ⟨x, kept, even⟩ := last
  have step_ : runRing (k + 1) s ring lat p0 = runRing k (ringEntry (entryTaken s ring q) ring q e lat p0) ring lat p0 := by
    simp [runRing, found, ahead, up, open_, entry, entryTaken]
  rw [step_, runs, runRing_stops kept even]

/-- A ring's command is answered by a SEND with the ring's consumer index (R369). -/
theorem answer_ring {s : State} {ring seq prio : Nat} {q : Ring} (found : s.host.rings.find ring = some q) (st : Nat) :
    answer s (.ring ring seq prio) st =
      emit s (.send { session := ring, seq := seq, status := st, ring := some ring, consumer := q.consumer }) := by
  simp [answer, respond, found]

section Entry

variable {s : State} {ring lat : Nat} {q : Ring} {e : RingEntry} (found : s.host.rings.find ring = some q) (low : q.prio ≠ 0)
  (up : deviceUp s = true) (open_ : qpUp s q.qp = true) (room : q.consumer + 1 < 2 ^ 32) (entry : q.entries.find (q.consumer % 256) = some e)
  (short : e.len ≤ 224)

/-- What an entry's execution leaves: the SEND, the indices, the count of commands; of the host port its streams may have changed. -/
def entryDone (s : State) (ring : Nat) (q : Ring) (e : RingEntry) (status : Nat) (streams : SMap Stream) (t : State) : Prop :=
  t.out = s.out ++ [.send { session := ring, seq := e.seq, status := status, ring := some ring, consumer := q.consumer + 1 }] ∧
  t.host.rings.find ring = some { q with producer := q.consumer + 1, consumer := q.consumer + 1 } ∧
  (cntHold s pgHost = false → regGet t pgHost Reg.HP_CMDS = (regGet s pgHost Reg.HP_CMDS + 1) % 2 ^ 32) ∧
  t = { s with regs := t.regs, out := t.out, host := { s.host with rings := t.host.rings, streams := streams } }

/-- The ring with one entry more. -/
def rung (q : Ring) : Ring := { q with producer := q.consumer + 1 }

/-- The state behind the doorbell. -/
def rungState (s : State) (ring : Nat) (q : Ring) : State := { s with host := { s.host with rings := s.host.rings.insert ring (rung q) } }

/-- The state in which the entry of a doorbell runs, its command counted. -/
def entryState (s : State) (ring : Nat) (q : Ring) : State := countCmd (entryTaken (rungState s ring q) ring (rung q))

include room in
theorem entryState_rings : (entryState s ring q).host.rings.find ring = some { q with producer := q.consumer + 1, consumer := q.consumer + 1 } := by
  rw [entryState, countCmd_host]
  show SMap.find ring ((s.host.rings.insert ring (rung q)).insert ring { rung q with consumer := (q.consumer + 1) % 2 ^ 32 }) = _
  rw [SMap.find_insert_same, Nat.mod_eq_of_lt room]
  rfl

include found low up open_ room entry short

/-- A doorbell of one new entry runs that entry's command. -/
theorem ringDoorbell_one {t : State} (runs : runCmd (entryState s ring q) (.ring ring e.seq q.prio) e.ctx e.cmd = t)
    (last : t.host.rings.find ring = some { q with producer := q.consumer + 1, consumer := q.consumer + 1 }) :
    ringDoorbell s ring (q.consumer + 1) lat = t := by
  have ahead : ((q.consumer + 1) % 2 ^ 32 + 2 ^ 32 - q.consumer) % 2 ^ 32 = 1 := by omega
  have run : runRing (255 + 1) (rungState s ring q) ring lat 0 = t := by
    refine runRing_one (q := rung q) (SMap.find_insert_same ..) (Nat.ne_of_lt (Nat.lt_succ_self _)) up open_ entry ?_ ⟨_, last, rfl⟩
    rw [ringEntry, if_neg (by omega), noteLatency_low low]
    exact runs
  simp only [ringDoorbell, found]
  rw [ahead, if_neg (by decide), if_neg low, Nat.mod_eq_of_lt room]
  exact run

/-- An entry whose command answers, and may write the streams. -/
theorem ringDoorbell_done {status : Nat} {streams : SMap Stream}
    (runs : runCmd (entryState s ring q) (.ring ring e.seq q.prio) e.ctx e.cmd =
      answer { entryState s ring q with host := { (entryState s ring q).host with streams := streams } } (.ring ring e.seq q.prio) status) :
    entryDone s ring q e status streams (ringDoorbell s ring (q.consumer + 1) lat) := by
  have rings := entryState_rings (s := s) (ring := ring) room
  have sent := answer_ring (s := { entryState s ring q with host := { (entryState s ring q).host with streams := streams } })
    (seq := e.seq) (prio := q.prio) rings status
  rw [ringDoorbell_one found low up open_ room entry short (runs.trans sent) rings]
  obtain ⟨r, counted⟩ := countCmd_only (entryTaken (rungState s ring q) ring (rung q))
  refine ⟨?_, rings, fun run => bumpWrap_word _ pgHost Reg.HP_CMDS 1 run, ?_⟩
  · rw [entryState, counted]; rfl
  · rw [entryState, counted]; rfl

end Entry

/-! A doorbell too far ahead (R369). -/

/-- The SEND that answers an entry BUSY. -/
def busySend (ring : Nat) (q : Ring) (e : RingEntry) : Out :=
  .send { session := ring, seq := e.seq, status := 0x45, ring := some ring, consumer := q.consumer }

/-- The entries between the old and the new producer index are answered BUSY, each where the ring holds one. -/
theorem ringBusy_sends {s : State} {ring : Nat} {q : Ring} (found : s.host.rings.find ring = some q) (producer : Nat) :
    ringBusy s ring q producer = { s with
      out := s.out ++ (List.range (min 256 ((producer + 2 ^ 32 - q.producer) % 2 ^ 32))).filterMap
        (fun i => (q.entries.find ((q.producer + i) % 256)).map (busySend ring q)) } := by
  unfold ringBusy
  dsimp only
  generalize List.range _ = l
  induction l generalizing s with
  | nil => simp
  | cons i t ih =>
    rw [List.foldl_cons]
    cases at_ : q.entries.find ((q.producer + i) % 256) with
    | none =>
      dsimp only
      rw [ih found, List.filterMap_cons_none (by rw [at_]; rfl)]
    | some e =>
      dsimp only
      rw [answer_ring found, ih (by exact found), List.filterMap_cons_some (by rw [at_]; rfl)]
      simp [emit, stBusy, busySend]

theorem ringDoorbell_far {s : State} {ring producer lat : Nat} {q : Ring} (found : s.host.rings.find ring = some q) (word : producer < 2 ^ 32)
    (far : 256 < (producer + 2 ^ 32 - q.consumer) % 2 ^ 32) : ringDoorbell s ring producer lat = ringBusy s ring q producer := by
  simp only [ringDoorbell, found, Nat.mod_eq_of_lt word, far, if_true]

section Packets

variable {s : State} {qp ring : Nat} (up : deviceUp s = true) (port : portUp s = true)
include up port

theorem exec_doorbell_bound (taken_ : packetTaken s qp = true) {q : Ring} (found : s.host.rings.find ring = some q) (producer lat : Nat) :
    exec (.doorbell qp ring producer lat false) s = .next (ringDoorbell s ring producer lat) := by
  simp [exec, execDoorbell, up, port, taken_, noteCe_unmarked, found]

/-- A packet that is not taken is dropped, whether it rings a doorbell or writes an entry. -/
theorem exec_packet_dropped {x lat : Nat} {e : Option RingEntry} {ce : Bool} {c : Instr}
    (kind : c = .doorbell qp ring x lat ce ∨ c = .rdmaWrite qp ring x e ce) (dropped : packetTaken s qp = false) :
    exec c s = .next (packetDropped s qp) := by
  obtain rfl | rfl := kind
  · simp [exec, execDoorbell, up, port, dropped]
  · simp [exec, execRdmaWrite, up, port, dropped]

end Packets

/-- Settles O16: an entry is placed at its index; the one new entry runs; a doorbell too far ahead answers BUSY entry by entry; packets not taken
are dropped. -/
theorem rings : Obligations.Rings := by
  refine ⟨fun qp ring s up port taken_ => ⟨fun index e q found => ⟨?_, ?_⟩, fun index producer lat e none_ => ⟨?_, ?_⟩,
    fun lat q e found low open_ room entry short => ?_, fun producer lat q found word _ far => ?_⟩,
    fun qp ring x lat e ce s c kind up port => ⟨fun down => ?_, fun open_ dropped => ?_⟩⟩
  · simp [exec, execRdmaWrite, up, port, taken_, noteCe_unmarked, found]
  · simp [exec, execRdmaWrite, up, port, taken_, noteCe_unmarked, found]
  · simp [exec, execRdmaWrite, up, port, taken_, noteCe_unmarked, none_]
  · simp [exec, execDoorbell, up, port, taken_, noteCe_unmarked, none_]
  · intro done
    have run := exec_doorbell_bound up port taken_ found (q.consumer + 1) lat
    refine ⟨fun stream b cmd small => ⟨_, run, ringDoorbell_done found low up open_ room entry short ?_⟩,
      fun k cmd => ⟨_, run, ringDoorbell_done found low up open_ room entry short ?_⟩⟩
    · rw [cmd, runCmd, doTelemConfig, if_neg (by omega)]
      have streams : (entryState s ring q).host.streams = s.host.streams := by rw [entryState, countCmd_host]; rfl
      exact (if_pos rfl).trans (by rw [streams]; rfl)
    · have streams : (entryState s ring q).host.streams = s.host.streams := by rw [entryState, countCmd_host]; rfl
      rw [cmd, ← streams]; rfl
  · rw [exec_doorbell_bound up port taken_ found, ringDoorbell_far found word far, ringBusy_sends found]; rfl
  · rw [exec_packet_dropped up port kind (packetTaken_of_down down), packetDropped, down]; rfl
  · obtain ⟨only, flag, count⟩ := dropOutsider s
    refine ⟨_, (exec_packet_dropped up port kind dropped).trans (by rw [packetDropped, open_]; rfl), ?_, ?_, count, flag⟩
    · rw [only]
    · rw [only]

end Sys2Proof.Machine
end

section
/-! O17, O19: the ends of transfers with the host (R363, R365), and telemetry (R373, R375). -/

namespace Sys2Proof.Machine

/-! The ends of transfers (R363, R365). -/

/-- A context's change that leaves its queue empty leaves no queue with a command. -/
theorem queuesEmpty_modCtx {s : State} (empty : queuesEmpty s) (n : Nat) {f : Ctx → Ctx} (kept : (f (getCtx s n)).queue = []) :
    queuesEmpty (modCtx s n f) := by
  intro e mem
  change e ∈ SMap.put {} n (f (getCtx s n)) s.ctxs at mem
  unfold SMap.put at mem
  split at mem
  · exact empty e (SMap.mem_of_mem_erase mem)
  · obtain rfl | mem := SMap.mem_of_mem_insert mem
    · exact kept
    · exact empty e mem

theorem getCtx_queue {s : State} (empty : queuesEmpty s) (n : Nat) : (getCtx s n).queue = [] := by
  unfold getCtx SMap.get
  cases found : s.ctxs.find n with
  | none => rfl
  | some c => exact empty (n, c) (SMap.mem_of_find found)

section
variable {s : State} {id : Nat}

theorem exec_transferDone_arrives {x : Xfer} (up : deviceUp s = true) (found : s.host.xfers.find id = some x) (data : List Byte) :
    exec (.transferDone id data true) s = .next (arrived (dropXfer s id) x.kind data) := by simp [exec, execTransferDone, up, found]

theorem exec_transferDone_fails {x : Xfer} (up : deviceUp s = true) (found : s.host.xfers.find id = some x) (data : List Byte) :
    exec (.transferDone id data false) s = .next (qpFails (failXfer s id) x.qp) := by simp [exec, execTransferDone, up, found]

end

/-- A queue pair in error, HP_ERR.QP set (R365). -/
def pairInError (s : State) (qp : Nat) (k : Qp) : State :=
  setErr { s with host := { s.host with qps := s.host.qps.insert qp { k with error := true } } } pgHost 1

theorem pairInError_only (s : State) (qp : Nat) (k : Qp) : ∃ r e d, pairInError s qp k =
    { s with regs := r, ec := e, host := { s.host with qps := s.host.qps.insert qp { k with error := true }, devRings := d } } := by
  obtain ⟨r, e, d, h⟩ := setErr_only { s with host := { s.host with qps := s.host.qps.insert qp { k with error := true } } } pgHost 1
  exact ⟨r, e, d, h⟩

theorem pairInError_flag (s : State) (qp : Nat) (k : Qp) : bit (regGet (pairInError s qp k) pgHost (errOff 0x1C)) 1 = true :=
  setErr_bit _ pgHost 1 (by decide) (by decide) (.inl rfl)

/-- A queue pair that is not yet in error enters it, and what is pending on it fails (R365). -/
theorem qpFails_eq {s : State} {qp : Nat} {k : Qp} (found : s.host.qps.find qp = some k) (good : k.error = false) :
    qpFails s qp = ((s.host.xfers.filter (fun e => e.2.qp == qp)).map (·.1)).foldl failXfer (pairInError s qp k) := by
  obtain ⟨r, e, d, h⟩ := pairInError_only s qp k
  simp only [qpFails, found, good, Bool.false_eq_true, if_false]
  rw [show setErr _ pgHost 1 = _ from h, h]

/-- The only transfer pending, PROBE_LOAD's, fails with HOST_IO (R365). -/
theorem failXfer_probe {s : State} {id qp : Nat} {o : Origin} (pair : qp ≠ 0xFFFF) (only : s.host.xfers = [(id, ⟨qp, .probe o⟩)]) :
    failXfer s id = answer { s with host := { s.host with xfers := [] } } o stHostIo := by
  simp [failXfer, failed, dropXfer, only, SMap.find, SMap.erase, pair]

/-- Settles O17: each completion does what its transfer was for; a failed queue pair ends the transfer pending on it. -/
theorem transfersEnd : Obligations.TransfersEnd := by
  refine ⟨fun id data ok s none_ => ?_, fun id qp n o b data s up some_ found => ?_, fun id qp n x y z p data s up empty alive found => ?_,
    fun id qp x y z p k data s c kind up pair found good only => ?_⟩
  · simp [exec, execTransferDone, none_]
  · rw [exec_transferDone_arrives up found, arrived, if_neg some_]; rfl
  · let u := modCtx (dropXfer s id) n (fun c => { c with exporting := false })
    have empty' : queuesEmpty (answer u (.session x y z p) stOk) :=
      queuesEmpty_modCtx (s := dropXfer s id) (f := fun c => { c with exporting := false }) empty n (getCtx_queue empty n)
    have done : arrived (dropXfer s id) (.export_ (.session x y z p) n) data = answer u (.session x y z p) stOk := runQueues_empty empty' n
    refine ⟨_, (exec_transferDone_arrives up found data).trans (congrArg _ done), ?_, fun m ne => ?_, rfl, rfl⟩
    · exact getCtx_modCtx (dropXfer s id) n fun c => { c with exporting := false }
    · exact getCtx_modCtx_ne (dropXfer s id) ne fun c => { c with exporting := false }
  · obtain rfl | rfl := kind
    · let u := answer { s with host := { s.host with xfers := [] } } (.session x y z p) stHostIo
      have fails : failXfer s id = u := failXfer_probe pair only
      obtain ⟨r, e, d, err⟩ := pairInError_only u qp k
      have run : exec (.transferDone id data false) s = .next (pairInError u qp k) := by
        rw [exec_transferDone_fails (x := ⟨qp, .probe (.session x y z p)⟩) up (by rw [only]; simp [SMap.find]), fails,
          qpFails_eq (show u.host.qps.find qp = some k from found) good]
        rfl
      have flag := pairInError_flag u qp k
      rw [err] at run flag
      exact ⟨_, run, rfl, rfl, flag, rfl, rfl⟩
    · obtain ⟨r, e, d, err⟩ := pairInError_only s qp k
      have one : (s.host.xfers.filter (fun e => e.2.qp == qp)).map (·.1) = [id] := by simp [only]
      have run : exec (.qpError qp) s = .next (failXfer (pairInError s qp k) id) := by
        rw [exec, execQpError, if_pos up, qpFails_eq found good, one]; rfl
      have flag := pairInError_flag s qp k
      rw [err] at run flag
      rw [failXfer_probe pair (by exact only)] at run
      exact ⟨_, run, rfl, rfl, flag, rfl, rfl⟩

/-! Telemetry (R373, R375). -/

/-- The 256 bytes of a record's chunk, the last one padded. -/
def recordChunk (l : List Byte) (i : Nat) : List Byte :=
  (l.drop (256 * i)).take 256 ++ List.replicate (256 - ((l.drop (256 * i)).take 256).length) 0

/-- A padded record cut at a chunk gives that chunk. -/
theorem padded_chunk (l : List Byte) {i n : Nat} (h : i < n) (fits : l.length ≤ 256 * n) :
    ((l ++ List.replicate (256 * n - l.length) 0#8).drop (256 * i)).take 256 = recordChunk l i := by
  rw [recordChunk, List.drop_append, List.take_append, List.drop_replicate, List.take_replicate, List.length_take, List.length_drop]
  have pad : min (256 - (l.length - 256 * i)) (256 * n - l.length - (256 * i - l.length)) = 256 - min 256 (l.length - 256 * i) := by omega
  rw [pad]
  rfl

/-- Some chunks of a record written into a host ring: their messages, in order; of the host port only the list of transfers changes. -/
theorem writeChunk_sends (k : XferKind) (ref : Nat → BufRef) (chunk : Nat → List Byte) (l : List Nat) : ∀ s : State,
    ∃ x n, l.foldl (fun s i => startWrite s (ref i) (chunk i) k) s =
      { s with host := { s.host with xfers := x, nextXfer := n }, out := s.out ++ l.map (fun i => .write (ref i) (chunk i)) } := by
  induction l with
  | nil => exact fun s => ⟨s.host.xfers, s.host.nextXfer, by simp⟩
  | cons i t ih =>
    intro s
    obtain ⟨x, n, h⟩ := ih (startWrite s (ref i) (chunk i) k)
    refine ⟨x, n, ?_⟩
    rw [List.foldl_cons, h]
    simp [startWrite, startXfer, emit]

/-- The place of a record's chunk behind the ring's head, around its end (R373). -/
def chunkRef (x : Stream) (i : Nat) : BufRef :=
  { x.buf with addr := x.buf.addr + 64 + (x.producer + i) % ((x.buf.len - 64) / 256) * 256, len := 256 }

/-- A record written into a host ring: its chunks, then the producer count. -/
theorem writeChunks_sends (s : State) (stream ctx : Nat) (x : Stream) (l : List Byte) :
    ∃ xf nx, writeChunks s stream ctx x l ((l.length + 255) / 256) ((x.buf.len - 64) / 256) = { s with
      host := { s.host with xfers := xf, nextXfer := nx }
      out := s.out ++ (List.range ((l.length + 255) / 256)).map (fun i => .write (chunkRef x i) (recordChunk l i)) ++
        [.write { x.buf with len := 8 } (natLe (x.producer + (l.length + 255) / 256) 8)] } := by
  let n := (l.length + 255) / 256
  obtain ⟨xf, nx, h⟩ := writeChunk_sends (.telemetry stream ctx) (chunkRef x)
    (fun i => ((l ++ List.replicate (256 * n - l.length) 0#8).drop (256 * i)).take 256) (List.range n) s
  have chunks : (List.range n).map (fun i => Out.write (chunkRef x i) (((l ++ List.replicate (256 * n - l.length) 0#8).drop (256 * i)).take 256)) =
      (List.range n).map (fun i => .write (chunkRef x i) (recordChunk l i)) :=
    List.map_congr_left fun i mem => by rw [padded_chunk l (List.mem_range.mp mem) (by omega)]
  rw [chunks] at h
  refine ⟨xf.insert nx ⟨x.buf.qp, .telemetry stream ctx⟩, nx + 1, ?_⟩
  rw [writeChunks]
  exact congrArg (fun t => startWrite t { x.buf with len := 8 } (natLe (x.producer + n) 8) (.telemetry stream ctx)) h

section

variable {s : State} {stream ctx : Nat} {r : TelRec} {rest : List TelRec}
  (here : (s.host.devRings.get {} (ringKey stream ctx)).recs = r :: rest)

/-- The record that leaves next: the oldest, behind a LOST record where the ring dropped some (R373). -/
def nextOf (s : State) (stream ctx : Nat) (r : TelRec) : TelRec :=
  if (s.host.devRings.get {} (ringKey stream ctx)).lost = 0 then r
  else ⟨stream, 0xFFFF, natLe (s.host.devRings.get {} (ringKey stream ctx)).lost 8, s.power.tick⟩

/-- What stays in the ring. -/
def leftOf (s : State) (stream ctx : Nat) (rest : List TelRec) : DevRing :=
  if (s.host.devRings.get {} (ringKey stream ctx)).lost = 0 then { recs := rest, lost := 0 }
  else { s.host.devRings.get {} (ringKey stream ctx) with lost := 0 }

include here

theorem nextRecord_eq : nextRecord s stream (s.host.devRings.get {} (ringKey stream ctx)) = some (nextOf s stream ctx r, leftOf s stream ctx rest) := by
  rw [nextRecord, nextOf, leftOf]
  by_cases none_ : (s.host.devRings.get {} (ringKey stream ctx)).lost = 0
  · rw [if_neg (not_not_intro none_), if_pos none_, if_pos none_, here, none_]
  · rw [if_pos none_, if_neg none_, if_neg none_]

variable (consumer : Nat)

theorem deliverRecord_session (mode : (s.host.streams.get {} stream).mode = 1)
    (live : (s.host.sessions.find (s.host.streams.get {} stream).session).isSome = true) :
    deliverRecord s stream ctx consumer = emit
      { s with host := { s.host with devRings := s.host.devRings.put {} (ringKey stream ctx) (leftOf s stream ctx rest) } }
      (.datagram (s.host.streams.get {} stream).session (recordBytes (nextOf s stream ctx r))) := by
  simp only [deliverRecord, nextRecord_eq here, mode, live, and_self, if_true]

variable (mode : (s.host.streams.get {} stream).mode = 2) (up : qpUp s (s.host.streams.get {} stream).buf.qp = true)
include mode up

theorem deliverRecord_full (full : ((s.host.streams.get {} stream).buf.len - 64) / 256 <
      (s.host.streams.get {} stream).producer + ((recordBytes (nextOf s stream ctx r)).length + 255) / 256 - consumer) :
    deliverRecord s stream ctx consumer = s := by
  simp only [deliverRecord, nextRecord_eq here, mode, up, full, if_true, and_self]
  exact if_neg (by simp)

theorem deliverRecord_ring (room : (s.host.streams.get {} stream).producer + ((recordBytes (nextOf s stream ctx r)).length + 255) / 256 - consumer ≤
      ((s.host.streams.get {} stream).buf.len - 64) / 256) :
    deliverRecord s stream ctx consumer = writeChunks
      { s with host := { s.host with
          devRings := s.host.devRings.put {} (ringKey stream ctx) (leftOf s stream ctx rest)
          streams := s.host.streams.put {} stream { s.host.streams.get {} stream with
            producer := (s.host.streams.get {} stream).producer + ((recordBytes (nextOf s stream ctx r)).length + 255) / 256 } } }
      stream ctx (s.host.streams.get {} stream) (recordBytes (nextOf s stream ctx r)) (((recordBytes (nextOf s stream ctx r)).length + 255) / 256)
      (((s.host.streams.get {} stream).buf.len - 64) / 256) := by
  simp only [deliverRecord, nextRecord_eq here, mode, up, Nat.not_lt.mpr room, if_true, if_false, and_self]
  exact if_neg (by simp)

end

/-- Settles O19: the next record leaves as one datagram, or chunk by chunk where the host ring has room. -/
theorem telemetryDelivered : Obligations.TelemetryDelivered := by
  intro stream ctx consumer r rest s up port small here
  have run : exec (.telemetryRecord stream ctx consumer) s = .next (deliverRecord s stream ctx consumer) := by
    simp [exec, execTelemetryRecord, up, port, small]
  refine ⟨fun mode live => ?_, fun mode open_ full => ?_, fun mode open_ room => ?_⟩
  · rw [run, deliverRecord_session here consumer mode live]; rfl
  · rw [run, deliverRecord_full here consumer mode open_ full]
  · rw [deliverRecord_ring here consumer mode open_ room] at run
    obtain ⟨xf, nx, h⟩ := writeChunks_sends { s with host := { s.host with
      devRings := s.host.devRings.put {} (ringKey stream ctx) (leftOf s stream ctx rest)
      streams := s.host.streams.put {} stream { s.host.streams.get {} stream with
        producer := (s.host.streams.get {} stream).producer + ((recordBytes (nextOf s stream ctx r)).length + 255) / 256 } } }
      stream ctx (s.host.streams.get {} stream) (recordBytes (nextOf s stream ctx r))
    rw [h] at run
    exact ⟨_, run, rfl, rfl, rfl, rfl⟩

end Sys2Proof.Machine
end

section
/-! SUPPORT of O20 to O23. The queue of a context's commands (R276): a command whose turn it is acts at once on the state that dispatch leaves. -/

namespace Sys2Proof.Machine

/-- The state in which a context's command acts: dispatch and the passage through the queue leave every context and every register away from the
port's page as they were. -/
structure Acting (s v : State) : Prop where
  ctx : ∀ m, getCtx v m = getCtx s m
  regs : ∀ p off, offPort p off → regGet v p off = regGet s p off
  only : v = { s with
    regs := v.regs, ec := v.ec, ctxs := v.ctxs, host := { s.host with sessions := v.host.sessions, devRings := v.host.devRings } }

/-- What reads neither registers nor contexts reads the same. -/
theorem Acting.same {s v : State} (a : Acting s v) {α : Type} (f : State → α)
    (h : ∀ r e x z d, f { s with regs := r, ec := e, ctxs := x, host := { s.host with sessions := z, devRings := d } } = f s) : f v = f s := by
  rw [a.only]
  exact h ..

theorem portOnly.only {s u : State} (p : portOnly s u) : u = { s with
    regs := u.regs, ec := u.ec, host := { s.host with sessions := u.host.sessions, devRings := u.host.devRings } } := by
  obtain ⟨r, e, z, d, rfl⟩ := p
  rfl

/-- A command that changes no context, and of the state only what `g` says, and answers. -/
theorem Acting.dispatchedOn {s v t w : State} (a : Acting s v) {o : List Out} {ns : List Nat} (ctx : ∀ m, m ∉ ns → getCtx t m = getCtx v m)
    (effect : dispatched o { w with ctxs := t.ctxs } t) (keeps : ∀ m, getCtx w m = getCtx s m) : Machine.dispatchedOn o ns w t :=
  ⟨fun m hm => (ctx m hm).trans ((a.ctx m).trans (keeps m).symm), effect⟩

/-- A response of a command that leaves the contexts of others. -/
theorem Acting.answered {s v : State} (a : Acting s v) (h : Hdr) (ns : List Nat) (st : Nat) (b : List Byte) {x : SMap Ctx}
    (apart : ∀ m, m ∉ ns → getCtx { v with ctxs := x } m = getCtx v m) :
    Machine.dispatchedOn [respOf h st b] ns s (respond { v with ctxs := x } (originOf h) st b) := by
  refine ⟨fun m hm => (apart m hm).trans (a.ctx m), ?_, ?_⟩
  · show v.out ++ _ = s.out ++ _
    rw [a.same State.out fun _ _ _ _ _ => rfl]
    rfl
  · rw [a.only]
    rfl

/-- A refusal changes no context. -/
theorem Acting.refused {s v : State} (a : Acting s v) (h : Hdr) (st : Nat) (b : List Byte) :
    Machine.dispatchedOn [respOf h st b] [] s (respond v (originOf h) st b) := a.answered h [] st b fun _ _ => rfl

/-! The way through the queue. -/

/-- A context whose queue holds one command. -/
def queuedAlone (s : State) (n : Nat) (o : Origin) (cmd : HostCmd) : State :=
  putCtx s n { getCtx s n with queue := (getCtx s n).queue ++ [⟨o, cmd⟩] }

/-- The context whose command has left its queue. -/
def taken1 (s : State) (n : Nat) (o : Origin) (cmd : HostCmd) : State := modCtx (queuedAlone s n o cmd) n (fun c => { c with queue := [] })

theorem getCtx_taken1 {s : State} {n : Nat} (empty : (getCtx s n).queue = []) (o : Origin) (cmd : HostCmd) (m : Nat) :
    getCtx (taken1 s n o cmd) m = getCtx s m := by
  by_cases here : m = n
  · subst here
    rw [taken1, getCtx_modCtx, queuedAlone, getCtx_putCtx]
    exact congrArg (fun q => { getCtx s m with queue := q }) empty.symm
  · rw [taken1, getCtx_modCtx_ne _ here, queuedAlone, getCtx_putCtx_ne _ here]

/-- A boundary looks at no queue. -/
theorem cmdBoundary_queued (s : State) (n k : Nat) (q : List Queued) :
    cmdBoundary (putCtx s n { getCtx s n with queue := q }) k = cmdBoundary s k := by
  by_cases here : k = n
  · subst here
    simp only [cmdBoundary, quietCtx, getCtx_putCtx]
    rfl
  · simp only [cmdBoundary, quietCtx, getCtx_putCtx_ne _ here]
    rfl

/-- Whether a command may act does not depend on the queue it waits in; an admission and a pass also ask for swings. -/
theorem mayAct_queued (s : State) (n : Nat) (q : List Queued) {cmd : HostCmd} (notAdmit : ∀ off len, cmd ≠ .admit_ off len)
    (notEval : ∀ e take off len, cmd ≠ .eval e take off len) : mayAct (putCtx s n { getCtx s n with queue := q }) n cmd = mayAct s n cmd := by
  have boundary (k : Nat) := cmdBoundary_queued s n k q
  have ctx : getCtx (putCtx s n { getCtx s n with queue := q }) n = { getCtx s n with queue := q } := getCtx_putCtx ..
  generalize putCtx s n { getCtx s n with queue := q } = t at boundary ctx
  have same : cmdBoundary t = cmdBoundary s := funext boundary
  cases cmd with
  | admit_ off len => exact absurd rfl (notAdmit off len)
  | eval e take off len => exact absurd rfl (notEval e take off len)
  | _ => unfold mayAct; rw [ctx, same]

theorem runQueue_empty {t : State} {n : Nat} (empty : (getCtx t n).queue = []) : ∀ k, runQueue k t n = t
  | 0 => rfl
  | k + 1 => by rw [runQueue, empty]

theorem queueFree_iff (s : State) (n : Nat) : queueFree s n = true ↔ (getCtx s n).queue = [] ∧ fetching s n = false := by
  simp [queueFree, List.isEmpty_iff]

/-- A command that finds its context's queue empty and may act leaves the queue at once. -/
theorem enqueueCmd_acts {s : State} {n : Nat} {cmd : HostCmd} (o : Origin) (free : queueFree s n = true) (may : mayAct s n cmd = true)
    (notAdmit : ∀ off len, cmd ≠ .admit_ off len) (notEval : ∀ e take off len, cmd ≠ .eval e take off len)
    (last : (getCtx (ctxCmd (taken1 s n o cmd) o n cmd) n).queue = []) :
    enqueueCmd s o n cmd = ctxCmd (taken1 s n o cmd) o n cmd := by
  obtain ⟨empty, idle⟩ := (queueFree_iff s n).mp free
  have ready : (fetching (queuedAlone s n o cmd) n || !mayAct (queuedAlone s n o cmd) n cmd) = false := by
    rw [show fetching (queuedAlone s n o cmd) n = false from idle, queuedAlone, mayAct_queued s n _ notAdmit notEval, may]; rfl
  have head : (getCtx (queuedAlone s n o cmd) n).queue = [⟨o, cmd⟩] := by rw [queuedAlone, getCtx_putCtx, empty]; rfl
  have first : runQueue (8 + 1) (queuedAlone s n o cmd) n = runQueue 8 (ctxCmd (taken1 s n o cmd) o n cmd) n := by
    simp only [runQueue, head, ready, Bool.false_eq_true, if_false]
    rfl
  rw [enqueueCmd, if_neg (by rw [empty]; decide)]
  exact first.trans (runQueue_empty last 8)

/-- A command that may not act yet waits alone in its context's queue, unanswered (R276). -/
theorem enqueueCmd_waits {s : State} {n : Nat} {cmd : HostCmd} (o : Origin) (empty : (getCtx s n).queue = []) (mayNot : mayAct s n cmd = false)
    (notAdmit : ∀ off len, cmd ≠ .admit_ off len) (notEval : ∀ e take off len, cmd ≠ .eval e take off len) :
    enqueueCmd s o n cmd = queuedAlone s n o cmd := by
  have head : (getCtx (queuedAlone s n o cmd) n).queue = [⟨o, cmd⟩] := by rw [queuedAlone, getCtx_putCtx, empty]; rfl
  have stays : (fetching (queuedAlone s n o cmd) n || !mayAct (queuedAlone s n o cmd) n cmd) = true := by
    rw [queuedAlone, mayAct_queued s n _ notAdmit notEval, mayNot]; simp
  have first : runQueue (8 + 1) (queuedAlone s n o cmd) n = queuedAlone s n o cmd := by
    simp only [runQueue, head, stays, if_true]
  rw [enqueueCmd, if_neg (by rw [empty]; decide)]
  exact first

section Dispatch

variable {h : Hdr} {s : State} (ht : taken h s = true) (payload : Nat) {n : Nat} {cmd : HostCmd}
include ht

/-- A context's command, its turn come, acts on the state that dispatch and the queue leave. -/
theorem datagram_acts (queued : ∀ u, runCmd u (originOf h) h.ctx cmd = enqueueCmd u (originOf h) n cmd) (free : queueFree s n = true)
    (may : mayAct s n cmd = true) (notAdmit : ∀ off len, cmd ≠ .admit_ off len) (notEval : ∀ e take off len, cmd ≠ .eval e take off len) :
    ∃ v, Acting s v ∧ (SMap.wf {} s.ctxs = true → SMap.wf {} v.ctxs = true) ∧
      ((getCtx (ctxCmd v (originOf h) n cmd) n).queue = [] → datagram h payload cmd s = ctxCmd v (originOf h) n cmd) := by
  obtain ⟨run, port, regs⟩ := viaSession_dispatchState payload (fun t o => runCmd t o h.ctx cmd) ht
  let u := dispatchState h payload s
  have freeU : queueFree u n = true := (port.same (queueFree · n) fun _ _ _ _ => rfl).trans free
  have mayU : mayAct u n cmd = true := by
    refine (port.same (mayAct · n cmd) fun r e z d => ?_).trans may
    cases cmd with
    | admit_ off len => exact absurd rfl (notAdmit off len)
    | eval e take off len => exact absurd rfl (notEval e take off len)
    | _ => rfl
  have ctxU (m : Nat) : getCtx u m = getCtx s m := port.same (getCtx · m) fun _ _ _ _ => rfl
  refine ⟨taken1 u n (originOf h) cmd, ⟨fun m => ?_, fun p off away => (regs p off away).1, ?_⟩, fun wf => ?_, fun last => ?_⟩
  · rw [getCtx_taken1 ((queueFree_iff u n).mp freeU).1, ctxU]
  · exact congrArg (fun v : State => { v with ctxs := (taken1 u n (originOf h) cmd).ctxs }) port.only
  · have wfU : SMap.wf {} u.ctxs = true := (congrArg (SMap.wf {}) (port.same State.ctxs fun _ _ _ _ => rfl)).trans wf
    exact SMap.wf_put _ _ _ _ (SMap.wf_put _ _ _ _ wfU)
  · exact run.trans ((queued u).trans (enqueueCmd_acts (originOf h) freeU mayU notAdmit notEval last))

/-- A command of the device's own acts on the state that dispatch leaves. -/
theorem datagram_direct (cmd : HostCmd) : ∃ v, portOnly s v ∧ Acting s v ∧ datagram h payload cmd s = runCmd v (originOf h) h.ctx cmd := by
  obtain ⟨run, port, regs⟩ := viaSession_dispatchState payload (fun t o => runCmd t o h.ctx cmd) ht
  refine ⟨_, port, ⟨fun m => port.same (getCtx · m) fun _ _ _ _ => rfl, fun p off away => (regs p off away).1, ?_⟩, run⟩
  obtain ⟨r, e, z, d, eq⟩ := port
  rw [eq]

end Dispatch

end Sys2Proof.Machine
end

section
/-! O22: commands that need host memory begin with one RDMA READ (R271, R284, R291, R311, R324, R363, R420). -/

namespace Sys2Proof.Machine

theorem Acting.qpUp {s v : State} (a : Acting s v) (q : Nat) : qpUp v q = Machine.qpUp s q := a.same (Machine.qpUp · q) fun _ _ _ _ _ => rfl

/-- The check of a buffer reads the queue pairs alone. -/
theorem Acting.bufStatus {s v : State} (a : Acting s v) (b : BufRef) (limit : Nat) (zeroOk : Bool) :
    bufStatus v b limit zeroOk = Machine.bufStatus s b limit zeroOk := a.same (Machine.bufStatus · b limit zeroOk) fun _ _ _ _ _ => rfl

/-- A buffer on a connected queue pair, of some bytes within the limit, is accepted (R363). -/
theorem bufStatus_ok {s : State} {b : BufRef} {limit : Nat} (zeroOk : Bool) (up : qpUp s b.qp = true) (some_ : 0 < b.len) (short : b.len ≤ limit) :
    bufStatus s b limit zeroOk = 0 := by
  rw [bufStatus, up]
  simp
  omega

/-- The RDMA READ of a command that acts. -/
theorem Acting.readBegun {s v : State} (a : Acting s v) (b : BufRef) (k : XferKind) : Machine.readBegun b k s (startRead v b k) := by
  refine ⟨fun m _ => a.ctx m, ?_, ?_⟩
  · show v.out ++ [.read v.host.nextXfer b] = s.out ++ [.read s.host.nextXfer b]
    rw [a.same State.out fun _ _ _ _ _ => rfl, a.same (·.host.nextXfer) fun _ _ _ _ _ => rfl]
  · rw [a.only]
    rfl

/-- What a command of the device's own does on the state in which it acts holds of the step. -/
theorem exec_direct {h : Hdr} {s : State} {c : Instr} {payload : Nat} {cmd : HostCmd} {P : State → Prop} (ht : taken h s = true)
    (entry : exec c s = .next (datagram h payload cmd s)) (does : ∀ v, portOnly s v → Acting s v → ∃ w, runCmd v (originOf h) h.ctx cmd = w ∧ P w) :
    ∃ t, exec c s = .next t ∧ P t := by
  obtain ⟨v, port, a, run⟩ := datagram_direct ht payload cmd
  obtain ⟨w, eq, holds⟩ := does v port a
  exact ⟨w, by rw [entry, run, eq], holds⟩

/-- What a context's command does on the state in which it acts holds of the step, where it leaves its context's queue empty. -/
theorem exec_acts {h : Hdr} {s : State} {c : Instr} {payload n : Nat} {cmd : HostCmd} {P : State → Prop} (ht : taken h s = true)
    (entry : exec c s = .next (datagram h payload cmd s)) (queued : ∀ u, runCmd u (originOf h) h.ctx cmd = enqueueCmd u (originOf h) n cmd)
    (free : queueFree s n = true) (may : mayAct s n cmd = true) (notAdmit : ∀ off len, cmd ≠ .admit_ off len)
    (notEval : ∀ e take off len, cmd ≠ .eval e take off len)
    (does : ∀ v, Acting s v → (getCtx (ctxCmd v (originOf h) n cmd) n).queue = [] ∧ P (ctxCmd v (originOf h) n cmd)) :
    ∃ t, exec c s = .next t ∧ P t := by
  obtain ⟨v, a, -, run⟩ := datagram_acts ht payload queued free may notAdmit notEval
  obtain ⟨last, holds⟩ := does v a
  exact ⟨_, entry, run last ▸ holds⟩

/-- A command that begins a read leaves its context's queue empty. -/
theorem Acting.reads {s v t : State} (a : Acting s v) {n : Nat} {b : BufRef} {k : XferKind} (free : queueFree s n = true) (eq : t = startRead v b k) :
    (getCtx t n).queue = [] ∧ Machine.readBegun b k s t := by
  subst eq
  exact ⟨(congrArg Ctx.queue (a.ctx n)).trans ((queueFree_iff s n).mp free).1, a.readBegun b k⟩

section Reads

variable {s : State} {b : BufRef} (up : qpUp s b.qp = true) (some_ : 0 < b.len) (short : b.len ≤ 8 * 4096)
include up some_ short

theorem doLoadPlan_reads {o : Origin} {n : Nat} {tb : BufRef} (fits : tb.len = 0 ∨ (qpUp s tb.qp = true ∧ tb.len ≤ 8 * 4096))
    (alive : (getCtx s n).state ≠ 0) : doLoadPlan s o n b tb = startRead s b (.plan o n tb) := by
  have table : bufStatus s tb (8 * 4096) true = 0 := by
    by_cases zero : tb.len = 0
    · simp [bufStatus, zero]
    · obtain ⟨up', short'⟩ := fits.resolve_left zero
      exact bufStatus_ok true up' (by omega) short'
  rw [doLoadPlan, if_neg alive, bufStatus_ok false up some_ (by omega), table]
  rfl

theorem doActivate_reads {o : Origin} {n : Nat} (good : s.boot.failedUnit = none) :
    doActivate s o n (some b) = startRead s b (.activateTable o n) := by
  rw [doActivate, good]
  dsimp only
  rw [bufStatus_ok false up some_ short]
  rfl

theorem doSwitch_reads {o : Origin} {outs : List Nat} {n : Nat} (good : s.boot.failedUnit = none) :
    doSwitch s o outs n (some b) = startRead s b (.switchTable o outs n) := by
  rw [doSwitch, good]
  dsimp only
  rw [bufStatus_ok false up some_ short]
  rfl

theorem doRestore_reads {o : Origin} {n : Nat} {j : Option Bool} (good : s.boot.failedUnit = none) :
    doRestore s o n { image := b, setJournal := j } = startRead s b (.image o n { image := b, setJournal := j }) := by
  rw [doRestore, good]
  simp only [bufStatus_ok false up some_ (show b.len ≤ 2 ^ 64 by omega)]
  rfl

theorem doProbeLoad_reads {o : Origin} : doProbeLoad s o b = startRead s b (.probe o) := by
  rw [doProbeLoad, bufStatus_ok false up some_ (by omega)]
  rfl

theorem doFwUpdate_reads {o : Origin} (idle : fwBusy s = false) : doFwUpdate s o b = startRead s b (.firmware o) := by
  rw [doFwUpdate, idle, bufStatus_ok false up some_ (by omega)]
  rfl

theorem doPair_reads {h : Hdr} {twin links : Nat} (free : pairBarred s twin links = false) :
    doPair s (originOf h) twin links b = startRead s b (.pairTable (originOf h) twin links) := by
  rw [doPair, free, bufStatus_ok false up some_ short]
  rfl

end Reads

/-- The device's ID and the trunks decide a pairing: dispatch leaves them. -/
theorem Acting.pairBarred {s v : State} (a : Acting s v) (twin links : Nat) : pairBarred v twin links = Machine.pairBarred s twin links := by
  have id_ : deviceId v = deviceId s := congrArg (bits · 11 0) (a.regs pgRouter Reg.RT_ID (.inl (by decide)))
  have rest : ∀ k, (v.twin.twin.isSome || twin == k || decide (4096 ≤ twin) || ((List.range 48).filter (fun n => bit links n)).length == 0 ||
      decide (4 < ((List.range 48).filter (fun n => bit links n)).length) || decide (2 ^ 48 ≤ links) || trunked v links) =
      (s.twin.twin.isSome || twin == k || decide (4096 ≤ twin) || ((List.range 48).filter (fun n => bit links n)).length == 0 ||
      decide (4 < ((List.range 48).filter (fun n => bit links n)).length) || decide (2 ^ 48 ≤ links) || trunked s links) := by
    intro k
    rw [a.same (·.twin.twin) fun _ _ _ _ _ => rfl, a.same (trunked · links) fun _ _ _ _ _ => rfl]
  unfold Machine.pairBarred
  dsimp only
  rw [id_]
  exact rest _

/-- Settles O22: each command passes its checks and sends its one RDMA READ, or is refused with the check's status. -/
theorem readsBegin : Obligations.ReadsBegin := by
  intro h b s ht up some_ short
  refine ⟨fun tb fits free alive => ?_, fun free good => ?_, fun outs n free good quiet => ?_, fun j free good quiet => ?_, ?_, fun idle => ?_,
    fun twin links free => ?_, fun twin links barred => ?_, fun u => ⟨fun down => ?_, fun up' zero => ?_⟩⟩
  · exact exec_acts ht rfl (fun _ => rfl) free rfl (fun _ _ => by simp) (fun _ _ _ _ => by simp) fun v a =>
      a.reads free (doLoadPlan_reads (by rw [a.qpUp]; exact up) some_ short (by rw [a.qpUp]; exact fits) (by rw [a.ctx]; exact alive))
  · exact exec_acts ht rfl (fun _ => rfl) free rfl (fun _ _ => by simp) (fun _ _ _ _ => by simp) fun v a =>
      a.reads free (doActivate_reads (by rw [a.qpUp]; exact up) some_ short ((a.same (·.boot.failedUnit) fun _ _ _ _ _ => rfl).trans good))
  · exact exec_acts ht rfl (fun _ => rfl) free (List.all_eq_true.mpr quiet) (fun _ _ => by simp) (fun _ _ _ _ => by simp) fun v a =>
      a.reads free (doSwitch_reads (by rw [a.qpUp]; exact up) some_ short ((a.same (·.boot.failedUnit) fun _ _ _ _ _ => rfl).trans good))
  · exact exec_acts ht rfl (fun _ => rfl) free ((congrArg _ quiet).trans (Bool.or_true _)) (fun _ _ => by simp) (fun _ _ _ _ => by simp) fun v a =>
      a.reads free (doRestore_reads (by rw [a.qpUp]; exact up) some_ short ((a.same (·.boot.failedUnit) fun _ _ _ _ _ => rfl).trans good))
  · exact exec_direct ht rfl fun v _ a => ⟨_, doProbeLoad_reads (by rw [a.qpUp]; exact up) some_ short, a.readBegun b _⟩
  · refine exec_direct ht rfl fun v _ a => ?_
    have idle' : fwBusy v = false := (a.same fwBusy fun _ _ _ _ _ => rfl).trans idle
    exact ⟨_, doFwUpdate_reads (by rw [a.qpUp]; exact up) some_ short idle', a.readBegun b _⟩
  · refine exec_direct ht rfl fun v _ a => ?_
    have free' : pairBarred v twin links = false := (a.pairBarred twin links).trans free
    exact ⟨_, doPair_reads (by rw [a.qpUp]; exact up) some_ short free', a.readBegun b _⟩
  · refine exec_direct ht rfl fun v port a => ⟨answer v (originOf h) stNotAllowed, ?_, dispatched_respond h _ [] port⟩
    rw [runCmd, doPair, a.pairBarred, barred]
    rfl
  · refine exec_direct ht rfl fun v port a => ⟨answer v (originOf h) stQpInvalid, ?_, dispatched_respond h _ [] port⟩
    rw [runCmd, doProbeLoad, a.bufStatus, bufStatus, down]
    simp [stQpInvalid]
  · refine exec_direct ht rfl fun v port a => ⟨answer v (originOf h) stLengthInvalid, ?_, dispatched_respond h _ [] port⟩
    rw [runCmd, doProbeLoad, a.bufStatus, bufStatus, up', zero]
    simp [stLengthInvalid]

end Sys2Proof.Machine
end

section
/-! O20: the life of a context and the queue of its commands (R179, R275, R276). -/

namespace Sys2Proof.Machine

/-- What a command leaves that stores its own context and answers. -/
theorem Acting.stored {s v : State} (a : Acting s v) (h : Hdr) (n : Nat) (c : Ctx) (st : Nat) :
    Machine.dispatchedOn [respOf h st []] [n] s (answer (putCtx v n c) (originOf h) st) ∧ getCtx (answer (putCtx v n c) (originOf h) st) n = c :=
  ⟨a.answered h [n] st [] fun m hm => getCtx_putCtx_ne v (by simpa using hm) c, getCtx_putCtx v n c⟩

/-- The device's rings are the port's: their change is part of what dispatch may leave. -/
theorem Acting.withDevRings {s v : State} (a : Acting s v) (d : SMap DevRing) : Acting s { v with host := { v.host with devRings := d } } where
  ctx := a.ctx
  regs := a.regs
  only := by
    rw [a.only]

/-- A fault-log record beside a context that is stored. -/
theorem Acting.logged {s v : State} (a : Acting s v) (n : Nat) (c : Ctx) (f : FaultRec) :
    ∃ w, Acting s w ∧ logFault (putCtx v n c) f = putCtx w n c := by
  obtain ⟨r, e, d, eq⟩ := logFault_only (putCtx v n c) f
  refine ⟨{ v with regs := r, ec := e, host := { v.host with devRings := d } }, ⟨a.ctx, fun p off away => ?_, ?_⟩, ?_⟩
  · have kept := logFault_port_regGet away (putCtx v n c) f
    rw [eq] at kept
    exact kept.trans (a.regs p off away)
  · rw [a.only]
  · rw [eq]; rfl

/-! What a deactivation gives back (R281). -/

/-- Pegs on which nobody waits are freed and change nothing but their lines. -/
theorem freePeg_fold (st : Nat) : ∀ (l : List Nat) (s : State), (∀ k, (getPeg s k).waits = []) →
    ∃ e p, l.foldl (freePeg st) s = { s with ec := e, pegs := p } ∧ ∀ k, getPeg (l.foldl (freePeg st) s) k = if k ∈ l then {} else getPeg s k
  | [], s, _ => ⟨s.ec, s.pegs, rfl, fun k => (if_neg (by simp)).symm⟩
  | j :: t, s, none_ => by
    have first : freePeg st s j = updateGroup (putPeg s j {}) j := by rw [freePeg, none_ j]; rfl
    have peg (k : Nat) : getPeg (freePeg st s j) k = if k = j then {} else getPeg s k := by
      rw [first]
      exact SMap.get_put ({} : Peg) k j {} s.pegs
    have none' (k : Nat) : (getPeg (freePeg st s j) k).waits = [] := by
      rw [peg]
      split
      · rfl
      · exact none_ k
    obtain ⟨e, p, only, pegs⟩ := freePeg_fold st t (freePeg st s j) none'
    refine ⟨e, p, ?_, fun k => ?_⟩
    · rw [List.foldl_cons, only, first]; rfl
    · rw [List.foldl_cons, pegs, peg]
      by_cases here : k = j
      · simp [here]
      · simp [here]

theorem setOwner_only (tag : Nat) (s : State) (m : Slot) : ∃ r g, setOwner tag s m = { s with regs := r, gals := g } := by
  unfold setOwner
  split
  · exact ⟨_, _, rfl⟩
  · exact ⟨s.regs, s.gals, rfl⟩

theorem ownFrames_only (tag : Nat) : ∀ (l : List Slot) (s : State), ∃ r g, l.foldl (setOwner tag) s = { s with regs := r, gals := g }
  | [], s => ⟨s.regs, s.gals, rfl⟩
  | m :: t, s => by
    obtain ⟨r0, g0, first⟩ := setOwner_only tag s m
    obtain ⟨r, g, rest⟩ := ownFrames_only tag t (setOwner tag s m)
    exact ⟨r, g, by rw [List.foldl_cons, rest, first]⟩

/-- The context that a deactivation leaves: RESIDENT, its placement kept (R281). -/
def deactivated (c : Ctx) : Ctx :=
  { c with state := 1, cached := c.frames, frames := [], frameQueues := [], pegs := [], commitPegs := [], slot := none, regionBytes := [],
           stackPages := [], stackBase := [], stack := {}, jslots := [] }

/-- A deactivation changes its context, its pegs and its galleries. -/
theorem releaseActive_spec {s : State} (n : Nat) (none_ : ∀ k, (getPeg s k).waits = []) :
    ∃ r e g p, releaseActive s n = putCtx { s with regs := r, ec := e, gals := g, pegs := p } n (deactivated (getCtx s n)) ∧
      ∀ k, getPeg (releaseActive s n) k = if k ∈ (getCtx s n).pegs.map (·.2) ++ (getCtx s n).commitPegs then {} else getPeg s k := by
  obtain ⟨e, p, fold, pegs⟩ := freePeg_fold 0x1A ((getCtx s n).pegs.map (·.2) ++ (getCtx s n).commitPegs) s none_
  have freed : freePegs s (getCtx s n) false = { s with ec := e, pegs := p } := fold
  obtain ⟨r, g, owned⟩ := ownFrames_only 0 ((getCtx s n).frames.flatMap (·.2)) (freePegs s (getCtx s n) false)
  have owned : ownFrames (freePegs s (getCtx s n) false) (getCtx s n) 0 = { s with regs := r, ec := e, gals := g, pegs := p } := by
    rw [ownFrames, owned, freed]
  have eq : releaseActive s n = putCtx { s with regs := r, ec := e, gals := g, pegs := p } n (deactivated (getCtx s n)) := by
    rw [releaseActive, owned]; rfl
  refine ⟨r, e, g, p, eq, fun k => ?_⟩
  rw [eq, ← pegs k, fold]
  rfl

/-- DEACTIVATE's answer, the galleries and pegs that it gives back being those of the state it leaves (R275, R281). -/
theorem Acting.deactivates {s v : State} (a : Acting s v) (h : Hdr) (n : Nat) (none_ : ∀ k, (getPeg s k).waits = []) :
    let t := answer (releaseActive v n) (originOf h) stOk
    Machine.dispatchedOn [respOf h 0 []] [n] { s with gals := t.gals, pegs := t.pegs } t ∧ getCtx t n = deactivated (getCtx s n) ∧
    ∀ k, getPeg t k = if k ∈ (getCtx s n).pegs.map (·.2) ++ (getCtx s n).commitPegs then {} else getPeg s k := by
  have pegV (k : Nat) : getPeg v k = getPeg s k := a.same (getPeg · k) fun _ _ _ _ _ => rfl
  obtain ⟨r, e, g, p, eq, pegs⟩ := releaseActive_spec (s := v) n fun k => by rw [pegV]; exact none_ k
  intro t
  have pegT (k : Nat) : getPeg t k = getPeg (releaseActive v n) k := rfl
  refine ⟨⟨fun m hm => ?_, ?_, ?_⟩, ?_, fun k => ?_⟩
  · have ne : m ≠ n := by simpa using hm
    show getCtx (releaseActive v n) m = getCtx s m
    rw [eq, getCtx_putCtx_ne _ ne]
    exact a.ctx m
  · show (releaseActive v n).out ++ _ = s.out ++ _
    rw [eq, putCtx_out, a.same State.out fun _ _ _ _ _ => rfl]
    rfl
  · show answer (releaseActive v n) (originOf h) stOk = _
    rw [show t = answer (releaseActive v n) (originOf h) stOk from rfl, eq, a.only]
    rfl
  · show getCtx (releaseActive v n) n = _
    rw [eq, getCtx_putCtx, a.ctx]
  · rw [pegT, pegs, a.ctx, pegV]

section Commands

variable {h : Hdr} {s : State} {c : Instr} {payload : Nat} {cmd : HostCmd} (ht : taken h s = true) (entry : exec c s = .next (datagram h payload cmd s))
  (queued : ∀ u, runCmd u (originOf h) h.ctx cmd = enqueueCmd u (originOf h) h.ctx cmd) (free : queueFree s h.ctx = true)
  (may : mayAct s h.ctx cmd = true) (notAdmit : ∀ off len, cmd ≠ .admit_ off len) (notEval : ∀ e take off len, cmd ≠ .eval e take off len)
include ht entry queued free may notAdmit notEval

/-- A command that stores its context and answers OK. -/
theorem exec_stores (x : Ctx) (empty : x.queue = [])
    (does : ∀ v, Acting s v → ∃ w, Acting s w ∧ ctxCmd v (originOf h) h.ctx cmd = answer (putCtx w h.ctx x) (originOf h) stOk) :
    ∃ t, exec c s = .next t ∧ dispatchedOn [respOf h 0 []] [h.ctx] s t ∧ getCtx t h.ctx = x := by
  refine exec_acts ht entry queued free may notAdmit notEval fun v a => ?_
  obtain ⟨w, b, eq⟩ := does v a
  obtain ⟨done, ctx⟩ := b.stored h h.ctx x stOk
  rw [eq]
  exact ⟨by rw [ctx]; exact empty, done, ctx⟩

/-- A command that is refused. -/
theorem exec_refuses (st : Nat) (does : ∀ v, Acting s v → ctxCmd v (originOf h) h.ctx cmd = answer v (originOf h) st) :
    ∃ t, exec c s = .next t ∧ dispatchedOn [respOf h st []] [] s t := by
  refine exec_acts ht entry queued free may notAdmit notEval fun v a => ?_
  rw [does v a]
  exact ⟨(congrArg Ctx.queue (a.ctx h.ctx)).trans ((queueFree_iff s h.ctx).mp free).1, a.refused h st []⟩

end Commands

/-- Settles O20: each command acts at once where its context's queue is empty, and stores its own context alone; one that may not act waits or,
the ninth, is refused. -/
theorem contextLifeAndQueue : Obligations.ContextLifeAndQueue := by
  refine ⟨fun h s ht free => ?_, fun h x s ht _ mayNot => ⟨fun empty => ?_, fun full => ?_⟩⟩
  · intro c ok bad
    have empty : c.queue = [] := ((queueFree_iff s h.ctx).mp free).1
    refine ⟨fun j sd fresh small => ?_, fun j sd unfit => ?_, fun resident => ?_, fun other => ?_, fun x alive may => ?_,
      fun b alive quiet up some_ short => ?_, fun held => ?_, fun going => ?_, fun active quiet none_ => ?_, fun other quiet => ?_⟩
    · refine exec_stores ht rfl (fun _ => rfl) free rfl (fun _ _ => by simp) (fun _ _ _ _ => by simp) _ (by exact empty) fun v a => ⟨v, a, ?_⟩
      show doCreate v (originOf h) h.ctx j sd = _
      rw [doCreate, a.ctx, fresh]
      exact if_neg (by simpa using small)
    · refine exec_refuses ht rfl (fun _ => rfl) free rfl (fun _ _ => by simp) (fun _ _ _ _ => by simp) _ fun v a => ?_
      show doCreate v (originOf h) h.ctx j sd = _
      rw [doCreate, a.ctx]
      exact if_pos (by simpa using unfit)
    · refine exec_stores ht rfl (fun _ => rfl) free rfl (fun _ _ => by simp) (fun _ _ _ _ => by simp) _ rfl fun v a =>
        ⟨_, a.withDevRings ((v.host.devRings.erase (ringKey 0 h.ctx)).erase (ringKey 1 h.ctx)), ?_⟩
      show doDestroy v (originOf h) h.ctx = _
      rw [doDestroy, a.ctx, if_neg (not_not_intro resident), show (getCtx s h.ctx).queue = [] from empty]
      rfl
    · refine exec_refuses ht rfl (fun _ => rfl) free rfl (fun _ _ => by simp) (fun _ _ _ _ => by simp) _ fun v a => ?_
      show doDestroy v (originOf h) h.ctx = _
      rw [doDestroy, a.ctx, if_pos other]
      rfl
    · refine exec_stores ht rfl (fun _ => rfl) free may (fun _ _ => by simp) (fun _ _ _ _ => by simp) _ (by exact empty) fun v a => ?_
      let old := ((getCtx s h.ctx).seed.getD 0).toNat
      obtain ⟨w, b, eq⟩ := a.logged h.ctx { getCtx s h.ctx with seed := some x }
        { kind := 11, d0 := old % 2 ^ 32, d1 := old / 2 ^ 32, addr := x.toNat }
      refine ⟨w, b, ?_⟩
      show doSetSeed v (originOf h) h.ctx x = _
      rw [doSetSeed, a.ctx, ← eq]
      exact if_neg alive
    · refine exec_stores (cmd := .setWindow b) ht rfl (fun _ => rfl) free quiet (fun _ _ => by simp) (fun _ _ _ _ => by simp) _ (by exact empty) fun v a => ⟨v, a, ?_⟩
      show doSetWindow v (originOf h) h.ctx b = _
      rw [doSetWindow, a.ctx, if_neg alive, a.bufStatus, bufStatus_ok false up some_ short, modCtx, a.ctx]
      rfl
    · refine exec_stores ht rfl (fun _ => rfl) free rfl (fun _ _ => by simp) (fun _ _ _ _ => by simp) _ (by exact empty) fun v a => ⟨v, a, ?_⟩
      show doResume v (originOf h) h.ctx = _
      rw [doResume, a.ctx, held]
      rfl
    · refine exec_refuses ht rfl (fun _ => rfl) free rfl (fun _ _ => by simp) (fun _ _ _ _ => by simp) _ fun v a => ?_
      show doResume v (originOf h) h.ctx = _
      rw [doResume, a.ctx, going]
      rfl
    · refine exec_acts ht rfl (fun _ => rfl) free quiet (fun _ _ => by simp) (fun _ _ _ _ => by simp) fun v a => ?_
      have eq : doDeactivate v (originOf h) h.ctx = answer (releaseActive v h.ctx) (originOf h) stOk := by
        rw [doDeactivate, a.ctx, if_neg (not_not_intro active)]
      rw [show ctxCmd v (originOf h) h.ctx .deactivate = _ from eq]
      obtain ⟨done, ctx, pegs⟩ := a.deactivates h h.ctx none_
      exact ⟨by rw [ctx]; exact empty, done, ctx, pegs⟩
    · refine exec_refuses (cmd := .deactivate) ht rfl (fun _ => rfl) free quiet (fun _ _ => by simp) (fun _ _ _ _ => by simp) _ fun v a => ?_
      show doDeactivate v (originOf h) h.ctx = _
      rw [doDeactivate, a.ctx, if_pos other]
      rfl
  · refine exec_direct ht rfl fun v port a => ⟨queuedAlone v h.ctx (originOf h) (.setSeed x), ?_, ⟨fun m hm => ?_, ?_, ?_⟩, ?_⟩
    · have mayNot' : mayAct v h.ctx (.setSeed x) = false := (port.same (mayAct · h.ctx (.setSeed x)) fun _ _ _ _ => rfl).trans mayNot
      exact enqueueCmd_waits (originOf h) (by rw [a.ctx]; exact empty) mayNot' (fun _ _ => by simp) (fun _ _ _ _ => by simp)
    · rw [queuedAlone, getCtx_putCtx_ne v (by simpa using hm)]
      exact a.ctx m
    · rw [queuedAlone, putCtx_out, a.same State.out fun _ _ _ _ _ => rfl, List.append_nil]
    · rw [queuedAlone, a.only]
      rfl
    · rw [queuedAlone, getCtx_putCtx, a.ctx, empty]
      rfl
  · refine exec_direct ht rfl fun v _ a => ⟨answer v (originOf h) stCtxBusy, ?_, a.refused h _ []⟩
    show enqueueCmd v (originOf h) h.ctx (.setSeed x) = _
    rw [enqueueCmd, a.ctx]
    exact if_pos full

end Sys2Proof.Machine
end

section
/-! O23: EXPORT writes sections, directory and, last, the header (R275, R289, R293, R397). -/

namespace Sys2Proof.Machine

/-- Halls that sleep are woken, and nothing else changes (R397). -/
theorem wakeHalls_spec : ∀ (l : List Nat) (s : State), ∃ w, wakeHalls s l = { s with power := { s.power with waking := w } } ∧
    ∀ i, bit w i = (bit s.power.waking i || (bit s.power.asleep i && l.contains i))
  | [], s => ⟨s.power.waking, rfl, fun i => by simp⟩
  | h :: t, s => by
    obtain ⟨w0, first, bits0⟩ : ∃ w, wakeHall s h = { s with power := { s.power with waking := w } } ∧
        ∀ i, bit w i = (bit s.power.waking i || (bit s.power.asleep i && i == h)) := by
      unfold wakeHall
      split
      · next asleep =>
        refine ⟨_, rfl, fun i => ?_⟩
        rw [bit_eq_testBit, bit_eq_testBit, Nat.testBit_or, Nat.testBit_two_pow]
        by_cases here : h = i
        · subst here; simp [asleep]
        · simp [here, Ne.symm here]
      · next awake =>
        refine ⟨s.power.waking, rfl, fun i => ?_⟩
        by_cases here : i = h
        · subst here; simp [awake]
        · simp [here]
    obtain ⟨w, rest, bits_⟩ := wakeHalls_spec t (wakeHall s h)
    refine ⟨w, by rw [wakeHalls, List.foldl_cons, ← wakeHalls, rest, first], fun i => ?_⟩
    rw [bits_, first]
    show (bit w0 i || (bit s.power.asleep i && t.contains i)) = _
    rw [bits0, List.contains_cons]
    cases bit s.power.asleep i <;> simp [Bool.or_assoc]

theorem emit_fold {α : Type} (f : α → Out) (l : List α) : ∀ s : State, l.foldl (fun s e => emit s (f e)) s = { s with out := s.out ++ l.map f } := by
  induction l with
  | nil => simp
  | cons e t ih =>
    intro s
    rw [List.foldl_cons, ih]
    simp [emit]

/-- A piece of an image at its place in the host's buffer. -/
def imagePiece (b : BufRef) (off : Nat) (d : List Byte) : Out := .write { b with addr := b.addr + off, len := d.length } d

/-- The messages of an export: sections, directory, header (R289). -/
def imageWrites (b : BufRef) (x : ImageParts) : List Out :=
  x.secs.map (fun e => imagePiece b e.1 e.2) ++ [imagePiece b x.header.length x.dir, imagePiece b 0 x.header]

/-- The end of an export's messages: the directory, the header, the context EXPORTING. -/
def endExport (s : State) (o : Origin) (n : Nat) (b : BufRef) (x : ImageParts) : State :=
  startWrite (modCtx (emit s (imagePiece b x.header.length x.dir)) n (fun c => { c with exporting := true }))
    { b with addr := b.addr + 0, len := x.header.length } x.header (.export_ o n)

theorem writeParts_eq (s : State) (o : Origin) (n : Nat) (b : BufRef) (x : ImageParts) :
    writeParts s o n b x = { putCtx s n { getCtx s n with exporting := true } with
      host := { s.host with xfers := s.host.xfers.insert s.host.nextXfer ⟨b.qp, .export_ o n⟩, nextXfer := s.host.nextXfer + 1 }
      out := s.out ++ imageWrites b x } := by
  have parts : writeParts s o n b x = endExport (x.secs.foldl (fun s e => emit s (imagePiece b e.1 e.2)) s) o n b x := rfl
  have messages : (s.out ++ x.secs.map (fun e => imagePiece b e.1 e.2) ++ [imagePiece b x.header.length x.dir]) ++ [imagePiece b 0 x.header] =
      s.out ++ imageWrites b x := by simp [imageWrites]
  rw [parts, emit_fold, ← messages]
  rfl

/-- The image of a context reads the device's registers and the context: the same where the command acts. -/
theorem Acting.contextImage {s v : State} (a : Acting s v) (c : Ctx) : contextImage v c = Machine.contextImage s c := by
  have id_ : deviceId v = deviceId s := congrArg (bits · 11 0) (a.regs pgRouter Reg.RT_ID (.inl (by decide)))
  have cfg : fld v pgDevice Reg.DV_CFG 17 14 = fld s pgDevice Reg.DV_CFG 17 14 :=
    congrArg (bits · 17 14) (a.regs pgDevice Reg.DV_CFG (.inl (by decide)))
  have sections : imageSections v c = imageSections s c := by simp only [imageSections, id_]
  have header (k len : Nat) (d : List Byte) : imageHeader v c k len d = imageHeader s c k len d := by simp only [imageHeader, cfg]
  simp only [Machine.contextImage, sections, header]

/-- An export that its checks let pass. -/
theorem doExport_eq {kj7 : Bool} {s : State} {o : Origin} {n : Nat} {b : BufRef} {x : ImageParts}
    (image : (kj7 = false ∧ x = contextImage s (getCtx s n)) ∨ ∃ p, kj7 = true ∧ (getCtx s n).plan = some p ∧ x = kj7Image (getCtx s n) p)
    (alive : (getCtx s n).state ≠ 0) (up : qpUp s b.qp = true) (some_ : 0 < b.len) (short : b.len ≤ 2 ^ 64) :
    doExport kj7 s o n b = if b.len < x.len then answer s o stLengthInvalid else writeParts (wakeHalls s (homeHalls (getCtx s n))) o n b x := by
  have buffer := bufStatus_ok (limit := 2 ^ 64) false up some_ short
  obtain ⟨rfl, rfl⟩ | ⟨p, rfl, plan, rfl⟩ := image
  · simp only [doExport, buffer]
    rw [if_neg (by simp [alive])]
    rfl
  · simp only [doExport, buffer, plan]
    rw [if_neg (by simp [alive])]
    rfl

/-- What an export leaves of the state in which it acts. -/
theorem Acting.exports {s v : State} (a : Acting s v) (o : Origin) (n : Nat) (b : BufRef) (x : ImageParts) :
    let t := writeParts (wakeHalls v (homeHalls (getCtx s n))) o n b x
    Machine.dispatchedOn (imageWrites b x) [n] { s with
      power := { s.power with waking := t.power.waking }
      host := { s.host with xfers := s.host.xfers.insert s.host.nextXfer ⟨b.qp, .export_ o n⟩, nextXfer := s.host.nextXfer + 1 } } t ∧
    getCtx t n = { getCtx s n with exporting := true } ∧
    ∀ i, bit t.power.waking i = (bit s.power.waking i || (bit s.power.asleep i && (homeHalls (getCtx s n)).contains i)) := by
  obtain ⟨w, woken, bits_⟩ := wakeHalls_spec (homeHalls (getCtx s n)) v
  have power : v.power = s.power := a.same State.power fun _ _ _ _ _ => rfl
  intro t
  have eq : t = _ := (congrArg (writeParts · o n b x) woken).trans (writeParts_eq _ o n b x)
  refine ⟨⟨fun m hm => ?_, ?_, ?_⟩, ?_, fun i => ?_⟩
  · have ne : m ≠ n := by simpa using hm
    rw [eq]
    exact (getCtx_putCtx_ne v ne _).trans (a.ctx m)
  · rw [eq]
    show v.out ++ _ = s.out ++ _
    rw [a.same State.out fun _ _ _ _ _ => rfl]
  · rw [eq, a.only]; rfl
  · rw [eq]
    exact (getCtx_putCtx v n _).trans (congrArg (fun c => { c with exporting := true }) (a.ctx n))
  · rw [eq]
    show bit w i = _
    rw [bits_, power]

/-- Settles O23: an export's pieces in their order, the context EXPORTING and its halls woken; a buffer too short refused. -/
theorem exportWritesHeaderLast : Obligations.ExportWritesHeaderLast := by
  intro h b s ht free quiet alive up some_ short c x kind piece
  -- both commands: the same way through the queue, the image of its own kind
  obtain ⟨kj7, cmd, payload, entry, queued, acts, notAdmit, notEval, may, image⟩ : ∃ kj7 cmd payload, exec c s = .next (datagram h payload cmd s) ∧
      (∀ u, runCmd u (originOf h) h.ctx cmd = enqueueCmd u (originOf h) h.ctx cmd) ∧
      (∀ v, ctxCmd v (originOf h) h.ctx cmd = doExport kj7 v (originOf h) h.ctx b) ∧ (∀ off len, cmd ≠ .admit_ off len) ∧
      (∀ e take off len, cmd ≠ .eval e take off len) ∧ mayAct s h.ctx cmd = true ∧ ∀ v, Acting s v →
        (kj7 = false ∧ x = contextImage v (getCtx v h.ctx)) ∨ ∃ p, kj7 = true ∧ (getCtx v h.ctx).plan = some p ∧ x = kj7Image (getCtx v h.ctx) p := by
    have may : ((getCtx s h.ctx).state != 2 || cmdBoundary s h.ctx) = true := by rw [quiet, Bool.or_true]
    obtain ⟨rfl, rfl⟩ | ⟨p, rfl, plan, rfl⟩ := kind
    · exact ⟨false, .export_ b, 24, rfl, fun _ => rfl, fun _ => rfl, by simp, by simp, may, fun v a => .inl ⟨rfl, by rw [a.ctx, a.contextImage]⟩⟩
    · exact ⟨true, .exportKj7 b, 24, rfl, fun _ => rfl, fun _ => rfl, by simp, by simp, may,
        fun v a => .inr ⟨p, rfl, by rw [a.ctx]; exact plan, by rw [a.ctx]⟩⟩
  have exports (v : State) (a : Acting s v) := doExport_eq (o := originOf h) (image v a) (by rw [a.ctx]; exact alive) (by rw [a.qpUp]; exact up) some_ short
  refine ⟨fun fits => exec_acts ht entry queued free may notAdmit notEval fun v a => ?_,
    fun tooShort => exec_refuses ht entry queued free may notAdmit notEval _ fun v a => ?_⟩
  · obtain ⟨done, ctx, waking⟩ := a.exports (originOf h) h.ctx b x
    rw [acts, exports v a, if_neg (Nat.not_lt.mpr fits), a.ctx]
    exact ⟨by rw [ctx]; exact ((queueFree_iff s h.ctx).mp free).1, done, ctx, waking⟩
  · rw [acts, exports v a, if_pos tooShort]
    rfl

end Sys2Proof.Machine
end

section
/-! O25: SELF_TEST, SE_TEST and UNPAIR (R309, R331). -/

namespace Sys2Proof.Machine

/-! What is sent on grows. -/

/-- What is emitted stays: nothing sent is taken back. -/
def grown (s t : State) : Prop := s.out <+: t.out

theorem grown.same {s t : State} (h : t.out = s.out) : grown s t := by rw [grown, h]

theorem grown.trans {s t u : State} (h : grown s t) (k : grown t u) : grown s u := List.IsPrefix.trans h k

theorem grown_emit (s : State) (o : Out) : grown s (emit s o) := ⟨[o], rfl⟩

theorem grown.foldl {α : Type} {f : State → α → State} (each : ∀ s x, grown s (f s x)) : ∀ (l : List α) (s : State), grown s (l.foldl f s)
  | [], _ => .same rfl
  | x :: l, s => (each s x).trans (foldl each l (f s x))

theorem grown.recorded {s t : State} (h : recorded s t) : grown s t := .same (by rw [h])

theorem grown_setErr (s : State) (p : Page) (i : Nat) : grown s (setErr s p i) := .recorded (setErr_recorded s p i)

theorem grown_putLink (s : State) (n : Nat) (l : Link) : grown s (putLink s n l) := .same rfl

theorem grown_launch (s : State) (n : Nat) (l : Link) (f : Flit) : grown s (launch s n l f) :=
  (grown_putLink s n _).trans ((grown.recorded (bump64_recorded _ (pgLink n) Reg.LK_FLITS_LO 1)).trans (grown_emit ..))

theorem grown_pump (n : Nat) : ∀ (k : Nat) (s : State), grown s (pump n k s)
  | 0, _ => .same rfl
  | k + 1, s => by
    unfold pump
    dsimp only
    split
    · exact .same rfl
    · split
      · exact .same rfl
      · exact (grown_launch ..).trans (grown_pump n k _)

theorem grown_enqueueFlit (s : State) (n : Nat) (f : Flit) : grown s (enqueueFlit s n f) := by
  unfold enqueueFlit
  dsimp only
  refine grown.trans ?_ (grown_pump ..)
  split
  · exact (grown_putLink ..).trans (grown_setErr ..)
  · exact grown_putLink ..

theorem grown_sendOn (s : State) (link dst tc proto n : Nat) (dateline : Bool) (m : Msg) :
    grown s (sendOn s link dst tc proto n dateline m) := by
  have numbered (r : Router) : grown s { s with router := r } := .same rfl
  exact (numbered _).trans ((grown_emit ..).trans (.foldl (fun t f => grown_enqueueFlit t link _) _ _))

theorem grown_sendBundle (s : State) (dst tc proto n : Nat) (m : Msg) : grown s (sendBundle s dst tc proto n m) := by
  unfold sendBundle sendRouted
  split
  · exact grown_sendOn ..
  · split
    · exact .same rfl
    · split
      · exact grown_sendOn ..
      · exact grown_setErr ..

theorem sent_sendBundle (s : State) (dst tc proto n : Nat) (m : Msg) : Sent s (sendBundle s dst tc proto n m) := by
  unfold sendBundle
  split
  · exact sent_sendOn ..
  · exact sent_sendRouted ..

/-! Units and their tests. -/

section Units
variable {hall aisle g : Nat}

theorem bits_unitOf (hallOk : hall < 8) (aisleOk : aisle < 16) (galOk : g < 68) :
    bits (unitOf hall aisle g) 31 29 = 3 ∧ bits (unitOf hall aisle g) 28 25 = hall ∧ bits (unitOf hall aisle g) 24 21 = aisle ∧
      bits (unitOf hall aisle g) 20 14 = g ∧ bits (unitOf hall aisle g) 13 12 = 0 ∧ bits (unitOf hall aisle g) 11 0 = 0 := by
  simp only [bits, unitOf, Nat.shiftRight_eq_div_pow]
  omega

theorem testable_unitOf (hallOk : hall < 8) (aisleOk : aisle < 16) (galOk : g < 68) (s : State) : testable s (unitOf hall aisle g) = true := by
  obtain ⟨level, ofHall, ofAisle, ofGal, frame, rest⟩ := bits_unitOf hallOk aisleOk galOk
  simp [testable, unitNamed, unitValid, level, ofHall, ofAisle, ofGal, frame, rest]
  omega

theorem keyHall_galKey (aisleOk : aisle < 16) (galOk : g < 68) : keyHall (galKey hall aisle g) = hall := by
  simp only [keyHall, galKey]
  omega

theorem keyAisle_galKey (aisleOk : aisle < 16) (galOk : g < 68) : keyAisle (galKey hall aisle g) = aisle := by
  simp only [keyAisle, galKey]
  omega

/-- A test of one gallery whose hall is awake asks for that gallery alone (R309). -/
theorem requestTest_gallery {s : State} (hallOk : hall < 8) (aisleOk : aisle < 16) (galOk : g < 68) (awake : bit s.power.asleep hall = false) :
    requestTest s (unitOf hall aisle g) false = requestOne s (galKey hall aisle g) := by
  obtain ⟨level, ofHall, ofAisle, ofGal, -, -⟩ := bits_unitOf hallOk aisleOk galOk
  have stays : wakeHall s hall = s := by rw [wakeHall, awake]; rfl
  simp [requestTest, unitGals, level, ofHall, ofAisle, ofGal, stays]

end Units

/-- A spare, or a gallery taken out, that runs no probe pack begins its test at once (R309). -/
theorem requestOne_spare {s : State} {k : Nat} (spare : (getGal s k).state = 1 ∨ (getGal s k).state = 3) (idle : (getGal s k).probing = none) :
    requestOne s k = putGal s k { getGal s k with state := 2, testing := true, testReq := true } := by
  have begins : requestOne s k = startTest s k true := by
    rw [requestOne]
    obtain one | three := spare
    · simp [one]
    · simp [three]
  rw [begins, startTest, abortProbe, idle]

/-- A gallery in service of a busy aisle joins the list of requests (R309). -/
theorem requestOne_busy {s : State} {k : Nat} (inUse : (getGal s k).state = 0) (fresh : k ∉ s.silent.requests)
    (busy : aisleQuiet s (keyHall k) (keyAisle k) = false) :
    requestOne s k = { s with silent := { s.silent with requests := s.silent.requests ++ [k] } } := by
  have fresh' : s.silent.requests.contains k = false := by simpa using fresh
  rw [requestOne, if_pos inUse, fresh']
  rw [tryRequest]
  have busy' : aisleQuiet { s with silent := { s.silent with requests := s.silent.requests ++ [k] } } (keyHall k) (keyAisle k) = false := busy
  simp [busy']

theorem wakeHall_awake {s : State} {h : Nat} (awake : bit s.power.asleep h = false) : wakeHall s h = s := by rw [wakeHall, awake]; rfl

/-! UNPAIR. -/

theorem SMap.find_mapped {α β : Type} (f : α → β) (k : Nat) : ∀ m : SMap α, find k (List.map (fun e : Nat × α => (e.1, f e.2)) m) = (find k m).map f
  | [] => rfl
  | (j, v) :: t => by
    by_cases here : j = k
    · simp [find, here]
    · simp [find, here, find_mapped f k t]

/-- A change of every context alike reaches each of them. -/
theorem getCtx_mapped (s : State) (f : Ctx → Ctx) (m : Nat) (stays : f (getCtx s m) = getCtx s m) :
    getCtx { s with ctxs := s.ctxs.map (fun e => (e.1, f e.2)) } m = getCtx s m := by
  show (SMap.find m (List.map (fun e : Nat × Ctx => (e.1, f e.2)) s.ctxs)).getD {} = _
  have stays : f ((s.ctxs.find m).getD {}) = (s.ctxs.find m).getD {} := stays
  rw [SMap.find_mapped]
  show _ = (s.ctxs.find m).getD {}
  cases found : s.ctxs.find m with
  | none => rfl
  | some c => rwa [found] at stays

/-- A mirrored context past its point is noted (R331). -/
def pointNoted (c : Ctx) : Ctx := if c.mirrored && c.unpairPoint then { c with unpairing := true } else c

/-- With a mirrored context short of its point the pairing goes on (R331). -/
theorem noteUnpair_waits {s : State} {n : Nat} (asked : s.twin.unpair.isSome = true) (mirrored : (getCtx s n).mirrored = true)
    (short : (getCtx s n).unpairPoint = false) (running : (getCtx s n).unpairing = false) :
    ∃ x, noteUnpair s = { s with ctxs := x } ∧ getCtx { s with ctxs := x } n = getCtx s n := by
  have stays : pointNoted (getCtx s n) = getCtx s n := by simp [pointNoted, short]
  refine ⟨s.ctxs.map (fun e => (e.1, pointNoted e.2)), ?_, getCtx_mapped s pointNoted n stays⟩
  -- the context is listed, and it is mirrored and not done
  have listed : (n, getCtx s n) ∈ s.ctxs := by
    refine SMap.mem_of_find ?_
    cases found : s.ctxs.find n with
    | none =>
      rw [getCtx, SMap.get, found] at mirrored
      exact absurd mirrored (by decide)
    | some c => simp [getCtx, SMap.get, found]
  have notAll : (s.ctxs.map (fun e => (e.1, pointNoted e.2))).all (fun e => !e.2.mirrored || e.2.unpairing) = false := by
    refine List.all_eq_false.mpr ⟨(n, getCtx s n), List.mem_map.mpr ⟨_, listed, by rw [stays]⟩, ?_⟩
    simp [mirrored, running]
  rw [noteUnpair, Option.isNone_eq_false_iff.mpr asked]
  exact (if_neg Bool.false_ne_true).trans (if_neg (ne_true_of_eq_false notAll))

/-- The end of a pairing answers the host that asked for it (R331). -/
theorem endPairing_answers {s : State} {d : Nat} {o : Origin} (paired : s.twin.twin = some d) (asked : s.twin.unpair = some o) :
    ∃ u, grown s u ∧ u.twin.twin = none ∧ u.twin.state = 0 ∧ u.twin.unpair = none ∧ endPairing s = answer u o stOk := by
  let ended : State := { s with
    twin := { s.twin with state := 0, twin := none, links := 0, table := [], seedLeft := 0, unpair := none }
    ctxs := s.ctxs.map (fun e => (e.1, { e.2 with unpairing := false })) }
  have twin : (sendBundle ended d 0 4 0 (.pairing d false)).twin = ended.twin := by rw [(sent_sendBundle ended d 0 4 0 _).only]
  refine ⟨sendBundle ended d 0 4 0 (.pairing d false), .trans (t := ended) (.same rfl) (grown_sendBundle ..), by rw [twin], by rw [twin], by rw [twin], ?_⟩
  rw [endPairing, paired, asked]

/-- A paired device notes the host that asks and ends the pairing, at once where its twin is lost (R331). -/
theorem doUnpair_paired {s : State} {o : Origin} (host : o.onRing = false) (idle : s.twin.serving = false) (paired : s.twin.twin.isSome = true)
    (free : s.twin.unpair = none) : doUnpair s o = if s.twin.state = 4 then endPairing { s with twin := { s.twin with unpair := some o } }
      else noteUnpair { s with twin := { s.twin with unpair := some o } } := by
  simp [doUnpair, host, idle, paired, free]

/-- Settles O25, by the state the command meets. -/
theorem selfTestAndUnpair : Obligations.SelfTestAndUnpair := by
  refine ⟨fun h hall aisle g s hallOk aisleOk galOk awake => ?_, fun h s ht => ⟨fun serving => ?_, fun idle single alone => ?_, fun idle paired asked => ?_,
    fun n idle paired free standing mirrored short running _ => ?_, fun tw idle paired free lost => ?_⟩⟩
  · intro k u tested asked
    have ofHall : keyHall k = hall := keyHall_galKey aisleOk galOk
    have ofAisle : keyAisle k = aisle := keyAisle_galKey aisleOk galOk
    have named (v : State) : testable v u = true := testable_unitOf hallOk aisleOk galOk v
    have alone (v : State) (sleep : v.power = s.power) : requestTest v u false = requestOne v k :=
      requestTest_gallery hallOk aisleOk galOk (by rw [sleep]; exact awake)
    have u32 : u < 2 ^ 32 := by simp only [u, unitOf]; omega
    -- the test as each of the two commands asks for it
    have command {w : State → State} (ht : taken h s = true) (does : ∀ v, portOnly s v → requestOne v k = w v) (keeps : ∀ v, portOnly s v → portOnly (w s) (w v)) :
        ∃ t, exec (.selfTest h u false) s = .next t ∧ dispatched [respOf h 0 []] (w s) t := by
      refine exec_direct ht rfl fun v port _ => ⟨answer (w v) (originOf h) stOk, ?_, dispatched_respond h _ [] (keeps v port)⟩
      show doSelfTest v (originOf h) u false = _
      rw [doSelfTest, named, if_pos rfl, alone v (port.same State.power fun _ _ _ _ => rfl), does v port]
    have register {w : State} (unforced : fld s pgSilent Reg.SE_TESTOPT 0 0 = 0) (does : requestOne s k = w) :
        exec (.seTest (BitVec.ofNat 32 u)) s = .next w := by
      refine congrArg Host.Outcome.next ?_
      rw [BitVec.toNat_ofNat, Nat.mod_eq_of_lt u32, seTestWrite, named, if_pos rfl, unforced]
      exact (alone s rfl).trans does
    refine ⟨fun spare idle => ⟨fun ht => ?_, fun unforced => ?_⟩, fun inUse fresh busy => ⟨fun ht => ?_, fun unforced => ?_⟩, fun v f word bad => ⟨fun ht => ?_, ?_⟩⟩
    · exact command (w := fun v => putGal v k { getGal v k with state := 2, testing := true, testReq := true }) ht
        (fun v port => requestOne_spare (by rw [port.same (getGal · k) fun _ _ _ _ => rfl]; exact spare) (by rw [port.same (getGal · k) fun _ _ _ _ => rfl]; exact idle))
        fun v port => port.map (fun v => putGal v k { getGal v k with state := 2, testing := true, testReq := true }) fun _ _ _ _ => ⟨_, _, _, _, rfl⟩
    · exact register unforced (requestOne_spare spare idle)
    · exact command (w := fun v => { v with silent := { v.silent with requests := v.silent.requests ++ [k] } }) ht
        (fun v port => requestOne_busy (by rw [port.same (getGal · k) fun _ _ _ _ => rfl]; exact inUse)
          (by rw [port.same State.silent fun _ _ _ _ => rfl]; exact fresh)
          (by rw [ofHall, ofAisle, port.same (aisleQuiet · hall aisle) fun _ _ _ _ => rfl]; exact busy))
        fun v port => port.map (fun v => { v with silent := { v.silent with requests := v.silent.requests ++ [k] } }) fun _ _ _ _ => ⟨_, _, _, _, rfl⟩
    · exact register unforced (requestOne_busy inUse fresh (by rw [ofHall, ofAisle]; exact busy))
    · refine exec_direct ht rfl fun w port _ => ⟨answer w (originOf h) stUnitInvalid, ?_, dispatched_respond h _ [] port⟩
      show doSelfTest w (originOf h) v f = _
      rw [doSelfTest, port.same (testable · v) fun _ _ _ _ => rfl, bad]
      rfl
    · refine ⟨logFault s { kind := 11, device := deviceId s, unit := v }, congrArg Host.Outcome.next ?_, logFault_recorded .., lastRec_pushRec s 2 0xFFFF ?_⟩
      · rw [BitVec.toNat_ofNat, Nat.mod_eq_of_lt word, seTestWrite, bad]
        rfl
      · simp [faultBody]
        decide
  · refine exec_direct ht rfl fun v port _ => ⟨answer { v with twin := { v.twin with serving := false, member := none } } (originOf h) stOk, ?_,
      dispatched_respond h _ [] (port.map (fun v => { v with twin := { v.twin with serving := false, member := none } }) fun _ _ _ _ => ⟨_, _, _, _, rfl⟩)⟩
    show doUnpair v (originOf h) = _
    simp [doUnpair, originOf, Origin.onRing, port.same State.twin fun _ _ _ _ => rfl, serving]
  · refine exec_direct ht rfl fun v port _ => ⟨answer v (originOf h) stOk, ?_, dispatched_respond h _ [] port⟩
    show doUnpair v (originOf h) = _
    simp [doUnpair, originOf, Origin.onRing, port.same State.twin fun _ _ _ _ => rfl, idle, single, alone]
  · refine exec_direct ht rfl fun v port _ => ⟨answer v (originOf h) stNotAllowed, ?_, dispatched_respond h _ [] port⟩
    show doUnpair v (originOf h) = _
    simp [doUnpair, originOf, Origin.onRing, port.same State.twin fun _ _ _ _ => rfl, idle, paired, asked]
  · refine exec_direct ht rfl fun v port a => ?_
    have twin : v.twin = s.twin := port.same State.twin fun _ _ _ _ => rfl
    obtain ⟨x, eq, same⟩ := noteUnpair_waits (s := { v with twin := { v.twin with unpair := some (originOf h) } }) (n := n) rfl
      ((congrArg Ctx.mirrored (a.ctx n)).trans mirrored) ((congrArg Ctx.unpairPoint (a.ctx n)).trans short) ((congrArg Ctx.unpairing (a.ctx n)).trans running)
    refine ⟨_, ?_, ⟨?_, ?_⟩, same.trans (a.ctx n)⟩
    · show doUnpair v (originOf h) = _
      rw [doUnpair_paired rfl (by rw [twin]; exact idle) (by rw [twin]; exact paired) (by rw [twin]; exact free),
        if_neg (by rw [twin]; exact standing), eq]
    · show v.out = _
      rw [port.same State.out fun _ _ _ _ => rfl, List.append_nil]
    · obtain ⟨r, e, z, d, rfl⟩ := port
      rfl
  · obtain ⟨t, entry, v, u, port, grows, unpaired, ended, done, eq⟩ : ∃ t, exec (.unpair h) s = .next t ∧ ∃ v u, portOnly s v ∧ grown v u ∧ u.twin.twin = none ∧
        u.twin.state = 0 ∧ u.twin.unpair = none ∧ t = answer u (originOf h) stOk := by
      refine exec_direct ht rfl fun v port _ => ?_
      have twin : v.twin = s.twin := port.same State.twin fun _ _ _ _ => rfl
      obtain ⟨u, grows, unpaired, ended, done, eq⟩ := endPairing_answers (s := { v with twin := { v.twin with unpair := some (originOf h) } }) (d := tw)
        (o := originOf h) (by rw [twin]; exact paired) rfl
      refine ⟨_, ?_, v, u, port, grows, unpaired, ended, done, rfl⟩
      rw [← eq]
      show doUnpair v (originOf h) = _
      rw [doUnpair_paired rfl (by rw [twin]; exact idle) (by rw [twin, paired]; rfl) (by rw [twin]; exact free), if_pos (by rw [twin]; exact lost)]
    obtain ⟨l, more⟩ := grows
    refine ⟨t, l, entry, ?_, by rw [eq]; exact unpaired, by rw [eq]; exact ended, by rw [eq]; exact done⟩
    rw [eq, ← port.same State.out fun _ _ _ _ => rfl, more]
    rfl

end Sys2Proof.Machine
end

section
/-! O38: replay, idle flits and the reorder store (R343, R346, R352), and the facts about links that O36 and O37 use as well. -/

namespace Sys2Proof.Machine

/-! Facts about the links. -/

theorem getLink_congr {s t : State} (h : t.links = s.links) (n : Nat) : getLink t n = getLink s n := by rw [getLink, getLink, h]

theorem getLink_setErr (s : State) (p : Page) (i n : Nat) : getLink (setErr s p i) n = getLink s n :=
  getLink_congr (by rw [setErr_recorded s p i]) n

theorem linkRuns_congr {s t : State} {n : Nat} (h : (getLink t n).state = (getLink s n).state) : linkRuns t n = linkRuns s n := by
  rw [linkRuns, linkRuns, h]

theorem linkRuns_iff {s : State} {n : Nat} : linkRuns s n = true ↔ (getLink s n).state = 2 ∨ (getLink s n).state = 3 := by simp [linkRuns]

/-- A page of a link is no page of another block (R430). -/
theorem pgLink_apart (n : Nat) {q : Page} (h : q.base ≤ 0x0005F000 ∨ (0x00078000 ≤ q.base ∧ q.base ≤ 0x0105F000)) : apart (pgLink n) q := by
  simp only [apart, pgLink]
  split <;> omega

theorem pgLink_apart_pgLink {m n : Nat} (h : m ≠ n) : apart (pgLink n) (pgLink m) := by
  simp only [apart, pgLink]
  split <;> split <;> omega

theorem linkErr_bit (s : State) (n : Nat) {i : Nat} (hi : i < 32) : bit (regGet (setErr s (pgLink n) i) (pgLink n) (errOff (pgLink n).kind)) i = true :=
  setErr_bit_apart s (pgLink n) hi (show errOff 0x1A < 0x1000 by decide) (show errOff 0x1A ≠ Reg.EVT_PEND by decide) (pgLink_apart n (.inr (by decide)))

theorem routerErr_bit (s : State) {i : Nat} (hi : i < 32) : bit (regGet (setErr s pgRouter i) pgRouter (errOff 0x1B)) i = true :=
  setErr_bit_apart s pgRouter hi (by decide) (by decide) (.inl (by decide))

theorem readyFlit_empty {l : Link} (empty : l.queue = []) (tc : Nat) : readyFlit l tc = none := by rw [readyFlit, empty]; rfl

/-- A link with nothing queued has nothing to send. -/
theorem nextFlit_empty (s : State) (n : Nat) {l : Link} (empty : l.queue = []) : nextFlit s n l = none := by
  simp [nextFlit, readyFlit_empty empty]

theorem pump_empty {s : State} {n : Nat} (empty : (getLink s n).queue = []) : ∀ k, pump n k s = s
  | 0 => rfl
  | k + 1 => by
    unfold pump
    dsimp only
    rw [nextFlit_empty s n empty, ite_self]

theorem pumpLink_empty {s : State} {n : Nat} (empty : (getLink s n).queue = []) : pumpLink s n = s := pump_empty empty _

/-! Replay. -/

theorem emit_each {α : Type} (g : α → Out) : ∀ (l : List α) (s : State), l.foldl (fun s x => emit s (g x)) s = { s with out := s.out ++ l.map g }
  | [], s => by simp
  | x :: l, s => by
    rw [List.foldl_cons, emit_each g l]
    simp [emit]

/-- Credits owed for one more flit (R346). -/
def creditOwed (l : Link) (tc vc : Nat) : Link := { l with owed := l.owed.put 0 (tc * 2 + vc) (l.owed.get 0 (tc * 2 + vc) + 1) }

theorem getLink_oweCredit (s : State) (n tc vc m : Nat) : getLink (oweCredit s n tc vc) m = if n = m then creditOwed (getLink s m) tc vc else getLink s m := by
  split
  · next here => subst here; exact getLink_putLink ..
  · next other => exact getLink_putLink_ne s (Ne.symm other) _

section Replay
variable {s : State} {n seq : Nat}

/-- Nothing is sent again where nothing is held, the link does not run or its retry is exhausted (R343). -/
theorem replay_nothing (stops : unacked (getLink s n) ((seq + 4095) % 4096) = [] ∨ linkRuns s n = false ∨
    retryMax s n ≤ if (getLink s n).replayed = seq ∧ (getLink s n).replays ≠ 0 then (getLink s n).replays else 0) :
    replay s n seq = putLink s n { getLink s n with retry := unacked (getLink s n) ((seq + 4095) % 4096) } := by
  refine if_pos ?_
  obtain none_ | down | exhausted := stops
  · simp [none_]
  · simp [down]
  · simp [decide_eq_true exhausted]

theorem bumpSat_regs (s : State) (p : Page) (o hi lo n : Nat) : ∃ r, bumpSat s p o hi lo n = { s with regs := r } := by
  unfold bumpSat
  split
  · exact ⟨s.regs, rfl⟩
  · exact ⟨_, rfl⟩

/-- What is still held from the SEQ named is sent again (R343). -/
theorem replay_sends {r : List Flit} {again : Nat} (ofSeq : r = unacked (getLink s n) ((seq + 4095) % 4096))
    (before : again = if (getLink s n).replayed = seq ∧ (getLink s n).replays ≠ 0 then (getLink s n).replays else 0)
    (held : r ≠ []) (runs : linkRuns s n = true) (may : again < retryMax s n) (supplied : s.power.lost = false) :
    ∃ b, replay s n seq = { putLink s n { getLink s n with retry := r, replayed := seq, replays := again + 1 } with
      regs := b
      out := s.out ++ r.map (fun f => .flit n { f with ack := ((getLink s n).rx + 4095) % 4096, credit := 0, ctc := 0 }) } := by
  obtain ⟨b, bumped⟩ := bumpSat_regs (putLink s n { getLink s n with retry := r, replayed := seq, replays := again + 1 }) (pgLink n) Reg.LK_RETRY 31 0 1
  refine ⟨b, ?_⟩
  have goes : ¬ ((r.isEmpty || !linkRuns s n || decide (retryMax s n ≤ again)) = true) := by simp [held, runs, may]
  unfold replay
  dsimp only
  rw [← ofSeq, ← before, if_neg goes, bumped]
  dsimp only [putLink]
  rw [supplied, if_neg Bool.false_ne_true]
  exact emit_each _ r _

end Replay

/-! Idle flits. -/

/-- An idle flit with the credits it carries (R343). -/
def idleFlit (s : State) (n credit ctc : Nat) : Flit :=
  { seq := (getLink s n).tx % 4096, ack := ((getLink s n).rx + 4095) % 4096, src := deviceId s, credit := credit, ctc := ctc }

theorem execIdleFlit_idles {s : State} {n : Nat} (runs : linkRuns s n = true) (idle : nextFlit s n (getLink s n) = none) (supplied : s.power.lost = false) :
    (creditBack s n (getLink s n) = none → execIdleFlit n s = .next (emit (putLink s n (getLink s n)) (.flit n (idleFlit s n 0 0)))) ∧
    (∀ k c, creditBack s n (getLink s n) = some (k, c) → execIdleFlit n s = .next (emit
      (putLink s n { getLink s n with owed := (getLink s n).owed.put 0 k ((getLink s n).owed.get 0 k - c) }) (.flit n (idleFlit s n c (k / 2))))) := by
  have sends : ¬ ((!linkRuns s n || (nextFlit s n (getLink s n)).isSome || s.power.lost) = true) := by simp [runs, idle, supplied]
  refine ⟨fun back => (if_neg sends).trans ?_, fun k c back => (if_neg sends).trans ?_⟩ <;> rw [back] <;> rfl

theorem execIdleFlit_quiet {s : State} {n : Nat} (stops : linkRuns s n = false ∨ (nextFlit s n (getLink s n)).isSome = true ∨ s.power.lost = true) :
    execIdleFlit n s = .next s := by
  refine if_pos ?_
  obtain down | waits | off := stops
  · simp [down]
  · simp [waits]
  · simp [off]

/-! The reorder store. -/

/-- The credit of a flit that was held is owed where it was withheld (R352). -/
def heldCredit (s : State) (h : HeldFlit) : State :=
  match h.link with
  | some l => oweCredit s l h.f.tc h.f.vc
  | none => s

theorem heldCredit_links (s : State) (h : HeldFlit) : ∃ x, heldCredit s h = { s with links := x } := by
  unfold heldCredit
  split
  · exact ⟨_, rfl⟩
  · exact ⟨s.links, rfl⟩

theorem getLink_heldCredit (s : State) (h : HeldFlit) (m : Nat) :
    getLink (heldCredit s h) m = if h.link = some m then creditOwed (getLink s m) h.f.tc h.f.vc else getLink s m := by
  unfold heldCredit
  split
  · next l given => rw [getLink_oweCredit, given]; simp
  · next given => rw [given]; simp

/-- The flow goes on behind its one held flit. -/
def gapPassed (s : State) (key : Nat) (h : HeldFlit) : State :=
  let e := s.router.next.get 0 key
  { s with router := { s.router with
      held := s.router.held.put [] key []
      next := s.router.next.put 0 key ((e + (h.f.eseq + 4096 - e) % 4096 + 1) % 4096) } }

/-- A gap behind which one flit is held gives it up, its credit owed (R352). -/
theorem execReorderTimeout_one {s : State} {src tc : Nat} {h : HeldFlit} (tcOk : tc < 4) (one : s.router.held.get [] (src * 4 + tc) = [h]) :
    execReorderTimeout src tc s = .next (setErr (heldCredit (gapPassed s (src * 4 + tc) h) h) pgRouter 2) := by
  rw [execReorderTimeout, Nat.mod_eq_of_lt tcOk, one]
  simp only [List.isEmpty_cons, Bool.false_eq_true, if_false, List.map_cons, List.map_nil, List.foldl_cons, List.foldl_nil, Nat.zero_max]
  rfl

/-- Settles O38, by the command: NAK, IDLE_FLIT, REORDER_TIMEOUT. -/
theorem replayAndReorder : Obligations.ReplayAndReorder := by
  intro n s l
  refine ⟨?_, ?_, fun stops => execIdleFlit_quiet stops, fun src tc tcOk => ?_⟩
  · intro seq r again
    refine ⟨fun stops => congrArg Host.Outcome.next (replay_nothing stops), fun held runs may supplied => ?_⟩
    obtain ⟨b, eq⟩ := replay_sends (r := r) (again := again) rfl rfl held runs may supplied
    refine ⟨_, congrArg Host.Outcome.next eq, rfl, getLink_putLink s n _, fun m other => getLink_putLink_ne s other _, rfl⟩
  · intro runs idle supplied f
    exact execIdleFlit_idles runs idle supplied
  · intro key hs
    refine ⟨fun empty => ?_, fun h one => ⟨_, execReorderTimeout_one tcOk one, ?_⟩⟩
    · have none_ : s.router.held.get [] key = [] := empty
      show execReorderTimeout src tc s = _
      rw [execReorderTimeout, Nat.mod_eq_of_lt tcOk, none_]
      rfl
    · obtain ⟨x, credited⟩ := heldCredit_links (gapPassed s key h) h
      have kept := setErr_recorded (heldCredit (gapPassed s key h) h) pgRouter 2
      have router : (setErr (heldCredit (gapPassed s key h) h) pgRouter 2).router = (gapPassed s key h).router := by rw [kept, credited]
      refine ⟨?_, ?_, ?_, routerErr_bit _ (by decide), fun m => ?_⟩
      · unfold recorded at kept ⊢
        rw [kept, credited]
        rfl
      · rw [router]
        exact SMap.get_put_same ([] : List HeldFlit) key [] _
      · rw [router, gapPassed, SMap.get_put_same, Nat.mod_mod]
      · rw [getLink_setErr, getLink_heldCredit]
        rfl

end Sys2Proof.Machine
end

section
/-! O36: training, lane loss, failure and recovery of links (R313, R316, R337, R357). -/

namespace Sys2Proof.Machine

/-! Recoveries beside a page. -/

theorem sameRegs.regSet {p q : Page} (s : State) {o : Nat} (v : Nat) (h : apart p q) (inPage : o < 0x1000) : sameRegs p s (regSet s q o v) :=
  fun _ ho => regGet_regSet_ne _ _ _ _ _ _ (h.ne ho inPage)

section Recovery
variable {p : Page} (port : apart p pgHost) (fault : apart p pgFault)
include port

theorem sameRegs_logFault (s : State) (f : FaultRec) : sameRegs p s (logFault s f) :=
  fun _ ho => logFault_regGet _ _ _ _ (port.ne ho (by decide)) (port.ne ho (by decide))

include fault

theorem sameRegs_beginRecovery (s : State) (cls unit dev code : Nat) (lease : Bool) (addr : Nat) :
    sameRegs p s (beginRecovery s cls unit dev code lease addr) := by
  have entered : sameRegs p s (regSet (regSet (logFault s { kind := 0, cls := cls, device := dev, unit := unit, d0 := code, addr := addr }) pgFault
      Reg.FM_LAST (cls % 16 + dev % 4096 * 16)) pgFault Reg.FM_LAST_UNIT (lastUnit cls unit)) :=
    (sameRegs_logFault port s _).trans ((sameRegs.regSet _ _ fault (by decide)).trans (.regSet _ _ fault (by decide)))
  unfold beginRecovery
  dsimp only
  split
  · exact entered.trans ((sameRegs.setErr _ 1 fault port (by decide)).trans (.of_regs rfl))
  · exact entered.trans (.of_regs rfl)

theorem sameRegs_settleRecovery (s : State) : sameRegs p s (settleRecovery s) := by
  unfold settleRecovery
  split
  · exact .refl p s
  · next r _ =>
    dsimp only
    split
    · exact .refl p s
    · have closed (f : FaultRec) : sameRegs p s
          (logFault (keepMax (regSet { s with recovery := none } pgFault Reg.FM_LAST_NS (min r.ns 0xFFFFFFFF)) pgFault Reg.FM_MAX_NS r.ns) f) :=
        .trans (t := { s with recovery := none }) (.of_regs rfl)
          ((sameRegs.regSet _ _ fault (by decide)).trans ((sameRegs.regSet _ _ fault (by decide)).trans (sameRegs_logFault port _ f)))
      split
      · exact (closed _).trans ((sameRegs.setErr _ 0 fault port (by decide)).trans (sameRegs_logFault port _ _))
      · exact closed _

end Recovery

theorem noted.recorded {s t : State} (h : noted s t) (same : t.recovery = s.recovery) : recorded s t := by
  unfold noted at h
  unfold Machine.recorded
  rw [same] at h
  exact h

theorem noted.putLink {s t : State} (h : noted s t) (n : Nat) (l : Link) : noted (putLink s n l) (putLink t n l) := by
  unfold noted at *
  rw [h]
  rfl

/-- A recovery that waits for nothing more ends (R316). -/
theorem recoveryDone_ends {s : State} {r : Recovery} (under : s.recovery = some r) (free : r.waits = []) (ns : Nat) :
    (settleRecovery (recoveryWaits s [] ns)).recovery = none := by
  refine settleRecovery_ends (r := { r with waits := (r.waits ++ []).eraseDups, ns := max r.ns ns }) ?_ ?_
  · rw [recoveryWaits, under]
    rfl
  · simp [free]

/-! Training. -/

/-- A link that came up with so many lanes, numbered afresh (R357). -/
def linkCame (s : State) (n peer far lanes : Nat) (l : Link) : Link :=
  { l with
    state := if lanes = 3 then 3 else 2
    noSpare := decide (lanes < 5)
    cal := decide (5 ≤ lanes) && fld s (pgLink n) Reg.LK_CTRL 1 1 == 1
    peer := peer % 4096
    peerLink := far % 64
    seen := some peer
    tx := 0
    rx := 0
    discarding := false
    replays := 0
    used := []
    owed := [] }

section Training
variable {s : State} {n peer far lanes : Nat} (real : n < 48) (training : (getLink s n).state = 1) (enough : 3 ≤ lanes)
  (noRetry : (getLink s n).retry = []) (noQueue : (getLink s n).queue = [])
include real training enough noRetry noQueue

theorem execLinkUp_known (known : (getLink s n).seen = none ∨ (getLink s n).seen = some peer) :
    execLinkUp n peer far lanes s = .next (putLink s n (linkCame s n peer far lanes (getLink s n))) := by
  have eq : execLinkUp n peer far lanes s = .next (pumpLink (putLink s n (linkCame s n peer far lanes (getLink s n))) n) := by
    refine (if_neg (by omega)).trans ((if_neg (by omega)).trans ?_)
    obtain none_ | same := known
    · simp [none_, noRetry, noQueue, linkCame]
    · simp [same, noRetry, noQueue, linkCame]
  rw [eq, pumpLink_empty]
  rw [getLink_putLink]
  exact noQueue

theorem execLinkUp_changed {d : Nat} (saw : (getLink s n).seen = some d) (other : d ≠ peer) :
    execLinkUp n peer far lanes s = .next (setErr (putLink s n { linkCame s n peer far lanes (getLink s n) with leftOut := true }) (pgLink n) 5) := by
  have eq : execLinkUp n peer far lanes s =
      .next (pumpLink (setErr (putLink s n { linkCame s n peer far lanes (getLink s n) with leftOut := true }) (pgLink n) 5) n) := by
    refine (if_neg (by omega)).trans ((if_neg (by omega)).trans ?_)
    have differs : (d != peer) = true := bne_iff_ne.mpr other
    simp [saw, differs, noRetry, noQueue, linkCame]
  rw [eq, pumpLink_empty]
  rw [getLink_setErr, getLink_putLink]
  exact noQueue

end Training

/-! Failure. -/

/-- What other links do beside a link: it stays as it is with its registers, and every link keeps its state. -/
structure BesideLink (n : Nat) (s t : State) : Prop where
  sent : Sent s t
  link : getLink t n = getLink s n
  states : ∀ m, (getLink t m).state = (getLink s m).state
  regs : sameRegs (pgLink n) s t

section Beside
variable {n : Nat}

theorem BesideLink.refl (s : State) : BesideLink n s s := ⟨.refl s, rfl, fun _ => rfl, .refl _ s⟩

theorem BesideLink.trans {s t u : State} (h : BesideLink n s t) (k : BesideLink n t u) : BesideLink n s u where
  sent := h.sent.trans k.sent
  link := k.link.trans h.link
  states m := (k.states m).trans (h.states m)
  regs := h.regs.trans k.regs

theorem besideLink_setErr (s : State) (p : Page) (i : Nat) (away : apart (pgLink n) p) (inPage : errOff p.kind < 0x1000) : BesideLink n s (setErr s p i) where
  sent := sent_setErr s p i
  link := getLink_setErr s p i n
  states m := by rw [getLink_setErr]
  regs := .setErr s i away (pgLink_apart n (.inr (by decide))) inPage

theorem besideLink_putLink (s : State) {m : Nat} (other : m ≠ n) {l : Link} (state : l.state = (getLink s m).state) : BesideLink n s (putLink s m l) where
  sent := sent_putLink s m l
  link := getLink_putLink_ne s (Ne.symm other) l
  states k := by
    by_cases here : k = m
    · subst here; rw [getLink_putLink]; exact state
    · rw [getLink_putLink_ne s here]
  regs := .of_regs rfl

theorem besideLink_launch (s : State) {m : Nat} (other : m ≠ n) (l : Link) (f : Flit) (same : l.state = (getLink s m).state) : BesideLink n s (launch s m l f) := by
  have counted (t : State) : BesideLink n t (bump64 t (pgLink m) Reg.LK_FLITS_LO 1) := by
    obtain ⟨r, eq⟩ := bump64_only t (pgLink m) Reg.LK_FLITS_LO 1
    refine ⟨?_, by rw [eq]; rfl, fun k => by rw [eq]; rfl, .bump64 t 1 (pgLink_apart_pgLink other) (by decide)⟩
    rw [eq]
    exact ⟨rfl, .of_host rfl⟩
  have emitted (t : State) (o : Out) : BesideLink n t (emit t o) := ⟨sent_emit t o, rfl, fun _ => rfl, .of_regs rfl⟩
  unfold launch
  dsimp only
  refine (besideLink_putLink s other ?_).trans ((counted _).trans (emitted ..))
  exact same

theorem besideLink_pump {m : Nat} (other : m ≠ n) : ∀ (k : Nat) (s : State), BesideLink n s (pump m k s)
  | 0, s => .refl s
  | k + 1, s => by
    unfold pump
    dsimp only
    split
    · exact .refl s
    · split
      · exact .refl s
      · refine (besideLink_launch s other _ _ ?_).trans (besideLink_pump other k _)
        rfl

theorem besideLink_enqueueFlit (s : State) {m : Nat} (other : m ≠ n) (f : Flit) : BesideLink n s (enqueueFlit s m f) := by
  unfold enqueueFlit
  dsimp only
  have queued : BesideLink n s (putLink s m { getLink s m with queue := (getLink s m).queue ++ [f] }) := by
    refine besideLink_putLink s other ?_
    rfl
  refine BesideLink.trans ?_ (besideLink_pump other _ _)
  split
  · exact queued.trans (besideLink_setErr _ (pgLink m) 4 (pgLink_apart_pgLink other) (show errOff 0x1A < 0x1000 by decide))
  · exact queued

/-- A route leads to a link that runs (R350). -/
theorem routeOf_runs {s : State} {src dst tc m : Nat} {d : Bool} (route : routeOf s src dst tc = some (m, d)) : linkRuns s m = true := by
  have ofTrunk {t i : Nat} (h : (trunkLinks s t)[i]? = some m) : linkRuns s m = true := by
    have passes := (List.mem_filter.mp (List.mem_of_getElem? h)).2
    simp only [Bool.and_eq_true] at passes
    exact passes.1.1.2
  unfold routeOf at route
  dsimp only at route
  split at route
  · cases route
  · split at route
    · obtain ⟨k, at_, eq⟩ := Option.map_eq_some_iff.mp route
      cases eq
      exact ofTrunk at_
    · split at route
      · obtain ⟨k, at_, eq⟩ := Option.map_eq_some_iff.mp route
        cases eq
        exact ofTrunk at_
      · cases route

theorem linkTo_runs {s : State} {dst m : Nat} {b : Bool} (found : linkTo s dst b = some m) : linkRuns s m = true := by
  have passes := List.find?_some found
  simp only [Bool.and_eq_true] at passes
  exact passes.1.1

/-- A flit of a stopped link leaves by another (R337). -/
theorem besideLink_rerouteFlit (s : State) (bundle : Bool) (f : Flit) (stopped : linkRuns s n = false) : BesideLink n s (rerouteFlit s bundle f) := by
  have other {m : Nat} (runs : linkRuns s m = true) : m ≠ n := by
    rintro rfl
    rw [stopped] at runs
    exact Bool.false_ne_true runs
  have routed : BesideLink n s (routeFlit s f) := by
    unfold routeFlit
    split
    · next m d route => exact besideLink_enqueueFlit s (other (routeOf_runs route)) _
    · exact besideLink_setErr s pgRouter 0 (pgLink_apart n (.inr (by decide))) (by decide)
  unfold rerouteFlit
  split
  · exact .refl s
  · split
    · split
      · next m found => exact besideLink_enqueueFlit s (other (linkTo_runs found)) _
      · exact routed
    · exact routed

theorem besideLink_reroutes (bundle : Bool) (g : Flit → Flit) : ∀ (l : List Flit) (s : State), linkRuns s n = false →
    BesideLink n s (l.foldl (fun s f => rerouteFlit s bundle (g f)) s)
  | [], s, _ => .refl s
  | f :: l, s, stopped => by
    have first := besideLink_rerouteFlit s bundle (g f) stopped
    exact first.trans (besideLink_reroutes bundle g l _ (by rw [linkRuns_congr (first.states n), stopped]))

end Beside

/-- A link that gave up its buffers (R337). -/
def linkStopped (l : Link) : Link :=
  { l with state := 4, cal := false, retry := [], queue := [], used := [], owed := [], discarding := false, replays := 0, turn := 0, share := 0 }

/-- What a link's failure leaves (R316, R337): the link FAILED with its buffers given up, no other link's state changed, no recovery open. -/
structure LinkFailed (n : Nat) (s t : State) : Prop where
  ctxs : t.ctxs = s.ctxs
  gals : t.gals = s.gals
  ended : t.recovery = none
  states : ∀ m, m ≠ n → (getLink t m).state = (getLink s m).state
  link : getLink t n = linkStopped (getLink s n)
  regs : sameRegs (pgLink n) s t

theorem besideLink_noteBundle {n : Nat} (s : State) : BesideLink n s (noteBundle s) := by
  unfold noteBundle
  split
  · exact besideLink_setErr s pgTwin 2 (pgLink_apart n (.inr (by decide))) (by decide)
  · exact .refl s

theorem failLink_fails {s : State} {n : Nat} (ns : Nat) (idle : s.recovery = none) : LinkFailed n s (failLink s n ns) := by
  have port : apart (pgLink n) pgHost := pgLink_apart n (.inr (by decide))
  have fault : apart (pgLink n) pgFault := pgLink_apart n (.inl (by decide))
  have begun := beginRecovery_noted s 2 n (deviceId s) 0x12 false 0
  have begunLinks (m : Nat) : getLink (beginRecovery s 2 n (deviceId s) 0x12 false) m = getLink s m := getLink_congr (by rw [begun]) m
  have first := beginRecovery_first idle 2 n (deviceId s) 0x12 false 0
  have begunRegs := sameRegs_beginRecovery port fault s 2 n (deviceId s) 0x12 false 0
  unfold failLink
  generalize beginRecovery s 2 n (deviceId s) 0x12 false = b at *
  -- the link stops, and what it held leaves by other links
  have state : linkRuns (putLink b n (linkStopped (getLink b n))) n = false := by rw [linkRuns, getLink_putLink]; rfl
  have stopped : BesideLink n (putLink b n (linkStopped (getLink b n))) (noteBundle (stopLink b n 4)) :=
    (besideLink_reroutes (inBundle b n) (fun f => { f with seq := 0, ack := 0, credit := 0, ctc := 0 }) _ _ state).trans (besideLink_noteBundle _)
  have onward : (noteBundle (stopLink b n 4)).recovery = b.recovery := by rw [stopped.sent.only]; rfl
  have ended := recoveryDone_ends (onward.trans first) rfl ns
  have done := (recoveryWaits_noted (noteBundle (stopLink b n 4)) [] ns).trans (settleRecovery_noted _)
  have doneLinks (m : Nat) : getLink (settleRecovery (recoveryWaits (noteBundle (stopLink b n 4)) [] ns)) m = getLink (noteBundle (stopLink b n 4)) m :=
    getLink_congr (by rw [done]) m
  have doneRegs : sameRegs (pgLink n) (noteBundle (stopLink b n 4)) (settleRecovery (recoveryWaits (noteBundle (stopLink b n 4)) [] ns)) :=
    (sameRegs.of_regs (s := noteBundle (stopLink b n 4)) rfl).trans (sameRegs_settleRecovery port fault (recoveryWaits _ [] ns))
  refine ⟨?_, ?_, ended, fun m other => ?_, ?_, ?_⟩
  · rw [done.ctxs, stopped.sent.only]
    exact begun.ctxs
  · rw [done.gals, stopped.sent.only]
    exact begun.gals
  · rw [doneLinks, stopped.states, getLink_putLink_ne b other, begunLinks]
  · rw [doneLinks, stopped.link, getLink_putLink, begunLinks]
  · exact begunRegs.trans ((sameRegs.of_regs rfl).trans (stopped.regs.trans doneRegs))

/-! A lost lane. -/

/-- A running link after it lost a lane (R316): its spare, its fourth lane, or a lane the spare takes over. -/
def laneLost (l : Link) (lane : Nat) : Link :=
  if lane = l.spare then { l with noSpare := true, cal := false }
  else if l.noSpare then { l with state := 3, cal := false }
  else { l with spare := lane % 5, noSpare := true, cal := false }

/-- The spare takes a lane's place, which is flagged (R337). -/
def spareTakes (l : Link) (lane : Nat) : Bool := decide (lane ≠ l.spare) && !l.noSpare

theorem execLaneFault_takes {s : State} {n lane : Nat} (ns : Nat) (up : (getLink s n).state = 2) (idle : s.recovery = none) :
    ∃ t, execLaneFault n lane ns s = .next t ∧ recorded (putLink s n (laneLost (getLink s n) lane)) t ∧
      (spareTakes (getLink s n) lane = true → bit (regGet t (pgLink n) (errOff (pgLink n).kind)) 2 = true) := by
  have port : apart (pgLink n) pgHost := pgLink_apart n (.inr (by decide))
  have fault : apart (pgLink n) pgFault := pgLink_apart n (.inl (by decide))
  have begun := beginRecovery_noted s 1 n (deviceId s) 0x12 false 0
  have first := beginRecovery_first idle 1 n (deviceId s) 0x12 false 0
  let taken (b : State) : State :=
    if spareTakes (getLink s n) lane then setErr (putLink b n (laneLost (getLink s n) lane)) (pgLink n) 2 else putLink b n (laneLost (getLink s n) lane)
  have entry : execLaneFault n lane ns s = .next (settleRecovery (recoveryWaits (taken (beginRecovery s 1 n (deviceId s) 0x12 false)) [] ns)) := by
    refine (if_neg (by simp [linkRuns, up])).trans ((if_neg (by omega)).trans ?_)
    dsimp only [taken, spareTakes, laneLost]
    by_cases spare : lane = (getLink s n).spare
    · simp [spare]
    · by_cases bare : (getLink s n).noSpare = true
      · simp [spare, bare]
      · simp [spare, bare]
  generalize beginRecovery s 1 n (deviceId s) 0x12 false = b at *
  have put : recorded (putLink b n (laneLost (getLink s n) lane)) (taken b) := by
    dsimp only [taken]
    split
    · exact setErr_recorded ..
    · exact .refl _
  have ended := recoveryDone_ends (s := taken b) (by rw [put]; exact first) rfl ns
  refine ⟨_, entry, ?_, fun takes => ?_⟩
  · have all := (begun.putLink n _).trans (put.noted.trans ((recoveryWaits_noted (taken b) [] ns).trans (settleRecovery_noted _)))
    exact all.recorded (ended.trans idle.symm)
  · have same := (sameRegs.of_regs (p := pgLink n) (s := taken b) (t := recoveryWaits (taken b) [] ns) rfl).trans (sameRegs_settleRecovery port fault _)
    rw [same (errOff (pgLink n).kind) (show errOff 0x1A < 0x1000 by decide)]
    dsimp only [taken]
    rw [takes]
    exact linkErr_bit _ n (by decide)

/-- Settles O36, by the command and the link's state. -/
theorem linkStates : Obligations.LinkStates := by
  intro n s l p err
  refine ⟨fun peer far lanes real training => ?_, fun peer far lanes no => if_pos no, fun failed real enabled => ?_, fun no => ?_, fun lane ns up idle => ⟨fun spare => ?_, fun data bare => ?_, fun data spared => ?_⟩,
    fun lane up cal spared small data => ?_, fun lane no => ?_, fun c lane ns which runs idle => ?_, fun lane ns down => ?_⟩
  · intro up
    refine ⟨fun few => ?_, fun enough known noRetry noQueue => execLinkUp_known real training enough noRetry noQueue known, fun d enough saw other noRetry noQueue => ?_⟩
    · have starts : (getLink s n).state = 1 := training
      exact (if_neg (by omega)).trans (if_pos few)
    · exact ⟨_, execLinkUp_changed real training enough noRetry noQueue saw other, setErr_recorded .., linkErr_bit _ n (by decide)⟩
  · exact if_pos ⟨failed, enabled, real⟩
  · exact if_neg fun ⟨failed, enabled, _⟩ => no.elim (· failed) (· enabled)
  · obtain ⟨t, entry, done, -⟩ := execLaneFault_takes (lane := lane) ns up idle
    rw [laneLost, if_pos spare] at done
    exact ⟨t, entry, done⟩
  · obtain ⟨t, entry, done, -⟩ := execLaneFault_takes (lane := lane) ns up idle
    rw [laneLost, if_neg data, if_pos bare] at done
    exact ⟨t, entry, done⟩
  · obtain ⟨t, entry, done, flag⟩ := execLaneFault_takes (lane := lane) ns up idle
    have spared' : (getLink s n).noSpare = false := spared
    rw [laneLost, if_neg data, spared', if_neg Bool.false_ne_true] at done
    exact ⟨t, entry, done, flag (by simp [spareTakes, spared', show lane ≠ (getLink s n).spare from data])⟩
  · refine ⟨_, if_neg ?_, setErr_recorded .., linkErr_bit _ n (by decide)⟩
    have up' : (getLink s n).state = 2 := up
    have cal' : (getLink s n).cal = true := cal
    have spared' : (getLink s n).noSpare = false := spared
    have data' : lane ≠ (getLink s n).spare := data
    simp [up', cal', spared', data']
    omega
  · refine if_pos ?_
    obtain other | notYet | bare | spare := no
    · exact .inl other
    · exact .inr (.inl (by rw [show (getLink s n).cal = false from notYet]; rfl))
    · exact .inr (.inr (.inl bare))
    · exact .inr (.inr (.inr (.inr spare)))
  · obtain ⟨b, entry, begun, links, flag⟩ : ∃ b, exec c s = .next (failLink b n ns) ∧ recorded s b ∧ (∀ m, getLink b m = getLink s m) ∧
        (c = .retryExh n ns → bit (regGet b (pgLink n) (errOff (pgLink n).kind)) 1 = true) := by
      obtain rfl | ⟨rfl, exhausted⟩ | ⟨rfl, three⟩ := which
      · exact ⟨s, if_pos runs, .refl s, fun _ => rfl, nofun⟩
      · refine ⟨setErr s (pgLink n) 1, if_neg ?_, setErr_recorded .., fun m => getLink_setErr .., fun _ => linkErr_bit s n (by decide)⟩
        simp [runs]
        exact exhausted
      · exact ⟨s, (if_neg (by simp [runs])).trans (if_pos three), .refl s, fun _ => rfl, nofun⟩
    obtain ⟨ctxs, gals, ended, states, link, kept⟩ := failLink_fails (s := b) (n := n) ns (by rw [begun]; exact idle)
    refine ⟨_, entry, ctxs.trans begun.ctxs, gals.trans begun.gals, ended, fun m other => (states m other).trans (by rw [links]), ?_, fun exh => ?_⟩
    · rw [link, links]
      rfl
    · show bit (regGet _ (pgLink n) (errOff (pgLink n).kind)) 1 = true
      rw [kept (errOff (pgLink n).kind) (show errOff 0x1A < 0x1000 by decide)]
      exact flag exh
  · have noRun : ¬ linkRuns s n = true := ne_true_of_eq_false down
    refine ⟨if_neg noRun, if_pos ?_, if_pos ?_⟩ <;> simp [down]

end Sys2Proof.Machine
end

section
/-! O37: a received flit is checked, acknowledged, ordered, delivered or forwarded (R324, R343, R346, R350-R352, R354). -/

namespace Sys2Proof.Machine

/-! A flit that leaves at once. -/

section Sends
variable {s : State} {m : Nat} {l : Link} {f : Flit} (one : l.queue = [f]) (free : l.used = [])
include one free

theorem readyFlit_one (tc : Nat) : readyFlit l tc = if f.tc = tc then some f else none := by
  have credits : 0 < creditsOf tc := by
    unfold creditsOf
    split <;> decide
  have room : l.used.get 0 (tc * 2 + f.vc) < creditsOf tc := by rw [free]; exact credits
  by_cases here : f.tc = tc
  · simp [readyFlit, one, here, room]
  · simp [readyFlit, one, here]

/-- The only flit queued is the next, whatever its class (R346). -/
theorem nextFlit_one (class_ : f.tc < 4) : ∃ t sh, nextFlit s m l = some (f, t, sh) := by
  by_cases first : f.tc = 0
  · exact ⟨_, _, by rw [nextFlit, readyFlit_one one free, if_pos first]⟩
  · obtain ⟨t, turn, low, high⟩ : ∃ t, (if 1 ≤ l.turn ∧ l.turn ≤ 3 then l.turn else 1) = t ∧ 1 ≤ t ∧ t ≤ 3 := by
      refine ⟨_, rfl, ?_⟩
      split <;> omega
    have found : ∃ x sh, ([t, t % 3 + 1, (t + 1) % 3 + 1].drop 1 ++ [t]).findSome? (fun c => (readyFlit l c).map (fun f => (f, c, classWeight s m c - 1))) = some (f, x, sh) := by
      have listed : f.tc ∈ [t, t % 3 + 1, (t + 1) % 3 + 1].drop 1 ++ [t] := by simp; omega
      refine ⟨f.tc, classWeight s m f.tc - 1, ?_⟩
      generalize [t, t % 3 + 1, (t + 1) % 3 + 1].drop 1 ++ [t] = order at listed
      induction order with
      | nil => cases listed
      | cons c order ih =>
        by_cases here : f.tc = c
        · simp [readyFlit_one one free, here]
        · rw [List.findSome?_cons, readyFlit_one one free, if_neg here]
          exact ih ((List.mem_cons.mp listed).resolve_left here)
    obtain ⟨x, sh, found⟩ := found
    unfold nextFlit
    rw [readyFlit_one one free, if_neg first]
    dsimp only
    rw [turn]
    split
    · next g ready =>
      have same : g = f := by
        split at ready
        · cases ready
        · rw [readyFlit_one one free] at ready
          split at ready
          · exact (Option.some.inj ready).symm
          · cases ready
      exact ⟨_, _, by rw [same]⟩
    · exact ⟨x, sh, found⟩

end Sends

/-- A flit as it leaves: with the link's SEQ and ACK and the credits it carries (R343, R346). -/
def launched (s : State) (n : Nat) (l : Link) (f : Flit) : Flit :=
  { f with
    seq := l.tx % 4096
    ack := (l.rx + 4095) % 4096
    credit := ((creditBack s n l).map (·.2)).getD 0
    ctc := ((creditBack s n l).map (·.1 / 2)).getD 0 }

theorem launch_sends (s : State) (n : Nat) (l : Link) (f : Flit) : (launch s n l f).out = s.out ++ [.flit n (launched s n l f)] ∧
    (getLink (launch s n l f) n).retry = l.retry ++ [launched s n l f] ∧ (getLink (launch s n l f) n).queue = l.queue.erase f := by
  obtain ⟨after, eq, retry, queue⟩ : ∃ after, launch s n l f = emit (bump64 (putLink s n after) (pgLink n) Reg.LK_FLITS_LO 1) (.flit n (launched s n l f)) ∧
      after.retry = l.retry ++ [launched s n l f] ∧ after.queue = l.queue.erase f := ⟨_, rfl, rfl, rfl⟩
  obtain ⟨r, counted⟩ := bump64_only (putLink s n after) (pgLink n) Reg.LK_FLITS_LO 1
  have link : getLink (launch s n l f) n = after := by
    rw [eq, counted]
    exact getLink_putLink s n after
  refine ⟨?_, by rw [link, retry], by rw [link, queue]⟩
  rw [eq, counted]
  rfl

/-- A flit queued at an idle link leaves at once and is held for its acknowledgement (R343, R346). -/
theorem enqueueFlit_launches {s : State} {m : Nat} {f : Flit} (runs : linkRuns s m = true) (room : (getLink s m).retry.length < 512) (supplied : s.power.lost = false)
    (noQueue : (getLink s m).queue = []) (free : (getLink s m).used = []) (class_ : f.tc < 4) :
    ∃ t sh, enqueueFlit s m f = launch (putLink s m { getLink s m with queue := [f] }) m { getLink s m with queue := [f], turn := t, share := sh } f := by
  have limit : ¬ tc0Limit (getLink s m) < 0 := Nat.not_lt_zero _
  have queued : enqueueFlit s m f = pump m 2 (putLink s m { getLink s m with queue := [f] }) := by
    unfold enqueueFlit
    simp [noQueue, limit]
  obtain ⟨t, sh, next⟩ := nextFlit_one (s := putLink s m { getLink s m with queue := [f] }) (m := m) (l := { getLink s m with queue := [f] }) rfl free class_
  refine ⟨t, sh, ?_⟩
  have goes : ¬ ((decide ((getLink s m).retry.length ≥ 512) || !linkRuns (putLink s m { getLink s m with queue := [f] }) m || s.power.lost) = true) := by
    rw [linkRuns_congr (s := s) (by rw [getLink_putLink]), runs, supplied]
    simp [room]
  rw [queued]
  unfold pump
  rw [getLink_putLink]
  refine (if_neg goes).trans ?_
  rw [next]
  refine pump_empty ((launch_sends ..).2.2.trans ?_) 1
  exact List.erase_cons_head ..

theorem enqueueFlit_leaves {s : State} {m : Nat} {f : Flit} (runs : linkRuns s m = true) (room : (getLink s m).retry.length < 512) (supplied : s.power.lost = false)
    (noQueue : (getLink s m).queue = []) (free : (getLink s m).used = []) (class_ : f.tc < 4) :
    ∃ ack credit ctc, let g : Flit := { f with seq := (getLink s m).tx % 4096, ack := ack, credit := credit, ctc := ctc }
      (enqueueFlit s m f).out = s.out ++ [.flit m g] ∧ (getLink (enqueueFlit s m f) m).retry = (getLink s m).retry ++ [g] := by
  obtain ⟨t, sh, leaves⟩ := enqueueFlit_launches runs room supplied noQueue free class_
  obtain ⟨out, retry, -⟩ := launch_sends (putLink s m { getLink s m with queue := [f] }) m { getLink s m with queue := [f], turn := t, share := sh } f
  rw [leaves]
  exact ⟨_, _, _, out, retry⟩

theorem readFlit_class {bytes : List Byte} {f : Flit} (spelt : readFlit bytes = some f) : f.tc < 4 := by
  unfold readFlit at spelt
  split at spelt
  · cases spelt
    exact Nat.mod_lt _ (by decide)
  · cases spelt

/-! Delivery. -/

theorem release_none {s : State} {key : Nat} (none_ : s.router.held.get [] key = []) : ∀ k, release k s key = s
  | 0 => rfl
  | k + 1 => by
    unfold release
    dsimp only
    rw [none_]
    rfl

section Delivery
variable {s : State} {n : Nat} {f : Flit}

/-- The flow of a source and class goes on by one (R352). -/
def flowNext (s : State) (f : Flit) : State :=
  { s with router := { s.router with next := s.router.next.put 0 (f.src * 4 + f.tc) ((f.eseq + 1) % 4096) } }

/-- A flit in order, with none held behind it, is passed on and its credit owed (R350, R352). -/
theorem deliverFlit_inOrder (next : f.eseq = s.router.next.get 0 (f.src * 4 + f.tc))
    (alone : (pairingTaken (flowNext s f) f).router.held.get [] (f.src * 4 + f.tc) = []) :
    deliverFlit s n f = oweCredit (pairingTaken (flowNext s f) f) n f.tc f.vc := by
  have held : (oweCredit (pairingTaken (flowNext s f) f) n f.tc f.vc).router.held.get [] (f.src * 4 + f.tc) = [] := alone
  unfold deliverFlit
  dsimp only
  rw [← next]
  refine (if_pos rfl).trans ?_
  exact release_none held _

theorem pairingTaken_other (other : f.fkind = 2 ∨ f.proto ≠ 4) : pairingTaken s f = s := by
  refine if_pos ?_
  omega

/-- The message that begins a pairing makes its sender the member served (R324; log entry 177). -/
theorem pairingTaken_begins (first : f.fkind = 1) (management : f.proto = 4) (begins : (f.data.head?.map (·.toNat)) = some 0xF0) (free : s.twin.member = none)
    (alive : f.src ∉ s.lostDevs) : pairingTaken s f = { s with twin := { s.twin with member := some f.src } } := by
  unfold pairingTaken
  rw [if_neg (by omega), begins]
  simp [free, alive]

/-- A flit ahead of its order is held, its credit owed while the store has room (R352). -/
theorem deliverFlit_ahead (other : f.eseq ≠ s.router.next.get 0 (f.src * 4 + f.tc))
    (ahead : (f.eseq + 4096 - s.router.next.get 0 (f.src * 4 + f.tc)) % 4096 < 2048) (room : heldAll s < 8192) :
    deliverFlit s n f = { oweCredit s n f.tc f.vc with
      router := { s.router with held := s.router.held.put [] (f.src * 4 + f.tc) (s.router.held.get [] (f.src * 4 + f.tc) ++ [{ f := f }]) } } := by
  unfold deliverFlit
  refine (if_neg other).trans ((if_pos ahead).trans ?_)
  rw [decide_eq_true room]
  rfl

end Delivery

/-! Forwarding. -/

/-- Routes depend on the links' states and on which are left out of the trunks (R350, R357). -/
theorem routeOf_congr {s t : State} (router : t.router = s.router) (twin : t.twin = s.twin) (states : ∀ m, (getLink t m).state = (getLink s m).state)
    (left : ∀ m, (getLink t m).leftOut = (getLink s m).leftOut) (src dst tc : Nat) : routeOf t src dst tc = routeOf s src dst tc := by
  have trunks (k : Nat) : trunkLinks t k = trunkLinks s k := by
    refine List.filter_congr fun m _ => ?_
    rw [router, linkRuns_congr (states m), left, inBundle, twin]
    rfl
  unfold routeOf
  simp only [router, trunks]

/-! The checks of a flit. -/

section Checks
variable {s : State} {n : Nat} {bytes : List Byte} {f : Flit} (runs : linkRuns s n = true) (spelt : readFlit bytes = some f)
include runs spelt

/-- A flit whose CRC holds is taken by its kind, its SEQ and its credit (R343, R346, R350). -/
theorem execFlit_spelt : execFlit n bytes s = if f.fkind = 0 then .next (pumpLink (putLink s n (takeHeader (getLink s n) f)) n)
    else if f.seq ≠ (getLink s n).rx then .next (if (getLink s n).discarding then s else sendNak s n)
    else if noCredit s n (getLink s n) f then .next (creditBreach s n)
    else .next (pumpLink (if f.fkind = 3 then putLink s n { takeHeader (getLink s n) f with rx := ((getLink s n).rx + 1) % 4096, discarding := false }
      else packetFlit (putLink s n { takeHeader (getLink s n) f with rx := ((getLink s n).rx + 1) % 4096, discarding := false }) n f) n) := by
  unfold execFlit
  rw [runs, spelt]
  rfl

end Checks

/-- Settles O37, by the checks in their order. -/
theorem flitsReceived : Obligations.FlitsReceived := by
  intro n bytes s l held
  refine ⟨fun down => if_pos (by rw [down]; rfl), fun runs spoilt => ?_, fun f runs spelt noQueue => ?_⟩
  · refine ⟨sendNak (setErr s (pgLink n) 0) n, ?_, ?_, ?_⟩
    · show execFlit n bytes s = _
      unfold execFlit
      rw [runs, spoilt]
      rfl
    · have kept := setErr_recorded s (pgLink n) 0
      unfold recorded at kept ⊢
      rw [sendNak, getLink_setErr, kept]
      rfl
    · exact linkErr_bit s n (by decide)
  · intro got owed key
    have taken := execFlit_spelt runs spelt
    -- a packet flit that passed the checks
    have passed (packet : f.fkind = 1 ∨ f.fkind = 2) (seq : f.seq = l.rx) (credit : noCredit s n l f = false) : exec (.flit n bytes) s = .next (pumpLink (packetFlit (putLink s n got) n f) n) := by
      refine taken.trans ((if_neg (by omega)).trans ((if_neg (not_not.mpr seq)).trans ((if_neg (ne_true_of_eq_false credit)).trans ?_)))
      rw [if_neg (by omega)]
    have owes (t : State) (link : getLink t n = got) : getLink (oweCredit t n f.tc f.vc) n = owed := by
      rw [getLink_oweCredit, if_pos rfl, link]
      rfl
    have settled (t : State) (link : getLink t n = owed) : pumpLink t n = t := pumpLink_empty (by rw [link]; exact noQueue)
    have came : getLink (putLink s n got) n = got := getLink_putLink s n got
    refine ⟨fun idle => ?_, fun kind gap => ?_, fun control seq => ?_, fun packet seq none_ => ?_, fun packet seq credit valid own => ?_,
      fun packet seq credit valid far => ?_⟩
    · refine taken.trans ((if_pos idle).trans (congrArg Host.Outcome.next (pumpLink_empty ?_)))
      rw [getLink_putLink]
      exact noQueue
    · exact taken.trans ((if_neg kind).trans (if_pos gap))
    · refine taken.trans ((if_neg (by omega)).trans ((if_neg (not_not.mpr seq)).trans ((if_neg ?_).trans ?_)))
      · simp [noCredit, control]
      · rw [if_pos control]
        exact congrArg Host.Outcome.next (pumpLink_empty (by rw [getLink_putLink]; exact noQueue))
    · refine ⟨_, taken.trans ((if_neg (by omega)).trans ((if_neg (not_not.mpr seq)).trans (if_pos none_))), ?_, ?_, ?_⟩
      · exact congrArg Link.state (getLink_putLink (setErr s (pgLink n) 3) n { getLink (setErr s (pgLink n) 3) n with state := 1, cal := false })
      · exact linkErr_bit s n (by decide)
      · show (setErr s (pgLink n) 3).router = _
        rw [setErr_recorded s (pgLink n) 3]
    · have here : packetFlit (putLink s n got) n f = deliverFlit (putLink s n got) n f := (if_neg (by rw [show idValid (putLink s n got) = idValid s from rfl, valid]; decide)).trans (if_pos own)
      refine ⟨fun next alone other => ?_, fun next alone first management begins free alive => ?_, fun other ahead room => ?_⟩
      · have same := pairingTaken_other (s := flowNext (putLink s n got) f) other
        have link : getLink (oweCredit (flowNext (putLink s n got) f) n f.tc f.vc) n = owed := owes _ came
        refine ⟨oweCredit (flowNext (putLink s n got) f) n f.tc f.vc, ?_, rfl, link, fun m apart => ?_, rfl⟩
        · rw [passed packet seq credit, here, deliverFlit_inOrder (s := putLink s n got) next (by rw [same]; exact alone), same, settled _ link]
        · rw [getLink_oweCredit, if_neg (Ne.symm apart)]
          exact getLink_putLink_ne s apart got
      · have same := pairingTaken_begins (s := flowNext (putLink s n got) f) first management begins free alive
        have link : getLink (oweCredit (pairingTaken (flowNext (putLink s n got) f) f) n f.tc f.vc) n = owed := owes _ (by rw [same]; exact came)
        refine ⟨oweCredit (pairingTaken (flowNext (putLink s n got) f) f) n f.tc f.vc, ?_, ?_, ?_, link⟩
        · rw [passed packet seq credit, here, deliverFlit_inOrder (s := putLink s n got) next (by rw [same]; exact alone), settled _ link]
        · rw [same]
          rfl
        · rw [same]
          rfl
      · have link : getLink (deliverFlit (putLink s n got) n f) n = owed := by
          rw [deliverFlit_ahead (s := putLink s n got) other ahead room]
          exact owes _ came
        refine ⟨deliverFlit (putLink s n got) n f, ?_, ?_, link, ?_⟩
        · rw [passed packet seq credit, here, settled _ link]
        · rw [deliverFlit_ahead (s := putLink s n got) other ahead room]
          rfl
        · rw [deliverFlit_ahead (s := putLink s n got) other ahead room]
          rfl
    · have away : packetFlit (putLink s n got) n f = forwardFlit (putLink s n got) n f := (if_neg (by rw [show idValid (putLink s n got) = idValid s from rfl, valid]; decide)).trans (if_neg far)
      have kept (m : Nat) : (getLink (oweCredit (putLink s n got) n f.tc f.vc) m).state = (getLink s m).state ∧
          (getLink (oweCredit (putLink s n got) n f.tc f.vc) m).leftOut = (getLink s m).leftOut := by
        by_cases same : m = n
        · subst same
          rw [owes _ came]
          exact ⟨rfl, rfl⟩
        · rw [getLink_oweCredit, if_neg (Ne.symm same), getLink_putLink_ne s same]
          exact ⟨rfl, rfl⟩
      have route : routeOf (oweCredit (putLink s n got) n f.tc f.vc) f.src f.dst f.tc = routeOf s f.src f.dst f.tc :=
        routeOf_congr (s := s) (t := oweCredit (putLink s n got) n f.tc f.vc) rfl rfl (fun m => (kept m).1) (fun m => (kept m).2) ..
      have forwards (may : f.hops + 1 ≤ hopMax s) : forwardFlit (putLink s n got) n f = routeFlit (oweCredit (putLink s n got) n f.tc f.vc) { f with hops := f.hops + 1 } :=
        if_neg (Nat.not_lt.mpr may)
      refine ⟨fun spent => ?_, fun may lost => ?_, fun m d may route' other room supplied empty free => ?_⟩
      · have link : getLink (setErr (oweCredit (putLink s n got) n f.tc f.vc) pgRouter 1) n = owed := (getLink_setErr ..).trans (owes _ came)
        refine ⟨_, ?_, ?_, link, routerErr_bit _ (by decide)⟩
        · have stops : forwardFlit (putLink s n got) n f = setErr (oweCredit (putLink s n got) n f.tc f.vc) pgRouter 1 := if_pos spent
          rw [passed packet seq credit, away, stops, settled _ link]
        · have kept := setErr_recorded (oweCredit (putLink s n got) n f.tc f.vc) pgRouter 1
          unfold recorded at kept ⊢
          rw [kept]
          rfl
      · have link : getLink (setErr (oweCredit (putLink s n got) n f.tc f.vc) pgRouter 0) n = owed := (getLink_setErr ..).trans (owes _ came)
        refine ⟨_, ?_, ?_, link, routerErr_bit _ (by decide)⟩
        · rw [passed packet seq credit, away, forwards may, routeFlit, route, lost]
          exact congrArg Host.Outcome.next (settled _ link)
        · have kept := setErr_recorded (oweCredit (putLink s n got) n f.tc f.vc) pgRouter 0
          unfold recorded at kept ⊢
          rw [kept]
          rfl
      · have there : getLink (oweCredit (putLink s n got) n f.tc f.vc) m = getLink s m := by
          rw [getLink_oweCredit, if_neg (Ne.symm other)]
          exact getLink_putLink_ne s other got
        have runs' : linkRuns (oweCredit (putLink s n got) n f.tc f.vc) m = true := by rw [linkRuns_congr (congrArg Link.state there)]; exact routeOf_runs route'
        have class_ : f.tc < 4 := readFlit_class spelt
        obtain ⟨ack, back, ctc, out, retry⟩ := enqueueFlit_leaves (f := { f with hops := f.hops + 1, vc := if d then 1 else f.vc }) runs' (by rw [there]; exact room) supplied
          (by rw [there]; exact empty) (by rw [there]; exact free) class_
        have beside := besideLink_enqueueFlit (n := n) (oweCredit (putLink s n got) n f.tc f.vc) other { f with hops := f.hops + 1, vc := if d then 1 else f.vc }
        rw [there] at out retry
        refine ⟨_, _, ?_, out, rfl, rfl, rfl, rfl, rfl, rfl, retry⟩
        rw [passed packet seq credit, away, forwards may, routeFlit, route, route']
        exact congrArg Host.Outcome.next (settled _ (beside.link.trans (owes _ came)))

end Sys2Proof.Machine
end

section
/-! O26, O27: cold and warm resets (R403-R405, R409, R415, R416, R431, R432, R445, R448). -/

namespace Sys2Proof.Machine

/-! A boot of the slots. -/

/-- What a boot of the slots may change: the running image, the pins, what is logged. -/
def bootChanged (s t : State) : Prop := t = { s with
  regs := t.regs
  ec := t.ec
  host := { s.host with devRings := t.host.devRings }
  boot := { s.boot with state := t.boot.state, slot := t.boot.slot, image := t.boot.image, tried := t.boot.tried }
  power := { s.power with fault := t.power.fault, pins := t.power.pins } }

theorem bootChanged.trans {s t u : State} (h : bootChanged s t) (k : bootChanged t u) : bootChanged s u := by
  unfold bootChanged at *
  rw [k, h]

theorem recorded.bootChanged {s t : State} (h : recorded s t) : bootChanged s t := by
  unfold recorded at h
  unfold Machine.bootChanged
  rw [h]

/-- A slot that failed is noted as tried (R412). -/
def slotFailed (s : State) (k v : Nat) : State := setErr { s with boot := { s.boot with tried := s.boot.tried ++ [k] } } pgBoot (v - 1)

theorem bootChanged_slotFailed (s : State) (k v : Nat) : bootChanged s (slotFailed s k v) :=
  .trans (t := { s with boot := { s.boot with tried := s.boot.tried ++ [k] } }) rfl (setErr_recorded ..).bootChanged

theorem trySlots_valid {s : State} {k : Nat} (rest : List Nat) (valid : imgCheck s (getSlot s k).image = 0) : trySlots (k :: rest) s = startRiendin s k := by
  unfold trySlots
  rw [valid]
  rfl

theorem trySlots_failed {s : State} {k : Nat} (rest : List Nat) (bad : imgCheck s (getSlot s k).image ≠ 0) :
    ∃ v, trySlots (k :: rest) s = trySlots rest (slotFailed s k v) := by
  refine ⟨imgCheck s (getSlot s k).image, ?_⟩
  conv_lhs => unfold trySlots
  split
  · next none_ => exact absurd none_ bad
  · rfl

theorem trySlots_changes : ∀ (l : List Nat) (s : State), bootChanged s (trySlots l s)
  | [], _ => rfl
  | k :: l, s => by
    by_cases valid : imgCheck s (getSlot s k).image = 0
    · rw [trySlots_valid l valid]
      rfl
    · obtain ⟨v, eq⟩ := trySlots_failed l valid
      rw [eq]
      exact (bootChanged_slotFailed s k v).trans (trySlots_changes l _)

theorem bootNext_changes (s : State) : bootChanged s (bootNext s) := trySlots_changes _ s

/-- The verdict on an image depends on the fuses alone (R412). -/
theorem imgCheck_congr {s t : State} (counter : t.boot.counter = s.boot.counter) (revoked : t.boot.revoked = s.boot.revoked) (img : List Byte) :
    imgCheck t img = imgCheck s img := by rw [imgCheck, imgCheck, counter, revoked]

theorem getSlot_congr {s t : State} (slots : t.boot.slots = s.boot.slots) (k : Nat) : getSlot t k = getSlot s k := by rw [getSlot, getSlot, slots]

/-- Where no slot's image is valid the SC halts (R414). -/
theorem trySlots_halts : ∀ (l : List Nat) (s : State), (∀ k, k ∈ l → imgCheck s (getSlot s k).image ≠ 0) →
    (trySlots l s).boot.state = 3 ∧ (trySlots l s).power.fault = true ∧ (trySlots l s).power.pins = false
  | [], _, _ => ⟨rfl, rfl, rfl⟩
  | k :: l, s, bad => by
    obtain ⟨v, eq⟩ := trySlots_failed l (bad k List.mem_cons_self)
    have kept := bootChanged_slotFailed s k v
    rw [eq]
    refine trySlots_halts l _ fun j hj => ?_
    rw [imgCheck_congr (by rw [kept]) (by rw [kept]), getSlot_congr (by rw [kept])]
    exact bad j (List.mem_cons_of_mem k hj)

/-- A boot comes to what `booted` says (R412-R414). -/
theorem booted_bootNext (s : State) : booted s (bootNext s) := by
  refine ⟨fun k rest order valid => ?_, fun bad => trySlots_halts _ s bad⟩
  rw [bootNext, order, trySlots_valid rest valid]
  exact ⟨rfl, rfl, rfl, rfl⟩

/-- A boot depends on the slots, those tried and the fuses. -/
theorem booted.congr {s u t : State} (h : booted u t) (slots : u.boot.slots = s.boot.slots) (tried : u.boot.tried = s.boot.tried)
    (counter : u.boot.counter = s.boot.counter) (revoked : u.boot.revoked = s.boot.revoked) : booted s t := by
  have order : bootOrder u = bootOrder s := by simp only [bootOrder, getSlot, slots, tried]
  unfold booted at *
  rw [order] at h
  simp only [imgCheck_congr counter revoked, getSlot_congr slots] at h
  exact h

/-! What a reset restores. -/

theorem restoredGal_galInit (cold : Bool) (k : Nat) : restoredGal cold (galInit k) = galInit k := by
  unfold galInit
  split <;> cases cold <;> rfl

/-- Every gallery is restored, listed or not (R14). -/
theorem restoreGals_get (cold : Bool) (s : State) (k : Nat) {t : State} (gals : t.gals = restoreGals cold s) : getGal t k = restoredGal cold (getGal s k) := by
  have folded : ∀ (l : List Nat) (u : State), getGal (l.foldl (fun t k => putGal t k (restoredGal cold (getGal s k))) u) k =
      if k ∈ l then restoredGal cold (getGal s k) else getGal u k := by
    intro l
    induction l with
    | nil => exact fun u => rfl
    | cons j l ih =>
      intro u
      rw [List.foldl_cons, ih]
      by_cases here : k = j
      · subst here
        simp
      · simp [here, getGal_putGal_ne u here]
  have whole : getGal t k = getGal ((s.gals.map (·.1)).foldl (fun t k => putGal t k (restoredGal cold (getGal s k))) { s with gals := [] }) k :=
    getGal_congr gals k
  rw [whole, folded]
  split
  · rfl
  · next unlisted =>
    have fresh : s.gals.find k = none := by
      cases found : s.gals.find k with
      | none => rfl
      | some g => exact absurd (List.mem_map.mpr ⟨_, SMap.mem_of_find found, rfl⟩) unlisted
    have init : getGal s k = galInit k := by rw [getGal, fresh]; rfl
    rw [init, restoredGal_galInit]
    rfl

/-! Warm and cold resets. -/

/-- The device after a warm reset, PW_ERR apart (R404, R432). -/
def warmBase (s : State) : State where
  pending := s.pending
  freeCtr := s.freeCtr
  gals := restoreGals false s
  nextRef := s.nextRef
  fence := s.fence
  lostDevs := s.lostDevs
  host := { net := s.host.net, nextXfer := s.host.nextXfer, devRings := s.host.devRings }
  power := { s.power with dormant := false, asleep := 0, waking := 0, capValue := [], lost := false, control := false, pins := false }
  monitors := s.monitors.map (fun e => (e.1, { e.2 with thermal := 16 }))
  boot := { s.boot with
    state := 0, image := [], tried := [], updating := none, service := false, fallback := false, resume := none, waitCool := false
    parked := if s.boot.parked = [] then s.ctxs else s.boot.parked }
  mem := (List.range 8).map (fun h => (h, { getMc s h with events := [], retrain := none, due := none, refresh := true }))
  silent := { movers := s.silent.movers }
  out := s.out

theorem warmState_eq (s : State) : ∃ r, warmState s = { warmBase s with regs := r } ∧ (bit (regGet s pgPower Reg.PW_ERR) 4 = false → r = {}) ∧
    (bit (regGet s pgPower Reg.PW_ERR) 4 = true → r = { applied := [(pgPower.base + Reg.PW_ERR, 16)] }) := by
  cases ref : bit (regGet s pgPower Reg.PW_ERR) 4 with
  | false =>
    refine ⟨{}, ?_, fun _ => rfl, nofun⟩
    simp only [warmState, ref, List.isEmpty_iff]
    rfl
  | true =>
    refine ⟨{ applied := [(pgPower.base + Reg.PW_ERR, 16)] }, ?_, nofun, fun _ => rfl⟩
    simp only [warmState, ref, List.isEmpty_iff]
    rfl

theorem coldState_eq (s : State) : coldState s = { warmBase s with
    gals := restoreGals true s
    fence := []
    lostDevs := []
    host := { net := s.host.net, nextXfer := s.host.nextXfer }
    boot := { (warmBase s).boot with parked := [] }
    mem := (List.range 8).foldl (fun (m : SMap MemCtl) h => m.put {} h { spares := (getMc s h).spares, withdrawn := (getMc s h).withdrawn }) [] } := by
  obtain ⟨r, eq, -, -⟩ := warmState_eq s
  rw [coldState, eq]
  rfl

/-- Every stack is in self-refresh (R404). -/
theorem refresh_listed {f : Nat → MemCtl} (all : ∀ h, (f h).refresh = true) {s : State} (mem : s.mem = (List.range 8).map (fun h => (h, f h))) {h : Nat} (real : h < 8) :
    (getMc s h).refresh = true := by
  have found : ∀ l : List Nat, h ∈ l → SMap.find h (l.map (fun h => (h, f h))) = some (f h) := by
    intro l
    induction l with
    | nil => exact nofun
    | cons j l ih =>
      intro listed
      by_cases here : j = h
      · simp [SMap.find, here]
      · simp [SMap.find, here, ih ((List.mem_cons.mp listed).resolve_left (Ne.symm here))]
  rw [getMc, mem, SMap.get, found _ (List.mem_range.mpr real)]
  exact all h

/-- A boot reads temperatures alone (R448). -/
theorem hot_congr {s t : State} (monitors : t.monitors = s.monitors) : hot t = hot s := by rw [hot, hot, monitors]

theorem coldBoot_cool {s : State} (cool : hot s = false) : coldBoot s = bootNext { s with power := { s.power with control := true } } := by
  rw [coldBoot, cool]
  rfl

/-- PORESET_N released with SVC_EN_N high and a supply present: the SC begins a cold boot (R394, R415). -/
theorem poresetReleased {s : State} (low : s.power.poreset = true) (supplied : has48 s = true) :
    ∃ p : Power, execPoresetNRelease true s = .next (coldBoot { s with power := p }) ∧ p.poreset = false ∧ p.control = true := by
  refine ⟨_, (if_neg (by rw [low]; decide)).trans ((if_neg (by decide)).trans (if_pos ?_)), rfl, rfl⟩
  exact supplied

/-- Settles O26. -/
theorem coldReset : Obligations.ColdReset := by
  refine ⟨fun s => ?_, fun b s high => ?_, fun s low => ⟨?_, fun unsupplied => ?_, fun supplied tooHot => ?_, fun supplied cool => ?_⟩⟩
  · refine ⟨_, rfl, ?_⟩
    rw [coldState_eq]
    exact ⟨rfl, rfl, rfl, rfl, rfl, rfl, rfl, rfl, rfl, rfl, rfl, rfl, rfl, rfl, rfl, rfl, rfl, rfl, rfl, rfl, fun k => restoreGals_get true s k rfl, rfl, rfl, rfl⟩
  · exact if_pos (by rw [high]; rfl)
  · exact ⟨_, (if_neg (by rw [low]; decide)).trans (if_pos rfl), rfl, rfl, rfl⟩
  · refine ⟨_, (if_neg (by rw [low]; decide)).trans ((if_neg (by decide)).trans (if_neg ?_)), rfl, rfl⟩
    exact ne_true_of_eq_false unsupplied
  · obtain ⟨p, released, control⟩ := poresetReleased low supplied
    refine ⟨_, released.trans (congrArg Host.Outcome.next (if_pos tooHot)), rfl, rfl, rfl⟩
  · obtain ⟨p, released, high, control⟩ := poresetReleased low supplied
    have changes := bootNext_changes { s with power := { p with control := true } }
    refine ⟨_, released.trans (congrArg Host.Outcome.next (coldBoot_cool cool)), ?_, ?_, (booted_bootNext _).congr rfl rfl rfl rfl, ?_⟩
    · rw [changes]
      exact high
    · rw [changes]
    · rw [changes]

/-- Settles O27. -/
theorem warmReset' : Obligations.WarmReset := by
  refine ⟨fun s high running idle => ?_, fun s no => congrArg Host.Outcome.next (if_pos ?_), fun s idle => congrArg Host.Outcome.next (if_pos (by rw [idle]; rfl)), fun s low supplied running => ?_,
    fun s up => ?_, fun s down => congrArg Host.Outcome.next (if_neg (ne_true_of_eq_false down))⟩
  · have falls : warmFall s = { warmState s with power := { (warmState s).power with warmreset := true } } := if_neg (by rw [high, running, idle]; decide)
    obtain ⟨r, eq, clear, ref⟩ := warmState_eq s
    refine ⟨warmFall s, rfl, ?_⟩
    rw [falls, eq]
    refine ⟨rfl, rfl, rfl, rfl, rfl, rfl, rfl, rfl, rfl, rfl, rfl, rfl, rfl, fun k => restoreGals_get false s k rfl, fun h real => ?_, clear, ref⟩
    exact refresh_listed (f := fun h => { getMc s h with events := [], retrain := none, due := none, refresh := true }) (fun _ => rfl) rfl real
  · obtain low | tripped | reset := no
    · rw [low]; rfl
    · rw [tripped]; cases s.power.poreset <;> rfl
    · rw [reset]; cases s.power.poreset <;> cases s.power.tripped <;> rfl
  · have rises : warmRise s = bootNext { s with power := { s.power with warmreset := false, control := true } } :=
      (if_neg (by rw [low]; decide)).trans (if_pos (by show (has48 s && !s.power.tripped) = true; rw [supplied, running]; rfl))
    have changes := bootNext_changes { s with power := { s.power with warmreset := false, control := true } }
    refine ⟨_, congrArg Host.Outcome.next rises, ?_, (booted_bootNext _).congr rfl rfl rfl rfl, ?_, ?_⟩
    · rw [changes]
    · rw [changes]
    · rw [changes]
  · refine ⟨warmFall s, warmRise (warmFall s), rfl, congrArg Host.Outcome.next (if_pos up), rfl, ?_⟩
    unfold warmRise
    split
    · next high => simpa using high
    · dsimp only
      split
      · rw [bootNext_changes]
      · rfl

end Sys2Proof.Machine
end

section
/-! O29: the boot watchdog, the end of an update, the service port (R413, R420, R445). -/

namespace Sys2Proof.Machine

/-- Flash above the slots takes the bytes (R445). -/
theorem flashPut_above {s : State} {addr : Nat} (data : List Byte) (above : 2 * slotBytes ≤ addr) :
    flashPut s addr data = { s with boot := { s.boot with flash := Mem.writeBytes s.boot.flash addr data } } := if_neg (Nat.not_lt.mpr above)

theorem readByte_written (m : Mem) (addr : Nat) (data : List Byte) (a : Nat) :
    (Mem.writeBytes m addr data).readByte a = if addr ≤ a ∧ a < addr + data.length then data.getD (a - addr) 0 else m.readByte a := by
  by_cases below : a < addr
  · rw [Mem.readByte_writeBytes_lt _ _ _ _ below, if_neg (by omega)]
  · rw [Mem.readByte_writeBytes _ _ _ _ (by omega)]
    split
    · next inside => rw [List.getD_eq_getElem?_getD, List.getElem?_eq_getElem (by omega)]; rfl
    · next outside_ => rw [List.getElem?_eq_none (by omega)]; rfl

/-- Bytes within a slot's image replace what lies there (R445; log entry 41). -/
theorem flashPut_slot {s : State} {k off : Nat} {data : List Byte} (slot : k < 2) (within : off + data.length ≤ (getSlot s k).image.length)
    (starts : off < slotBytes) (ends_ : off + data.length ≤ slotBytes) :
    flashPut s (k * slotBytes + off) data = putSlot s k ⟨if (getSlot s k).word = 0 then 1 else (getSlot s k).word,
      (getSlot s k).image.take off ++ data ++ (getSlot s k).image.drop (off + data.length)⟩ := by
  have here : (k * slotBytes + off) / slotBytes = k := by
    rw [Nat.mul_comm, Nat.mul_add_div (by decide), Nat.div_eq_of_lt starts, Nat.add_zero]
  have place : (k * slotBytes + off) % slotBytes = off := by rw [Nat.mul_comm, Nat.mul_add_mod, Nat.mod_eq_of_lt starts]
  have below : k * slotBytes + off < 2 * slotBytes := by
    have : (k + 1) * slotBytes ≤ 2 * slotBytes := Nat.mul_le_mul_right _ slot
    rw [Nat.add_mul] at this
    omega
  have whole : data.take (slotBytes - off) = data := List.take_of_length_le (by omega)
  have noFill : off - (getSlot s k).image.length = 0 := by omega
  unfold flashPut
  rw [if_pos below, here, place]
  dsimp only
  rw [whole]
  simp [patch, noFill]

/-- A range erased in a slot (R445). -/
def slotErased (addr len : Nat) (s : State) (k : Nat) : State :=
  let lo := max addr (k * slotBytes)
  let hi := min (addr + len) ((k + 1) * slotBytes)
  let x := getSlot s k
  if hi ≤ lo then s
  else if hi - lo = slotBytes then putSlot s k {}
  else putSlot s k { x with image := patch x.image (lo - k * slotBytes) (List.replicate (min hi (k * slotBytes + x.image.length) - lo) 0xFF#8) }

theorem slotErased_apart {addr len k : Nat} (s : State) (apart : addr + len ≤ k * slotBytes ∨ (k + 1) * slotBytes ≤ addr) : slotErased addr len s k = s :=
  if_pos (by omega)

theorem slotErased_whole (s : State) (k : Nat) : slotErased (k * slotBytes) slotBytes s k = putSlot s k {} := by
  have size : (k + 1) * slotBytes = k * slotBytes + slotBytes := by rw [Nat.add_mul, Nat.one_mul]
  have some_ : 0 < slotBytes := by decide
  exact (if_neg (by omega)).trans (if_pos (by omega))

/-- What FLASH_ERASE leaves of the flash above the slots. -/
def flashErased (addr len : Nat) (s : State) : State :=
  { s with boot := { s.boot with flash := s.boot.flash.filter (fun c => !(decide (addr ≤ c.1 ∧ c.1 < addr + len))) } }

theorem execFlashErase_service {s : State} (addr len : Nat) (service : s.boot.service = true) :
    execFlashErase addr len s = .next (flashErased addr len (slotErased addr len (slotErased addr len s 0) 1)) := if_neg (by rw [service]; decide)

theorem find_flashErased (addr len a : Nat) (s : State) :
    SMap.find a (flashErased addr len s).boot.flash = if addr ≤ a ∧ a < addr + len then none else SMap.find a s.boot.flash := by
  refine (SMap.find_filter_key (fun a => !(decide (addr ≤ a ∧ a < addr + len))) a s.boot.flash).trans ?_
  by_cases inside : addr ≤ a ∧ a < addr + len
  · simp [inside]
  · rw [if_neg inside, decide_eq_false inside]
    rfl

theorem readByte_flashErased {addr len a : Nat} {s : State} (apart : a < addr ∨ addr + len ≤ a) :
    (flashErased addr len s).boot.flash.readByte a = s.boot.flash.readByte a := by
  rw [Mem.readByte, Mem.readByte, SMap.get, SMap.get, find_flashErased, if_neg (by omega)]

/-- The hubs are reset for the next slot, FALLBACK set (R413). -/
def hubsReset (s : State) : State :=
  { s with
    regs := { s.regs with
      applied := s.regs.applied.filter (fun e => decide (0x08000000 ≤ e.1))
      shadow := s.regs.shadow.filter (fun e => decide (0x08000000 ≤ e.1))
      latch := []
      swings := []
      groups := [] }
    links := []
    router := {}
    ec := {}
    power := { s.power with pins := false }
    boot := { s.boot with state := 0, fallback := true } }

/-- Settles O29. -/
theorem firmwareAndFlash : Obligations.FirmwareAndFlash := by
  refine ⟨fun s booting => ?_, fun s other => ⟨if_pos other, if_pos other⟩, fun s x y z p img updating slot => ?_, fun addr len data s locked => ⟨if_pos (by rw [locked]; rfl), if_neg (ne_true_of_eq_false locked)⟩,
    fun addr data s service above => ⟨_, (if_pos service).trans (congrArg Host.Outcome.next (flashPut_above data above)), rfl, readByte_written s.boot.flash addr data⟩,
    fun k off data s service slot within starts ends_ => ⟨_, (if_pos service).trans (congrArg Host.Outcome.next (flashPut_slot slot within starts ends_)), rfl, ?_, fun j other => getSlot_putSlot_ne s other _⟩,
    fun k s service slot => ?_, fun addr len s service above => ?_⟩
  · have kept := setErr_recorded (hubsReset s) pgBoot 2
    have changes := bootNext_changes (setErr (hubsReset s) pgBoot 2)
    have boots := (booted_bootNext (setErr (hubsReset s) pgBoot 2)).congr (s := s) (by rw [kept]; rfl) (by rw [kept]; rfl) (by rw [kept]; rfl) (by rw [kept]; rfl)
    refine ⟨bootNext (setErr (hubsReset s) pgBoot 2), if_neg (not_not.mpr booting), ?_, ?_, ?_, boots, ?_, ?_, ?_⟩ <;> rw [changes, kept] <;> rfl
  · refine ⟨answer { putSlot s (1 - s.boot.slot) { word := 3, image := img } with
      boot := { (putSlot s (1 - s.boot.slot) { word := 3, image := img }).boot with updating := none } } (.session x y z p) stOk, ?_, ?_, ?_, ?_, ?_, ?_⟩
    · show execFwWriteDone s = _
      rw [execFwWriteDone, updating]
    · exact getSlot_putSlot s (1 - s.boot.slot) { word := 3, image := img }
    · exact getSlot_putSlot_ne s (j := s.boot.slot) (k := 1 - s.boot.slot) (by omega) { word := 3, image := img }
    · rfl
    · rfl
    · rfl
  · exact congrArg FwSlot.image (getSlot_putSlot s k _)
  · have erased : execFlashErase (k * slotBytes) slotBytes s = .next (flashErased (k * slotBytes) slotBytes (putSlot s k {})) := by
      rw [execFlashErase_service _ _ service]
      obtain rfl | rfl : k = 0 ∨ k = 1 := by omega
      · rw [slotErased_whole, slotErased_apart _ (by omega)]
      · rw [slotErased_apart s (by omega), slotErased_whole]
    refine ⟨_, erased, getSlot_putSlot s k {}, fun j other => getSlot_putSlot_ne s other {}, fun a above => readByte_flashErased (.inr ?_)⟩
    have : (k + 1) * slotBytes ≤ 2 * slotBytes := Nat.mul_le_mul_right _ slot
    rw [Nat.add_mul] at this
    omega
  · have erased : execFlashErase addr len s = .next (flashErased addr len s) := by
      rw [execFlashErase_service _ _ service, slotErased_apart s (by omega), slotErased_apart s (by omega)]
    refine ⟨_, erased, rfl, fun a from_ below => ?_, fun a apart => readByte_flashErased apart⟩
    rw [find_flashErased, if_pos ⟨from_, below⟩]

end Sys2Proof.Machine
end

section
/-! SUPPORT of O30, O31, O33: what a device's own loss leaves (R317), and the pages that traffic leaves. -/

namespace Sys2Proof.Machine

/-- A page that traffic and recoveries leave: none of a link, the port, the router, the fault manager. -/
structure OffTraffic (p : Page) : Prop where
  links : ∀ n, n < 48 → apart p (pgLink n)
  port : apart p pgHost
  router : apart p pgRouter
  fault : apart p pgFault

section Traffic
variable {p : Page} (off : OffTraffic p)
include off

theorem OffTraffic.launch (s : State) {n : Nat} (real : n < 48) (l : Link) (f : Flit) : sameRegs p s (launch s n l f) := by
  have sent (t : State) : sameRegs p t (bump64 t (pgLink n) Reg.LK_FLITS_LO 1) := .bump64 t 1 (off.links n real) (by decide)
  exact fun o ho => sent (putLink s n _) o ho

theorem OffTraffic.pump {n : Nat} (real : n < 48) : ∀ (k : Nat) (s : State), sameRegs p s (pump n k s)
  | 0, s => .refl p s
  | k + 1, s => by
    unfold Machine.pump
    dsimp only
    split
    · exact .refl p s
    · split
      · exact .refl p s
      · exact (off.launch s real _ _).trans (pump real k _)

theorem OffTraffic.enqueueFlit (s : State) {n : Nat} (real : n < 48) (f : Flit) : sameRegs p s (enqueueFlit s n f) := by
  have overrun (t : State) : sameRegs p t (setErr t (pgLink n) 4) := .setErr t 4 (off.links n real) off.port (show errOff 0x1A < 0x1000 by decide)
  have queued (l : Link) : sameRegs p s (putLink s n l) := .of_regs rfl
  unfold Machine.enqueueFlit
  dsimp only
  refine sameRegs.trans ?_ (off.pump real _ _)
  split
  · exact (queued _).trans (overrun _)
  · exact queued _

theorem OffTraffic.sendRouted (s : State) (dst tc proto n : Nat) (m : Msg) : sameRegs p s (sendRouted s dst tc proto n m) := by
  have flits {link : Nat} (real : link < 48) (d : Bool) (l : List Flit) (t : State) : sameRegs p t (l.foldl (fun s f => Machine.enqueueFlit s link { f with vc := bnat d }) t) := by
    induction l generalizing t with
    | nil => exact .refl p t
    | cons f l ih => exact (off.enqueueFlit t real _).trans (ih _)
  unfold Machine.sendRouted
  split
  · exact .refl p s
  · split
    · next l d route => exact sameRegs.trans (.of_regs rfl) (flits (routeOf_lt route) d _ _)
    · exact .setErr s 0 off.router off.port (by decide)

theorem OffTraffic.sendBeat (s : State) (down : Bool) (d : Nat) : sameRegs p s (sendBeat s down d) := by
  have controls : ∀ (l : List Nat) (t : State), (∀ n, n ∈ l → n < 48) → sameRegs p t (l.foldl (fun t l => sendControl t l (beatBytes t down)) t) := by
    intro l
    induction l with
    | nil => exact fun t _ => .refl p t
    | cons n l ih => exact fun t real => (off.enqueueFlit t (real n List.mem_cons_self) _).trans (ih _ fun m hm => real m (List.mem_cons_of_mem n hm))
  unfold Machine.sendBeat
  dsimp only
  split
  · split
    · exact off.sendRouted s d 0 4 8 _
    · exact .refl p s
  · exact controls _ s fun n hn => List.mem_range.mp (List.mem_filter.mp hn).1

theorem OffTraffic.sendBeats (s : State) (down : Bool) : sameRegs p s (sendBeats s down) := by
  have beats : ∀ (l : List Nat) (t : State), sameRegs p t (l.foldl (fun s d => Machine.sendBeat s down d) t) := by
    intro l
    induction l with
    | nil => exact fun t => .refl p t
    | cons d l ih => exact fun t => (off.sendBeat t down d).trans (ih _)
  exact (beats _ s).trans (.of_regs rfl)

theorem OffTraffic.declareLost (s : State) (unit code : Nat) : sameRegs p s (declareLost s unit code) := by
  unfold Machine.declareLost
  split
  · exact .refl p s
  · exact (sameRegs_beginRecovery off.port off.fault s 6 unit (deviceId s) code false 0).trans ((off.sendBeats _ true).trans ((sameRegs_settleRecovery off.port off.fault _).trans (.of_regs rfl)))

end Traffic

/-- Beats of a number, the loss mark and FAULT_N (R317). -/
def markedLost (beat : Nat) (lost fault : Bool) (s : State) : State :=
  { s with twin := { s.twin with beat := beat }, power := { s.power with lost := lost, fault := fault } }

theorem markedLost_same {s t : State} (same : besideTraffic t = besideTraffic s) (beat : Nat) (lost fault : Bool) :
    besideTraffic (markedLost beat lost fault t) = besideTraffic (markedLost beat lost fault s) :=
  congrArg (markedLost beat lost fault) same

/-- What a device that declares itself lost keeps: all but its beats' number, its mark and FAULT_N, and what traffic changes. -/
theorem declareLost_keeps (s : State) (unit code : Nat) : ∃ beat lost fault, besideTraffic (declareLost s unit code) = besideTraffic (markedLost beat lost fault s) := by
  unfold declareLost
  split
  · exact ⟨s.twin.beat, s.power.lost, s.power.fault, rfl⟩
  · dsimp only
    have begun := besideTraffic_beginRecovery s 6 unit (deviceId s) code false 0
    generalize beginRecovery s 6 unit (deviceId s) code false = b at *
    generalize beaten : (beatPeers b).foldl (fun s d => sendBeat s true d) b = u
    have beats : besideTraffic u = besideTraffic s := by rw [← beaten, besideTraffic_beats, begun]
    have sent : sendBeats b true = { u with twin := { u.twin with beat := (u.twin.beat + 1) % 2 ^ 32 } } := by rw [← beaten]; rfl
    have settled := besideTraffic_settleRecovery (sendBeats b true)
    generalize settleRecovery (sendBeats b true) = c at *
    have number : c.twin.beat = (u.twin.beat + 1) % 2 ^ 32 := by
      rw [twin_of_besideTraffic settled, sent]
    refine ⟨(u.twin.beat + 1) % 2 ^ 32, true, true, ?_⟩
    calc besideTraffic { c with power := { c.power with lost := true, fault := true } }
        = besideTraffic (markedLost c.twin.beat true true c) := rfl
      _ = besideTraffic (markedLost ((u.twin.beat + 1) % 2 ^ 32) true true (sendBeats b true)) := by rw [number]; exact markedLost_same settled ..
      _ = besideTraffic (markedLost ((u.twin.beat + 1) % 2 ^ 32) true true u) := by rw [sent]; rfl
      _ = _ := markedLost_same beats ..

end Sys2Proof.Machine
end

section
/-! O30: supplies and the reference clock (R338, R393, R394, R402). -/

namespace Sys2Proof.Machine

/-! Pages and sources beside reports. -/

theorem offTraffic_of {p : Page} (port : apart p pgHost) (router : apart p pgRouter) (fault : apart p pgFault)
    (links : p.base + 0x1000 ≤ 0x00060000 ∨ (0x00078000 ≤ p.base ∧ p.base + 0x1000 ≤ 0x01060000) ∨ 0x01078000 ≤ p.base) : OffTraffic p where
  links n real := by
    simp only [apart, pgLink]
    split <;> omega
  port := port
  router := router
  fault := fault

theorem offTraffic_power : OffTraffic pgPower :=
  offTraffic_of (.inr (by decide)) (.inr (by decide)) (.inr (by decide)) (.inr (.inl (by decide)))

/-- An error of a page apart from the port's stays when another of its errors is set. -/
theorem setErr_keeps {s : State} {p : Page} (i j : Nat) (hi : i < 32) (inPage : errOff p.kind < 0x1000) (notPend : errOff p.kind ≠ Reg.EVT_PEND) (port : apart p pgHost)
    (h : bit (regGet s p (errOff p.kind)) i = true) : bit (regGet (setErr s p j) p (errOff p.kind)) i = true := by
  unfold setErr
  split
  · exact h
  · dsimp only
    split
    · rw [sameRegs_logFault port _ _ _ inPage]
      exact setErrBit_keeps s p i j hi notPend h
    · exact setErrBit_keeps s p i j hi notPend h

/-- Sources that are pending stay so, and what is retained stays. -/
structure EventsKept (s t : State) : Prop where
  image : t.ec.image = s.ec.image
  pend : ∀ n, (getSrc s n).pend = true → (getSrc t n).pend = true

theorem EventsKept.trans {s t u : State} (h : EventsKept s t) (k : EventsKept t u) : EventsKept s u :=
  ⟨k.image.trans h.image, fun n pending => k.pend n (h.pend n pending)⟩

theorem EventsKept.of_ec {s t : State} (h : t.ec = s.ec) : EventsKept s t := ⟨by rw [h], fun n pending => by rw [getSrc, h]; exact pending⟩

theorem EventsKept.after {s t u : State} (k : EventsKept t u) (h : t.ec = s.ec) : EventsKept s u := (EventsKept.of_ec h).trans k

theorem eventsKept_setLine (s : State) (m : Nat) (lvl : Bool) : EventsKept s (setLine s m lvl) := by
  refine ⟨rfl, fun n pending => ?_⟩
  by_cases here : n = m
  · subst here
    rw [setLine, getSrc_putSrc, pending]
    rfl
  · rw [setLine, getSrc_putSrc_ne s here]
    exact pending

theorem eventsKept_setErrBit (s : State) (p : Page) (i : Nat) : EventsKept s (setErrBit s p i) := by
  unfold setErrBit
  dsimp only
  split
  · exact .of_ec rfl
  · unfold setEvt updateLine
    split
    · exact (eventsKept_setLine _ _ _).after rfl
    · exact .of_ec rfl

theorem eventsKept_logFault (s : State) (f : FaultRec) : EventsKept s (logFault s f) := by
  unfold logFault pushRec
  dsimp only
  split
  · exact .of_ec rfl
  · exact (eventsKept_setErrBit _ pgHost 2).after rfl

theorem eventsKept_setErr (s : State) (p : Page) (i : Nat) : EventsKept s (setErr s p i) := by
  unfold setErr
  split
  · exact .of_ec rfl
  · dsimp only
    split
    · exact (eventsKept_setErrBit s p i).trans (eventsKept_logFault _ _)
    · exact eventsKept_setErrBit s p i

theorem eventsKept_beginRecovery (s : State) (cls unit dev code : Nat) (lease : Bool) (addr : Nat) :
    EventsKept s (beginRecovery s cls unit dev code lease addr) := by
  have entered : EventsKept s (regSet (regSet (logFault s { kind := 0, cls := cls, device := dev, unit := unit, d0 := code, addr := addr }) pgFault
      Reg.FM_LAST (cls % 16 + dev % 4096 * 16)) pgFault Reg.FM_LAST_UNIT (lastUnit cls unit)) :=
    (eventsKept_logFault s _).trans (.of_ec rfl)
  unfold beginRecovery
  dsimp only
  split
  · exact entered.trans ((eventsKept_setErr _ pgFault 1).trans (.of_ec rfl))
  · exact entered.trans (.of_ec rfl)

theorem eventsKept_settleRecovery (s : State) : EventsKept s (settleRecovery s) := by
  unfold settleRecovery
  split
  · exact .of_ec rfl
  · next r _ =>
    dsimp only
    split
    · exact .of_ec rfl
    · have closed (f : FaultRec) : EventsKept s
          (logFault (keepMax (regSet { s with recovery := none } pgFault Reg.FM_LAST_NS (min r.ns 0xFFFFFFFF)) pgFault Reg.FM_MAX_NS r.ns) f) :=
        .trans (.of_ec (t := keepMax (regSet { s with recovery := none } pgFault Reg.FM_LAST_NS (min r.ns 0xFFFFFFFF)) pgFault Reg.FM_MAX_NS r.ns) rfl) (eventsKept_logFault _ f)
      split
      · exact (closed _).trans ((eventsKept_setErr _ pgFault 0).trans (eventsKept_logFault _ _))
      · exact closed _

theorem raiseSource_pends {s : State} (awake : s.ec.image = none) (n : Nat) :
    (getSrc (raiseSource s n) n).pend = true ∧ recorded s (raiseSource s n) ∧ (raiseSource s n).regs = s.regs := by
  rw [raiseSource, awake]
  exact ⟨congrArg Source.pend (getSrc_putSrc s n _), rfl, rfl⟩

/-! One input of two. -/

theorem powerErr_bit (s : State) {i : Nat} (hi : i < 32) : bit (regGet (setErr s pgPower i) pgPower Reg.PW_ERR) i = true :=
  setErr_bit_apart s pgPower hi (by decide) (by decide) offTraffic_power.port

theorem powerErr_keeps {s : State} {i : Nat} (j : Nat) (hi : i < 32) (h : bit (regGet s pgPower Reg.PW_ERR) i = true) :
    bit (regGet (setErr s pgPower j) pgPower Reg.PW_ERR) i = true := setErr_keeps (p := pgPower) i j hi (by decide) (by decide) offTraffic_power.port h

/-- A lost input of two is flagged, logged and pending at source 254 (R316, R338, R393). -/
theorem noteInput_notes {s : State} (input mv : Nat) (small : input < 2) (awake : s.ec.image = none) (idle : s.recovery = none) :
    recorded s (noteInput s input mv) ∧ bit (regGet (noteInput s input mv) pgPower Reg.PW_ERR) input = true ∧
      (60000 < mv → bit (regGet (noteInput s input mv) pgPower Reg.PW_ERR) 3 = true) ∧ (getSrc (noteInput s input mv) 254).pend = true := by
  obtain ⟨e, errors, flag, high⟩ : ∃ e, e = (if 60000 < mv then setErr (setErr s pgPower input) pgPower 3 else setErr s pgPower input) ∧
      bit (regGet e pgPower Reg.PW_ERR) input = true ∧ (60000 < mv → bit (regGet e pgPower Reg.PW_ERR) 3 = true) := by
    refine ⟨_, rfl, ?_⟩
    split
    · exact ⟨powerErr_keeps 3 (by omega) (powerErr_bit s (by omega)), fun _ => powerErr_bit _ (by decide)⟩
    · next low => exact ⟨powerErr_bit s (by omega), fun high => absurd high low⟩
  have flagged : recorded s e := by
    rw [errors]
    split
    · exact (setErr_recorded ..).trans (setErr_recorded ..)
    · exact setErr_recorded ..
  have image : e.ec.image = none := by
    rw [errors]
    split
    · rw [(eventsKept_setErr _ pgPower 3).image, (eventsKept_setErr _ pgPower input).image, awake]
    · rw [(eventsKept_setErr _ pgPower input).image, awake]
  obtain ⟨pending, raised, bank⟩ := raiseSource_pends image 254
  have eq : noteInput s input mv = settleRecovery (recoveryWaits (beginRecovery (logSupply (raiseSource e 254) input) 5 0
      (deviceId s) cUnit false) [] 0) := by
    rw [errors]; rfl
  have before : recorded s (logSupply (raiseSource e 254) input) := flagged.trans (raised.trans (logFault_recorded ..))
  have regs : sameRegs pgPower e (logSupply (raiseSource e 254) input) := .trans (.of_regs bank) (sameRegs_logFault offTraffic_power.port _ _)
  have still := (eventsKept_logFault (raiseSource e 254) { kind := 5, device := deviceId (raiseSource e 254), d0 := input }).pend 254 pending
  rw [eq]
  change (getSrc (logSupply (raiseSource e 254) input) 254).pend = true at still
  generalize logSupply (raiseSource e 254) input = b at *
  have first := beginRecovery_first (s := b) (by rw [before]; exact idle) 5 0 (deviceId s) cUnit false 0
  have begun := beginRecovery_noted b 5 0 (deviceId s) cUnit false 0
  have pages := sameRegs_beginRecovery offTraffic_power.port offTraffic_power.fault b 5 0 (deviceId s) cUnit false 0
  have events := eventsKept_beginRecovery b 5 0 (deviceId s) cUnit false 0
  generalize beginRecovery b 5 0 (deviceId s) cUnit false = c at *
  have all : noted s (settleRecovery (recoveryWaits c [] 0)) := before.noted.trans (begun.trans ((recoveryWaits_noted c [] 0).trans (settleRecovery_noted _)))
  have kept : sameRegs pgPower e (settleRecovery (recoveryWaits c [] 0)) :=
    regs.trans (pages.trans (.trans (.of_regs (t := recoveryWaits c [] 0) rfl) (sameRegs_settleRecovery offTraffic_power.port offTraffic_power.fault _)))
  have reads := kept Reg.PW_ERR (by decide)
  refine ⟨all.recorded ((recoveryDone_ends first rfl 0).trans idle.symm), by rw [reads]; exact flag, fun over_ => by rw [reads]; exact high over_, ?_⟩
  exact ((events.trans (.of_ec (t := recoveryWaits c [] 0) rfl)).trans (eventsKept_settleRecovery _)).pend 254 still

/-! Supplies. -/

/-- The device without its 48 V inputs (R394, R402). -/
def unpowered (u : State) : State :=
  let off := { deadState u with power := { (deadState u).power with mainOk := false, backupOk := false, watts := 0 } }
  if off.power.stbyOk then off else { off with power := { off.power with tick := 0, therm := false, fault := false } }

/-- The last input lost: beats at most before it (R317, R338). -/
theorem powerDown_eq (s : State) : ∃ u beat lost fault, powerDown s = unpowered u ∧ besideTraffic u = besideTraffic (markedLost beat lost fault s) := by
  by_cases up : hubsRun s = true
  · obtain ⟨beat, lost, fault, same⟩ := declareLost_keeps s 0 cUnit
    refine ⟨declareLost s 0 cUnit, beat, lost, fault, ?_, same⟩
    rw [powerDown, if_pos up]
    rfl
  · refine ⟨s, s.twin.beat, s.power.lost, s.power.fault, ?_, rfl⟩
    rw [powerDown, if_neg up]
    rfl

theorem unpowered_regs (u : State) : (unpowered u).regs = {} ∧ (unpowered u).ctxs = [] ∧ (unpowered u).pegs = [] ∧ (unpowered u).ec = {} ∧
    (unpowered u).power.mainOk = false ∧ (unpowered u).power.backupOk = false ∧ (unpowered u).boot = { (warmBase u).boot with parked := [] } ∧
    (unpowered u).host.net = u.host.net ∧ (unpowered u).power.stbyOk = u.power.stbyOk ∧
    (unpowered u).power.tick = if u.power.stbyOk then u.power.tick else 0 := by
  have dead : deadState u = { coldState u with out := u.out } := rfl
  cases stby : u.power.stbyOk <;> simp [unpowered, dead, coldState_eq, warmBase, stby]

/-- What the loss of the last input leaves (R394, R402; log entry 43). -/
theorem powerDown_leaves (s : State) : (powerDown s).power.mainOk = false ∧ (powerDown s).power.backupOk = false ∧ (powerDown s).power.stbyOk = s.power.stbyOk ∧
    (powerDown s).regs = {} ∧ (powerDown s).ctxs = [] ∧ (powerDown s).pegs = [] ∧ (powerDown s).ec = {} ∧ (powerDown s).boot.state = 0 ∧
    (powerDown s).boot.slots = s.boot.slots ∧ (powerDown s).boot.counter = s.boot.counter ∧ (powerDown s).boot.revoked = s.boot.revoked ∧
    (powerDown s).host.net = s.host.net ∧ (powerDown s).power.tick = if s.power.stbyOk then s.power.tick else 0 := by
  obtain ⟨u, beat, lost, fault, eq, same⟩ := powerDown_eq s
  obtain ⟨regs, ctxs, pegs, ec, main, backup, boot, net, stby, tick⟩ := unpowered_regs u
  have ofBoot : u.boot = s.boot := (congrArg State.boot same :)
  have ofNet : u.host.net = s.host.net := (congrArg (fun x : State => x.host.net) same :)
  have ofStby : u.power.stbyOk = s.power.stbyOk := (congrArg (fun x : State => x.power.stbyOk) same :)
  have ofTick : u.power.tick = s.power.tick := (congrArg (fun x : State => x.power.tick) same :)
  rw [eq]
  refine ⟨main, backup, stby.trans ofStby, regs, ctxs, pegs, ec, ?_, ?_, ?_, ?_, net.trans ofNet, by rw [tick, ofStby, ofTick]⟩
  · rw [boot]; rfl
  · rw [boot, ← ofBoot]; rfl
  · rw [boot, ← ofBoot]; rfl
  · rw [boot, ← ofBoot]; rfl

theorem has48_input {s : State} {input : Nat} (ok : inputOk s input = true) : has48 s = true := by
  unfold inputOk at ok
  unfold has48
  split at ok
  · rw [ok]; rfl
  · rw [ok, Bool.or_true]

theorem has48_putInput {s : State} {input : Nat} (small : input < 2) (mv : Nat) (ok : Bool) : has48 (putInput s input mv ok) = (ok || inputOk s (1 - input)) := by
  obtain rfl | rfl : input = 0 ∨ input = 1 := by omega
  · rfl
  · exact Bool.or_comm _ _

theorem putInput_eq (s : State) (input mv : Nat) (ok : Bool) : putInput s input mv ok = { s with power := (putInput s input mv ok).power } := by
  unfold putInput
  split <;> rfl

theorem hubsRun_putInput {s : State} {input mv : Nat} {ok : Bool} (up : hubsRun s = true) (supplied : has48 (putInput s input mv ok) = true) :
    hubsRun (putInput s input mv ok) = true := by
  simp only [hubsRun, Bool.and_eq_true] at up ⊢
  obtain ⟨⟨⟨⟨-, high⟩, released⟩, running⟩, awake⟩ := up
  obtain ⟨poreset, warmreset, tripped, dormant⟩ : (putInput s input mv ok).power.poreset = s.power.poreset ∧
      (putInput s input mv ok).power.warmreset = s.power.warmreset ∧ (putInput s input mv ok).power.tripped = s.power.tripped ∧
      (putInput s input mv ok).power.dormant = s.power.dormant := by
    unfold putInput
    split <;> exact ⟨rfl, rfl, rfl, rfl⟩
  rw [poreset, warmreset, tripped, dormant]
  exact ⟨⟨⟨⟨supplied, high⟩, released⟩, running⟩, awake⟩

/-- A reset keeps the temperatures read (R448). -/
theorem hot_coldState (s : State) : hot (coldState s) = hot s := by
  rw [coldState_eq]
  exact List.any_map

/-- An input back where none was: a cold boot (R394). -/
theorem inputBack_boots {s : State} {input mv : Nat} (small : input < 2) (inWindow : outside mv = false) (out : inputOk s input = false)
    (dark : has48 s = false) (high : s.power.poreset = false) (released : s.power.warmreset = false) (cool : hot s = false) :
    ∃ u, inputBack s input mv = bootNext u ∧ has48 u = true ∧ u.power.control = true ∧ u.power.tripped = false ∧ u.ctxs = [] ∧
      u.boot.slots = s.boot.slots ∧ u.boot.tried = [] ∧ u.boot.counter = s.boot.counter ∧ u.boot.revoked = s.boot.revoked := by
  have supplied := has48_putInput (s := s) small mv true
  obtain ⟨q, eq⟩ : ∃ q, putInput s input mv true = { s with power := q } := ⟨_, putInput_eq s input mv true⟩
  have back : inputBack s input mv = coldBoot (let t := coldState (putInput s input mv true); { t with power := { t.power with tripped := false } }) :=
    (if_neg (by simp [inWindow, out]; omega)).trans (if_neg (by simp [dark, high, released]))
  rw [eq] at back supplied
  have still : hot (let t := coldState { s with power := q }; { t with power := { t.power with tripped := false } }) = false :=
    (hot_coldState { s with power := q }).trans cool
  rw [coldBoot_cool still] at back
  refine ⟨_, back, ?_⟩
  rw [coldState_eq]
  exact ⟨supplied, rfl, rfl, rfl, rfl, rfl, rfl, rfl⟩

/-- The fields a device's own loss leaves that the clock's needs. -/
theorem declareLost_leaves (e : State) (unit code : Nat) : (declareLost e unit code).power.refclk = e.power.refclk ∧ (declareLost e unit code).ctxs = e.ctxs ∧
    (declareLost e unit code).gals = e.gals ∧ (declareLost e unit code).pegs = e.pegs := by
  obtain ⟨beat, mark, pin, same⟩ := declareLost_keeps e unit code
  exact ⟨(congrArg (fun x : State => x.power.refclk) same :), (congrArg State.ctxs same :), (congrArg State.gals same :), (congrArg State.pegs same :)⟩

/-- A lost reference clock is flagged and logged, then the device declares itself lost (R402). -/
theorem execRefLost_declares {s : State} (clock : s.power.refclk = true) (high : s.power.poreset = false) (up : hubsRun s = true) :
    ∃ e, execRefLost s = .next (declareLost e 0 cUnit) ∧ recorded { s with power := { s.power with refclk := false } } e ∧
      bit (regGet e pgPower Reg.PW_ERR) 4 = true := by
  refine ⟨_, (if_neg (by simp [clock, high])).trans (if_pos up), (setErr_recorded ..).trans (logFault_recorded ..), ?_⟩
  rw [logSupply, sameRegs_logFault offTraffic_power.port _ _ Reg.PW_ERR (by decide)]
  exact powerErr_bit _ (by decide)

/-- Settles O30. -/
theorem suppliesAndClock : Obligations.SuppliesAndClock := by
  unfold Obligations.SuppliesAndClock
  intro put
  have puts (s : State) (input mv : Nat) (ok : Bool) : putInput s input mv ok = { s with power := put s input mv ok } := by
    dsimp only [put, putInput]
    split <;> rfl
  refine ⟨fun input mv s small off main backup up awake idle => ?_, fun input mv s no => if_pos ?_, fun input mv s c which => ?_, fun s dark => if_neg (ne_true_of_eq_false dark),
    fun input mv s small inWindow out => ⟨fun supplied => ?_, fun c which dark high released cool => ?_⟩, fun input mv s supplied => if_pos supplied,
    fun mv s stby low => ⟨fun up awake => ?_, fun dark => ?_⟩, fun s clock high => ⟨fun up here => ?_, fun down => ?_⟩⟩
  · have off' : outside mv = true := off
    have on : inputOk s input = true := by
      unfold inputOk
      split <;> assumption
    have other : inputOk s (1 - input) = true := by
      unfold inputOk
      split <;> assumption
    have entry : execSupplyLost input mv s = .next (noteInput (putInput s input mv false) input mv) := by
      refine (if_neg (by simp [off, on]; omega)).trans ((if_neg ?_).trans (if_pos ?_))
      · rw [has48_putInput small, other]; decide
      · exact hubsRun_putInput up (by rw [has48_putInput small, other]; rfl)
    rw [puts] at entry
    obtain ⟨done, flag, above, pending⟩ := noteInput_notes (s := { s with power := put s input mv false }) input mv small awake idle
    exact ⟨_, entry, done, flag, above, pending⟩
  · obtain none_ | fine | lost := no
    · exact .inl none_
    · exact .inr (.inl (by rw [fine]; rfl))
    · exact .inr (.inr (by rw [lost]; rfl))
  · have down : ∃ u, exec c s = .next (powerDown u) ∧ u.boot = s.boot ∧ u.host = s.host ∧ u.power.stbyOk = s.power.stbyOk ∧ u.power.tick = s.power.tick := by
      obtain ⟨rfl, supplied⟩ | ⟨rfl, small, off, on, other⟩ := which
      · exact ⟨_, if_pos supplied, rfl, rfl, rfl, rfl⟩
      · refine ⟨putInput s input mv false, (if_neg ?_).trans (if_pos ?_), ?_⟩
        · simp [off, on]; omega
        · rw [has48_putInput small, other]; rfl
        · unfold putInput
          split <;> exact ⟨rfl, rfl, rfl, rfl⟩
    obtain ⟨u, entry, boot, host, stby, tick⟩ := down
    obtain ⟨main, backup, -, regs, ctxs, pegs, ec, state, slots, counter, revoked, net, ticks⟩ := powerDown_leaves u
    rw [boot] at slots counter revoked
    rw [host] at net
    rw [stby, tick] at ticks
    exact ⟨_, entry, main, backup, regs, ctxs, pegs, ec, state, slots, counter, revoked, net, ticks⟩
  · have back : inputBack s input mv = putInput s input mv true :=
      (if_neg (by simp [inWindow, out]; omega)).trans (if_pos (by obtain h | h | h := supplied <;> simp [h]))
    rw [puts] at back
    exact congrArg Host.Outcome.next back
  · obtain ⟨u, back, supplied, control, tripped, ctxs, slots, tried, counter, revoked⟩ := inputBack_boots (mv := mv) small inWindow out dark high released cool
    have changes := bootNext_changes u
    refine ⟨bootNext u, ?_, by rw [changes]; exact supplied, by rw [changes]; exact control, by rw [changes]; exact tripped, by rw [changes]; exact ctxs,
      (booted_bootNext u).congr slots tried counter revoked⟩
    obtain rfl | rfl := which
    · exact congrArg Host.Outcome.next back
    · exact (if_neg (ne_true_of_eq_false dark)).trans (congrArg Host.Outcome.next back)
  · have entry : execStbyLost mv s = .next (logSupply (raiseSource (setErr { s with power := { s.power with stbyOk := false, stbyMv := mv } } pgPower 2) 254) 2) := by
      have supplied : has48 s = true := by
        simp only [hubsRun, Bool.and_eq_true] at up
        exact up.1.1.1.1
      exact (if_neg (by simp [stby]; omega)).trans ((if_neg (by show ¬ (!has48 s) = true; rw [supplied]; decide)).trans (if_pos up))
    have flag := powerErr_bit { s with power := { s.power with stbyOk := false, stbyMv := mv } } (i := 2) (by decide)
    have first := setErr_recorded { s with power := { s.power with stbyOk := false, stbyMv := mv } } pgPower 2
    have image := (eventsKept_setErr { s with power := { s.power with stbyOk := false, stbyMv := mv } } pgPower 2).image.trans awake
    generalize setErr { s with power := { s.power with stbyOk := false, stbyMv := mv } } pgPower 2 = e at *
    obtain ⟨pending, raised, bank⟩ := raiseSource_pends image 254
    refine ⟨_, entry, first.trans (raised.trans (logFault_recorded ..)), ?_, (eventsKept_logFault ..).pend 254 pending⟩
    rw [logSupply, sameRegs_logFault offTraffic_power.port _ _ Reg.PW_ERR (by decide), sameRegs.of_regs (p := pgPower) bank _ (by decide)]
    exact flag
  · obtain ⟨-, -, off, -, -, -, -, -, -, -, -, -, tick⟩ := powerDown_leaves { s with power := { s.power with stbyOk := false, stbyMv := mv } }
    exact ⟨_, (if_neg (by simp [stby]; omega)).trans (if_pos (by show (!has48 s) = true; rw [dark]; rfl)), off, tick⟩
  · obtain ⟨e, entry, before, flag⟩ := execRefLost_declares clock high up
    obtain ⟨lost, fault⟩ := declareLost_lost (s := e) (by rw [before]; exact here) 0 cUnit
    obtain ⟨refclk, ctxs, gals, pegs⟩ := declareLost_leaves e 0 cUnit
    refine ⟨_, entry, ?_, lost, fault, ?_, ?_, ?_, ?_⟩
    · rw [refclk, before]
    · rw [offTraffic_power.declareLost e 0 cUnit Reg.PW_ERR (by decide)]
      exact flag
    · rw [ctxs, before]
    · rw [gals, before]
    · rw [pegs, before]
  · exact ⟨_, (if_neg (by simp [clock, high])).trans (if_neg (ne_true_of_eq_false down)), setErr_recorded .., powerErr_bit _ (by decide)⟩

end Sys2Proof.Machine
end

section
/-! O31: DORMANT and the thermal trip (R390, R399, R400, R417, R447, R448). -/

namespace Sys2Proof.Machine

/-! Pages that lose power. -/

/-- A word of a page that loses power (R431). -/
def wordOff (which : Page → Bool) (s : State) (e : Nat × Nat) : State :=
  match pageOf e.1 with
  | none => s
  | some p =>
    if !which p then s
    else
      let off := e.1 - p.base
      let w1c := e.2 &&& maskAt p.kind off .w1c
      let s1 := if w1c = 0 || off < 0x80 then s else logFault s { kind := 9, device := deviceId s, d0 := w1c, addr := e.1 }
      regSet s1 p off (offWord p off e.2)

theorem powerOffPages_eq (s : State) (which : Page → Bool) : powerOffPages s which = s.regs.applied.foldl (wordOff which) s := rfl

theorem wordOff_records (which : Page → Bool) (s : State) (e : Nat × Nat) : recorded s (wordOff which s e) ∧ EventsKept s (wordOff which s e) := by
  have set (u : State) (p : Page) (o v : Nat) : recorded u (regSet u p o v) ∧ EventsKept u (regSet u p o v) := ⟨rfl, .of_ec rfl⟩
  unfold wordOff
  split
  · exact ⟨.refl s, .of_ec rfl⟩
  · split
    · exact ⟨.refl s, .of_ec rfl⟩
    · dsimp only
      split
      · exact set ..
      · exact ⟨(logFault_recorded ..).trans (set ..).1, (eventsKept_logFault ..).trans (set ..).2⟩

/-- Pages that lose power change registers and the fault log (R374, R431). -/
theorem powerOffPages_records (s : State) (which : Page → Bool) : recorded s (powerOffPages s which) ∧ EventsKept s (powerOffPages s which) := by
  rw [powerOffPages_eq]
  generalize s.regs.applied = l
  induction l generalizing s with
  | nil => exact ⟨.refl s, .of_ec rfl⟩
  | cons e l ih =>
    obtain ⟨rec_, events⟩ := wordOff_records which s e
    obtain ⟨rec', events'⟩ := ih (wordOff which s e)
    exact ⟨rec_.trans rec', events.trans events'⟩

/-! Retained events. -/

theorem SMap.find_none_of_lt {α : Type} {lo k : Nat} {m : SMap α} (sorted : sortedFrom lo m = true) (below : k < lo) : find k m = none := by
  cases found : find k m with
  | none => rfl
  | some v => exact absurd (le_of_mem_sortedFrom sorted (mem_of_find found)) (by omega)

/-- Storing an ordered map's entries one by one stores each. -/
theorem SMap.get_foldl_entries {α : Type} [DecidableEq α] (d : α) (g : Nat × α → α) (k : Nat) : ∀ (lo : Nat) (l : SMap α) (m : SMap α), sortedFrom lo l = true →
    get d k (l.foldl (fun m e => put d e.1 (g e) m) m) = match find k l with
      | some v => g (k, v)
      | none => get d k m
  | _, [], _, _ => rfl
  | lo, (j, w) :: t, m, sorted => by
    have rest : sortedFrom (j + 1) t = true := by
      simp only [sortedFrom, Bool.and_eq_true] at sorted
      exact sorted.2
    rw [List.foldl_cons, get_foldl_entries d g k (j + 1) t _ rest]
    by_cases here : j = k
    · subst here
      simp [find_none_of_lt rest (Nat.lt_succ_self j), find]
    · simp only [find, if_neg here]
      cases find k t with
      | none => exact get_put_ne d (Ne.symm here) _ _
      | some v => rfl

/-- A source as the wake latches it: pending where its line is high (R400). -/
def relatched (x : Source) : Source := { x with pend := x.pend || x.level }

theorem getSrc_relatch (s : State) (n : Nat) : getSrc (relatch s) n = relatched (getSrc s n) := by
  show (SMap.find n (List.map (fun e : Nat × Source => (e.1, relatched e.2)) s.ec.shared)).getD {} = relatched ((SMap.find n s.ec.shared).getD {})
  rw [SMap.find_mapped]
  cases SMap.find n s.ec.shared <;> rfl

theorem getSrc_latches (n : Nat) : ∀ (l : List Nat) (s : State), getSrc (l.foldl (fun s n => putSrc s n { getSrc s n with pend := true }) s) n =
    { getSrc s n with pend := (getSrc s n).pend || l.contains n }
  | [], s => by simp
  | m :: l, s => by
    rw [List.foldl_cons, getSrc_latches n l]
    by_cases here : n = m
    · subst here
      simp
    · simp [getSrc_putSrc_ne s here, here]

/-- A source as it was retained, with its line's present level (R400). -/
theorem getSrc_restored (m : SMap Source) (high : SMap Source) (lvl : Nat → Bool) (sorted : SMap.sorted m = true)
    (lines : ∀ n, (high.get {} n).en = false ∧ (high.get {} n).target = 4) (n : Nat) :
    let x := (m.foldl (fun m e => SMap.put {} e.1 { e.2 with level := lvl e.1 } m) high).get {} n
    x.en = (m.get {} n).en ∧ x.target = (m.get {} n).target ∧ ((m.get {} n).pend = true → x.pend = true) := by
  intro x
  have stored : x = _ := SMap.get_foldl_entries {} (fun e => { e.2 with level := lvl e.1 }) n 0 m high sorted
  have listed : m.get {} n = (m.find n).getD {} := rfl
  rw [stored, listed]
  cases m.find n with
  | none => exact ⟨(lines n).1, (lines n).2, nofun⟩
  | some v => exact ⟨rfl, rfl, id⟩

/-- Good retention registers bring the sources back, and latch what came meanwhile (R390, R400). -/
theorem restoreRetention_restores {s : State} {r : Retention} (image : s.ec.image = some r) (good : r.crcOk = true) (sorted : SMap.sorted r.shared = true) :
    ∃ e, restoreRetention s = { s with ec := e } ∧ e.image = none ∧ ∀ n, (getSrc { s with ec := e } n).en = (r.shared.get {} n).en ∧
      (getSrc { s with ec := e } n).target = (r.shared.get {} n).target ∧ (((r.shared.get {} n).pend = true ∨ n ∈ r.late) → (getSrc { s with ec := e } n).pend = true) := by
  let high : SMap Source := (s.ec.shared.filter (fun e => e.2.level)).map (fun e => (e.1, ({ level := true } : Source)))
  let base := r.shared.foldl (fun m e => SMap.put {} e.1 { e.2 with level := (getSrc s e.1).level } m) high
  let reloaded : State := { s with ec := { s.ec with shared := base, ppend := r.ppend, pen := r.pen, image := none } }
  have eq : restoreRetention s = relatch (r.late.foldl (fun s n => putSrc s n { getSrc s n with pend := true }) reloaded) := by
    unfold restoreRetention
    rw [image]
    dsimp only
    rw [good, if_pos rfl]
  have lines (n : Nat) : (high.get {} n).en = false ∧ (high.get {} n).target = 4 := by
    have listed : high.get {} n = ((SMap.find n (s.ec.shared.filter (fun e => e.2.level))).map (fun _ => ({ level := true } : Source))).getD {} :=
      congrArg (fun x : Option Source => x.getD {}) (SMap.find_mapped (fun _ => ({ level := true } : Source)) n (s.ec.shared.filter (fun e => e.2.level)))
    rw [listed]
    cases SMap.find n (s.ec.shared.filter (fun e => e.2.level)) <;> exact ⟨rfl, rfl⟩
  obtain ⟨e, only, cleared⟩ : ∃ e, relatch (r.late.foldl (fun s n => putSrc s n { getSrc s n with pend := true }) reloaded) = { s with ec := e } ∧ e.image = none := by
    have latches : ∀ (l : List Nat) (u : State), u.ec.image = none → ∃ e, l.foldl (fun s n => putSrc s n { getSrc s n with pend := true }) u = { u with ec := e } ∧ e.image = none := by
      intro l
      induction l with
      | nil => exact fun u none_ => ⟨u.ec, rfl, none_⟩
      | cons n l ih =>
        intro u none_
        obtain ⟨e, eq, cleared⟩ := ih (putSrc u n { getSrc u n with pend := true }) none_
        exact ⟨e, eq, cleared⟩
    obtain ⟨e, eq, cleared⟩ := latches r.late reloaded rfl
    rw [eq]
    exact ⟨_, rfl, cleared⟩
  refine ⟨e, eq.trans only, cleared, fun n => ?_⟩
  obtain ⟨en, target, pend⟩ := getSrc_restored r.shared high (fun n => (getSrc s n).level) sorted lines n
  rw [← only, getSrc_relatch, getSrc_latches]
  refine ⟨en, target, fun came => ?_⟩
  have set : ((getSrc reloaded n).pend || r.late.contains n) = true := by
    obtain retained | late := came
    · rw [show (getSrc reloaded n).pend = true from pend retained]; rfl
    · rw [List.contains_iff_mem.mpr late, Bool.or_true]
  show ((getSrc reloaded n).pend || r.late.contains n || _) = true
  rw [set]
  rfl

/-- Links that are enabled train (R400). -/
theorem trainLinks_only : ∀ (l : List Nat) (s : State), ∃ x o, l.foldl (fun s n => if fld s (pgLink n) Reg.LK_CTRL 0 0 = 1 then trainLink s n else s) s =
    { s with links := x, out := o }
  | [], s => ⟨s.links, s.out, rfl⟩
  | n :: l, s => by
    obtain ⟨x, o, rest⟩ := trainLinks_only l (if fld s (pgLink n) Reg.LK_CTRL 0 0 = 1 then trainLink s n else s)
    rw [List.foldl_cons, rest]
    split
    · exact ⟨x, o, rfl⟩
    · exact ⟨x, o, rfl⟩

/-- DORMANT: what the hubs' power-off keeps (R399, R417, R431). -/
theorem execDormantEntry_sleeps {s : State} (may : mayDormant s = true) : ∃ x : State, execDormantEntry s = .next { x with
      links := []
      ec := { image := x.ec.image }
      boot := { x.boot with resume := some (measure s.boot.image, imgSvn s.boot.image) }
      power := { x.power with dormant := true, pins := false } } ∧
    x.power = s.power ∧ x.ctxs = s.ctxs ∧ x.gals = s.gals ∧ x.pegs = s.pegs ∧ x.boot = s.boot ∧
    (bit (regGet s pgEvent Reg.EC_CTRL) 0 = true → x.ec.image = some { shared := s.ec.shared, ppend := s.ec.ppend, pen := s.ec.pen }) := by
  obtain ⟨off, events⟩ := powerOffPages_records (saveRetention s) (fun p => p.hall.isNone)
  have saved : saveRetention s = { s with ec := (saveRetention s).ec } := by
    unfold saveRetention
    split <;> rfl
  refine ⟨powerOffPages (saveRetention s) (fun p => p.hall.isNone), if_neg (show ¬ (!mayDormant s) = true by rw [may]; decide), ?_, ?_, ?_, ?_, ?_, fun asked => ?_⟩
  · rw [off, saved]
  · rw [off, saved]
  · rw [off, saved]
  · rw [off, saved]
  · rw [off, saved]
  · rw [events.image, saveRetention, if_pos asked]

/-- A wake with a good image restores the sources and latches the wake itself (R390, R400, R417). -/
theorem wake_resumes {s : State} {ok : Bool} {m : List Byte} {svn : Nat} {r : Retention} (good : ok = true) (kept : s.boot.resume = some (m, svn)) (fresh : s.boot.counter ≤ svn)
    (image : s.ec.image = some r) (crc : r.crcOk = true) (sorted : SMap.sorted r.shared = true) :
    (wake s ok).power.dormant = false ∧ (wake s ok).boot.resume = none ∧ (wake s ok).ctxs = s.ctxs ∧ (wake s ok).gals = s.gals ∧ (wake s ok).ec.image = none ∧
      ∀ n, (getSrc (wake s ok) n).en = (r.shared.get {} n).en ∧ (getSrc (wake s ok) n).target = (r.shared.get {} n).target ∧
        (((r.shared.get {} n).pend = true ∨ n ∈ r.late ∨ n = 253) → (getSrc (wake s ok) n).pend = true) := by
  have raised : raiseSource s 253 = { s with ec := { s.ec with image := some { r with late := r.late ++ [253] } } } := by rw [raiseSource, image]
  let on : State := { raiseSource s 253 with power := { (raiseSource s 253).power with dormant := false, pins := true }, boot := { (raiseSource s 253).boot with resume := none } }
  obtain ⟨e, restored, cleared, srcs⟩ := restoreRetention_restores (s := on) (r := { r with late := r.late ++ [253] }) (by dsimp only [on]; rw [raised]) crc sorted
  obtain ⟨x, o, trained⟩ := trainLinks_only (List.range 48) (restoreRetention on)
  have woken : wake s ok = { restoreRetention on with links := x, out := o } := by
    rw [← trained, wake, good, kept]
    exact if_pos (by simp [fresh])
  rw [woken, restored]
  dsimp only [on]
  rw [raised]
  refine ⟨rfl, rfl, rfl, rfl, cleared, fun n => ?_⟩
  obtain ⟨en, target, pend⟩ := srcs n
  refine ⟨en, target, fun came => pend ?_⟩
  obtain retained | late | own := came
  · exact .inl retained
  · exact .inr (List.mem_append_left _ late)
  · exact .inr (List.mem_append_right _ (List.mem_singleton.mpr own))

/-- A wake whose image is bad boots cold (R400, R417). -/
theorem wake_boots {s : State} (cool : hot s = false) : ∃ u, wake s false = bootNext u ∧ u.ctxs = [] ∧ u.power.dormant = false ∧
    u.boot.slots = s.boot.slots ∧ u.boot.tried = [] ∧ u.boot.counter = s.boot.counter ∧ u.boot.revoked = s.boot.revoked := by
  have raised : ∃ e, raiseSource s 253 = { s with ec := e } := by
    unfold raiseSource
    split
    · exact ⟨_, rfl⟩
    · exact ⟨_, rfl⟩
  obtain ⟨e, raised⟩ := raised
  have cold : wake s false = coldBoot (setErr { coldState (raiseSource s 253) with ec := {} } pgBoot 3) := by
    simp only [wake, Bool.false_and, Bool.false_eq_true, if_false]
  have kept := setErr_recorded { coldState (raiseSource s 253) with ec := {} } pgBoot 3
  have still : hot (setErr { coldState (raiseSource s 253) with ec := {} } pgBoot 3) = false := by
    rw [hot_congr (s := coldState (raiseSource s 253)) (by rw [kept]), hot_coldState, raised]
    exact cool
  rw [coldBoot_cool still] at cold
  refine ⟨_, cold, ?_⟩
  rw [kept, raised, coldState_eq]
  exact ⟨rfl, rfl, rfl, rfl, rfl, rfl⟩

/-- The trip's device: stopped, THERMTRIP_N and FAULT_N low, every stack in self-refresh (R447). -/
def trippedState (u : State) : State :=
  { deadState u with
    power := { (deadState u).power with tripped := true, therm := true, fault := true, control := true }
    mem := (List.range 8).map (fun h => (h, { getMc (deadState u) h with refresh := true })) }

theorem trippedState_stops (u : State) : (trippedState u).power.tripped = true ∧ pinThermtrip (trippedState u) = some false ∧ pinFault (trippedState u) = some false ∧
    hubsRun (trippedState u) = false ∧ (trippedState u).ctxs = [] ∧ ∀ h, h < 8 → (getMc (trippedState u) h).refresh = true := by
  refine ⟨rfl, rfl, rfl, ?_, ?_, fun h real => ?_⟩
  · simp [hubsRun, trippedState]
  · show (coldState u).ctxs = []
    rw [coldState_eq]
    rfl
  · exact refresh_listed (f := fun h => { getMc (deadState u) h with refresh := true }) (fun _ => rfl) rfl real

/-- Settles O31. -/
theorem sleepAndTrip : Obligations.SleepAndTrip := by
  have wakes {ok : Bool} {c : Instr} {s : State} (which : c = .wakeN ok ∨ (c = .pwWake ok ∧ regGet s pgPower Reg.PW_WAKE ≠ 0)) (asleep : s.power.dormant = true)
      (high : s.power.poreset = false) : exec c s = .next (wake s ok) := by
    obtain rfl | ⟨rfl, timer⟩ := which
    · exact if_pos (by simp [asleep, high])
    · exact if_pos (by simp [asleep, high, timer])
  refine ⟨fun s may => ?_, fun s no => if_pos (by rw [no]; rfl), fun ok c s which asleep high => ⟨fun m svn r good kept fresh image crc sorted => ?_, fun bad cool => ?_⟩, fun ok s no => ?_,
    fun u i x s trips supplied high awake running => ?_, fun u i x s no => if_pos ?_⟩
  · obtain ⟨x, entry, power, ctxs, gals, pegs, boot, image⟩ := execDormantEntry_sleeps may
    refine ⟨_, entry, ?_, rfl, ctxs, gals, pegs, rfl, image, ?_⟩
    · exact congrArg (fun p : Power => { p with dormant := true, pins := false }) power
    · exact congrArg (fun b : Boot => { b with resume := some (measure s.boot.image, imgSvn s.boot.image) }) boot
  · obtain ⟨slept, done, ctxs, gals, cleared, srcs⟩ := wake_resumes good kept fresh image crc sorted
    exact ⟨wake s ok, wakes which asleep high, slept, done, ctxs, gals, cleared, (srcs 253).2.2 (.inr (.inr rfl)), fun n late => (srcs n).2.2 (.inr (.inl late)),
      fun n => ⟨(srcs n).1, (srcs n).2.1, fun retained => (srcs n).2.2 (.inl retained)⟩⟩
  · subst bad
    obtain ⟨u, boots, ctxs, slept, slots, tried, counter, revoked⟩ := wake_boots cool
    have changes := bootNext_changes u
    refine ⟨bootNext u, (wakes which asleep high).trans (congrArg Host.Outcome.next boots), by rw [changes]; exact ctxs, by rw [changes]; exact slept,
      (booted_bootNext u).congr slots tried counter revoked⟩
  · obtain awake | low := no
    · exact ⟨if_neg (by simp [awake]), if_neg (by simp [awake])⟩
    · exact ⟨if_neg (by simp [low]), if_neg (by simp [low])⟩
  · refine ⟨_, (if_neg ?_).trans rfl, trippedState_stops _⟩
    simp [trips, supplied, high, awake, running]
  · obtain a | b | c | d | e := no
    · exact .inl (by rw [a]; rfl)
    · exact .inr (.inl (by rw [b]; rfl))
    · exact .inr (.inr (.inl c))
    · exact .inr (.inr (.inr (.inl d)))
    · exact .inr (.inr (.inr (.inr e)))

end Sys2Proof.Machine
end

section
/-! O32: the issue duty (R406, R407). -/

namespace Sys2Proof.Machine

/-! Monitor pages. -/

theorem pgMonitor_kind (u : Nat) : (pgMonitor u).kind = 0x1F := by
  unfold pgMonitor
  split
  · rfl
  · split <;> rfl

theorem pgMonitor_apart {u v : Nat} (h : u < 10) (k : v < 10) (other : u ≠ v) : apart (pgMonitor u) (pgMonitor v) := by
  simp only [apart, pgMonitor, hallBase]
  split <;> split <;> (try split) <;> (try split) <;> dsimp only <;> omega

theorem pgMonitor_base {u : Nat} (h : u < 10) : (pgMonitor u).base = 0x000B1000 ∨ (pgMonitor u).base = 0x01052000 ∨ 0x08000000 ≤ (pgMonitor u).base := by
  simp only [pgMonitor, hallBase]
  split
  · exact .inl rfl
  · split
    · exact .inr (.inl rfl)
    · exact .inr (.inr (by dsimp only; omega))

theorem offTraffic_monitor {u : Nat} (h : u < 10) : OffTraffic (pgMonitor u) := by
  have base := pgMonitor_base h
  refine offTraffic_of ?_ ?_ ?_ ?_
  · simp only [apart, pgHost]; omega
  · simp only [apart, pgRouter]; omega
  · simp only [apart, pgFault]; omega
  · omega

/-! What readings, warnings and the thermal step leave. -/

/-- Monitors, records and error bits change; the monitors' settings and the cap's stay, and set errors with them. -/
structure Measured (s t : State) : Prop where
  only : recorded { s with monitors := t.monitors } t
  ctrl : ∀ u, u < 10 → regGet t (pgMonitor u) Reg.MN_CTRL = regGet s (pgMonitor u) Reg.MN_CTRL
  cap : regGet t pgPower Reg.PW_CAP = regGet s pgPower Reg.PW_CAP
  errs : ∀ u i, u < 10 → i < 32 → bit (regGet s (pgMonitor u) (errOff 0x1F)) i = true → bit (regGet t (pgMonitor u) (errOff 0x1F)) i = true

theorem recorded.monitored {s t : State} (h : recorded s t) : recorded { s with monitors := t.monitors } t := by
  unfold recorded at *
  rw [h]

theorem Measured.refl (s : State) : Measured s s := ⟨rfl, fun _ _ => rfl, rfl, fun _ _ _ _ => id⟩

theorem Measured.trans {s t u : State} (h : Measured s t) (k : Measured t u) : Measured s u where
  only := by
    have a := h.only
    have b := k.only
    unfold recorded at *
    rw [b, a]
  ctrl v hv := (k.ctrl v hv).trans (h.ctrl v hv)
  cap := k.cap.trans h.cap
  errs v i hv hi set := k.errs v i hv hi (h.errs v i hv hi set)

theorem Measured.foldl {α : Type} {f : State → α → State} : ∀ (l : List α) (s : State), (∀ x, x ∈ l → ∀ s, Measured s (f s x)) → Measured s (l.foldl f s)
  | [], s, _ => .refl s
  | x :: l, s, each => (each x List.mem_cons_self s).trans (foldl l _ fun y hy => each y (List.mem_cons_of_mem x hy))

theorem measured_putMon (s : State) (u : Nat) (m : Monitor) : Measured s (putMon s u m) := ⟨rfl, fun _ _ => rfl, rfl, fun _ _ _ _ => id⟩

theorem measured_logFault (s : State) (f : FaultRec) : Measured s (logFault s f) where
  only := (logFault_recorded s f).monitored
  ctrl u hu := sameRegs_logFault (offTraffic_monitor hu).port s f _ (by decide)
  cap := sameRegs_logFault offTraffic_power.port s f _ (by decide)
  errs u i hu _ set := by
    rw [sameRegs_logFault (offTraffic_monitor hu).port s f _ (by decide)]
    exact set

theorem measured_setErr (s : State) {v : Nat} (real : v < 10) (j : Nat) : Measured s (setErr s (pgMonitor v) j) where
  only := (setErr_recorded ..).monitored
  ctrl u hu := by
    have base := pgMonitor_base hu
    refine setErr_regGet _ _ _ _ _ ?_ ?_ ((offTraffic_monitor hu).port.ne (by decide) (by decide)) ((offTraffic_monitor hu).port.ne (by decide) (by decide))
    · by_cases same : u = v
      · subst same
        rw [pgMonitor_kind, Ne, Nat.add_left_cancel_iff]
        decide
      · exact (pgMonitor_apart hu real same).ne (by decide) (by rw [pgMonitor_kind]; decide)
    · by_cases same : u = v
      · subst same
        rw [Ne, Nat.add_left_cancel_iff]
        decide
      · exact (pgMonitor_apart hu real same).ne (by decide) (by decide)
  cap := by
    have base := pgMonitor_base real
    refine sameRegs.setErr s j (p := pgPower) ?_ offTraffic_power.port (by rw [pgMonitor_kind]; decide) Reg.PW_CAP (by decide)
    simp only [apart, pgPower]
    omega
  errs u i hu hi set := by
    by_cases same : u = v
    · subst same
      have kept := setErr_keeps (s := s) (p := pgMonitor u) i j hi (by rw [pgMonitor_kind]; decide) (by rw [pgMonitor_kind]; decide) (offTraffic_monitor hu).port
        (by rw [pgMonitor_kind]; exact set)
      rw [pgMonitor_kind] at kept
      exact kept
    · rw [sameRegs.setErr s j (pgMonitor_apart hu real same) (offTraffic_monitor hu).port (by rw [pgMonitor_kind]; decide) _ (by decide)]
      exact set

theorem monitorErr_bit (s : State) {u : Nat} (real : u < 10) {i : Nat} (hi : i < 32) : bit (regGet (setErr s (pgMonitor u) i) (pgMonitor u) (errOff 0x1F)) i = true := by
  have set := setErr_bit_apart s (pgMonitor u) hi (by rw [pgMonitor_kind]; decide) (by rw [pgMonitor_kind]; decide) (offTraffic_monitor real).port
  rw [pgMonitor_kind] at set
  exact set

theorem getMon_congr {s t : State} (h : t.monitors = s.monitors) (u : Nat) : getMon t u = getMon s u := by rw [getMon, getMon, h]

theorem getMon_putMon_ne (s : State) {u v : Nat} (h : v ≠ u) (m : Monitor) : getMon (putMon s u m) v = getMon s v := SMap.get_put_ne _ h _ _

theorem getMon_setErr (s : State) (p : Page) (i u : Nat) : getMon (setErr s p i) u = getMon s u := getMon_congr (by rw [setErr_recorded s p i]) u

/-! Readings and warnings. -/

/-- A sensor that is ignored is flagged (R406). -/
theorem sensorBad_flags (s : State) {u : Nat} (real : u < 10) (i : Nat) (x : Int) : Measured s (sensorBad s u i x) ∧
    getMon (sensorBad s u i x) u = { getMon s u with temps := (getMon s u).temps.insert i (x, false) } ∧ (∀ v, v ≠ u → getMon (sensorBad s u i x) v = getMon s v) ∧
    bit (regGet (sensorBad s u i x) (pgMonitor u) (errOff 0x1F)) 3 = true := by
  have logged (f : FaultRec) (v : Nat) : getMon (logFault (putMon s u { getMon s u with temps := (getMon s u).temps.insert i (x, false) }) f) v =
      getMon (putMon s u { getMon s u with temps := (getMon s u).temps.insert i (x, false) }) v := getMon_congr (by rw [logFault_recorded _ f]) v
  refine ⟨(measured_putMon ..).trans ((measured_logFault ..).trans (measured_setErr _ real 3)), ?_, fun v other => ?_, monitorErr_bit _ real (by decide)⟩
  · exact (getMon_setErr ..).trans ((logged _ u).trans (getMon_putMon ..))
  · exact (getMon_setErr ..).trans ((logged _ v).trans (getMon_putMon_ne s other _))

/-- A reading within range is taken, another is flagged (R406). -/
theorem takeReading_takes (s : State) (x : Nat × Nat × Int) : Measured s (takeReading s x) ∧ (∀ u, (getMon (takeReading s x) u).thermal = (getMon s u).thermal) ∧
    (x.1 < 10 → x.2.1 < sensorCount x.1 → getMon (takeReading s x) x.1 =
      { getMon s x.1 with temps := (getMon s x.1).temps.insert x.2.1 (x.2.2, decide (-320 ≤ x.2.2 ∧ x.2.2 ≤ 1200)) } ∧
      ((x.2.2 < -320 ∨ 1200 < x.2.2) → bit (regGet (takeReading s x) (pgMonitor x.1) (errOff 0x1F)) 3 = true)) := by
  unfold takeReading
  dsimp only
  split
  · next away => exact ⟨.refl s, fun _ => rfl, fun real sensor => absurd away (by omega)⟩
  · next here =>
    have real : x.1 < 10 := by omega
    have kept {m : Monitor} (same : m.thermal = (getMon s x.1).thermal) {t : State} (own : getMon t x.1 = m) (others : ∀ v, v ≠ x.1 → getMon t v = getMon s v) (u : Nat) :
        (getMon t u).thermal = (getMon s u).thermal := by
      by_cases own_ : u = x.1
      · subst own_; rw [own, same]
      · rw [others u own_]
    split
    · next out =>
      obtain ⟨measured, own, others, flag⟩ := sensorBad_flags s real x.2.1 x.2.2
      refine ⟨measured, kept (by rfl) own others, fun _ _ => ⟨?_, fun _ => flag⟩⟩
      rw [own, decide_eq_false (by omega)]
    · next within =>
      have own := getMon_putMon s x.1 { getMon s x.1 with temps := (getMon s x.1).temps.insert x.2.1 (x.2.2, true) }
      refine ⟨measured_putMon .., kept (by rfl) own fun v other => getMon_putMon_ne s other _, fun _ _ => ⟨?_, fun out => absurd out within⟩⟩
      rw [own, decide_eq_true (by omega)]

theorem warnUnit_warns (s : State) {u : Nat} (real : u < 10) : Measured s (warnUnit s u) ∧ (warnUnit s u).monitors = s.monitors := by
  unfold warnUnit
  split
  · exact ⟨measured_setErr s real 0, by rw [setErr_recorded s (pgMonitor u) 0]⟩
  · exact ⟨.refl s, rfl⟩

theorem warnUnits_warn : ∀ (l : List Nat) (s : State), (∀ u, u ∈ l → u < 10) → Measured s (l.foldl warnUnit s) ∧ (l.foldl warnUnit s).monitors = s.monitors
  | [], s, _ => ⟨.refl s, rfl⟩
  | u :: l, s, real => by
    obtain ⟨first, same⟩ := warnUnit_warns s (real u List.mem_cons_self)
    obtain ⟨rest, same'⟩ := warnUnits_warn l (warnUnit s u) fun v hv => real v (List.mem_cons_of_mem u hv)
    exact ⟨first.trans rest, same'.trans same⟩

theorem takeReadings_take : ∀ (l : List (Nat × Nat × Int)) (s : State), Measured s (l.foldl takeReading s) ∧
    ∀ u, (getMon (l.foldl takeReading s) u).thermal = (getMon s u).thermal
  | [], s => ⟨.refl s, fun _ => rfl⟩
  | x :: l, s => by
    obtain ⟨first, same, -⟩ := takeReading_takes s x
    obtain ⟨rest, same'⟩ := takeReadings_take l (takeReading s x)
    exact ⟨first.trans rest, fun u => (same' u).trans (same u)⟩

/-! The thermal value (R407). -/

/-- The valid readings of a hall's 64 sensors. -/
def hallTemps (m : Monitor) : List Int := validTemps { m with temps := m.temps.filter (fun e => decide (e.1 < 64)) }

def thermalThr (s : State) (h : Nat) : Int := 8 * (fld s (pgMonitor h) Reg.MN_CTRL 15 8 : Int)

def thermalHyst (s : State) (h : Nat) : Int := 8 * (max 1 (fld s (pgMonitor h) Reg.MN_CTRL 19 16) : Int)

/-- The thermal value that follows. -/
def thermalNext (m : Monitor) (thr hyst : Int) : Nat :=
  if (hallTemps m).any (fun t => decide (thr ≤ t)) then max 4 (m.thermal - 1)
  else if (hallTemps m).all (fun t => decide (t < thr - hyst)) then min 16 (m.thermal + 1)
  else m.thermal

theorem thermalStep_steps (s : State) {h : Nat} (real : h < 8) : Measured s (thermalStep s h) ∧
    getMon (thermalStep s h) h = { getMon s h with thermal := thermalNext (getMon s h) (thermalThr s h) (thermalHyst s h) } ∧
    ∀ v, v ≠ h → getMon (thermalStep s h) v = getMon s v := by
  have small : h < 10 := by omega
  have put (m : Monitor) : Measured s (putMon s h m) ∧ getMon (putMon s h m) h = m ∧ ∀ v, v ≠ h → getMon (putMon s h m) v = getMon s v :=
    ⟨measured_putMon .., getMon_putMon .., fun v other => getMon_putMon_ne s other m⟩
  by_cases over_ : (hallTemps (getMon s h)).any (fun t => decide (thermalThr s h ≤ t)) = true
  · have eq : thermalStep s h = if (getMon s h).thermal = 16 then setErr (putMon s h { getMon s h with thermal := max 4 ((getMon s h).thermal - 1) }) (pgMonitor h) 1
        else putMon s h { getMon s h with thermal := max 4 ((getMon s h).thermal - 1) } := if_pos over_
    rw [eq, thermalNext, if_pos over_]
    obtain ⟨measured, own, others⟩ := put { getMon s h with thermal := max 4 ((getMon s h).thermal - 1) }
    split
    · exact ⟨measured.trans (measured_setErr _ small 1), (getMon_setErr ..).trans own, fun v other => (getMon_setErr ..).trans (others v other)⟩
    · exact ⟨measured, own, others⟩
  · by_cases under : (hallTemps (getMon s h)).all (fun t => decide (t < thermalThr s h - thermalHyst s h)) = true
    · have eq : thermalStep s h = putMon s h { getMon s h with thermal := min 16 ((getMon s h).thermal + 1) } := (if_neg over_).trans (if_pos under)
      rw [eq, thermalNext, if_neg over_, if_pos under]
      exact put _
    · have eq : thermalStep s h = s := (if_neg over_).trans (if_neg under)
      rw [eq, thermalNext, if_neg over_, if_neg under]
      exact ⟨.refl s, rfl, fun _ _ => rfl⟩

theorem thermalThr_congr {s t : State} (m : Measured s t) {h : Nat} (real : h < 8) : thermalThr t h = thermalThr s h ∧ thermalHyst t h = thermalHyst s h := by
  have same := m.ctrl h (by omega)
  exact ⟨by rw [thermalThr, thermalThr, fld, fld, same], by rw [thermalHyst, thermalHyst, fld, fld, same]⟩

/-- Every hall listed steps once; the others stay (R407). -/
theorem thermalSteps_step : ∀ (l : List Nat) (s : State), (∀ h, h ∈ l → h < 8) → l.Nodup → Measured s (l.foldl thermalStep s) ∧
    (∀ v, v ∉ l → getMon (l.foldl thermalStep s) v = getMon s v) ∧
    ∀ h, h ∈ l → getMon (l.foldl thermalStep s) h = { getMon s h with thermal := thermalNext (getMon s h) (thermalThr s h) (thermalHyst s h) }
  | [], s, _, _ => ⟨.refl s, fun _ _ => rfl, nofun⟩
  | j :: l, s, real, once => by
    obtain ⟨fresh, once'⟩ := List.nodup_cons.mp once
    obtain ⟨first, own, others⟩ := thermalStep_steps s (real j List.mem_cons_self)
    obtain ⟨rest, away, listed⟩ := thermalSteps_step l (thermalStep s j) (fun h hh => real h (List.mem_cons_of_mem j hh)) once'
    refine ⟨first.trans rest, fun v unlisted => ?_, fun h mem => ?_⟩
    · obtain ⟨other, unlisted⟩ := not_or.mp (mt List.mem_cons.mpr unlisted)
      exact (away v unlisted).trans (others v other)
    · obtain rfl | later := List.mem_cons.mp mem
      · exact (away h fresh).trans own
      · have other : h ≠ j := fun same => fresh (same ▸ later)
        obtain ⟨thr, hyst⟩ := thermalThr_congr first (real h mem)
        rw [List.foldl_cons, listed h later, others h other, thr, hyst]

/-! The cap (R407). -/

/-- The cap value that follows. -/
def capNext (cap watts v : Nat) : Nat := if cap < watts then max 4 (v - 1) else if watts * 100 < cap * 98 then min 16 (v + 1) else v

/-- The cap value of one hall, if it is awake. -/
def capOne (cap watts : Nat) (s : State) (h : Nat) : State :=
  if bit s.power.asleep h then s
  else { s with power := { s.power with capValue := s.power.capValue.put 16 h (capNext cap watts (capValue s h)) } }

theorem capSteps_step (cap watts : Nat) : ∀ (l : List Nat) (s : State), l.Nodup → ∃ c, l.foldl (capOne cap watts) s = { s with power := { s.power with capValue := c } } ∧
    (∀ h, h ∉ l → c.get 16 h = s.power.capValue.get 16 h) ∧
    ∀ h, h ∈ l → bit s.power.asleep h = false → c.get 16 h = capNext cap watts (s.power.capValue.get 16 h)
  | [], s, _ => ⟨s.power.capValue, rfl, fun _ _ => rfl, nofun⟩
  | j :: l, s, once => by
    obtain ⟨fresh, once'⟩ := List.nodup_cons.mp once
    rw [List.foldl_cons]
    by_cases asleep : bit s.power.asleep j = true
    · rw [capOne, if_pos asleep]
      obtain ⟨c, eq, away, listed⟩ := capSteps_step cap watts l s once'
      refine ⟨c, eq, fun h unlisted => away h (fun later => unlisted (List.mem_cons_of_mem j later)), fun h mem awake => ?_⟩
      obtain rfl | later := List.mem_cons.mp mem
      · rw [asleep] at awake
        cases awake
      · exact listed h later awake
    · rw [capOne, if_neg asleep]
      obtain ⟨c, eq, away, listed⟩ := capSteps_step cap watts l { s with power := { s.power with capValue := s.power.capValue.put 16 j (capNext cap watts (capValue s j)) } } once'
      refine ⟨c, eq, fun h unlisted => ?_, fun h mem awake => ?_⟩
      · obtain ⟨other, unlisted⟩ := not_or.mp (mt List.mem_cons.mpr unlisted)
        exact (away h unlisted).trans (SMap.get_put_ne 16 other _ _)
      · obtain rfl | later := List.mem_cons.mp mem
        · exact (away h fresh).trans (SMap.get_put_same 16 h _ _)
        · have other : h ≠ j := fun same => fresh (same ▸ later)
          exact (listed h later awake).trans (congrArg (capNext cap watts) (SMap.get_put_ne 16 other _ _))

theorem capStep_eq (s : State) : capStep s = (List.range 8).foldl (capOne (powerCap s) s.power.watts) s := rfl

/-! The update. -/

/-- Readings, warnings and the halls' thermal steps in their order. -/
def thermalUpdate (s : State) (temps : List (Nat × Nat × Int)) : State :=
  ((List.range 8).filter (fun h => !bit s.power.asleep h)).foldl thermalStep ((List.range 10).foldl warnUnit (temps.foldl takeReading s))

/-- After the readings are taken no reading changes. -/
theorem thermalUpdate_keeps (s : State) (temps : List (Nat × Nat × Int)) : Measured (temps.foldl takeReading s) (thermalUpdate s temps) ∧
    ∀ v, (getMon (thermalUpdate s temps) v).temps = (getMon (temps.foldl takeReading s) v).temps := by
  obtain ⟨warn, same⟩ := warnUnits_warn (List.range 10) (temps.foldl takeReading s) fun u hu => List.mem_range.mp hu
  obtain ⟨step, away, listed⟩ := thermalSteps_step ((List.range 8).filter (fun h => !bit s.power.asleep h)) ((List.range 10).foldl warnUnit (temps.foldl takeReading s))
    (fun h hh => List.mem_range.mp (List.mem_filter.mp hh).1) (List.nodup_range.filter _)
  refine ⟨warn.trans step, fun v => ?_⟩
  by_cases mem : v ∈ (List.range 8).filter (fun h => !bit s.power.asleep h)
  · rw [thermalUpdate, listed v mem, getMon_congr same]
  · rw [thermalUpdate, away v mem, getMon_congr same]

theorem thermalUpdate_updates (s : State) (temps : List (Nat × Nat × Int)) : Measured s (thermalUpdate s temps) ∧
    ∀ h, h < 8 → bit s.power.asleep h = false → ∃ m : Monitor, m.thermal = (getMon s h).thermal ∧
      getMon (thermalUpdate s temps) h = { m with thermal := thermalNext m (thermalThr s h) (thermalHyst s h) } := by
  obtain ⟨read, thermal⟩ := takeReadings_take temps s
  obtain ⟨warn, same⟩ := warnUnits_warn (List.range 10) (temps.foldl takeReading s) fun u hu => List.mem_range.mp hu
  obtain ⟨step, -, listed⟩ := thermalSteps_step ((List.range 8).filter (fun h => !bit s.power.asleep h)) ((List.range 10).foldl warnUnit (temps.foldl takeReading s))
    (fun h hh => List.mem_range.mp (List.mem_filter.mp hh).1) (List.nodup_range.filter _)
  refine ⟨read.trans (warn.trans step), fun h real awake => ⟨getMon (temps.foldl takeReading s) h, thermal h, ?_⟩⟩
  obtain ⟨thr, hyst⟩ := thermalThr_congr (read.trans warn) real
  have mem : h ∈ (List.range 8).filter (fun h => !bit s.power.asleep h) := List.mem_filter.mpr ⟨List.mem_range.mpr real, by rw [awake]; rfl⟩
  rw [thermalUpdate, listed h mem, getMon_congr same, thr, hyst]

theorem execDutyUpdate_up {s : State} (temps : List (Nat × Nat × Int)) (watts : Nat) (up : deviceUp s = true) (cooled : s.boot.waitCool = false) :
    execDutyUpdate temps watts s = .next (capStep (thermalUpdate { s with power := { s.power with watts := watts } } temps)) :=
  (if_neg (by rw [cooled]; decide)).trans (if_neg (by rw [up]; decide))

/-- The three ways of the thermal value (R407). -/
theorem thermalNext_cases (m : Monitor) (thr hyst : Int) (gap : 0 < hyst) :
    ((∃ x, x ∈ hallTemps m ∧ thr ≤ x) → thermalNext m thr hyst = max 4 (m.thermal - 1)) ∧
    ((∀ x, x ∈ hallTemps m → x < thr - hyst) → thermalNext m thr hyst = min 16 (m.thermal + 1)) ∧
    ((∀ x, x ∈ hallTemps m → x < thr) → (∃ x, x ∈ hallTemps m ∧ thr - hyst ≤ x) → thermalNext m thr hyst = m.thermal) := by
  have none_ (below : ∀ x, x ∈ hallTemps m → x < thr) : ¬ (hallTemps m).any (fun t => decide (thr ≤ t)) = true := by
    simpa using below
  refine ⟨fun ⟨x, mem, high⟩ => if_pos (List.any_eq_true.mpr ⟨x, mem, decide_eq_true high⟩), fun low => ?_, fun below ⟨x, mem, near⟩ => ?_⟩
  · have all : (hallTemps m).all (fun t => decide (t < thr - hyst)) = true := by simpa using low
    exact (if_neg (none_ fun x mem => by have := low x mem; omega)).trans (if_pos all)
  · have notAll : ¬ (hallTemps m).all (fun t => decide (t < thr - hyst)) = true := by
      intro all
      have := of_decide_eq_true (List.all_eq_true.mp all x mem)
      omega
    exact (if_neg (none_ below)).trans (if_neg notAll)

/-- Settles O32. -/
theorem issueDuty : Obligations.IssueDuty := by
  refine ⟨fun temps watts s up cooled => ?_, fun temps watts s down cooled => ?_, fun u i s up real sensor => ?_⟩
  · let s' : State := { s with power := { s.power with watts := watts } }
    obtain ⟨measured, halls⟩ := thermalUpdate_updates s' temps
    have entry := execDutyUpdate_up temps watts up cooled
    obtain ⟨c, capped, -, caps⟩ := capSteps_step (powerCap (thermalUpdate s' temps)) (thermalUpdate s' temps).power.watts (List.range 8) (thermalUpdate s' temps) List.nodup_range
    have power : (thermalUpdate s' temps).power = s'.power := by rw [measured.only]
    have cap : powerCap (thermalUpdate s' temps) = powerCap s := by rw [powerCap, powerCap, fld, fld, measured.cap]; rfl
    rw [← capStep_eq] at capped
    have mons (h : Nat) : getMon (capStep (thermalUpdate s' temps)) h = getMon (thermalUpdate s' temps) h := by rw [capped]; rfl
    refine ⟨capStep (thermalUpdate s' temps), entry, ?_, fun h real awake => ?_, fun u i x one real sensor => ?_⟩
    · have only := measured.only
      unfold recorded at only ⊢
      rw [capped, only]
    · obtain ⟨m, same, own⟩ := halls h real awake
      obtain ⟨hotter, cooler, between⟩ := thermalNext_cases m (thermalThr s' h) (thermalHyst s' h) (by unfold thermalHyst; omega)
      rw [mons, own]
      rw [same] at hotter cooler between
      refine ⟨hotter, cooler, between, ?_⟩
      have value : capValue (capStep (thermalUpdate s' temps)) h = c.get 16 h := by rw [capped]; rfl
      rw [value, caps h (List.mem_range.mpr real) (by rw [power]; exact awake), cap, power]
      rfl
    · subst one
      obtain ⟨later, kept⟩ := thermalUpdate_keeps s' [(u, i, x)]
      obtain ⟨-, -, taken⟩ := takeReading_takes s' (u, i, x)
      obtain ⟨own, flag⟩ := taken real sensor
      refine ⟨?_, fun out => ?_⟩
      · rw [mons, kept u, List.foldl_cons, List.foldl_nil, own]
        simp
      · rw [capped]
        exact later.errs u 3 real (by decide) (flag out)
  · exact (if_neg (by rw [cooled]; decide)).trans (if_pos (by rw [down]; rfl))
  · obtain ⟨measured, own, -, flag⟩ := sensorBad_flags s real i ((((getMon s u).temps.find i).map (·.1)).getD 0)
    refine ⟨_, if_neg ?_, measured.only, ?_, flag⟩
    · rw [up]
      simp
      omega
    · rw [own]
      simp

end Sys2Proof.Machine
end

section
/-! O33: rails, monitor records, stack counts (R316, R317, R332, R374, R406). -/

namespace Sys2Proof.Machine

/-! A spare's fault. -/

theorem sameRegs_pushRec {p : Page} (port : apart p pgHost) (s : State) (stream n : Nat) (b : List Byte) : sameRegs p s (pushRec s stream n b) :=
  fun _ ho => pushRec_regGet _ _ _ _ _ _ (port.ne ho (by decide)) (port.ne ho (by decide))

theorem sameRegs_abortProbe {p : Page} (port : apart p pgHost) (s : State) (k : Nat) : sameRegs p s (abortProbe s k) := by
  unfold abortProbe
  dsimp only
  split
  · exact .refl p s
  · exact .trans (t := putGal s k { getGal s k with probing := none }) (.of_regs rfl) (sameRegs_pushRec port _ 3 0xFFFF _)

theorem sameRegs_markFailed {p : Page} (port : apart p pgHost) (s : State) (k : Nat) : sameRegs p s (markFailed s k) := by
  unfold markFailed
  dsimp only
  split
  · exact .trans (.of_regs (t := putGal s k _) rfl) (sameRegs_logFault port _ _)
  · exact .of_regs rfl

theorem markFailed_gal_ne (s : State) {j k : Nat} (h : k ≠ j) : getGal (markFailed s j) k = getGal s k := by
  unfold markFailed
  dsimp only
  split
  · rw [getGal_congr (logFault_recorded ..).gals, getGal_putGal_ne s h]
  · exact getGal_putGal_ne s h _

/-- A spare that faults has failed, whatever recovery is open (R316). -/
theorem galleryFault_ofSpare {p : Page} (off : OffTraffic p) (s : State) {k : Nat} (code ns : Nat) (lease : Bool) (spare : (getGal s k).state = 1) :
    getGal (galleryFault s k code ns lease) k = { failedGal (getGal s k) with quar := true } ∧
      (∀ j, j ≠ k → getGal (galleryFault s k code ns lease) j = getGal s j) ∧ (galleryFault s k code ns lease).ctxs = s.ctxs ∧
      (galleryFault s k code ns lease).monitors = s.monitors ∧ sameRegs p s (galleryFault s k code ns lease) := by
  have begun := beginRecovery_noted s 3 (unitOfKey k) (deviceId s) code lease 0
  have begunRegs := sameRegs_beginRecovery off.port off.fault s 3 (unitOfKey k) (deviceId s) code lease 0
  have fault : galleryFault s k code ns lease = settleRecovery (recoveryWaits
      (modGal (markFailed (abortProbe (beginRecovery s 3 (unitOfKey k) (deviceId s) code lease) k) k) k (fun g => { g with quar := true })) [] ns) := by
    simp [galleryFault, spare]
  rw [fault]
  generalize beginRecovery s 3 (unitOfKey k) (deviceId s) code lease = b at *
  have failed : galsRecorded b (modGal (markFailed (abortProbe b k) k) k (fun g => { g with quar := true })) :=
    (abortProbe_galsRecorded b k).trans ((markFailed_galsRecorded _ k).trans (putGal_galsRecorded ..))
  have regs : sameRegs p b (modGal (markFailed (abortProbe b k) k) k (fun g => { g with quar := true })) :=
    (sameRegs_abortProbe off.port b k).trans ((sameRegs_markFailed off.port _ k).trans (.of_regs rfl))
  have own : getGal (modGal (markFailed (abortProbe b k) k) k (fun g => { g with quar := true })) k = { failedGal (getGal s k) with quar := true } := by
    rw [getGal_modGal, markFailed_gal, abortProbe_gal, getGal_congr begun.gals]
    rfl
  have others (j : Nat) (other : j ≠ k) : getGal (modGal (markFailed (abortProbe b k) k) k (fun g => { g with quar := true })) j = getGal s j := by
    rw [getGal_modGal_ne _ other, markFailed_gal_ne _ other, abortProbe_gal_ne _ other, getGal_congr begun.gals]
  generalize modGal (markFailed (abortProbe b k) k) k (fun g => { g with quar := true }) = f at *
  have settled := (recoveryWaits_noted f [] ns).trans (settleRecovery_noted _)
  refine ⟨?_, fun j other => ?_, ?_, ?_, ?_⟩
  · rw [getGal_congr settled.gals, own]
  · rw [getGal_congr settled.gals, others j other]
  · rw [settled.ctxs, failed.ctxs, begun.ctxs]
  · rw [settled, failed, begun]
  · exact begunRegs.trans (regs.trans (.trans (.of_regs (t := recoveryWaits f [] ns) rfl) (sameRegs_settleRecovery off.port off.fault _)))

/-! A rail. -/

/-- A rail outside its band: its voltage kept, logged, flagged (R406). -/
def railNoted (s : State) (u rail mv : Nat) : State :=
  setErr (logFault (putMon s u { getMon s u with volts := (getMon s u).volts.put 0 (rail % 256) mv })
    { kind := 6, device := deviceId (putMon s u { getMon s u with volts := (getMon s u).volts.put 0 (rail % 256) mv }), unit := rail, d0 := sat32 mv }) (pgMonitor u) 2

theorem railNoted_notes (s : State) {u : Nat} (rail mv : Nat) (real : u < 10) : Measured s (railNoted s u rail mv) ∧
    (getMon (railNoted s u rail mv) u).volts.get 0 (rail % 256) = mv ∧ bit (regGet (railNoted s u rail mv) (pgMonitor u) (errOff 0x1F)) 2 = true := by
  refine ⟨(measured_putMon ..).trans ((measured_logFault ..).trans (measured_setErr _ real 2)), ?_, monitorErr_bit _ real (by decide)⟩
  have mon : getMon (railNoted s u rail mv) u = { getMon s u with volts := (getMon s u).volts.put 0 (rail % 256) mv } :=
    (getMon_setErr ..).trans ((getMon_congr (by rw [logFault_recorded _ _]) u).trans (getMon_putMon s u _))
  rw [mon]
  exact SMap.get_put_same ..

theorem execRailFault_up {s : State} {u : Nat} (rail mv : Nat) (g : Option Nat) (up : deviceUp s = true) (real : u < 10) :
    execRailFault u rail mv g s = match g with
      | some k => if k < 8704 then .next (galleryFaultFree (railNoted s u rail mv) k cUnit) else .next (railNoted s u rail mv)
      | none => .next (declareLost (railNoted s u rail mv) (if u < 8 then hallUnit u else 0) cUnit) := by
  unfold execRailFault
  rw [if_neg (by rw [up]; simp; omega)]
  rfl

/-! Monitor records. -/

theorem sampleRings_samples (s : State) (u : Nat) : ∃ n m, sampleRings s u = { s with freeCtr := n, monitors := m } ∧
    (∀ v, v ≠ u → getMon (sampleRings s u) v = getMon s v) ∧ (getMon (sampleRings s u) u).temps = (getMon s u).temps ∧
    (getMon (sampleRings s u) u).volts = (getMon s u).volts := by
  have folds : ∀ (l : List Nat) (s : State), ∃ n m, l.foldl (fun s i =>
      let f := freeNext s
      putMon f.2 u { getMon f.2 u with freqs := (getMon f.2 u).freqs.insert i (f.1.toNat % 65536) }) s = { s with freeCtr := n, monitors := m } ∧
      (∀ v, v ≠ u → getMon { s with monitors := m } v = getMon s v) ∧ (getMon { s with monitors := m } u).temps = (getMon s u).temps ∧
      (getMon { s with monitors := m } u).volts = (getMon s u).volts := by
    intro l
    induction l with
    | nil => exact fun s => ⟨s.freeCtr, s.monitors, rfl, fun _ _ => rfl, rfl, rfl⟩
    | cons i l ih =>
      intro s
      obtain ⟨n, m, eq, others, temps, volts⟩ := ih (putMon (freeNext s).2 u { getMon (freeNext s).2 u with freqs := (getMon (freeNext s).2 u).freqs.insert i ((freeNext s).1.toNat % 65536) })
      refine ⟨n, m, eq, fun v other => (others v other).trans (getMon_putMon_ne (freeNext s).2 other _), temps.trans ?_, volts.trans ?_⟩
      · rw [getMon_putMon]; rfl
      · rw [getMon_putMon]; rfl
  unfold sampleRings
  split
  · exact ⟨s.freeCtr, s.monitors, rfl, fun _ _ => rfl, rfl, rfl⟩
  · obtain ⟨n, m, eq, others, temps, volts⟩ := folds (List.range (if u < 8 then 16 else 1)) s
    rw [eq]
    exact ⟨n, m, rfl, others, temps, volts⟩

theorem length_flatMap_const {α : Type} {f : α → List Byte} {k : Nat} (each : ∀ x, (f x).length = k) : ∀ l : List α, (l.flatMap f).length = k * l.length
  | [] => rfl
  | x :: l => by simp [List.flatMap_cons, each, length_flatMap_const each l, Nat.mul_add, Nat.add_comm]

/-- A record of a unit with at most 256 rails fits its ring (R373, R374). -/
theorem monitorBody_fits {s : State} {u : Nat} (few : (getMon s u).volts.length ≤ 256) : 16 + (monitorBody s u).length ≤ devRingBytes := by
  have rails : (if u < 8 ∧ bit s.power.asleep u = true then ({} : Monitor) else getMon s u).volts.length ≤ 256 := by
    split
    · exact Nat.zero_le _
    · exact few
  unfold monitorBody
  dsimp only
  generalize (if u < 8 ∧ bit s.power.asleep u = true then ({} : Monitor) else getMon s u) = m at *
  have volts : (m.volts.flatMap (fun e => natLe e.1 2 ++ natLe e.2 2)).length = 4 * m.volts.length := length_flatMap_const (fun e => by simp) _
  have temps (f : Nat → Nat) (n : Nat) : ((List.range n).flatMap (fun i => natLe (f i) 2)).length = 2 * n :=
    (length_flatMap_const (fun _ => natLe_length ..) _).trans (by rw [List.length_range])
  simp only [List.length_append, natLe_length, volts, temps, devRingBytes]
  omega

/-- One stack's count in the fault log (R332; log entry 116). -/
def ecsNoted (s : State) (x : Nat × Nat) : State := logFault s { kind := 6, device := deviceId s, unit := hallUnit x.2, d0 := sat32 x.1 }

/-- Settles O33. -/
theorem monitorsReport : Obligations.MonitorsReport := by
  refine ⟨fun u rail mv s up real here => ?_, fun u rail mv k s up real small spare => ?_, fun u s up real => ?_, fun cs x s => ⟨rfl, ?_⟩⟩
  · obtain ⟨measured, volts, flag⟩ := railNoted_notes s rail mv real
    have entry := execRailFault_up rail mv none up real
    dsimp only at entry
    have kept := measured.only
    generalize railNoted s u rail mv = e at *
    generalize (if u < 8 then hallUnit u else 0) = unit at entry
    obtain ⟨lost, fault⟩ := declareLost_lost (s := e) (by rw [kept]; exact here) unit cUnit
    obtain ⟨beat, mark, pin, same⟩ := declareLost_keeps e unit cUnit
    have mons : (declareLost e unit cUnit).monitors = e.monitors := (congrArg State.monitors same :)
    obtain ⟨-, ctxs, gals, -⟩ := declareLost_leaves e unit cUnit
    refine ⟨_, entry, ?_, ?_, lost, fault, ?_, ?_⟩
    · rw [getMon_congr mons, volts]
    · rw [(offTraffic_monitor real).declareLost e unit cUnit _ (by decide)]
      exact flag
    · rw [ctxs, kept]
    · rw [gals, kept]
  · obtain ⟨measured, volts, flag⟩ := railNoted_notes s rail mv real
    have entry := execRailFault_up rail mv (some k) up real
    dsimp only at entry
    rw [if_pos small] at entry
    have kept := measured.only
    generalize railNoted s u rail mv = e at *
    have gals : e.gals = s.gals := by rw [kept]
    obtain ⟨own, others, ctxs, mons, regs⟩ := galleryFault_ofSpare (offTraffic_monitor real) (freeNext e).2 cUnit ((freeNext e).1.toNat % (classBound 3 + 1)) false
      (show (getGal e k).state = 1 by rw [getGal_congr gals]; exact spare)
    refine ⟨_, entry, ?_, ?_, ?_, ?_, ?_, fun j other => ?_⟩
    · exact (congrArg (fun m : Monitor => m.volts.get 0 (rail % 256)) (getMon_congr mons u)).trans volts
    · exact (congrArg (bit · 2) (regs (errOff 0x1F) (by decide))).trans flag
    · refine (congrArg Gallery.state own).trans ?_
      show (if 3 ≤ (getGal e k).fails + 1 then 5 else 3) = _
      rw [getGal_congr gals]
    · exact congrArg Gallery.quar own
    · exact ctxs.trans (by rw [freeNext_ctxs, kept])
    · exact (others j other).trans (getGal_congr gals j)
  · obtain ⟨n, m, eq, others, temps, volts⟩ := sampleRings_samples s u
    have entry : execMonitorRecord u s = .next (pushRec (sampleRings s u) 4 0xFFFF (monitorBody (sampleRings s u) u)) := if_neg (by rw [up]; simp; omega)
    have fits (few : (getMon s u).volts.length ≤ 256) : 16 + (monitorBody (sampleRings s u) u).length ≤ devRingBytes := monitorBody_fits (by rw [volts]; exact few)
    rw [eq] at entry others temps volts fits
    have pushed : recorded { s with freeCtr := n, monitors := m } (pushRec { s with freeCtr := n, monitors := m } 4 0xFFFF (monitorBody { s with freeCtr := n, monitors := m } u)) := by
      obtain ⟨r, e, d, only⟩ := pushRec_only { s with freeCtr := n, monitors := m } 4 0xFFFF (monitorBody { s with freeCtr := n, monitors := m } u)
      rw [only]
      rfl
    have last (few : (getMon s u).volts.length ≤ 256) := lastRec_pushRec { s with freeCtr := n, monitors := m } 4 0xFFFF (fits few)
    refine ⟨_, entry, ?_⟩
    generalize pushRec { s with freeCtr := n, monitors := m } 4 0xFFFF (monitorBody { s with freeCtr := n, monitors := m } u) = t at *
    have mons : t.monitors = m := by rw [pushed]
    have same (v : Nat) : getMon t v = getMon { s with freeCtr := n, monitors := m } v := getMon_congr mons v
    refine ⟨?_, fun v other => (same v).trans (others v other), by rw [same]; exact temps, by rw [same]; exact volts, fun few => ?_⟩
    · unfold recorded at pushed ⊢
      rw [pushed]
    · rw [last few, mons]
      rfl
  · have fold (l : List Nat) : exec (.ecsRead l) s = .next (l.zipIdx.foldl ecsNoted s) := rfl
    have records : ∀ (l : List (Nat × Nat)) (s : State), recorded s (l.foldl ecsNoted s) ∧ deviceId (l.foldl ecsNoted s) = deviceId s := by
      intro l
      induction l with
      | nil => exact fun s => ⟨.refl s, rfl⟩
      | cons e l ih =>
        intro s
        obtain ⟨rec_, dev⟩ := ih (ecsNoted s e)
        have own : deviceId (ecsNoted s e) = deviceId s := by
          rw [deviceId, deviceId, ecsNoted, logFault_regGet _ _ _ _ (by decide) (by decide)]
        exact ⟨(logFault_recorded ..).trans rec_, dev.trans own⟩
    obtain ⟨before, dev⟩ := records cs.zipIdx s
    have last : (cs ++ [x]).zipIdx = cs.zipIdx ++ [(x, cs.length)] := by simp [List.zipIdx_append]
    refine ⟨cs.zipIdx.foldl ecsNoted s, ecsNoted (cs.zipIdx.foldl ecsNoted s) (x, cs.length), fold cs, ?_, rfl, before.trans (logFault_recorded ..), ?_⟩
    · rw [fold, last, List.foldl_append]
      rfl
    · refine (lastRec_pushRec _ 2 0xFFFF ?_).trans ?_
      · simp [faultBody]
        decide
      · have tick : (cs.zipIdx.foldl ecsNoted s).power.tick = s.power.tick := by rw [before]
        rw [tick, dev]
        rfl

end Sys2Proof.Machine
end

section
/-! O34: gates and halls (R395-R397, R432). -/

namespace Sys2Proof.Machine

/-- RN_ERR of the reference generator, where a failed self-test is flagged (R180). -/
def katWord (s : State) : Nat := regGet s pgReference Reg.RN_ERR

theorem offTraffic_reference : OffTraffic pgReference :=
  offTraffic_of (.inl (by decide)) (.inl (by decide)) (.inl (by decide)) (.inl (by decide))

theorem katWord_same {s t : State} (h : sameRegs pgReference s t) : katWord t = katWord s := h _ (by decide)

@[simp] theorem katWord_mk (s : State) (pending : List Instr) (freeCtr : Nat) (gals : SMap Gallery) (queues ran : SMap (List QEntry)) (pegs : SMap Peg)
    (pegRefs : SMap WoDone) (nextRef : Nat) (fence lostDevs : List Nat) (recovery : Option Recovery) (twin : TwinSt) (ec : EventCtl) (host : HostPort) (ctxs : SMap Ctx)
    (links : SMap Link) (router : Router) (power : Power) (monitors : SMap Monitor) (boot : Boot) (mem : SMap MemCtl) (gauge : GaugeEng) (silent : Silent) (digests : SMap (List (Nat × Nat × Nat))) (early : List ExPkt) (update : UpdateSt) (out : List Out) :
    katWord { s with
      pending := pending,
      freeCtr := freeCtr, gals := gals, queues := queues, ran := ran, pegs := pegs, pegRefs := pegRefs, nextRef := nextRef, fence := fence, lostDevs := lostDevs, recovery := recovery,
      twin := twin, ec := ec, host := host, ctxs := ctxs, links := links, router := router, power := power, monitors := monitors, boot := boot, mem := mem, gauge := gauge, silent := silent, digests := digests, early := early, update := update,
      out := out } = katWord s := rfl

@[simp] theorem katWord_foldl {α : Type} {f : State → α → State} (keeps : ∀ s x, katWord (f s x) = katWord s) (l : List α) (s : State) :
    katWord (l.foldl f s) = katWord s := by
  induction l generalizing s with
  | nil => rfl
  | cons x l ih => rw [List.foldl_cons, ih, keeps]

theorem katWord_regSet (s : State) {p : Page} (o v : Nat) (inPage : o < 0x1000) (away : apart pgReference p) : katWord (regSet s p o v) = katWord s :=
  katWord_same (.regSet s v away inPage)

theorem katWord_setErr (s : State) {p : Page} (i : Nat) (away : apart pgReference p) (inPage : errOff p.kind < 0x1000) : katWord (setErr s p i) = katWord s :=
  katWord_same (.setErr s i away offTraffic_reference.port inPage)

@[simp] theorem katWord_setErr_step (s : State) (i : Nat) : katWord (setErr s pgStep i) = katWord s := katWord_setErr s i (.inl (by decide)) (by decide)

@[simp] theorem katWord_setErr_fault (s : State) (i : Nat) : katWord (setErr s pgFault i) = katWord s := katWord_setErr s i (.inl (by decide)) (by decide)

@[simp] theorem katWord_setErr_scribe (s : State) (i : Nat) : katWord (setErr s pgScribe i) = katWord s := katWord_setErr s i (.inl (by decide)) (by decide)

@[simp] theorem katWord_commits (s : State) : katWord (bumpWrap s pgStep Reg.ST_COMMITS 1) = katWord s :=
  katWord_same (.bumpWrap s 1 (.inl (by decide)) (by decide))

@[simp] theorem katWord_sendRouted (s : State) (dst tc proto n : Nat) (m : Msg) : katWord (sendRouted s dst tc proto n m) = katWord s :=
  katWord_same (offTraffic_reference.sendRouted s dst tc proto n m)

@[simp] theorem katWord_beginRecovery (s : State) (cls unit dev code : Nat) (lease : Bool) (addr : Nat) :
    katWord (beginRecovery s cls unit dev code lease addr) = katWord s :=
  katWord_same (sameRegs_beginRecovery offTraffic_reference.port offTraffic_reference.fault s cls unit dev code lease addr)

@[simp] theorem katWord_settleRecovery (s : State) : katWord (settleRecovery s) = katWord s :=
  katWord_same (sameRegs_settleRecovery offTraffic_reference.port offTraffic_reference.fault _)

@[simp] theorem katWord_declareLost (s : State) (unit code : Nat) : katWord (declareLost s unit code) = katWord s :=
  katWord_same (offTraffic_reference.declareLost s unit code)

@[simp] theorem katWord_putCtx (s : State) (n : Nat) (c : Ctx) : katWord (putCtx s n c) = katWord s := rfl

@[simp] theorem katWord_modCtx (s : State) (n : Nat) (f : Ctx → Ctx) : katWord (modCtx s n f) = katWord s := rfl

@[simp] theorem katWord_putGal (s : State) (k : Nat) (g : Gallery) : katWord (putGal s k g) = katWord s := rfl

@[simp] theorem katWord_modGal (s : State) (k : Nat) (f : Gallery → Gallery) : katWord (modGal s k f) = katWord s := rfl

@[simp] theorem katWord_putSrc (s : State) (n : Nat) (x : Source) : katWord (putSrc s n x) = katWord s := rfl

@[simp] theorem katWord_setLine (s : State) (n : Nat) (lvl : Bool) : katWord (setLine s n lvl) = katWord s := rfl

@[simp] theorem katWord_updateLine (s : State) (p : Page) : katWord (updateLine s p) = katWord s := by
  unfold updateLine
  split <;> simp

@[simp] theorem katWord_pushRec (s : State) (stream ctx : Nat) (body : List Byte) : katWord (pushRec s stream ctx body) = katWord s :=
  katWord_same (sameRegs_pushRec offTraffic_reference.port s stream ctx body)

@[simp] theorem katWord_logFault (s : State) (r : FaultRec) : katWord (logFault s r) = katWord s := by simp [logFault]

@[simp] theorem katWord_emit (s : State) (o : Out) : katWord (emit s o) = katWord s := rfl

theorem katWord_sendOn (s : State) {link : Nat} (real : link < 48) (dst tc proto n : Nat) (dateline : Bool) (m : Msg) :
    katWord (sendOn s link dst tc proto n dateline m) = katWord s := by
  have flits (l : List Flit) (t : State) : katWord (l.foldl (fun s f => enqueueFlit s link { f with vc := bnat dateline }) t) = katWord t :=
    katWord_foldl (fun t f => katWord_same (offTraffic_reference.enqueueFlit t real _)) l t
  exact flits _ _

@[simp] theorem katWord_sendNear (s : State) (dst tc proto n : Nat) (m : Msg) : katWord (sendNear s dst tc proto n m) = katWord s := by
  unfold sendNear
  split
  · rfl
  · split
    · next found => exact katWord_sendOn s (linkTo_lt found) ..
    · exact katWord_sendRouted ..

@[simp] theorem katWord_sendBundle (s : State) (dst tc proto n : Nat) (m : Msg) : katWord (sendBundle s dst tc proto n m) = katWord s := by
  unfold sendBundle
  split
  · next found => exact katWord_sendOn s (linkTo_lt found) ..
  · exact katWord_sendRouted ..



@[simp] theorem katWord_abortProbe (s : State) (k : Nat) : katWord (abortProbe s k) = katWord s := by
  unfold abortProbe
  dsimp only
  split <;> simp

@[simp] theorem katWord_leaveService (s : State) (k : Nat) (quar hold : Bool) : katWord (leaveService s k quar hold) = katWord s := rfl

@[simp] theorem katWord_enterSlot (s : State) (k slot : Nat) : katWord (enterSlot s k slot) = katWord s := by simp [enterSlot]

@[simp] theorem katWord_fillSlot (s : State) (h a slot : Nat) (spare : Option Nat) : katWord (fillSlot s h a slot spare).1 = katWord s := by
  unfold fillSlot
  repeat' split
  all_goals simp only [katWord_enterSlot, katWord_modGal]

@[simp] theorem katWord_swapOut (s : State) (k : Nat) (quar hold : Bool) : katWord (swapOut s k quar hold).1 = katWord s := by simp [swapOut]

@[simp] theorem katWord_putPeg (s : State) (k : Nat) (p : Peg) : katWord (putPeg s k p) = katWord s := rfl

@[simp] theorem katWord_updateGroup (s : State) (k : Nat) : katWord (updateGroup s k) = katWord s := rfl

@[simp] theorem katWord_addDone (s : State) (d : WoDone) : katWord (addDone s d) = katWord s := rfl

@[simp] theorem katWord_endWait (status : Nat) (s : State) (x : PegWait) : katWord (endWait status s x) = katWord s := by
  unfold endWait
  repeat' split
  all_goals simp only [katWord_sendRouted, katWord_addDone]

@[simp] theorem katWord_settlePeg (s : State) (k : Nat) : katWord (settlePeg s k) = katWord s := by
  unfold settlePeg
  dsimp only
  split <;> simp

theorem katWord_setErr_peg (s : State) (k i : Nat) : katWord (setErr s (pegPg k) i) = katWord s :=
  katWord_setErr s i (.inl (by simp only [pegPg, pgPeg, hallBase, pgReference]; omega)) (show errOff 0x34 < 0x1000 by decide)

@[simp] theorem katWord_applyPeg (s : State) (k : Nat) (op : PegOp) (v : Nat) (x : PegWait) : katWord (applyPeg s k op v x).s = katWord s := by
  cases op with
  | arrive =>
    simp only [applyPeg]
    split
    · rfl
    · rw [katWord_settlePeg]
      generalize (getPeg s k).count + _ = c
      split
      · rw [katWord_setErr_peg, katWord_putPeg]
      · rw [katWord_putPeg]
  | wait =>
    simp only [applyPeg]
    split <;> simp
  | set | reset => simp [applyPeg]
  | query => rfl

@[simp] theorem katWord_pegOpOn (s : State) (k tag : Nat) (op : PegOp) (v : Nat) (x : PegWait) : katWord (pegOpOn s k tag op v x).s = katWord s := by
  simp only [pegOpOn]
  repeat' split
  all_goals simp only [katWord_setErr_peg, katWord_applyPeg]

@[simp] theorem katWord_freePeg (status : Nat) (s : State) (k : Nat) : katWord (freePeg status s k) = katWord s := by simp [freePeg]

@[simp] theorem katWord_closePeg (s : State) (k : Nat) : katWord (closePeg s k) = katWord s := rfl

@[simp] theorem katWord_freePegs (s : State) (c : Ctx) (keepCommit : Bool) : katWord (freePegs s c keepCommit) = katWord s := by simp [freePegs]

theorem katWord_owner (s : State) {p : Page} (tag : Nat) (hall : 0x08000000 ≤ p.base) : katWord (regSet s p Reg.OWNER tag) = katWord s :=
  katWord_regSet s Reg.OWNER tag (by decide) (.inl (Nat.le_trans (by decide) hall))

@[simp] theorem katWord_setOwner (tag : Nat) (s : State) (m : Slot) : katWord (setOwner tag s m) = katWord s := by
  unfold setOwner
  split
  · simp only [List.foldl_cons, List.foldl_nil]
    rw [katWord_owner, katWord_owner, katWord_owner, katWord_modGal]
    all_goals simp only [pgFArray, pgLanding, pgBArray, aisleBase, hallBase]; omega
  · rfl

@[simp] theorem katWord_ownFrames (s : State) (c : Ctx) (tag : Nat) : katWord (ownFrames s c tag) = katWord s := by simp [ownFrames]

@[simp] theorem katWord_releaseActive (s : State) (n : Nat) : katWord (releaseActive s n) = katWord s := by simp [releaseActive]

@[simp] theorem katWord_retarget (s : State) (n : Nat) : katWord (retarget s n) = katWord s := by
  unfold retarget
  dsimp only
  split
  · rfl
  · refine katWord_foldl (fun s e => ?_) _ s
    split <;> simp

@[simp] theorem katWord_suspendNoFit (s : State) (n : Nat) : katWord (suspendNoFit s n) = katWord s := by simp [suspendNoFit]

@[simp] theorem katWord_replaceCtx (h a slot : Nat) (s : State) (n : Nat) : katWord (replaceCtx h a slot s n) = katWord s := by
  unfold replaceCtx
  dsimp only
  split <;> simp

@[simp] theorem katWord_replaceSlot (s : State) (h a : Nat) (x : Option Nat) : katWord (replaceSlot s h a x) = katWord s := by
  unfold replaceSlot
  split <;> simp

@[simp] theorem katWord_swapGallery (s : State) (k : Nat) (quar hold : Bool) : katWord (swapGallery s k quar hold) = katWord s := by
  unfold swapGallery
  dsimp only
  repeat' split
  all_goals simp

@[simp] theorem katWord_sendPegOp (s : State) (n dev peg op value : Nat) (cause : Cause) (step : Nat) : katWord (sendPegOp s n dev peg op value cause step) = katWord s := by
  unfold sendPegOp
  dsimp only
  repeat' split
  all_goals simp

@[simp] theorem katWord_modAttempt (s : State) (n : Nat) (f : Attempt → Attempt) : katWord (modAttempt s n f) = katWord s := rfl

@[simp] theorem katWord_arriveAll (s : State) (n i : Nat) (cause : Cause) : katWord (arriveAll s n i cause) = katWord s := by
  unfold arriveAll
  dsimp only
  split
  · rw [katWord_foldl fun s d => katWord_sendPegOp .., katWord_modAttempt]
    split <;> simp
  · rfl

@[simp] theorem katWord_stopWork (s : State) (n : Nat) : katWord (stopWork s n) = katWord s := rfl

@[simp] theorem katWord_tryArrive (s : State) (n : Nat) : katWord (tryArrive s n) = katWord s := by
  unfold tryArrive
  dsimp only
  repeat' split
  all_goals simp

@[simp] theorem katWord_shadowCommit (s : State) (n : Nat) : katWord (shadowCommit s n) = katWord s := by
  unfold shadowCommit
  dsimp only
  split <;> simp

@[simp] theorem katWord_shadowRevert (s : State) (n : Nat) : katWord (shadowRevert s n) = katWord s := rfl

@[simp] theorem katWord_commitPoint (s : State) (n : Nat) : katWord (commitPoint s n) = katWord s := by
  unfold commitPoint
  dsimp only
  repeat' split
  all_goals simp

@[simp] theorem katWord_decideEnd (s : State) (n : Nat) : katWord (decideEnd s n) = katWord s := by
  unfold decideEnd
  dsimp only
  repeat' split
  all_goals simp

@[simp] theorem katWord_finishDecision (s : State) (n : Nat) : katWord (finishDecision s n) = katWord s := by
  unfold finishDecision
  dsimp only
  repeat' split
  all_goals simp

@[simp] theorem katWord_beginDecision (s : State) (n : Nat) : katWord (beginDecision s n) = katWord s := by
  unfold beginDecision
  dsimp only
  repeat' split
  all_goals simp

@[simp] theorem katWord_commitWatch (s : State) (n : Nat) : katWord (commitWatch s n) = katWord s := by
  unfold commitWatch
  dsimp only
  repeat' split
  all_goals simp

@[simp] theorem katWord_progress (s : State) (n : Nat) : katWord (progress s n) = katWord s := by simp [progress]

@[simp] theorem katWord_addCause (s : State) (n code device : Nat) : katWord (addCause s n code device) = katWord s := by
  unfold addCause
  dsimp only
  repeat' split
  all_goals simp

@[simp] theorem katWord_endAttempt (s : State) (n code : Nat) : katWord (endAttempt s n code) = katWord s := by simp [endAttempt]

@[simp] theorem katWord_recoveryWaits (s : State) (ns : List Nat) (t : Nat) : katWord (recoveryWaits s ns t) = katWord s := rfl

@[simp] theorem katWord_fence (s : State) (tag : Nat) : katWord (Machine.fence s tag) = katWord s := by
  unfold Machine.fence
  split
  · rfl
  · split
    · rw [katWord_declareLost, katWord_setErr_fault]
    · rfl

@[simp] theorem katWord_failMember (s : State) (n h a slot : Nat) : katWord (failMember s n h a slot) = katWord s := by
  unfold failMember
  split
  · rfl
  · refine katWord_foldl (fun s k => ?_) _ s
    change katWord (List.foldl _ s _) = katWord s
    exact katWord_foldl (fun t e => katWord_addDone t _) _ s

@[simp] theorem katWord_hitTraining (s : State) (n code : Nat) : katWord (hitTraining s n code) = katWord s := by
  unfold hitTraining
  dsimp only
  split <;> simp

@[simp] theorem katWord_markFailed (s : State) (k : Nat) : katWord (markFailed s k) = katWord s := by
  unfold markFailed
  dsimp only
  split <;> simp

@[simp] theorem katWord_galleryFault (s : State) (k code ns : Nat) (lease : Bool) : katWord (galleryFault s k code ns lease) = katWord s := by
  unfold galleryFault
  dsimp only
  split
  · rw [katWord_settleRecovery, katWord_recoveryWaits, katWord_foldl, katWord_modGal, katWord_swapGallery, katWord_foldl, katWord_foldl, katWord_beginRecovery]
    · exact katWord_fence
    · intro s n
      split <;> simp
    · intro s n
      split <;> simp
  · rw [katWord_settleRecovery, katWord_recoveryWaits]
    split <;> simp

theorem katWord_galleryFaultFree (s : State) (k code : Nat) : katWord (galleryFaultFree s k code) = katWord s := by
  simp only [galleryFaultFree, katWord_galleryFault]
  rfl

/-- A self-test that fails is flagged (R180, R395). -/
theorem katFail_bit (s : State) : bit (katWord (katFail s)) 0 = true :=
  setErr_bit_apart _ pgReference (by decide) (by decide) (by decide) offTraffic_reference.port

/-! Galleries of a hall made dark. -/

/-- A gallery whose gate is closed (R395). -/
def darkened (g : Gallery) : Gallery := { g with powered := false }

theorem mem_hallGals {h k : Nat} : k ∈ (List.range 16).flatMap (aisleGals h) ↔ keyHall k = h := by
  simp only [List.mem_flatMap, List.mem_range, aisleGals, List.mem_map, galKey, keyHall]
  constructor
  · rintro ⟨a, ha, g, hg, rfl⟩
    omega
  · rintro rfl
    exact ⟨k / 68 % 16, by omega, k % 68, by omega, by omega⟩

theorem modGals_only (f : Nat → Gallery → Gallery) (l : List Nat) (s : State) :
    l.foldl (fun s k => modGal s k (f k)) s = { s with gals := (l.foldl (fun s k => modGal s k (f k)) s).gals } := by
  induction l generalizing s with
  | nil => rfl
  | cons k l ih =>
    rw [List.foldl_cons, ih]
    rfl

theorem modHallGals_only (s : State) (h : Nat) (f : Nat → Gallery → Gallery) : modHallGals s h f = { s with gals := (modHallGals s h f).gals } :=
  modGals_only f _ s

theorem getGal_darkened (j : Nat) : ∀ (l : List Nat) (s : State),
    getGal (l.foldl (fun s k => modGal s k darkened) s) j = if j ∈ l then darkened (getGal s j) else getGal s j
  | [], s => rfl
  | k :: l, s => by
    rw [List.foldl_cons, getGal_darkened j l]
    by_cases here : j = k
    · subst here
      rw [getGal_modGal, if_pos List.mem_cons_self]
      exact ite_self _
    · rw [getGal_modGal_ne s here]
      exact if_congr (by rw [List.mem_cons, or_iff_right here]) rfl rfl

theorem getGal_hallDark (s : State) (h j : Nat) :
    getGal (modHallGals s h fun _ => darkened) j = if keyHall j = h then darkened (getGal s j) else getGal s j := by
  unfold modHallGals
  rw [getGal_darkened, if_congr mem_hallGals rfl rfl]

/-! The commands. -/

/-- A gate closes: the pages go off, the gallery is dark (R395). -/
theorem gateIdle_closes (s : State) (k : Nat) (which : Page → Bool) :
    let t := modGal (powerOffPages s which) k darkened
    recorded { s with gals := t.gals } t ∧ getGal t k = darkened (getGal s k) ∧ ∀ j, j ≠ k → getGal t j = getGal s j := by
  have kept := (powerOffPages_records s which).1
  have same (j : Nat) : getGal (powerOffPages s which) j = getGal s j := getGal_congr kept.gals j
  refine ⟨?_, by rw [getGal_modGal, same], fun j other => by rw [getGal_modGal_ne _ other, same]⟩
  generalize powerOffPages s which = o at kept
  rw [kept]
  rfl

/-- A hall in self-refresh (R396). -/
def refreshed (s : State) (h : Nat) (on : Bool) : State := putMc s h { getMc s h with refresh := on }

/-- The hall of a bit of PW_ASLEEP goes to sleep (R396). -/
def fallenAsleep (s : State) (h : Nat) : State := { s with power := { s.power with asleep := s.power.asleep ||| 2 ^ h } }

theorem fallenAsleep_gal (s : State) (h k : Nat) : getGal (fallenAsleep s h) k = getGal s k := getGal_congr (s := s) (t := fallenAsleep s h) rfl k

theorem fallenAsleep_mc (s : State) (h k : Nat) : getMc (fallenAsleep s h) k = getMc s k := getMc_congr (s := s) (t := fallenAsleep s h) rfl k

/-- A hall that goes to sleep (R396). -/
def hallSlept (s : State) (h : Nat) : State :=
  fallenAsleep (modHallGals (powerOffPages (refreshed s h true) (fun p => p.hall == some h)) h fun _ => darkened) h

theorem bit_or_set (x h i : Nat) : bit (x ||| 2 ^ h) i = (bit x i || i == h) := by
  rw [bit_eq_testBit, bit_eq_testBit, Nat.testBit_or, Nat.testBit_two_pow]
  by_cases here : i = h <;> simp [here, Ne.symm]

/-- What sleep leaves (R396). -/
theorem hallSlept_sleeps {s t : State} {h : Nat} (slept : t = hallSlept s h) :
    recorded { s with gals := t.gals, mem := t.mem, power := { s.power with asleep := t.power.asleep } } t ∧
      (∀ i, bit t.power.asleep i = (bit s.power.asleep i || i == h)) ∧ getMc t h = { getMc s h with refresh := true } ∧
      ∀ k, getGal t k = if keyHall k = h then darkened (getGal s k) else getGal s k := by
  rw [hallSlept] at slept
  have kept := (powerOffPages_records (refreshed s h true) fun p => p.hall == some h).1
  generalize powerOffPages (refreshed s h true) (fun p => p.hall == some h) = o at *
  have only := modHallGals_only o h fun _ => darkened
  have dark := getGal_hallDark o h
  generalize modHallGals o h (fun _ => darkened) = u at *
  have power : u.power = s.power := by rw [only, kept]; rfl
  have mem : u.mem = (refreshed s h true).mem := by rw [only]; exact kept.mem
  subst slept
  refine ⟨?_, fun i => ?_, ?_, fun k => ((fallenAsleep_gal u h k).trans (dark k)).trans ?_⟩
  · rw [only, kept]
    rfl
  · show bit (u.power.asleep ||| 2 ^ h) i = _
    rw [power, bit_or_set]
  · rw [fallenAsleep_mc, getMc_congr mem]
    exact getMc_putMc ..
  · rw [show getGal o k = getGal s k from getGal_congr kept.gals k]

/-- A hall marked awake, with its cap (R397, R407). -/
def risen (s : State) (h cap : Nat) : State :=
  { s with power := { s.power with asleep := setBits s.power.asleep h h 0, waking := setBits s.power.waking h h 0, capValue := s.power.capValue.put 16 h cap } }

/-- A hall awake: its stacks out of self-refresh, its galleries powered, a late wake flagged (R397). -/
def hallRisen (s : State) (h cap ns : Nat) (f : Nat → Gallery → Gallery) : State :=
  let u := modHallGals (refreshed (risen s h cap) h false) h f
  if 60000 < ns then setErr u pgPower 5 else u

theorem hallRisen_wakes (s : State) (h cap ns : Nat) (f : Nat → Gallery → Gallery) :
    let t := hallRisen s h cap ns f
    recorded { s with gals := t.gals, mem := t.mem, power := { s.power with asleep := t.power.asleep, waking := t.power.waking, capValue := t.power.capValue } } t ∧
      bit t.power.asleep h = false ∧ bit t.power.waking h = false ∧ getMc t h = { getMc s h with refresh := false } ∧
      (60000 < ns → bit (regGet t pgPower Reg.PW_ERR) 5 = true) := by
  intro t
  have only := modHallGals_only (refreshed (risen s h cap) h false) h f
  have flagged : t = if 60000 < ns then setErr (modHallGals (refreshed (risen s h cap) h false) h f) pgPower 5 else modHallGals (refreshed (risen s h cap) h false) h f := rfl
  generalize modHallGals (refreshed (risen s h cap) h false) h f = u at *
  have kept : recorded u t := by
    rw [flagged]
    split
    · exact setErr_recorded ..
    · exact .refl u
  have power : t.power = (risen s h cap).power := by rw [kept, only]; rfl
  have mem : t.mem = (refreshed (risen s h cap) h false).mem := by rw [kept, only]
  refine ⟨?_, ?_, ?_, ?_, fun late => ?_⟩
  · clear_value t
    rw [kept, only]
    rfl
  · rw [power]
    exact (bit_setBits_zero s.power.asleep h h).trans (by simp)
  · rw [power]
    exact (bit_setBits_zero s.power.waking h h).trans (by simp)
  · exact (getMc_congr mem h).trans (getMc_putMc ..)
  · rw [flagged, if_pos late]
    exact powerErr_bit u (by decide)

/-- Settles O34: gates through the pages that go off, halls through the galleries that go dark, a failed self-test through the frame of a gallery's fault. -/
theorem gatesAndHalls : Obligations.GatesAndHalls := by
  unfold Obligations.GatesAndHalls
  refine ⟨fun h a g s hh ha hg up awake => ?_, fun h s hh up => ?_⟩
  · intro k
    have gate : exec (.gateIdle h a g) s = execGateIdle h a g s := rfl
    have idle : exec (.gateIdle h a g) s = if mayGate s k then
        .next (modGal (powerOffPages s (fun p => pageGal p == some k)) k darkened) else .next s := by
      rw [gate, execGateIdle, Nat.mod_eq_of_lt hh, Nat.mod_eq_of_lt ha, Nat.mod_eq_of_lt hg, up, awake]
      rfl
    have opened (ok : Bool) : exec (.gateOpen h a g ok) s = if wakeKat (putGal s k { getGal s k with powered := true }) && !ok then
        .next (galleryFaultFree (katFail (putGal s k { getGal s k with powered := true })) k cUnit) else .next (putGal s k { getGal s k with powered := true }) := by
      show execGateOpen h a g ok s = _
      rw [execGateOpen, Nat.mod_eq_of_lt hh, Nat.mod_eq_of_lt ha, Nat.mod_eq_of_lt hg, up, awake]
      rfl
    have sameKat : wakeKat (putGal s k { getGal s k with powered := true }) = wakeKat s := rfl
    refine ⟨fun may => ⟨_, idle.trans (if_pos may), gateIdle_closes s k _⟩, fun mayNot => idle.trans (if_neg (by rw [mayNot]; decide)), fun ok fine => ?_, fun kat => ?_⟩
    · refine (opened ok).trans (if_neg ?_)
      rw [sameKat]
      rcases fine with rfl | off
      · simp
      · simp [off]
    · refine ⟨_, (opened false).trans (if_pos ?_), ?_⟩
      · rw [sameKat, kat]
        rfl
      · have flagged := katFail_bit (putGal s k { getGal s k with powered := true })
        rw [← katWord_galleryFaultFree _ k cUnit] at flagged
        exact flagged
  · have sleeps : exec (.hallIdle h) s = if maySleep s h then .next (hallSlept s h) else .next s := by
      show execHallIdle h s = _
      have dark : (fun (_ : Nat) (g : Gallery) => { g with powered := false }) = fun _ => darkened := rfl
      simp only [execHallIdle, dark, Nat.mod_eq_of_lt hh, up, Bool.true_and, hallSlept, fallenAsleep, refreshed]
    have wakes (ns : Nat) (x : WakeTests) : exec (.hallWakeDone h ns x) s = execHallWakeDone h ns x s := rfl
    refine ⟨fun may => ?_, fun mayNot => sleeps.trans (if_neg (by rw [mayNot]; decide)), fun ns x slept waking fine => ?_, fun ns x notYet => ?_⟩
    · obtain ⟨only, bits, mem, dark⟩ := hallSlept_sleeps (s := s) (h := h) rfl
      exact ⟨_, sleeps.trans (if_pos may), only, bits, mem, fun k _ => dark k⟩
    · refine ⟨_, ?_, hallRisen_wakes s h (wakeCap s) ns fun k g => if g.state = 1 ∨ g.testing = true ∨
        (ownerOf (risen s h (wakeCap s)) k).isSome then { g with powered := true } else g⟩
      rw [wakes, execHallWakeDone, Nat.mod_eq_of_lt hh, up, slept, waking]
      refine (if_neg (by decide)).trans ?_
      rcases fine with ⟨engine, none⟩ | off
      · rw [engine, none]
        simp only [List.contains_nil, Bool.false_and, List.filter_false, List.foldl_nil, if_true]
        exact ite_self _
      · exact if_pos (by rw [off]; rfl)
    · rw [wakes, execHallWakeDone, Nat.mod_eq_of_lt hh, up]
      rcases notYet with here | here <;> simp [here]

end Sys2Proof.Machine
end

section
/-! O28: READY commits the running image, counter and revocations (R404, R413, R415). -/

namespace Sys2Proof.Machine

/-! What Riendin's last steps of a boot carry over. -/

/-- Contexts, network and the boot's record are carried over, the packs and the mapping apart. -/
structure Carried (s t : State) : Prop where
  ctxs : t.ctxs = s.ctxs
  net : t.host.net = s.host.net
  boot : t.boot = { s.boot with packs := t.boot.packs, mapped := t.boot.mapped }

theorem Carried.refl (s : State) : Carried s s := ⟨rfl, rfl, rfl⟩

theorem Carried.trans {s t u : State} (h : Carried s t) (k : Carried t u) : Carried s u := ⟨k.ctxs.trans h.ctxs, k.net.trans h.net, by rw [k.boot, h.boot]⟩

theorem galsRecorded.carried {s t : State} (h : galsRecorded s t) : Carried s t := by
  rw [h]
  exact ⟨rfl, rfl, rfl⟩

theorem recorded.carried {s t : State} (h : recorded s t) : Carried s t := h.galsRecorded.carried

theorem carried_boot (s : State) (packs : List Pack) (mapped : Bool) : Carried s { s with
    boot := { s.boot with
      packs := packs
      mapped := mapped } } := ⟨rfl, rfl, rfl⟩

theorem Carried.foldl {α : Type} {f : State → α → State} (each : ∀ s x, Carried s (f s x)) (l : List α) (s : State) : Carried s (l.foldl f s) := by
  induction l generalizing s with
  | nil => exact .refl s
  | cons x l ih => exact (each s x).trans (ih _)

theorem enterSlot_galsRecorded (s : State) (k slot : Nat) : galsRecorded s (enterSlot s k slot) :=
  (abortProbe_galsRecorded s k).trans (putGal_galsRecorded ..)

theorem refill_carried (s : State) (h a : Nat) : Carried s (refill s h a) := by
  unfold refill
  split
  · exact .refl s
  · split
    · exact (enterSlot_galsRecorded ..).carried
    · exact .refl s

theorem refillAll_carried (s : State) : Carried s (refillAll s) := .foldl (fun s _ => .foldl (fun s _ => refill_carried s _ _) _ s) _ s

theorem testSpares_carried (s : State) : Carried s (testSpares s) := by
  refine .foldl (fun s k => ?_) _ s
  dsimp only
  split
  · exact (putGal_galsRecorded ..).carried
  · exact .refl s

theorem layOut_carried (s : State) : Carried s (layOut s) := by
  unfold layOut
  split
  · exact .refl s
  · exact (carried_boot s s.boot.packs true).trans (.foldl (fun t a => .foldl (fun t k => (putGal_galsRecorded t k _).carried) _ t) _ _)

theorem recheckPacks_carried (s : State) : Carried s (recheckPacks s) :=
  (carried_boot s (s.boot.packs.filter fun x => packSound s.boot.image x.image) s.boot.mapped).trans (.foldl (fun t _ => (logFault_recorded t _).carried) _ _)

/-! The last steps: the stacks out of self-refresh, the links in training. -/

/-- Every hall's stacks leave self-refresh (R404). -/
def allRefreshed (s : State) : State := (List.range 8).foldl (fun s h => refreshed s h false) s

theorem refreshed_ends (s : State) (j h : Nat) : (getMc (refreshed s j false) h).refresh = if h = j then false else (getMc s h).refresh := by
  rw [refreshed]
  split
  · next here =>
    subst here
    rw [getMc_putMc]
  · next other => rw [getMc_putMc_ne s other]

theorem allRefreshed_ends (s : State) {h : Nat} (real : h < 8) : (getMc (allRefreshed s) h).refresh = false := by
  have ends_ : ∀ (l : List Nat) (s : State), (getMc (l.foldl (fun s h => refreshed s h false) s) h).refresh = if h ∈ l then false else (getMc s h).refresh := by
    intro l
    induction l with
    | nil => exact fun s => rfl
    | cons j l ih =>
      intro s
      rw [List.foldl_cons, ih, refreshed_ends]
      by_cases here : h = j <;> simp [here]
  rw [allRefreshed, ends_, if_pos (List.mem_range.mpr real)]

theorem allRefreshed_carried (s : State) : Carried s (allRefreshed s) :=
  .foldl (fun t h => (⟨rfl, rfl, rfl⟩ : Carried t (refreshed t h false))) _ s

/-- Links that are enabled and down begin their training (R357). -/
def allTrained (s : State) : State :=
  (List.range 48).foldl (fun s n => if fld s (pgLink n) Reg.LK_CTRL 0 0 = 1 ∧ (getLink s n).state = 0 then trainLink s n else s) s

theorem allTrained_only (s : State) : ∃ x o, allTrained s = { s with links := x, out := o } := by
  unfold allTrained
  generalize List.range 48 = l
  induction l generalizing s with
  | nil => exact ⟨s.links, s.out, rfl⟩
  | cons n l ih =>
    rw [List.foldl_cons]
    split
    · obtain ⟨x, o, rest⟩ := ih (trainLink s n)
      exact ⟨x, o, rest⟩
    · exact ih s

/-- READY's last steps. -/
def readyEnd (s : State) : State := allTrained (allRefreshed (testSpares (refillAll s)))

theorem allTrained_carried (s : State) : Carried s (allTrained s) ∧ ∀ h, getMc (allTrained s) h = getMc s h := by
  obtain ⟨x, o, trained⟩ := allTrained_only s
  rw [trained]
  exact ⟨⟨rfl, rfl, rfl⟩, fun h => getMc_congr (s := s) rfl h⟩

theorem readyEnd_carried (s : State) : Carried s (readyEnd s) ∧ ∀ h, h < 8 → (getMc (readyEnd s) h).refresh = false := by
  refine ⟨(refillAll_carried s).trans ((testSpares_carried _).trans ((allRefreshed_carried _).trans (allTrained_carried _).1)), fun h real => ?_⟩
  rw [readyEnd, (allTrained_carried _).2]
  exact allRefreshed_ends _ real

/-! The slots, the counter and the revocations (R413, R415). -/

/-- The state with its slots committed, Riendin up (R415). -/
def readyBegun (s : State) : State :=
  { commitSlots s with
    boot := { (commitSlots s).boot with
      state := 2
      tried := []
      parked := [] } }

/-- A unit that failed in an earlier life is logged again (R404). -/
def failedNoted (s : State) : State := match s.boot.failedUnit with
  | some u => logFault s { kind := 3, cls := 6, device := deviceId s, unit := hallUnit (u / 16), d0 := cUnit }
  | none => s

/-- Slots committed, packs checked, galleries laid out. -/
def readyMid (s : State) : State := failedNoted (layOut (recheckPacks (if Config.identityOk then readyBegun s else setErr (readyBegun s) pgBoot 5)))

theorem failedNoted_carried (s : State) : Carried s (failedNoted s) := by
  unfold failedNoted
  split
  · exact (logFault_recorded ..).carried
  · exact .refl s

theorem readyMid_carried (s : State) : Carried (readyBegun s) (readyMid s) := by
  have checked : Carried (readyBegun s) (if Config.identityOk then readyBegun s else setErr (readyBegun s) pgBoot 5) := by
    split
    · exact .refl _
    · exact (setErr_recorded ..).carried
  exact checked.trans ((recheckPacks_carried _).trans ((layOut_carried _).trans (failedNoted_carried _)))

theorem exec_ready {s : State} (starting : s.boot.state = 1) :
    exec .ready s = .next (readyEnd (if s.boot.parked.isEmpty then readyMid s else recoverCtxs { readyMid s with ctxs := s.boot.parked })) :=
  if_neg (not_not_intro starting)

/-- The words of a slot below the counter are EMPTY (R413). -/
def slotEmptied (s : State) (j : Nat) : State := if imgSvn (getSlot s j).image < s.boot.counter then putSlot s j { getSlot s j with word := 0 } else s

theorem slotEmptied_only (s : State) (j : Nat) : slotEmptied s j = { s with boot := { s.boot with slots := (slotEmptied s j).boot.slots } } := by
  unfold slotEmptied
  split <;> rfl

theorem slotEmptied_slot (s : State) (i j : Nat) : getSlot (slotEmptied s j) i =
    if i = j ∧ imgSvn (getSlot s j).image < s.boot.counter then { getSlot s i with word := 0 } else getSlot s i := by
  unfold slotEmptied
  split
  · next below =>
    by_cases here : i = j
    · subst here
      rw [getSlot_putSlot, if_pos ⟨rfl, below⟩]
    · rw [if_neg fun h => here h.1]
      exact SMap.get_put_ne _ here _ _
  · next above => rw [if_neg fun h => above h.2]

theorem slotsEmptied_slot (s : State) {i : Nat} (real : i < 2) : getSlot (slotEmptied (slotEmptied s 0) 1) i =
    if imgSvn (getSlot s i).image < s.boot.counter then { getSlot s i with word := 0 } else getSlot s i := by
  have counter : (slotEmptied s 0).boot.counter = s.boot.counter := by rw [slotEmptied_only]
  rw [slotEmptied_slot, slotEmptied_slot, slotEmptied_slot, counter]
  rcases (show i = 0 ∨ i = 1 by omega) with rfl | rfl <;> simp

/-- Slot words, counter and revocations before the emptying (R413, R415). -/
def slotsMarked (s : State) : State :=
  let k := s.boot.slot
  let o := 1 - k
  let ok := (getSlot s o).word != 0 && imgCheck s (getSlot s o).image == 0
  let s1 := putSlot (putSlot s k { getSlot s k with word := 2 }) o { getSlot s o with word := if ok then 1 else 0 }
  { s1 with
    boot := { s1.boot with
      counter := max s1.boot.counter (imgSvn s.boot.image)
      revoked := s1.boot.revoked ||| (recNat s.boot.image 7 1 / 4 % 16) } }

theorem commitSlots_eq (s : State) : commitSlots s = slotEmptied (slotEmptied (slotsMarked s) 0) 1 := rfl

theorem slotsMarked_slot (s : State) (j : Nat) : getSlot (slotsMarked s) j =
    getSlot (putSlot (putSlot s s.boot.slot { getSlot s s.boot.slot with word := 2 }) (1 - s.boot.slot) { getSlot s (1 - s.boot.slot) with
      word := if (getSlot s (1 - s.boot.slot)).word != 0 && imgCheck s (getSlot s (1 - s.boot.slot)).image == 0 then 1 else 0 }) j :=
  rfl

theorem slotsMarked_own {s : State} (real : s.boot.slot ≤ 1) : getSlot (slotsMarked s) s.boot.slot = { getSlot s s.boot.slot with word := 2 } := by
  rw [slotsMarked_slot, getSlot_putSlot_ne _ (by omega), getSlot_putSlot]

theorem slotsMarked_other (s : State) : getSlot (slotsMarked s) (1 - s.boot.slot) = { getSlot s (1 - s.boot.slot) with
    word := if (getSlot s (1 - s.boot.slot)).word != 0 && imgCheck s (getSlot s (1 - s.boot.slot)).image == 0 then 1 else 0 } := by
  rw [slotsMarked_slot, getSlot_putSlot]

theorem slotsMarked_image (s : State) (j : Nat) : (getSlot (slotsMarked s) j).image = (getSlot s j).image := by
  by_cases other : j = 1 - s.boot.slot
  · subst other
    rw [slotsMarked_other]
  · rw [slotsMarked_slot, getSlot_putSlot_ne _ other]
    by_cases own : j = s.boot.slot
    · subst own
      rw [getSlot_putSlot]
    · rw [getSlot_putSlot_ne _ own]

theorem commitSlots_only (s : State) : commitSlots s = { s with boot := { s.boot with slots := (commitSlots s).boot.slots, counter := max s.boot.counter (imgSvn s.boot.image), revoked := s.boot.revoked ||| (recNat s.boot.image 7 1 / 4 % 16) } } := by
  rw [commitSlots_eq, slotEmptied_only, slotEmptied_only]
  rfl

theorem commitSlots_keeps (s : State) : (commitSlots s).ctxs = s.ctxs ∧ (commitSlots s).host.net = s.host.net := by
  have only := commitSlots_only s
  generalize commitSlots s = t at only
  rw [only]
  exact ⟨rfl, rfl⟩

theorem commitSlots_slot (s : State) {i : Nat} (real : i < 2) : getSlot (commitSlots s) i =
    if imgSvn (getSlot s i).image < max s.boot.counter (imgSvn s.boot.image) then { getSlot (slotsMarked s) i with word := 0 } else getSlot (slotsMarked s) i := by
  rw [commitSlots_eq, slotsEmptied_slot _ real, slotsMarked_image]
  rfl

theorem commitSlots_image (s : State) (j : Nat) : (getSlot (commitSlots s) j).image = (getSlot s j).image := by
  have emptied (t : State) (i : Nat) : (getSlot (slotEmptied t i) j).image = (getSlot t j).image := by
    rw [slotEmptied_slot]
    split <;> rfl
  rw [commitSlots_eq, emptied, emptied, slotsMarked_image]

/-- A context that lay in HBM without an attempt is RESIDENT again (R404). -/
theorem recovered_idle (s : State) {c : Ctx} (idle : c.attempt = none) (held : c.state ≠ 0) :
    (recovered s c).state = 1 ∧ (recovered s c).suspended = (c.suspended || c.state == 2) ∧ (recovered s c).tensors = c.tensors ∧
      (recovered s c).plan = c.plan ∧ (recovered s c).step = c.step := by
  simp only [recovered, idle]
  exact ⟨by omega, trivial, trivial, trivial, trivial⟩

theorem recoverCtxs_single {s : State} {n : Nat} {x : Ctx} (only : s.ctxs = [(n, x)]) (idle : x.attempt = none) (own : x.shadow.held = false) (held : x.state ≠ 0) :
    recoverCtxs s = { s with ctxs := [(n, recovered s x)] } := by
  have here : getCtx s n = x := by simp [getCtx, only, SMap.get, SMap.find]
  have closed : finishClose s n = s := by rw [finishClose, here, idle]
  have logged : resetRecord s n x = s := by rw [resetRecord, idle]
  simp [recoverCtxs, only, closed, own, logged, held]

theorem recoverCtxs_boot {s : State} {n : Nat} {x : Ctx} (only : s.ctxs = [(n, x)]) (idle : x.attempt = none) (own : x.shadow.held = false) (held : x.state ≠ 0) :
    (recoverCtxs s).boot = s.boot := by rw [recoverCtxs_single only idle own held]

/-- Settles O28: the last steps carry boot and contexts over; the slots are those committed, a parked context the one recovered. -/
theorem readyCommitsSlots : Obligations.ReadyCommitsSlots := by
  unfold Obligations.ReadyCommitsSlots
  intro s starting real svn c k
  have carried := readyMid_carried s
  have boot : (readyBegun s).boot = { s.boot with slots := (commitSlots s).boot.slots, counter := c, revoked := s.boot.revoked ||| (recNat s.boot.image 7 1 / 4 % 16), state := 2, tried := [], parked := [] } :=
    congrArg (fun t : State => { t.boot with state := 2, tried := [], parked := [] }) (commitSlots_only s)
  have ctxs : (readyBegun s).ctxs = s.ctxs := (commitSlots_keeps s).1
  have net : (readyBegun s).host.net = s.host.net := (commitSlots_keeps s).2
  have run := exec_ready starting
  generalize readyMid s = m at *
  refine ⟨fun unparked => ?_, fun n x parked idle own held => ?_⟩
  · rw [unparked, if_pos List.isEmpty_nil] at run
    obtain ⟨last, awake⟩ := readyEnd_carried m
    generalize readyEnd m = t at *
    have all := carried.trans last
    have slots (j : Nat) : getSlot t j = getSlot (commitSlots s) j := getSlot_congr (s := commitSlots s) (by rw [all.boot, boot]) j
    refine ⟨t, run, ?_, ?_, ?_, ?_, fun i => ?_, fun j => ?_, fun up => ?_, fun low => ?_, fun low => ?_, fun up => ?_, all.ctxs.trans ctxs, all.net.trans net, awake⟩
    · rw [all.boot, boot]
    · rw [all.boot, boot]
    · rw [all.boot, boot]
    · rw [all.boot, boot]
    · rw [all.boot, boot]
      simp only [bit_eq_testBit, Nat.testBit_or]
    · rw [slots, commitSlots_image]
    · rw [slots, commitSlots_slot s (by omega), if_neg (Nat.not_lt.mpr up), slotsMarked_own real]
    · rw [slots, commitSlots_slot s (by omega), if_pos low]
    · rw [slots, commitSlots_slot s (by omega), if_pos low]
    · rw [slots, commitSlots_slot s (by omega), if_neg (Nat.not_lt.mpr up), slotsMarked_other]
      simp only [Bool.and_eq_true, bne_iff_ne, beq_iff_eq]
      rfl
  · have none : s.boot.parked.isEmpty = false := by rw [parked]; rfl
    rw [none, parked] at run
    have state : m.boot.state = 2 := by rw [carried.boot, boot]
    have cleared : m.boot.parked = [] := by rw [carried.boot, boot]
    have single : ({ m with ctxs := [(n, x)] } : State).ctxs = [(n, x)] := rfl
    have one := recoverCtxs_single single idle own held
    generalize back : recovered { m with ctxs := [(n, x)] } x = y at one
    have idle := recovered_idle { m with ctxs := [(n, x)] } idle held
    rw [back] at idle
    obtain ⟨resident, suspended, tensors, plan, step⟩ := idle
    obtain ⟨last, -⟩ := readyEnd_carried { m with ctxs := [(n, y)] }
    have ran : exec .ready s = .next (readyEnd { m with ctxs := [(n, y)] }) := run.trans (by rw [← one]; rfl)
    generalize readyEnd { m with ctxs := [(n, y)] } = t at *
    have own : getCtx t n = y := by simp [getCtx, last.ctxs, SMap.get, SMap.find]
    refine ⟨t, ran, ?_, ?_, ?_, ?_, ?_, ?_, ?_, fun i other => ?_⟩
    · rw [last.boot]
      exact state
    · rw [last.boot]
      exact cleared
    · rw [own, resident]
    · rw [own, suspended]
    · rw [own, tensors]
    · rw [own, plan]
    · rw [own, step]
    · simp [getCtx, last.ctxs, SMap.get, SMap.find, Ne.symm other]

end Sys2Proof.Machine
end

section
/-! O54: digest votes, duplicate executions, rotation and self-tests (R297-R302, R307-R312). -/

namespace Sys2Proof.Machine

/-! The vote on the digest root (R301, R302). -/

/-- A root in a member's list (R301). -/
def rootTaken (s : State) (n d step : Nat) (root : List Byte) : State := putCtx s n { getCtx s n with roots := (getCtx s n).roots.insert d (step, root) }

theorem digestRoot_votes {s : State} {n step : Nat} {root : List Byte} {p : Plan} (plan : (getCtx s n).plan = some p)
    (own : (getCtx s n).digest = some (step, root)) (voting : (getCtx s n).voting = true) (new : ∀ v, v ∈ votes (getCtx s n) step → v.1 ≠ deviceId s) :
    ∃ u, exec (.digestRoot n) s = .next (decideVote u n) ∧ (getCtx u n).roots = (getCtx s n).roots.insert (deviceId s) (step, root) := by
  have sent : ∀ (l : List Nat) (t : State), getCtx (l.foldl (fun s d => sendNear s d 0 4 0 (.root n step (digestD s) root)) t) n = getCtx t n := by
    intro l
    induction l with
    | nil => exact fun t => rfl
    | cons d l ih => exact fun t => (ih _).trans (getCtx_sendNear ..)
  refine ⟨((peersOf s (getCtx s n) p).filter (fun d => !s.lostDevs.contains d)).foldl (fun s d => sendNear s d 0 4 0 (.root n step (digestD s) root))
    (rootTaken s n (deviceId s) step root), ?_, ?_⟩
  · show execDigestRoot n s = _
    unfold execDigestRoot
    dsimp only
    split
    · next known stood =>
      obtain rfl := Option.some.inj (plan.symm.trans known)
      obtain ⟨rfl, rfl⟩ := Prod.mk.inj (Option.some.inj (own.symm.trans stood))
      refine if_neg ?_
      simpa [voting] using fun x mem => new _ mem rfl
    · next none_ => exact absurd own (none_ p step root plan)
  · rw [sent, rootTaken, getCtx_putCtx]

theorem rootVote_run {s : State} {n src : Nat} {p : Plan} (plan : (getCtx s n).plan = some p) (peer : src ∈ peersOf s (getCtx s n) p) (step interval : Nat)
    (root : List Byte) : exec (.rootVote src n step interval root) s = if interval ≠ digestD s then
      .next (progress (putCtx (setErr s pgSilent 7) n { getCtx s n with configBad := true, voting := false, roots := [] }) n)
    else .next (decideVote (rootTaken s n src step root) n) := by
  show execRootVote src n step interval root s = _
  unfold execRootVote
  dsimp only
  split
  · next none_ => exact absurd (plan.symm.trans none_) nofun
  · next known =>
    obtain rfl := Option.some.inj (plan.symm.trans known)
    refine if_neg ?_
    simp [peer]

theorem silentErr_bit (s : State) {i : Nat} (hi : i < 32) : bit (regGet (setErr s pgSilent i) pgSilent (errOff pgSilent.kind)) i = true :=
  setErr_bit_apart s pgSilent hi (by decide) (by decide) (.inl (by decide))

theorem peersOf_rootTaken (s : State) (n d step : Nat) (root : List Byte) (p : Plan) :
    peersOf (rootTaken s n d step root) (getCtx (rootTaken s n d step root) n) p = peersOf s (getCtx s n) p := by
  rw [rootTaken, getCtx_putCtx]
  rfl

theorem peersOf_foreign {s : State} {c : Ctx} {p : Plan} {d : Nat} (peer : d ∈ peersOf s c p) : d ≠ deviceId s := by
  simp only [peersOf, List.mem_eraseDups, List.mem_filter, Bool.and_eq_true, bne_iff_ne] at peer
  exact peer.2.1

/-- Two members' roots of one step are its votes (R301). -/
theorem votes_pair {c : Ctx} {d e step : Nat} {root : List Byte} (other : e ≠ d) (roots : c.roots = SMap.insert e (step, root) [(d, (step, root))]) :
    (votes c step = [(d, root), (e, root)] ∨ votes c step = [(e, root), (d, root)]) := by
  rw [votes, roots]
  simp only [SMap.insert]
  split
  · exact .inr (by simp)
  · exact .inl (by simp)

theorem decideVote_agrees {s : State} {n src step : Nat} {root : List Byte} {p : Plan} (plan : (getCtx s n).plan = some p) (peer : src ≠ deviceId s)
    (own : (getCtx s n).digest = some (step, root)) (voting : (getCtx s n).voting = true)
    (roots : (getCtx s n).roots = SMap.insert src (step, root) [(deviceId s, (step, root))])
    (only : (peersOf s (getCtx s n) p).filter (fun d => !s.lostDevs.contains d) = [src]) :
    decideVote s n = progress (modCtx s n (fun c => { c with voting := false, roots := [], agreed := some step })) n := by
  unfold decideVote
  dsimp only
  rw [plan, own]
  dsimp only
  rw [only, voting]
  rcases votes_pair peer roots with two | two <;> rw [two] <;> simp

/-! Duplicate executions (R297-R299). -/

theorem setDup_ends (s : State) (n i : Nat) : (getCtx (setDup s n i none) n).dups = (getCtx s n).dups.eraseIdx i := by
  rw [setDup, getCtx_modCtx]

theorem setDup_puts (s : State) (n i : Nat) (d : DupExec) : (getCtx (setDup s n i (some d)) n).dups = (getCtx s n).dups.set i d := by
  rw [setDup, getCtx_modCtx]

theorem dupGallery_congr {s t : State} (gals : t.gals = s.gals) (c : Ctx) (w : WoHdr) (avoid : List Nat) : dupGallery t c w avoid = dupGallery s c w avoid := by
  have gal (k : Nat) : getGal t k = getGal s k := getGal_congr gals k
  have at_ (h a n : Nat) : galAt t h a n = galAt s h a n := by simp only [galAt, gal]
  simp only [dupGallery, at_, gal]

theorem duplicateExecution_run {s : State} {n i x digest : Nat} {d : DupExec} (found : (getCtx s n).dups[i]? = some d) (one : d.digests = [x]) :
    (digest = x → ∃ u, exec (.duplicateExecution n i digest) s = .next (progress u n) ∧ (getCtx u n).dups = (getCtx s n).dups.eraseIdx i) ∧
    (digest ≠ x → ∀ k, dupGallery s (getCtx s n) d.w (d.gals.map aisleIdx) = some k → ∃ u, exec (.duplicateExecution n i digest) s = .next u ∧
      (getCtx u n).dups[i]? = some { d with gals := d.gals ++ [k], digests := [x, digest] }) := by
  have counted := bumpSat_recorded s pgSilent Reg.SE_DUPS 31 0 1
  have run : exec (.duplicateExecution n i digest) s = execDuplicateExecution n i digest s := rfl
  have sameCtx {t : State} (kept : recorded s t) : getCtx t n = getCtx s n := by rw [getCtx, getCtx, kept.ctxs]
  refine ⟨fun same => ⟨setDup (bumpSat s pgSilent Reg.SE_DUPS 31 0 1) n i none, ?_, by rw [setDup_ends, sameCtx counted]⟩, fun differ k next_ => ?_⟩
  · rw [run, execDuplicateExecution, found]
    simp [one, same]
  · have both := counted.trans (bumpSat_recorded (bumpSat s pgSilent Reg.SE_DUPS 31 0 1) pgSilent Reg.SE_MISMATCH 31 0 1)
    generalize mismatched : bumpSat (bumpSat s pgSilent Reg.SE_DUPS 31 0 1) pgSilent Reg.SE_MISMATCH 31 0 1 = v at both
    have third : dupGallery v (getCtx v n) d.w (d.gals.map aisleIdx) = some k := by rw [dupGallery_congr both.gals, sameCtx both, next_]
    refine ⟨setDup v n i (some { d with gals := d.gals ++ [k], digests := d.digests ++ [digest] }), ?_, ?_⟩
    · rw [run, execDuplicateExecution, found]
      simp [one, Ne.symm differ, mismatched, third]
    · obtain ⟨inRange, -⟩ := List.getElem?_eq_some_iff.mp found
      rw [setDup_puts, sameCtx both, one]
      simp [inRange]

theorem thirdExecution_run {s : State} {n i x y g0 g1 g2 : Nat} {d : DupExec} (digest : Nat) (found : (getCtx s n).dups[i]? = some d) (two : d.digests = [x, y])
    (gals : d.gals = [g0, g1, g2]) : exec (.thirdExecution n i digest) s =
      if digest = x then .next (dupLoser (dupEnds (setErr (setDup s n i none) pgSilent 0) d.w) n g1)
      else if digest = y then .next (dupLoser (dupEnds (setErr (setDup s n i none) pgSilent 0) d.w) n g0)
      else if x = y then .next (dupLoser (dupEnds (setErr (setDup s n i none) pgSilent 0) d.w) n g2)
      else .next ([g0, g1, g2].foldl suspectGal (dupEnds (setErr (setDup s n i none) pgSilent 1) d.w)) := by
  show execThirdExecution n i digest s = _
  rw [execThirdExecution, found]
  dsimp only
  rw [two, gals]

/-! Rotation (R307, R308). -/

theorem eligible_congr {s t : State} (gals : t.gals = s.gals) (h a : Nat) : eligible t h a = eligible s h a := by
  have gal (k : Nat) : getGal t k = getGal s k := getGal_congr gals k
  have longest (l : List Nat) : longestOut t l = longestOut s l := by simp only [longestOut, gal]
  simp only [eligible, gal, longest]

theorem tryRotate_stays {s : State} {h a : Nat} (none_ : eligible s h a = none ∨ s.silent.due = []) : tryRotate s h a = s := by
  refine if_neg ?_
  rcases none_ with no | no <;> simp [no]

theorem tryRotates_stay {s : State} (none_ : (∀ h a, eligible s h a = none) ∨ s.silent.due = []) (l : List Nat) :
    l.foldl (fun s i => tryRotate s (i / 16) (i % 16)) s = s := by
  induction l with
  | nil => rfl
  | cons i l ih => rw [List.foldl_cons, tryRotate_stays (none_.imp (fun all => all _ _) id), ih]

theorem startTest_galsRecorded (s : State) (k : Nat) (req : Bool) : galsRecorded s (startTest s k req) :=
  (abortProbe_galsRecorded s k).trans (putGal_galsRecorded ..)

theorem startTest_gal (s : State) (k : Nat) : (getGal (startTest s k false) k).state = 2 ∧ (getGal (startTest s k false) k).testing = true ∧
    (getGal (startTest s k false) k).testReq = false := by
  rw [startTest, getGal_putGal]
  exact ⟨rfl, rfl, rfl⟩

theorem startTest_gal_ne (s : State) {j k : Nat} (other : k ≠ j) : getGal (startTest s j false) k = getGal s k := by
  rw [startTest, getGal_putGal_ne _ other, abortProbe_gal_ne s other]

theorem startTests_only : ∀ (l : List Nat) (s : State), galsRecorded s (l.foldl (fun s k => startTest s k false) s)
  | [], s => (recorded.refl s).galsRecorded
  | k :: l, s => (startTest_galsRecorded s k false).trans (startTests_only l _)

/-- A gallery is out, in a test that nobody requested (R308). -/
def inTest (s : State) (k : Nat) : Prop := (getGal s k).state = 2 ∧ (getGal s k).testing = true ∧ (getGal s k).testReq = false

theorem startTests_start (k : Nat) : ∀ (l : List Nat) (s : State), k ∈ l ∨ inTest s k → inTest (l.foldl (fun s k => startTest s k false) s) k
  | [], s, h => h.resolve_left List.not_mem_nil
  | j :: l, s, h => by
    refine startTests_start k l (startTest s j false) ?_
    by_cases here : k = j
    · subst here
      exact .inr (startTest_gal s k)
    · rw [inTest, startTest_gal_ne s here]
      exact h.imp_left fun mem => (List.mem_cons.mp mem).resolve_left here

/-- Every aisle's rotation is due (R307). -/
def allDue (s : State) : State := { s with silent := { s.silent with due := List.range 128 } }

theorem rotatePeriod_tests {s b : State} (gals : b.gals = s.gals) (still : (∀ h a, eligible b h a = none) ∨ b.silent.due = [])
    (begun : (if fld s pgSilent Reg.SE_CTRL 31 16 = 0 then s else allDue s) = b) :
    ∃ t, exec .rotatePeriod s = .next t ∧ t.silent.due = b.silent.due ∧ ∀ k g, s.gals.find k = some g → g.state = 3 → inTest t k := by
  have run : exec .rotatePeriod s = .next (((b.gals.filter (fun e => e.2.state == 3)).map (·.1)).foldl (fun s k => startTest s k false) b) := by
    have entry : exec .rotatePeriod s = .next ((((List.range 128).foldl (fun s i => tryRotate s (i / 16) (i % 16))
        (if fld s pgSilent Reg.SE_CTRL 31 16 = 0 then s else allDue s)).gals.filter (fun e => e.2.state == 3)).map (·.1) |>.foldl (fun s k => startTest s k false)
        ((List.range 128).foldl (fun s i => tryRotate s (i / 16) (i % 16)) (if fld s pgSilent Reg.SE_CTRL 31 16 = 0 then s else allDue s))) := rfl
    rw [entry, begun, tryRotates_stay still]
  have kept : galsRecorded b _ := startTests_only ((b.gals.filter (fun e => e.2.state == 3)).map (·.1)) b
  refine ⟨_, run, by rw [kept], fun k g found failed => startTests_start k _ b (.inl ?_)⟩
  refine List.mem_map.mpr ⟨(k, g), List.mem_filter.mpr ⟨?_, beq_iff_eq.mpr failed⟩, rfl⟩
  rw [gals]
  exact SMap.mem_of_find found

theorem rotatePeriod_run {s : State} (idle : (∀ h a, eligible s h a = none) ∨ (fld s pgSilent Reg.SE_CTRL 31 16 = 0 ∧ s.silent.due = [])) :
    ∃ t, exec .rotatePeriod s = .next t ∧ t.silent.due = (if fld s pgSilent Reg.SE_CTRL 31 16 = 0 then s.silent.due else List.range 128) ∧
      ∀ k g, s.gals.find k = some g → g.state = 3 → inTest t k := by
  by_cases off : fld s pgSilent Reg.SE_CTRL 31 16 = 0
  · rw [if_pos off]
    exact rotatePeriod_tests rfl (idle.imp_right And.right) (if_pos off)
  · rw [if_neg off]
    have none_ := idle.resolve_right fun h => off h.1
    exact rotatePeriod_tests (b := allDue s) rfl (.inl fun h a => (eligible_congr (s := s) rfl h a).trans (none_ h a)) (if_neg off)

/-! Gallery tests and probe packs (R308, R312). -/

theorem aisleSwaps_stay {s : State} (due : s.silent.due = []) (requests : s.silent.requests = []) (h a : Nat) : aisleSwaps s h a = s := by
  have requested : tryRequest s h a = s := by
    unfold tryRequest
    split
    · rfl
    · rw [requests]
      rfl
  rw [aisleSwaps, requested, tryRotate_stays (.inr due)]

/-- A gallery that passed its test (R308). -/
def passedGal (g : Gallery) : Gallery :=
  { g with
    state := 1
    fails := 0
    suspect := false
    testReq := false
    quar := false
    testing := false
    mustPass := false
    tags := []
    blame := none }

theorem inService_putGal {s : State} {k : Nat} {g : Gallery} (out : (getGal s k).state ≠ 0) (still : g.state ≠ 0) (h a : Nat) :
    inService (putGal s k g) h a = inService s h a := by
  have same (j : Nat) : ((getGal (putGal s k g) j).state == 0) = ((getGal s j).state == 0) := by
    by_cases here : j = k
    · subst here
      rw [getGal_putGal, beq_eq_false_iff_ne.mpr still, beq_eq_false_iff_ne.mpr out]
    · rw [getGal_putGal_ne s here]
  simp only [inService, same]

theorem inService_congr {s t : State} (gals : t.gals = s.gals) (h a : Nat) : inService t h a = inService s h a := by
  have gal (k : Nat) : getGal t k = getGal s k := getGal_congr gals k
  simp only [inService, gal]

theorem refill_stays {s : State} {h a : Nat} (full : 66 ≤ inService s h a) : refill s h a = s := if_pos full

/-- A probe pack that starts leaves the port, the fence table and all but its gallery's PROBING (R312). -/
theorem startProbe_keeps (s : State) (k : Nat) : (startProbe s k).host = s.host ∧ (startProbe s k).fence = s.fence ∧
    ∃ p, getGal (startProbe s k) k = { getGal s k with probing := p } := by
  have same : ∃ p, getGal s k = { getGal s k with probing := p } := ⟨(getGal s k).probing, rfl⟩
  unfold startProbe
  dsimp only
  split
  · exact ⟨rfl, rfl, same⟩
  · split
    · next i p found => exact ⟨rfl, rfl, some p.id, getGal_putGal s k { getGal s k with probing := some p.id }⟩
    · exact ⟨rfl, rfl, same⟩

theorem testFails_galsRecorded (s : State) (k step : Nat) : galsRecorded s (testFails s k step) :=
  (logFault_recorded s _).galsRecorded.trans (markFailed_galsRecorded ..)

theorem testFails_gal (s : State) (k step : Nat) : getGal (testFails s k step) k = failedGal (getGal s k) := by
  rw [testFails, markFailed_gal, getGal_congr (logFault_recorded s _).gals]

theorem katFail_recorded (s : State) : recorded s (katFail s) := (recorded_regs s _).trans (setErr_recorded ..)

/-- The state after a gallery's failed test (R308). -/
def testFailed (s : State) (k test : Nat) : State := setErr (testFails (if test = 6 then katFail s else s) k test) pgSilent 6

theorem testFailed_fails (s : State) (k test : Nat) : galsRecorded s (testFailed s k test) ∧ getGal (testFailed s k test) k = failedGal (getGal s k) ∧
    bit (regGet (testFailed s k test) pgSilent (errOff pgSilent.kind)) 6 = true := by
  have kat : recorded s (if test = 6 then katFail s else s) := by
    split
    · exact katFail_recorded s
    · exact .refl s
  refine ⟨kat.galsRecorded.trans ((testFails_galsRecorded ..).trans (setErr_recorded ..).galsRecorded), ?_, silentErr_bit _ (by decide)⟩
  rw [testFailed, getGal_congr (setErr_recorded _ pgSilent 6).gals, testFails_gal, getGal_congr kat.gals]

theorem recorded.silent {s t : State} (h : recorded s t) : t.silent = s.silent := by rw [h]

theorem recorded.fence {s t : State} (h : recorded s t) : t.fence = s.fence := by rw [h]

/-- The tags of a gallery that passed its test leave the fence table (R320). -/
def unfenced (s : State) (tags : List Nat) : State := { s with fence := s.fence.filter (fun t => !tags.contains t) }

/-- The state with a gallery's passed test logged and its gallery a spare (R308). -/
def testPassed (s : State) (k : Nat) : State :=
  putGal (unfenced (logFault s { kind := 4, device := deviceId s, unit := unitOfKey k }) (getGal s k).tags) k (passedGal (getGal s k))

section Test
variable {hall aisle gallery : Nat} {s : State} (out : (getGal s (galKey (hall % 8) (aisle % 16) (gallery % 68))).state = 2)
  (testing : (getGal s (galKey (hall % 8) (aisle % 16) (gallery % 68))).testing = true) (due : s.silent.due = []) (requests : s.silent.requests = [])
include out testing due requests

theorem galleryTest_passes (full : 66 ≤ inService s (hall % 8) (aisle % 16)) (test : Nat) :
    exec (.galleryTest hall aisle gallery true test) s = .next (startProbe (testPassed s (galKey (hall % 8) (aisle % 16) (gallery % 68))) (galKey (hall % 8) (aisle % 16) (gallery % 68))) := by
  have entry : exec (.galleryTest hall aisle gallery true test) s = .next (startProbe (aisleSwaps (refill (testPassed s (galKey (hall % 8) (aisle % 16) (gallery % 68))) (hall % 8) (aisle % 16))
      (hall % 8) (aisle % 16)) (galKey (hall % 8) (aisle % 16) (gallery % 68))) := if_neg (by simp [out, testing])
  generalize galKey (hall % 8) (aisle % 16) (gallery % 68) = k at *
  have logged := logFault_recorded s { kind := 4, device := deviceId s, unit := unitOfKey k }
  have gals : (unfenced (logFault s { kind := 4, device := deviceId s, unit := unitOfKey k }) (getGal s k).tags).gals = s.gals := logged.gals
  have silent : (testPassed s k).silent = s.silent := logged.silent
  have stays : refill (testPassed s k) (hall % 8) (aisle % 16) = testPassed s k := by
    refine refill_stays ?_
    rw [testPassed, inService_putGal, inService_congr gals]
    · exact full
    · rw [getGal_congr gals, out]
      decide
    · exact Nat.one_ne_zero
  rw [entry, stays, aisleSwaps_stay (by rw [silent, due]) (by rw [silent, requests])]

theorem galleryTest_fails (blame : (getGal s (galKey (hall % 8) (aisle % 16) (gallery % 68))).blame = none) (test : Nat) :
    exec (.galleryTest hall aisle gallery false test) s = .next (testFailed s (galKey (hall % 8) (aisle % 16) (gallery % 68)) test) := by
  have entry : exec (.galleryTest hall aisle gallery false test) s = .next (persistRollback (aisleSwaps (testFailed s (galKey (hall % 8) (aisle % 16) (gallery % 68)) test)
      (hall % 8) (aisle % 16)) (getGal s (galKey (hall % 8) (aisle % 16) (gallery % 68)))) := if_neg (by simp [out, testing])
  generalize galKey (hall % 8) (aisle % 16) (gallery % 68) = k at *
  have silent : (testFailed s k test).silent = s.silent := by rw [(testFailed_fails s k test).1]
  rw [entry, aisleSwaps_stay (by rw [silent, due]) (by rw [silent, requests]), persistRollback, blame]

end Test

/-! Probe packs (R312). -/

/-- The record of a finished probe pack (R312). -/
def probeRecord (s : State) (k pack result firstFail : Nat) : List Byte :=
  natLe (unitOfKey k) 4 ++ natLe pack 4 ++ natLe (((s.boot.packs.find? (fun x => x.id == pack)).map (·.version)).getD 0) 4 ++ natLe result 1 ++ natLe 0 3 ++
    natLe (if result = 0 then 0xFFFFFFFF else firstFail) 4

/-- The state with a probe pack's record delivered and the pack noted (R312). -/
def probeNoted (s : State) (k pack result firstFail : Nat) : State :=
  putGal (pushRec s 3 0xFFFF (probeRecord s k pack result firstFail)) k { getGal s k with
    probing := none
    packs := (getGal s k).packs.filter (fun x => x.1 != pack) ++ [(pack, ((s.boot.packs.find? (fun x => x.id == pack)).map (·.version)).getD 0)] }

theorem lastRec_congr {s t : State} {stream n : Nat} (h : t.host.devRings.get {} (ringKey stream n) = s.host.devRings.get {} (ringKey stream n)) :
    lastRec t stream n = lastRec s stream n := by rw [lastRec, lastRec, h]

theorem probeNoted_record (s : State) (k pack result firstFail : Nat) :
    lastRec (probeNoted s k pack result firstFail) 3 0xFFFF = some ⟨3, 0xFFFF, probeRecord s k pack result firstFail, s.power.tick⟩ := by
  refine (lastRec_congr rfl).trans (lastRec_pushRec s 3 0xFFFF ?_)
  simp [probeRecord]
  decide

theorem lastRec_logFault (s : State) (f : FaultRec) : lastRec (logFault s f) 3 0xFFFF = lastRec s 3 0xFFFF := lastRec_congr (pushRec_rings s 2 0xFFFF _ (by decide))

theorem lastRec_markFailed (s : State) (k : Nat) : lastRec (markFailed s k) 3 0xFFFF = lastRec s 3 0xFFFF := by
  unfold markFailed
  dsimp only
  split
  · exact lastRec_logFault ..
  · rfl

theorem lastRec_setErr (s : State) (p : Page) (i : Nat) : lastRec (setErr s p i) 3 0xFFFF = lastRec s 3 0xFFFF := by
  have set : lastRec (setErrBit s p i) 3 0xFFFF = lastRec s 3 0xFFFF := lastRec_congr (by rw [setErrBit_host])
  unfold setErr
  split
  · rfl
  · dsimp only
    split
    · rw [lastRec_logFault, set]
    · exact set

theorem probeResult_run {hall aisle gallery pack result : Nat} {s : State} (spare : (getGal s (galKey (hall % 8) (aisle % 16) (gallery % 68))).state = 1)
    (probing : (getGal s (galKey (hall % 8) (aisle % 16) (gallery % 68))).probing = some pack) (known : result ≤ 1) (firstFail : Nat) :
    exec (.probeResult hall aisle gallery pack result firstFail) s = if result = 0 then
      .next (startProbe (probeNoted s (galKey (hall % 8) (aisle % 16) (gallery % 68)) pack result firstFail) (galKey (hall % 8) (aisle % 16) (gallery % 68)))
    else .next (setErr (testFails (probeNoted s (galKey (hall % 8) (aisle % 16) (gallery % 68)) pack result firstFail) (galKey (hall % 8) (aisle % 16) (gallery % 68)) 0)
      pgSilent 5) := by
  refine if_neg ?_
  rw [spare, probing]
  simp only [ne_eq, not_true_eq_false, false_or]
  omega

theorem probeResult_records {hall aisle gallery pack result : Nat} {s : State} (spare : (getGal s (galKey (hall % 8) (aisle % 16) (gallery % 68))).state = 1)
    (probing : (getGal s (galKey (hall % 8) (aisle % 16) (gallery % 68))).probing = some pack) (known : result ≤ 1) (firstFail : Nat) :
    ∃ t r, exec (.probeResult hall aisle gallery pack result firstFail) s = .next t ∧ lastRec t 3 0xFFFF = some r ∧
      r.body.take 8 = natLe (unitOfKey (galKey (hall % 8) (aisle % 16) (gallery % 68))) 4 ++ natLe pack 4 ∧
      (result = 0 → (getGal t (galKey (hall % 8) (aisle % 16) (gallery % 68))).state = 1) ∧
      (result = 1 → (getGal t (galKey (hall % 8) (aisle % 16) (gallery % 68))).state =
        (if 3 ≤ (getGal s (galKey (hall % 8) (aisle % 16) (gallery % 68))).fails + 1 then 5 else 3)) := by
  have run := probeResult_run spare probing known firstFail
  generalize galKey (hall % 8) (aisle % 16) (gallery % 68) = k at *
  have noted := probeNoted_record s k pack result firstFail
  have begins : (probeRecord s k pack result firstFail).take 8 = natLe (unitOfKey k) 4 ++ natLe pack 4 := by
    simp [probeRecord, List.take_append]
  have own : getGal (probeNoted s k pack result firstFail) k = _ := getGal_putGal ..
  by_cases good : result = 0
  · rw [if_pos good] at run
    obtain ⟨host, -, p, gal⟩ := startProbe_keeps (probeNoted s k pack result firstFail) k
    refine ⟨_, _, run, (lastRec_congr (by rw [host])).trans noted, begins, fun _ => ?_, fun bad => absurd (good.symm.trans bad) (by decide)⟩
    rw [gal, own]
    exact spare
  · rw [if_neg good] at run
    refine ⟨_, _, run, ((lastRec_setErr ..).trans ((lastRec_markFailed ..).trans (lastRec_logFault ..))).trans noted, begins, fun zero => absurd zero good, fun _ => ?_⟩
    rw [getGal_congr (setErr_recorded _ pgSilent 5).gals, testFails_gal, own]
    rfl

/-! Hall-edge engines (R310, R316). -/

/-- An engine that was tested is no longer suspect (R310). -/
def cleared (s : State) (x : Nat) : State := { s with silent := { s.silent with suspects := s.silent.suspects.erase x } }

/-- The engine that failed for good (R310, R316). -/
def engineLost (s : State) (h engine : Nat) (kat : Bool) : State :=
  let b := if kat then katFail s else s
  declareLost (logFault { b with boot := { b.boot with failedUnit := some (h * 16 + engine) } }
    { kind := 3, cls := 6, device := deviceId s, unit := hallUnit h, d0 := cUnit }) (hallUnit h) cUnit

theorem engineTest_run {hall engine : Nat} {s : State} (free : hallFree_ s (hall % 8) = true) (real : engine < 10) (result : EngineResult) :
    exec (.hallEdgeEngineTest hall engine result) s = if result = .pass then .next (cleared s (hall % 8 * 16 + engine))
      else if engine ≤ 7 then .next (retireMover (cleared s (hall % 8 * 16 + engine)) (hall % 8) engine 0 false)
      else .next (engineLost (cleared s (hall % 8 * 16 + engine)) (hall % 8) engine (decide (result = .failKat ∧ engine = 8))) := by
  refine (if_neg (by simp [free, real])).trans ?_
  split
  · rfl
  · split
    · rfl
    · rw [engineLost]
      by_cases kat : result = .failKat ∧ engine = 8
      · rw [decide_eq_true kat, if_pos kat]
        rfl
      · rw [decide_eq_false kat, if_neg kat]
        rfl

theorem engineLost_loses (s : State) (h engine : Nat) (kat : Bool) : (engineLost s h engine kat).power.lost = true ∧
    (engineLost s h engine kat).boot.failedUnit = some (h * 16 + engine) ∧ (kat = true → bit (katWord (engineLost s h engine kat)) 0 = true) := by
  have flagged : kat = true → bit (katWord (if kat then katFail s else s)) 0 = true := fun on => by rw [if_pos on, katFail_bit]
  unfold engineLost
  dsimp only
  generalize (if kat then katFail s else s) = b at *
  have logged := logFault_recorded { b with boot := { b.boot with failedUnit := some (h * 16 + engine) } }
    { kind := 3, cls := 6, device := deviceId s, unit := hallUnit h, d0 := cUnit }
  have word := katWord_logFault { b with boot := { b.boot with failedUnit := some (h * 16 + engine) } }
    { kind := 3, cls := 6, device := deviceId s, unit := hallUnit h, d0 := cUnit }
  generalize logFault { b with boot := { b.boot with failedUnit := some (h * 16 + engine) } }
    { kind := 3, cls := 6, device := deviceId s, unit := hallUnit h, d0 := cUnit } = u at *
  refine ⟨?_, ?_, fun on => ?_⟩
  · by_cases up : u.power.lost = true
    · rw [declareLost, if_pos up, up]
    · exact (declareLost_lost (Bool.not_eq_true _ ▸ up) ..).1
  · obtain ⟨beat, mark, pin, same⟩ := declareLost_keeps u (hallUnit h) cUnit
    have boot : (declareLost u (hallUnit h) cUnit).boot = u.boot := (congrArg State.boot same :)
    rw [boot, logged]
  · rw [katWord_declareLost, word]
    exact flagged on

/-- Settles O54: each command's one equation, then what its steps leave. -/
theorem silentErrors : Obligations.SilentErrors := by
  unfold Obligations.SilentErrors
  refine ⟨fun ctx step root p s plan own voting new => digestRoot_votes plan own voting new, fun src ctx step interval root p s plan peer => ?_,
    fun ctx index digest x d s found one => duplicateExecution_run found one, fun ctx index digest x y g0 g1 g2 d s found two gals => ?_,
    fun s idle => rotatePeriod_run idle, fun hall aisle gallery test pass_ s => ?_, fun hall aisle gallery pack result firstFail s => ?_,
    fun hall engine result s free real => ?_⟩
  · have run := rootVote_run plan peer step interval root
    refine ⟨fun differs => ⟨_, run.trans (if_pos differs), ?_, ?_, ?_⟩, fun same => run.trans (if_neg (not_not_intro same)), fun same voting roots own only => ?_⟩
    · rw [getCtx_putCtx]
    · rw [getCtx_putCtx]
    · exact silentErr_bit s (by decide)
    · have taken : getCtx (rootTaken s ctx src step root) ctx = { getCtx s ctx with roots := (getCtx s ctx).roots.insert src (step, root) } := getCtx_putCtx ..
      have agrees := decideVote_agrees (s := rootTaken s ctx src step root) (n := ctx) (src := src) (step := step) (root := root) (p := p)
        (by rw [taken, plan]) (peersOf_foreign peer) (by rw [taken, own]) (by rw [taken, voting]) (by rw [taken, roots]; rfl)
        (by rw [peersOf_rootTaken]; exact only)
      refine ⟨_, (run.trans (if_neg (not_not_intro same))).trans (congrArg _ agrees), ?_, ?_⟩
      · rw [getCtx_modCtx]
      · rw [getCtx_modCtx]
  · have run := thirdExecution_run digest found two gals
    exact ⟨fun first => run.trans (if_pos first), fun not_ second => (run.trans (if_neg not_)).trans (if_pos second),
      fun not_ nor differ => ((run.trans (if_neg not_)).trans (if_neg nor)).trans (if_neg differ)⟩
  · intro k out testing blame full due requests
    cases pass_ with
    | true =>
      obtain ⟨-, fence, p, gal⟩ := startProbe_keeps (testPassed s k) k
      have own : getGal (testPassed s k) k = passedGal (getGal s k) := getGal_putGal ..
      refine ⟨_, galleryTest_passes out testing due requests full test, fun _ => ⟨?_, ?_, ?_, ?_, ?_⟩, nofun⟩
      · rw [gal, own]
        rfl
      · rw [gal, own]
        rfl
      · rw [gal, own]
        rfl
      · rw [gal, own]
        rfl
      · rw [fence]
        exact congrArg (List.filter _) (logFault_recorded s _).fence
    | false =>
      obtain ⟨-, gal, flagged⟩ := testFailed_fails s k test
      refine ⟨_, galleryTest_fails out testing due requests blame test, nofun, fun _ => ⟨?_, ?_, flagged⟩⟩
      · rw [gal]
        rfl
      · rw [gal]
        rfl
  · exact fun spare probing known => probeResult_records spare probing known firstFail
  · have run := engineTest_run free real result
    refine ⟨fun good => run.trans (if_pos good), fun bad mover => (run.trans (if_neg bad)).trans (if_pos mover), fun bad high => ?_⟩
    obtain ⟨lost, unit, kat⟩ := engineLost_loses (cleared s (hall % 8 * 16 + engine)) (hall % 8) engine (decide (result = .failKat ∧ engine = 8))
    exact ⟨_, (run.trans (if_neg bad)).trans (if_neg (by omega)), lost, unit, fun was update => kat (by simp [was, update])⟩

end Sys2Proof.Machine
end

section
/-! SUPPORT of O60. Every operation leaves the tables of R320 and R445 as sound as they were. The tables lie outside a step's own work, so that
soundness is said of `outsideWork s`, whose laws then carry most operations. -/

namespace Sys2Proof.Machine

/-- A change of anything but the fence table and the flash leaves the tables. -/
@[simp] theorem sound_mk (s : State) (pending : List Instr) (freeCtr : Nat) (regs : RegBank) (gals : SMap Gallery) (queues ran : SMap (List QEntry)) (pegs : SMap Peg)
    (pegRefs : SMap WoDone) (nextRef : Nat) (lostDevs : List Nat) (recovery : Option Recovery) (twin : TwinSt) (ec : EventCtl) (host : HostPort) (ctxs : SMap Ctx)
    (links : SMap Link) (router : Router) (power : Power) (monitors : SMap Monitor) (boot : Boot) (mem : SMap MemCtl) (gauge : GaugeEng) (silent : Silent) (digests : SMap (List (Nat × Nat × Nat))) (early : List ExPkt) (update : UpdateSt) (out : List Out)
    (flash : boot.flash = s.boot.flash) :
    tablesSound (outsideWork { s with
      pending := pending,
      freeCtr := freeCtr, regs := regs, gals := gals, queues := queues, ran := ran, pegs := pegs, pegRefs := pegRefs, nextRef := nextRef, lostDevs := lostDevs, recovery := recovery,
      twin := twin, ec := ec, host := host, ctxs := ctxs, links := links, router := router, power := power, monitors := monitors, boot := boot, mem := mem, gauge := gauge, silent := silent, digests := digests, early := early, update := update,
      out := out }) ↔ tablesSound (outsideWork s) := by
  simp only [tablesSound, outsideWork, flash]

@[simp] theorem sound_ite (p : Prop) [Decidable p] (s t : State) :
    tablesSound (if p then outsideWork s else outsideWork t) ↔ if p then tablesSound (outsideWork s) else tablesSound (outsideWork t) := by
  split <;> rfl

/-- A fold of steps leaves what every step leaves. -/
@[simp] theorem sound_foldl {α : Type} {f : State → α → State} (keeps : ∀ s x, tablesSound (outsideWork (f s x)) ↔ tablesSound (outsideWork s)) (l : List α) (s : State) :
    tablesSound (outsideWork (l.foldl f s)) ↔ tablesSound (outsideWork s) := by
  induction l generalizing s with
  | nil => rfl
  | cons x l ih => rw [List.foldl_cons, ih, keeps]

theorem sound_cond {p : Prop} [Decidable p] {s t u : State} (ht : tablesSound (outsideWork t) ↔ tablesSound (outsideWork s))
    (hu : tablesSound (outsideWork u) ↔ tablesSound (outsideWork s)) : tablesSound (outsideWork (if p then t else u)) ↔ tablesSound (outsideWork s) := by
  split
  · exact ht
  · exact hu

theorem sound_if {p : Prop} [Decidable p] {t u : State} (ht : tablesSound (outsideWork t)) (hu : tablesSound (outsideWork u)) :
    tablesSound (outsideWork (if p then t else u)) := by
  split
  · exact ht
  · exact hu

/-- A command leaves the tables as sound as they were. -/
def KeptBy (s : State) (o : Host.Outcome State Fault Refusal) : Prop := ∀ t, o = .next t → (tablesSound (outsideWork t) ↔ tablesSound (outsideWork s))

@[simp] theorem keptBy_next {s t : State} : KeptBy s (.next t) ↔ (tablesSound (outsideWork t) ↔ tablesSound (outsideWork s)) :=
  ⟨fun kept => kept t rfl, fun same u run => by
    cases run
    exact same⟩

@[simp] theorem keptBy_ite {s : State} {p : Prop} [Decidable p] {a b : Host.Outcome State Fault Refusal} :
    KeptBy s (if p then a else b) ↔ (p → KeptBy s a) ∧ (¬p → KeptBy s b) := by
  by_cases h : p <;> simp [h]

/-! Operations of Machine/Ops. -/

@[simp] theorem sound_putGal (s : State) (k : Nat) (g : Gallery) :
    tablesSound (outsideWork (putGal s k g)) ↔ tablesSound (outsideWork s) := Iff.rfl

@[simp] theorem sound_modGal (s : State) (k : Nat) (f : Gallery → Gallery) :
    tablesSound (outsideWork (modGal s k f)) ↔ tablesSound (outsideWork s) := Iff.rfl

@[simp] theorem sound_shadowSet (s : State) (p : Page) (off v : Nat) :
    tablesSound (outsideWork (shadowSet s p off v)) ↔ tablesSound (outsideWork s) := Iff.rfl

@[simp] theorem sound_putSrc (s : State) (n : Nat) (x : Source) :
    tablesSound (outsideWork (putSrc s n x)) ↔ tablesSound (outsideWork s) := Iff.rfl

@[simp] theorem sound_setLine (s : State) (n : Nat) (lvl : Bool) :
    tablesSound (outsideWork (setLine s n lvl)) ↔ tablesSound (outsideWork s) := Iff.rfl

@[simp] theorem sound_pulseLine (s : State) (n : Nat) :
    tablesSound (outsideWork (pulseLine s n)) ↔ tablesSound (outsideWork s) := Iff.rfl

@[simp] theorem sound_updateLine (s : State) (p : Page) :
    tablesSound (outsideWork (updateLine s p)) ↔ tablesSound (outsideWork s) := by
  unfold updateLine
  split <;> simp

@[simp] theorem sound_noteSmErr (s : State) (st : Nat) :
    tablesSound (outsideWork (noteSmErr s st)) ↔ tablesSound (outsideWork s) := by
  unfold noteSmErr
  split <;> simp

@[simp] theorem sound_putMc (s : State) (h : Nat) (m : MemCtl) :
    tablesSound (outsideWork (putMc s h m)) ↔ tablesSound (outsideWork s) := Iff.rfl

/-! Operations of Machine/Fabric. -/

@[simp] theorem sound_modLink (s : State) (n : Nat) (f : Link → Link) :
    tablesSound (outsideWork (modLink s n f)) ↔ tablesSound (outsideWork s) := Iff.rfl

@[simp] theorem sound_sendControl (s : State) (link : Nat) (data : List Byte) :
    tablesSound (outsideWork (sendControl s link data)) ↔ tablesSound (outsideWork s) := by simp [sendControl]

/-! Operations of Machine/Galleries. -/

@[simp] theorem sound_abortProbe (s : State) (k : Nat) :
    tablesSound (outsideWork (abortProbe s k)) ↔ tablesSound (outsideWork s) := by
  unfold abortProbe
  dsimp only
  split <;> simp

@[simp] theorem sound_leaveService (s : State) (k : Nat) (quar hold : Bool) :
    tablesSound (outsideWork (leaveService s k quar hold)) ↔ tablesSound (outsideWork s) := Iff.rfl

@[simp] theorem sound_enterSlot (s : State) (k slot : Nat) :
    tablesSound (outsideWork (enterSlot s k slot)) ↔ tablesSound (outsideWork s) := by simp [enterSlot]

@[simp] theorem sound_fillSlot (s : State) (h a slot : Nat) (spare : Option Nat) :
    tablesSound (outsideWork (fillSlot s h a slot spare).1) ↔ tablesSound (outsideWork s) := by
  unfold fillSlot
  split
  · exact sound_enterSlot ..
  · repeat' split
    all_goals rfl

@[simp] theorem sound_swapOut (s : State) (k : Nat) (quar hold : Bool) :
    tablesSound (outsideWork (swapOut s k quar hold).1) ↔ tablesSound (outsideWork s) := by simp [swapOut]

@[simp] theorem sound_refill (s : State) (h a : Nat) :
    tablesSound (outsideWork (refill s h a)) ↔ tablesSound (outsideWork s) := by
  unfold refill
  split
  · rfl
  · split
    · exact sound_enterSlot ..
    · rfl

@[simp] theorem sound_refillAll (s : State) :
    tablesSound (outsideWork (refillAll s)) ↔ tablesSound (outsideWork s) := by simp [refillAll]

@[simp] theorem sound_layOut (s : State) :
    tablesSound (outsideWork (layOut s)) ↔ tablesSound (outsideWork s) := by simp [layOut]

@[simp] theorem sound_releaseHold (s : State) (k : Nat) :
    tablesSound (outsideWork (releaseHold s k)) ↔ tablesSound (outsideWork s) := by simp [releaseHold]

/-! Operations of Machine/Pegs. -/

@[simp] theorem sound_bindPeg (s : State) (k ctx target : Nat) :
    tablesSound (outsideWork (bindPeg s k ctx target)) ↔ tablesSound (outsideWork s) := Iff.rfl

@[simp] theorem sound_ackPeg (s : State) (m : PegMsg) (status count target : Nat) :
    tablesSound (outsideWork (ackPeg s m status count target)) ↔ tablesSound (outsideWork s) := by simp [ackPeg]

@[simp] theorem sound_remotePegOp (s : State) (m : PegMsg) :
    tablesSound (outsideWork (remotePegOp s m)) ↔ tablesSound (outsideWork s) := by
  unfold remotePegOp
  simp only []
  repeat' split
  all_goals simp

@[simp] theorem sound_pegAcked (s : State) (ref status count target : Nat) :
    tablesSound (outsideWork (pegAcked s ref status count target)) ↔ tablesSound (outsideWork s) := by
  unfold pegAcked
  split <;> simp

/-! Operations of Machine/Events. -/

@[simp] theorem sound_raisePrivate (s : State) (proc src : Nat) :
    tablesSound (outsideWork (raisePrivate s proc src)) ↔ tablesSound (outsideWork s) := by simp [raisePrivate]

@[simp] theorem sound_ecScfgWrite (s : State) (w : Nat) :
    tablesSound (outsideWork (ecScfgWrite s w)) ↔ tablesSound (outsideWork s) := by simp [ecScfgWrite]

@[simp] theorem sound_ecRingWrite (s : State) (writer target : Nat) :
    tablesSound (outsideWork (ecRingWrite s writer target)) ↔ tablesSound (outsideWork s) := by simp [ecRingWrite]

@[simp] theorem sound_pgGreachWrite (s : State) (hall w : Nat) :
    tablesSound (outsideWork (pgGreachWrite s hall w)) ↔ tablesSound (outsideWork s) := by simp [pgGreachWrite]

@[simp] theorem sound_evtSetWrite (s : State) (p : Page) (w : Nat) :
    tablesSound (outsideWork (evtSetWrite s p w)) ↔ tablesSound (outsideWork s) := by simp [evtSetWrite]

@[simp] theorem sound_saveRetention (s : State) :
    tablesSound (outsideWork (saveRetention s)) ↔ tablesSound (outsideWork s) := by simp [saveRetention]

@[simp] theorem sound_relatch (s : State) :
    tablesSound (outsideWork (relatch s)) ↔ tablesSound (outsideWork s) := Iff.rfl

@[simp] theorem sound_restoreRetention (s : State) :
    tablesSound (outsideWork (restoreRetention s)) ↔ tablesSound (outsideWork s) := by
  unfold restoreRetention
  split <;> simp

/-! Operations of Machine/HostOps. -/

@[simp] theorem sound_respond (s : State) (o : Origin) (status : Nat) (payload : List Byte) :
    tablesSound (outsideWork (respond s o status payload)) ↔ tablesSound (outsideWork s) := by
  unfold respond
  split <;> simp

@[simp] theorem sound_answer (s : State) (o : Origin) (status : Nat) :
    tablesSound (outsideWork (answer s o status)) ↔ tablesSound (outsideWork s) := by simp [answer]

@[simp] theorem sound_logArrival (s : State) (seq id : Nat) :
    tablesSound (outsideWork (logArrival s seq id)) ↔ tablesSound (outsideWork s) := by simp [logArrival]

@[simp] theorem sound_startXfer (s : State) (qp : Nat) (k : XferKind) :
    tablesSound (outsideWork (startXfer s qp k).2) ↔ tablesSound (outsideWork s) := Iff.rfl

@[simp] theorem sound_startRead (s : State) (b : BufRef) (k : XferKind) :
    tablesSound (outsideWork (startRead s b k)) ↔ tablesSound (outsideWork s) := Iff.rfl

@[simp] theorem sound_startWrite (s : State) (b : BufRef) (data : List Byte) (k : XferKind) :
    tablesSound (outsideWork (startWrite s b data k)) ↔ tablesSound (outsideWork s) := Iff.rfl

@[simp] theorem sound_noteLatency (s : State) (h : Hdr) (payload : Nat) :
    tablesSound (outsideWork (noteLatency s h payload)) ↔ tablesSound (outsideWork s) := by simp [noteLatency]

@[simp] theorem sound_dropFrame (s : State) :
    tablesSound (outsideWork (dropFrame s)) ↔ tablesSound (outsideWork s) := by simp [dropFrame]

/-! Operations of Machine/Placement. -/

theorem sound_reserveRegions {s : State} {n : Nat} {c : Ctx} {p : Plan} {r : State × Ctx} (made : reserveRegions s n c p = some r) :
    tablesSound (outsideWork r.1) ↔ tablesSound (outsideWork s) := by
  simp only [reserveRegions, Option.ite_none_right_eq_some] at made
  obtain ⟨-, made⟩ := made
  rw [← Option.some.inj made]
  rfl

@[simp] theorem sound_growRegions (s : State) (n : Nat) :
    tablesSound (outsideWork (growRegions s n)) ↔ tablesSound (outsideWork s) := by
  unfold growRegions
  simp only []
  repeat' split
  all_goals simp

/-- A fold of steps that may fail keeps what every step keeps. -/
theorem sound_foldl_option {α β : Type} {f : Option (State × β) → α → Option (State × β)} (fails : ∀ x, f none x = none)
    (keeps : ∀ r x r', f (some r) x = some r' → (tablesSound (outsideWork r'.1) ↔ tablesSound (outsideWork r.1))) :
    ∀ (l : List α) (r r' : State × β), l.foldl f (some r) = some r' → (tablesSound (outsideWork r'.1) ↔ tablesSound (outsideWork r.1))
  | [], r, r', run => by rw [Option.some.inj run]
  | x :: l, r, r', run => by
    rw [List.foldl_cons] at run
    cases stepped : f (some r) x with
    | none =>
      have stuck : ∀ l : List α, l.foldl f none = none := fun l => by
        induction l with
        | nil => rfl
        | cons y l ih => rw [List.foldl_cons, fails, ih]
      rw [stepped, stuck] at run
      cases run
    | some u =>
      rw [stepped] at run
      exact (sound_foldl_option fails keeps l u r' run).trans (keeps r x u stepped)

theorem sound_bindPegs {s : State} {n : Nat} {c : Ctx} {p : Plan} {r : State × Ctx} (made : bindPegs s n c p = some r) :
    tablesSound (outsideWork r.1) ↔ tablesSound (outsideWork s) := by
  have one : ∀ (v : State × List Nat) (x : Nat × Nat) (v' : State × List Nat), (findPeg v.1 x.1).map (fun k => (bindPeg v.1 k n x.2, v.2 ++ [k])) = some v' →
      (tablesSound (outsideWork v'.1) ↔ tablesSound (outsideWork v.1)) := by
    intro v x v' bound
    obtain ⟨k, -, rfl⟩ := Option.map_eq_some_iff.mp bound
    exact sound_bindPeg ..
  unfold bindPegs at made
  dsimp only at made
  split at made
  · cases made
  · next s1 ks first =>
    split at made
    · cases made
    · next s2 cs second =>
      obtain rfl := Option.some.inj made
      have later : tablesSound (outsideWork s2) ↔ tablesSound (outsideWork s1) := by
        refine sound_foldl_option ?_ ?_ _ (s1, []) (s2, cs) second
        · exact fun _ => rfl
        · exact one
      have former : tablesSound (outsideWork s1) ↔ tablesSound (outsideWork s) := by
        refine sound_foldl_option ?_ ?_ _ (s, []) (s1, ks) first
        · exact fun _ => rfl
        · exact one
      exact later.trans former

@[simp] theorem sound_wakeHall (s : State) (h : Nat) :
    tablesSound (outsideWork (wakeHall s h)) ↔ tablesSound (outsideWork s) := by simp [wakeHall]

@[simp] theorem sound_wakeHalls (s : State) (hs : List Nat) :
    tablesSound (outsideWork (wakeHalls s hs)) ↔ tablesSound (outsideWork s) := by simp [wakeHalls]

@[simp] theorem sound_setOwner (tag : Nat) (s : State) (m : Slot) :
    tablesSound (outsideWork (setOwner tag s m)) ↔ tablesSound (outsideWork s) := by
  unfold setOwner
  split <;> simp

@[simp] theorem sound_ownFrames (s : State) (c : Ctx) (tag : Nat) :
    tablesSound (outsideWork (ownFrames s c tag)) ↔ tablesSound (outsideWork s) := by simp [ownFrames]

/-! Operations of Machine/Gauges. -/

@[simp] theorem sound_meetBoundary (s : State) (ctx g : Nat) :
    tablesSound (outsideWork (meetBoundary s ctx g)) ↔ tablesSound (outsideWork s) := by
  unfold meetBoundary
  dsimp only
  split <;> simp

@[simp] theorem sound_applyAllStaged (s : State) (ctx : Nat) :
    tablesSound (outsideWork (applyAllStaged s ctx)) ↔ tablesSound (outsideWork s) := by simp [applyAllStaged]

@[simp] theorem sound_awaitGauges (s : State) (w : WoHdr) (outs : List Nat) :
    tablesSound (outsideWork (awaitGauges s w outs)) ↔ tablesSound (outsideWork s) := by
  unfold awaitGauges
  dsimp only
  split <;> simp

@[simp] theorem sound_stageWord (s : State) (hi : Nat) :
    tablesSound (outsideWork (stageWord s hi)) ↔ tablesSound (outsideWork s) := by
  unfold stageWord
  simp only []
  repeat' split
  all_goals simp

/-! Operations of Machine/Contexts. -/

@[simp] theorem sound_refuse (s : State) (o : Origin) (st : Nat) (payload : List Byte) :
    tablesSound (outsideWork (refuse s o st payload)) ↔ tablesSound (outsideWork s) := by simp [refuse]

@[simp] theorem sound_releaseActive (s : State) (n : Nat) :
    tablesSound (outsideWork (releaseActive s n)) ↔ tablesSound (outsideWork s) := by
  simp [releaseActive, outsideWork_freePegs]

@[simp] theorem sound_formActive (s : State) (n : Nat) (c : Ctx) (p : Plan) (frames : Option (SMap (List Slot))) (keepCommit : Bool) :
    tablesSound (outsideWork (formActive s n c p frames keepCommit).s) ↔ tablesSound (outsideWork s) := by
  unfold formActive
  split
  · rfl
  · dsimp only
    split
    · rfl
    · next bound =>
      split
      · rfl
      · split
        · rfl
        · next reserved =>
          simp only [sound_wakeHalls, sound_ownFrames, outsideWork_putCtx]
          exact (sound_reserveRegions reserved).trans (sound_bindPegs bound)

@[simp] theorem sound_activate (s : State) (n slot : Nat) (table : Option (List Byte)) :
    tablesSound (outsideWork (activate s n slot table).s) ↔ tablesSound (outsideWork s) := by
  unfold activate
  simp only []
  repeat' split
  all_goals simp

@[simp] theorem sound_noteSwitch (s : State) (o : Origin) (n : Nat) :
    tablesSound (outsideWork (noteSwitch s o n)) ↔ tablesSound (outsideWork s) := by simp [noteSwitch]

@[simp] theorem sound_switchCtxs (s : State) (o : Origin) (outs : List Nat) (n : Nat) (table : Option (List Byte)) :
    tablesSound (outsideWork (switchCtxs s o outs n table).s) ↔ tablesSound (outsideWork s) := by
  unfold switchCtxs
  simp only []
  repeat' split
  all_goals simp

@[simp] theorem sound_bindPlan (s : State) (n : Nat) (p : Plan) (table : List FrameReq) :
    tablesSound (outsideWork (bindPlan s n p table).s) ↔ tablesSound (outsideWork s) := by
  unfold bindPlan
  dsimp only
  split
  · rfl
  · split
    · simp
    · split
      · rfl
      · simp [outsideWork_freePegs]

@[simp] theorem sound_answerDid (d : Did) (o : Origin) : tablesSound (outsideWork (answerDid d o)) ↔ tablesSound (outsideWork d.s) := by
  unfold answerDid
  split <;> simp

@[simp] theorem sound_planArrived (s : State) (o : Origin) (n : Nat) (img : List Byte) (tbl : Option (List Byte)) :
    tablesSound (outsideWork (planArrived s o n img tbl)) ↔ tablesSound (outsideWork s) := by
  unfold planArrived
  dsimp only
  split
  · simp
  · repeat' split
    all_goals simp

@[simp] theorem sound_bindHeld (s : State) (n : Nat) :
    tablesSound (outsideWork (bindHeld s n)) ↔ tablesSound (outsideWork s) := by
  unfold bindHeld
  split
  · rfl
  · simp

@[simp] theorem sound_retarget (s : State) (n : Nat) :
    tablesSound (outsideWork (retarget s n)) ↔ tablesSound (outsideWork s) := by
  unfold retarget
  dsimp only
  split <;> simp

@[simp] theorem sound_suspendNoFit (s : State) (n : Nat) :
    tablesSound (outsideWork (suspendNoFit s n)) ↔ tablesSound (outsideWork s) := by simp [suspendNoFit]

@[simp] theorem sound_replaceCtx (h a slot : Nat) (s : State) (n : Nat) :
    tablesSound (outsideWork (replaceCtx h a slot s n)) ↔ tablesSound (outsideWork s) := by
  unfold replaceCtx
  dsimp only
  split <;> simp

@[simp] theorem sound_replaceSlot (s : State) (h a : Nat) (x : Option Nat) :
    tablesSound (outsideWork (replaceSlot s h a x)) ↔ tablesSound (outsideWork s) := by
  unfold replaceSlot
  split <;> simp

@[simp] theorem sound_swapGallery (s : State) (k : Nat) (quar hold : Bool) :
    tablesSound (outsideWork (swapGallery s k quar hold)) ↔ tablesSound (outsideWork s) := by
  unfold swapGallery
  simp only []
  repeat' split
  all_goals simp

@[simp] theorem sound_writeParts (s : State) (o : Origin) (n : Nat) (b : BufRef) (x : ImageParts) :
    tablesSound (outsideWork (writeParts s o n b x)) ↔ tablesSound (outsideWork s) := by
  unfold writeParts
  simp only [sound_startWrite, outsideWork_modCtx, outsideWork_emit]
  exact sound_foldl (fun s e => by rw [outsideWork_emit]) _ s

@[simp] theorem sound_doExport (kj7 : Bool) (s : State) (o : Origin) (n : Nat) (b : BufRef) :
    tablesSound (outsideWork (doExport kj7 s o n b)) ↔ tablesSound (outsideWork s) := by
  unfold doExport
  simp only []
  repeat' split
  all_goals simp

@[simp] theorem sound_refuseRestore (s0 : State) (o : Origin) (st idx : Nat) :
    tablesSound (outsideWork (refuseRestore s0 o st idx)) ↔ tablesSound (outsideWork s0) := by simp [refuseRestore]

@[simp] theorem sound_restoreCtx (s : State) (o : Origin) (n : Nat) (r : RestoreArgs) (img : List Byte) (plan tbl : Option (List Byte)) :
    tablesSound (outsideWork (restoreCtx s o n r img plan tbl)) ↔ tablesSound (outsideWork s) := by
  unfold restoreCtx
  simp only []
  repeat' split
  all_goals simp

@[simp] theorem sound_doCreate (s : State) (o : Origin) (n : Nat) (journal : Bool) (seed : Option (BitVec 64)) :
    tablesSound (outsideWork (doCreate s o n journal seed)) ↔ tablesSound (outsideWork s) := by simp [doCreate]

@[simp] theorem sound_doLoadPlan (s : State) (o : Origin) (n : Nat) (plan table : BufRef) :
    tablesSound (outsideWork (doLoadPlan s o n plan table)) ↔ tablesSound (outsideWork s) := by
  unfold doLoadPlan
  split <;> simp

@[simp] theorem sound_doSetSeed (s : State) (o : Origin) (n : Nat) (seed : BitVec 64) :
    tablesSound (outsideWork (doSetSeed s o n seed)) ↔ tablesSound (outsideWork s) := by simp [doSetSeed]

@[simp] theorem sound_doActivate (s : State) (o : Origin) (n : Nat) (table : Option BufRef) :
    tablesSound (outsideWork (doActivate s o n table)) ↔ tablesSound (outsideWork s) := by
  unfold doActivate
  split
  · simp
  · split
    · dsimp only
      split <;> simp
    · rw [sound_answerDid]
      dsimp only
      split <;> simp

@[simp] theorem sound_doDeactivate (s : State) (o : Origin) (n : Nat) :
    tablesSound (outsideWork (doDeactivate s o n)) ↔ tablesSound (outsideWork s) := by simp [doDeactivate]

@[simp] theorem sound_doSwitch (s : State) (o : Origin) (outs : List Nat) (n : Nat) (table : Option BufRef) :
    tablesSound (outsideWork (doSwitch s o outs n table)) ↔ tablesSound (outsideWork s) := by
  unfold doSwitch
  split
  · simp
  · split
    · dsimp only
      split <;> simp
    · simp

@[simp] theorem sound_doResume (s : State) (o : Origin) (n : Nat) :
    tablesSound (outsideWork (doResume s o n)) ↔ tablesSound (outsideWork s) := by simp [doResume]

@[simp] theorem sound_doRestore (s : State) (o : Origin) (n : Nat) (r : RestoreArgs) :
    tablesSound (outsideWork (doRestore s o n r)) ↔ tablesSound (outsideWork s) := by
  unfold doRestore
  simp only []
  repeat' split
  all_goals simp

@[simp] theorem sound_doDestroy (s : State) (o : Origin) (n : Nat) :
    tablesSound (outsideWork (doDestroy s o n)) ↔ tablesSound (outsideWork s) := by simp [doDestroy]

@[simp] theorem sound_doSetWindow (s : State) (o : Origin) (n : Nat) (b : BufRef) :
    tablesSound (outsideWork (doSetWindow s o n b)) ↔ tablesSound (outsideWork s) := by
  unfold doSetWindow
  split <;> simp

/-! Operations of Machine/Rotation. -/

@[simp] theorem sound_tryRotate (s : State) (h a : Nat) :
    tablesSound (outsideWork (tryRotate s h a)) ↔ tablesSound (outsideWork s) := by
  unfold tryRotate
  split <;> simp

@[simp] theorem sound_tryRequest (s : State) (h a : Nat) :
    tablesSound (outsideWork (tryRequest s h a)) ↔ tablesSound (outsideWork s) := by
  unfold tryRequest
  simp only []
  repeat' split
  all_goals simp

@[simp] theorem sound_aisleSwaps (s : State) (h a : Nat) :
    tablesSound (outsideWork (aisleSwaps s h a)) ↔ tablesSound (outsideWork s) := by simp [aisleSwaps]

@[simp] theorem sound_boundarySwaps (s : State) (n : Nat) :
    tablesSound (outsideWork (boundarySwaps s n)) ↔ tablesSound (outsideWork s) := by simp [boundarySwaps]

@[simp] theorem sound_startTest (s : State) (k : Nat) (req : Bool) :
    tablesSound (outsideWork (startTest s k req)) ↔ tablesSound (outsideWork s) := by simp [startTest]

@[simp] theorem sound_requestOne (s : State) (k : Nat) :
    tablesSound (outsideWork (requestOne s k)) ↔ tablesSound (outsideWork s) := by
  unfold requestOne
  dsimp only
  split <;> simp

@[simp] theorem sound_suspectGal (s : State) (k : Nat) :
    tablesSound (outsideWork (suspectGal s k)) ↔ tablesSound (outsideWork s) := by simp [suspectGal]

/-! Operations of Machine/Pairing. -/

@[simp] theorem sound_endPairing (s : State) :
    tablesSound (outsideWork (endPairing s)) ↔ tablesSound (outsideWork s) := by
  unfold endPairing
  simp only []
  repeat' split
  all_goals simp

@[simp] theorem sound_noteUnpair (s : State) :
    tablesSound (outsideWork (noteUnpair s)) ↔ tablesSound (outsideWork s) := by
  unfold noteUnpair
  split <;> simp

@[simp] theorem sound_startRollback (s : State) (n : Nat) :
    tablesSound (outsideWork (startRollback s n)) ↔ tablesSound (outsideWork s) := by
  unfold startRollback
  dsimp only
  split <;> simp

@[simp] theorem sound_dueRollback (s : State) (n : Nat) :
    tablesSound (outsideWork (dueRollback s n)) ↔ tablesSound (outsideWork s) := by simp [dueRollback]

@[simp] theorem sound_openRetrains (s : State) :
    tablesSound (outsideWork (openRetrains s)) ↔ tablesSound (outsideWork s) := by simp [openRetrains]

/-! Operations of Machine/Admission. -/

@[simp] theorem sound_resetCtxPegs (s : State) (n target : Nat) :
    tablesSound (outsideWork (resetCtxPegs s n target)) ↔ tablesSound (outsideWork s) := by
  unfold resetCtxPegs
  dsimp only
  split <;> simp

@[simp] theorem sound_resetTwinPegs (s : State) (n target : Nat) :
    tablesSound (outsideWork (resetTwinPegs s n target)) ↔ tablesSound (outsideWork s) := by
  unfold resetTwinPegs
  split <;> simp

@[simp] theorem sound_startAttempt (s : State) (n off len : Nat) (split halfOff : Bool) :
    tablesSound (outsideWork (startAttempt s n off len split halfOff)) ↔ tablesSound (outsideWork s) := by
  unfold startAttempt
  dsimp only
  split <;> simp

@[simp] theorem sound_doAdmit (s : State) (o : Origin) (n off len : Nat) :
    tablesSound (outsideWork (doAdmit s o n off len)) ↔ tablesSound (outsideWork s) := by
  unfold doAdmit
  split <;> simp

@[simp] theorem sound_doEval (s : State) (o : Origin) (n evalno : Nat) (take : Bool) (off len : Nat) :
    tablesSound (outsideWork (doEval s o n evalno take off len)) ↔ tablesSound (outsideWork s) := by
  unfold doEval
  simp only []
  repeat' split
  all_goals simp

@[simp] theorem sound_ctxCmd (s : State) (o : Origin) (n : Nat) (c : HostCmd) :
    tablesSound (outsideWork (ctxCmd s o n c)) ↔ tablesSound (outsideWork s) := by
  cases c with
  | create => exact sound_doCreate ..
  | loadPlan => exact sound_doLoadPlan ..
  | setSeed => exact sound_doSetSeed ..
  | activate => exact sound_doActivate ..
  | deactivate => exact sound_doDeactivate ..
  | switch => exact sound_doSwitch ..
  | resume => exact sound_doResume ..
  | export_ => exact sound_doExport ..
  | restore => exact sound_doRestore ..
  | exportKj7 => exact sound_doExport ..
  | destroy => exact sound_doDestroy ..
  | admit_ => exact sound_doAdmit ..
  | eval => exact sound_doEval ..
  | setWindow => exact sound_doSetWindow ..
  | _ => exact sound_answer s o stOpcodeInvalid

@[simp] theorem sound_runQueue (k : Nat) (s : State) (n : Nat) :
    tablesSound (outsideWork (runQueue k s n)) ↔ tablesSound (outsideWork s) := by
  induction k generalizing s with
  | zero => rfl
  | succ k ih =>
    unfold runQueue
    split
    · rfl
    · split
      · rfl
      · rw [ih, sound_ctxCmd, outsideWork_modCtx]

@[simp] theorem sound_runQueues (s : State) (n : Nat) :
    tablesSound (outsideWork (runQueues s n)) ↔ tablesSound (outsideWork s) := by simp [runQueues]

@[simp] theorem sound_enqueueCmd (s : State) (o : Origin) (n : Nat) (cmd : HostCmd) :
    tablesSound (outsideWork (enqueueCmd s o n cmd)) ↔ tablesSound (outsideWork s) := by simp [enqueueCmd]

@[simp] theorem sound_stepBoundary (s : State) (n : Nat) :
    tablesSound (outsideWork (stepBoundary s n)) ↔ tablesSound (outsideWork s) := by simp [stepBoundary]

/-! Operations of Machine/Commit. -/

@[simp] theorem sound_partyLost (s : State) (n d : Nat) :
    tablesSound (outsideWork (partyLost s n d)) ↔ tablesSound (outsideWork s) := by
  unfold partyLost
  dsimp only
  split <;> simp

/-! Operations of Machine/Closing. -/

@[simp] theorem sound_closeLoss (s : State) (n : Nat) (p : Plan) (commit : Bool) (lower : Option Nat) :
    tablesSound (outsideWork (closeLoss s n p commit lower)) ↔ tablesSound (outsideWork s) := by
  unfold closeLoss
  split <;> simp

@[simp] theorem sound_closeTreads (s : State) (n : Nat) (p : Plan) (a : Attempt) (outcome : Nat) :
    tablesSound (outsideWork (closeTreads s n p a outcome)) ↔ tablesSound (outsideWork s) := by
  refine sound_foldl (fun s x => ?_) _ s
  dsimp only
  repeat' split
  all_goals simp

@[simp] theorem sound_closeNow (s : State) (n : Nat) (ok : Bool) :
    tablesSound (outsideWork (closeNow s n ok)) ↔ tablesSound (outsideWork s) := by
  unfold closeNow
  dsimp only
  split <;> simp

@[simp] theorem sound_sendSettle (s : State) (n d : Nat) :
    tablesSound (outsideWork (sendSettle s n d)) ↔ tablesSound (outsideWork s) := by
  unfold sendSettle
  split <;> simp

@[simp] theorem sound_settleFinal (s : State) (n : Nat) (rs : List (List Nat)) (r i : Nat) :
    tablesSound (outsideWork (settleFinal s n rs r i)) ↔ tablesSound (outsideWork s) := by simp [settleFinal]

@[simp] theorem sound_settleClimb (s : State) (n : Nat) (rs : List (List Nat)) (r i : Nat) :
    tablesSound (outsideWork (settleClimb s n rs r i)) ↔ tablesSound (outsideWork s) := by
  unfold settleClimb
  simp only []
  repeat' split
  all_goals simp

@[simp] theorem sound_settleTake (s : State) (n : Nat) (rs : List (List Nat)) (r i : Nat) (x : Nat × Bool × List Nat) :
    tablesSound (outsideWork (settleTake s n rs r i x)) ↔ tablesSound (outsideWork s) := by
  unfold settleTake
  simp only []
  repeat' split
  all_goals simp

@[simp] theorem sound_startSettle (s : State) (n : Nat) :
    tablesSound (outsideWork (startSettle s n)) ↔ tablesSound (outsideWork s) := by
  unfold startSettle
  simp only []
  repeat' split
  all_goals simp

@[simp] theorem sound_closePhase (s : State) (n : Nat) :
    tablesSound (outsideWork (closePhase s n).1) ↔ tablesSound (outsideWork s) := by
  unfold closePhase
  simp only []
  repeat' split
  all_goals simp

@[simp] theorem sound_settleMsg (s : State) (src n step : Nat) (lower : Bool) (raises : List Nat) :
    tablesSound (outsideWork (settleMsg s src n step lower raises).1) ↔ tablesSound (outsideWork s) := by
  unfold settleMsg
  simp only []
  repeat' split
  all_goals simp

/-! Operations of Machine/Faulty. -/

@[simp] theorem sound_recoveryEnds (s : State) (n t : Nat) :
    tablesSound (outsideWork (recoveryEnds s n t)) ↔ tablesSound (outsideWork s) := by
  unfold recoveryEnds
  split <;> simp

@[simp] theorem sound_declareLost (s : State) (unit code : Nat) :
    tablesSound (outsideWork (declareLost s unit code)) ↔ tablesSound (outsideWork s) := by
  unfold declareLost
  split
  · rfl
  · simp [outsideWork_sendBeats]

@[simp] theorem sound_fence (s : State) (tag : Nat) :
    tablesSound (outsideWork (fence s tag)) ↔ tablesSound (outsideWork s) := by
  unfold fence
  split
  · rfl
  · next new =>
    split
    · simp
    · next room =>
      have added : tag ∉ s.fence := by simpa using new
      simp only [tablesSound, outsideWork, List.length_append, List.length_singleton, List.nodup_append, List.nodup_singleton, true_and, List.mem_singleton]
      refine and_congr ⟨fun _ => by omega, fun _ => by omega⟩ (and_congr_left fun _ => ⟨And.left, fun once => ⟨once, ?_⟩⟩)
      rintro x mem _ rfl rfl
      exact added mem

@[simp] theorem sound_failMember (s : State) (n h a slot : Nat) :
    tablesSound (outsideWork (failMember s n h a slot)) ↔ tablesSound (outsideWork s) := by
  unfold failMember
  split
  · rfl
  · refine sound_foldl (fun s k => ?_) _ s
    change tablesSound (outsideWork (List.foldl _ s _)) ↔ _
    exact sound_foldl (fun t e => by rw [outsideWork_addDone]) _ s

@[simp] theorem sound_hitTraining (s : State) (n code : Nat) :
    tablesSound (outsideWork (hitTraining s n code)) ↔ tablesSound (outsideWork s) := by
  unfold hitTraining
  dsimp only
  split <;> simp

@[simp] theorem sound_markFailed (s : State) (k : Nat) :
    tablesSound (outsideWork (markFailed s k)) ↔ tablesSound (outsideWork s) := by simp [markFailed]

@[simp] theorem sound_galleryFault (s : State) (k code ns : Nat) (lease : Bool) :
    tablesSound (outsideWork (galleryFault s k code ns lease)) ↔ tablesSound (outsideWork s) := by
  unfold galleryFault
  dsimp only
  split <;> simp

/-! Operations of Machine/Work. -/

@[simp] theorem sound_galleryFaultFree (s : State) (k code : Nat) :
    tablesSound (outsideWork (galleryFaultFree s k code)) ↔ tablesSound (outsideWork s) := by simp [galleryFaultFree]

@[simp] theorem sound_countNow (s : State) (w : WoHdr) (t : Tally) :
    tablesSound (outsideWork (countNow s w t)) ↔ tablesSound (outsideWork s) := Iff.rfl

@[simp] theorem sound_noteSlip (s : State) (w : WoHdr) (x : SlipAt) (bitNo : Nat) :
    tablesSound (outsideWork (noteSlip s w x bitNo)) ↔ tablesSound (outsideWork s) := by simp [noteSlip]

@[simp] theorem sound_blameWriter (s : State) (w : WoHdr) (x : SlipAt) :
    tablesSound (outsideWork (blameWriter s w x)) ↔ tablesSound (outsideWork s) := by
  unfold blameWriter
  simp only []
  repeat' split
  all_goals simp

@[simp] theorem sound_secondSlip (s : State) (w : WoHdr) (x : SlipAt) :
    tablesSound (outsideWork (secondSlip s w x)) ↔ tablesSound (outsideWork s) := by simp [secondSlip]

@[simp] theorem sound_slipped (s : State) (sent w : WoHdr) (x : SlipAt) :
    tablesSound (outsideWork (slipped s sent w x)) ↔ tablesSound (outsideWork s) := by
  unfold slipped
  dsimp only
  split <;> simp

@[simp] theorem sound_pushLayer (s : State) (w : WoHdr) (p : Plan) (i : Nat) (l : LayerRec) :
    tablesSound (outsideWork (pushLayer s w p i l)) ↔ tablesSound (outsideWork s) := by
  refine sound_foldl (fun s e => ?_) _ s
  dsimp only
  split
  · rfl
  · split <;> simp

@[simp] theorem sound_pushFrame (s : State) (w : WoHdr) (tid : Nat) :
    tablesSound (outsideWork (pushFrame s w tid)) ↔ tablesSound (outsideWork s) := by
  unfold pushFrame
  dsimp only
  split <;> simp

@[simp] theorem sound_pushOuts (s : State) (w : WoHdr) (outs : List Nat) :
    tablesSound (outsideWork (pushOuts s w outs)) ↔ tablesSound (outsideWork s) := by simp [pushOuts]

theorem sound_startAgain (s : State) (w : WoHdr) (unit kind : Nat) :
    tablesSound (outsideWork (startAgain s w unit kind).left) ↔ tablesSound (outsideWork s) := by
  unfold startAgain
  split
  · rfl
  · split
    · rfl
    · rw [outsideWork_startWork]

@[simp] theorem sound_finishWork (s : State) (w : WoHdr) (outs : List Nat) (r : Ctx × WoDone) :
    tablesSound (outsideWork (finishWork s w outs r)) ↔ tablesSound (outsideWork s) := by simp [finishWork]

@[simp] theorem sound_runWork (unit kind : Nat) (reads : Ctx → List ReadSet) (outs : List Nat) (f : WorkFn) (sent : WoHdr) (s : State) :
    tablesSound (outsideWork (runWork unit kind reads outs f sent s)) ↔ tablesSound (outsideWork s) := by
  unfold runWork
  split
  · rfl
  · split
    · simp
    · have again := sound_startAgain s sent unit kind
      split
      · next stopped =>
        rw [stopped] at again
        exact again
      · next started =>
        rw [started] at again
        dsimp only
        split
        · simpa using again
        · simpa using again

/-! Operations of Machine/Elementwise. -/

@[simp] theorem sound_refuseJoiner (s : State) (w : WoHdr) (kind st : Nat) :
    tablesSound (outsideWork (refuseJoiner s w kind st)) ↔ tablesSound (outsideWork s) := by simp [refuseJoiner]

@[simp] theorem sound_ewWork (op : Nat) (two three : Bool) (f : Ctx → WoHdr → EwArgs → Ctx × WoDone) (w : WoHdr) (a : EwArgs) (s : State) :
    tablesSound (outsideWork (ewWork op two three f w a s)) ↔ tablesSound (outsideWork s) := by simp [ewWork]

/-! Operations of Machine/Movement. -/

@[simp] theorem sound_moveFailed (s : State) (w : WoHdr) (mx : Bool) :
    tablesSound (outsideWork (moveFailed s w mx)) ↔ tablesSound (outsideWork s) := by simp [moveFailed]

@[simp] theorem sound_startMoveIn (s : State) (w : WoHdr) (a : MvArgs) (k : XferKind) (mx : Bool) :
    tablesSound (outsideWork (startMoveIn s w a k mx)) ↔ tablesSound (outsideWork s) := by
  unfold startMoveIn
  split <;> simp

@[simp] theorem sound_startMoveOut (s : State) (w : WoHdr) (off : Nat) (data : List Byte) (mx : Bool) :
    tablesSound (outsideWork (startMoveOut s w off data mx)) ↔ tablesSound (outsideWork s) := by
  unfold startMoveOut
  split <;> simp

@[simp] theorem sound_moveInDone (s : State) (w : WoHdr) (tid off : Nat) (data : List Byte) (ok : Bool) :
    tablesSound (outsideWork (moveInDone s w tid off data ok)) ↔ tablesSound (outsideWork s) := by simp [moveInDone]

@[simp] theorem sound_mxInDone (s : State) (w : WoHdr) (a : MvArgs) (x : MxArgs) (data : List Byte) (ok : Bool) :
    tablesSound (outsideWork (mxInDone s w a x data ok)) ↔ tablesSound (outsideWork s) := by simp [mxInDone]

@[simp] theorem sound_moveOutDone (s : State) (w : WoHdr) (ok : Bool) :
    tablesSound (outsideWork (moveOutDone s w ok)) ↔ tablesSound (outsideWork s) := by simp [moveOutDone]

theorem sound_moveStart (w : WoHdr) (s : State) {go : State → WoHdr → State} (keeps : ∀ s w, tablesSound (outsideWork (go s w)) ↔ tablesSound (outsideWork s)) :
    tablesSound (outsideWork (moveStart w s go)) ↔ tablesSound (outsideWork s) := by
  unfold moveStart
  split
  · rfl
  · split
    · simp
    · have again := sound_startAgain s w 3 3
      split
      · next stopped =>
        rw [stopped] at again
        exact again
      · next started =>
        rw [started] at again
        exact (keeps ..).trans again

/-! Operations of Machine/Arrays. -/

@[simp] theorem sound_noteSample (s : State) (w : WoHdr) (bay digest : Nat) :
    tablesSound (outsideWork (noteSample s w bay digest)) ↔ tablesSound (outsideWork s) := by
  unfold noteSample
  simp only []
  repeat' split
  all_goals simp

@[simp] theorem sound_refuseTile (s : State) (w : WoHdr) (bay st : Nat) (pair b2 : Bool) :
    tablesSound (outsideWork (refuseTile s w bay st pair b2)) ↔ tablesSound (outsideWork s) := by simp [refuseTile]

@[simp] theorem sound_countBay (s : State) (k bay tiles macs : Nat) :
    tablesSound (outsideWork (countBay s k bay tiles macs)) ↔ tablesSound (outsideWork s) := by
  unfold countBay
  split <;> simp

@[simp] theorem sound_countTile (s : State) (w : WoHdr) (a : MtArgs) :
    tablesSound (outsideWork (countTile s w a)) ↔ tablesSound (outsideWork s) := by
  unfold countTile
  split <;> simp

@[simp] theorem sound_noteWide (s : State) (w : WoHdr) (a : MtArgs) (wide : Bool) :
    tablesSound (outsideWork (noteWide s w a wide)) ↔ tablesSound (outsideWork s) := by simp [noteWide]

/-! Operations of Machine/Reroute. -/

@[simp] theorem sound_trainLink (s : State) (link : Nat) :
    tablesSound (outsideWork (trainLink s link)) ↔ tablesSound (outsideWork s) := Iff.rfl

/-! Operations of Machine/Update. -/

@[simp] theorem sound_notRestored (s : State) (n tid ord : Nat) :
    tablesSound (outsideWork (notRestored s n tid ord)) ↔ tablesSound (outsideWork s) := by
  unfold notRestored
  dsimp only
  split <;> simp

/-! Operations of Machine/Settle. -/

@[simp] theorem sound_afterClose (s : State) (n : Nat) :
    tablesSound (outsideWork (afterClose s n)) ↔ tablesSound (outsideWork s) := by simp [afterClose]

@[simp] theorem sound_closed (r : State × Bool) (n : Nat) :
    tablesSound (outsideWork (closed r n)) ↔ tablesSound (outsideWork r.1) := by simp [closed]

@[simp] theorem sound_repeatRefused (s : State) (n h st : Nat) :
    tablesSound (outsideWork (repeatRefused s n h st)) ↔ tablesSound (outsideWork s) := by simp [repeatRefused]

/-! Operations of Machine/Links. -/

@[simp] theorem sound_oweCredit (s : State) (link tc vc : Nat) :
    tablesSound (outsideWork (oweCredit s link tc vc)) ↔ tablesSound (outsideWork s) := Iff.rfl

@[simp] theorem sound_pumpLink (s : State) (link : Nat) :
    tablesSound (outsideWork (pumpLink s link)) ↔ tablesSound (outsideWork s) := by simp [pumpLink]

@[simp] theorem sound_sendNak (s : State) (link : Nat) :
    tablesSound (outsideWork (sendNak s link)) ↔ tablesSound (outsideWork s) := Iff.rfl

@[simp] theorem sound_replay (s : State) (link seq : Nat) :
    tablesSound (outsideWork (replay s link seq)) ↔ tablesSound (outsideWork s) := by
  unfold replay
  have sent (l : List Flit) (f : Flit → Flit) (t : State) : tablesSound (outsideWork (l.foldl (fun s x => emit s (.flit link (f x))) t)) ↔ tablesSound (outsideWork t) :=
    sound_foldl (fun s x => by rw [outsideWork_emit]) l t
  refine sound_cond Iff.rfl (sound_cond ?_ ?_)
  · rw [outsideWork_bumpSat]
    rfl
  · rw [sent, outsideWork_bumpSat]
    rfl

@[simp] theorem sound_releaseShadows (s : State) (d : Nat) :
    tablesSound (outsideWork (releaseShadows s d)) ↔ tablesSound (outsideWork s) :=
  sound_foldl (fun s e => by simp [outsideWork_freePegs]) _ s

@[simp] theorem sound_pairingTaken (s : State) (f : Flit) :
    tablesSound (outsideWork (pairingTaken s f)) ↔ tablesSound (outsideWork s) := by
  unfold pairingTaken
  simp only []
  repeat' split
  all_goals simp

@[simp] theorem sound_release (k : Nat) (s : State) (key : Nat) :
    tablesSound (outsideWork (release k s key)) ↔ tablesSound (outsideWork s) := by
  induction k generalizing s with
  | zero => rfl
  | succ k ih =>
    unfold release
    dsimp only
    split
    · rfl
    · rw [ih]
      split <;> simp

@[simp] theorem sound_deliverFlit (s : State) (link : Nat) (f : Flit) :
    tablesSound (outsideWork (deliverFlit s link f)) ↔ tablesSound (outsideWork s) := by
  unfold deliverFlit
  simp only []
  repeat' split
  all_goals simp

@[simp] theorem sound_forwardFlit (s : State) (link : Nat) (f : Flit) :
    tablesSound (outsideWork (forwardFlit s link f)) ↔ tablesSound (outsideWork s) := by simp [forwardFlit]

@[simp] theorem sound_packetFlit (s : State) (link : Nat) (f : Flit) :
    tablesSound (outsideWork (packetFlit s link f)) ↔ tablesSound (outsideWork s) := by
  unfold packetFlit
  split <;> simp

@[simp] theorem sound_creditBreach (s : State) (link : Nat) :
    tablesSound (outsideWork (creditBreach s link)) ↔ tablesSound (outsideWork s) := by simp [creditBreach]

/-! Operations of Machine/Voting. -/

@[simp] theorem sound_standIn (s : State) (n d : Nat) (t : Option Nat) :
    tablesSound (outsideWork (standIn s n d t)) ↔ tablesSound (outsideWork s) := by simp [standIn]

@[simp] theorem sound_suspectEngines (s : State) (e : Nat) :
    tablesSound (outsideWork (suspectEngines s e)) ↔ tablesSound (outsideWork s) := Iff.rfl

@[simp] theorem sound_expel (s : State) (n d : Nat) :
    tablesSound (outsideWork (expel s n d)) ↔ tablesSound (outsideWork s) := by simp [expel]

@[simp] theorem sound_voteFails (s : State) (n : Nat) (stays : Bool) :
    tablesSound (outsideWork (voteFails s n stays)) ↔ tablesSound (outsideWork s) := by simp [voteFails]

@[simp] theorem sound_decideVote (s : State) (n : Nat) :
    tablesSound (outsideWork (decideVote s n)) ↔ tablesSound (outsideWork s) := by
  unfold decideVote
  simp only []
  repeat' split
  all_goals simp

@[simp] theorem sound_rollbackArrived (s : State) (n : Nat) (img : List Byte) (ok : Bool) :
    tablesSound (outsideWork (rollbackArrived s n img ok)) ↔ tablesSound (outsideWork s) := by
  unfold rollbackArrived
  dsimp only
  split <;> simp

/-! Operations of Machine/Twin. -/

@[simp] theorem sound_yieldSlots (ms : List Slot) (s : State) (n : Nat) :
    tablesSound (outsideWork (yieldSlots ms s n)) ↔ tablesSound (outsideWork s) := by simp [yieldSlots]

@[simp] theorem sound_takeShadow (s : State) (n : Nat) :
    tablesSound (outsideWork (takeShadow s n)) ↔ tablesSound (outsideWork s) := by
  unfold takeShadow
  dsimp only
  split <;> simp

@[simp] theorem sound_takeovers (s : State) :
    tablesSound (outsideWork (takeovers s)) ↔ tablesSound (outsideWork s) := by simp [takeovers]

@[simp] theorem sound_revokeWaits (s : State) (d : Nat) :
    tablesSound (outsideWork (revokeWaits s d)) ↔ tablesSound (outsideWork s) :=
  sound_foldl (fun s e => by simp) _ _

@[simp] theorem sound_twinGone (s : State) (d : Nat) :
    tablesSound (outsideWork (twinGone s d)) ↔ tablesSound (outsideWork s) := by
  unfold twinGone
  split <;> simp

@[simp] theorem sound_groupLoss (d : Nat) (s : State) (n : Nat) :
    tablesSound (outsideWork (groupLoss d s n)) ↔ tablesSound (outsideWork s) := by
  unfold groupLoss
  split <;> simp

@[simp] theorem sound_memberGone (s : State) (d : Nat) :
    tablesSound (outsideWork (memberGone s d)) ↔ tablesSound (outsideWork s) := by
  unfold memberGone
  split
  · rfl
  · rw [sound_takeovers]
    exact sound_foldl (fun s n => by simp) _ _

@[simp] theorem sound_deviceLost (s : State) (d ns : Nat) :
    tablesSound (outsideWork (deviceLost s d ns)) ↔ tablesSound (outsideWork s) := by simp [deviceLost]

@[simp] theorem sound_declare (s : State) (d ns : Nat) :
    tablesSound (outsideWork (declare s d ns)) ↔ tablesSound (outsideWork s) := by simp [declare]

@[simp] theorem sound_beatIn (s : State) (src : Nat) (down : Bool) :
    tablesSound (outsideWork (beatIn s src down)) ↔ tablesSound (outsideWork s) := by
  unfold beatIn
  simp only []
  repeat' split
  all_goals simp

theorem sound_shadowPegs {s : State} {n : Nat} {r : State × List Nat} (made : shadowPegs s n = some r) :
    tablesSound (outsideWork r.1) ↔ tablesSound (outsideWork s) := by
  have one : ∀ (v : State × List Nat) (t : Nat) (v' : State × List Nat), (findPeg v.1 0).map (fun k => (bindPeg v.1 k n t, v.2 ++ [k])) = some v' →
      (tablesSound (outsideWork v'.1) ↔ tablesSound (outsideWork v.1)) := by
    intro v t v' bound
    obtain ⟨k, -, rfl⟩ := Option.map_eq_some_iff.mp bound
    exact sound_bindPeg ..
  unfold shadowPegs at made
  refine sound_foldl_option ?_ ?_ _ (s, []) r made
  · exact fun _ => rfl
  · intro v t v' bound
    rw [Option.bind_some] at bound
    exact one v t v' bound

@[simp] theorem sound_startShadow (s : State) (n d : Nat) :
    tablesSound (outsideWork (startShadow s n d)) ↔ tablesSound (outsideWork s) := by
  unfold startShadow
  split
  · rfl
  · next bound =>
    simp only [outsideWork_sendBundle, sound_startXfer, outsideWork_putCtx]
    exact sound_shadowPegs bound

@[simp] theorem sound_shadowArrived (s : State) (n : Nat) (img : List Byte) (ok : Bool) :
    tablesSound (outsideWork (shadowArrived s n img ok)) ↔ tablesSound (outsideWork s) := by
  unfold shadowArrived
  simp only []
  repeat' split
  all_goals simp

@[simp] theorem sound_ackMirror (s : State) (d n : Nat) (summary : Bool) :
    tablesSound (outsideWork (ackMirror s d n summary)) ↔ tablesSound (outsideWork s) := by simp [ackMirror]

@[simp] theorem sound_arriveBeside (s : State) (n : Nat) (m : StepSummary) :
    tablesSound (outsideWork (arriveBeside s n m)) ↔ tablesSound (outsideWork s) := by
  unfold arriveBeside
  dsimp only
  split <;> simp

@[simp] theorem sound_summaryReady (s : State) (n d : Nat) :
    tablesSound (outsideWork (summaryReady s n d)) ↔ tablesSound (outsideWork s) := by
  unfold summaryReady
  dsimp only
  split <;> simp

@[simp] theorem sound_doPair (s : State) (o : Origin) (twin links : Nat) (table : BufRef) :
    tablesSound (outsideWork (doPair s o twin links table)) ↔ tablesSound (outsideWork s) := by
  unfold doPair
  split <;> simp

@[simp] theorem sound_seedCtx (d : Nat) (s : State) (n : Nat) :
    tablesSound (outsideWork (seedCtx d s n)) ↔ tablesSound (outsideWork s) := by
  unfold seedCtx
  split <;> simp

@[simp] theorem sound_pairArrived (s : State) (o : Origin) (twin links : Nat) (tbl : List Byte) :
    tablesSound (outsideWork (pairArrived s o twin links tbl)) ↔ tablesSound (outsideWork s) := by
  unfold pairArrived
  split <;> simp

@[simp] theorem sound_doUnpair (s : State) (o : Origin) :
    tablesSound (outsideWork (doUnpair s o)) ↔ tablesSound (outsideWork s) := by
  unfold doUnpair
  simp only []
  repeat' split
  all_goals simp

@[simp] theorem sound_lateNoJournal (s : State) (m : PegMsg) :
    tablesSound (outsideWork (lateNoJournal s m)) ↔ tablesSound (outsideWork s) := by
  unfold lateNoJournal
  simp only []
  repeat' split
  all_goals simp

/-! Operations of Machine/Silent. -/

@[simp] theorem sound_setDup (s : State) (n i : Nat) (d : Option DupExec) :
    tablesSound (outsideWork (setDup s n i d)) ↔ tablesSound (outsideWork s) := Iff.rfl

@[simp] theorem sound_dupEnds (s : State) (w : WoHdr) :
    tablesSound (outsideWork (dupEnds s w)) ↔ tablesSound (outsideWork s) := by simp [dupEnds]

@[simp] theorem sound_dupLoser (s : State) (n k : Nat) :
    tablesSound (outsideWork (dupLoser s n k)) ↔ tablesSound (outsideWork s) := by simp [dupLoser]

@[simp] theorem sound_startProbe (s : State) (k : Nat) :
    tablesSound (outsideWork (startProbe s k)) ↔ tablesSound (outsideWork s) := by
  unfold startProbe
  simp only []
  repeat' split
  all_goals simp

@[simp] theorem sound_testFails (s : State) (k step : Nat) :
    tablesSound (outsideWork (testFails s k step)) ↔ tablesSound (outsideWork s) := by simp [testFails]

@[simp] theorem sound_persistRollback (s : State) (g : Gallery) :
    tablesSound (outsideWork (persistRollback s g)) ↔ tablesSound (outsideWork s) := by
  unfold persistRollback
  split <;> simp

@[simp] theorem sound_katFail (s : State) :
    tablesSound (outsideWork (katFail s)) ↔ tablesSound (outsideWork s) := by simp [katFail]

@[simp] theorem sound_forceOne (s : State) (k : Nat) :
    tablesSound (outsideWork (forceOne s k)) ↔ tablesSound (outsideWork s) := by simp [forceOne]

@[simp] theorem sound_forceAisle (s : State) (ks : List Nat) :
    tablesSound (outsideWork (forceAisle s ks)) ↔ tablesSound (outsideWork s) := by
  unfold forceAisle
  split <;> simp

@[simp] theorem sound_requestTest (s0 : State) (u : Nat) (force : Bool) :
    tablesSound (outsideWork (requestTest s0 u force)) ↔ tablesSound (outsideWork s0) := by simp [requestTest]

@[simp] theorem sound_doSelfTest (s : State) (o : Origin) (u : Nat) (force : Bool) :
    tablesSound (outsideWork (doSelfTest s o u force)) ↔ tablesSound (outsideWork s) := by simp [doSelfTest]

@[simp] theorem sound_seTestWrite (s : State) (u : Nat) :
    tablesSound (outsideWork (seTestWrite s u)) ↔ tablesSound (outsideWork s) := by simp [seTestWrite]

@[simp] theorem sound_retireMover (s : State) (h m ns : Nat) (lease : Bool) :
    tablesSound (outsideWork (retireMover s h m ns lease)) ↔ tablesSound (outsideWork s) := by simp [retireMover]

/-! Operations of Machine/Ops. -/

@[simp] theorem sound_retireRow (s : State) (h row : Nat) : tablesSound (outsideWork (retireRow s h row)) ↔ tablesSound (outsideWork s) := by
  obtain ⟨m, only⟩ := outsideWork_retireRow s h row
  rw [only]
  rfl

/-! Operations of Machine/Faults. -/

@[simp] theorem sound_correctedRow (h : Nat) (s : State) (x : Nat × Nat) :
    tablesSound (outsideWork (correctedRow h s x)) ↔ tablesSound (outsideWork s) := by
  refine sound_cond Iff.rfl (sound_cond ?_ Iff.rfl)
  simp

@[simp] theorem sound_lostSlice (s : State) (n tid ord : Nat) :
    tablesSound (outsideWork (lostSlice s n tid ord)) ↔ tablesSound (outsideWork s) := by
  unfold lostSlice
  dsimp only
  split <;> simp

@[simp] theorem sound_memLost (s : State) (n : Nat) :
    tablesSound (outsideWork (memLost s n)) ↔ tablesSound (outsideWork s) := by simp [memLost]

@[simp] theorem sound_restoreLine (s : State) (addr : Nat) (x : LineHolds) :
    tablesSound (outsideWork (restoreLine s addr x)) ↔ tablesSound (outsideWork s) := by
  unfold restoreLine
  split <;> simp

/-! Operations of Machine/Boot. -/

@[simp] theorem sound_putSlot (s : State) (k : Nat) (x : FwSlot) :
    tablesSound (outsideWork (putSlot s k x)) ↔ tablesSound (outsideWork s) := Iff.rfl

@[simp] theorem sound_romFail (s : State) :
    tablesSound (outsideWork (romFail s)) ↔ tablesSound (outsideWork s) := Iff.rfl

@[simp] theorem sound_startRiendin (s : State) (k : Nat) :
    tablesSound (outsideWork (startRiendin s k)) ↔ tablesSound (outsideWork s) := Iff.rfl

@[simp] theorem sound_trySlots (l : List Nat) (s : State) :
    tablesSound (outsideWork (trySlots l s)) ↔ tablesSound (outsideWork s) := by
  induction l generalizing s with
  | nil => simp [trySlots]
  | cons k l ih =>
    unfold trySlots
    split <;> simp [ih]

@[simp] theorem sound_bootNext (s : State) :
    tablesSound (outsideWork (bootNext s)) ↔ tablesSound (outsideWork s) := by simp [bootNext]

@[simp] theorem sound_testSpares (s : State) :
    tablesSound (outsideWork (testSpares s)) ↔ tablesSound (outsideWork s) := by simp [testSpares]

@[simp] theorem sound_resetRecord (s : State) (n : Nat) (c : Ctx) :
    tablesSound (outsideWork (resetRecord s n c)) ↔ tablesSound (outsideWork s) := by
  unfold resetRecord
  split <;> simp

@[simp] theorem sound_finishClose (s : State) (n : Nat) :
    tablesSound (outsideWork (finishClose s n)) ↔ tablesSound (outsideWork s) := by
  unfold finishClose
  split <;> simp

@[simp] theorem sound_recoverCtxs (s0 : State) :
    tablesSound (outsideWork (recoverCtxs s0)) ↔ tablesSound (outsideWork s0) := by simp [recoverCtxs]

@[simp] theorem sound_recheckPacks (s : State) :
    tablesSound (outsideWork (recheckPacks s)) ↔ tablesSound (outsideWork s) := by simp [recheckPacks]

@[simp] theorem sound_commitSlots (s : State) :
    tablesSound (outsideWork (commitSlots s)) ↔ tablesSound (outsideWork s) := by
  have emptied (t : State) (j : Nat) : tablesSound (outsideWork (slotEmptied t j)) ↔ tablesSound (outsideWork t) := by
    rw [slotEmptied_only]
    rfl
  rw [commitSlots_eq, emptied, emptied]
  rfl

@[simp] theorem sound_fwRefuse (s : State) (o : Origin) (st : Nat) :
    tablesSound (outsideWork (fwRefuse s o st)) ↔ tablesSound (outsideWork s) := by simp [fwRefuse]

@[simp] theorem sound_doFwUpdate (s : State) (o : Origin) (b : BufRef) :
    tablesSound (outsideWork (doFwUpdate s o b)) ↔ tablesSound (outsideWork s) := by
  unfold doFwUpdate
  simp only []
  repeat' split
  all_goals simp

@[simp] theorem sound_firmwareArrived (s : State) (o : Origin) (img : List Byte) :
    tablesSound (outsideWork (firmwareArrived s o img)) ↔ tablesSound (outsideWork s) := by
  unfold firmwareArrived
  split
  · rfl
  · simp
  · simp

@[simp] theorem sound_doProbeLoad (s : State) (o : Origin) (b : BufRef) :
    tablesSound (outsideWork (doProbeLoad s o b)) ↔ tablesSound (outsideWork s) := by simp [doProbeLoad]

@[simp] theorem sound_probeArrived (s : State) (o : Origin) (pack : List Byte) :
    tablesSound (outsideWork (probeArrived s o pack)) ↔ tablesSound (outsideWork s) := by simp [probeArrived]

@[simp] theorem sound_doAttest (s : State) (o : Origin) (nonce : List Byte) :
    tablesSound (outsideWork (doAttest s o nonce)) ↔ tablesSound (outsideWork s) := by
  unfold doAttest
  split <;> simp

@[simp] theorem sound_doCert (s : State) (o : Origin) :
    tablesSound (outsideWork (doCert s o)) ↔ tablesSound (outsideWork s) := by simp [doCert]

theorem sound_flashPut (s : State) (addr : Nat) (data : List Byte) (sound : tablesSound (outsideWork s)) : tablesSound (outsideWork (flashPut s addr data)) := by
  unfold flashPut
  split
  · simpa using sound
  · obtain ⟨few, once, flash⟩ := sound
    exact ⟨few, once, Mem.wf_writeBytes data _ addr flash⟩

/-! Operations of Machine/Power. -/

@[simp] theorem sound_raiseSource (s : State) (n : Nat) :
    tablesSound (outsideWork (raiseSource s n)) ↔ tablesSound (outsideWork s) := by
  unfold raiseSource
  split <;> simp

@[simp] theorem sound_powerOffPages (s : State) (which : Page → Bool) :
    tablesSound (outsideWork (powerOffPages s which)) ↔ tablesSound (outsideWork s) := by
  refine sound_foldl (fun s e => ?_) _ s
  split
  · rfl
  · split
    · rfl
    · dsimp only
      split <;> simp

@[simp] theorem sound_warmState (s : State) :
    tablesSound (outsideWork (warmState s)) ↔ tablesSound (outsideWork s) := by simp [warmState]

theorem sound_coldState {s : State} (sound : tablesSound (outsideWork s)) : tablesSound (outsideWork (coldState s)) := by
  obtain ⟨-, -, flash⟩ := (sound_warmState s).mpr sound
  exact ⟨Nat.zero_le _, List.nodup_nil, flash⟩

@[simp] theorem sound_coldBoot (s : State) :
    tablesSound (outsideWork (coldBoot s)) ↔ tablesSound (outsideWork s) := by simp [coldBoot]

@[simp] theorem sound_warmFall (s : State) :
    tablesSound (outsideWork (warmFall s)) ↔ tablesSound (outsideWork s) := by simp [warmFall]

@[simp] theorem sound_warmRise (s : State) :
    tablesSound (outsideWork (warmRise s)) ↔ tablesSound (outsideWork s) := by
  unfold warmRise
  split <;> simp

@[simp] theorem sound_warmReset (s : State) :
    tablesSound (outsideWork (warmReset s)) ↔ tablesSound (outsideWork s) := by simp [warmReset]

@[simp] theorem sound_logSupply (s : State) (input : Nat) :
    tablesSound (outsideWork (logSupply s input)) ↔ tablesSound (outsideWork s) := by simp [logSupply]

theorem sound_deadState {s : State} (sound : tablesSound (outsideWork s)) : tablesSound (outsideWork (deadState s)) := sound_coldState sound

theorem sound_powerDown {s : State} (sound : tablesSound (outsideWork s)) : tablesSound (outsideWork (powerDown s)) := by
  have begun : tablesSound (outsideWork (if hubsRun s then declareLost s 0 cUnit else s)) := by
    split
    · exact (sound_declareLost ..).mpr sound
    · exact sound
  have dead := sound_deadState begun
  unfold powerDown
  dsimp only
  generalize deadState _ = u at *
  split <;> exact dead

@[simp] theorem sound_putInput (s : State) (input mv : Nat) (ok : Bool) :
    tablesSound (outsideWork (putInput s input mv ok)) ↔ tablesSound (outsideWork s) := by simp [putInput]

@[simp] theorem sound_noteInput (s : State) (input mv : Nat) :
    tablesSound (outsideWork (noteInput s input mv)) ↔ tablesSound (outsideWork s) := by simp [noteInput]

theorem sound_inputBack {s : State} (sound : tablesSound (outsideWork s)) (input mv : Nat) : tablesSound (outsideWork (inputBack s input mv)) := by
  have put := (sound_putInput s input mv true).mpr sound
  unfold inputBack
  split
  · exact sound
  · dsimp only
    split
    · exact put
    · exact (sound_coldBoot _).mpr (sound_coldState put)

theorem sound_wake {s : State} (sound : tablesSound (outsideWork s)) (imageOk : Bool) : tablesSound (outsideWork (wake s imageOk)) := by
  have raised : tablesSound (outsideWork (raiseSource s 253)) := by simpa using sound
  have trained (t : State) : tablesSound (outsideWork ((List.range 48).foldl (fun s n => if fld s (pgLink n) Reg.LK_CTRL 0 0 = 1 then trainLink s n else s) t)) ↔
      tablesSound (outsideWork t) := by
    refine sound_foldl (fun s n => ?_) _ t
    split
    · rfl
    · rfl
  refine sound_if ((trained _).mpr ?_) ((sound_coldBoot _).mpr ?_)
  · simpa using raised
  · simpa using sound_coldState raised

@[simp] theorem sound_modHallGals (s : State) (h : Nat) (f : Nat → Gallery → Gallery) :
    tablesSound (outsideWork (modHallGals s h f)) ↔ tablesSound (outsideWork s) := by simp [modHallGals]

@[simp] theorem sound_putMon (s : State) (u : Nat) (m : Monitor) :
    tablesSound (outsideWork (putMon s u m)) ↔ tablesSound (outsideWork s) := Iff.rfl

@[simp] theorem sound_sensorBad (s : State) (u i : Nat) (t : Int) :
    tablesSound (outsideWork (sensorBad s u i t)) ↔ tablesSound (outsideWork s) := by simp [sensorBad]

@[simp] theorem sound_takeReading (s : State) (x : Nat × Nat × Int) :
    tablesSound (outsideWork (takeReading s x)) ↔ tablesSound (outsideWork s) := by
  unfold takeReading
  dsimp only
  split <;> simp

@[simp] theorem sound_warnUnit (s : State) (u : Nat) :
    tablesSound (outsideWork (warnUnit s u)) ↔ tablesSound (outsideWork s) := by simp [warnUnit]

@[simp] theorem sound_thermalStep (s : State) (h : Nat) :
    tablesSound (outsideWork (thermalStep s h)) ↔ tablesSound (outsideWork s) := by
  unfold thermalStep
  dsimp only
  split <;> simp

@[simp] theorem sound_capStep (s : State) :
    tablesSound (outsideWork (capStep s)) ↔ tablesSound (outsideWork s) := by simp [capStep]

@[simp] theorem sound_sampleRings (s : State) (u : Nat) :
    tablesSound (outsideWork (sampleRings s u)) ↔ tablesSound (outsideWork s) := by simp [sampleRings]

/-! Operations of Machine/Swing. -/

@[simp] theorem sound_putSwing (s : State) (p : Page) (w : Swing) :
    tablesSound (outsideWork (putSwing s p w)) ↔ tablesSound (outsideWork s) := Iff.rfl

@[simp] theorem sound_rejudge (s : State) (p : Page) :
    tablesSound (outsideWork (rejudge s p)) ↔ tablesSound (outsideWork s) := by simp [rejudge]

@[simp] theorem sound_applyHold (s : State) (k : Nat) :
    tablesSound (outsideWork (applyHold s k)) ↔ tablesSound (outsideWork s) := by
  unfold applyHold
  dsimp only
  split <;> simp

@[simp] theorem sound_applyBlock (s : State) (p : Page) (old : Nat) :
    tablesSound (outsideWork (applyBlock s p old)) ↔ tablesSound (outsideWork s) := by
  unfold applyBlock
  simp only []
  repeat' split
  all_goals simp

@[simp] theorem sound_applyPage (s : State) (p : Page) :
    tablesSound (outsideWork (applyPage s p)) ↔ tablesSound (outsideWork s) := by
  simp only [applyPage, outsideWork_setEvt, sound_putSwing, sound_applyBlock]
  exact sound_foldl (fun s o => by rw [outsideWork_regSet]) _ s

@[simp] theorem sound_holdSwaps (s : State) (p : Page) :
    tablesSound (outsideWork (holdSwaps s p)) ↔ tablesSound (outsideWork s) := by simp [holdSwaps]

@[simp] theorem sound_releaseCtxs (s : State) (ps : List Page) (ns : List Nat) :
    tablesSound (outsideWork (releaseCtxs s ps ns)) ↔ tablesSound (outsideWork s) := by simp [releaseCtxs]

@[simp] theorem sound_putGroup (s : State) (n : Nat) (g : SwingGroup) :
    tablesSound (outsideWork (putGroup s n g)) ↔ tablesSound (outsideWork s) := Iff.rfl

@[simp] theorem sound_swingGo (s : State) (p : Page) (group : Nat) :
    tablesSound (outsideWork (swingGo s p group)) ↔ tablesSound (outsideWork s) := by
  unfold swingGo
  simp only []
  repeat' split
  all_goals simp

@[simp] theorem sound_tryGroup (s : State) (n : Nat) :
    tablesSound (outsideWork (tryGroup s n)) ↔ tablesSound (outsideWork s) := by simp [tryGroup]

@[simp] theorem sound_swingCancel (s : State) (p : Page) :
    tablesSound (outsideWork (swingCancel s p)) ↔ tablesSound (outsideWork s) := by simp [swingCancel]

@[simp] theorem sound_swingWrite (s : State) (p : Page) (w : Nat) :
    tablesSound (outsideWork (swingWrite s p w)) ↔ tablesSound (outsideWork s) := by
  unfold swingWrite
  split <;> simp

@[simp] theorem sound_swingFire (s : State) (n : Nat) :
    tablesSound (outsideWork (swingFire s n)) ↔ tablesSound (outsideWork s) := by simp [swingFire]

@[simp] theorem sound_swingAbort (s : State) (n : Nat) :
    tablesSound (outsideWork (swingAbort s n)) ↔ tablesSound (outsideWork s) := by simp [swingAbort]

@[simp] theorem sound_swFireWrite (s : State) (w : Nat) :
    tablesSound (outsideWork (swFireWrite s w)) ↔ tablesSound (outsideWork s) := by
  unfold swFireWrite
  split <;> simp

@[simp] theorem sound_arriveOn (s : State) (p : Page) (n : Nat) :
    tablesSound (outsideWork (arriveOn s p n)) ↔ tablesSound (outsideWork s) := by simp [arriveOn]

@[simp] theorem sound_swingApply (s : State) (p : Page) :
    tablesSound (outsideWork (swingApply s p)) ↔ tablesSound (outsideWork s) := by
  unfold swingApply
  dsimp only
  split <;> simp

@[simp] theorem sound_pegArrive (s : State) (p : Page) :
    tablesSound (outsideWork (pegArrive s p)) ↔ tablesSound (outsideWork s) := by
  unfold pegArrive
  dsimp only
  split <;> simp

/-! Operations of Machine/Registers. -/

@[simp] theorem sound_touch (s : State) (p : Page) :
    tablesSound (outsideWork (touch s p)) ↔ tablesSound (outsideWork s) := by
  unfold touch
  simp only []
  repeat' split
  all_goals simp

@[simp] theorem sound_latchHigh (s : State) (p : Page) (off : Nat) :
    tablesSound (outsideWork (latchHigh s p off)) ↔ tablesSound (outsideWork s) := by simp [latchHigh]

@[simp] theorem sound_fetchHist (s : State) (p : Page) (off : Nat) :
    tablesSound (outsideWork (fetchHist s p off)) ↔ tablesSound (outsideWork s) := by simp [fetchHist]

@[simp] theorem sound_readWord (s : State) (addr : Nat) :
    tablesSound (outsideWork (readWord s addr).2) ↔ tablesSound (outsideWork s) := by
  unfold readWord
  split <;> simp

@[simp] theorem sound_readWords (n : Nat) (s : State) (addr : Nat) :
    tablesSound (outsideWork (readWords n s addr).2) ↔ tablesSound (outsideWork s) := by
  induction n generalizing s addr with
  | zero => rfl
  | succ n ih =>
    simp only [readWords]
    rw [ih, sound_readWord]

@[simp] theorem sound_plainWrite (s : State) (p : Page) (off w : Nat) :
    tablesSound (outsideWork (plainWrite s p off w)) ↔ tablesSound (outsideWork s) := by simp [plainWrite]

@[simp] theorem sound_routeWrite (s : State) (p : Page) (w : Nat) :
    tablesSound (outsideWork (routeWrite s p w)) ↔ tablesSound (outsideWork s) := by
  unfold routeWrite
  dsimp only
  split <;> simp

@[simp] theorem sound_headerWrite (s : State) (p : Page) (off w : Nat) :
    tablesSound (outsideWork (headerWrite s p off w)) ↔ tablesSound (outsideWork s) :=
  sound_cond (sound_swingWrite ..) (sound_cond (sound_evtSetWrite ..) (sound_cond (sound_routeWrite ..) (sound_cond (by simp) (sound_plainWrite ..))))

@[simp] theorem sound_smFlagsWrite (s : State) (w : Nat) :
    tablesSound (outsideWork (smFlagsWrite s w)) ↔ tablesSound (outsideWork s) := by simp [smFlagsWrite]

@[simp] theorem sound_tableWrite (s : State) (off w : Nat) :
    tablesSound (outsideWork (tableWrite s off w)) ↔ tablesSound (outsideWork s) := by simp [tableWrite]

@[simp] theorem sound_holdWrite (s : State) (p : Page) (w : Nat) :
    tablesSound (outsideWork (holdWrite s p w)) ↔ tablesSound (outsideWork s) := by
  unfold holdWrite
  split <;> simp

@[simp] theorem sound_pgFlagsWrite (s : State) (h w : Nat) :
    tablesSound (outsideWork (pgFlagsWrite s h w)) ↔ tablesSound (outsideWork s) := Iff.rfl

@[simp] theorem sound_privateWrite (s : State) (off w : Nat) :
    tablesSound (outsideWork (privateWrite s off w)) ↔ tablesSound (outsideWork s) := by simp [privateWrite]

@[simp] theorem sound_rnGo (s : State) (w : Nat) :
    tablesSound (outsideWork (rnGo s w)) ↔ tablesSound (outsideWork s) := by simp [rnGo]

@[simp] theorem sound_rnDone (s : State) :
    tablesSound (outsideWork (rnDone s)) ↔ tablesSound (outsideWork s) := by simp [rnDone]

@[simp] theorem sound_pwCtrlWrite (s : State) (w : Nat) :
    tablesSound (outsideWork (pwCtrlWrite s w)) ↔ tablesSound (outsideWork s) := by simp [pwCtrlWrite]

@[simp] theorem sound_blockWrite (s : State) (p : Page) (off w : Nat) :
    tablesSound (outsideWork (blockWrite s p off w)) ↔ tablesSound (outsideWork s) := by
  unfold blockWrite
  split <;> simp

@[simp] theorem sound_writeWord (s : State) (addr w : Nat) :
    tablesSound (outsideWork (writeWord s addr w)) ↔ tablesSound (outsideWork s) := by
  unfold writeWord
  split <;> simp

@[simp] theorem sound_writeWords (l : List Word) (s : State) (addr : Nat) :
    tablesSound (outsideWork (writeWords l s addr)) ↔ tablesSound (outsideWork s) := by
  induction l generalizing s addr with
  | nil => rfl
  | cons w l ih =>
    simp only [writeWords]
    split
    · rw [ih, sound_writeWord]
    · rfl

/-! Operations of Machine/HostPort. -/

@[simp] theorem sound_refuseValue (s : State) (o : Origin) :
    tablesSound (outsideWork (refuseValue s o)) ↔ tablesSound (outsideWork s) := by simp [refuseValue]

@[simp] theorem sound_countCmd (s : State) :
    tablesSound (outsideWork (countCmd s)) ↔ tablesSound (outsideWork s) := by simp [countCmd]

@[simp] theorem sound_doRegRead (s : State) (o : Origin) (addr count : Nat) :
    tablesSound (outsideWork (doRegRead s o addr count)) ↔ tablesSound (outsideWork s) := by
  unfold doRegRead
  split <;> simp

@[simp] theorem sound_doRegWrite (s : State) (o : Origin) (addr : Nat) (ws : List Word) :
    tablesSound (outsideWork (doRegWrite s o addr ws)) ↔ tablesSound (outsideWork s) := by
  unfold doRegWrite
  simp only []
  repeat' split
  all_goals simp

@[simp] theorem sound_doNetConfig (s : State) (o : Origin) (c : NetCfg) :
    tablesSound (outsideWork (doNetConfig s o c)) ↔ tablesSound (outsideWork s) := by simp [doNetConfig]

@[simp] theorem sound_doQpConnect (s : State) (o : Origin) (qp : Nat) (c : QpCfg) :
    tablesSound (outsideWork (doQpConnect s o qp c)) ↔ tablesSound (outsideWork s) := by simp [doQpConnect]

@[simp] theorem sound_doQpDestroy (s : State) (o : Origin) (qp : Nat) :
    tablesSound (outsideWork (doQpDestroy s o qp)) ↔ tablesSound (outsideWork s) := by
  unfold doQpDestroy
  split <;> simp

@[simp] theorem sound_doRingConfig (s : State) (o : Origin) (ring prio qp : Nat) (enable : Bool) :
    tablesSound (outsideWork (doRingConfig s o ring prio qp enable)) ↔ tablesSound (outsideWork s) := by
  unfold doRingConfig
  simp only []
  repeat' split
  all_goals simp

@[simp] theorem sound_doTelemConfig (s : State) (o : Origin) (stream mode : Nat) (b : BufRef) :
    tablesSound (outsideWork (doTelemConfig s o stream mode b)) ↔ tablesSound (outsideWork s) := by
  unfold doTelemConfig
  simp only []
  repeat' split
  all_goals simp

@[simp] theorem sound_runCmd (s : State) (o : Origin) (ctx : Nat) (cmd : HostCmd) :
    tablesSound (outsideWork (runCmd s o ctx cmd)) ↔ tablesSound (outsideWork s) := by
  unfold runCmd
  split <;> simp

/-- The state behind a session's window. -/
def gateState : Gate → State
  | .run s => s
  | .done s => s

/-! Operations of Machine/HostOps. -/

theorem sound_sessionGate (h : Hdr) (s : State) : tablesSound (outsideWork (gateState (sessionGate h s))) ↔ tablesSound (outsideWork s) := by
  unfold sessionGate
  repeat' split
  all_goals simp [gateState]

/-! Operations of Machine/HostPort. -/

theorem sound_viaSession (h : Hdr) (payload : Nat) (s : State) {f : State → Origin → State}
    (keeps : ∀ s o, tablesSound (outsideWork (f s o)) ↔ tablesSound (outsideWork s)) :
    tablesSound (outsideWork (viaSession h payload s f)) ↔ tablesSound (outsideWork s) := by
  unfold viaSession
  split
  · rfl
  · split
    · simp
    · have gate := sound_sessionGate h s
      split
      · next done =>
        rw [done] at gate
        exact gate
      · next t run =>
        rw [run] at gate
        replace gate : tablesSound (outsideWork t) ↔ tablesSound (outsideWork s) := gate
        dsimp only
        rw [keeps]
        split <;> simpa using gate

@[simp] theorem sound_datagram (h : Hdr) (payload : Nat) (cmd : HostCmd) (s : State) :
    tablesSound (outsideWork (datagram h payload cmd s)) ↔ tablesSound (outsideWork s) :=
  sound_viaSession h payload s fun _ _ => sound_runCmd ..

@[simp] theorem sound_openSession (h : Hdr) (s : State) :
    tablesSound (outsideWork (openSession h s)) ↔ tablesSound (outsideWork s) := by
  unfold openSession
  simp only []
  repeat' split
  all_goals simp

@[simp] theorem sound_endSession (s : State) (id : Nat) :
    tablesSound (outsideWork (endSession s id)) ↔ tablesSound (outsideWork s) := Iff.rfl

@[simp] theorem sound_ownWrite (s : State) (addr : Nat) (ws : List Word) :
    tablesSound (outsideWork (ownWrite s addr ws)) ↔ tablesSound (outsideWork s) := by simp [ownWrite]

@[simp] theorem sound_packetDropped (s : State) (qp : Nat) :
    tablesSound (outsideWork (packetDropped s qp)) ↔ tablesSound (outsideWork s) := by simp [packetDropped]

@[simp] theorem sound_noteCe (s : State) (qp : Nat) (ce : Bool) :
    tablesSound (outsideWork (noteCe s qp ce)) ↔ tablesSound (outsideWork s) := by
  unfold noteCe
  split <;> simp

@[simp] theorem sound_ringEntry (s : State) (id : Nat) (q : Ring) (e : RingEntry) (lat p0 : Nat) :
    tablesSound (outsideWork (ringEntry s id q e lat p0)) ↔ tablesSound (outsideWork s) := by simp [ringEntry]

@[simp] theorem sound_runRing (k : Nat) (s : State) (id lat p0 : Nat) :
    tablesSound (outsideWork (runRing k s id lat p0)) ↔ tablesSound (outsideWork s) := by
  induction k generalizing s with
  | zero => rfl
  | succ k ih =>
    unfold runRing
    split
    · rfl
    · split
      · rfl
      · dsimp only
        rw [ih]
        split <;> simp

@[simp] theorem sound_ringBusy (s : State) (id : Nat) (q : Ring) (producer : Nat) :
    tablesSound (outsideWork (ringBusy s id q producer)) ↔ tablesSound (outsideWork s) := by
  refine sound_foldl (fun s i => ?_) _ s
  split <;> simp

@[simp] theorem sound_ringDoorbell (s : State) (id producer lat : Nat) :
    tablesSound (outsideWork (ringDoorbell s id producer lat)) ↔ tablesSound (outsideWork s) := by
  unfold ringDoorbell
  split <;> simp

@[simp] theorem sound_arrived (s : State) (k : XferKind) (data : List Byte) :
    tablesSound (outsideWork (arrived s k data)) ↔ tablesSound (outsideWork s) := by
  cases k <;> simp only [arrived] <;> repeat' split
  all_goals simp

@[simp] theorem sound_failed (s : State) (qp : Nat) (k : XferKind) :
    tablesSound (outsideWork (failed s qp k)) ↔ tablesSound (outsideWork s) := by
  unfold failed
  dsimp only
  split <;> simp

@[simp] theorem sound_dropXfer (s : State) (id : Nat) :
    tablesSound (outsideWork (dropXfer s id)) ↔ tablesSound (outsideWork s) := Iff.rfl

@[simp] theorem sound_failXfer (s : State) (id : Nat) :
    tablesSound (outsideWork (failXfer s id)) ↔ tablesSound (outsideWork s) := by
  unfold failXfer
  split <;> simp

@[simp] theorem sound_qpFails (s : State) (qp : Nat) :
    tablesSound (outsideWork (qpFails s qp)) ↔ tablesSound (outsideWork s) := by
  unfold qpFails
  split <;> simp

@[simp] theorem sound_setRate (s : State) (qp : Nat) (f : Nat → Nat) :
    tablesSound (outsideWork (setRate s qp f)) ↔ tablesSound (outsideWork s) := by
  unfold setRate
  split <;> simp

@[simp] theorem sound_writeChunks (s : State) (stream ctx : Nat) (x : Stream) (l : List Byte) (n cap : Nat) :
    tablesSound (outsideWork (writeChunks s stream ctx x l n cap)) ↔ tablesSound (outsideWork s) := by simp [writeChunks]

@[simp] theorem sound_deliverRecord (s : State) (stream ctx consumer : Nat) :
    tablesSound (outsideWork (deliverRecord s stream ctx consumer)) ↔ tablesSound (outsideWork s) := by
  unfold deliverRecord
  simp only []
  repeat' split
  all_goals simp

/-! Operations of Machine/Joiner. -/

@[simp] theorem sound_ieeeWork (op : Nat) (f : Ctx → WoHdr → EwArgs → Ctx × WoDone) (w : WoHdr) (a : EwArgs) (s : State) :
    tablesSound (outsideWork (ieeeWork op f w a s)) ↔ tablesSound (outsideWork s) := by simp [ieeeWork]

@[simp] theorem sound_rdWork (op : RedOp) (w : WoHdr) (a : RdArgs) (s : State) :
    tablesSound (outsideWork (rdWork op w a s)) ↔ tablesSound (outsideWork s) := by simp [rdWork]

@[simp] theorem sound_countSlices (c : Ctx) (w : WoHdr) (a : SkArgs) (sc : Nat) (s : State) :
    tablesSound (outsideWork (countSlices c w a sc s)) ↔ tablesSound (outsideWork s) := by simp [countSlices]

@[simp] theorem sound_skWork (slice : Bool) (w : WoHdr) (a : SkArgs) (s : State) :
    tablesSound (outsideWork (skWork slice w a s)) ↔ tablesSound (outsideWork s) := by
  unfold skWork
  dsimp only
  split <;> simp

/-! Operations of Machine/Stair. -/

theorem kept_ewByOp (op : Nat) (w : WoHdr) (a : EwArgs) (s : State) : KeptBy s (ewByOp op w a s) := by
  unfold ewByOp
  split
  iterate 56 exact keptBy_next.mpr (sound_ewWork ..)
  iterate 9 exact keptBy_next.mpr (sound_ieeeWork ..)
  exact keptBy_next.mpr Iff.rfl

theorem kept_rdByOp (op : Nat) (w : WoHdr) (a : RdArgs) (s : State) : KeptBy s (rdByOp op w a s) := by
  unfold rdByOp
  split <;> exact keptBy_next.mpr (sound_rdWork ..)

/-! Operations of Machine/Arrays. -/

theorem kept_execMatrixTile (w : WoHdr) (a : MtArgs) (s : State) : KeptBy s (execMatrixTile w a s) := by
  simp [execMatrixTile]

/-! Operations of Machine/Movement. -/

theorem kept_execMovement (w : WoHdr) (a : MvArgs) (s : State) : KeptBy s (execMovement w a s) := by
  rw [execMovement, keptBy_next]
  refine sound_moveStart w s fun s w => ?_
  repeat' split
  all_goals simp

/-- The state that a command leaves, where it is executed. -/
def nextOr (s : State) : Host.Outcome State Fault Refusal → State
  | .next t => t
  | _ => s

theorem KeptBy.nextOr {s : State} {o : Host.Outcome State Fault Refusal} (kept : KeptBy s o) :
    tablesSound (outsideWork (nextOr s o)) ↔ tablesSound (outsideWork s) := by
  cases o with
  | next t => exact kept t rfl
  | _ => rfl

/-! Operations of Machine/Stair. -/

@[simp] theorem sound_rerunOne (s : State) (n ti tread half pos : Nat) :
    tablesSound (outsideWork (rerunOne s n ti tread half pos)) ↔ tablesSound (outsideWork s) := by
  unfold rerunOne
  dsimp only
  split
  · rfl
  · split
    · rfl
    · split
      · exact (kept_execMatrixTile _ _ _).nextOr
      · exact (kept_ewByOp _ _ _ _).nextOr
      · exact (kept_rdByOp _ _ _ _).nextOr
      · split
        · rfl
        · exact (kept_execMovement _ _ _).nextOr
      · rfl

@[simp] theorem sound_scratchLayer (s : State) (n : Nat) (p : Plan) (i : Nat) (l : LayerRec) (half pos : Nat) :
    tablesSound (outsideWork (scratchLayer s n p i l half pos)) ↔ tablesSound (outsideWork s) := by simp [scratchLayer]

@[simp] theorem sound_scratchBlock (s : State) (n : Nat) (p : Plan) (b e half pos : Nat) :
    tablesSound (outsideWork (scratchBlock s n p b e half pos)) ↔ tablesSound (outsideWork s) := by
  refine sound_foldl (fun s i => ?_) _ s
  split <;> simp

@[simp] theorem sound_rerunBlock (s : State) (n : Nat) (p : Plan) (b e half pos : Nat) (fr : StackFrame) :
    tablesSound (outsideWork (rerunBlock s n p b e half pos fr).1) ↔ tablesSound (outsideWork s) := by
  simp only [rerunBlock, sound_scratchBlock, outsideWork_modCtx]
  refine (sound_foldl (fun s j => ?_) _ _).trans (by rw [outsideWork_putCtx])
  split
  · exact (sound_foldl (fun s ti => sound_rerunOne ..) _ _).trans (by rw [outsideWork_resetDone])
  · rfl

@[simp] theorem sound_recheck (s : State) (n : Nat) (p : Plan) (half pos : Nat) (old : List StackFrame) (nans : List Nat) :
    tablesSound (outsideWork (recheck s n p half pos old nans)) ↔ tablesSound (outsideWork s) := by simp [recheck]

@[simp] theorem sound_endEval (s : State) (n : Nat) :
    tablesSound (outsideWork (endEval s n)) ↔ tablesSound (outsideWork s) := by
  unfold endEval
  simp only []
  repeat' split
  all_goals simp

end Sys2Proof.Machine
end

section
/-! O60: every step keeps the fence table bounded and the flash canonical (R320, R445). -/

namespace Sys2Proof.Machine

/-- What a command leaves, it leaves with sound tables. -/
def SoundNext (o : Host.Outcome State Fault Refusal) : Prop := ∀ t, o = .next t → tablesSound (outsideWork t)

theorem soundNext_next {t : State} (sound : tablesSound (outsideWork t)) : SoundNext (.next t) := fun u run => by
  cases run
  exact sound

theorem soundNext_if {p : Prop} [Decidable p] {a b : Host.Outcome State Fault Refusal} (ha : SoundNext a) (hb : SoundNext b) : SoundNext (if p then a else b) := by
  split
  · exact ha
  · exact hb

theorem KeptBy.soundNext {s : State} {o : Host.Outcome State Fault Refusal} (kept : KeptBy s o) (sound : tablesSound (outsideWork s)) : SoundNext o :=
  fun t run => (kept t run).mpr sound

theorem kept_execEcRing (writer target : Nat) (s : State) : KeptBy s (execEcRing writer target s) := by
  simp [execEcRing]

theorem kept_execEcScfg (x : Word) (s : State) : KeptBy s (execEcScfg x s) := by
  simp [execEcScfg]

theorem kept_execPgGreach (hall : Nat) (x : Word) (s : State) : KeptBy s (execPgGreach hall x s) := by
  simp [execPgGreach]

theorem kept_execEvtSet (page : Nat) (x : Word) (s : State) : KeptBy s (execEvtSet page x s) := by
  unfold execEvtSet
  split <;> simp

theorem kept_execGeWordLo (x : Word) (s : State) : KeptBy s (execGeWordLo x s) := by
  simp [execGeWordLo]

theorem kept_execGeWordHi (x : Word) (s : State) : KeptBy s (execGeWordHi x s) := by
  simp [execGeWordHi]

theorem kept_execGeHistFetch (n : Nat) (s : State) : KeptBy s (execGeHistFetch n s) := by
  simp [execGeHistFetch]

theorem kept_execGeHistReady (s : State) : KeptBy s (execGeHistReady s) := by
  unfold execGeHistReady
  split <;> simp

theorem kept_execCloseUpdateDone (ctx gauge : Nat) (s : State) : KeptBy s (execCloseUpdateDone ctx gauge s) := by
  simp [execCloseUpdateDone]

theorem kept_execRotatePeriod (s : State) : KeptBy s (execRotatePeriod s) := by
  simp [execRotatePeriod]

theorem kept_execMxImport (w : WoHdr) (a : MvArgs) (x : MxArgs) (s : State) : KeptBy s (execMxImport w a x s) := by
  rw [execMxImport, keptBy_next]
  refine sound_moveStart w s fun s w => ?_
  repeat' split
  all_goals simp

theorem kept_execMxExport (w : WoHdr) (a : MvArgs) (x : MxArgs) (s : State) : KeptBy s (execMxExport w a x s) := by
  rw [execMxExport, keptBy_next]
  refine sound_moveStart w s fun s w => ?_
  dsimp only
  repeat' split
  all_goals simp

theorem kept_execJournalRollback (ctx tid ord : Nat) (lineOk : Bool) (s : State) : KeptBy s (execJournalRollback ctx tid ord lineOk s) := by
  unfold execJournalRollback
  dsimp only
  split <;> simp

theorem kept_execClosePhase (ctx : Nat) (s : State) : KeptBy s (execClosePhase ctx s) := by
  simp [execClosePhase]

theorem kept_execSettleRound (src ctx step : Nat) (lower : Bool) (raises : List Nat) (s : State) : KeptBy s (execSettleRound src ctx step lower raises s) := by
  unfold execSettleRound
  split <;> simp

theorem kept_execSettleTimeout (ctx : Nat) (s : State) : KeptBy s (execSettleTimeout ctx s) := by
  unfold execSettleTimeout
  split <;> simp

theorem kept_execRepeatAdmit (ctx ns : Nat) (s : State) : KeptBy s (execRepeatAdmit ctx ns s) := by
  unfold execRepeatAdmit
  dsimp only
  repeat' split
  all_goals simp

theorem kept_execLinkUp (link peer peerLink lanes : Nat) (s : State) : KeptBy s (execLinkUp link peer peerLink lanes s) := by
  simp [execLinkUp]

theorem kept_execLinkRetrain (link : Nat) (s : State) : KeptBy s (execLinkRetrain link s) := by
  simp [execLinkRetrain]

theorem kept_execNak (link seq : Nat) (s : State) : KeptBy s (execNak link seq s) := by
  simp [execNak]

theorem kept_execIdleFlit (link : Nat) (s : State) : KeptBy s (execIdleFlit link s) := by
  simp [execIdleFlit]

theorem kept_execRetryExh (link ns : Nat) (s : State) : KeptBy s (execRetryExh link ns s) := by
  simp [execRetryExh]

theorem kept_execLinkFault (link ns : Nat) (s : State) : KeptBy s (execLinkFault link ns s) := by
  simp [execLinkFault]

theorem kept_execLaneFault (link lane ns : Nat) (s : State) : KeptBy s (execLaneFault link lane ns s) := by
  simp [execLaneFault]

theorem kept_execLaneSwap (link lane : Nat) (s : State) : KeptBy s (execLaneSwap link lane s) := by
  simp [execLaneSwap]

theorem kept_execReorderTimeout (src tc : Nat) (s : State) : KeptBy s (execReorderTimeout src tc s) := by
  have owed (l : List HeldFlit) (t : State) : tablesSound (outsideWork (l.foldl (fun s h => match h.link with
      | some n => oweCredit s n h.f.tc h.f.vc
      | none => s) t)) ↔ tablesSound (outsideWork t) := by
    refine sound_foldl (fun s h => ?_) l t
    split <;> simp
  unfold execReorderTimeout
  dsimp only
  split
  · simp
  · rw [keptBy_next, outsideWork_setErr]
    exact owed _ _

theorem kept_execFlit (link : Nat) (bytes : List Byte) (s : State) : KeptBy s (execFlit link bytes s) := by
  unfold execFlit
  dsimp only
  repeat' split
  all_goals simp

theorem kept_execDigestRoot (ctx : Nat) (s : State) : KeptBy s (execDigestRoot ctx s) := by
  unfold execDigestRoot
  dsimp only
  split <;> simp

theorem kept_execRootVote (src ctx step interval : Nat) (root : List Byte) (s : State) : KeptBy s (execRootVote src ctx step interval root s) := by
  unfold execRootVote
  dsimp only
  split <;> simp

theorem kept_execHeartbeat (src _seq : Nat) (down : Bool) (s : State) : KeptBy s (execHeartbeat src _seq down s) := by
  simp [execHeartbeat]

theorem kept_execHeartbeatPeriod (s : State) : KeptBy s (execHeartbeatPeriod s) := by
  rw [execHeartbeatPeriod, keptBy_next]
  dsimp only
  refine sound_cond ?_ ?_
  · rw [outsideWork_bumpSat]
    rfl
  · rw [outsideWork_sendBeats, outsideWork_bumpSat]
    rfl

theorem kept_execHeartbeatMiss (ns : Nat) (s : State) : KeptBy s (execHeartbeatMiss ns s) := by
  simp [execHeartbeatMiss]

theorem kept_execLost (_src device ns : Nat) (s : State) : KeptBy s (execLost _src device ns s) := by
  simp [execLost]

theorem kept_execMirrorRecord (m : MirrorRec) (s : State) : KeptBy s (execMirrorRecord m s) := by
  unfold execMirrorRecord
  split <;> simp

theorem kept_execStepSummary (m : StepSummary) (s : State) : KeptBy s (execStepSummary m s) := by
  unfold execStepSummary
  split <;> simp

theorem kept_execSeedingDone (s : State) : KeptBy s (execSeedingDone s) := by
  simp [execSeedingDone]

theorem kept_execRemotePegOp (m : PegMsg) (s : State) : KeptBy s (execRemotePegOp m s) := by
  simp [execRemotePegOp]

theorem kept_execPegAck (ref status count target : Nat) (s : State) : KeptBy s (execPegAck ref status count target s) := by
  unfold execPegAck
  split <;> simp

theorem kept_execCommitTimeout (ctx : Nat) (s : State) : KeptBy s (execCommitTimeout ctx s) := by
  unfold execCommitTimeout
  split <;> simp

theorem kept_execDuplicateExecution (ctx index digest : Nat) (s : State) : KeptBy s (execDuplicateExecution ctx index digest s) := by
  unfold execDuplicateExecution
  dsimp only
  repeat' split
  all_goals simp

theorem kept_execThirdExecution (ctx index digest : Nat) (s : State) : KeptBy s (execThirdExecution ctx index digest s) := by
  unfold execThirdExecution
  dsimp only
  repeat' split
  all_goals simp

theorem sound_fenceFilter (s : State) (f : Nat → Bool) (sound : tablesSound (outsideWork s)) : tablesSound (outsideWork { s with fence := s.fence.filter f }) := by
  obtain ⟨few, once, flash⟩ := sound
  exact ⟨(List.length_filter_le ..).trans few, once.filter f, flash⟩

theorem sound_execGalleryTest {s : State} (sound : tablesSound (outsideWork s)) (hall aisle gallery : Nat) (pass_ : Bool) (test : Nat) :
    SoundNext (execGalleryTest hall aisle gallery pass_ test s) := by
  refine soundNext_if (soundNext_next sound) (soundNext_if (soundNext_next ?_) (soundNext_next ?_))
  · simp only [sound_startProbe, sound_aisleSwaps, sound_refill, sound_putGal]
    exact sound_fenceFilter _ _ (by simpa using sound)
  · simp only [sound_persistRollback, sound_aisleSwaps, outsideWork_setErr, sound_testFails]
    exact sound_if (by simpa using sound) sound

theorem kept_execProbeResult (hall aisle gallery pack result firstFail : Nat) (s : State) : KeptBy s (execProbeResult hall aisle gallery pack result firstFail s) := by
  simp [execProbeResult]

theorem kept_execSeTest (x : Word) (s : State) : KeptBy s (execSeTest x s) := by
  simp [execSeTest]

theorem kept_execHallEdgeEngineTest (hall engine : Nat) (result : EngineResult) (s : State) : KeptBy s (execHallEdgeEngineTest hall engine result s) := by
  simp [execHallEdgeEngineTest]

theorem kept_execSlotPar (hall aisle : Nat) (at_ : BayOf) (ns : Nat) (s : State) : KeptBy s (execSlotPar hall aisle at_ ns s) := by
  unfold execSlotPar
  split <;> simp

theorem kept_execSramUe (gallery : Option Nat) (hub ns : Nat) (s : State) : KeptBy s (execSramUe gallery hub ns s) := by
  unfold execSramUe
  split <;> simp

theorem kept_execLeaseExpiry (tag ns : Nat) (s : State) : KeptBy s (execLeaseExpiry tag ns s) := by
  unfold execLeaseExpiry
  dsimp only
  repeat' split
  all_goals simp

theorem kept_execMoverFault (hall mover ns : Nat) (s : State) : KeptBy s (execMoverFault hall mover ns s) := by
  simp [execMoverFault]

theorem kept_execHubBlockFault (unit : Nat) (s : State) : KeptBy s (execHubBlockFault unit s) := by
  simp [execHubBlockFault]

theorem kept_execScrubPeriod (hall : Nat) (corrected : List (Nat × Nat)) (s : State) : KeptBy s (execScrubPeriod hall corrected s) := by
  simp [execScrubPeriod]

theorem kept_execHbmUe (hall addr : Nat) (holds : LineHolds) (ns : Nat) (s : State) : KeptBy s (execHbmUe hall addr holds ns s) := by
  unfold execHbmUe
  dsimp only
  repeat' split
  all_goals simp

theorem kept_execEcsRead (counts : List Nat) (s : State) : KeptBy s (execEcsRead counts s) := by
  simp [execEcsRead]

theorem kept_execRetrain (hall pc : Nat) (s : State) : KeptBy s (execRetrain hall pc s) := by
  simp [execRetrain]

theorem kept_execRetrainForce (hall pc : Nat) (s : State) : KeptBy s (execRetrainForce hall pc s) := by
  simp [execRetrainForce]

theorem kept_execRetrainingDone (hall : Nat) (s : State) : KeptBy s (execRetrainingDone hall s) := by
  simp [execRetrainingDone]

theorem kept_execReady (s : State) : KeptBy s (execReady s) := by
  unfold execReady
  dsimp only
  repeat' split
  all_goals simp

theorem kept_execFwWriteDone (s : State) : KeptBy s (execFwWriteDone s) := by
  unfold execFwWriteDone
  split
  · simp
  · rw [keptBy_next, sound_answer]
    rfl

theorem sound_slotErased (addr len : Nat) (s : State) (k : Nat) : tablesSound (outsideWork (slotErased addr len s k)) ↔ tablesSound (outsideWork s) :=
  sound_cond Iff.rfl (sound_cond (sound_putSlot ..) (sound_putSlot ..))

theorem sound_flashErased {s : State} (addr len : Nat) (sound : tablesSound (outsideWork s)) : tablesSound (outsideWork (flashErased addr len s)) := by
  obtain ⟨few, once, flash⟩ := sound
  exact ⟨few, once, SMap.wf_filter _ _ _ flash⟩

theorem sound_execFlashErase {s : State} (sound : tablesSound (outsideWork s)) (addr len : Nat) : SoundNext (execFlashErase addr len s) := by
  have erased : tablesSound (outsideWork (slotErased addr len (slotErased addr len s 0) 1)) := by rwa [sound_slotErased, sound_slotErased]
  exact soundNext_if (soundNext_next sound) (soundNext_next (sound_flashErased addr len erased))

theorem sound_execFlashWrite {s : State} (sound : tablesSound (outsideWork s)) (addr : Nat) (data : List Byte) : SoundNext (execFlashWrite addr data s) :=
  soundNext_if (soundNext_next (sound_flashPut s addr data sound)) (soundNext_next sound)

theorem sound_execPoresetNAssert {s : State} (sound : tablesSound (outsideWork s)) : SoundNext (execPoresetNAssert s) :=
  soundNext_next (sound_coldState sound)

theorem kept_execPoresetNRelease (svcEnN : Bool) (s : State) : KeptBy s (execPoresetNRelease svcEnN s) := by
  simp [execPoresetNRelease]

theorem kept_execWarmresetNFall (s : State) : KeptBy s (execWarmresetNFall s) := by
  simp [execWarmresetNFall]

theorem kept_execWarmresetNRise (s : State) : KeptBy s (execWarmresetNRise s) := by
  simp [execWarmresetNRise]

theorem kept_execWarm (s : State) : KeptBy s (execWarm s) := by
  simp [execWarm]

theorem kept_execRomWatchdog (s : State) : KeptBy s (execRomWatchdog s) := by
  simp [execRomWatchdog]

theorem sound_execSupplyLost {s : State} (sound : tablesSound (outsideWork s)) (input mv : Nat) : SoundNext (execSupplyLost input mv s) := by
  have put := (sound_putInput s input mv false).mpr sound
  refine soundNext_if (soundNext_next sound) (soundNext_if (soundNext_next (sound_powerDown put)) (soundNext_if (soundNext_next ?_) (soundNext_if (soundNext_next ?_) (soundNext_next put))))
  · simpa using put
  · simpa using put

theorem sound_execSupplyReturn {s : State} (sound : tablesSound (outsideWork s)) (input mv : Nat) : SoundNext (execSupplyReturn input mv s) :=
  soundNext_next (sound_inputBack sound input mv)

theorem sound_execPowerReturn {s : State} (sound : tablesSound (outsideWork s)) (input mv : Nat) : SoundNext (execPowerReturn input mv s) :=
  soundNext_if (soundNext_next sound) (soundNext_next (sound_inputBack sound input mv))

theorem sound_execPowerLost {s : State} (sound : tablesSound (outsideWork s)) : SoundNext (execPowerLost s) :=
  soundNext_if (soundNext_next (sound_powerDown sound)) (soundNext_next sound)

theorem sound_execStbyLost {s : State} (sound : tablesSound (outsideWork s)) (mv : Nat) : SoundNext (execStbyLost mv s) := by
  refine soundNext_if (soundNext_next sound) (soundNext_if (soundNext_next (sound_powerDown sound)) (soundNext_if (soundNext_next ?_) (soundNext_if (soundNext_next ?_) (soundNext_next sound))))
  · simpa using sound
  · simpa using sound

theorem kept_execRefLost (s : State) : KeptBy s (execRefLost s) := by
  simp [execRefLost]

theorem kept_execDormantEntry (s : State) : KeptBy s (execDormantEntry s) := by
  simp [execDormantEntry]

theorem sound_execWakeN {s : State} (sound : tablesSound (outsideWork s)) (imageOk : Bool) : SoundNext (execWakeN imageOk s) :=
  soundNext_if (soundNext_next (sound_wake sound imageOk)) (soundNext_next sound)

theorem sound_execPwWake {s : State} (sound : tablesSound (outsideWork s)) (imageOk : Bool) : SoundNext (execPwWake imageOk s) :=
  soundNext_if (soundNext_next (sound_wake sound imageOk)) (soundNext_next sound)

theorem kept_execGateIdle (hall aisle gallery : Nat) (s : State) : KeptBy s (execGateIdle hall aisle gallery s) := by
  simp [execGateIdle]

theorem kept_execGateOpen (hall aisle gallery : Nat) (katOk : Bool) (s : State) : KeptBy s (execGateOpen hall aisle gallery katOk s) := by
  simp [execGateOpen]

theorem kept_execHallIdle (hall : Nat) (s : State) : KeptBy s (execHallIdle hall s) := by
  simp [execHallIdle]

theorem kept_execHallWakeDone (hall ns : Nat) (tests : WakeTests) (s : State) : KeptBy s (execHallWakeDone hall ns tests s) := by
  simp [execHallWakeDone]

theorem kept_execDutyUpdate (temps : List (Nat × Nat × Int)) (watts : Nat) (s : State) : KeptBy s (execDutyUpdate temps watts s) := by
  simp [execDutyUpdate]

theorem kept_execSensorStale (unit sensor : Nat) (s : State) : KeptBy s (execSensorStale unit sensor s) := by
  simp [execSensorStale]

theorem kept_execRailFault (unit rail mv : Nat) (gallery : Option Nat) (s : State) : KeptBy s (execRailFault unit rail mv gallery s) := by
  unfold execRailFault
  dsimp only
  repeat' split
  all_goals simp

theorem kept_execMonitorRecord (unit : Nat) (s : State) : KeptBy s (execMonitorRecord unit s) := by
  simp [execMonitorRecord]

theorem sound_execThermalTrip {s : State} (sound : tablesSound (outsideWork s)) (unit sensor : Nat) (temp : Int) : SoundNext (execThermalTrip unit sensor temp s) := by
  refine soundNext_if (soundNext_next sound) (soundNext_next (sound_deadState (sound_if ((sound_declareLost ..).mpr ?_) ?_)))
  · exact sound
  · exact sound

theorem kept_execBlkSwingGo (page group : Nat) (s : State) : KeptBy s (execBlkSwingGo page group s) := by
  unfold execBlkSwingGo
  split <;> simp

theorem kept_execBlkSwingCancel (page : Nat) (s : State) : KeptBy s (execBlkSwingCancel page s) := by
  unfold execBlkSwingCancel
  split <;> simp

theorem kept_execSwingApply (page : Nat) (s : State) : KeptBy s (execSwingApply page s) := by
  unfold execSwingApply
  split <;> simp

theorem kept_execSwingFire (s : State) : KeptBy s (execSwingFire s) := by
  simp [execSwingFire]

theorem kept_execSwingAbort (s : State) : KeptBy s (execSwingAbort s) := by
  simp [execSwingAbort]

theorem kept_execSwingPegArrive (page : Nat) (s : State) : KeptBy s (execSwingPegArrive page s) := by
  unfold execSwingPegArrive
  split <;> simp

theorem kept_execHoldMax (group ms : Nat) (s : State) : KeptBy s (execHoldMax group ms s) := by
  simp [execHoldMax]

theorem kept_execLatchHighWord (addr : Nat) (s : State) : KeptBy s (execLatchHighWord addr s) := by
  simp [execLatchHighWord]

theorem kept_execRnGo (x : Word) (s : State) : KeptBy s (execRnGo x s) := by
  simp [execRnGo]

theorem kept_execRnDone (s : State) : KeptBy s (execRnDone s) := by
  simp [execRnDone]

theorem kept_execOpen (h : Hdr) (s : State) : KeptBy s (execOpen h s) := by
  simp [execOpen]

theorem kept_execClose (h : Hdr) (s : State) : KeptBy s (execClose h s) := by
  rw [execClose, keptBy_next]
  exact sound_viaSession h 0 s fun t o => by simp

theorem kept_execRegWrite (riendin : Bool) (h : Hdr) (addr : Nat) (ws : List Word) (s : State) : KeptBy s (execRegWrite riendin h addr ws s) := by
  simp [execRegWrite]

theorem kept_execSessIdle (session : Nat) (s : State) : KeptBy s (execSessIdle session s) := by
  simp [execSessIdle]

theorem kept_execDoorbell (qp ring producer lat : Nat) (ce : Bool) (s : State) : KeptBy s (execDoorbell qp ring producer lat ce s) := by
  simp [execDoorbell]

theorem kept_execRdmaWrite (qp ring index : Nat) (entry : Option RingEntry) (ce : Bool) (s : State) : KeptBy s (execRdmaWrite qp ring index entry ce s) := by
  unfold execRdmaWrite
  dsimp only
  repeat' split
  all_goals simp

theorem kept_execTransferDone (id : Nat) (data : List Byte) (ok : Bool) (s : State) : KeptBy s (execTransferDone id data ok s) := by
  unfold execTransferDone
  split <;> simp

theorem kept_execQpError (qp : Nat) (s : State) : KeptBy s (execQpError qp s) := by
  simp [execQpError]

theorem kept_execCnp (qp : Nat) (s : State) : KeptBy s (execCnp qp s) := by
  simp [execCnp]

theorem kept_execHpCcPeriod (qp : Nat) (s : State) : KeptBy s (execHpCcPeriod qp s) := by
  simp [execHpCcPeriod]

theorem kept_execPfc (prio : Nat) (pause : Bool) (s : State) : KeptBy s (execPfc prio pause s) := by
  simp [execPfc]

theorem kept_execArp (src target : Nat) (s : State) : KeptBy s (execArp src target s) := by
  simp [execArp]

theorem kept_execNeighbourDiscovery (src target : Nat) (s : State) : KeptBy s (execNeighbourDiscovery src target s) := by
  simp [execNeighbourDiscovery]

theorem kept_execIcmpEcho (src target : Nat) (v6 : Bool) (data : List Byte) (s : State) : KeptBy s (execIcmpEcho src target v6 data s) := by
  simp [execIcmpEcho]

theorem kept_execDiscardedFrame (reason : Nat) (s : State) : KeptBy s (execDiscardedFrame reason s) := by
  simp [execDiscardedFrame]

theorem kept_execTelemetryRecord (stream ctx consumer : Nat) (s : State) : KeptBy s (execTelemetryRecord stream ctx consumer s) := by
  simp [execTelemetryRecord]

theorem kept_execRecomputeRerun (ctx layer half pos : Nat) (s : State) : KeptBy s (execRecomputeRerun ctx layer half pos s) := by
  unfold execRecomputeRerun
  dsimp only
  repeat' split
  all_goals simp

theorem kept_execEvalPassEnd (ctx : Nat) (s : State) : KeptBy s (execEvalPassEnd ctx s) := by
  unfold execEvalPassEnd
  dsimp only
  split <;> simp

/-- What a command leaves, it leaves with sound tables. -/
theorem exec_keepsTables (c : Instr) {s t : State} (sound : tablesSound (outsideWork s)) (run : exec c s = .next t) : tablesSound (outsideWork t) := by
  have work (own : stepWork c = true) : tablesSound (outsideWork t) := by
    obtain ⟨-, boot, -, -, -, fence, -⟩ := stepWorkFrame c s t own run
    obtain ⟨few, once, flash⟩ := sound
    exact ⟨(congrArg List.length fence).trans_le few, fence ▸ once, (congrArg (fun b : Boot => Mem.wf b.flash) boot).trans flash⟩
  cases c with
  | frameQueueAccept | arrive | wait | set | reset_ | query | waitRelease | evaluationPass | workOrderComplete | layerEnd | survey | loss
  | backwardLayerEnd | stackPop | sliceComplete | bucketOpen | reducePacket | gatherPacket | agreePacket | treeUp | treeDown | bucketComplete
  | bucketDeadline | sliceAccept | journalAck | jwrite | mirrorQueueReady | verify | admissionNotice | mirrorAcknowledgement => exact work rfl
  | regRead | netConfig | qpConnect | qpDestroy | ringConfig | create | loadPlan | setSeed | activate | deactivate | switch | resume | export_
  | restore | exportKj7 | destroy | admit_ | eval | setWindow | selfTest | pair | probeLoad | fwUpdate | attest | cert | unpair | telemConfig => exact ((keptBy_next.mpr (sound_datagram ..)).soundNext sound) t run
  | add | sub | mul | div | fma | min | max | neg | abs | sqrt | rsqrt | recip | clamp | relu | leaky | geluTanh | geluErf | silu | sigmoid
  | tanh | softplus | exp | log | gluSilu | gluGelu | reluDerivative | leakyDerivative | geluTanhDerivative | geluErfDerivative
  | siluDerivative | sigmoidDerivative | tanhDerivative | softplusDerivative | expDerivative | logDerivative | gluSiluDerivative
  | gluGeluDerivative | layernorm | rmsnorm | layernormB | rmsnormB | softmax | logsoftmax | softmaxB | xent | xentB | mse | mseB | dropout
  | dropoutB | gather | scatterAdd | sample | initUniform | initNormal | convert => exact ((keptBy_next.mpr (sound_ewWork ..)).soundNext sound) t run
  | vadd | vsub | vmul | vdiv | vfma | vsqrt | vmin | vmax | vconv => exact ((keptBy_next.mpr (sound_ieeeWork ..)).soundNext sound) t run
  | sum | sumsq | reductionMax | reductionMin | maxabs | dot => exact ((keptBy_next.mpr (sound_rdWork ..)).soundNext sound) t run
  | sliceModeProduct | joinerProduct => exact ((keptBy_next.mpr (sound_skWork ..)).soundNext sound) t run
  | localTimer | watchdogWarning | cacheError => exact ((keptBy_next.mpr (sound_raisePrivate ..)).soundNext sound) t run
  | open_ => exact (kept_execOpen _ _).soundNext sound t run
  | close => exact (kept_execClose _ _).soundNext sound t run
  | regWrite => exact (kept_execRegWrite _ _ _ _ _).soundNext sound t run
  | doorbell => exact (kept_execDoorbell _ _ _ _ _ _).soundNext sound t run
  | rdmaWrite => exact (kept_execRdmaWrite _ _ _ _ _ _).soundNext sound t run
  | transferDone => exact (kept_execTransferDone _ _ _ _).soundNext sound t run
  | qpError => exact (kept_execQpError _ _).soundNext sound t run
  | cnp => exact (kept_execCnp _ _).soundNext sound t run
  | hpCcPeriod => exact (kept_execHpCcPeriod _ _).soundNext sound t run
  | pfc => exact (kept_execPfc _ _ _).soundNext sound t run
  | arp => exact (kept_execArp _ _ _).soundNext sound t run
  | neighbourDiscovery => exact (kept_execNeighbourDiscovery _ _ _).soundNext sound t run
  | icmpEcho => exact (kept_execIcmpEcho _ _ _ _ _).soundNext sound t run
  | sessIdle => exact (kept_execSessIdle _ _).soundNext sound t run
  | telemetryRecord => exact (kept_execTelemetryRecord _ _ _ _).soundNext sound t run
  | blkSwingGo => exact (kept_execBlkSwingGo _ _ _).soundNext sound t run
  | blkSwingCancel => exact (kept_execBlkSwingCancel _ _).soundNext sound t run
  | swingApply => exact (kept_execSwingApply _ _).soundNext sound t run
  | swingFire => exact (kept_execSwingFire _).soundNext sound t run
  | swingAbort => exact (kept_execSwingAbort _).soundNext sound t run
  | swingPegArrive => exact (kept_execSwingPegArrive _ _).soundNext sound t run
  | holdMax => exact (kept_execHoldMax _ _ _).soundNext sound t run
  | geWordLo => exact (kept_execGeWordLo _ _).soundNext sound t run
  | geWordHi => exact (kept_execGeWordHi _ _).soundNext sound t run
  | geHistFetch slot => exact (kept_execGeHistFetch slot s).soundNext sound t run
  | geHistReady => exact (kept_execGeHistReady _).soundNext sound t run
  | latchHighWord => exact (kept_execLatchHighWord _ _).soundNext sound t run
  | rnGo => exact (kept_execRnGo _ _).soundNext sound t run
  | rnDone => exact (kept_execRnDone _).soundNext sound t run
  | seTest => exact (kept_execSeTest _ _).soundNext sound t run
  | warm => exact (kept_execWarm _).soundNext sound t run
  | ecRing => exact (kept_execEcRing _ _ _).soundNext sound t run
  | ecScfg => exact (kept_execEcScfg _ _).soundNext sound t run
  | pgGreach => exact (kept_execPgGreach _ _ _).soundNext sound t run
  | evtSet => exact (kept_execEvtSet _ _ _).soundNext sound t run
  | poresetNAssert => exact sound_execPoresetNAssert sound t run
  | poresetNRelease => exact (kept_execPoresetNRelease _ _).soundNext sound t run
  | flashErase => exact sound_execFlashErase sound _ _ t run
  | flashWrite => exact sound_execFlashWrite sound _ _ t run
  | warmresetNFall => exact (kept_execWarmresetNFall _).soundNext sound t run
  | warmresetNRise => exact (kept_execWarmresetNRise _).soundNext sound t run
  | ready => exact (kept_execReady _).soundNext sound t run
  | romWatchdog => exact (kept_execRomWatchdog _).soundNext sound t run
  | fwWriteDone => exact (kept_execFwWriteDone _).soundNext sound t run
  | wakeN => exact sound_execWakeN sound _ t run
  | pwWake => exact sound_execPwWake sound _ t run
  | dormantEntry => exact (kept_execDormantEntry _).soundNext sound t run
  | refLost => exact (kept_execRefLost _).soundNext sound t run
  | supplyLost => exact sound_execSupplyLost sound _ _ t run
  | supplyReturn => exact sound_execSupplyReturn sound _ _ t run
  | stbyLost => exact sound_execStbyLost sound _ t run
  | powerLost => exact sound_execPowerLost sound t run
  | powerReturn => exact sound_execPowerReturn sound _ _ t run
  | thermalTrip => exact sound_execThermalTrip sound _ _ _ t run
  | dutyUpdate => exact (kept_execDutyUpdate _ _ _).soundNext sound t run
  | sensorStale => exact (kept_execSensorStale _ _ _).soundNext sound t run
  | railFault => exact (kept_execRailFault _ _ _ _ _).soundNext sound t run
  | monitorRecord => exact (kept_execMonitorRecord _ _).soundNext sound t run
  | ecsRead => exact (kept_execEcsRead _ _).soundNext sound t run
  | gateIdle => exact (kept_execGateIdle _ _ _ _).soundNext sound t run
  | gateOpen => exact (kept_execGateOpen _ _ _ _ _).soundNext sound t run
  | hallIdle => exact (kept_execHallIdle _ _).soundNext sound t run
  | hallWakeDone => exact (kept_execHallWakeDone _ _ _ _).soundNext sound t run
  | matrixTile => exact (kept_execMatrixTile _ _ _).soundNext sound t run
  | movement => exact (kept_execMovement _ _ _).soundNext sound t run
  | mxImport => exact (kept_execMxImport _ _ _ _).soundNext sound t run
  | mxExport => exact (kept_execMxExport _ _ _ _).soundNext sound t run
  | remotePegOp => exact (kept_execRemotePegOp _ _).soundNext sound t run
  | pegAck => exact (kept_execPegAck _ _ _ _ _).soundNext sound t run
  | evalPassEnd => exact (kept_execEvalPassEnd _ _).soundNext sound t run
  | recomputeRerun => exact (kept_execRecomputeRerun _ _ _ _ _).soundNext sound t run
  | commitTimeout => exact (kept_execCommitTimeout _ _).soundNext sound t run
  | closePhase => exact (kept_execClosePhase _ _).soundNext sound t run
  | repeatAdmit => exact (kept_execRepeatAdmit _ _ _).soundNext sound t run
  | settleRound => exact (kept_execSettleRound _ _ _ _ _ _).soundNext sound t run
  | settleTimeout => exact (kept_execSettleTimeout _ _).soundNext sound t run
  | journalRollback => exact (kept_execJournalRollback _ _ _ _ _).soundNext sound t run
  | digestRoot => exact (kept_execDigestRoot _ _).soundNext sound t run
  | rootVote => exact (kept_execRootVote _ _ _ _ _ _).soundNext sound t run
  | duplicateExecution => exact (kept_execDuplicateExecution _ _ _ _).soundNext sound t run
  | thirdExecution => exact (kept_execThirdExecution _ _ _ _).soundNext sound t run
  | rotatePeriod => exact (kept_execRotatePeriod _).soundNext sound t run
  | galleryTest => exact sound_execGalleryTest sound _ _ _ _ _ t run
  | probeResult => exact (kept_execProbeResult _ _ _ _ _ _ _).soundNext sound t run
  | slotPar => exact (kept_execSlotPar _ _ _ _ _).soundNext sound t run
  | sramUe => exact (kept_execSramUe _ _ _ _).soundNext sound t run
  | leaseExpiry => exact (kept_execLeaseExpiry _ _ _).soundNext sound t run
  | moverFault => exact (kept_execMoverFault _ _ _ _).soundNext sound t run
  | hubBlockFault => exact (kept_execHubBlockFault _ _).soundNext sound t run
  | hbmUe => exact (kept_execHbmUe _ _ _ _ _).soundNext sound t run
  | scrubPeriod => exact (kept_execScrubPeriod _ _ _).soundNext sound t run
  | retrain => exact (kept_execRetrain _ _ _).soundNext sound t run
  | retrainForce => exact (kept_execRetrainForce _ _ _).soundNext sound t run
  | heartbeatPeriod => exact (kept_execHeartbeatPeriod _).soundNext sound t run
  | heartbeat src seq down => exact (kept_execHeartbeat src seq down s).soundNext sound t run
  | heartbeatMiss => exact (kept_execHeartbeatMiss _ _).soundNext sound t run
  | lost src device ns => exact (kept_execLost src device ns s).soundNext sound t run
  | mirrorRecord => exact (kept_execMirrorRecord _ _).soundNext sound t run
  | stepSummary => exact (kept_execStepSummary _ _).soundNext sound t run
  | seedingDone => exact (kept_execSeedingDone _).soundNext sound t run
  | linkUp => exact (kept_execLinkUp _ _ _ _ _).soundNext sound t run
  | linkRetrain => exact (kept_execLinkRetrain _ _).soundNext sound t run
  | flit => exact (kept_execFlit _ _ _).soundNext sound t run
  | nak => exact (kept_execNak _ _ _).soundNext sound t run
  | idleFlit => exact (kept_execIdleFlit _ _).soundNext sound t run
  | retryExh => exact (kept_execRetryExh _ _ _).soundNext sound t run
  | laneFault => exact (kept_execLaneFault _ _ _ _).soundNext sound t run
  | laneSwap => exact (kept_execLaneSwap _ _ _).soundNext sound t run
  | linkFault => exact (kept_execLinkFault _ _ _).soundNext sound t run
  | reorderTimeout => exact (kept_execReorderTimeout _ _ _).soundNext sound t run
  | closeUpdateDone => exact (kept_execCloseUpdateDone _ _ _).soundNext sound t run
  | retrainingDone => exact (kept_execRetrainingDone _ _).soundNext sound t run
  | hallEdgeEngineTest => exact (kept_execHallEdgeEngineTest _ _ _ _).soundNext sound t run
  | discardedFrame => exact (kept_execDiscardedFrame _ _).soundNext sound t run

/-- Settles O60: the idle step counts a tick, every other step is one command. -/
theorem stepKeepsTables : Obligations.StepKeepsTables := by
  unfold Obligations.StepKeepsTables
  intro s t sound run
  unfold step at run
  split at run
  · have ticked : idle s = t := Host.Outcome.next.inj run
    rw [← ticked, idle, tickClock]
    exact sound_if sound sound
  · next c rest waiting => exact exec_keepsTables c (s := { s with pending := rest }) sound run

end Sys2Proof.Machine
end

section
/-! SUPPORT of O21: states that differ in what dispatch may leave alone. Placements and what they give back read the registers away from the port's
page, so they take two such states to two such states. -/

namespace Sys2Proof.Machine

theorem portOnly.symm {s t : State} (p : portOnly s t) : portOnly t s := by
  obtain ⟨r, e, z, d, rfl⟩ := p
  exact ⟨s.regs, s.ec, s.host.sessions, s.host.devRings, rfl⟩

theorem portOnly.recorded {s t : State} (h : recorded s t) : portOnly s t := ⟨t.regs, t.ec, s.host.sessions, t.host.devRings, h⟩

/-- Two states between which only what dispatch may touch differs; the registers away from the port's page agree. -/
structure Alike (s t : State) : Prop where
  port : portOnly s t
  regs : ∀ p off, offPort p off → regGet t p off = regGet s p off

/-- A page none of whose registers lies on the port's page. -/
def awayPage (p : Page) : Prop := ∀ o, o < 0x1000 → offPort p o

theorem awayPage_pgLink {n : Nat} (real : n < 48) : awayPage (pgLink n) := by
  intro o ho
  unfold offPort pgLink pgHost
  dsimp only
  split <;> omega

theorem awayPage_pgRouter : awayPage pgRouter := fun o ho => .inl (by unfold pgRouter pgHost; dsimp only; omega)

theorem awayPage_pgScribe : awayPage pgScribe := fun o ho => .inl (by unfold pgScribe pgHost; dsimp only; omega)

theorem regGet_regSet_at {p q : Page} {o u : Nat} (same : q.base + u = p.base + o) (s t : State) (v : Nat) :
    regGet (regSet t p o v) q u = regGet (regSet s p o v) q u := by
  simp only [regGet, regSet, same, SMap.get, SMap.put]
  split
  · rw [SMap.find_erase_same, SMap.find_erase_same]
  · rw [SMap.find_insert_same, SMap.find_insert_same]

namespace Alike

theorem refl (s : State) : Alike s s := ⟨portOnly_refl s, fun _ _ _ => rfl⟩

variable {s t u : State}

theorem symm (a : Alike s t) : Alike t s := ⟨a.port.symm, fun p off away => (a.regs p off away).symm⟩

theorem trans (a : Alike s t) (b : Alike t u) : Alike s u := ⟨portOnly_trans a.port b.port, fun p off away => (b.regs p off away).trans (a.regs p off away)⟩

/-- A change of both sides that each may leave. -/
theorem both {s' t' : State} (a : Alike s t) (h : Alike s s') (k : Alike t t') : Alike s' t' := h.symm.trans (a.trans k)

/-- The registers stand. -/
theorem of_regs (port : portOnly s t) (same : t.regs = s.regs) : Alike s t := ⟨port, fun p off _ => by rw [regGet, regGet, same]⟩

/-- A function that leaves the registers and what dispatch may touch. -/
theorem map (a : Alike s t) (f : State → State) (regs : ∀ u, (f u).regs = u.regs)
    (h : ∀ r e z d, portOnly (f s) (f { s with regs := r, ec := e, host := { s.host with sessions := z, devRings := d } })) :
    Alike (f s) (f t) :=
  ⟨a.port.map f h, fun p off away => by
    have kept := a.regs p off away
    simp only [regGet, regs] at kept ⊢
    exact kept⟩

/-- What reads neither registers nor the port's own reads the same. -/
theorem same (a : Alike s t) {α : Type} (f : State → α)
    (h : ∀ r e z d, f { s with regs := r, ec := e, host := { s.host with sessions := z, devRings := d } } = f s) : f t = f s := a.port.same f h

theorem ctx (a : Alike s t) (n : Nat) : getCtx t n = getCtx s n := a.same (getCtx · n) fun _ _ _ _ => rfl

theorem deviceId (a : Alike s t) : deviceId t = Machine.deviceId s := congrArg (bits · 11 0) (a.regs pgRouter Reg.RT_ID (awayPage_pgRouter _ (by decide)))

theorem ctxTag (a : Alike s t) (n : Nat) : ctxTag t n = Machine.ctxTag s n := by rw [Machine.ctxTag, Machine.ctxTag, a.deviceId]

/-! Stores. -/

theorem putCtx (a : Alike s t) (n : Nat) (c : Ctx) : Alike (putCtx s n c) (putCtx t n c) :=
  a.map (Machine.putCtx · n c) (fun _ => rfl) fun r e z d => ⟨r, e, z, d, rfl⟩

theorem modCtx (a : Alike s t) (n : Nat) (f : Ctx → Ctx) : Alike (modCtx s n f) (modCtx t n f) := by
  rw [Machine.modCtx, Machine.modCtx, a.ctx]
  exact a.putCtx n _

theorem putPeg (a : Alike s t) (k : Nat) (p : Peg) : Alike (putPeg s k p) (putPeg t k p) :=
  a.map (Machine.putPeg · k p) (fun _ => rfl) fun r e z d => ⟨r, e, z, d, rfl⟩

theorem modGal (a : Alike s t) (k : Nat) (f : Gallery → Gallery) : Alike (modGal s k f) (modGal t k f) :=
  a.map (Machine.modGal · k f) (fun _ => rfl) fun r e z d => ⟨r, e, z, d, rfl⟩

theorem putLink (a : Alike s t) (n : Nat) (l : Link) : Alike (putLink s n l) (putLink t n l) :=
  a.map (Machine.putLink · n l) (fun _ => rfl) fun r e z d => ⟨r, e, z, d, rfl⟩

theorem numbered (a : Alike s t) (k n : Nat) :
    Alike { s with router := { s.router with sent := s.router.sent.put 0 k ((s.router.sent.get 0 k + n) % 4096) } }
      { t with router := { t.router with sent := t.router.sent.put 0 k ((t.router.sent.get 0 k + n) % 4096) } } :=
  a.map (fun u => { u with router := { u.router with sent := u.router.sent.put 0 k ((u.router.sent.get 0 k + n) % 4096) } }) (fun _ => rfl)
    fun r e z d => ⟨r, e, z, d, rfl⟩

theorem emit (a : Alike s t) (o : Out) : Alike (emit s o) (emit t o) :=
  a.map (Machine.emit · o) (fun _ => rfl) fun r e z d => ⟨r, e, z, d, rfl⟩

/-! Registers, and errors with what they raise. -/

theorem regSet (a : Alike s t) (p : Page) (off v : Nat) : Alike (regSet s p off v) (regSet t p off v) where
  port := a.port.map (Machine.regSet · p off v) fun r e z d => ⟨_, e, z, d, rfl⟩
  regs q u away := by
    by_cases here : q.base + u = p.base + off
    · exact regGet_regSet_at here s t v
    · rw [regGet_regSet_ne _ _ _ _ _ _ here, regGet_regSet_ne _ _ _ _ _ _ here]
      exact a.regs q u away

theorem updateLine (s : State) (p : Page) : Alike s (updateLine s p) := by
  obtain ⟨e, eq⟩ := updateLine_only s p
  rw [eq]
  exact of_regs ⟨s.regs, e, s.host.sessions, s.host.devRings, rfl⟩ rfl

theorem logFault (s : State) (f : FaultRec) : Alike s (logFault s f) :=
  ⟨.recorded (logFault_recorded s f), fun _ _ away => logFault_port_regGet away s f⟩

section Page
variable {p : Page} (away : awayPage p)
include away

theorem setEvt (a : Alike s t) (m : Nat) : Alike (setEvt s p m) (setEvt t p m) := by
  rw [Machine.setEvt, Machine.setEvt, a.regs p Reg.EVT_PEND (away _ (by decide))]
  exact (a.regSet p Reg.EVT_PEND _).both (updateLine ..) (updateLine ..)

theorem bump64 (a : Alike s t) {lo : Nat} (inPage : lo + 4 < 0x1000) (n : Nat) : Alike (bump64 s p lo n) (bump64 t p lo n) := by
  have held : cntHold t p = cntHold s p := congrArg (bit · 1) (a.regs p Reg.BLK_CTRL (away _ (by decide)))
  unfold Machine.bump64
  rw [held, a.regs p lo (away _ (by omega)), a.regs p (lo + 4) (away _ inPage)]
  split
  · exact a
  · exact (a.regSet ..).regSet ..

variable (inPage : errOff p.kind < 0x1000)
include inPage

theorem setErrBit (a : Alike s t) (i : Nat) : Alike (setErrBit s p i) (setErrBit t p i) := by
  unfold Machine.setErrBit
  dsimp only
  rw [a.regs p (errOff p.kind) (away _ inPage)]
  split
  · exact a
  · exact setEvt away (a.regSet ..) _

theorem setErr (a : Alike s t) (i : Nat) : Alike (setErr s p i) (setErr t p i) := by
  have bits := setErrBit away inPage a i
  unfold Machine.setErr
  dsimp only
  rw [a.regs p (errOff p.kind) (away _ inPage), a.regs p Reg.BLK_CTRL (away _ (by decide))]
  split
  · exact a
  · split
    · exact bits.both (logFault ..) (logFault ..)
    · exact bits

end Page

/-! Traffic. -/

theorem foldl {α : Type} {f : State → α → State} {l : List α} (a : Alike s t) (each : ∀ x ∈ l, ∀ s t, Alike s t → Alike (f s x) (f t x)) :
    Alike (l.foldl f s) (l.foldl f t) := List.foldl_rel (r := Alike) a each

section Link
variable {n : Nat} (real : n < 48)
include real

theorem launch (a : Alike s t) (l : Link) (f : Flit) : Alike (launch s n l f) (launch t n l f) := by
  unfold Machine.launch
  rw [a.same (creditBack · n l) fun _ _ _ _ => rfl]
  exact (bump64 (awayPage_pgLink real) (a.putLink n _) (by decide) 1).emit _

theorem nextFlit (a : Alike s t) (l : Link) : nextFlit t n l = Machine.nextFlit s n l := by
  have weight (tc : Nat) : classWeight t n tc = classWeight s n tc := by
    unfold classWeight
    rw [a.regs (pgLink n) Reg.LK_WEIGHT (awayPage_pgLink real _ (by decide))]
  unfold Machine.nextFlit
  simp only [weight]

theorem pump : ∀ (k : Nat) {s t : State}, Alike s t → Alike (pump n k s) (pump n k t)
  | 0, _, _, a => a
  | k + 1, s, t, a => by
    unfold Machine.pump
    dsimp only
    rw [a.same (getLink · n) fun _ _ _ _ => rfl, a.same (linkRuns · n) fun _ _ _ _ => rfl, a.same (·.power.lost) fun _ _ _ _ => rfl, a.nextFlit real]
    split
    · exact a
    · split
      · exact a
      · exact pump k (a.launch real _ _)

theorem enqueueFlit (a : Alike s t) (f : Flit) : Alike (enqueueFlit s n f) (enqueueFlit t n f) := by
  have settled {u v : State} (b : Alike u v) : Alike (Machine.pump n ((getLink u n).queue.length + 1) u) (Machine.pump n ((getLink v n).queue.length + 1) v) := by
    rw [b.same (getLink · n) fun _ _ _ _ => rfl]
    exact pump real _ b
  unfold Machine.enqueueFlit
  dsimp only
  rw [a.same (getLink · n) fun _ _ _ _ => rfl]
  refine settled ?_
  split
  · exact setErr (awayPage_pgLink real) (show errOff 0x1A < 0x1000 by decide) (a.putLink n _) 4
  · exact a.putLink n _

theorem sendOn (a : Alike s t) (dst tc proto k : Nat) (dateline : Bool) (m : Msg) :
    Alike (sendOn s n dst tc proto k dateline m) (sendOn t n dst tc proto k dateline m) := by
  have flits : packetFlits t dst tc proto k = packetFlits s dst tc proto k := by
    rw [packetFlits, packetFlits, a.deviceId, a.same (·.router.sent) fun _ _ _ _ => rfl]
  unfold Machine.sendOn
  rw [flits]
  exact foldl (emit (a.numbered (dst * 4 + tc) _) _) fun f _ u v b => b.enqueueFlit real _

end Link

theorem sendRouted (a : Alike s t) (dst tc proto k : Nat) (m : Msg) : Alike (sendRouted s dst tc proto k m) (sendRouted t dst tc proto k m) := by
  have valid : idValid t = idValid s := congrArg (bit · 31) (a.regs pgRouter Reg.RT_ID (awayPage_pgRouter _ (by decide)))
  unfold Machine.sendRouted
  rw [valid, a.deviceId, a.same (routeOf · (Machine.deviceId s) dst tc) fun _ _ _ _ => rfl]
  split
  · exact a
  · split
    · next route => exact a.sendOn (routeOf_lt route) ..
    · exact setErr awayPage_pgRouter (by decide) a 0

/-! Pegs, frames and regions given back or taken. -/

theorem endWait (a : Alike s t) (status : Nat) (x : PegWait) : Alike (endWait status s x) (endWait status t x) := by
  unfold Machine.endWait
  split
  · exact a.sendRouted ..
  · split
    · exact a.modCtx ..
    · exact a

theorem updateGroup (s : State) (k : Nat) : Alike s (updateGroup s k) :=
  of_regs ⟨s.regs, (Machine.updateGroup s k).ec, s.host.sessions, s.host.devRings, rfl⟩ rfl

theorem freePeg (a : Alike s t) (status k : Nat) : Alike (freePeg status s k) (freePeg status t k) := by
  unfold Machine.freePeg
  rw [a.same (getPeg · k) fun _ _ _ _ => rfl]
  exact (foldl (a.putPeg k {}) fun x _ u v b => b.endWait status x).both (updateGroup ..) (updateGroup ..)

theorem freePegs (a : Alike s t) (c : Ctx) (keepCommit : Bool) : Alike (freePegs s c keepCommit) (freePegs t c keepCommit) :=
  foldl a fun k _ _ _ b => b.freePeg 0x1A k

theorem setOwner (a : Alike s t) (tag : Nat) (m : Slot) : Alike (setOwner tag s m) (setOwner tag t m) := by
  unfold Machine.setOwner
  rw [a.same (galAt · m.hall m.aisle m.slot) fun _ _ _ _ => rfl]
  split
  · exact foldl (a.modGal ..) fun p _ _ _ b => b.regSet p Reg.OWNER tag
  · exact a

theorem ownFrames (a : Alike s t) (c : Ctx) (tag : Nat) : Alike (ownFrames s c tag) (ownFrames t c tag) := foldl a fun m _ _ _ b => b.setOwner tag m

theorem releaseActive (a : Alike s t) (n : Nat) : Alike (releaseActive s n) (releaseActive t n) := by
  have given := (a.freePegs (getCtx s n) false).ownFrames (getCtx s n) 0
  unfold Machine.releaseActive
  dsimp only
  rw [a.ctx, given.ctx]
  exact given.putCtx n _

theorem wakeHalls (a : Alike s t) (hs : List Nat) : Alike (wakeHalls s hs) (wakeHalls t hs) := by
  refine foldl a fun h _ u v b => ?_
  unfold wakeHall
  rw [b.same (·.power.asleep) fun _ _ _ _ => rfl]
  split
  · exact b.map (fun u => { u with power := { u.power with waking := u.power.waking ||| 2 ^ h } }) (fun _ => rfl) fun r e z d => ⟨r, e, z, d, rfl⟩
  · exact b

end Alike

end Sys2Proof.Machine
end

section
/-! SUPPORT of O21: a placement and its parts, one equation each (R275, R279). -/

namespace Sys2Proof.Machine

/-! Pegs. -/

/-- Bind the next peg, where one is free. -/
def bindNext (n : Nat) (acc : Option (State × List Nat)) (x : Nat × Nat) : Option (State × List Nat) :=
  acc.bind fun e => (findPeg e.1 x.1).map fun k => (bindPeg e.1 k n x.2, e.2 ++ [k])

/-- Bind pegs one after the other. -/
def bindEach (s : State) (n : Nat) (l : List (Nat × Nat)) : Option (State × List Nat) := l.foldl (bindNext n) (some (s, []))

/-- The halls and targets of a plan's own pegs. -/
def planPegSites (c : Ctx) (p : Plan) : List (Nat × Nat) := (planPegs p).map (fun q => (frameHall c q.2, pegTarget c p q.1))

/-- The halls and targets of the commit pegs that a context lacks. -/
def commitPegSites (c : Ctx) : List (Nat × Nat) := List.replicate (if c.commitPegs.isEmpty then 3 else 0) (frameHall c 1, 0xFFFFFFFF)

/-- The context with the pegs bound for it. -/
def pegsNamed (c : Ctx) (p : Plan) (ks cs : List Nat) : Ctx :=
  { c with pegs := ((planPegs p).zip ks).foldl (fun m x => m.insert x.1.1 x.2) [],
           commitPegs := if (if c.commitPegs.isEmpty then 3 else 0) = 0 then c.commitPegs else cs }

theorem bindPegs_spelt (s : State) (n : Nat) (c : Ctx) (p : Plan) : bindPegs s n c p =
    (bindEach s n (planPegSites c p)).bind fun x => (bindEach x.1 n (commitPegSites c)).map fun y => (y.1, pegsNamed c p x.2 y.2) := by
  unfold bindPegs
  extract_lets one pp
  have next : one = bindNext n := funext fun acc => funext fun x => by
    rcases acc with _ | ⟨t, ks⟩ <;> dsimp only [one, bindNext, Option.bind]
  rw [next]
  unfold bindEach planPegSites commitPegSites
  generalize List.foldl (bindNext n) (some (s, [])) _ = own
  rcases own with _ | ⟨t, ks⟩
  · rfl
  · dsimp only [Option.bind]
    generalize List.foldl (bindNext n) (some (t, [])) _ = commit
    rcases commit with _ | ⟨u, cs⟩ <;> rfl

/-! Regions. -/

/-- The context with its regions laid out (R280). -/
def regioned (s : State) (c : Ctx) (p : Plan) : Ctx :=
  let pages := regionPages s c p
  let jb := if c.journal then byHomes c p (journalBytes p) else []
  { c with regionBytes := (List.range 8).foldl (fun (m : SMap Nat) h => m.put 0 h (pages.get 0 h * 4096 + jb.get 0 h)) ([] : SMap Nat),
           stackPages := pages, stackBase := regionBases s pages, exchBytes := byHomes c p (fun t => if p.efOf t.tid then 8 * t.elems else 0) }

/-- The stacks hold the regions of every context. -/
def regionsFit (s : State) : Bool := (List.range 8).all fun h => decide (heldBytes s h ≤ stackBytes s h)

theorem reserveRegions_spelt (s : State) (n : Nat) (c : Ctx) (p : Plan) : reserveRegions s n c p =
    if regionsFit (putCtx s n (regioned s c p)) then some ({ s with freeCtr := s.freeCtr + 8 }, regioned s c p) else none := rfl

/-! Placement. -/

/-- The context on the frames found for it. -/
def framed (c : Ctx) (fr : SMap (List Slot)) : Ctx := { c with state := 2, frames := fr, commitPegs := [] }

theorem formActive_spelt (s : State) (n : Nat) (c : Ctx) (p : Plan) (frames : Option (SMap (List Slot))) : formActive s n c p frames false =
    frames.elim ⟨s, stNoUnits, 0⟩ fun fr => (bindPegs s n (framed c fr) p).elim ⟨s, stNoPegs, 0⟩ fun x =>
      if tagTaken s n p then ⟨s, stTagBusy, 0⟩ else (reserveRegions x.1 n x.2 p).elim ⟨s, stNoMemory, 0⟩ fun y =>
        ⟨wakeHalls (ownFrames (putCtx y.1 n y.2) y.2 (ctxTag s n)) (fr.flatMap (fun f => f.2.map (·.hall)) ++ homeHalls y.2), 0, 0⟩ := by
  cases frames with
  | none => rfl
  | some fr =>
    have bound : formActive s n c p (some fr) false = match bindPegs s n (framed c fr) p with
      | none => ⟨s, stNoPegs, 0⟩
      | some (s1, c2) => if tagTaken s n p then ⟨s, stTagBusy, 0⟩ else match reserveRegions s1 n c2 p with
        | none => ⟨s, stNoMemory, 0⟩
        | some (s2, c3) => ⟨wakeHalls (ownFrames (putCtx s2 n c3) c3 (ctxTag s n)) (fr.flatMap (fun f => f.2.map (·.hall)) ++ homeHalls c3), 0, 0⟩ := rfl
    rw [bound, Option.elim_some]
    rcases bindPegs s n (framed c fr) p with _ | ⟨t, c2⟩
    · rfl
    · dsimp only [Option.elim]
      rcases reserveRegions t n c2 p with _ | ⟨u, c3⟩ <;> rfl

/-- The context in its gauge slot. -/
def slotted (c : Ctx) (slot : Nat) : Ctx := { c with slot := some slot, noFit := false }

/-- The frames of a placement without a table of its own: those it had, where they are free, or those found. -/
def framesFor (s : State) (c : Ctx) (p : Plan) : Option (SMap (List Slot)) :=
  if cacheUsable s c (freeSlots s) then some c.cached else placeFrames c p c.table (freeSlots s)

/-- A placement's end: the copies of the parameters are loaded, or nothing happened. -/
def placed (s : State) (n : Nat) (p : Plan) (d : Did) : Did :=
  if d.status ≠ 0 then { d with s := s } else { d with s := modCtx d.s n (loadCopies p) }

theorem activate_spelt (s : State) (n slot : Nat) : activate s n slot none =
    (getCtx s n).plan.elim ⟨s, stCtxInvalid, 0⟩ fun p =>
      if (getCtx s n).state ≠ 1 then ⟨s, stCtxInvalid, 0⟩ else if 64 ≤ (activeCtxs s).length then ⟨s, stActiveLimit, 0⟩
      else placed s n p (formActive s n (slotted (getCtx s n) slot) p (framesFor s (slotted (getCtx s n) slot) p) false) := by
  let c := slotted (getCtx s n) slot
  have steps : activate s n slot none = match (getCtx s n).plan with
    | none => ⟨s, stCtxInvalid, 0⟩
    | some p => if (getCtx s n).state ≠ 1 then ⟨s, stCtxInvalid, 0⟩ else if false = true then ⟨s, stPlanInvalid, 0⟩
      else if 64 ≤ (activeCtxs s).length then ⟨s, stActiveLimit, 0⟩
      else placed s n p (formActive s n c p
        (if (cacheUsable s c (freeSlots s) && true) = true then some c.cached else placeFrames c p c.table (freeSlots s)) false) := rfl
  rw [steps]
  cases (getCtx s n).plan with
  | none => rfl
  | some p =>
    dsimp only [Option.elim]
    rw [Bool.and_true, if_neg Bool.false_ne_true]
    rfl

/-! What a placement changes. -/

/-- A placement touches frames, pegs, regions, power and the context that is placed. -/
structure Activated (n slot : Nat) (s t : State) : Prop where
  only : t = { s with regs := t.regs, gals := t.gals, pegs := t.pegs, power := t.power, freeCtr := t.freeCtr, ctxs := t.ctxs }
  others : ∀ m, m ≠ n → getCtx t m = getCtx s m
  state : (getCtx t n).state = 2
  slot : (getCtx t n).slot = some slot
  queue : (getCtx t n).queue = (getCtx s n).queue

theorem bindNext_foldl_none (n : Nat) (l : List (Nat × Nat)) : l.foldl (bindNext n) none = none := by
  induction l with
  | nil => rfl
  | cons x l ih => exact ih

theorem bindNext_foldl_pegs {n : Nat} {x : State × List Nat} (l : List (Nat × Nat)) (s : State) (ks : List Nat)
    (found : l.foldl (bindNext n) (some (s, ks)) = some x) : ∃ p, x.1 = { s with pegs := p } := by
  induction l generalizing s ks with
  | nil => exact ⟨s.pegs, by cases found; rfl⟩
  | cons y l ih =>
    rw [List.foldl_cons, bindNext, Option.bind_some] at found
    cases free : findPeg s y.1 with
    | none => rw [free, Option.map_none, bindNext_foldl_none] at found; cases found
    | some k =>
      rw [free, Option.map_some] at found
      obtain ⟨p, eq⟩ := ih _ _ found
      exact ⟨p, eq⟩

theorem bindPegs_binds {s : State} {n : Nat} {c : Ctx} {p : Plan} {x : State × Ctx} (bound : bindPegs s n c p = some x) :
    ∃ pg ks cs, x.1 = { s with pegs := pg } ∧ x.2 = pegsNamed c p ks cs := by
  rw [bindPegs_spelt, Option.bind_eq_some_iff] at bound
  obtain ⟨y, own, rest⟩ := bound
  obtain ⟨z, commit, rfl⟩ := Option.map_eq_some_iff.mp rest
  obtain ⟨p1, eq1⟩ := bindNext_foldl_pegs _ _ _ own
  obtain ⟨p2, eq2⟩ := bindNext_foldl_pegs _ _ _ commit
  exact ⟨p2, y.2, z.2, by rw [eq2, eq1], rfl⟩

theorem reserveRegions_reserves {s : State} {n : Nat} {c : Ctx} {p : Plan} {x : State × Ctx} (reserved : reserveRegions s n c p = some x) :
    x = ({ s with freeCtr := s.freeCtr + 8 }, regioned s c p) := by
  rw [reserveRegions_spelt] at reserved
  split at reserved
  · cases reserved; rfl
  · cases reserved

theorem wakeHalls_only : ∀ (hs : List Nat) (s : State), ∃ w, wakeHalls s hs = { s with power := w }
  | [], s => ⟨s.power, rfl⟩
  | h :: hs, s => by
    obtain ⟨w, rest⟩ := wakeHalls_only hs (wakeHall s h)
    have first : ∃ w, wakeHall s h = { s with power := w } := by
      unfold wakeHall
      split
      · exact ⟨_, rfl⟩
      · exact ⟨s.power, rfl⟩
    obtain ⟨w', eq⟩ := first
    exact ⟨w, by rw [show wakeHalls s (h :: hs) = wakeHalls (wakeHall s h) hs from rfl, rest, eq]⟩

theorem loadCopies_only (p : Plan) (c : Ctx) : ∃ m t, loadCopies p c = { c with chanMax := m, tensors := t } := by
  unfold loadCopies
  generalize p.params = l
  induction l generalizing c with
  | nil => exact ⟨c.chanMax, c.tensors, rfl⟩
  | cons t l ih =>
    rw [List.foldl_cons]
    split
    · split
      · exact ih c
      · exact ih _
    · exact ih c

theorem formActive_placed {s : State} {n : Nat} {c : Ctx} {p : Plan} {fr : Option (SMap (List Slot))} (ok : (formActive s n c p fr false).status = 0)
    {slot : Nat} (inSlot : c.slot = some slot) (queue : c.queue = (getCtx s n).queue) : Activated n slot s (formActive s n c p fr false).s := by
  rw [formActive_spelt] at ok ⊢
  cases fr with
  | none => cases ok
  | some fr =>
    rw [Option.elim_some] at ok ⊢
    cases bound : bindPegs s n (framed c fr) p with
    | none => rw [bound] at ok; cases ok
    | some x =>
      rw [bound, Option.elim_some] at ok
      rw [Option.elim_some]
      by_cases tag : tagTaken s n p = true
      · rw [if_pos tag] at ok; cases ok
      rw [if_neg tag] at ok ⊢
      cases reserved : reserveRegions x.1 n x.2 p with
      | none => rw [reserved] at ok; cases ok
      | some y =>
        rw [Option.elim_some]
        obtain ⟨pg, ks, cs, eqS, eqC⟩ := bindPegs_binds bound
        obtain rfl := reserveRegions_reserves reserved
        generalize hc : regioned x.1 x.2 p = c3
        have state : c3.state = 2 := by rw [← hc, eqC]; rfl
        have slotC : c3.slot = some slot := by rw [← hc, eqC]; exact inSlot
        have queueC : c3.queue = (getCtx s n).queue := by rw [← hc, eqC]; exact queue
        obtain ⟨r, g, owned⟩ := ownFrames_only (ctxTag s n) (c3.frames.flatMap (·.2)) (putCtx { x.1 with freeCtr := x.1.freeCtr + 8 } n c3)
        dsimp only
        rw [ownFrames, owned, eqS]
        obtain ⟨w, woken⟩ := wakeHalls_only (fr.flatMap (fun f => f.2.map (·.hall)) ++ homeHalls c3)
          { putCtx { s with pegs := pg, freeCtr := s.freeCtr + 8 } n c3 with regs := r, gals := g }
        rw [woken]
        have own : getCtx (putCtx s n c3) n = c3 := getCtx_putCtx s n c3
        exact ⟨rfl, fun m other => getCtx_putCtx_ne s other c3, (congrArg Ctx.state own).trans state, (congrArg Ctx.slot own).trans slotC,
          (congrArg Ctx.queue own).trans queueC⟩

theorem placed_status (s : State) (n : Nat) (p : Plan) (d : Did) : (placed s n p d).status = d.status := by
  unfold placed
  split <;> rfl

/-- The context that succeeds in its placement is ACTIVE, in its slot; nothing else of another context changes. -/
theorem activate_placed {s : State} {n slot : Nat} (ok : (activate s n slot none).status = 0) : Activated n slot s (activate s n slot none).s := by
  rw [activate_spelt] at ok ⊢
  cases hp : (getCtx s n).plan with
  | none => rw [hp] at ok; cases ok
  | some p =>
    rw [hp, Option.elim_some] at ok
    rw [Option.elim_some]
    by_cases other : (getCtx s n).state ≠ 1
    · rw [if_pos other] at ok; cases ok
    by_cases full : 64 ≤ (activeCtxs s).length
    · rw [if_neg other, if_pos full] at ok; cases ok
    rw [if_neg other, if_neg full] at ok ⊢
    rw [placed_status] at ok
    have formed := formActive_placed ok (slot := slot) rfl rfl
    rw [placed, if_neg (not_not_intro ok)]
    dsimp only
    generalize (formActive s n (slotted (getCtx s n) slot) p (framesFor s (slotted (getCtx s n) slot) p) false).s = t at formed ⊢
    obtain ⟨m, ts, copies⟩ := loadCopies_only p (getCtx t n)
    have own : getCtx (modCtx t n (loadCopies p)) n = { getCtx t n with chanMax := m, tensors := ts } := by rw [getCtx_modCtx, copies]
    exact ⟨congrArg (fun t : State => { t with ctxs := (modCtx t n (loadCopies p)).ctxs }) formed.only,
      fun k other => (getCtx_modCtx_ne t other _).trans (formed.others k other), (congrArg Ctx.state own).trans formed.state,
      (congrArg Ctx.slot own).trans formed.slot, (congrArg Ctx.queue own).trans formed.queue⟩

/-- A placement that fails leaves all as it was. -/
theorem activate_fails {s : State} {n slot : Nat} (fails : (activate s n slot none).status ≠ 0) : (activate s n slot none).s = s := by
  rw [activate_spelt] at fails ⊢
  cases hp : (getCtx s n).plan with
  | none => rfl
  | some p =>
    rw [hp, Option.elim_some] at fails
    rw [Option.elim_some]
    by_cases other : (getCtx s n).state ≠ 1
    · rw [if_pos other]
    by_cases full : 64 ≤ (activeCtxs s).length
    · rw [if_neg other, if_pos full]
    rw [if_neg other, if_neg full] at fails ⊢
    rw [placed_status] at fails
    rw [placed, if_pos fails]

end Sys2Proof.Machine
end

section
/-! SUPPORT of O21: alike states are placed alike. -/

namespace Sys2Proof.Machine

/-- Two results, of which the second's state is alike and the rest the same. -/
inductive AlikeOpt {α : Type} : Option (State × α) → Option (State × α) → Prop
  | none : AlikeOpt none none
  | some {s t : State} (a : Alike s t) (x : α) : AlikeOpt (some (s, x)) (some (t, x))

/-- Two outcomes of a placement: the same status, alike states. -/
structure AlikeDid (d e : Did) : Prop where
  status : e.status = d.status
  state : Alike d.s e.s

theorem tagTaken_congr {s t : State} (n : Nat) (p : Plan) (ctxs : t.ctxs = s.ctxs) : tagTaken t n p = tagTaken s n p := by
  rw [tagTaken, tagTaken, ctxs]

theorem regionsFit_congr {s t : State} (ctxs : t.ctxs = s.ctxs) (mem : t.mem = s.mem) : regionsFit t = regionsFit s := by
  have held (h : Nat) : heldBytes t h = heldBytes s h := by rw [heldBytes, heldBytes, ctxs]
  have stack (h : Nat) : stackBytes t h = stackBytes s h := by rw [stackBytes, stackBytes, mem]
  exact congrArg (List.all (List.range 8)) (funext fun h => by rw [held, stack])

namespace Alike

theorem bindNext (n : Nat) (y : Nat × Nat) {u v : Option (State × List Nat)} (both : AlikeOpt u v) : AlikeOpt (bindNext n u y) (bindNext n v y) := by
  cases both with
  | none => exact .none
  | @some s t a ks =>
    rw [Machine.bindNext, Machine.bindNext, Option.bind_some, Option.bind_some]
    dsimp only
    rw [a.same (findPeg · y.1) fun _ _ _ _ => rfl]
    cases findPeg s y.1 with
    | none => exact .none
    | some k =>
      refine .some ?_ _
      rw [bindPeg, bindPeg, a.ctxTag]
      exact a.putPeg k _

variable {s t : State} (a : Alike s t)
include a

theorem bindEach (n : Nat) (l : List (Nat × Nat)) : AlikeOpt (bindEach s n l) (bindEach t n l) :=
  List.foldl_rel (r := AlikeOpt) (.some a []) fun y _ _ _ both => bindNext n y both

theorem bindPegs (n : Nat) (c : Ctx) (p : Plan) : AlikeOpt (bindPegs s n c p) (bindPegs t n c p) := by
  rw [bindPegs_spelt, bindPegs_spelt]
  have own := a.bindEach n (planPegSites c p)
  generalize Machine.bindEach s n (planPegSites c p) = x, Machine.bindEach t n (planPegSites c p) = y at own ⊢
  cases own with
  | none => exact .none
  | @some u v b ks =>
    have commit := b.bindEach n (commitPegSites c)
    rw [Option.bind_some, Option.bind_some]
    dsimp only
    generalize Machine.bindEach u n (commitPegSites c) = x, Machine.bindEach v n (commitPegSites c) = y at commit ⊢
    cases commit with
    | none => exact .none
    | some b cs => exact .some b _

theorem regioned (c : Ctx) (p : Plan) : regioned t c p = Machine.regioned s c p := by
  have shares : declaredShares t c p = declaredShares s c p := by
    unfold declaredShares positionsHere
    rw [a.deviceId]
  have pages : regionPages t c p = regionPages s c p := by
    unfold regionPages
    rw [shares]
  unfold Machine.regioned
  dsimp only
  rw [pages, a.same (regionBases · (regionPages s c p)) fun _ _ _ _ => rfl]

theorem reserveRegions (n : Nat) (c : Ctx) (p : Plan) : AlikeOpt (reserveRegions s n c p) (reserveRegions t n c p) := by
  rw [reserveRegions_spelt, reserveRegions_spelt, a.regioned]
  have b := a.putCtx n (Machine.regioned s c p)
  rw [regionsFit_congr (b.same State.ctxs fun _ _ _ _ => rfl) (b.same State.mem fun _ _ _ _ => rfl)]
  split
  · exact .some (a.map (fun u => { u with freeCtr := u.freeCtr + 8 }) (fun _ => rfl) fun r e z d => ⟨r, e, z, d, rfl⟩) _
  · exact .none

theorem formActive (n : Nat) (c : Ctx) (p : Plan) (frames : Option (SMap (List Slot))) :
    AlikeDid (formActive s n c p frames false) (formActive t n c p frames false) := by
  rw [formActive_spelt, formActive_spelt]
  cases frames with
  | none =>
    rw [Option.elim_none, Option.elim_none]
    exact ⟨rfl, a⟩
  | some fr =>
    rw [Option.elim_some, Option.elim_some, tagTaken_congr n p (a.same State.ctxs fun _ _ _ _ => rfl), a.ctxTag]
    have bound := a.bindPegs n (framed c fr) p
    generalize Machine.bindPegs s n (framed c fr) p = x, Machine.bindPegs t n (framed c fr) p = y at bound ⊢
    cases bound with
    | none =>
      rw [Option.elim_none, Option.elim_none]
      exact ⟨rfl, a⟩
    | @some u v b c2 =>
      rw [Option.elim_some, Option.elim_some]
      dsimp only
      split
      · exact ⟨rfl, a⟩
      · have reserved := b.reserveRegions n c2 p
        generalize Machine.reserveRegions u n c2 p = x, Machine.reserveRegions v n c2 p = y at reserved ⊢
        cases reserved with
        | none =>
          rw [Option.elim_none, Option.elim_none]
          exact ⟨rfl, a⟩
        | some b c3 =>
          rw [Option.elim_some, Option.elim_some]
          exact ⟨rfl, ((b.putCtx n c3).ownFrames c3 _).wakeHalls _⟩

theorem placed (n : Nat) (p : Plan) {d e : Did} (b : AlikeDid d e) : AlikeDid (placed s n p d) (placed t n p e) := by
  unfold Machine.placed
  rw [b.status]
  split
  · exact ⟨rfl, a⟩
  · exact ⟨rfl, b.state.modCtx n _⟩

theorem framesFor (c : Ctx) (p : Plan) : framesFor t c p = Machine.framesFor s c p := by
  unfold Machine.framesFor cacheUsable
  rw [a.regs pgScribe Reg.PL_CTRL (awayPage_pgScribe _ (by decide)), a.same freeSlots fun _ _ _ _ => rfl]

theorem activate (n slot : Nat) : AlikeDid (activate s n slot none) (activate t n slot none) := by
  rw [activate_spelt, activate_spelt, a.ctx, a.same activeCtxs fun _ _ _ _ => rfl]
  cases (getCtx s n).plan with
  | none => exact ⟨rfl, a⟩
  | some p =>
    rw [Option.elim_some, Option.elim_some, a.framesFor]
    split
    · exact ⟨rfl, a⟩
    · split
      · exact ⟨rfl, a⟩
      · exact a.placed n p (a.formActive n ..)

end Alike

theorem Alike.keepMax {s t : State} (a : Alike s t) {p : Page} {off : Nat} (away : offPort p off) (n : Nat) : Alike (keepMax s p off n) (keepMax t p off n) := by
  rw [Machine.keepMax, Machine.keepMax, a.regs p off away]
  exact a.regSet ..

theorem Alike.noteSwitch {s t : State} (a : Alike s t) (o : Origin) (n : Nat) : Alike (noteSwitch s o n) (noteSwitch t o n) := by
  have word : freeNext t = (Config.freeWord s.freeCtr, { t with freeCtr := s.freeCtr + 1 }) := by
    rw [freeNext, a.same (·.freeCtr) fun _ _ _ _ => rfl]
  have drawn : Alike { s with freeCtr := s.freeCtr + 1 } { t with freeCtr := s.freeCtr + 1 } :=
    a.map (fun u => { u with freeCtr := s.freeCtr + 1 }) (fun _ => rfl) fun r e z d => ⟨r, e, z, d, rfl⟩
  have noted := (drawn.regSet pgScribe Reg.PL_SW_LAST (Config.freeWord s.freeCtr).toNat).keepMax (off := Reg.PL_SW_MAX) (awayPage_pgScribe _ (by decide))
    (Config.freeWord s.freeCtr).toNat
  have bounded : switchBounded t o n = switchBounded s o n := a.same (switchBounded · o n) fun _ _ _ _ => rfl
  unfold Machine.noteSwitch
  rw [word, bounded]
  dsimp only [freeNext]
  split
  · exact (setErr awayPage_pgScribe (by decide) noted 5).both (logFault ..) (logFault ..)
  · exact noted

theorem Alike.switchCtxs {s t : State} (a : Alike s t) (o : Origin) (outs : List Nat) (n : Nat) : AlikeDid (switchCtxs s o outs n none) (switchCtxs t o outs n none) := by
  have ctxs : getCtx t = getCtx s := funext a.ctx
  have released := foldl a (l := outs) fun k _ u v b => b.releaseActive k
  unfold Machine.switchCtxs
  rw [ctxs, a.same freeSlot fun _ _ _ _ => rfl]
  split
  · exact ⟨rfl, a⟩
  · extract_lets slot s1 d t1 e
    have placed : AlikeDid d e := released.activate n slot
    rw [placed.status]
    split
    · exact ⟨rfl, a⟩
    · exact ⟨rfl, placed.state.noteSwitch o n⟩

end Sys2Proof.Machine
end

section
/-! O21: ACTIVATE and SWITCH (R275, R279, R282, R284, R310). -/

namespace Sys2Proof.Machine

/-! The state in which a command acts is alike the one it met. -/

/-- A map in its canonical form is what it reads as. -/
theorem SMap.eq_of_get {α : Type} {d : α} {lo : Nat} {m w : SMap α} (hm : sortedFrom lo m = true) (hw : sortedFrom lo w = true)
    (lm : ∀ e ∈ m, e.2 ≠ d) (lw : ∀ e ∈ w, e.2 ≠ d) (same : ∀ k, get d k m = get d k w) : m = w := by
  induction m generalizing lo w with
  | nil =>
    cases w with
    | nil => rfl
    | cons e w => exact absurd (by simpa [get, find] using (same e.1).symm) (lw e List.mem_cons_self)
  | cons e m ih =>
    cases w with
    | nil => exact absurd (by simpa [get, find] using same e.1) (lm e List.mem_cons_self)
    | cons f w =>
      obtain ⟨i, v⟩ := e
      obtain ⟨j, x⟩ := f
      simp only [sortedFrom, Bool.and_eq_true, decide_eq_true_eq] at hm hw
      have missM {k : Nat} (below : k ≤ i) : find k m = none := find_none_of_lt hm.2 (by omega)
      have missW {k : Nat} (below : k ≤ j) : find k w = none := find_none_of_lt hw.2 (by omega)
      have key : i = j := by
        rcases Nat.lt_trichotomy i j with lt | eq | gt
        · have at_ := same i
          simp only [get, find, if_pos, if_neg (show ¬ j = i by omega), missW (show i ≤ j by omega)] at at_
          exact absurd at_ (lm (i, v) List.mem_cons_self)
        · exact eq
        · have at_ := same j
          simp only [get, find, if_pos, if_neg (show ¬ i = j by omega), missM (show j ≤ i by omega)] at at_
          exact absurd at_.symm (lw (j, x) List.mem_cons_self)
      subst key
      have value : v = x := by simpa [get, find] using same i
      subst value
      refine congrArg _ (ih hm.2 hw.2 (fun e he => lm e (List.mem_cons_of_mem _ he)) (fun e he => lw e (List.mem_cons_of_mem _ he)) fun k => ?_)
      by_cases here : k = i
      · rw [get, get, missM (by omega), missW (by omega)]
      · have at_ := same k
        simpa only [get, find, if_neg (Ne.symm here)] using at_

theorem Acting.alike {s v : State} (a : Acting s v) (wf : SMap.wf {} s.ctxs = true) (wf' : SMap.wf {} v.ctxs = true) : Alike s v := by
  simp only [SMap.wf, Bool.and_eq_true, SMap.lean_iff] at wf wf'
  have ctxs : v.ctxs = s.ctxs := SMap.eq_of_get wf'.1 wf.1 wf'.2 wf.2 a.ctx
  exact ⟨⟨v.regs, v.ec, v.host.sessions, v.host.devRings, a.only.trans (congrArg (fun x => { s with
    regs := v.regs, ec := v.ec, ctxs := x, host := { s.host with sessions := v.host.sessions, devRings := v.host.devRings } }) ctxs)⟩, a.regs⟩

/-- What a context's command does on a state alike holds of the step. -/
theorem exec_alike {h : Hdr} {s : State} {c : Instr} {payload n : Nat} {cmd : HostCmd} {P : State → Prop} (ht : taken h s = true)
    (wf : SMap.wf {} s.ctxs = true) (entry : exec c s = .next (datagram h payload cmd s))
    (queued : ∀ u, runCmd u (originOf h) h.ctx cmd = enqueueCmd u (originOf h) n cmd)
    (free : queueFree s n = true) (may : mayAct s n cmd = true) (notAdmit : ∀ off len, cmd ≠ .admit_ off len)
    (notEval : ∀ e take off len, cmd ≠ .eval e take off len)
    (does : ∀ v, Alike s v → (getCtx (ctxCmd v (originOf h) n cmd) n).queue = [] ∧ P (ctxCmd v (originOf h) n cmd)) :
    ∃ t, exec c s = .next t ∧ P t := by
  obtain ⟨v, a, wfV, run⟩ := datagram_acts ht payload queued free may notAdmit notEval
  obtain ⟨last, holds⟩ := does v (a.alike wf (wfV wf))
  exact ⟨_, entry, run last ▸ holds⟩

/-! Answers. -/

theorem refuse_responds (s : State) (h : Hdr) (st : Nat) : ∃ w, portOnly s w ∧ refuse s (originOf h) st [] = respond w (originOf h) st [] := by
  have err (i : Nat) : portOnly s (setErr s pgScribe i) := .recorded (setErr_recorded s pgScribe i)
  unfold refuse
  refine ⟨_, ?_, rfl⟩
  split
  · exact err 0
  · split
    · exact err 1
    · split
      · exact err 2
      · exact portOnly_refl s

theorem refuse_dispatched {s v : State} (a : Alike s v) (h : Hdr) (st : Nat) : dispatchedOn [respOf h st []] [] s (refuse v (originOf h) st []) := by
  obtain ⟨w, port, eq⟩ := refuse_responds v h st
  obtain ⟨r, e, z, d, rfl⟩ := portOnly_trans a.port port
  rw [eq]
  exact ⟨fun _ _ => rfl, rfl, rfl⟩

theorem noteSwitch_only (s : State) (o : Origin) (n : Nat) :
    ∃ r e d f, noteSwitch s o n = { s with regs := r, ec := e, freeCtr := f, host := { s.host with devRings := d } } := by
  unfold noteSwitch
  extract_lets f s1
  split
  · obtain ⟨r, e, d, eq⟩ := setErr_only s1 pgScribe 5
    obtain ⟨r2, e2, d2, eq2⟩ := logFault_only (setErr s1 pgScribe 5) { kind := 8, device := deviceId s }
    exact ⟨r2, e2, d2, s.freeCtr + 1, by rw [eq2, eq]; rfl⟩
  · exact ⟨s1.regs, s.ec, s.host.devRings, s.freeCtr + 1, rfl⟩

/-! Contexts given back (R282). -/

theorem releaseActive_ctx (s : State) (n m : Nat) : (getCtx (releaseActive s n) m).queue = (getCtx s m).queue ∧
    (getCtx (releaseActive s n) m).state = if m = n then 1 else (getCtx s m).state := by
  have freed : ReportsOnly s (freePegs s (getCtx s n) false) := by
    refine .foldl (fun t k => ?_) _ s
    exact (putPeg_reportsOnly ..).trans ((ReportsOnly.foldl (endWait_reportsOnly _) _ _).trans (updateGroup_reportsOnly ..))
  obtain ⟨r, g, owned⟩ := ownFrames_only 0 ((getCtx s n).frames.flatMap (·.2)) (freePegs s (getCtx s n) false)
  have kept : ReportsOnly s (ownFrames (freePegs s (getCtx s n) false) (getCtx s n) 0) := by
    rw [ownFrames, owned]
    exact freed.trans (.of_ctxs rfl)
  unfold releaseActive
  dsimp only
  by_cases here : m = n
  · subst here
    rw [getCtx_putCtx, if_pos rfl]
    exact ⟨(congrArg Ctx.queue (kept.same m) :), rfl⟩
  · rw [getCtx_putCtx_ne _ here, if_neg here]
    exact ⟨(congrArg Ctx.queue (kept.same m) :), (congrArg Ctx.state (kept.same m) :)⟩

theorem released_ctx (outs : List Nat) (s : State) (m : Nat) : (getCtx (outs.foldl releaseActive s) m).queue = (getCtx s m).queue ∧
    (getCtx (outs.foldl releaseActive s) m).state = if m ∈ outs then 1 else (getCtx s m).state := by
  induction outs generalizing s with
  | nil => exact ⟨rfl, (if_neg List.not_mem_nil).symm⟩
  | cons n outs ih =>
    obtain ⟨queue, state⟩ := ih (releaseActive s n)
    obtain ⟨queue1, state1⟩ := releaseActive_ctx s n m
    rw [List.foldl_cons]
    refine ⟨queue.trans queue1, state.trans ?_⟩
    rw [state1]
    by_cases here : m = n <;> simp [here]

/-- A switch that succeeds gave its ACTIVE contexts back and placed the other (R282). -/
theorem switchCtxs_switched {s : State} {o : Origin} {outs : List Nat} {n : Nat} (ok : (switchCtxs s o outs n none).status = 0) :
    (∀ k, k ∈ outs → (getCtx s k).state = 2) ∧
    ∃ slot t, Activated n slot (outs.foldl releaseActive s) t ∧ (switchCtxs s o outs n none).s = noteSwitch t o n := by
  unfold switchCtxs at ok ⊢
  by_cases bad : (outs.any (fun k => (getCtx s k).state != 2) || outs.length > 8) = true
  · rw [if_pos bad] at ok; cases ok
  rw [if_neg bad] at ok ⊢
  have active : ∀ k, k ∈ outs → (getCtx s k).state = 2 := by
    simp only [Bool.or_eq_true, List.any_eq_true, bne_iff_ne, not_or, not_exists, not_and, not_not] at bad
    exact bad.1
  extract_lets slot released d at ok ⊢
  by_cases fails : d.status ≠ 0
  · rw [if_pos fails] at ok; exact absurd ok fails
  rw [if_neg fails]
  exact ⟨active, slot, d.s, activate_placed (not_not.mp fails), rfl⟩

/-! The two commands. -/

theorem answerDid_ok {d : Did} (ok : d.status = 0) (o : Origin) : answerDid d o = answer d.s o stOk := if_pos ok

/-- ACTIVATE where the placement succeeds. -/
theorem doActivate_placed {v : State} {n : Nat} (o : Origin) (good : v.boot.failedUnit = none) (ok : (activate v n (freeSlot v) none).status = 0) :
    doActivate v o n none = answer (noteSwitch (activate v n (freeSlot v) none).s o n) o stOk := by
  rw [doActivate, good]
  dsimp only [Option.isSome_none]
  rw [if_neg Bool.false_ne_true, if_pos ok]
  exact answerDid_ok (d := ⟨noteSwitch _ o n, _, _⟩) ok o

/-- ACTIVATE where it fails. -/
theorem doActivate_fails {v : State} {n : Nat} (o : Origin) (good : v.boot.failedUnit = none) (fails : (activate v n (freeSlot v) none).status ≠ 0) :
    doActivate v o n none = refuse v o (activate v n (freeSlot v) none).status [] := by
  rw [doActivate, good]
  dsimp only [Option.isSome_none]
  rw [if_neg Bool.false_ne_true, if_neg fails, answerDid, if_neg fails, activate_fails fails]

/-- SWITCH where the placement succeeds. -/
theorem doSwitch_placed {v : State} {outs : List Nat} {n : Nat} (o : Origin) (good : v.boot.failedUnit = none)
    (ok : (switchCtxs v o outs n none).status = 0) : doSwitch v o outs n none = answer (switchCtxs v o outs n none).s o stOk := by
  rw [doSwitch, good]
  dsimp only [Option.isSome_none]
  rw [if_neg Bool.false_ne_true]
  exact answerDid_ok ok o

/-- With a failed hall-edge engine neither command runs (R310). -/
theorem doActivate_barred {v : State} (o : Origin) (n : Nat) (bad : v.boot.failedUnit.isSome = true) : doActivate v o n none = refuse v o stUnitFailed [] := if_pos bad

theorem doSwitch_barred {v : State} (o : Origin) (outs : List Nat) (n : Nat) (bad : v.boot.failedUnit.isSome = true) :
    doSwitch v o outs n none = refuse v o stUnitFailed [] := if_pos bad

section Refusals

variable {h : Hdr} {s v : State} (a : Alike s v) {n : Nat} (free : queueFree s n = true)
include a free

/-- A refusal leaves the queue empty. -/
theorem refuse_settles (st : Nat) : (getCtx (refuse v (originOf h) st []) n).queue = [] ∧ dispatchedOn [respOf h st []] [] s (refuse v (originOf h) st []) := by
  have done := refuse_dispatched a h st
  exact ⟨(congrArg Ctx.queue (done.1 n (by simp))).trans ((queueFree_iff s n).mp free).1, done⟩

end Refusals

/-- The state in which an activation ends. -/
theorem activated_ends {s v : State} (a : Alike s v) {h : Hdr} {n : Nat} (free : queueFree s n = true) (ok : (activate s n (freeSlot s) none).status = 0) :
    let d := activate s n (freeSlot s) none
    let t := answer (noteSwitch (activate v n (freeSlot v) none).s (originOf h) n) (originOf h) stOk
    (getCtx t n).queue = [] ∧ t.out = d.s.out ++ [respOf h 0 []] ∧ (∀ m, getCtx t m = getCtx d.s m) ∧ t.pegs = d.s.pegs ∧
      (getCtx t n).state = 2 ∧ (getCtx t n).slot = some (freeSlot s) ∧ (∀ m, m ≠ n → getCtx t m = getCtx s m) ∧
      t.host.qps = s.host.qps ∧ t.mem = s.mem ∧ t.boot = s.boot := by
  intro d t
  have slot : freeSlot v = freeSlot s := a.same freeSlot fun _ _ _ _ => rfl
  have both : AlikeDid d (activate v n (freeSlot v) none) := by rw [slot]; exact a.activate n (freeSlot s)
  have done : Activated n (freeSlot s) s d.s := activate_placed ok
  obtain ⟨r, e, w, f, noted⟩ := noteSwitch_only (activate v n (freeSlot v) none).s (originOf h) n
  obtain ⟨r', e', z', w', same⟩ := both.state.port
  have ctx (m : Nat) : getCtx t m = getCtx d.s m := by
    show getCtx (noteSwitch _ _ _) m = _
    rw [noted, same]
    rfl
  have frame : t.host.qps = d.s.host.qps ∧ t.mem = d.s.mem ∧ t.boot = d.s.boot ∧ t.pegs = d.s.pegs ∧ t.out = d.s.out ++ [respOf h 0 []] := by
    show (noteSwitch _ _ _).host.qps = _ ∧ (noteSwitch _ _ _).mem = _ ∧ (noteSwitch _ _ _).boot = _ ∧ (noteSwitch _ _ _).pegs = _ ∧
      (noteSwitch _ _ _).out ++ [respOf h 0 []] = _
    rw [noted, same]
    exact ⟨rfl, rfl, rfl, rfl, rfl⟩
  obtain ⟨qps, mem, boot, pegs, out⟩ := frame
  have only := done.only
  refine ⟨?_, out, ctx, pegs, ?_, ?_, fun m other => (ctx m).trans (done.others m other), qps.trans ?_, mem.trans ?_, boot.trans ?_⟩
  · rw [ctx, done.queue]
    exact ((queueFree_iff s n).mp free).1
  · rw [ctx, done.state]
  · rw [ctx, done.slot]
  all_goals rw [only]

/-- The state in which a switch ends. -/
theorem switched_ends {s v : State} (a : Alike s v) {h : Hdr} {outs : List Nat} {n : Nat} (free : queueFree s n = true)
    (ok : (switchCtxs s (originOf h) outs n none).status = 0) :
    let e := switchCtxs s (originOf h) outs n none
    let t := answer (switchCtxs v (originOf h) outs n none).s (originOf h) stOk
    (getCtx t n).queue = [] ∧ t.out = e.s.out ++ [respOf h 0 []] ∧ (∀ m, getCtx t m = getCtx e.s m) ∧ t.pegs = e.s.pegs ∧
      (getCtx t n).state = 2 ∧ (∀ k, k ∈ outs → k ≠ n → (getCtx t k).state = 1) ∧ (∀ k, k ∈ outs → (getCtx s k).state = 2) := by
  intro e t
  obtain ⟨active, slot, u, done, ends⟩ := switchCtxs_switched ok
  obtain ⟨r, x, w, f, noted⟩ := noteSwitch_only u (originOf h) n
  obtain ⟨r', x', z', w', same⟩ := (a.switchCtxs (originOf h) outs n).state.port
  have ctx (m : Nat) : getCtx t m = getCtx e.s m := by
    show getCtx (switchCtxs v (originOf h) outs n none).s m = _
    rw [same]
    rfl
  have ctxU (m : Nat) : getCtx e.s m = getCtx u m := by
    show getCtx (switchCtxs s (originOf h) outs n none).s m = _
    rw [ends, noted]
    rfl
  have frame : t.pegs = e.s.pegs ∧ t.out = e.s.out ++ [respOf h 0 []] := by
    show (switchCtxs v (originOf h) outs n none).s.pegs = _ ∧ (switchCtxs v (originOf h) outs n none).s.out ++ [respOf h 0 []] = _
    rw [same]
    exact ⟨rfl, rfl⟩
  obtain ⟨pegs, out⟩ := frame
  refine ⟨?_, out, ctx, pegs, ?_, fun k mem other => ?_, active⟩
  · rw [ctx, ctxU, done.queue, (released_ctx outs s n).1]
    exact ((queueFree_iff s n).mp free).1
  · rw [ctx, ctxU, done.state]
  · rw [ctx, ctxU, done.others k other, (released_ctx outs s k).2, if_pos mem]

/-- Settles O21: dispatch leaves a state alike the one met, in which the placement comes out alike. -/
theorem activateAndSwitch : Obligations.ActivateAndSwitch := by
  intro h n outs s ht free wf d e
  have activates (own : h.ctx = n) {P : State → Prop} (does : ∀ v, Alike s v → v.boot = s.boot →
      (getCtx (doActivate v (originOf h) n none) n).queue = [] ∧ P (doActivate v (originOf h) n none)) :
      ∃ t, exec (.activate h none) s = .next t ∧ P t :=
    exec_alike ht wf rfl (fun _ => by rw [← own]; rfl) free rfl (fun _ _ => by simp) (fun _ _ _ _ => by simp) fun v a =>
      does v a (a.same State.boot fun _ _ _ _ => rfl)
  have switches (quiet : ∀ k, k ∈ outs → cmdBoundary s k = true) {P : State → Prop} (does : ∀ v, Alike s v → v.boot = s.boot →
      (getCtx (doSwitch v (originOf h) outs n none) n).queue = [] ∧ P (doSwitch v (originOf h) outs n none)) :
      ∃ t, exec (.switch h outs n none) s = .next t ∧ P t :=
    exec_alike ht wf rfl (fun _ => rfl) free (List.all_eq_true.mpr quiet) (fun _ _ => by simp) (fun _ _ _ _ => by simp) fun v a =>
      does v a (a.same State.boot fun _ _ _ _ => rfl)
  have statusV {v : State} (a : Alike s v) : (activate v n (freeSlot v) none).status = d.status := by
    rw [a.same freeSlot fun _ _ _ _ => rfl]
    exact (a.activate n (freeSlot s)).status
  refine ⟨fun good own ok => activates own fun v a boot => ?_, fun good own fails => activates own fun v a boot => ?_,
    fun good quiet ok => switches quiet fun v a boot => ?_,
    fun bad => ⟨fun own => activates own fun v a boot => ?_, fun quiet => switches quiet fun v a boot => ?_⟩⟩
  · rw [doActivate_placed _ (by rw [boot]; exact good) ((statusV a).trans ok)]
    exact activated_ends a free ok
  · rw [doActivate_fails _ (by rw [boot]; exact good) (by rw [statusV a]; exact fails), statusV a]
    exact refuse_settles a free d.status
  · rw [doSwitch_placed _ (by rw [boot]; exact good) ((a.switchCtxs (originOf h) outs n).status.trans ok)]
    exact switched_ends a free ok
  · rw [doActivate_barred _ n (by rw [boot]; exact bad)]
    exact refuse_settles a free 0x3C
  · rw [doSwitch_barred _ outs n (by rw [boot]; exact bad)]
    exact refuse_settles a free 0x3C

end Sys2Proof.Machine
end
